-- ==== Sys2Proof/Word.lean ====
section
/-! DEFINITION. The plain number types of the LZN-416 and nothing else (R3: little-endian words, bit 0 least significant). -/

namespace Sys2Proof

/-- One byte of a frame, of a memory word or of a message. -/
abbrev Byte := BitVec 8

/-- One 32-bit register (R10). -/
abbrev Word := BitVec 32

/-- One of the four strands S0 to S3 (R21). -/
abbrev StrandId := Fin 4

end Sys2Proof
end

