-- ==== Sys2Proof/Machine/CmdTypes.lean ====
section
/-! DEFINITION. The operand types of the commands: masters, D32 operands, and what a start, an image or a Ngufotu request brings
from outside the device. -/

namespace Sys2Proof.Machine

/-- Who makes an access (R20, R430): the host on link A (`false`) or B, the core of a strand, or the Loupe pair.  (DESIGN CHOICE, safe: log entry 6.) -/
inductive Master where
  | host (link : Bool)
  | core (s : StrandId)
  | loupe
deriving DecidableEq, Repr

/-! ## D32 operands (R364, R371) -/

/-- The second source of a format A instruction: a register or an immediate. -/
inductive DSrc where
  | reg (n : Fin 16)
  | imm (v : BitVec 12)
deriving DecidableEq, Repr

/-- The count of a shift: a register or an immediate (R371). -/
inductive DCnt where
  | reg (n : Fin 16)
  | imm (v : BitVec 8)
deriving DecidableEq, Repr

/-- The addressing mode of a load or store: displacement, post-increment, pre-decrement, index. -/
inductive DMode where
  | disp (d : BitVec 12)
  | postInc
  | preDec
  | index (wi : Fin 16) (sh : Fin 4)
deriving DecidableEq, Repr

/-- Who drives a pad from the board: nobody, or a level (R509).  (DESIGN CHOICE, unsafe: log entry 23.) -/
inductive PadIn where
  | floating | low | high
deriving DecidableEq, Repr

/-- Where and when a Bead instruction executes: strand, engine, the strand cycles since the command before it, the board's changes
of pad drive before those cycles, side-set enable and value, delay, and how its fetch fared: 0 clean, 1 clean after one refetch, 2
failing twice (R79, R86, R87).  (DESIGN CHOICE, unsafe: log entry 3.)  (DESIGN CHOICE, unsafe: log entry 23.) -/
structure BeadAt where
  st : StrandId
  n : Fin 16
  gap : Nat
  board : List (Fin 24 × PadIn)
  sse : Bool
  ss : Fin 4
  dly : Fin 16
  par : Fin 3
deriving DecidableEq, Repr

/-! ## Starts, images and requests -/

/-- What the configuration's DEVICE and PACKAGES records say (R464). -/
structure CfgDev where
  usable : Bool := true
  base : Nat := 4
  degraded : Bool := false
  /-- The essential set, the configured strands, and the enabled fence triggers by SUP_CAUSE bit, as masks. -/
  essential : Nat := 0
  strands : Nat := 0
  policy : Nat := 0
  /-- CFG_FMT of the copy. -/
  fmt : Nat := 0
deriving DecidableEq, Repr

/-- What a start of the load phase finds in the flashes (R462, R463): whether header and payload of each slot pass, and what the
configuration copy CFG_CUR holds. -/
structure StartIn where
  slot0 : Bool := false
  slot1 : Bool := false
  /-- How the reads of slot 0, of slot 1 and of the configuration copy come out: 0 at once, 1 from FLASH_B at the second read, 2 not (R456). -/
  read0 : Nat := 0
  read1 : Nat := 0
  readCfg : Nat := 0
  cfg : CfgDev := {}
  /-- The read of the Hallmark's header or identity meets an uncorrectable error (R401). -/
  hmErr : Bool := false
deriving DecidableEq, Repr

/-- How a Ngufotu request arrives and how its verification comes out (R441, R444 to R447).  `path`: 0 and 1 the request buffer of
link A and B, 2 the service port, 16 + s the strand path of strand s. -/
structure NguHdr where
  path : Nat
  txn : Nat
  /-- Time since the command before, in ns. -/
  gap : Nat := 0
  /-- FLAGS.SIGNED, KEY and NONCE. -/
  signed : Bool := false
  key : Nat := 0
  nonce : Nat := 0
  /-- The key's hash is the one in its slot and the signature verifies. -/
  good : Bool := false
deriving DecidableEq, Repr

/-! ## Frames and messages that arrive -/

/-- A frame as it arrives on the wire: its bytes without the FCS, its errors, and how it was fragmented (R111, R112, R115, R125); `frags` is 1
for a frame that was not.  Such a frame starts with the command that brings it, its byte 0 crossing the boundary in that cycle; one put
together from fragments is whole at its command.  (DESIGN CHOICE, unsafe: log entry 42.) -/
structure RxWire where
  bytes : List Byte
  fcsBad : Bool
  symErr : Bool
  linkLost : Bool
  frags : Nat
  assyErr : Bool
  /-- Of a frame put together from fragments: cycles since the time-stamp point of the first. -/
  age : Nat := 0
deriving DecidableEq, Repr

/-- What the ECC check of a buffer read finds (R166): nothing, an error corrected with a clean re-read, one that the re-read finds again, or
an uncorrectable one that ends the frame after so many bytes; `bad` says whether the cell fails the test when it is freed.  (DESIGN CHOICE,
safe: log entry 175.) -/
inductive BufErr where
  | clean
  | corrected
  | stuck (bad : Bool)
  | lost (bytes : Nat) (bad : Bool)
deriving DecidableEq, Repr

/-- What ends a forwarded frame early: nothing, an underrun or an overrun of the FIFO after that many bytes (R136). -/
inductive FifoEnd where
  | none
  | underrun (bytes : Nat)
  | overrun (bytes : Nat)
deriving DecidableEq, Repr

/-- A Ngufotu message that no operation takes (R443, R444, R447, R448). -/
inductive MsgKind where
  | badOp (op : Nat)
  | badFormat (op : Nat)
  | badSignature (op : Nat)
  | wrongTarget
  | response (op : Nat)
  | badFrame
deriving DecidableEq, Repr

/-! ## Snapshots, reports and BAR2 -/

/-- The units of a strand that have a snapshot command. -/
inductive StrandUnit where
  | bead (n : Fin 16)
  | mac (p : Fin 4)
  | pt (p : Fin 4)
  | switch | dma | time | bangle | filigree | mapper | bank | core | ledger
deriving DecidableEq, Repr

/-- All units that have a snapshot command. -/
inductive SnapUnit where
  | strand (i : StrandId) (u : StrandUnit)
  | clasp
  | locket (c : Fin 64)
  | loupe
  | update
deriving DecidableEq, Repr

/-- What an accumulator report carries: a ring's accumulator of a strand, or a merge group's (R319, R322). -/
inductive AccOf where
  | ring (i : StrandId) (r : Fin 20)
  | group (g : Fin 8)
deriving DecidableEq, Repr

/-- Whose read-back returns: a strand's, or a merge group's (R296, R324). -/
inductive BackOf where
  | strand (i : StrandId)
  | group (g : Fin 8)
deriving DecidableEq, Repr

/-- A host access through BAR2: a read of so many bytes, or a write. -/
inductive HostAcc where
  | read (n : Nat)
  | write (bytes : List Byte)
deriving DecidableEq, Repr

end Sys2Proof.Machine
end

