-- ==== Sys2Proof/Syntax.lean ====
section
/-! DEFINITION. The commands of the LZN-416: one constructor per row of the opcode table.  `m` is the master that makes an access,
`i` a strand, `n` a Bead engine, `p` a port, `e` an egress port, `q` a queue, `k` an entry, `b` a PCIe link (false A, true B), `c` a
core (4 the Loupe pair) or a Locket channel, `g` a guard.  `dt` is the time since the command before it, in ns: commands
between which no time passes fall in one cycle.  Operands carry what comes from outside or from physics (DESIGN CHOICE, safe: log
entry 8). -/

namespace Sys2Proof

open Machine

/-- The commands. -/
inductive Instr where
  /-- REGISTER_WRITE (R11). A master writes a register that has no row of its own; each field acts by its access code, and
  short or reserved writes are discarded. `addr` is an address of the master's own map, `v` the number of the `size` bytes. -/
  | registerWrite (dt : Nat) (m : Master) (addr : Nat) (size : Nat) (v : Nat)
  /-- SNAP (R17). A unit's snapshot-and-clear command copies every counter of the unit into its snapshot registers and zeroes
  the live counters in one cycle. -/
  | snap (dt : Nat) (m : Master) (u : SnapUnit)
  /-- POR (R27). PORST_N low, a core rail below 0.72 V or a fall of VDD_AON resets everything and marks the retention banks
  invalid. -/
  | por (dt : Nat)
  /-- POR_END (R44). POR ends and the ROM runs the start sequence, choosing MD11, MD10, MD1 or MD2 by T1 to T4. TEST_EN and
  RECOVERY_N as sampled; the SIZE_LOG2 each flash answers, or none; and what a start then finds in the flashes. -/
  | porEnd (dt : Nat) (testEn : Bool) (recoveryN : Bool) (flashA : Option Nat) (flashB : Option Nat) (start : StartIn)
  /-- STRAND_WARM (R27). A warm reset of one strand resets its logic, core, Bead engines, ports and time base, keeps the
  retention banks and returns it to LOADING. -/
  | strandWarm (dt : Nat) (i : StrandId)
  /-- STRAND_COLD (R27). A cold reset of one strand resets all of it, clears the ledger and leaves it OFF.
  `relock`: its source is a PLL that locks again, not the Loupe. -/
  | strandCold (dt : Nat) (i : StrandId) (relock : Bool)
  /-- LINK_RESET (R27). PERST, a PCIe hot reset, a link down or an FLR resets one link's PCIe logic, configuration, MSI-X table
  and credits. -/
  | linkReset (dt : Nat) (b : Bool)
  /-- LOUPE_RESET (R27). The Loupe pair, its SRAM except the Hallmark and log ring, and the management link are reset; strands
  continue. `cause`: 0 lockstep, 1 watchdog, 2 command. -/
  | loupeReset (dt : Nat) (cause : Fin 3)
  /-- LOCKSTEP_MISMATCH (R428). The comparator sees the two Loupe cores differ, stops both within 2 Loupe cycles and raises
  LOUPE_RESET. -/
  | lockstepMismatch (dt : Nat)
  /-- LOUPE_WDOG_EXPIRY (R428). The 500 ms Loupe watchdog expires and raises LOUPE_RESET. -/
  | loupeWdogExpiry (dt : Nat)
  /-- CLASP_INTERNAL_RESET (R332). A compared-halves mismatch drops both links, resets all Clasp state and starts a 50 µs
  self-check. -/
  | claspInternalReset (dt : Nat)
  /-- CLASP_SELF_CHECK_DONE (R332). The Clasp self-check ends; a clean result retrains the links and sets RECOVERED, a failure
  or second mismatch fences the host port. `clean`: no check fails. -/
  | claspSelfCheckDone (dt : Nat) (clean : Bool)
  /-- CLK_FAIL (R26). The strand clock monitor reports a REFCLK absence, frequency error or PLL loss of lock, clearing CLK_OK.
  `pll`: the PLL lost lock. -/
  | clkFail (dt : Nat) (i : StrandId) (pll : Bool)
  /-- CLK_OK_RETURN (R26). A complete clean 10 µs measurement window after the condition ended returns CLK_OK to 1. -/
  | clkOkReturn (dt : Nat) (i : StrandId)
  /-- SUPPLY_FAIL (R34). A strand core or SerDes rail stays below its fence threshold for 100 ns and the strand is fenced
  outward. -/
  | supplyFail (dt : Nat) (i : StrandId)
  /-- CORE_WDOG_EXPIRY (R30). The core watchdog expires; a first expiry performs STRAND_WARM, a second within 10 s fences the
  strand outward. -/
  | coreWdogExpiry (dt : Nat) (i : StrandId)
  /-- LOUPE_HEARTBEAT (R31). The Loupe hardware sends a heartbeat to a strand supervisor, at least every 1 ms while healthy. -/
  | loupeHeartbeat (dt : Nat) (i : StrandId)
  /-- HB_TIMEOUT (R31). The Loupe heartbeat has been absent longer than HB_TIMEOUT and, with FENCE_IN_AUTO, the strand fences
  inward. -/
  | hbTimeout (dt : Nat) (i : StrandId)
  /-- FENCE_IN_SET (R31). The strand core writes FENCE_IN_SET to fence the strand inward. -/
  | fenceInSet (dt : Nat) (i : StrandId)
  /-- FENCE_IN_RELEASE (R33). The strand core writes FENCE_IN_RELEASE to release the inward fence. -/
  | fenceInRelease (dt : Nat) (i : StrandId)
  /-- HOLD_ENTER (R42). A core or Loupe write of HOLD_ENTER moves a strand from RUN to HOLD with outputs to safe values within
  2 µs. -/
  | holdEnter (dt : Nat) (m : Master) (i : StrandId)
  /-- HOLD_EXIT (R42). A core or Loupe write of HOLD_EXIT moves a strand from HOLD to RUN when the device is not in MD9. -/
  | holdExit (dt : Nat) (m : Master) (i : StrandId)
  /-- LOAD_START (R42). The Loupe starts loading a configured strand: power gate closed, PLL started, packages checked and
  written. `tests`: the engines whose self-test fails, with whether its repeat passes. -/
  | loadStart (dt : Nat) (i : StrandId) (tests : List (Fin 16 × Bool))
  /-- PLL_LOCK_TIMEOUT (R42). The strand PLL is not locked 1 ms after entry to LOADING and the strand is fenced with CLK_FAIL. -/
  | pllLockTimeout (dt : Nat) (i : StrandId)
  /-- LOAD_COMPLETE (R42). A strand's load ends: on success it enters RUN or HOLD with its lock set, on failure it is fenced
  with LOAD_FAIL. `pkgs`: the package images; `digests`: their digests match. -/
  | loadComplete (dt : Nat) (i : StrandId) (pkgs : List (List Byte)) (digests : Bool)
  /-- LOAD_PHASE_END (R44). The load phase ends and the device enters its base mode, MD8 or MD9 by T7, T8 or T9, setting the
  device lock. -/
  | loadPhaseEnd (dt : Nat)
  /-- MIGRATION (R465). In MD3 the migration component builds, seals and verifies a new configuration copy, leading to T7 or
  T10. `ok`: migrators exist and what they wrote verifies. -/
  | migration (dt : Nat) (ok : Bool) (payload : List Byte) (start : StartIn)
  /-- PAIR_RESYNCHRONIZED (R355). A rejoined strand's ledger matches its partner's for every paired queue and the device
  returns to its base mode by T12. -/
  | pairResynchronized (dt : Nat) (pair : Bool)
  /-- WAKE (R491). WAKE_N low for 1 µs in MD0 wakes the device into MD2 by T5. -/
  | wake (dt : Nat) (start : StartIn)
  /-- START (R72). The Bead START command claims pins, sets PC to ENTRY, restarts the divider and runs a stopped engine.
  `resume`: RESUME. -/
  | start (dt : Nat) (m : Master) (i : StrandId) (n : Fin 16) (resume : Bool)
  /-- BEAD_STEP (R72). The Bead STEP command starts a stopped engine for exactly one instruction, then stops it. `resume`:
  RESUME. -/
  | beadStep (dt : Nat) (m : Master) (i : StrandId) (n : Fin 16) (resume : Bool)
  /-- STOP (R72). The Bead STOP command sets STOP_PENDING on a running, stalled or waiting engine. -/
  | stop (dt : Nat) (m : Master) (i : StrandId) (n : Fin 16)
  /-- STOP_ACT (R74). At the first engine clock after STOP the engine stops, keeping its registers, queues, claims and frozen
  pins. -/
  | stopAct (dt : Nat) (i : StrandId) (n : Fin 16)
  /-- QFLUSH (R66). The QFLUSH command discards every entry in a stopped engine's queues. -/
  | qflush (dt : Nat) (m : Master) (i : StrandId) (n : Fin 16)
  /-- PIN_RELEASE (R56). The PIN_RELEASE command ends a stopped engine's pin and lane claims. -/
  | pinRelease (dt : Nat) (m : Master) (i : StrandId) (n : Fin 16)
  /-- DIV_RESTART (R52). The DIV_RESTART command restarts the engine divider so the next engine clock falls 2 cycles later. -/
  | divRestart (dt : Nat) (m : Master) (i : StrandId) (n : Fin 16)
  /-- EVT_SET (R76). BEAD_CMD.EVT_SET sets the named EVT bits of an engine. -/
  | evtSet (dt : Nat) (m : Master) (i : StrandId) (n : Fin 16) (mask : Fin 16)
  /-- BEAD_TXQ_WRITE (R67). A core or host write of BEAD_TXQ appends a TX-queue entry, or is discarded on a full or absent
  queue. -/
  | beadTxqWrite (dt : Nat) (m : Master) (i : StrandId) (n : Fin 16) (v : Word)
  /-- BEAD_RXQ_READ (R67). A read of BEAD_RXQ removes and returns the oldest RX-queue entry, or returns zero on an empty or
  refused queue. -/
  | beadRxqRead (dt : Nat) (m : Master) (i : StrandId) (n : Fin 16)
  /-- BEAD_QCFG_WRITE (R66). A BEAD_QCFG write reconfigures and empties the queues when every affected engine is stopped,
  otherwise sets CFG_BUSY. -/
  | beadQcfgWrite (dt : Nat) (m : Master) (i : StrandId) (n : Fin 16) (v : Word)
  /-- BEAD_IMEM_WRITE (R78). A write of an instruction word is stored while the engine is STOPPED, otherwise discarded with
  IMEM_BUSY. -/
  | beadImemWrite (dt : Nat) (m : Master) (i : StrandId) (n : Fin 16) (k : Fin 64) (v : BitVec 24)
  /-- BEAD_DIV_WRITE (R52). A write of BEAD_DIV takes effect when the current engine-clock interval ends. -/
  | beadDivWrite (dt : Nat) (m : Master) (i : StrandId) (n : Fin 16) (v : Word)
  /-- BEAD_CRCCFG_WRITE (R63). A write of POLY_SEL selects a CRC entry and loads its initial value into the accumulator. -/
  | beadCrccfgWrite (dt : Nat) (m : Master) (i : StrandId) (n : Fin 16) (v : Word)
  /-- NOP (R91). The Bead NOP instruction does nothing but drive its side-set and delay. -/
  | nop (a : BeadAt)
  /-- SHOUT (R92). SHOUT shifts N bits out of OSR onto the physical output group. -/
  | shout (a : BeadAt) (bits : Fin 64)
  /-- SHIN (R93). SHIN shifts N input-group or lane bits into ISR. -/
  | shin (a : BeadAt) (bits : Fin 64)
  /-- PULL (R50). PULL loads OSR from the oldest TX-queue entry in its form, or stalls on an empty queue. -/
  | pull (a : BeadAt) (form : Fin 4)
  /-- PUSH (R50). PUSH appends a word formed from ISR to the RX queue and clears ISR, or stalls on a full queue. -/
  | push (a : BeadAt) (form : Fin 4)
  /-- SET (R94). SET writes an immediate to pins, X, Y, their high bits or a shift counter. -/
  | set (a : BeadAt) (dest : Fin 8) (imm : BitVec 10)
  /-- BEAD_MOV (R95). The Bead MOV instruction copies, inverts or reverses a source into a destination register or pins.
  `lost`: the lane word read is lost to a newer one. -/
  | beadMov (a : BeadAt) (dst : Fin 16) (src : Fin 16) (opn : Fin 4) (lost : Bool)
  /-- JMP (R96). JMP loads PC with ADDR when its condition holds. -/
  | jmp (a : BeadAt) (cond : Fin 32) (target : Fin 64)
  /-- BEAD_WAIT (R98). The Bead WAIT instruction completes when its pin, compare, event, queue or IRQ condition holds, else the
  engine waits. -/
  | beadWait (a : BeadAt) (pol : Bool) (src : Fin 8) (index : Fin 32)
  /-- BEAD_CMP (R99). The Bead CMP instruction updates the compare value or selects the compare source. `lost`: the lane word
  read is lost to a newer one. -/
  | beadCmp (a : BeadAt) (mode : Fin 4) (imm : BitVec 11) (lost : Bool)
  /-- CRC (R100). The CRC instruction feeds the accumulator from the last shift or from octets of OSR or ISR. -/
  | crc (a : BeadAt) (init : Bool) (src : Fin 4) (oct : Fin 4)
  /-- STAMP (R101). STAMP captures strand time and optionally a tracker angle and appends the words to the RX queue. -/
  | stamp (a : BeadAt) (adj : Fin 4) (nosec : Bool) (ang : Bool) (trk : Fin 4)
  /-- EDIT (R102). EDIT arms a byte replacement or correction addition on the engine's virtual TX lane. -/
  | edit (a : BeadAt) (offx : Bool) (len : Fin 4) (offset : BitVec 10)
  /-- IRQ (R91). The Bead IRQ instruction sets BEAD_FLAGS.IRQ. -/
  | irq (a : BeadAt)
  /-- CNT (R97). CNT decrements X or Y and jumps when the result is not zero. -/
  | cnt (a : BeadAt) (reg : Bool) (target : Fin 64)
  /-- SYNC (R104). SYNC waits for an event flag, consumes it and restarts the divider to re-phase the engine. -/
  | sync (a : BeadAt) (k : Fin 4)
  /-- LINK_CHANGE (R108). A port's LINK_UP changes; frames in flight are aborted and egress waits or discards. -/
  | linkChange (dt : Nat) (i : StrandId) (p : Fin 4) (sync link : Bool) (speed : Fin 4)
  /-- MDIO_START (R110). A write of MDIO_CMD starts a Clause 22 or 45 management frame, or is refused while BUSY. -/
  | mdioStart (dt : Nat) (m : Master) (i : StrandId) (v : Word)
  /-- MDIO_DONE (R110). The MDIO frame ends, clearing BUSY and storing read data or NO_ACK. `ack`: the PHY drove the turnaround
  bit; `data`: what it sent. -/
  | mdioDone (dt : Nat) (i : StrandId) (ack : Bool) (data : BitVec 16)
  /-- AN_RESTART (R107). MAC_CMD.AN_RESTART restarts auto-negotiation. -/
  | anRestart (dt : Nat) (m : Master) (i : StrandId) (p : Fin 4)
  /-- AN_DONE (R107). Auto-negotiation completes and sets AN_DONE. `halfOnly`: the partner advertises half duplex only;
  `fault`: AN_FAULT. -/
  | anDone (dt : Nat) (i : StrandId) (p : Fin 4) (halfOnly : Bool) (fault : Bool)
  /-- VERIFY_RESTART (R124). MAC_CMD.VERIFY_RESTART restarts preemption verification. -/
  | verifyRestart (dt : Nat) (m : Master) (i : StrandId) (p : Fin 4)
  /-- VERIFY_DONE (R124). Preemption verification succeeds, setting PREEMPT_ACT, or fails after three attempts, setting
  VERIFY_FAIL. `good`: the partner answered. -/
  | verifyDone (dt : Nat) (i : StrandId) (p : Fin 4) (good : Bool)
  /-- RX_FRAME (R112). A port receives a frame, which is admitted, checked, filtered, tagged, stamped and charged to the switch
  or dropped. -/
  | rxFrame (dt : Nat) (i : StrandId) (p : Fin 4) (w : RxWire)
  /-- PAUSE_EXPIRY (R123). The received pause time of a port or queue runs out and the queue may start frames again. `q`:
  queue, or 8 for the port. -/
  | pauseExpiry (dt : Nat) (i : StrandId) (p : Fin 4) (q : Fin 9)
  /-- FC_REPEAT (R156). The pause refresh interval passes while the count stays at or above XON and the flow-control frame is
  sent again. `c`: class, or 8 for the port. -/
  | fcRepeat (dt : Nat) (i : StrandId) (p : Fin 4) (c : Fin 9)
  /-- MAC_FLT_W3_WRITE (R119). A write of filter rule word 3 makes all four words of the rule take effect together. -/
  | macFltW3Write (dt : Nat) (m : Master) (i : StrandId) (p : Fin 4) (k : Fin 32) (v : Word)
  /-- PT_FRAME (R130). An active pass-through channel forwards a frame from its RX lane to its TX lane, applying edits and
  regenerating the FCS. -/
  | ptFrame (dt : Nat) (i : StrandId) (p : Fin 4) (w : RxWire) (fifo : FifoEnd)
  /-- FRAME_ELIGIBLE (R147). A frame becomes eligible on its egress queue 24 cycles after its last byte is written. -/
  | frameEligible (dt : Nat) (i : StrandId) (e : Fin 10) (q : Fin 8)
  /-- EGRESS_SELECT (R157). At a frame boundary an egress port starts the head frame of its highest eligible queue and
  transmits it. -/
  | egressSelect (dt : Nat) (i : StrandId) (e : Fin 10) (err : BufErr)
  /-- INTERNAL_ADMIT (R154). A frame waiting at an internal source is admitted once cells and destination room are available.
  `src`: 4 the rings of H, 5 the rings of C, 6 to 9 the V ports. -/
  | internalAdmit (dt : Nat) (i : StrandId) (src : Fin 10)
  /-- V_PORT_INGRESS (R148). A V port reads a header and data words from its engine's RX queue and presents the frame to the
  switch. -/
  | vPortIngress (dt : Nat) (i : StrandId) (k : Fin 4)
  /-- V_PORT_EGRESS (R148). A V port writes an egress frame as header and data words into its engine's TX queue, waiting on a
  full queue. -/
  | vPortEgress (dt : Nat) (i : StrandId) (k : Fin 4)
  /-- FDB_WRITE (R150). The forwarding-table write command stores D0 to D2 into the entry at INDEX. -/
  | fdbWrite (dt : Nat) (m : Master) (i : StrandId) (index : Fin 2048)
  /-- FDB_READ (R150). The forwarding-table read command loads the entry at INDEX into D0 to D2. -/
  | fdbRead (dt : Nat) (m : Master) (i : StrandId) (index : Fin 2048)
  /-- FDB_CLEAR (R150). The forwarding-table clear command clears all 2,048 entries. -/
  | fdbClear (dt : Nat) (m : Master) (i : StrandId) (index : Fin 2048)
  /-- GCL_ENTRY_ADVANCE (R159). An entry interval of the active gate control list ends and the next entry's gates take effect. -/
  | gclEntryAdvance (dt : Nat) (i : StrandId) (e : Fin 4)
  /-- SWAP (R161). GCL_CTL.SWAP arms the inactive gate list, or is refused with GCL_BUSY while a swap is pending. `gateEn`:
  GATE_EN as written. -/
  | swap (dt : Nat) (m : Master) (i : StrandId) (e : Fin 4) (gateEn : Bool)
  /-- GCL_SWAP_ACT (R161). At the swap time the armed gate list becomes active and SWAP_PEND clears. -/
  | gclSwapAct (dt : Nat) (i : StrandId) (e : Fin 4)
  /-- RATE_WRITE (R171). A write of RATE changes the counter's rate from the next cycle, clamped to ±500 ppm. -/
  | rateWrite (dt : Nat) (m : Master) (i : StrandId) (v : Word)
  /-- RATE_INIT_WRITE (R171). A write of RATE_INIT stores the start rate, clamped to the allowed range. -/
  | rateInitWrite (dt : Nat) (m : Master) (i : StrandId) (v : Word)
  /-- TIME_NOW_READ (R173). A read of TIME_NOW_NS returns nanoseconds and latches seconds and fraction for the reading master. -/
  | timeNowRead (dt : Nat) (m : Master) (i : StrandId)
  /-- TIME_STEP (R178). The STEP command steps the counter by an offset or to an absolute value if a step is available, else is
  refused. -/
  | timeStep (dt : Nat) (m : Master) (i : StrandId)
  /-- STEP_ARM (R176). STEP_ARM makes one further step available. -/
  | stepArm (dt : Nat) (m : Master) (i : StrandId)
  /-- PPS_EDGE (R179). An edge on PPS_IN is captured, judged against the reference and, if valid, may align the counter.
  `rising`: the edge's direction; `half`: half-nanoseconds from the capture to the present; `held`: the level held for 100 ns. -/
  | ppsEdge (dt : Nat) (i : StrandId) (rising : Bool) (half : Nat) (held : Bool)
  /-- PPS_LOSS (R180). Two seconds pass without a valid PPS edge and the unit enters HOLDOVER and drops its reference. -/
  | ppsLoss (dt : Nat) (i : StrandId)
  /-- PPS_OUT_PULSE (R184). The counter reaches a PPS output target and PPS_OUT goes active. -/
  | ppsOutPulse (dt : Nat) (i : StrandId)
  /-- PPS_OUT_END (R184). The PPS output pulse width runs out and the pin returns inactive. -/
  | ppsOutEnd (dt : Nat) (i : StrandId)
  /-- TRK_OBS_SUBMIT (R192). A core write of TRK_OBS_VAL submits an observation triple to the tracker's input FIFO. -/
  | trkObsSubmit (dt : Nat) (i : StrandId) (t : Fin 4) (v : Word)
  /-- OBS_QUEUE_TAKE (R192). Bangle takes an observation group of three words from the bound engine's RX queue when its FIFO
  has room. -/
  | obsQueueTake (dt : Nat) (i : StrandId) (t : Fin 4)
  /-- OBS_APPLY (R197). The loop unit applies or rejects the head observation of a tracker, updating angle, rate and state. -/
  | obsApply (dt : Nat) (i : StrandId) (t : Fin 4)
  /-- TRK_TIMEOUT (R198). A VALID tracker receives no observation for TRK_TIMEOUT and leaves VALID. -/
  | trkTimeout (dt : Nat) (i : StrandId) (t : Fin 4)
  /-- TRK_RESTART (R198). BNG_CMD.RESTART returns a tracker to WARMUP with AGREE 0. -/
  | trkRestart (dt : Nat) (m : Master) (i : StrandId) (t : Fin 4)
  /-- TRK_ANGLE_READ (R214). A read of TRK_ANGLE returns the angle now and latches the rate and turn count. -/
  | trkAngleRead (dt : Nat) (m : Master) (i : StrandId) (t : Fin 4)
  /-- PREDICTOR_VISIT (R203). The predictor visits one event entry, realigns it, predicts its fire time and commits it within 2
  µs of firing. -/
  | predictorVisit (dt : Nat) (i : StrandId) (k : Fin 256)
  /-- EVT_FIRE (R204). A committed entry fires when strand time reaches its fire time, performs its action and advances. -/
  | evtFire (dt : Nat) (i : StrandId) (k : Fin 256)
  /-- ACTION_DEFERRED (R204). An action held back by the four-per-cycle limit is performed in a later cycle. -/
  | actionDeferred (dt : Nat) (i : StrandId)
  /-- EVT_ENTRY_WRITE (R207). A write of event entry word 3 enables, disables or refuses the entry together with its held
  words. -/
  | evtEntryWrite (dt : Nat) (m : Master) (i : StrandId) (k : Fin 256) (v : Word)
  /-- CT_NOW_READ (R221). A read of CT_NOW_NS returns cluster-time nanoseconds and latches the rest for the reading master. -/
  | ctNowRead (dt : Nat) (m : Master) (i : StrandId)
  /-- ROW_START (R230). A Filigree basic cycle starts; the slew is applied and, at row 0, Bezel fences count down. -/
  | rowStart (dt : Nat) (i : StrandId)
  /-- WIN_STAGE (R224). At START − 5,000 ns a synced node requests the head frame of the window's TX ring. `k`: window. -/
  | winStage (dt : Nat) (i : StrandId) (k : Fin 128)
  /-- WIN_START (R223). A window opens and the node sends its DATA, ALIGN or RTT_REQ frame at START, or leaves it empty. -/
  | winStart (dt : Nat) (i : StrandId) (k : Fin 128)
  /-- WIN_ACTION (R225). At START − ACT_LEAD a window sets an event flag of its named engine. -/
  | winAction (dt : Nat) (i : StrandId) (k : Fin 128)
  /-- ALIGN_RX (R230). An accepted ALIGN frame is applied, adjusting cluster time, rate and the alignment state. -/
  | alignRx (dt : Nat) (i : StrandId) (p : Fin 4) (bytes : List Byte)
  /-- ALIGN_TIMEOUT (R231). No ALIGN is taken for ALIGN_LOSS matrix periods and alignment is lost with cause TIMEOUT. -/
  | alignTimeout (dt : Nat) (i : StrandId)
  /-- RESYNC (R231). FLG_CMD.RESYNC makes the controller lose alignment with cause CMD. -/
  | resync (dt : Nat) (m : Master) (i : StrandId)
  /-- FLG_DATA_RX (R220). A node receives a Filigree DATA frame, forwards it on a line and delivers the first copy to the
  switch. -/
  | flgDataRx (dt : Nat) (i : StrandId) (p : Fin 4) (bytes : List Byte)
  /-- RTT_REQ_SEND (R229). Every 1 ms a cold or syncing controller sends an RTT_REQ on each Filigree port. -/
  | rttReqSend (dt : Nat) (i : StrandId)
  /-- RTT_RESP_SEND (R228). At the first frame boundary 2,000 ns after a request a controller sends its RTT_RESP with one-step
  T3. -/
  | rttRespSend (dt : Nat) (i : StrandId) (p : Fin 4)
  /-- RTT_MEASURE (R229). A received RTT_RESP gives a delay measurement that sets or filters LINK_DELAY or is rejected. -/
  | rttMeasure (dt : Nat) (i : StrandId) (p : Fin 4) (bytes : List Byte)
  /-- RTT_ABANDON (R229). A delay request has no response within 100 µs and is abandoned. -/
  | rttAbandon (dt : Nat) (i : StrandId) (p : Fin 4)
  /-- BEZEL_DECIDE (R233). After byte 18 the Bezel accepts or blocks a frame, records violations and fences a port at
  VIOL_LIMIT. -/
  | bezelDecide (dt : Nat) (i : StrandId) (p : Fin 4) (bytes : List Byte) (bad : Bool)
  /-- BEZEL_CUT (R234). An accepted frame still arriving at START + LEN + GUARD is cut as a CUT violation. -/
  | bezelCut (dt : Nat) (i : StrandId) (p : Fin 4)
  /-- ARB_FORWARD (R235). After an arbitrating window's open part the coupler forwards the held frames in descending PRIO. -/
  | arbForward (dt : Nat) (i : StrandId)
  /-- UNFENCE (R234). FLG_CMD.UNFENCE ends a Bezel port fence at once. -/
  | unfence (dt : Nat) (m : Master) (i : StrandId) (p : Fin 4)
  /-- DEV_CLEAR (R236). FLG_CMD.DEV_CLEAR clears every deviation record. -/
  | devClear (dt : Nat) (m : Master) (i : StrandId)
  /-- PKG_GET_STATUS (R255). A host package command GET_STATUS returns the package's status in its command block. `k`: package
  record; `block`: SRAM address of the action block. -/
  | pkgGetStatus (dt : Nat) (i : StrandId) (k : Nat) (block : Nat)
  /-- GO_OPERATIONAL (R255). A host package command puts the package into operation, refused in HOLD. -/
  | goOperational (dt : Nat) (i : StrandId) (k : Nat) (block : Nat)
  /-- GO_STOPPED (R255). A host package command stops the package, refused in HOLD. -/
  | goStopped (dt : Nat) (i : StrandId) (k : Nat) (block : Nat)
  /-- READ_CONTEXT (R255). A host package command returns a connection context. -/
  | readContext (dt : Nat) (i : StrandId) (k : Nat) (block : Nat)
  /-- MAP_RUN (R268). MAP_CMD.RUN triggers a mapper run when TRIG_SRC is 0, otherwise is rejected. -/
  | mapRun (dt : Nat) (m : Master) (i : StrandId)
  /-- MAP_TIME_TRIGGER (R268). Strand time reaches the next BASE + m × PERIOD and triggers the mapper. -/
  | mapTimeTrigger (dt : Nat) (i : StrandId)
  /-- MAP_RUN_DONE (R264). A mapper run completes its OUT and IN sections, flips TX_SEL and advances MAP_RUN_SEQ. -/
  | mapRunDone (dt : Nat) (i : StrandId) (waits : Nat)
  /-- SM_EVENT (R276). The common service delivers a pending event to a context's state machine and runs its action. `c`:
  context. -/
  | smEvent (dt : Nat) (i : StrandId) (c : Nat)
  /-- CTX_TIMEOUT (R276). A context stays silent for TIMEOUT_NS after its last frame and event 1 becomes pending. `c`: context. -/
  | ctxTimeout (dt : Nat) (i : StrandId) (c : Nat)
  /-- RING_TAIL_WRITE (R282). A write of RING_TAIL hands descriptors to the hardware, or is refused with TAIL_ERR. -/
  | ringTailWrite (dt : Nat) (m : Master) (i : StrandId) (r : Fin 32) (v : BitVec 16)
  /-- OWN_RECHECK (R284). One microsecond after reading OWN = 0 the engine reads the descriptor again and proceeds or faults
  the ring. `words`: the OWN words as read back. -/
  | ownRecheck (dt : Nat) (i : StrandId) (r : Fin 32) (words : List Word)
  /-- TX_ITEM_FETCH (R286). The descriptors of a TX item have been fetched and are checked, judged by QSEQ and stored,
  accepting the item. -/
  | txItemFetch (dt : Nat) (i : StrandId) (r : Fin 16)
  /-- HOST_READ_COMPLETION (R304). A host read completes, delivering data or descriptors, or ends its item with ADDR_ERR or
  LINK_RESET. `tag`: the read; `status`: 0 data, 1 an error, 2 the link's reset. -/
  | hostReadCompletion (dt : Nat) (i : StrandId) (tag : Nat) (status : Nat) (data : List Byte)
  /-- TX_COMMIT (R291). A TX item commits as its last byte is written into the switch buffer, and completes there if TS_REQ is
  0. -/
  | txCommit (dt : Nat) (i : StrandId) (r : Fin 16)
  /-- RX_RING_DELIVER (R288). The DMA engine writes a frame from H or C into owned RX descriptors and writes them back. -/
  | rxRingDeliver (dt : Nat) (i : StrandId) (r : Fin 16)
  /-- RX_HOLD_EXPIRY (R298). RX_HOLD_NS passes without a doorbell and the held frame is discarded with DISCARDED records. -/
  | rxHoldExpiry (dt : Nat) (i : StrandId) (r : Fin 16)
  /-- COMPLETION_WRITE (R295). The completion writer decides an item and writes its record to the completion queue, updating
  the ledger and log. -/
  | completionWrite (dt : Nat) (i : StrandId) (r : Fin 16)
  /-- READBACK_RETURN (R296). A read-back to host memory returns and the records it covers are written. -/
  | readbackReturn (dt : Nat) (w : BackOf)
  /-- CQ_HEAD_WRITE (R294). Software writes CQ_HEAD to free completion-queue records, releasing waiting records. -/
  | cqHeadWrite (dt : Nat) (m : Master) (i : StrandId) (c : Fin 8) (v : Word)
  /-- CQ_ENABLE (R310). Setting CQ_CTL.EN restarts the completion queue at index 0, lap bit 0. -/
  | cqEnable (dt : Nat) (m : Master) (i : StrandId) (c : Fin 8)
  /-- CQ_POST (R297). A core write of DMA_CQ_POST posts a KIND 3 record to a completion queue. -/
  | cqPost (dt : Nat) (i : StrandId) (v : Word)
  /-- DMA_ABORT (R302). A write of DMA_ABORT requests the abort of one item or every owned item of a ring. -/
  | dmaAbort (dt : Nat) (m : Master) (i : StrandId) (v : Word)
  /-- RING_ENABLE (R307). A write of RING_CTL.EN = 1 starts a ring or is refused, replaying stored items on a VALID ledger
  entry. -/
  | ringEnable (dt : Nat) (m : Master) (i : StrandId) (r : Fin 32)
  /-- RING_DISABLE (R307). A write of RING_CTL.EN = 0 stops the ring at the next item boundary. -/
  | ringDisable (dt : Nat) (m : Master) (i : StrandId) (r : Fin 32)
  /-- IDX_CLEAR (R352). RING_CTL.IDX_CLEAR sets HEAD and TAIL to 0 and clears the ledger entry's ANCHORED. -/
  | idxClear (dt : Nat) (m : Master) (i : StrandId) (r : Fin 32) (en : Bool)
  /-- CMD_ACCEPT (R349). The core's ACCEPT request through the acceptance port accepts a command entry and stores its notice,
  or refuses it. -/
  | cmdAccept (dt : Nat) (i : StrandId) (q : Fin 4)
  /-- CMD_START (R349). The core's START request through the acceptance port advances a command queue's started mark. -/
  | cmdStart (dt : Nat) (i : StrandId) (q : Fin 4)
  /-- MG_TAIL_WRITE (R323). A host write of MG_TAIL forwards the tail to the ring of each live strand of the pair. -/
  | mgTailWrite (dt : Nat) (m : Master) (g : Fin 8) (v : BitVec 16)
  /-- MERGE_WRITEBACK (R324). The Clasp holds a strand's descriptor write-back for a merge group, waiting when the buffer is
  full. -/
  | mergeWriteback (dt : Nat) (i : StrandId)
  /-- MERGE_RECORD (R324). A strand record reaches the merge and is delivered to the PCQ, suppressed, returned as duplicate or
  treated as a violation. -/
  | mergeRecord (dt : Nat) (i : StrandId)
  /-- MG_ABORT (R327). A write of MG_ABORT sends the abort to the ring of each live strand and merges their outcomes. -/
  | mgAbort (dt : Nat) (m : Master) (g : Fin 8) (v : Word)
  /-- MG_CFG_WRITE (R337). A write of MG_CFG enables or disables a merge group, or is refused with CFG_REFUSED. -/
  | mgCfgWrite (dt : Nat) (m : Master) (g : Fin 8) (v : Word)
  /-- ACC_REPORT (R322). Within 2 µs of a change the Clasp writes the latest accepted mark to the host's ACCEPTED table. -/
  | accReport (dt : Nat) (what : AccOf)
  /-- IRQ_ARM (R321). A write of CLASP_IRQ_ARM re-arms MSI-X vectors, sending again if the condition still holds. -/
  | irqArm (dt : Nat) (m : Master) (hi : Bool) (v : Word)
  /-- MSIX_UNMASK (R321). Unmasking a vector sends its message if the condition still holds. -/
  | msixUnmask (dt : Nat) (b : Bool) (vec : Fin 64)
  /-- PM_STATE_CHANGE (R313). The host moves a link's function between D0 and D3hot; messages wait in D3hot. `d3`: to D3hot,
  else to D0. -/
  | pmStateChange (dt : Nat) (b : Bool) (d3 : Bool)
  /-- BAR2_ACCESS (R318). A host access through BAR2 reaches strand SRAM as a DMA access on port A, or is refused. `off`:
  offset in BAR2. -/
  | bar2Access (dt : Nat) (b : Bool) (off : Nat) (acc : HostAcc)
  /-- REC_OPEN (R333). The recovery OPEN command opens or resumes a download session on a link. -/
  | recOpen (dt : Nat) (b : Bool) (resume : Bool)
  /-- REC_SUBMIT (R333). The recovery SUBMIT command checks, hashes and stores a block into both flashes. How the signature,
  the flash writes, the digest and the old slot's header come out, and what the start that follows finds. -/
  | recSubmit (dt : Nat) (b : Bool) (sig : Bool) (flashErr : Bool) (digestOk : Bool) (prevOk : Bool) (start : StartIn)
  /-- REC_CLOSE (R333). The recovery CLOSE command ends the link's download session. -/
  | recClose (dt : Nat) (b : Bool)
  /-- ADD (R365). The D32 ADD instruction adds a register or immediate. -/
  | add (dt : Nat) (c : Fin 5) (g : Fin 16) (sf : Bool) (wd : Fin 16) (wa : Fin 16) (src : DSrc)
  /-- ADC (R365). The D32 ADC instruction adds with carry. -/
  | adc (dt : Nat) (c : Fin 5) (g : Fin 16) (sf : Bool) (wd : Fin 16) (wa : Fin 16) (src : DSrc)
  /-- SUB (R365). The D32 SUB instruction subtracts. -/
  | sub (dt : Nat) (c : Fin 5) (g : Fin 16) (sf : Bool) (wd : Fin 16) (wa : Fin 16) (src : DSrc)
  /-- SBC (R365). The D32 SBC instruction subtracts with carry. -/
  | sbc (dt : Nat) (c : Fin 5) (g : Fin 16) (sf : Bool) (wd : Fin 16) (wa : Fin 16) (src : DSrc)
  /-- AND (R365). The D32 AND instruction. -/
  | and (dt : Nat) (c : Fin 5) (g : Fin 16) (sf : Bool) (wd : Fin 16) (wa : Fin 16) (src : DSrc)
  /-- OR (R365). The D32 OR instruction. -/
  | or (dt : Nat) (c : Fin 5) (g : Fin 16) (sf : Bool) (wd : Fin 16) (wa : Fin 16) (src : DSrc)
  /-- XOR (R365). The D32 XOR instruction. -/
  | xor (dt : Nat) (c : Fin 5) (g : Fin 16) (sf : Bool) (wd : Fin 16) (wa : Fin 16) (src : DSrc)
  /-- ANDN (R365). The D32 ANDN instruction. -/
  | andn (dt : Nat) (c : Fin 5) (g : Fin 16) (sf : Bool) (wd : Fin 16) (wa : Fin 16) (src : DSrc)
  /-- MOV (R365). The D32 MOV instruction copies a register or immediate. -/
  | mov (dt : Nat) (c : Fin 5) (g : Fin 16) (sf : Bool) (wd : Fin 16) (src : DSrc)
  /-- MVN (R365). The D32 MVN instruction moves the inverse. -/
  | mvn (dt : Nat) (c : Fin 5) (g : Fin 16) (sf : Bool) (wd : Fin 16) (src : DSrc)
  /-- NEG (R369). The D32 NEG instruction subtracts from zero. -/
  | neg (dt : Nat) (c : Fin 5) (g : Fin 16) (sf : Bool) (wd : Fin 16) (src : DSrc)
  /-- CMP (R365). The D32 CMP instruction sets flags from a subtraction. -/
  | cmp (dt : Nat) (c : Fin 5) (g : Fin 16) (sf : Bool) (wa : Fin 16) (src : DSrc)
  /-- TST (R365). The D32 TST instruction sets flags from an AND. -/
  | tst (dt : Nat) (c : Fin 5) (g : Fin 16) (sf : Bool) (wa : Fin 16) (src : DSrc)
  /-- MOVW (R365). The D32 MOVW instruction loads a zero-extended 16-bit immediate. -/
  | movw (dt : Nat) (c : Fin 5) (g : Fin 16) (wd : Fin 16) (imm : BitVec 16)
  /-- MOVT (R365). The D32 MOVT instruction loads the upper halfword. -/
  | movt (dt : Nat) (c : Fin 5) (g : Fin 16) (wd : Fin 16) (imm : BitVec 16)
  /-- SHF (R370). The D32 SHF instruction shifts or rotates. -/
  | shf (dt : Nat) (c : Fin 5) (g : Fin 16) (sf : Bool) (wd : Fin 16) (wa : Fin 16) (kind : Fin 4) (count : DCnt)
  /-- LDW (R371). The D32 LDW instruction loads a word from SRAM or register space. -/
  | ldw (dt : Nat) (c : Fin 5) (g : Fin 16) (wd : Fin 16) (wa : Fin 16) (mode : DMode)
  /-- LDH (R365). The D32 LDH instruction loads a zero-extended halfword. -/
  | ldh (dt : Nat) (c : Fin 5) (g : Fin 16) (wd : Fin 16) (wa : Fin 16) (mode : DMode)
  /-- LDHS (R365). The D32 LDHS instruction loads a sign-extended halfword. -/
  | ldhs (dt : Nat) (c : Fin 5) (g : Fin 16) (wd : Fin 16) (wa : Fin 16) (mode : DMode)
  /-- LDB (R365). The D32 LDB instruction loads a zero-extended byte. -/
  | ldb (dt : Nat) (c : Fin 5) (g : Fin 16) (wd : Fin 16) (wa : Fin 16) (mode : DMode)
  /-- LDBS (R365). The D32 LDBS instruction loads a sign-extended byte. -/
  | ldbs (dt : Nat) (c : Fin 5) (g : Fin 16) (wd : Fin 16) (wa : Fin 16) (mode : DMode)
  /-- STW (R372). The D32 STW instruction enters a word store into the write buffer. -/
  | stw (dt : Nat) (c : Fin 5) (g : Fin 16) (wd : Fin 16) (wa : Fin 16) (mode : DMode)
  /-- STH (R372). The D32 STH instruction enters a halfword store into the write buffer. -/
  | sth (dt : Nat) (c : Fin 5) (g : Fin 16) (wd : Fin 16) (wa : Fin 16) (mode : DMode)
  /-- STB (R372). The D32 STB instruction enters a byte store into the write buffer. -/
  | stb (dt : Nat) (c : Fin 5) (g : Fin 16) (wd : Fin 16) (wa : Fin 16) (mode : DMode)
  /-- WB_DRAIN (R372). A buffered core store drains to memory or register space in issue order. -/
  | wbDrain (dt : Nat) (c : Fin 5)
  /-- B (R367). The D32 B instruction branches by an offset, optionally with link. -/
  | b (dt : Nat) (c : Fin 5) (g : Fin 16) (link : Bool) (ofs : BitVec 21)
  /-- BR (R367). The D32 BR instruction branches to a register, optionally with link. -/
  | br (dt : Nat) (c : Fin 5) (g : Fin 16) (link : Bool) (wa : Fin 16)
  /-- SWI (R377). The D32 SWI instruction takes the SWI trap. -/
  | swi (dt : Nat) (c : Fin 5) (g : Fin 16) (imm : BitVec 14)
  /-- RTE (R377). The D32 RTE instruction restores flags and IE, clears TM and returns to TPC. -/
  | rte (dt : Nat) (c : Fin 5) (g : Fin 16) (imm : BitVec 14)
  /-- WAIT (R378). The D32 WAIT instruction sleeps until an enabled interrupt line is pending. -/
  | wait (dt : Nat) (c : Fin 5) (g : Fin 16) (imm : BitVec 14)
  /-- WAIT_WAKE (R378). An enabled line becomes pending and a sleeping core wakes, taking the interrupt if IE is 1. -/
  | waitWake (dt : Nat) (c : Fin 5)
  /-- BARRIER (R372). The D32 BARRIER instruction stalls until the write buffer is empty. -/
  | barrier (dt : Nat) (c : Fin 5) (g : Fin 16) (imm : BitVec 14)
  /-- BKPT (R377). The D32 BKPT instruction takes the BKPT trap. -/
  | bkpt (dt : Nat) (c : Fin 5) (g : Fin 16) (imm : BitVec 14)
  /-- MFS (R363). The D32 MFS instruction reads a special register, latching CYC_HI on CYC_LO. -/
  | mfs (dt : Nat) (c : Fin 5) (g : Fin 16) (wd : Fin 16) (index : BitVec 8)
  /-- MTS (R363). The D32 MTS instruction writes a special register. -/
  | mts (dt : Nat) (c : Fin 5) (g : Fin 16) (wa : Fin 16) (index : BitVec 8)
  /-- MUL (R374). The D32 MUL instruction starts an unsigned product. -/
  | mul (dt : Nat) (c : Fin 5) (g : Fin 16) (sf : Bool) (wa : Fin 16) (wb : Fin 16)
  /-- MULS (R374). The D32 MULS instruction starts a signed product. -/
  | muls (dt : Nat) (c : Fin 5) (g : Fin 16) (sf : Bool) (wa : Fin 16) (wb : Fin 16)
  /-- MUL_RESULT (R374). A pending product lands in MH:ML at the end of cycle c + 2. -/
  | mulResult (dt : Nat) (c : Fin 5)
  /-- DIV (R375). The D32 DIV instruction starts an unsigned division, trapping or flagging on zero. -/
  | div (dt : Nat) (c : Fin 5) (g : Fin 16) (sf : Bool) (wa : Fin 16) (wb : Fin 16)
  /-- DIVS (R375). The D32 DIVS instruction starts a signed division. -/
  | divs (dt : Nat) (c : Fin 5) (g : Fin 16) (sf : Bool) (wa : Fin 16) (wb : Fin 16)
  /-- DIV_RESULT (R374). A pending quotient and remainder land in QT and RM at the end of cycle c + 17. -/
  | divResult (dt : Nat) (c : Fin 5)
  /-- BADD (R373). The D32 BADD instruction adds packed BCD. -/
  | badd (dt : Nat) (c : Fin 5) (g : Fin 16) (sf : Bool) (wd : Fin 16) (wa : Fin 16) (wb : Fin 16)
  /-- BSUB (R373). The D32 BSUB instruction subtracts packed BCD. -/
  | bsub (dt : Nat) (c : Fin 5) (g : Fin 16) (sf : Bool) (wd : Fin 16) (wa : Fin 16) (wb : Fin 16)
  /-- DADJ (R373). The D32 DADJ instruction decimally adjusts a binary sum. -/
  | dadj (dt : Nat) (c : Fin 5) (g : Fin 16) (sf : Bool) (wd : Fin 16) (wa : Fin 16)
  /-- BTOB (R373). The D32 BTOB instruction converts packed BCD to binary. -/
  | btob (dt : Nat) (c : Fin 5) (g : Fin 16) (sf : Bool) (wd : Fin 16) (wa : Fin 16)
  /-- BFROMB (R373). The D32 BFROMB instruction converts binary to packed BCD. -/
  | bfromb (dt : Nat) (c : Fin 5) (g : Fin 16) (sf : Bool) (wd : Fin 16) (wa : Fin 16)
  /-- D16_SEQUENCE (R379). An instruction with a decode-table major runs its micro-operation sequence in place. `w`: the
  instruction word. -/
  | d16Sequence (dt : Nat) (c : Fin 5) (w : Word)
  /-- CORE_IRQ_TAKEN (R378). Between instructions the core takes an enabled pending interrupt with IE 1 and TM 0. -/
  | coreIrqTaken (dt : Nat) (c : Fin 5)
  /-- WDOG_KICK (R382). A core write of CORE_WDOG_KICK restarts the watchdog with 0xA5, or acts as an expiry otherwise. -/
  | wdogKick (dt : Nat) (i : StrandId) (v : Word)
  /-- HALT (R383). The Loupe's HALT command halts the core between instructions. -/
  | halt (dt : Nat) (i : StrandId)
  /-- RESUME (R383). The Loupe's RESUME command lets the core leave HALTED. -/
  | resume (dt : Nat) (i : StrandId)
  /-- CORE_STEP (R384). The Loupe's STEP command executes one instruction and halts again. -/
  | coreStep (dt : Nat) (i : StrandId)
  /-- BREAKPOINT_HIT (R383). An instruction fetch matches a breakpoint and the core halts before it with BRK_HIT. -/
  | breakpointHit (dt : Nat) (i : StrandId)
  /-- BANK_RELEASE (R393). The RELEASE operation moves an owned bank to RELEASING, blocking the old owner. -/
  | bankRelease (dt : Nat) (m : Master) (i : StrandId) (k : Fin 48)
  /-- BANK_GRANT (R393). The GRANT operation names the next owner of a releasing or free bank. `owner`, `group`: OWNER and
  GROUP as written. -/
  | bankGrant (dt : Nat) (m : Master) (i : StrandId) (k : Fin 48) (owner : Fin 8) (group : Fin 4)
  /-- RELEASE_GRANT (R393). The RELEASE_GRANT operation releases a bank and grants it from one write. -/
  | releaseGrant (dt : Nat) (m : Master) (i : StrandId) (k : Fin 48) (owner : Fin 8) (group : Fin 4)
  /-- BANK_FREE (R393). The last access accepted before a release completes and the bank becomes FREE, passing to a pending
  owner. -/
  | bankFree (dt : Nat) (i : StrandId) (k : Fin 48)
  /-- PWR_WRITE (R396). A write of BANK_STATE.PWR requests ON, RETENTION or OFF for a bank. -/
  | pwrWrite (dt : Nat) (m : Master) (i : StrandId) (k : Fin 48) (pwr : Fin 4)
  /-- PWR_CHANGE_DONE (R396). A bank power change completes after its accepted accesses and any zero fill. -/
  | pwrChangeDone (dt : Nat) (i : StrandId) (k : Fin 48)
  /-- SCRUB (R398). A corrected word is written back and re-read within 64 cycles and classified transient or lasting. `w`: the
  word; `clean`: its re-read is clean. -/
  | scrub (dt : Nat) (i : StrandId) (k : Fin 50) (w : Fin 16384) (clean : Bool)
  /-- PATROL_READ (R398). Every 64 × SCRUB_INT cycles the patrol reads the current word index in each ON bank and advances.
  `found`: a bank with an error at the patrolled word, and its kind: 1 correctable, 2 uncorrectable. -/
  | patrolRead (dt : Nat) (i : StrandId) (found : Option (Nat × Nat))
  /-- HM_WIPE (R403). HM_CMD.WIPE clears VALID and zeroes the Hallmark. -/
  | hmWipe (dt : Nat)
  /-- LC_ADVANCE_WRITE (R404). A write of LC_ADVANCE with the key wipes the Hallmark and programs the next life-cycle fuses. -/
  | lcAdvanceWrite (dt : Nat) (v : Word)
  /-- TAMPER (R402). A tamper source latches its cause, wipes the Hallmark outside MD11 and leads to T16. -/
  | tamper (dt : Nat) (source : Fin 4)
  /-- LOCKET_POST (R413). A write of TX_HI posts a notice to a Locket channel, possibly starting a wait, or is refused. -/
  | locketPost (dt : Nat) (m : Master) (c : Fin 64) (hi : Word)
  /-- RX_HI_READ (R415). A read of RX_HI returns the oldest notice and marks it READ. -/
  | rxHiRead (dt : Nat) (m : Master) (c : Fin 64)
  /-- LOCKET_ACK (R415). A write of RX_ACK releases the oldest notice and may end the sender's wait ACKED. -/
  | locketAck (dt : Nat) (m : Master) (c : Fin 64)
  /-- LOCKET_TIMEOUT (R417). A Locket wait reaches TX_TIMEOUT without acknowledgement and ends TIMEOUT. -/
  | locketTimeout (dt : Nat) (c : Fin 64) (id : Fin 8)
  /-- TEMP_SAMPLE (R432). The Loupe samples the die sensors and raises the T13 sensor trigger after two readings above
  TEMP_LIMIT. `readings`: twelve, in 1/16 degree Celsius. -/
  | tempSample (dt : Nat) (readings : List Int)
  /-- RAIL_SAMPLE (R431). Every 10 µs the Loupe samples the strand core and SerDes rails. The rails in mV. -/
  | railSample (dt : Nat) (i : StrandId) (core : Nat) (serdes : Nat)
  /-- WEAR_MEASURE (R434). Once per 24 h and after POR the Loupe measures each wear monitor's drift. `r1` to `r3`: readings in
  ppm; the third is taken where the first two differ. -/
  | wearMeasure (dt : Nat) (i : StrandId) (r1 : Nat) (r2 : Nat) (r3 : Nat)
  /-- EQH_UPDATE (R434). Each minute EQH grows by the acceleration factor and life usages are recomputed. -/
  | eqhUpdate (dt : Nat)
  /-- WEAR_RECORD_WRITE (R433). The Loupe rewrites the wear record hourly, at MD0 entry and after a lasting mark, remap or
  retirement. -/
  | wearRecordWrite (dt : Nat)
  /-- LOG_FLUSH (R439). Log records are flushed from the ring to both flashes' log partitions. `failA`, `failB`: writes that
  fail on each flash, 0 to 2. -/
  | logFlush (dt : Nat) (failA : Nat) (failB : Nat)
  /-- LOUPE_TIME_COPY (R440). Once per second the Loupe copies the time of its source strand and clears TIME_UNC. -/
  | loupeTimeCopy (dt : Nat)
  /-- TIME_UNC_TIMEOUT (R440). 3,600 s pass without a time copy or SET_TIME and TIME_UNC returns to 1. -/
  | timeUncTimeout (dt : Nat)
  /-- NONCE_EXPIRY (R445). The current Ngufotu nonce expires 60 s after issue. -/
  | nonceExpiry (dt : Nat)
  /-- REQ_LEN_WRITE (R450). A host write of REQ_LEN submits the message in its request buffer, or is refused with REJECT.
  `len`: the value written to REQ_LEN. -/
  | reqLenWrite (dt : Nat) (b : Bool) (len : Nat)
  /-- GET_IDENTITY (R448). The Ngufotu query returns serial, identity and versions. -/
  | getIdentity (h : NguHdr)
  /-- GET_STATUS (R448). The Ngufotu query returns modes, strand states and causes, Loupe status and time. -/
  | getStatus (h : NguHdr)
  /-- GET_NONCE (R445). The Ngufotu query issues a new nonce replacing the previous one. -/
  | getNonce (h : NguHdr)
  /-- READ_REG (R448). The Ngufotu query returns up to 64 words at a Loupe address. `a`, `n`: the first Loupe address and the
  number of words. -/
  | readReg (h : NguHdr) (a : Nat) (n : Nat)
  /-- READ_LOG (R448). The Ngufotu query returns log records by number. `first`, `n`: the first record and their number. -/
  | readLog (h : NguHdr) (first : Nat) (n : Nat)
  /-- READ_SENSORS (R448). The Ngufotu query returns all sensor values. -/
  | readSensors (h : NguHdr)
  /-- READ_WEAR (R448). The Ngufotu query returns hours, power cycles and per-strand wear and remaining life. -/
  | readWear (h : NguHdr)
  /-- READ_LOAD_RECORD (R256). The Ngufotu query returns a strand's load record. -/
  | readLoadRecord (h : NguHdr) (i : StrandId)
  /-- NGU_SNAP (R448). The Ngufotu SNAP command snapshots a named unit and returns its counters. -/
  | nguSnap (h : NguHdr) (u : SnapUnit)
  /-- FENCE (R34). The Ngufotu FENCE command fences a strand outward as a command trigger. -/
  | fence (h : NguHdr) (i : StrandId)
  /-- REJOIN (R36). The REJOIN command cold-resets and reloads a fenced strand in MD8 and resynchronizes it. -/
  | rejoin (h : NguHdr) (i : StrandId)
  /-- SAFE_HOLD (R44). The SAFE_HOLD command moves the device to MD9 by T13. -/
  | safeHold (h : NguHdr)
  /-- RELEASE (R45). The RELEASE command returns the device from MD9 by T14, or is refused. -/
  | release (h : NguHdr)
  /-- RESTART (R44). The RESTART command warm-resets all strands and the Loupe and restarts the load phase by T19. -/
  | restart (h : NguHdr) (start : StartIn)
  /-- SHUTDOWN (R44). The SHUTDOWN command drains the ledgers and enters MD0 by T15. -/
  | shutdown (h : NguHdr)
  /-- RECOVER (R44). The RECOVER command moves the device from MD10 to MD1 by T17. -/
  | recover (h : NguHdr)
  /-- CLASP_RESTART (R332). The CLASP_RESTART command releases the host-port fence. -/
  | claspRestart (h : NguHdr)
  /-- NGU_STRAND_WARM (R508). The Ngufotu command requests STRAND_WARM of a named strand, refused in OFF or FENCED. -/
  | nguStrandWarm (h : NguHdr) (i : StrandId)
  /-- NGU_STRAND_COLD (R448). The Ngufotu command requests STRAND_COLD of a named strand. -/
  | nguStrandCold (h : NguHdr) (i : StrandId)
  /-- NGU_LOUPE_RESET (R448). The Ngufotu command answers first and then resets the Loupe. -/
  | nguLoupeReset (h : NguHdr)
  /-- SET_TIME (R440). The SET_TIME command sets Loupe time and clears TIME_UNC. `ns`: the time to set. -/
  | setTime (h : NguHdr) (ns : Nat)
  /-- UPDATE_BEGIN (R467). The UPDATE_BEGIN command opens a relay session without a header. `sess`: session. -/
  | updateBegin (h : NguHdr) (sess : Nat)
  /-- UPDATE_ABORT (R479). The UPDATE_ABORT command closes the session and erases the relay state. -/
  | updateAbort (h : NguHdr) (sess : Nat)
  /-- ACTIVATE (R472). The ACTIVATE command arms a complete session for activation at a Loupe time. `due`: the time asked for,
  0 for at once. -/
  | activate (h : NguHdr) (sess : Nat) (due : Nat)
  /-- ACTIVATION_DUE (R472). Loupe time reaches AT and the boot record is written for a trial and T19 follows. -/
  | activationDue (dt : Nat) (start : StartIn)
  /-- CANCEL (R472). The CANCEL command returns an armed session to COMPLETE. -/
  | cancel (h : NguHdr) (sess : Nat)
  /-- CONFIRM (R474). The CONFIRM command confirms a TRIAL image and advances the anti-rollback counter. -/
  | confirm (h : NguHdr)
  /-- TRIAL_CONFIRM_DUE (R473). A trial has held for T_CONFIRM without failure and the image is confirmed. -/
  | trialConfirmDue (dt : Nat)
  /-- TRIAL_RESTART_DUE (R473). One second after a trial failure the device restarts by T19. -/
  | trialRestartDue (dt : Nat) (start : StartIn)
  /-- REVERT (R475). The REVERT command returns to the previous image and restarts by T19. `verdict`: how PREV's header comes
  out: 0 it passes, 1 its header fails, 2 its version is below the counter. -/
  | revert (h : NguHdr) (verdict : Nat) (start : StartIn)
  /-- ENROL (R478). The signed ENROL command generates the identity key and writes the Hallmark. -/
  | enrol (h : NguHdr) (body : List Byte)
  /-- LC_ADVANCE (R478). The signed LC_ADVANCE command answers and then advances the life-cycle state. `target`: the target
  state. -/
  | lcAdvance (h : NguHdr) (target : Nat)
  /-- RELAY_BLOCK (R468). A relay BLOCK message may open a session and its block is stored in both flashes and queued
  downstream. `path`: 0, 1 UP0, UP1; 4, 5 the request buffers of link A, B. `progA`, `progB`: how the program comes out on each
  flash: 0 at once, 1 at the second try, 2 not. `sig`: the header's signature passes. -/
  | relayBlock (dt : Nat) (path : Nat) (sess : Nat) (off : Nat) (hop : Nat) (total : Nat) (progA : Nat) (progB : Nat) (data : List Byte) (sig : Bool)
  /-- RELAY_REQUEST (R469). A relay REQUEST from downstream marks the named held blocks as requested on its path. `path`: 2, 3
  DOWN0, DOWN1; `outcome`: how the read comes out: 0 from FLASH_A, 1 from FLASH_B, 2 not. -/
  | relayRequest (dt : Nat) (path : Nat) (sess : Nat) (outcome : Nat) (ranges : List (Nat × Nat))
  /-- RELAY_STATE (R469). A relay STATE message from downstream is forwarded upstream with HOP + 1. `path`: 2, 3; the STATE
  message's fields. -/
  | relayState (dt : Nat) (path : Nat) (sess : Nat) (serial : Nat) (hop : Nat) (state : Nat) (stored : Nat) (total : Nat) (verS : Nat) (verA : Nat)
  /-- RELAY_STATE_TIMER (R469). Every 60 s of an open session, and when it completes, the device sends a STATE message
  upstream. -/
  | relayStateTimer (dt : Nat)
  /-- RELAY_QUEUE_SEND (R469). A path queue with room and rate sends its next forwarded or lowest requested block. `path`: 2,
  3; `outcome`: how the read comes out: 0 from FLASH_A, 1 from FLASH_B, 2 not. -/
  | relayQueueSend (dt : Nat) (path : Nat) (outcome : Nat)
  /-- RELAY_GAP_REQUEST (R470). A block stays missing 2 s after a later block, or none is stored for 10 s, and a REQUEST goes
  upstream. -/
  | relayGapRequest (dt : Nat)
  /-- RELAY_REQUEST_RETRY (R470). A request is unanswered for 10 s and is sent once more, or the upstream path changes or
  UP_LOST is set. -/
  | relayRequestRetry (dt : Nat)
  /-- RELAY_UP_LOST_REPEAT (R470). While UP_LOST is set the request is repeated every 60 s on every UP path. -/
  | relayUpLostRepeat (dt : Nat)
  /-- SESSION_VERIFY (R471). With every block stored the session hashes both flash copies and becomes COMPLETE or restarts.
  `copyA`, `copyB`: each copy's digest is right at the first read (0), at the second (1), or not (2). -/
  | sessionVerify (dt : Nat) (copyA : Nat) (copyB : Nat)
  /-- BANK_VIO_CHECK (R494). Every 1 ms each Bead bank rail is measured and a bank outside its window turns its drivers off.
  `k`: pin bank; `mv`: its rail in mV. -/
  | bankVioCheck (dt : Nat) (i : StrandId) (k : Fin 2) (mv : Nat)
  /-- PCIE_LINK_UP (R331). A PCIe link finishes training and returns to L0 after PERST release, a link down or a Clasp internal
  reset, so ACCEPTED writes, records and host access resume. -/
  | pcieLinkUp (dt : Nat) (b : Bool)
  /-- POSTED_CREDIT_RETURN (R319). The host returns posted-write credits on a link and the strand writes that were waiting for
  them are sent in round-robin turn. -/
  | postedCreditReturn (dt : Nat) (b : Bool) (n : Nat)
  /-- CBS_CREDIT_REACHES_ZERO (R158). A credit-based shaper's credit rises to 0 while its queue holds a frame, making the queue
  eligible so an idle port can start the frame. -/
  | cbsCreditReachesZero (dt : Nat) (i : StrandId) (e : Fin 4) (q : Fin 8)
  /-- RESERVED_ENCODING (R368). The core executes an instruction with a reserved major, reserved field or reserved value and
  takes the RSVD trap before any effect. `w`: the instruction word. -/
  | reservedEncoding (dt : Nat) (c : Fin 5) (w : Word)
  /-- NGUFOTU_MESSAGE (R444). A Ngufotu message or service-port frame arrives that no operation takes: an undefined OP, a
  failed signature, a wrong TARGET, a RESPONSE, a rate-limited or non-0x88B5 frame, answered or discarded and counted. -/
  | ngufotuMessage (dt : Nat) (path : Nat) (txn : Nat) (kind : MsgKind)
  /-- SERVICE_PORT_LINK_CHANGE (R443). The service port's RMII link goes up or down, changing LP_STATUS.SVC_LINK. -/
  | servicePortLinkChange (dt : Nat) (up : Bool)
  /-- WIPE_COMPLETE (R403). A Hallmark wipe finishes zeroing the 64 KiB region and its read-back, ending WIPING. -/
  | wipeComplete (dt : Nat)
  /-- LIFE_CYCLE_FUSES_PROGRAMMED (R404). The fuses of the requested life-cycle state finish programming 2 ms after the wipe,
  and LC_STATE takes the new state. -/
  | lifeCycleFusesProgrammed (dt : Nat)
deriving DecidableEq, Repr

end Sys2Proof
end

