-- ==== Sys2Proof/Decode.lean ====
section
/-! DEFINITION. The table gives its rows no bits, so no word spells a command. -/

namespace Sys2Proof

/-- No row of the table has bits: no word is a command.  (DESIGN CHOICE, safe: log entry 2.) -/
def decodeTableWord (_nbits _w : Nat) : Option Instr := none

end Sys2Proof
end

