-- ==== Sys2Proof/Config.lean ====
section
/-! DEFINITION. What the spec leaves to the part or leaves open: opaque constants, of which no value can be proved. -/

namespace Sys2Proof.Config

/-- What a read of a pad returns that is driven from both sides, or by nobody (R509): by strand, cycle, pin and reader.  (DESIGN CHOICE, safe: log entry 10.) -/
opaque freePin (strand now pin reader : Nat) : Bool

/-- The 48-bit source address a port puts into the flow-control frames it sends: the spec names none (R156).  (DESIGN CHOICE, safe: log entry 11.) -/
opaque portAddress (strand port : Nat) : Nat

/-- The time-stamp words of a write-back that carries no time-stamp: R185 gives them no value where TS_VALID is 0 (by strand,
cycle and word).  (DESIGN CHOICE, safe: log entry 12.) -/
opaque noStamp (strand now word : Nat) : BitVec 32

/-- The RING field of a KIND 3 record: R293 gives it no value (by queue).  (DESIGN CHOICE, safe: log entry 13.) -/
opaque postedRing (cq : Nat) : Nat

/-- Whether a positive number is written into a BCD field with the sign nibble 0xF instead of 0xC: R272 accepts both and names
neither.  (DESIGN CHOICE, safe: log entry 14.) -/
opaque bcdPlusF : Bool

/-- The Loupe ROM (R430): the spec gives its size and not its content.  (DESIGN CHOICE, safe: log entry 15.) -/
opaque loupeRom (addr : Nat) : BitVec 8

/-- The identity key pair and serial number that an enrolment writes: bytes 0x100 to 0x2FF of the Hallmark (R400, R478), by
generation and offset.  The key is made by the Loupe signing unit.  (DESIGN CHOICE, safe: log entry 16.) -/
opaque identity (gen off : Nat) : BitVec 8

/-- The Hallmark header an enrolment writes, 64 B (R400): magic, marker, generation; the spec gives no layout.  (DESIGN CHOICE, safe: log entry 16.) -/
opaque hmHeader (gen off : Nat) : BitVec 8

/-- The nonces the Loupe issues (R445), by their number.  (DESIGN CHOICE, safe: log entry 17.) -/
opaque nonce (n : Nat) : BitVec 32

/-- The response bodies whose layout the spec does not give (R448): by operation and byte.  (DESIGN CHOICE, safe: log entry 18.) -/
opaque versions (off : Nat) : BitVec 8

/-- The number that stands for a resource in the refusal of a load (R246): the spec gives none.  (DESIGN CHOICE, safe: log entry 56.) -/
opaque resourceNumber (res : Nat) : Nat

/-- Words of a descriptor that a write-back carries although the engine has not read it (log entry 205). -/
opaque unreadDesc (strand now ring word : Nat) : BitVec 32

/-- The device serial number, set at manufacture (R443, R444).  (DESIGN CHOICE, safe: log entry 18.) -/
opaque serial : BitVec 64

/-- The HOP a device gives a block that answers a request: the spec states it for forwarded blocks only (R469); by session and
block.  (DESIGN CHOICE, safe: log entry 19.) -/
opaque answerHop (sess blk : Nat) : BitVec 5

end Sys2Proof.Config
end

