-- ==== Sys2Proof/Machine/Tab.lean ====
section
/-! DEFINITION. Sparse tables and the fixed groups of four and two: the plain data shapes the state is built from. -/

namespace Sys2Proof.Machine

/-- A sparse table keyed by a number.  It lists only the entries that differ from the table's default, in
rising order of key, so that equal tables are equal data.  The default is given at each use. -/
structure Tab (α : Type) where
  cells : List (Nat × α) := []
deriving DecidableEq, Repr

/-- The entry of a list of cells at key `k`. -/
def tabFind {α : Type} : List (Nat × α) → Nat → Option α
  | [], _ => none
  | (j, a) :: rest, k => if j = k then some a else tabFind rest k

/-- The cells without key `k`. -/
def tabErase {α : Type} : List (Nat × α) → Nat → List (Nat × α)
  | [], _ => []
  | (j, a) :: rest, k => if j = k then tabErase rest k else (j, a) :: tabErase rest k

/-- The cells with an entry for `k` put at its place in the rising order. -/
def tabInsert {α : Type} (k : Nat) (v : α) : List (Nat × α) → List (Nat × α)
  | [] => [(k, v)]
  | (j, a) :: rest => if k < j then (k, v) :: (j, a) :: rest else (j, a) :: tabInsert k v rest

/-- The entry at `k`, or the default `d` where the table lists none. -/
def Tab.get {α : Type} (t : Tab α) (d : α) (k : Nat) : α := (tabFind t.cells k).getD d

/-- The table with `v` at `k`; an entry equal to the default is not listed. -/
def Tab.set {α : Type} [DecidableEq α] (t : Tab α) (d : α) (k : Nat) (v : α) : Tab α :=
  if v = d then ⟨tabErase t.cells k⟩ else ⟨tabInsert k v (tabErase t.cells k)⟩

/-- The table with the entry at `k` changed by `f`. -/
def Tab.upd {α : Type} [DecidableEq α] (t : Tab α) (d : α) (k : Nat) (f : α → α) : Tab α :=
  t.set d k (f (t.get d k))

/-- The table without the entries whose key satisfies `p`. -/
def Tab.dropIf {α : Type} (t : Tab α) (p : Nat → Bool) : Tab α := ⟨t.cells.filter fun c => !p c.1⟩

/-- The table with only the entries whose key satisfies `p`. -/
def Tab.keepIf {α : Type} (t : Tab α) (p : Nat → Bool) : Tab α := ⟨t.cells.filter fun c => p c.1⟩

/-- Four like things, one for each strand, or for each port of a strand. -/
structure Quad (α : Type) where
  q0 : α
  q1 : α
  q2 : α
  q3 : α
deriving DecidableEq, Repr

/-- The same thing four times. -/
def Quad.all {α : Type} (a : α) : Quad α := ⟨a, a, a, a⟩

/-- The thing of strand `i`. -/
def Quad.get {α : Type} (q : Quad α) (i : Fin 4) : α :=
  match i with
  | 0 => q.q0
  | 1 => q.q1
  | 2 => q.q2
  | 3 => q.q3

/-- The four with that of strand `i` replaced. -/
def Quad.set {α : Type} (q : Quad α) (i : Fin 4) (a : α) : Quad α :=
  match i with
  | 0 => { q with q0 := a }
  | 1 => { q with q1 := a }
  | 2 => { q with q2 := a }
  | 3 => { q with q3 := a }

/-- The four, each changed by `f`. -/
def Quad.map {α β : Type} (q : Quad α) (f : α → β) : Quad β := ⟨f q.q0, f q.q1, f q.q2, f q.q3⟩

/-- The four as a list, strand 0 first. -/
def Quad.toList {α : Type} (q : Quad α) : List α := [q.q0, q.q1, q.q2, q.q3]

/-- Two like things, one for each PCIe link. -/
structure Duo (α : Type) where
  a : α
  b : α
deriving DecidableEq, Repr

/-- The thing of link A (`false`) or B (`true`). -/
def Duo.get {α : Type} (q : Duo α) (i : Bool) : α := if i then q.b else q.a

/-- The two with that of link `i` replaced. -/
def Duo.set {α : Type} (q : Duo α) (i : Bool) (x : α) : Duo α := if i then { q with b := x } else { q with a := x }

end Sys2Proof.Machine
end

