-- ==== Sys2Proof/Machine/Bits.lean ====
section
/-! DEFINITION. Bit fields, signed readings and byte order (R3, R6, R7), as numbers. -/

namespace Sys2Proof.Machine

/-- Bits `[hi:lo]` of the number `n` (R3). -/
def bitsN (n hi lo : Nat) : Nat := (n >>> lo) % 2 ^ (hi + 1 - lo)

/-- Bit `i` of the number `n`. -/
def bitN (n i : Nat) : Bool := (n >>> i) % 2 == 1

/-- The number `n` with bits `[hi:lo]` replaced by the low bits of `v`. -/
def putN (n hi lo v : Nat) : Nat :=
  n - (bitsN n hi lo <<< lo) + ((v % 2 ^ (hi + 1 - lo)) <<< lo)

/-- The number `n` with bit `i` set to `b`. -/
def putBitN (n i : Nat) (b : Bool) : Nat := putN n i i (if b then 1 else 0)

/-- A field of a register. -/
def fieldOf (w : Word) (hi lo : Nat) : Nat := bitsN w.toNat hi lo

/-- One bit of a register. -/
def bitOf (w : Word) (i : Nat) : Bool := bitN w.toNat i

/-- A register with a field replaced. -/
def setField (w : Word) (hi lo v : Nat) : Word := BitVec.ofNat 32 (putN w.toNat hi lo v)

/-- A register with a bit set to `b`. -/
def setBit (w : Word) (i : Nat) (b : Bool) : Word := setField w i i (if b then 1 else 0)

/-- A Boolean as the number it stands for. -/
def b2n (b : Bool) : Nat := if b then 1 else 0

/-- The number `n` of `w` bits read as two's complement. -/
def signedN (w n : Nat) : Int := if n % 2 ^ w < 2 ^ (w - 1) then (n % 2 ^ w : Nat) else (n % 2 ^ w : Nat) - (2 ^ w : Nat)

/-- An integer as the number of its low `w` bits. -/
def wrapN (w : Nat) (i : Int) : Nat := (i % (2 ^ w : Nat)).toNat

/-- An integer saturated to `w`-bit two's complement, as the number of its bits. -/
def satN (w : Nat) (i : Int) : Nat :=
  wrapN w (max (-(2 ^ (w - 1) : Nat)) (min i ((2 ^ (w - 1) : Nat) - 1)))

/-- Serial arithmetic on 32-bit numbers: `b` is newer than `a` (R7). -/
def newer (b a : Nat) : Bool :=
  let d := (b + 2 ^ 32 - a % 2 ^ 32) % 2 ^ 32
  1 ≤ d && d ≤ 2 ^ 31 - 1

/-- The number of `n` little-endian bytes (R3). -/
def leBytes : Nat → Nat → List Byte
  | 0, _ => []
  | n + 1, v => BitVec.ofNat 8 v :: leBytes n (v / 256)

/-- The number a little-endian byte list spells. -/
def leNum : List Byte → Nat
  | [] => 0
  | b :: bs => b.toNat + 256 * leNum bs

/-- The number of `n` bytes as a frame carries it, most significant byte first. -/
def beBytes (n v : Nat) : List Byte := (leBytes n v).reverse

/-- The number a big-endian byte list spells. -/
def beNum (bs : List Byte) : Nat := leNum bs.reverse

/-- `n` divided by `d`, rounded up. -/
def ceilDiv (n d : Nat) : Nat := (n + d - 1) / d

/-- Byte `i` of a byte list, zero past its end. -/
def byteAt (bs : List Byte) (i : Nat) : Byte := bs.getD i 0

/-- The 16-bit big-endian number at byte `i`, as an EtherType or a tag stands in a frame. -/
def be16 (bs : List Byte) (i : Nat) : Nat := (byteAt bs i).toNat * 256 + (byteAt bs (i + 1)).toNat

/-- The reverse of the low `w` bits of `n`. -/
def revBits : Nat → Nat → Nat
  | 0, _ => 0
  | w + 1, n => (n % 2) * 2 ^ w + revBits w (n / 2)

/-- The numbers below `n` for which `p` holds, rising. -/
def idxsWhere (n : Nat) (p : Nat → Bool) : List Nat := (List.range n).filter p

end Sys2Proof.Machine
end

