-- ==== Sys2Proof/Machine/Cycle.lean ====
section
/-! DEFINITION. What has happened in the present cycle: the record by which events of one cycle meet each other (R12, R17). -/

namespace Sys2Proof.Machine

/-- Events of one cycle at the registers and counters of some units.  (DESIGN CHOICE, safe: log entry 6.) -/
structure Cycle where
  /-- Bits that hardware has set in it, by register (R12). -/
  set : Tab Nat := {}
  /-- Counters it has raised: the value before the cycle, and by how much (R17). -/
  cnt : Tab (Nat × Nat) := {}
  /-- First counter offsets of the units whose snapshot was taken in it (R17). -/
  snaps : List Nat := []
deriving DecidableEq, Repr

/-- The largest value of a statistics counter (R16). -/
def counterMax : Nat := 2 ^ 48 - 1

/-- Hardware sets the bits of a mask in a register. -/
def Cycle.noteSet (c : Cycle) (off mask : Nat) : Cycle := { c with set := c.set.upd 0 off (· ||| mask) }

/-- A counter that stood at `v` is raised by `n`. -/
def Cycle.noteCnt (c : Cycle) (off v n : Nat) : Cycle :=
  if n = 0 then c
  else match tabFind c.cnt.cells off with
    | some x => { c with cnt := c.cnt.set (0, 0) off (x.1, x.2 + n) }
    | none => { c with cnt := c.cnt.set (0, 0) off (v, n) }

/-- The live counters and the snapshots after the snapshot-and-clear command of the unit whose counters lie from `lo` below `hi`: an
event of this cycle is counted in the new interval, and a second command of the cycle changes nothing (R17). -/
def Cycle.snap (c : Cycle) (cnt snap : Tab Nat) (lo hi : Nat) : Cycle × Tab Nat × Tab Nat :=
  if c.snaps.contains lo then (c, cnt, snap)
  else
    let inR := fun k => decide (lo ≤ k) && decide (k < hi)
    let old := fun k => match tabFind c.cnt.cells k with
      | some x => x.1
      | none => cnt.get 0 k
    ({ c with snaps := lo :: c.snaps },
     (c.cnt.keepIf inR).cells.foldr (fun x t => t.set 0 x.1 (min counterMax x.2.2)) (cnt.dropIf inR),
     (cnt.keepIf inR).cells.foldr (fun x t => t.set 0 x.1 (old x.1)) (snap.dropIf inR))

end Sys2Proof.Machine
end

