-- ==== Sys2Proof/Machine/RegMap.lean ====
section
/-! DEFINITION. The register map: every register the spec describes, with its place, its reset value and its fields,
each field with its access code (R11) and the values it accepts (R15).  A field with an empty list accepts every value.
The statistics counters are not here: they are kept by offset in tables of the units. -/

namespace Sys2Proof.Machine

/-- The access code of a register field (R11). -/
inductive Acc where
  | rw | ro | wo | w1c | w1s | rwl
deriving DecidableEq, Repr

/-- One field: its highest and lowest bit, its access code, and the ranges of values it accepts (none listed: every value). -/
structure Fld where
  hi : Nat
  lo : Nat
  acc : Acc
  ok : List (Nat × Nat)
deriving DecidableEq, Repr

/-- One register description: its name, the offset of its first copy, the stride and number of each of its indices, its
value after POR, which masters may write it (bit 0 host, bit 1 core, bit 2 Loupe), and whether it is "STOPPED only" (R78). -/
structure RegRow where
  name : String
  base : Nat
  dims : List (Nat × Nat)
  reset : Nat
  who : Nat
  stoppedOnly : Bool
  flds : List Fld
deriving DecidableEq, Repr

/-- Registers of the supervisor and ledger page (strand offsets), from SUP_STATUS (R47). -/
def strandRows0p0 : List RegRow := [
  ⟨"SUP_STATUS", 0x0, [], 0x0, 7, false,
    [⟨15, 15, .ro, []⟩, ⟨14, 14, .ro, []⟩, ⟨13, 13, .ro, []⟩, ⟨12, 12, .ro, []⟩, ⟨11, 8, .ro, []⟩, ⟨5, 5, .ro, []⟩, ⟨4, 4, .ro, []⟩, ⟨2, 0, .ro, []⟩]⟩,
  ⟨"SUP_CTL", 0x4, [], 0x0, 7, false,
    [⟨23, 8, .rwl, [(0, 0), (20, 65535)]⟩, ⟨4, 4, .rwl, []⟩, ⟨3, 3, .wo, []⟩, ⟨2, 2, .wo, []⟩, ⟨1, 1, .wo, []⟩, ⟨0, 0, .wo, []⟩]⟩,
  ⟨"SUP_CAUSE", 0x8, [], 0x0, 7, false,
    [⟨13, 13, .w1c, []⟩, ⟨12, 12, .w1c, []⟩, ⟨11, 11, .w1c, []⟩, ⟨10, 10, .w1c, []⟩, ⟨9, 9, .w1c, []⟩, ⟨8, 8, .w1c, []⟩, ⟨7, 7, .w1c, []⟩, ⟨2, 2, .w1c, []⟩, ⟨1, 1, .w1c, []⟩, ⟨0, 0, .w1c, []⟩]⟩,
  ⟨"LEDGER_FLAGS", 0x10, [], 0x0, 7, false,
    [⟨4, 4, .w1c, []⟩, ⟨3, 3, .w1c, []⟩, ⟨2, 2, .w1c, []⟩, ⟨1, 1, .w1c, []⟩, ⟨0, 0, .w1c, []⟩]⟩,
  ⟨"LEDGER_CMD", 0x14, [], 0x0, 7, false,
    [⟨0, 0, .wo, []⟩]⟩,
  ⟨"CMDACC_GO", 0x2c, [], 0x0, 7, false,
    [⟨5, 4, .wo, []⟩, ⟨1, 0, .wo, []⟩]⟩,
  ⟨"CMDACC_RES", 0x30, [], 0x0, 7, false,
    [⟨31, 31, .ro, []⟩, ⟨2, 0, .ro, []⟩]⟩,
  ⟨"CMDACC_QSEQ", 0x20, [], 0x0, 2, false,
    [⟨31, 0, .wo, []⟩]⟩,
  ⟨"CMDACC_NOTICE_LO", 0x24, [], 0x0, 2, false,
    [⟨31, 0, .wo, []⟩]⟩,
  ⟨"CMDACC_NOTICE_HI", 0x28, [], 0x0, 2, false,
    [⟨31, 24, .wo, []⟩, ⟨23, 16, .wo, []⟩, ⟨15, 0, .wo, []⟩]⟩,
  ⟨"CMD_CQ", 0x34, [], 0x0, 7, false,
    [⟨19, 16, .rwl, []⟩, ⟨14, 12, .rwl, []⟩, ⟨10, 8, .rwl, []⟩, ⟨6, 4, .rwl, []⟩, ⟨2, 0, .rwl, []⟩]⟩,
  ⟨"LEDGER_ACC_j", 0x100, [(16, 37)], 0x0, 7, false,
    [⟨31, 0, .ro, []⟩]⟩]

/-- Registers of the supervisor and ledger page (strand offsets), from LEDGER_STA_j (R359). -/
def strandRows0p1 : List RegRow := [
  ⟨"LEDGER_STA_j", 0x104, [(16, 37)], 0x0, 7, false,
    [⟨31, 0, .ro, []⟩]⟩,
  ⟨"LEDGER_CMP_j", 0x108, [(16, 37)], 0x0, 7, false,
    [⟨31, 0, .ro, []⟩]⟩,
  ⟨"LEDGER_ENTRY_j", 0x10c, [(16, 37)], 0x0, 7, false,
    [⟨31, 31, .ro, []⟩, ⟨30, 30, .ro, []⟩, ⟨22, 16, .ro, []⟩, ⟨15, 0, .ro, []⟩]⟩]

/-- Registers of the supervisor and ledger page (strand offsets). -/
def strandRows0 : List RegRow := strandRows0p0 ++ strandRows0p1

/-- Registers of the Bead engines and Bead control block (strand offsets), from BEAD_CTL (R83). -/
def strandRows1p0 : List RegRow := [
  ⟨"BEAD_CTL", 0x10000, [(4096, 16)], 0x0, 7, false,
    [⟨13, 13, .rw, []⟩, ⟨12, 12, .rw, []⟩, ⟨11, 11, .rw, []⟩, ⟨10, 10, .rw, []⟩, ⟨9, 9, .rw, []⟩, ⟨5, 0, .rw, []⟩]⟩,
  ⟨"BEAD_CMD", 0x10004, [(4096, 16)], 0x0, 7, false,
    [⟨11, 8, .wo, []⟩, ⟨7, 7, .wo, []⟩, ⟨6, 6, .wo, []⟩, ⟨5, 5, .wo, []⟩, ⟨4, 4, .wo, []⟩, ⟨3, 3, .wo, []⟩, ⟨2, 2, .wo, []⟩, ⟨1, 1, .wo, []⟩, ⟨0, 0, .wo, []⟩]⟩,
  ⟨"BEAD_STATUS", 0x10008, [(4096, 16)], 0x0, 7, false,
    [⟨21, 16, .ro, []⟩, ⟨15, 15, .ro, []⟩, ⟨14, 14, .ro, []⟩, ⟨13, 13, .ro, []⟩, ⟨11, 8, .ro, []⟩, ⟨5, 4, .ro, []⟩, ⟨2, 0, .ro, []⟩]⟩,
  ⟨"BEAD_FLAGS", 0x1000c, [(4096, 16)], 0x0, 7, false,
    [⟨12, 12, .w1c, []⟩, ⟨11, 11, .w1c, []⟩, ⟨10, 10, .w1c, []⟩, ⟨9, 9, .w1c, []⟩, ⟨8, 8, .w1c, []⟩, ⟨7, 7, .w1c, []⟩, ⟨6, 6, .w1c, []⟩, ⟨5, 5, .w1c, []⟩, ⟨4, 4, .w1c, []⟩, ⟨3, 3, .w1c, []⟩, ⟨2, 2, .w1c, []⟩, ⟨1, 1, .w1c, []⟩, ⟨0, 0, .w1c, []⟩]⟩,
  ⟨"BEAD_EVT", 0x10010, [(4096, 16)], 0x0, 7, false,
    [⟨3, 0, .w1c, []⟩]⟩,
  ⟨"BEAD_DIV", 0x10014, [(4096, 16)], 0x100, 7, false,
    [⟨23, 8, .rw, []⟩, ⟨7, 0, .rw, []⟩]⟩,
  ⟨"BEAD_PINCFG", 0x10018, [(4096, 16)], 0x0, 7, true,
    [⟨26, 26, .rwl, []⟩, ⟨25, 21, .rwl, [(0, 22)]⟩, ⟨19, 19, .rwl, []⟩, ⟨18, 15, .rwl, [(0, 8)]⟩, ⟨14, 10, .rwl, []⟩, ⟨9, 9, .rwl, []⟩, ⟨8, 5, .rwl, [(0, 8)]⟩, ⟨4, 0, .rwl, []⟩]⟩,
  ⟨"BEAD_QCFG", 0x1001c, [(4096, 16)], 0x0, 7, false,
    [⟨16, 16, .rw, []⟩, ⟨13, 8, .rw, []⟩, ⟨7, 2, .rw, []⟩, ⟨1, 0, .rw, [(0, 2)]⟩]⟩,
  ⟨"BEAD_QSTAT", 0x10020, [(4096, 16)], 0x0, 7, false,
    [⟨13, 8, .ro, []⟩, ⟨5, 0, .ro, []⟩]⟩,
  ⟨"BEAD_IMEM_i", 0x10100, [(4096, 16), (4, 64)], 0x0, 7, false,
    [⟨23, 0, .rw, []⟩]⟩,
  ⟨"BP_PAD_p", 0x10800, [(4, 24)], 0x0, 7, false,
    [⟨7, 7, .rwl, []⟩, ⟨6, 5, .rwl, [(0, 2)]⟩, ⟨4, 3, .rwl, [(0, 2)]⟩, ⟨2, 2, .rwl, []⟩, ⟨1, 1, .rwl, []⟩]⟩,
  ⟨"BP_IN", 0x10880, [], 0x0, 7, false,
    [⟨23, 0, .ro, []⟩]⟩]

/-- Registers of the Bead engines and Bead control block (strand offsets), from BP_VIO (R85). -/
def strandRows1p1 : List RegRow := [
  ⟨"BP_VIO", 0x10884, [], 0x0, 7, false,
    [⟨5, 5, .ro, []⟩, ⟨4, 4, .ro, []⟩, ⟨1, 1, .rwl, []⟩, ⟨0, 0, .rwl, []⟩]⟩,
  ⟨"BP_CLAIM", 0x10888, [], 0x0, 7, false,
    [⟨23, 0, .ro, []⟩]⟩,
  ⟨"VL_OWN", 0x1088c, [], 0x0, 7, false,
    [⟨4, 4, .ro, []⟩, ⟨12, 12, .ro, []⟩, ⟨20, 20, .ro, []⟩, ⟨28, 28, .ro, []⟩, ⟨3, 0, .ro, []⟩, ⟨11, 8, .ro, []⟩, ⟨19, 16, .ro, []⟩, ⟨27, 24, .ro, []⟩]⟩,
  ⟨"BP_OWN_k", 0x10890, [(4, 3)], 0x0, 7, false,
    [⟨3, 0, .ro, []⟩, ⟨7, 4, .ro, []⟩, ⟨11, 8, .ro, []⟩, ⟨15, 12, .ro, []⟩, ⟨19, 16, .ro, []⟩, ⟨23, 20, .ro, []⟩, ⟨27, 24, .ro, []⟩, ⟨31, 28, .ro, []⟩]⟩,
  ⟨"BEAD_TXQ", 0x10024, [(4096, 16)], 0x0, 7, false,
    [⟨31, 0, .wo, []⟩]⟩,
  ⟨"BEAD_RXQ", 0x10028, [(4096, 16)], 0x0, 7, false,
    [⟨31, 0, .ro, []⟩]⟩,
  ⟨"BEAD_SHCFG", 0x1002c, [(4096, 16)], 0x0, 7, true,
    [⟨1, 1, .rw, []⟩, ⟨0, 0, .rw, []⟩]⟩,
  ⟨"BEAD_OSR", 0x10030, [(4096, 16)], 0x0, 7, true,
    [⟨31, 0, .rw, []⟩]⟩,
  ⟨"BEAD_ISR", 0x10034, [(4096, 16)], 0x0, 7, true,
    [⟨31, 0, .rw, []⟩]⟩,
  ⟨"BEAD_XY", 0x10038, [(4096, 16)], 0x0, 7, true,
    [⟨31, 16, .rw, []⟩, ⟨15, 0, .rw, []⟩]⟩,
  ⟨"BEAD_SHCNT", 0x1003c, [(4096, 16)], 0x0, 7, true,
    [⟨13, 8, .rw, [(0, 32)]⟩, ⟨5, 0, .rw, [(0, 32)]⟩]⟩,
  ⟨"BEAD_CMP", 0x10040, [(4096, 16)], 0x0, 7, false,
    [⟨31, 0, .rw, []⟩]⟩]

/-- Registers of the Bead engines and Bead control block (strand offsets), from BEAD_CMP_MASK (R84). -/
def strandRows1p2 : List RegRow := [
  ⟨"BEAD_CMP_MASK", 0x10044, [(4096, 16)], 0xffffffff, 7, false,
    [⟨31, 0, .rw, []⟩]⟩,
  ⟨"BEAD_CMPCFG", 0x10048, [(4096, 16)], 0x0, 7, false,
    [⟨2, 0, .rw, [(0, 6)]⟩]⟩,
  ⟨"BEAD_CRCCFG", 0x1004c, [(4096, 16)], 0x0, 7, true,
    [⟨2, 0, .rw, []⟩]⟩,
  ⟨"BEAD_CRC", 0x10050, [(4096, 16)], 0x0, 7, true,
    [⟨31, 0, .rw, []⟩]⟩,
  ⟨"BEAD_CRC_FINAL", 0x10054, [(4096, 16)], 0x0, 7, false,
    [⟨31, 0, .ro, []⟩]⟩,
  ⟨"BEAD_CRCU_POLY_k", 0x10060, [(4096, 16), (16, 3)], 0x0, 7, true,
    [⟨31, 0, .rw, []⟩]⟩,
  ⟨"BEAD_CRCU_INIT_k", 0x10064, [(4096, 16), (16, 3)], 0x0, 7, true,
    [⟨31, 0, .rw, []⟩]⟩,
  ⟨"BEAD_CRCU_XOR_k", 0x10068, [(4096, 16), (16, 3)], 0x0, 7, true,
    [⟨31, 0, .rw, []⟩]⟩,
  ⟨"BEAD_CRCU_PARAM_k", 0x1006c, [(4096, 16), (16, 3)], 0x20, 7, true,
    [⟨7, 7, .rw, []⟩, ⟨6, 6, .rw, []⟩, ⟨5, 0, .rw, [(1, 32)]⟩]⟩]

/-- Registers of the Bead engines and Bead control block (strand offsets). -/
def strandRows1 : List RegRow := strandRows1p0 ++ strandRows1p1 ++ strandRows1p2

/-- Registers of the ports and MDIO (strand offsets), from MAC_CTL (R127). -/
def strandRows2p0 : List RegRow := [
  ⟨"MAC_CTL", 0x20000, [(16384, 4)], 0x0, 7, false,
    [⟨19, 19, .rw, []⟩, ⟨18, 18, .rw, []⟩, ⟨17, 17, .rw, []⟩, ⟨16, 16, .rw, []⟩, ⟨15, 14, .rwl, [(0, 2)]⟩, ⟨13, 12, .rwl, [(0, 2)]⟩, ⟨11, 11, .rwl, []⟩, ⟨10, 10, .rw, []⟩, ⟨9, 9, .rw, []⟩, ⟨7, 4, .rwl, [(0, 4)]⟩, ⟨3, 2, .rwl, [(1, 2)]⟩, ⟨1, 1, .rw, []⟩, ⟨0, 0, .rw, []⟩]⟩,
  ⟨"MAC_STATUS", 0x20004, [(16384, 4)], 0x0, 7, false,
    [⟨9, 8, .ro, []⟩, ⟨7, 7, .ro, []⟩, ⟨3, 3, .ro, []⟩, ⟨2, 2, .ro, []⟩, ⟨1, 1, .ro, []⟩, ⟨0, 0, .ro, []⟩]⟩,
  ⟨"MAC_FLAGS", 0x20008, [(16384, 4)], 0x0, 7, false,
    [⟨6, 6, .w1c, []⟩, ⟨5, 5, .w1c, []⟩, ⟨4, 4, .w1c, []⟩, ⟨3, 3, .w1c, []⟩, ⟨2, 2, .w1c, []⟩, ⟨1, 1, .w1c, []⟩, ⟨0, 0, .w1c, []⟩]⟩,
  ⟨"MAC_CMD", 0x2000c, [(16384, 4)], 0x0, 7, false,
    [⟨2, 2, .wo, []⟩, ⟨1, 1, .wo, []⟩, ⟨0, 0, .wo, []⟩]⟩,
  ⟨"MAC_MAXLEN", 0x20010, [(16384, 4)], 0x5f2, 7, false,
    [⟨13, 0, .rwl, [(64, 9216)]⟩]⟩,
  ⟨"MAC_TAGCFG", 0x20014, [(16384, 4)], 0x0, 7, false,
    [⟨15, 15, .rwl, []⟩, ⟨14, 14, .rwl, []⟩, ⟨13, 13, .rwl, []⟩, ⟨12, 12, .rwl, []⟩, ⟨11, 11, .rwl, []⟩, ⟨10, 10, .rwl, []⟩, ⟨9, 9, .rwl, []⟩, ⟨8, 8, .rwl, []⟩, ⟨7, 4, .rwl, []⟩]⟩,
  ⟨"MAC_TAGDEF", 0x20018, [(16384, 4)], 0x0, 7, false,
    [⟨30, 28, .rw, []⟩, ⟨27, 16, .rw, []⟩, ⟨15, 13, .rw, []⟩, ⟨11, 0, .rw, []⟩]⟩,
  ⟨"MAC_PCPMAP", 0x2001c, [(16384, 4)], 0x76543210, 7, false,
    [⟨2, 0, .rw, []⟩, ⟨6, 4, .rw, []⟩, ⟨10, 8, .rw, []⟩, ⟨14, 12, .rw, []⟩, ⟨18, 16, .rw, []⟩, ⟨22, 20, .rw, []⟩, ⟨26, 24, .rw, []⟩, ⟨30, 28, .rw, []⟩]⟩,
  ⟨"MAC_PREEMPT", 0x20020, [(16384, 4)], 0xa00, 7, false,
    [⟨23, 16, .rwl, []⟩, ⟨15, 8, .rwl, [(1, 128)]⟩, ⟨5, 4, .rwl, []⟩, ⟨2, 2, .rwl, []⟩, ⟨0, 0, .rwl, []⟩]⟩,
  ⟨"MAC_TS_RXCORR", 0x20024, [(16384, 4)], 0x0, 7, false,
    [⟨31, 0, .rw, []⟩]⟩,
  ⟨"MAC_TS_TXCORR", 0x20028, [(16384, 4)], 0x0, 7, false,
    [⟨31, 0, .rw, []⟩]⟩,
  ⟨"MAC_MGMT", 0x2002c, [(16384, 4)], 0x0, 7, false,
    [⟨12, 12, .rwl, []⟩, ⟨11, 0, .rwl, []⟩]⟩]

/-- Registers of the ports and MDIO (strand offsets), from MAC_FLT_k_W0 (R127). -/
def strandRows2p1 : List RegRow := [
  ⟨"MAC_FLT_k_W0", 0x20100, [(16384, 4), (16, 32)], 0x0, 7, false,
    [⟨31, 0, .rw, []⟩]⟩,
  ⟨"MAC_FLT_k_W1", 0x20104, [(16384, 4), (16, 32)], 0x0, 7, false,
    [⟨31, 16, .rw, []⟩, ⟨15, 0, .rw, []⟩]⟩,
  ⟨"MAC_FLT_k_W2", 0x20108, [(16384, 4), (16, 32)], 0x0, 7, false,
    [⟨14, 12, .rw, []⟩, ⟨11, 0, .rw, []⟩]⟩,
  ⟨"MAC_FLT_k_W3", 0x2010c, [(16384, 4), (16, 32)], 0x0, 7, false,
    [⟨31, 31, .rw, []⟩, ⟨30, 29, .rw, []⟩, ⟨28, 28, .rw, []⟩, ⟨27, 27, .rw, []⟩, ⟨26, 26, .rw, []⟩, ⟨25, 24, .rw, [(0, 2)]⟩, ⟨18, 16, .rw, []⟩]⟩,
  ⟨"MDIO_CFG", 0x23000, [], 0xc7, 7, false,
    [⟨8, 8, .rwl, []⟩, ⟨7, 0, .rwl, [(39, 255)]⟩]⟩,
  ⟨"MDIO_CMD", 0x23004, [], 0x0, 7, false,
    [⟨31, 31, .rw, []⟩, ⟨30, 29, .rw, []⟩, ⟨25, 21, .rw, []⟩, ⟨20, 16, .rw, []⟩, ⟨15, 0, .rw, []⟩]⟩,
  ⟨"MDIO_STAT", 0x23008, [], 0x0, 7, false,
    [⟨31, 31, .ro, []⟩, ⟨30, 30, .ro, []⟩, ⟨29, 29, .w1c, []⟩, ⟨15, 0, .ro, []⟩]⟩]

/-- Registers of the ports and MDIO (strand offsets). -/
def strandRows2 : List RegRow := strandRows2p0 ++ strandRows2p1

/-- Registers of the switch (strand offsets), from SW_CTL (R167). -/
def strandRows3p0 : List RegRow := [
  ⟨"SW_CTL", 0x30000, [], 0x0, 7, false,
    [⟨15, 8, .rwl, []⟩, ⟨1, 1, .rw, []⟩, ⟨0, 0, .rw, []⟩]⟩,
  ⟨"SW_STATUS", 0x30004, [], 0x0, 7, false,
    [⟨24, 16, .ro, []⟩, ⟨13, 0, .ro, []⟩]⟩,
  ⟨"SW_FLAGS", 0x30008, [], 0x0, 7, false,
    [⟨5, 5, .w1c, []⟩, ⟨4, 4, .w1c, []⟩, ⟨3, 3, .w1c, []⟩, ⟨2, 2, .w1c, []⟩, ⟨1, 1, .w1c, []⟩, ⟨0, 0, .w1c, []⟩]⟩,
  ⟨"SW_CMD", 0x3000c, [], 0x0, 7, false,
    [⟨0, 0, .wo, []⟩]⟩,
  ⟨"SW_MIRROR", 0x30010, [], 0x0, 7, false,
    [⟨31, 22, .rw, []⟩, ⟨21, 12, .rw, []⟩, ⟨11, 11, .rw, []⟩, ⟨10, 10, .rw, []⟩, ⟨9, 7, .rw, []⟩, ⟨3, 0, .rw, [(0, 4)]⟩]⟩,
  ⟨"SW_VCFG", 0x30014, [], 0x0, 7, false,
    [⟨19, 16, .rwl, []⟩, ⟨3, 0, .rwl, []⟩, ⟨7, 4, .rwl, []⟩, ⟨11, 8, .rwl, []⟩, ⟨15, 12, .rwl, []⟩]⟩,
  ⟨"SW_GRP_MEM_g", 0x30020, [(8, 2)], 0x0, 7, false,
    [⟨7, 4, .ro, []⟩, ⟨3, 0, .rwl, []⟩]⟩,
  ⟨"SW_GRP_MAP_g", 0x30024, [(8, 2)], 0x0, 7, false,
    [⟨1, 0, .rw, []⟩, ⟨3, 2, .rw, []⟩, ⟨5, 4, .rw, []⟩, ⟨7, 6, .rw, []⟩, ⟨9, 8, .rw, []⟩, ⟨11, 10, .rw, []⟩, ⟨13, 12, .rw, []⟩, ⟨15, 14, .rw, []⟩, ⟨17, 16, .rw, []⟩, ⟨19, 18, .rw, []⟩, ⟨21, 20, .rw, []⟩, ⟨23, 22, .rw, []⟩, ⟨25, 24, .rw, []⟩, ⟨27, 26, .rw, []⟩, ⟨29, 28, .rw, []⟩, ⟨31, 30, .rw, []⟩]⟩,
  ⟨"SW_FDB_CMD", 0x30030, [], 0x0, 7, false,
    [⟨31, 31, .ro, []⟩, ⟨30, 29, .wo, []⟩, ⟨10, 0, .rw, []⟩]⟩,
  ⟨"SW_FDB_D0", 0x30034, [], 0x0, 7, false,
    [⟨31, 0, .rw, []⟩]⟩,
  ⟨"SW_FDB_D1", 0x30038, [], 0x0, 7, false,
    [⟨31, 31, .rw, []⟩, ⟨27, 16, .rw, []⟩, ⟨15, 0, .rw, []⟩]⟩,
  ⟨"SW_FDB_D2", 0x3003c, [], 0x0, 7, false,
    [⟨9, 0, .rw, []⟩]⟩]

/-- Registers of the switch (strand offsets), from SW_IN_CFG_i (R167). -/
def strandRows3p1 : List RegRow := [
  ⟨"SW_IN_CFG_i", 0x30100, [(16, 10)], 0x0, 7, false,
    [⟨29, 20, .rw, []⟩, ⟨13, 0, .rwl, [(0, 7936)]⟩]⟩,
  ⟨"SW_FC_i", 0x30104, [(16, 4)], 0x0, 7, false,
    [⟨31, 30, .rwl, [(0, 2)]⟩, ⟨27, 14, .rwl, []⟩, ⟨13, 0, .rwl, []⟩]⟩,
  ⟨"SW_FCQ_i", 0x30108, [(16, 4)], 0xffff, 7, false,
    [⟨15, 0, .rwl, [(1, 65535)]⟩]⟩,
  ⟨"SW_IN_STAT_i", 0x3010c, [(16, 10)], 0x0, 7, false,
    [⟨31, 24, .ro, []⟩, ⟨13, 0, .ro, []⟩]⟩,
  ⟨"SW_QCFG_e_q", 0x30400, [(128, 10), (16, 8)], 0x0, 7, false,
    [⟨31, 18, .rw, []⟩, ⟨13, 0, .rwl, []⟩]⟩,
  ⟨"SW_CBS_e_q", 0x30404, [(128, 4), (16, 8)], 0x0, 7, false,
    [⟨31, 31, .rw, []⟩, ⟨21, 0, .rw, []⟩]⟩,
  ⟨"SW_CBSLIM_e_q", 0x30408, [(128, 4), (16, 8)], 0x0, 7, false,
    [⟨31, 16, .rw, []⟩, ⟨15, 0, .rw, []⟩]⟩,
  ⟨"SW_QSTAT_e_q", 0x3040c, [(128, 10), (16, 8)], 0x0, 7, false,
    [⟨17, 17, .ro, []⟩, ⟨16, 16, .ro, []⟩, ⟨13, 0, .ro, []⟩]⟩,
  ⟨"GCL_x_k", 0x32000, [(4096, 4), (1024, 2), (4, 256)], 0x0, 7, false,
    [⟨31, 24, .rw, []⟩, ⟨23, 0, .rw, []⟩]⟩,
  ⟨"GCL_CTL", 0x32800, [(4096, 4)], 0x0, 7, false,
    [⟨31, 31, .rw, []⟩, ⟨30, 30, .ro, []⟩, ⟨29, 29, .ro, []⟩, ⟨28, 28, .wo, []⟩]⟩,
  ⟨"GCL_LEN", 0x32804, [(4096, 4)], 0x0, 7, false,
    [⟨24, 16, .rw, [(0, 256)]⟩, ⟨8, 0, .rw, [(0, 256)]⟩]⟩,
  ⟨"GCL_NEXT_CYCLE", 0x32808, [(4096, 4)], 0x0, 7, false,
    [⟨29, 0, .rw, [(1, 1000000000)]⟩]⟩]

/-- Registers of the switch (strand offsets), from GCL_NEXT_BASE_NS (R168). -/
def strandRows3p2 : List RegRow := [
  ⟨"GCL_NEXT_BASE_NS", 0x3280c, [(4096, 4)], 0x0, 7, false,
    [⟨29, 0, .rw, [(0, 999999999)]⟩]⟩,
  ⟨"GCL_NEXT_BASE_S", 0x32810, [(4096, 4)], 0x0, 7, false,
    [⟨31, 0, .rw, []⟩]⟩,
  ⟨"GCL_NEXT_BASE_SH", 0x32814, [(4096, 4)], 0x0, 7, false,
    [⟨15, 0, .rw, []⟩]⟩,
  ⟨"GCL_CUR_CYCLE", 0x32818, [(4096, 4)], 0x0, 7, false,
    [⟨29, 0, .ro, []⟩]⟩,
  ⟨"GCL_AGATE", 0x32820, [(4096, 4)], 0x0, 7, false,
    [⟨15, 8, .rw, []⟩, ⟨7, 0, .rw, []⟩]⟩,
  ⟨"GCL_STAT", 0x32824, [(4096, 4)], 0x0, 7, false,
    [⟨23, 16, .ro, []⟩, ⟨7, 0, .ro, []⟩]⟩]

/-- Registers of the switch (strand offsets). -/
def strandRows3 : List RegRow := strandRows3p0 ++ strandRows3p1 ++ strandRows3p2

/-- Registers of the DMA engine (strand offsets), from DMA_CTL (R308). -/
def strandRows4p0 : List RegRow := [
  ⟨"DMA_CTL", 0x40000, [], 0x0, 7, false,
    [⟨1, 1, .rw, []⟩, ⟨0, 0, .rw, []⟩]⟩,
  ⟨"DMA_CMD", 0x40004, [], 0x0, 7, false,
    [⟨0, 0, .wo, []⟩]⟩,
  ⟨"DMA_STATUS", 0x40008, [], 0x0, 7, false,
    [⟨22, 16, .ro, []⟩, ⟨7, 0, .ro, []⟩]⟩,
  ⟨"DMA_FLAGS", 0x4000c, [], 0x0, 7, false,
    [⟨6, 6, .w1c, []⟩, ⟨5, 5, .w1c, []⟩, ⟨4, 4, .w1c, []⟩, ⟨3, 3, .w1c, []⟩, ⟨2, 2, .w1c, []⟩, ⟨1, 1, .w1c, []⟩, ⟨0, 0, .w1c, []⟩]⟩,
  ⟨"DMA_RXMAP_H", 0x40010, [], 0x0, 7, false,
    [⟨3, 0, .rwl, []⟩, ⟨7, 4, .rwl, []⟩, ⟨11, 8, .rwl, []⟩, ⟨15, 12, .rwl, []⟩, ⟨19, 16, .rwl, []⟩, ⟨23, 20, .rwl, []⟩, ⟨27, 24, .rwl, []⟩, ⟨31, 28, .rwl, []⟩]⟩,
  ⟨"DMA_RXMAP_C", 0x40014, [], 0x0, 7, false,
    [⟨3, 0, .rwl, []⟩, ⟨7, 4, .rwl, []⟩, ⟨11, 8, .rwl, []⟩, ⟨15, 12, .rwl, []⟩, ⟨19, 16, .rwl, []⟩, ⟨23, 20, .rwl, []⟩, ⟨27, 24, .rwl, []⟩, ⟨31, 28, .rwl, []⟩]⟩,
  ⟨"DMA_ABORT", 0x40020, [], 0x0, 7, false,
    [⟨25, 25, .wo, []⟩, ⟨24, 24, .wo, []⟩, ⟨23, 20, .wo, []⟩, ⟨15, 0, .wo, []⟩]⟩,
  ⟨"DMA_ABORT_RES", 0x40024, [], 0x0, 7, false,
    [⟨31, 31, .ro, []⟩, ⟨17, 16, .ro, []⟩, ⟨15, 0, .ro, []⟩]⟩,
  ⟨"DMA_CQ_POST_Q", 0x40028, [], 0x0, 7, false,
    [⟨31, 0, .wo, []⟩]⟩,
  ⟨"DMA_CQ_POST", 0x4002c, [], 0x0, 7, false,
    [⟨26, 24, .wo, []⟩, ⟨23, 16, .wo, []⟩, ⟨15, 0, .wo, []⟩]⟩,
  ⟨"TX_RING_BASE_LO", 0x41000, [(64, 16)], 0x0, 7, false,
    [⟨31, 5, .rw, []⟩]⟩,
  ⟨"TX_RING_BASE_HI", 0x41004, [(64, 16)], 0x0, 7, false,
    [⟨31, 0, .rw, []⟩]⟩]

/-- Registers of the DMA engine (strand offsets), from TX_RING_CFG (R309). -/
def strandRows4p1 : List RegRow := [
  ⟨"TX_RING_CFG", 0x41008, [(64, 16)], 0x4, 7, false,
    [⟨31, 30, .rwl, [(0, 2)]⟩, ⟨26, 24, .rw, []⟩, ⟨19, 19, .rw, []⟩, ⟨18, 18, .rw, []⟩, ⟨17, 17, .rw, []⟩, ⟨4, 0, .rw, [(4, 16)]⟩]⟩,
  ⟨"TX_RING_CTL", 0x4100c, [(64, 16)], 0x0, 7, false,
    [⟨1, 1, .wo, []⟩, ⟨0, 0, .rw, []⟩]⟩,
  ⟨"TX_RING_TAIL", 0x41010, [(64, 16)], 0x0, 7, false,
    [⟨15, 0, .rw, []⟩]⟩,
  ⟨"TX_RING_HEAD", 0x41014, [(64, 16)], 0x0, 7, false,
    [⟨15, 0, .ro, []⟩]⟩,
  ⟨"TX_RING_STATUS", 0x41018, [(64, 16)], 0x0, 7, false,
    [⟨2, 0, .ro, []⟩]⟩,
  ⟨"TX_RING_FLAGS", 0x4101c, [(64, 16)], 0x0, 7, false,
    [⟨5, 5, .w1c, []⟩, ⟨4, 4, .w1c, []⟩, ⟨3, 3, .w1c, []⟩, ⟨2, 2, .w1c, []⟩, ⟨1, 1, .w1c, []⟩, ⟨0, 0, .w1c, []⟩]⟩,
  ⟨"RX_RING_BASE_LO", 0x41400, [(64, 16)], 0x0, 7, false,
    [⟨31, 5, .rw, []⟩]⟩,
  ⟨"RX_RING_BASE_HI", 0x41404, [(64, 16)], 0x0, 7, false,
    [⟨31, 0, .rw, []⟩]⟩,
  ⟨"RX_RING_CFG", 0x41408, [(64, 16)], 0x4, 7, false,
    [⟨31, 30, .rwl, [(0, 0)]⟩, ⟨26, 24, .rw, []⟩, ⟨19, 19, .rw, []⟩, ⟨18, 18, .rw, []⟩, ⟨17, 17, .rw, []⟩, ⟨4, 0, .rw, [(4, 16)]⟩]⟩,
  ⟨"RX_RING_CTL", 0x4140c, [(64, 16)], 0x0, 7, false,
    [⟨1, 1, .wo, []⟩, ⟨0, 0, .rw, []⟩]⟩,
  ⟨"RX_RING_TAIL", 0x41410, [(64, 16)], 0x0, 7, false,
    [⟨15, 0, .rw, []⟩]⟩,
  ⟨"RX_RING_HEAD", 0x41414, [(64, 16)], 0x0, 7, false,
    [⟨15, 0, .ro, []⟩]⟩]

/-- Registers of the DMA engine (strand offsets), from RX_RING_STATUS (R309). -/
def strandRows4p2 : List RegRow := [
  ⟨"RX_RING_STATUS", 0x41418, [(64, 16)], 0x0, 7, false,
    [⟨2, 0, .ro, []⟩]⟩,
  ⟨"RX_RING_FLAGS", 0x4141c, [(64, 16)], 0x0, 7, false,
    [⟨5, 5, .w1c, []⟩, ⟨4, 4, .w1c, []⟩, ⟨3, 3, .w1c, []⟩, ⟨2, 2, .w1c, []⟩, ⟨1, 1, .w1c, []⟩, ⟨0, 0, .w1c, []⟩]⟩,
  ⟨"RX_HOLD_NS", 0x41420, [(64, 16)], 0x186a0, 7, false,
    [⟨23, 0, .rw, []⟩]⟩,
  ⟨"CQ_BASE_LO", 0x41800, [(64, 8)], 0x0, 7, false,
    [⟨31, 4, .rw, []⟩]⟩,
  ⟨"CQ_BASE_HI", 0x41804, [(64, 8)], 0x0, 7, false,
    [⟨31, 0, .rw, []⟩]⟩,
  ⟨"CQ_CFG", 0x41808, [(64, 8)], 0x4, 7, false,
    [⟨19, 19, .rw, []⟩, ⟨18, 18, .rw, []⟩, ⟨17, 17, .rw, []⟩, ⟨8, 8, .rw, []⟩, ⟨4, 0, .rw, [(4, 16)]⟩]⟩,
  ⟨"CQ_CTL", 0x4180c, [(64, 8)], 0x0, 7, false,
    [⟨0, 0, .rw, []⟩]⟩,
  ⟨"CQ_HEAD", 0x41810, [(64, 8)], 0x0, 7, false,
    [⟨16, 16, .rw, []⟩, ⟨15, 0, .rw, []⟩]⟩,
  ⟨"CQ_TAIL", 0x41814, [(64, 8)], 0x0, 7, false,
    [⟨16, 16, .ro, []⟩, ⟨15, 0, .ro, []⟩]⟩]

/-- Registers of the DMA engine (strand offsets). -/
def strandRows4 : List RegRow := strandRows4p0 ++ strandRows4p1 ++ strandRows4p2

/-- Registers of the time base (strand offsets), from TIME_CTL (R188). -/
def strandRows5p0 : List RegRow := [
  ⟨"TIME_CTL", 0x50000, [], 0x19000000, 7, false,
    [⟨31, 22, .rwl, [(1, 1000)]⟩, ⟨10, 10, .rw, []⟩, ⟨9, 8, .rwl, [(0, 2)]⟩, ⟨7, 7, .rwl, []⟩, ⟨6, 6, .rwl, []⟩, ⟨5, 5, .rw, []⟩, ⟨4, 4, .rw, []⟩, ⟨3, 3, .rw, []⟩, ⟨2, 2, .rw, []⟩, ⟨1, 1, .rw, []⟩, ⟨0, 0, .rw, []⟩]⟩,
  ⟨"TIME_CMD", 0x50004, [], 0x0, 7, false,
    [⟨2, 2, .wo, []⟩, ⟨1, 1, .wo, []⟩, ⟨0, 0, .wo, []⟩]⟩,
  ⟨"TIME_STATUS", 0x50008, [], 0x8, 7, false,
    [⟨31, 24, .ro, []⟩, ⟨9, 8, .ro, []⟩, ⟨7, 6, .ro, []⟩, ⟨5, 5, .ro, []⟩, ⟨4, 4, .ro, []⟩, ⟨3, 3, .ro, []⟩, ⟨2, 2, .ro, []⟩]⟩,
  ⟨"TIME_FLAGS", 0x5000c, [], 0x0, 7, false,
    [⟨5, 5, .w1c, []⟩, ⟨4, 4, .w1c, []⟩, ⟨3, 3, .w1c, []⟩, ⟨2, 2, .w1c, []⟩, ⟨1, 1, .w1c, []⟩, ⟨0, 0, .w1c, []⟩]⟩,
  ⟨"TIME_RATE", 0x50010, [], 0x0, 7, false,
    [⟨31, 0, .rw, []⟩]⟩,
  ⟨"TIME_RATE_INIT", 0x50014, [], 0x0, 7, false,
    [⟨31, 0, .rwl, []⟩]⟩,
  ⟨"TIME_NOW_NS", 0x50018, [], 0x0, 7, false,
    [⟨29, 0, .ro, []⟩]⟩,
  ⟨"TIME_NOW_S", 0x5001c, [], 0x0, 7, false,
    [⟨31, 0, .ro, []⟩]⟩,
  ⟨"TIME_NOW_SH", 0x50020, [], 0x0, 7, false,
    [⟨31, 16, .ro, []⟩, ⟨15, 0, .ro, []⟩]⟩,
  ⟨"STEP_NS", 0x50024, [], 0x0, 7, false,
    [⟨29, 0, .rw, []⟩]⟩,
  ⟨"STEP_S", 0x50028, [], 0x0, 7, false,
    [⟨31, 0, .rw, []⟩]⟩,
  ⟨"STEP_SH", 0x5002c, [], 0x0, 7, false,
    [⟨31, 31, .rw, []⟩, ⟨15, 0, .rw, []⟩]⟩]

/-- Registers of the time base (strand offsets), from STEP_FRAC (R189). -/
def strandRows5p1 : List RegRow := [
  ⟨"STEP_FRAC", 0x50030, [], 0x0, 7, false,
    [⟨15, 0, .rw, []⟩]⟩,
  ⟨"PPS_IN_CORR", 0x50044, [], 0x0, 7, false,
    [⟨31, 0, .rw, []⟩]⟩,
  ⟨"PPS_SEC_S", 0x50048, [], 0x0, 7, false,
    [⟨31, 0, .rw, []⟩]⟩,
  ⟨"PPS_SEC_SH", 0x5004c, [], 0x0, 7, false,
    [⟨31, 31, .rw, []⟩, ⟨15, 0, .rw, []⟩]⟩,
  ⟨"PPS_IN_TS_NS", 0x50050, [], 0x0, 7, false,
    [⟨29, 0, .ro, []⟩]⟩,
  ⟨"PPS_IN_TS_S", 0x50054, [], 0x0, 7, false,
    [⟨31, 0, .ro, []⟩]⟩,
  ⟨"PPS_IN_TS_SH", 0x50058, [], 0x0, 7, false,
    [⟨31, 16, .ro, []⟩, ⟨15, 0, .ro, []⟩]⟩,
  ⟨"PPS_ERR", 0x5005c, [], 0x0, 7, false,
    [⟨31, 0, .ro, []⟩]⟩,
  ⟨"PPS_OUT_OFS", 0x50060, [], 0x0, 7, false,
    [⟨29, 0, .rw, [(0, 999999999)]⟩]⟩,
  ⟨"PPS_OUT_W", 0x50064, [], 0x5f5e100, 7, false,
    [⟨29, 0, .rw, [(8, 999000000)]⟩]⟩]

/-- Registers of the time base (strand offsets). -/
def strandRows5 : List RegRow := strandRows5p0 ++ strandRows5p1

/-- Registers of the Bangle (strand offsets), from BNG_CTL (R212). -/
def strandRows6p0 : List RegRow := [
  ⟨"BNG_CTL", 0x60000, [], 0x0, 7, false,
    [⟨15, 8, .rw, []⟩, ⟨4, 4, .rw, []⟩, ⟨3, 3, .rw, []⟩, ⟨1, 1, .rw, []⟩, ⟨0, 0, .rw, []⟩]⟩,
  ⟨"BNG_CMD", 0x60004, [], 0x0, 7, false,
    [⟨7, 4, .wo, []⟩, ⟨0, 0, .wo, []⟩]⟩,
  ⟨"BNG_STATUS", 0x60008, [], 0x0, 7, false,
    [⟨31, 31, .ro, []⟩, ⟨1, 0, .ro, []⟩, ⟨3, 2, .ro, []⟩, ⟨5, 4, .ro, []⟩, ⟨7, 6, .ro, []⟩]⟩,
  ⟨"BNG_FLAGS", 0x6000c, [], 0x0, 7, false,
    [⟨5, 5, .w1c, []⟩, ⟨4, 4, .w1c, []⟩, ⟨3, 3, .w1c, []⟩, ⟨2, 2, .w1c, []⟩, ⟨1, 1, .w1c, []⟩, ⟨0, 0, .w1c, []⟩]⟩,
  ⟨"TRK_CFG", 0x60100, [(256, 4)], 0x300, 7, false,
    [⟨31, 31, .rwl, []⟩, ⟨30, 30, .rwl, []⟩, ⟨29, 29, .rwl, []⟩, ⟨27, 24, .rwl, []⟩, ⟨18, 16, .rwl, []⟩, ⟨15, 8, .rwl, [(1, 255)]⟩]⟩,
  ⟨"TRK_STATUS", 0x60120, [(256, 4)], 0x0, 7, false,
    [⟨23, 16, .ro, []⟩, ⟨11, 11, .ro, []⟩, ⟨10, 8, .ro, []⟩, ⟨6, 4, .ro, []⟩, ⟨3, 2, .ro, []⟩, ⟨1, 0, .ro, []⟩]⟩,
  ⟨"EVT_k_W0", 0x61000, [(16, 256)], 0x0, 7, false,
    [⟨31, 0, .rw, []⟩]⟩,
  ⟨"EVT_k_W1", 0x61004, [(16, 256)], 0x0, 7, false,
    [⟨23, 0, .rw, []⟩]⟩,
  ⟨"EVT_k_W2", 0x61008, [(16, 256)], 0x0, 7, false,
    [⟨31, 28, .rw, []⟩, ⟨27, 16, .rw, []⟩, ⟨14, 14, .rw, []⟩, ⟨13, 12, .rw, []⟩, ⟨11, 10, .rw, []⟩, ⟨9, 0, .rw, []⟩]⟩,
  ⟨"EVT_k_W3", 0x6100c, [(16, 256)], 0x0, 7, false,
    [⟨31, 31, .rw, []⟩, ⟨30, 29, .rw, []⟩]⟩,
  ⟨"EVT_STAT_k", 0x62000, [(8, 256)], 0x0, 7, false,
    [⟨31, 30, .ro, []⟩, ⟨29, 29, .ro, []⟩, ⟨28, 28, .ro, []⟩, ⟨25, 16, .ro, []⟩]⟩,
  ⟨"EVT_TF_k", 0x62004, [(8, 256)], 0x0, 7, false,
    [⟨29, 0, .ro, []⟩]⟩]

/-- Registers of the Bangle (strand offsets), from BNG_PINMASK (R213). -/
def strandRows6p1 : List RegRow := [
  ⟨"BNG_PINMASK", 0x60010, [], 0x0, 7, false,
    [⟨23, 0, .rwl, []⟩]⟩,
  ⟨"BNG_PINLVL", 0x60014, [], 0x0, 7, false,
    [⟨23, 0, .ro, []⟩]⟩,
  ⟨"BNG_EIRQ", 0x60018, [], 0x0, 7, false,
    [⟨7, 0, .w1c, []⟩]⟩,
  ⟨"TRK_ANG_OFS", 0x60104, [(256, 4)], 0x0, 7, false,
    [⟨31, 0, .rwl, []⟩]⟩,
  ⟨"TRK_STEP_AU", 0x60108, [(256, 4)], 0x1, 7, false,
    [⟨31, 0, .rwl, [(1, 4294967295)]⟩]⟩,
  ⟨"TRK_NOM_RATE", 0x6010c, [(256, 4)], 0x0, 7, false,
    [⟨31, 0, .rwl, []⟩]⟩,
  ⟨"TRK_RATE_MIN", 0x60110, [(256, 4)], 0x0, 7, false,
    [⟨31, 0, .rwl, []⟩]⟩,
  ⟨"TRK_RATE_MAX", 0x60114, [(256, 4)], 0x7fffffff, 7, false,
    [⟨31, 0, .rwl, []⟩]⟩,
  ⟨"TRK_TIMEOUT", 0x60118, [(256, 4)], 0x3e8, 7, false,
    [⟨15, 0, .rwl, [(1, 65535)]⟩]⟩,
  ⟨"TRK_MAXAGE", 0x6011c, [(256, 4)], 0x3e8, 7, false,
    [⟨23, 0, .rwl, [(1, 16777215)]⟩]⟩,
  ⟨"TRK_ANGLE", 0x60124, [(256, 4)], 0x0, 7, false,
    [⟨31, 0, .ro, []⟩]⟩,
  ⟨"TRK_RATE_LO", 0x60128, [(256, 4)], 0x0, 7, false,
    [⟨31, 0, .ro, []⟩]⟩]

/-- Registers of the Bangle (strand offsets), from TRK_RATE_HI (R214). -/
def strandRows6p2 : List RegRow := [
  ⟨"TRK_RATE_HI", 0x6012c, [(256, 4)], 0x0, 7, false,
    [⟨31, 0, .ro, []⟩]⟩,
  ⟨"TRK_TURNS", 0x60130, [(256, 4)], 0x0, 7, false,
    [⟨31, 0, .ro, []⟩]⟩,
  ⟨"TRK_LAST_E", 0x60134, [(256, 4)], 0x0, 7, false,
    [⟨31, 0, .ro, []⟩]⟩,
  ⟨"TRK_TREF_NS", 0x60138, [(256, 4)], 0x0, 7, false,
    [⟨29, 0, .ro, []⟩]⟩,
  ⟨"TRK_TREF_S", 0x6013c, [(256, 4)], 0x0, 7, false,
    [⟨31, 0, .ro, []⟩]⟩,
  ⟨"TRK_OBS_NS", 0x60140, [(256, 4)], 0x0, 2, false,
    [⟨31, 0, .wo, []⟩]⟩,
  ⟨"TRK_OBS_S", 0x60144, [(256, 4)], 0x0, 2, false,
    [⟨31, 0, .wo, []⟩]⟩,
  ⟨"TRK_OBS_VAL", 0x60148, [(256, 4)], 0x0, 2, false,
    [⟨31, 0, .wo, []⟩]⟩,
  ⟨"GAIN_RATE_j", 0x60180, [(256, 4), (16, 8)], 0x0, 7, false,
    [⟨31, 0, .rwl, []⟩]⟩,
  ⟨"GAIN_K_j", 0x60184, [(256, 4), (16, 8)], 0x0, 7, false,
    [⟨31, 16, .rwl, []⟩, ⟨15, 0, .rwl, []⟩]⟩,
  ⟨"GAIN_PLAUS_j", 0x60188, [(256, 4), (16, 8)], 0x0, 7, false,
    [⟨31, 0, .rwl, []⟩]⟩]

/-- Registers of the Bangle (strand offsets). -/
def strandRows6 : List RegRow := strandRows6p0 ++ strandRows6p1 ++ strandRows6p2

/-- Registers of the Filigree and Bezel (strand offsets), from FLG_CTL (R238). -/
def strandRows7p0 : List RegRow := [
  ⟨"FLG_CTL", 0x70000, [], 0x0, 7, false,
    [⟨31, 30, .rwl, [(0, 2)]⟩, ⟨29, 29, .rwl, []⟩, ⟨25, 20, .rwl, []⟩, ⟨19, 16, .rwl, []⟩, ⟨15, 14, .rwl, []⟩, ⟨13, 12, .rwl, []⟩, ⟨11, 11, .rwl, []⟩, ⟨10, 8, .rwl, []⟩, ⟨4, 4, .rw, []⟩, ⟨3, 3, .rw, []⟩, ⟨2, 2, .rw, []⟩, ⟨1, 1, .rw, []⟩, ⟨0, 0, .rw, []⟩]⟩,
  ⟨"FLG_CMD", 0x70004, [], 0x0, 7, false,
    [⟨7, 4, .wo, []⟩, ⟨2, 2, .wo, []⟩, ⟨1, 1, .wo, []⟩, ⟨0, 0, .wo, []⟩]⟩,
  ⟨"FLG_STATUS", 0x70008, [], 0x0, 7, false,
    [⟨29, 24, .ro, []⟩, ⟨6, 4, .ro, []⟩, ⟨2, 0, .ro, []⟩]⟩,
  ⟨"FLG_FLAGS", 0x7000c, [], 0x0, 7, false,
    [⟨7, 7, .w1c, []⟩, ⟨6, 6, .w1c, []⟩, ⟨5, 5, .w1c, []⟩, ⟨4, 4, .w1c, []⟩, ⟨3, 3, .w1c, []⟩, ⟨2, 2, .w1c, []⟩, ⟨1, 1, .w1c, []⟩, ⟨0, 0, .w1c, []⟩]⟩,
  ⟨"WIN_k_W0", 0x71000, [(16, 128)], 0x0, 7, false,
    [⟨23, 0, .rwl, []⟩]⟩,
  ⟨"WIN_k_W1", 0x71004, [(16, 128)], 0x0, 7, false,
    [⟨31, 29, .rwl, []⟩, ⟨23, 0, .rwl, []⟩]⟩,
  ⟨"WIN_k_W2", 0x71008, [(16, 128)], 0x0, 7, false,
    [⟨31, 30, .rwl, []⟩, ⟨29, 24, .rwl, []⟩, ⟨22, 20, .rwl, [(0, 6)]⟩, ⟨19, 14, .rwl, []⟩, ⟨13, 10, .rwl, []⟩, ⟨9, 9, .rwl, []⟩, ⟨8, 8, .rwl, []⟩, ⟨7, 4, .rwl, []⟩, ⟨3, 2, .rwl, []⟩]⟩,
  ⟨"WIN_k_W3", 0x7100c, [(16, 128)], 0x0, 7, false,
    [⟨31, 31, .rwl, []⟩, ⟨23, 0, .rwl, []⟩]⟩,
  ⟨"FLG_MATRIX", 0x70010, [], 0xf4240, 7, false,
    [⟨26, 24, .rwl, [(0, 6)]⟩, ⟨23, 0, .rwl, [(62500, 10000000)]⟩]⟩,
  ⟨"FLG_MARGIN", 0x70014, [], 0x3e8, 7, false,
    [⟨15, 0, .rwl, [(1, 32767)]⟩]⟩,
  ⟨"FLG_GUARD", 0x70018, [], 0x7d0, 7, false,
    [⟨15, 0, .rwl, []⟩]⟩,
  ⟨"FLG_ALIGN", 0x7001c, [], 0x304001f4, 7, false,
    [⟨31, 28, .rwl, [(1, 15)]⟩, ⟨27, 20, .rwl, [(1, 255)]⟩, ⟨15, 0, .rwl, [(1, 65535)]⟩]⟩]

/-- Registers of the Filigree and Bezel (strand offsets), from FLG_SLEW (R239). -/
def strandRows7p1 : List RegRow := [
  ⟨"FLG_SLEW", 0x70020, [], 0x640032, 7, false,
    [⟨31, 16, .rwl, [(1, 65535)]⟩, ⟨15, 0, .rwl, [(1, 65535)]⟩]⟩,
  ⟨"FLG_DA_LO", 0x70024, [], 0x0, 7, false,
    [⟨31, 0, .rwl, []⟩]⟩,
  ⟨"FLG_DA_HI", 0x70028, [], 0x0, 7, false,
    [⟨15, 0, .rwl, []⟩]⟩,
  ⟨"FLG_SA_LO", 0x7002c, [], 0x0, 7, false,
    [⟨31, 0, .rwl, []⟩]⟩,
  ⟨"FLG_SA_HI", 0x70030, [], 0x0, 7, false,
    [⟨15, 0, .rwl, []⟩]⟩,
  ⟨"FLG_FWD_SLACK", 0x70034, [], 0x0, 7, false,
    [⟨15, 0, .rwl, []⟩]⟩,
  ⟨"CT_OFS_NS", 0x70040, [], 0x0, 7, false,
    [⟨29, 0, .ro, []⟩]⟩,
  ⟨"CT_OFS_S", 0x70044, [], 0x0, 7, false,
    [⟨31, 0, .ro, []⟩]⟩,
  ⟨"CT_OFS_SH", 0x70048, [], 0x0, 7, false,
    [⟨31, 16, .ro, []⟩, ⟨15, 0, .ro, []⟩]⟩,
  ⟨"CT_RATE", 0x7004c, [], 0x0, 7, false,
    [⟨31, 0, .ro, []⟩]⟩,
  ⟨"ALIGN_E", 0x70050, [], 0x0, 7, false,
    [⟨31, 0, .ro, []⟩]⟩,
  ⟨"CT_NOW_NS", 0x70054, [], 0x0, 7, false,
    [⟨29, 0, .ro, []⟩]⟩]

/-- Registers of the Filigree and Bezel (strand offsets), from CT_NOW_S (R239). -/
def strandRows7p2 : List RegRow := [
  ⟨"CT_NOW_S", 0x70058, [], 0x0, 7, false,
    [⟨31, 0, .ro, []⟩]⟩,
  ⟨"CT_NOW_SH", 0x7005c, [], 0x0, 7, false,
    [⟨31, 16, .ro, []⟩, ⟨15, 0, .ro, []⟩]⟩,
  ⟨"BZ_CFG", 0x70060, [], 0x40800, 7, false,
    [⟨25, 24, .rwl, []⟩, ⟨23, 16, .rwl, [(1, 255)]⟩, ⟨15, 8, .rwl, [(1, 255)]⟩]⟩,
  ⟨"BZ_DEV_WARN", 0x70064, [], 0x1f4, 7, false,
    [⟨15, 0, .rwl, []⟩]⟩,
  ⟨"BZ_NODE_PORT_k", 0x70068, [(4, 4)], 0x0, 7, false,
    [⟨1, 0, .rwl, []⟩, ⟨3, 2, .rwl, []⟩, ⟨5, 4, .rwl, []⟩, ⟨7, 6, .rwl, []⟩, ⟨9, 8, .rwl, []⟩, ⟨11, 10, .rwl, []⟩, ⟨13, 12, .rwl, []⟩, ⟨15, 14, .rwl, []⟩, ⟨17, 16, .rwl, []⟩, ⟨19, 18, .rwl, []⟩, ⟨21, 20, .rwl, []⟩, ⟨23, 22, .rwl, []⟩, ⟨25, 24, .rwl, []⟩, ⟨27, 26, .rwl, []⟩, ⟨29, 28, .rwl, []⟩, ⟨31, 30, .rwl, []⟩]⟩,
  ⟨"LINK_DELAY", 0x70100, [(32, 4)], 0x0, 7, false,
    [⟨31, 0, .ro, []⟩]⟩,
  ⟨"PORT_STAT", 0x70104, [(32, 4)], 0x0, 7, false,
    [⟨31, 31, .ro, []⟩, ⟨30, 30, .ro, []⟩, ⟨23, 16, .ro, []⟩, ⟨7, 0, .ro, []⟩]⟩,
  ⟨"LAST_VIOL", 0x70108, [(32, 4)], 0x0, 7, false,
    [⟨21, 16, .ro, []⟩, ⟨3, 0, .ro, []⟩]⟩,
  ⟨"DEV_LAST", 0x72000, [(16, 64)], 0x0, 7, false,
    [⟨31, 0, .ro, []⟩]⟩,
  ⟨"DEV_MIN", 0x72004, [(16, 64)], 0x0, 7, false,
    [⟨31, 0, .ro, []⟩]⟩,
  ⟨"DEV_MAX", 0x72008, [(16, 64)], 0x0, 7, false,
    [⟨31, 0, .ro, []⟩]⟩,
  ⟨"DEV_STAT", 0x7200c, [(16, 64)], 0x0, 7, false,
    [⟨31, 31, .ro, []⟩, ⟨15, 0, .ro, []⟩]⟩]

/-- Registers of the Filigree and Bezel (strand offsets). -/
def strandRows7 : List RegRow := strandRows7p0 ++ strandRows7p1 ++ strandRows7p2

/-- Registers of the mapper (strand offsets), from MAP_CTL (R278). -/
def strandRows8p0 : List RegRow := [
  ⟨"MAP_CTL", 0x80000, [], 0x0, 7, false,
    [⟨31, 30, .rwl, []⟩, ⟨29, 27, .rwl, []⟩, ⟨26, 24, .rwl, [(0, 6)]⟩, ⟨23, 23, .rwl, []⟩, ⟨22, 20, .rwl, []⟩, ⟨19, 19, .rwl, []⟩, ⟨3, 3, .rw, []⟩, ⟨2, 2, .rw, []⟩, ⟨1, 1, .rw, []⟩, ⟨0, 0, .rw, []⟩]⟩,
  ⟨"MAP_CMD", 0x80004, [], 0x0, 7, false,
    [⟨1, 1, .wo, []⟩, ⟨0, 0, .wo, []⟩]⟩,
  ⟨"MAP_STATUS", 0x80008, [], 0x0, 7, false,
    [⟨31, 16, .ro, []⟩, ⟨3, 3, .ro, []⟩, ⟨2, 2, .ro, []⟩, ⟨1, 1, .ro, []⟩, ⟨0, 0, .ro, []⟩]⟩,
  ⟨"MAP_FLAGS", 0x8000c, [], 0x0, 7, false,
    [⟨4, 4, .w1c, []⟩, ⟨3, 3, .w1c, []⟩, ⟨2, 2, .w1c, []⟩, ⟨1, 1, .w1c, []⟩, ⟨0, 0, .w1c, []⟩]⟩,
  ⟨"MAP_TBL", 0x80010, [], 0x0, 7, false,
    [⟨5, 0, .rwl, [(0, 47)]⟩]⟩,
  ⟨"MAP_NDESC", 0x80014, [], 0x0, 7, false,
    [⟨18, 0, .rwl, [(0, 262144)]⟩]⟩,
  ⟨"MAP_NOUT", 0x80018, [], 0x0, 7, false,
    [⟨18, 0, .rwl, []⟩]⟩,
  ⟨"MAP_IMG", 0x8001c, [], 0x0, 7, false,
    [⟨21, 16, .rwl, []⟩, ⟨13, 8, .rwl, []⟩, ⟨3, 0, .rwl, [(1, 8)]⟩]⟩,
  ⟨"MAP_CTX", 0x80020, [], 0x0, 7, false,
    [⟨26, 16, .rwl, [(0, 1024)]⟩, ⟨5, 0, .rwl, []⟩]⟩,
  ⟨"MAP_FMT_ADDR", 0x80024, [], 0x0, 7, false,
    [⟨22, 3, .rwl, []⟩]⟩,
  ⟨"MAP_CURVE_ADDR", 0x80028, [], 0x0, 7, false,
    [⟨22, 3, .rwl, []⟩]⟩,
  ⟨"MAP_PERIOD", 0x8002c, [], 0x0, 7, false,
    [⟨29, 0, .rwl, []⟩]⟩]

/-- Registers of the mapper (strand offsets), from MAP_BASE_NS (R279). -/
def strandRows8p1 : List RegRow := [
  ⟨"MAP_BASE_NS", 0x80030, [], 0x0, 7, false,
    [⟨29, 0, .rwl, [(0, 999999999)]⟩]⟩,
  ⟨"MAP_BASE_S", 0x80034, [], 0x0, 7, false,
    [⟨31, 0, .rwl, []⟩]⟩,
  ⟨"MAP_BASE_SH", 0x80038, [], 0x0, 7, false,
    [⟨15, 0, .rwl, []⟩]⟩,
  ⟨"MAP_RUN_SEQ", 0x80040, [], 0x0, 7, false,
    [⟨31, 0, .ro, []⟩]⟩,
  ⟨"MAP_LAST_CYCLES", 0x80044, [], 0x0, 7, false,
    [⟨31, 0, .ro, []⟩]⟩,
  ⟨"MAP_MAX_CYCLES", 0x80048, [], 0x0, 7, false,
    [⟨31, 0, .ro, []⟩]⟩,
  ⟨"MAP_LAST_ERR", 0x8004c, [], 0x0, 7, false,
    [⟨31, 28, .ro, []⟩, ⟨18, 0, .ro, []⟩]⟩]

/-- Registers of the mapper (strand offsets). -/
def strandRows8 : List RegRow := strandRows8p0 ++ strandRows8p1

/-- Registers of the banks (strand offsets), from BANK_OWNER_k (R405). -/
def strandRows9 : List RegRow := [
  ⟨"BANK_OWNER_k", 0x90100, [(4, 48)], 0x6, 7, false,
    [⟨31, 30, .wo, []⟩, ⟨29, 27, .wo, []⟩, ⟨26, 25, .wo, []⟩, ⟨17, 16, .ro, []⟩, ⟨15, 15, .ro, []⟩, ⟨4, 3, .ro, []⟩, ⟨2, 0, .ro, []⟩]⟩,
  ⟨"BANK_STATE_k", 0x90200, [(4, 48)], 0x0, 7, false,
    [⟨5, 5, .ro, []⟩, ⟨4, 4, .ro, []⟩, ⟨3, 2, .ro, []⟩, ⟨1, 0, .rw, [(0, 2)]⟩]⟩,
  ⟨"BANK_FLAGS", 0x9000c, [], 0x0, 7, false,
    [⟨7, 7, .w1c, []⟩, ⟨6, 6, .w1c, []⟩, ⟨5, 5, .w1c, []⟩, ⟨4, 4, .w1c, []⟩, ⟨3, 3, .w1c, []⟩, ⟨2, 2, .w1c, []⟩, ⟨1, 1, .w1c, []⟩, ⟨0, 0, .w1c, []⟩]⟩,
  ⟨"BANK_CTL", 0x90000, [], 0x0, 7, false,
    [⟨31, 16, .rw, []⟩, ⟨2, 2, .rwl, []⟩, ⟨1, 1, .rw, []⟩, ⟨0, 0, .rw, []⟩]⟩,
  ⟨"BANK_CMD", 0x90004, [], 0x0, 7, false,
    [⟨0, 0, .wo, []⟩]⟩,
  ⟨"BANK_REMAP", 0x90010, [], 0x0, 7, false,
    [⟨31, 31, .ro, []⟩, ⟨29, 24, .ro, []⟩, ⟨15, 15, .ro, []⟩, ⟨13, 8, .ro, []⟩, ⟨5, 0, .ro, []⟩]⟩,
  ⟨"BANK_LAST_ERR", 0x90014, [], 0x0, 7, false,
    [⟨31, 28, .ro, []⟩, ⟨27, 24, .ro, []⟩, ⟨21, 16, .ro, []⟩, ⟨13, 0, .ro, []⟩]⟩]

/-- Registers of the core (strand offsets), from CORE_CTL (R384). -/
def strandRows10p0 : List RegRow := [
  ⟨"CORE_CTL", 0xa0000, [], 0x0, 7, false,
    [⟨31, 31, .rwl, []⟩, ⟨22, 2, .rwl, []⟩]⟩,
  ⟨"CORE_STATUS", 0xa0004, [], 0x0, 7, false,
    [⟨17, 17, .ro, []⟩, ⟨16, 16, .ro, []⟩, ⟨15, 12, .ro, []⟩, ⟨9, 9, .ro, []⟩, ⟨8, 8, .ro, []⟩, ⟨2, 0, .ro, []⟩]⟩,
  ⟨"CORE_FLAGS", 0xa0008, [], 0x0, 7, false,
    [⟨4, 4, .w1c, []⟩, ⟨3, 3, .w1c, []⟩, ⟨2, 2, .w1c, []⟩, ⟨1, 1, .w1c, []⟩, ⟨0, 0, .w1c, []⟩]⟩,
  ⟨"CORE_CMD", 0xa000c, [], 0x0, 7, false,
    [⟨3, 3, .wo, []⟩, ⟨2, 2, .wo, []⟩, ⟨1, 1, .wo, []⟩, ⟨0, 0, .wo, []⟩]⟩,
  ⟨"CORE_WDOG", 0xa0010, [], 0x0, 7, false,
    [⟨15, 0, .rwl, []⟩]⟩,
  ⟨"CORE_WDOG_KICK", 0xa0014, [], 0x0, 2, false,
    [⟨7, 0, .wo, []⟩]⟩,
  ⟨"CORE_IRQ_PEND", 0xa0018, [], 0x0, 7, false,
    [⟨31, 0, .ro, []⟩]⟩,
  ⟨"CORE_IRQ_EN", 0xa001c, [], 0x0, 7, false,
    [⟨31, 0, .rw, []⟩]⟩,
  ⟨"CORE_BRK0", 0xa0020, [], 0x0, 4, false,
    [⟨31, 2, .rw, []⟩, ⟨0, 0, .rw, []⟩]⟩,
  ⟨"CORE_BRK1", 0xa0024, [], 0x0, 4, false,
    [⟨31, 2, .rw, []⟩, ⟨0, 0, .rw, []⟩]⟩,
  ⟨"CORE_PC", 0xa0028, [], 0x0, 7, false,
    [⟨31, 0, .ro, []⟩]⟩,
  ⟨"CORE_LAST_TRAP", 0xa002c, [], 0x0, 7, false,
    [⟨3, 0, .ro, []⟩]⟩]

/-- Registers of the core (strand offsets), from CORE_LAST_TPC (R385). -/
def strandRows10p1 : List RegRow := [
  ⟨"CORE_LAST_TPC", 0xa0030, [], 0x0, 7, false,
    [⟨31, 0, .ro, []⟩]⟩,
  ⟨"DT_HDR_e", 0xa0800, [(4, 16)], 0x0, 7, false,
    [⟨31, 31, .rwl, []⟩, ⟨13, 8, .rwl, []⟩, ⟨2, 0, .rwl, []⟩]⟩,
  ⟨"DT_UOP_e_m", 0xa1000, [(64, 16), (8, 8)], 0x0, 7, false,
    [⟨31, 0, .rwl, []⟩]⟩,
  ⟨"DT_UCTL_e_m", 0xa1004, [(64, 16), (8, 8)], 0x0, 7, false,
    [⟨6, 4, .rwl, []⟩, ⟨3, 0, .rwl, []⟩]⟩]

/-- Registers of the core (strand offsets). -/
def strandRows10 : List RegRow := strandRows10p0 ++ strandRows10p1

/-- Registers of the pass-through path (strand offsets), from PT_CTL (R143). -/
def strandRows11 : List RegRow := [
  ⟨"PT_CTL", 0xb0000, [(256, 4)], 0x0, 7, false,
    [⟨25, 16, .rwl, []⟩, ⟨3, 3, .rwl, []⟩, ⟨2, 2, .rw, []⟩, ⟨1, 1, .rw, []⟩]⟩,
  ⟨"PT_STATUS", 0xb0004, [(256, 4)], 0x0, 7, false,
    [⟨23, 16, .ro, []⟩, ⟨15, 12, .ro, []⟩, ⟨9, 8, .ro, []⟩, ⟨4, 4, .ro, []⟩, ⟨3, 3, .ro, []⟩, ⟨2, 2, .ro, []⟩, ⟨1, 1, .ro, []⟩, ⟨0, 0, .ro, []⟩]⟩,
  ⟨"PT_FLAGS", 0xb0008, [(256, 4)], 0x0, 7, false,
    [⟨6, 6, .w1c, []⟩, ⟨5, 5, .w1c, []⟩, ⟨4, 4, .w1c, []⟩, ⟨3, 3, .w1c, []⟩, ⟨2, 2, .w1c, []⟩, ⟨1, 1, .w1c, []⟩, ⟨0, 0, .w1c, []⟩]⟩,
  ⟨"PT_CMD", 0xb000c, [(256, 4)], 0x0, 7, false,
    [⟨0, 0, .wo, []⟩]⟩]

/-- Registers of the Clasp (device offsets), from CLASP_ID (R335). -/
def deviceRowsp0 : List RegRow := [
  ⟨"CLASP_ID", 0x1000000, [], 0x4160100, 7, false,
    [⟨31, 16, .ro, []⟩, ⟨15, 8, .ro, []⟩, ⟨0, 0, .ro, []⟩]⟩,
  ⟨"CLASP_MODE", 0x1000004, [], 0x0, 7, false,
    [⟨27, 16, .ro, []⟩, ⟨7, 4, .ro, []⟩, ⟨3, 0, .ro, []⟩]⟩,
  ⟨"CLASP_CTL", 0x1000008, [], 0x0, 7, false,
    [⟨7, 0, .rw, []⟩]⟩,
  ⟨"CLASP_FLAGS", 0x100000c, [], 0x0, 7, false,
    [⟨15, 12, .w1c, []⟩, ⟨7, 7, .w1c, []⟩, ⟨6, 6, .w1c, []⟩, ⟨5, 5, .w1c, []⟩, ⟨4, 4, .w1c, []⟩, ⟨3, 3, .w1c, []⟩, ⟨2, 2, .w1c, []⟩, ⟨1, 1, .w1c, []⟩, ⟨0, 0, .w1c, []⟩]⟩,
  ⟨"CLASP_CMD", 0x1000010, [], 0x0, 7, false,
    [⟨0, 0, .wo, []⟩]⟩,
  ⟨"CLASP_IRQ_ARM_LO", 0x1000020, [], 0xffffffff, 7, false,
    [⟨31, 0, .w1s, []⟩]⟩,
  ⟨"CLASP_IRQ_ARM_HI", 0x1000024, [], 0xffffffff, 7, false,
    [⟨31, 0, .w1s, []⟩]⟩,
  ⟨"CLASP_SWIN", 0x1000030, [], 0x0, 7, false,
    [⟨3, 0, .rw, []⟩]⟩,
  ⟨"CLASP_IRQ_ROUTE", 0x1000034, [], 0x55555555, 7, false,
    [⟨1, 0, .rw, []⟩, ⟨3, 2, .rw, []⟩, ⟨5, 4, .rw, []⟩, ⟨7, 6, .rw, []⟩, ⟨9, 8, .rw, []⟩, ⟨11, 10, .rw, []⟩, ⟨13, 12, .rw, []⟩, ⟨15, 14, .rw, []⟩, ⟨17, 16, .rw, []⟩, ⟨19, 18, .rw, []⟩, ⟨21, 20, .rw, []⟩, ⟨23, 22, .rw, []⟩, ⟨25, 24, .rw, []⟩, ⟨27, 26, .rw, []⟩, ⟨29, 28, .rw, []⟩, ⟨31, 30, .rw, []⟩]⟩,
  ⟨"CLASP_BAR2_EN_LO_s", 0x1000040, [(8, 4)], 0x0, 7, false,
    [⟨31, 0, .rwl, []⟩]⟩,
  ⟨"CLASP_BAR2_EN_HI_s", 0x1000044, [(8, 4)], 0x0, 7, false,
    [⟨15, 0, .rwl, []⟩]⟩,
  ⟨"ACC_TBL_LO_s", 0x1000080, [(16, 4)], 0x0, 7, false,
    [⟨31, 6, .rw, []⟩]⟩]

/-- Registers of the Clasp (device offsets), from ACC_TBL_HI_s (R336). -/
def deviceRowsp1 : List RegRow := [
  ⟨"ACC_TBL_HI_s", 0x1000084, [(16, 4)], 0x0, 7, false,
    [⟨31, 0, .rw, []⟩]⟩,
  ⟨"ACC_TBL_CFG_s", 0x1000088, [(16, 4)], 0x0, 7, false,
    [⟨1, 1, .rw, []⟩, ⟨0, 0, .rw, []⟩]⟩,
  ⟨"MG_CFG", 0x1001000, [(64, 8)], 0x4, 7, false,
    [⟨31, 31, .rw, []⟩, ⟨30, 30, .rw, []⟩, ⟨29, 29, .rw, []⟩, ⟨28, 27, .rw, []⟩, ⟨26, 26, .rw, []⟩, ⟨25, 25, .rw, []⟩, ⟨24, 24, .rw, []⟩, ⟨23, 23, .rw, []⟩, ⟨22, 22, .rw, []⟩, ⟨18, 16, .rw, []⟩, ⟨15, 12, .rw, []⟩, ⟨11, 8, .rw, []⟩, ⟨4, 0, .rw, [(4, 16)]⟩]⟩,
  ⟨"MG_PCQ_BASE_LO", 0x1001004, [(64, 8)], 0x0, 7, false,
    [⟨31, 4, .rw, []⟩]⟩,
  ⟨"MG_PCQ_BASE_HI", 0x1001008, [(64, 8)], 0x0, 7, false,
    [⟨31, 0, .rw, []⟩]⟩,
  ⟨"MG_PCQ_HEAD", 0x100100c, [(64, 8)], 0x0, 7, false,
    [⟨16, 16, .rw, []⟩, ⟨15, 0, .rw, []⟩]⟩,
  ⟨"MG_PCQ_TAIL", 0x1001010, [(64, 8)], 0x0, 7, false,
    [⟨16, 16, .ro, []⟩, ⟨15, 0, .ro, []⟩]⟩,
  ⟨"MG_ACC_LO", 0x1001014, [(64, 8)], 0x0, 7, false,
    [⟨31, 2, .rw, []⟩]⟩,
  ⟨"MG_ACC_HI", 0x1001018, [(64, 8)], 0x0, 7, false,
    [⟨31, 0, .rw, []⟩]⟩,
  ⟨"MG_TAIL", 0x100101c, [(64, 8)], 0x0, 7, false,
    [⟨15, 0, .rw, []⟩]⟩,
  ⟨"MG_MARK", 0x1001020, [(64, 8)], 0x0, 7, false,
    [⟨31, 0, .ro, []⟩]⟩,
  ⟨"MG_ACCEPTED", 0x1001024, [(64, 8)], 0x0, 7, false,
    [⟨31, 0, .ro, []⟩]⟩]

/-- Registers of the Clasp (device offsets), from MG_ABORT (R337). -/
def deviceRowsp2 : List RegRow := [
  ⟨"MG_ABORT", 0x1001028, [(64, 8)], 0x0, 7, false,
    [⟨16, 16, .wo, []⟩, ⟨15, 0, .wo, []⟩]⟩,
  ⟨"MG_ABORT_RES", 0x100102c, [(64, 8)], 0x0, 7, false,
    [⟨31, 31, .ro, []⟩, ⟨17, 16, .ro, []⟩, ⟨15, 0, .ro, []⟩]⟩,
  ⟨"MG_STATUS", 0x1001030, [(64, 8)], 0x0, 7, false,
    [⟨7, 7, .w1c, []⟩, ⟨6, 6, .w1c, []⟩, ⟨5, 5, .ro, []⟩, ⟨4, 4, .ro, []⟩, ⟨3, 3, .ro, []⟩, ⟨2, 0, .ro, []⟩]⟩,
  ⟨"MG_DUP_AGE", 0x1001034, [(64, 8)], 0x190, 7, false,
    [⟨15, 0, .rw, [(1, 65535)]⟩]⟩,
  ⟨"REC_CMD", 0x1810000, [], 0x0, 7, false,
    [⟨4, 4, .wo, []⟩, ⟨1, 0, .wo, []⟩]⟩,
  ⟨"REC_OFFSET", 0x1810004, [], 0x0, 7, false,
    [⟨31, 0, .rw, []⟩]⟩,
  ⟨"REC_LEN", 0x1810008, [], 0x0, 7, false,
    [⟨16, 0, .rw, [(1, 65536)]⟩]⟩,
  ⟨"REC_STATUS", 0x181000c, [], 0x0, 7, false,
    [⟨31, 31, .ro, []⟩, ⟨30, 30, .ro, []⟩, ⟨29, 29, .ro, []⟩, ⟨7, 0, .ro, []⟩]⟩,
  ⟨"REC_NEXT", 0x1810010, [], 0x0, 7, false,
    [⟨31, 0, .ro, []⟩]⟩,
  ⟨"REC_TOTAL", 0x1810014, [], 0x0, 7, false,
    [⟨31, 0, .ro, []⟩]⟩,
  ⟨"LKT_SUMMARY_LO", 0x1404000, [], 0x0, 7, false,
    [⟨31, 0, .ro, []⟩]⟩,
  ⟨"LKT_SUMMARY_HI", 0x1404004, [], 0x0, 7, false,
    [⟨31, 0, .ro, []⟩]⟩]

/-- Registers of the Clasp (device offsets), from REQ_LEN (R452). -/
def deviceRowsp3 : List RegRow := [
  ⟨"REQ_LEN", 0x1420000, [], 0x0, 7, false,
    [⟨15, 0, .wo, []⟩]⟩,
  ⟨"REQ_STATUS", 0x1420004, [], 0x0, 7, false,
    [⟨31, 31, .ro, []⟩, ⟨30, 30, .ro, []⟩, ⟨29, 29, .w1c, []⟩]⟩]

/-- Registers of the Clasp (device offsets). -/
def deviceRows : List RegRow := deviceRowsp0 ++ deviceRowsp1 ++ deviceRowsp2 ++ deviceRowsp3

/-- Registers of a Locket channel page (page offsets), from LKT_CFG (R425). -/
def locketRows : List RegRow := [
  ⟨"LKT_CFG", 0x0, [], 0x0, 7, false,
    [⟨31, 31, .ro, []⟩, ⟨30, 30, .ro, []⟩, ⟨29, 29, .ro, []⟩, ⟨7, 4, .ro, []⟩, ⟨3, 0, .ro, []⟩]⟩,
  ⟨"LKT_STATUS", 0x4, [], 0x0, 7, false,
    [⟨31, 24, .ro, []⟩, ⟨23, 16, .ro, []⟩, ⟨10, 8, .ro, []⟩, ⟨6, 4, .ro, []⟩, ⟨2, 0, .ro, []⟩]⟩,
  ⟨"LKT_FLAGS", 0x8, [], 0x0, 7, false,
    [⟨7, 7, .w1c, []⟩, ⟨6, 6, .w1c, []⟩, ⟨5, 5, .w1c, []⟩, ⟨4, 4, .w1c, []⟩, ⟨3, 3, .w1c, []⟩, ⟨2, 2, .w1c, []⟩, ⟨1, 1, .w1c, []⟩, ⟨0, 0, .w1c, []⟩]⟩,
  ⟨"LKT_CTL", 0xc, [], 0x0, 7, false,
    [⟨1, 1, .rw, []⟩, ⟨0, 0, .rw, []⟩]⟩,
  ⟨"TX_LO", 0x10, [], 0x0, 7, false,
    [⟨31, 0, .wo, []⟩]⟩,
  ⟨"TX_HI", 0x14, [], 0x0, 7, false,
    [⟨24, 24, .wo, []⟩, ⟨23, 16, .wo, []⟩, ⟨15, 0, .wo, []⟩]⟩,
  ⟨"TX_TIMEOUT", 0x18, [], 0x0, 7, false,
    [⟨19, 0, .rw, [(1, 1000000)]⟩]⟩,
  ⟨"RX_LO", 0x1c, [], 0x0, 7, false,
    [⟨31, 0, .ro, []⟩]⟩,
  ⟨"RX_HI", 0x20, [], 0x0, 7, false,
    [⟨31, 24, .ro, []⟩, ⟨23, 16, .ro, []⟩, ⟨15, 0, .ro, []⟩]⟩,
  ⟨"RX_STAT", 0x24, [], 0x0, 7, false,
    [⟨31, 31, .ro, []⟩, ⟨30, 30, .ro, []⟩, ⟨29, 29, .ro, []⟩, ⟨28, 28, .ro, []⟩]⟩,
  ⟨"RX_ACK", 0x28, [], 0x0, 7, false,
    [⟨0, 0, .wo, []⟩]⟩,
  ⟨"LKT_CMD", 0x2c, [], 0x0, 7, false,
    [⟨0, 0, .wo, []⟩]⟩]

/-- Registers of the Loupe (Loupe addresses), from LP_STATUS (R451). -/
def loupeRowsp0 : List RegRow := [
  ⟨"LP_STATUS", 0x50080000, [], 0x40000000, 7, false,
    [⟨31, 31, .ro, []⟩, ⟨30, 30, .ro, []⟩, ⟨29, 29, .ro, []⟩, ⟨23, 20, .ro, []⟩, ⟨11, 0, .ro, []⟩]⟩,
  ⟨"LP_FLAGS", 0x50080004, [], 0x0, 7, false,
    [⟨6, 6, .w1c, []⟩, ⟨5, 5, .w1c, []⟩, ⟨4, 4, .w1c, []⟩, ⟨3, 3, .w1c, []⟩, ⟨2, 2, .w1c, []⟩, ⟨1, 1, .w1c, []⟩, ⟨0, 0, .w1c, []⟩]⟩,
  ⟨"LP_CMD", 0x50080008, [], 0x0, 7, false,
    [⟨0, 0, .wo, []⟩]⟩,
  ⟨"UPD_STATUS", 0x71001000, [], 0x0, 7, false,
    [⟨31, 29, .ro, []⟩, ⟨28, 28, .ro, []⟩, ⟨27, 27, .ro, []⟩, ⟨26, 26, .ro, []⟩, ⟨25, 25, .ro, []⟩, ⟨24, 24, .ro, []⟩]⟩,
  ⟨"BOOT_STATUS", 0x71001004, [], 0x0, 7, false,
    [⟨31, 31, .ro, []⟩, ⟨30, 29, .ro, []⟩, ⟨28, 28, .ro, []⟩, ⟨27, 27, .ro, []⟩, ⟨26, 26, .ro, []⟩, ⟨25, 25, .ro, []⟩, ⟨24, 24, .ro, []⟩, ⟨15, 0, .ro, []⟩]⟩,
  ⟨"UPD_FLAGS", 0x71001008, [], 0x0, 7, false,
    [⟨4, 4, .w1c, []⟩, ⟨3, 3, .w1c, []⟩, ⟨2, 2, .w1c, []⟩, ⟨1, 1, .w1c, []⟩, ⟨0, 0, .w1c, []⟩]⟩,
  ⟨"HM_STATUS", 0x50010000, [], 0x0, 7, false,
    [⟨31, 31, .ro, []⟩, ⟨30, 30, .ro, []⟩, ⟨7, 0, .ro, []⟩]⟩,
  ⟨"HM_CMD", 0x50010004, [], 0x0, 7, false,
    [⟨0, 0, .wo, []⟩]⟩,
  ⟨"LC_STATE", 0x50010008, [], 0x0, 7, false,
    [⟨1, 0, .ro, []⟩]⟩,
  ⟨"LC_ADVANCE", 0x5001000c, [], 0x0, 7, false,
    [⟨15, 8, .wo, []⟩, ⟨1, 0, .wo, []⟩]⟩,
  ⟨"TAMPER_CAUSE", 0x50010010, [], 0x0, 7, false,
    [⟨3, 0, .w1c, []⟩]⟩,
  ⟨"LKT_BIND_c", 0x50044000, [(4, 64)], 0x0, 7, false,
    [⟨31, 31, .rwl, []⟩, ⟨30, 30, .rwl, []⟩, ⟨7, 4, .rwl, []⟩, ⟨3, 0, .rwl, []⟩]⟩]

/-- Registers of the Loupe (Loupe addresses), from LP_CFG (R452). -/
def loupeRowsp1 : List RegRow := [
  ⟨"LP_CFG", 0x50080010, [], 0x7d100000, 7, false,
    [⟨31, 24, .rwl, [(60, 150)]⟩, ⟨23, 22, .rwl, []⟩, ⟨21, 21, .rwl, []⟩, ⟨20, 20, .rwl, []⟩]⟩,
  ⟨"LP_LIFE_WARN", 0x50080014, [], 0xcccd, 7, false,
    [⟨16, 0, .rwl, []⟩]⟩,
  ⟨"LP_MGMT_MAC_LO", 0x50080018, [], 0x0, 7, false,
    [⟨31, 0, .rwl, []⟩]⟩,
  ⟨"LP_MGMT_MAC_HI", 0x5008001c, [], 0x0, 7, false,
    [⟨15, 0, .rwl, []⟩]⟩,
  ⟨"LP_TIME_NS", 0x50080020, [], 0x0, 7, false,
    [⟨29, 0, .ro, []⟩]⟩,
  ⟨"LP_TIME_S", 0x50080024, [], 0x0, 7, false,
    [⟨31, 0, .ro, []⟩]⟩,
  ⟨"LP_TIME_SH", 0x50080028, [], 0x0, 7, false,
    [⟨15, 0, .ro, []⟩]⟩,
  ⟨"LP_HOP", 0x50080030, [], 0x0, 7, false,
    [⟨31, 0, .ro, []⟩]⟩,
  ⟨"LP_PCYC", 0x50080034, [], 0x0, 7, false,
    [⟨31, 0, .ro, []⟩]⟩,
  ⟨"TEMP_j", 0x50080100, [(4, 12)], 0x0, 7, false,
    [⟨15, 0, .ro, []⟩]⟩,
  ⟨"VCORE_s", 0x50080140, [(8, 4)], 0x0, 7, false,
    [⟨11, 0, .ro, []⟩]⟩,
  ⟨"VSERDES_s", 0x50080144, [(8, 4)], 0x0, 7, false,
    [⟨11, 0, .ro, []⟩]⟩]

/-- Registers of the Loupe (Loupe addresses), from WEAR_DRIFT_s (R452). -/
def loupeRowsp2 : List RegRow := [
  ⟨"WEAR_DRIFT_s", 0x50080180, [(16, 4)], 0x0, 7, false,
    [⟨19, 0, .ro, []⟩]⟩,
  ⟨"WEAR_EQH_s", 0x50080184, [(16, 4)], 0x0, 7, false,
    [⟨31, 0, .ro, []⟩]⟩,
  ⟨"WEAR_U_s", 0x50080188, [(16, 4)], 0x0, 7, false,
    [⟨16, 0, .ro, []⟩]⟩,
  ⟨"WEAR_REMAIN_s", 0x5008018c, [(16, 4)], 0x40344, 7, false,
    [⟨31, 0, .ro, []⟩]⟩,
  ⟨"FLC_STATUS_f", 0x71000000, [(256, 2)], 0x0, 7, false,
    [⟨31, 31, .ro, []⟩, ⟨30, 30, .ro, []⟩, ⟨29, 29, .ro, []⟩, ⟨7, 0, .ro, []⟩]⟩,
  ⟨"UPD_CMD", 0x7100100c, [], 0x0, 7, false,
    [⟨0, 0, .wo, []⟩]⟩,
  ⟨"UPD_SESSION", 0x71001010, [], 0x0, 7, false,
    [⟨31, 0, .ro, []⟩]⟩,
  ⟨"UPD_TOTAL", 0x71001014, [], 0x0, 7, false,
    [⟨31, 0, .ro, []⟩]⟩,
  ⟨"UPD_STORED", 0x71001018, [], 0x0, 7, false,
    [⟨15, 0, .ro, []⟩]⟩,
  ⟨"UPD_GAP", 0x7100101c, [], 0x0, 7, false,
    [⟨15, 0, .ro, []⟩]⟩,
  ⟨"UPD_AT_NS", 0x71001020, [], 0x0, 7, false,
    [⟨29, 0, .ro, []⟩]⟩,
  ⟨"UPD_AT_S", 0x71001024, [], 0x0, 7, false,
    [⟨31, 0, .ro, []⟩]⟩]

/-- Registers of the Loupe (Loupe addresses), from UPD_AT_SH (R481). -/
def loupeRowsp3 : List RegRow := [
  ⟨"UPD_AT_SH", 0x71001028, [], 0x0, 7, false,
    [⟨15, 0, .ro, []⟩]⟩,
  ⟨"BOOT_GEN", 0x7100102c, [], 0x0, 7, false,
    [⟨31, 0, .ro, []⟩]⟩,
  ⟨"UPD_CFG", 0x71001030, [], 0x140384, 7, false,
    [⟨31, 31, .rwl, []⟩, ⟨23, 16, .rwl, [(1, 100)]⟩, ⟨15, 0, .rwl, [(60, 65535)]⟩]⟩,
  ⟨"UPD_PATHS", 0x71001034, [], 0x0, 7, false,
    [⟨29, 24, .rwl, []⟩, ⟨21, 16, .rwl, []⟩, ⟨13, 8, .rwl, []⟩, ⟨5, 0, .rwl, []⟩]⟩]

/-- Registers of the Loupe (Loupe addresses). -/
def loupeRows : List RegRow := loupeRowsp0 ++ loupeRowsp1 ++ loupeRowsp2 ++ loupeRowsp3

/-- The rows of the unit a strand offset lies in: a unit has 64 KiB of offsets (R8 and the unit chapters). -/
def strandRows (off : Nat) : List RegRow :=
  match off / 0x10000 with
  | 0 => strandRows0
  | 1 => strandRows1
  | 2 => strandRows2
  | 3 => strandRows3
  | 4 => strandRows4
  | 5 => strandRows5
  | 6 => strandRows6
  | 7 => strandRows7
  | 8 => strandRows8
  | 9 => strandRows9
  | 10 => strandRows10
  | 11 => strandRows11
  | _ => []

/-- Whether `rem` is the place of one copy of a register with the given strides and numbers. -/
def dimsHit : List (Nat × Nat) → Nat → Bool
  | [], rem => rem == 0
  | (stride, count) :: ds, rem => if rem / stride < count then dimsHit ds (rem % stride) else false

/-- The row that describes the register at an offset. -/
def findRow : List RegRow → Nat → Option RegRow
  | [], _ => none
  | r :: rs, off => if r.base ≤ off && dimsHit r.dims (off - r.base) then some r else findRow rs off

/-- The value after POR of the register at a strand offset; a reserved address reads as zero (R14). -/
def strandReset (off : Nat) : Word := BitVec.ofNat 32 (((findRow (strandRows off) off).map (·.reset)).getD 0)

/-- The value after POR of the register at a device offset. -/
def deviceReset (off : Nat) : Word := BitVec.ofNat 32 (((findRow deviceRows off).map (·.reset)).getD 0)

/-- The value after POR of the register at a Loupe address. -/
def loupeReset (a : Nat) : Word := BitVec.ofNat 32 (((findRow loupeRows a).map (·.reset)).getD 0)

/-- Whether a field accepts the value (R15). -/
def Fld.accepts (f : Fld) (v : Nat) : Bool := f.ok.isEmpty || f.ok.any fun p => p.1 ≤ v && v ≤ p.2

/-- What one field of a register holds after a write of `v` over `old` (R11, R13, R15); `kept` are the bits that hardware has set in
the cycle of the write, which a write of 1 does not clear (R12). -/
def Fld.write (f : Fld) (locked : Bool) (old v : Nat) (kept : Nat := 0) : Nat :=
  let n := bitsN v f.hi f.lo
  let o := bitsN old f.hi f.lo
  let k := bitsN kept f.hi f.lo
  match f.acc with
  | .rw => if f.accepts n then n else o
  | .rwl => if !locked && f.accepts n then n else o
  | .ro => o
  | .wo => o
  | .w1c => o &&& (2 ^ (f.hi + 1 - f.lo) - 1 - (n - (n &&& k)))
  | .w1s => o ||| n

/-- What a register holds after a write of `v` over `old`: each field by its access code; bits of no field stay 0 (R14). -/
def rowWrite (r : RegRow) (locked : Bool) (old v : Nat) (kept : Nat := 0) : Nat :=
  r.flds.foldl (fun acc f => putN acc f.hi f.lo (f.write locked old v kept)) old

end Sys2Proof.Machine
end

