-- ==== Sys2Proof/Machine/RegNames.lean ====
section
/-! DEFINITION. The place of every register by name, as its heading or table of the spec gives it: strand offset, device
offset, Loupe address or page offset.  An argument is the register's index in the order of its offset formula. -/

namespace Sys2Proof.Machine.Reg

/-- SUP_STATUS, strand offset (R47). -/
def SUP_STATUS : Nat := 0x0
/-- SUP_CTL, strand offset (R47). -/
def SUP_CTL : Nat := 0x4
/-- SUP_CAUSE, strand offset (R47). -/
def SUP_CAUSE : Nat := 0x8
/-- BEAD_CTL, strand offset (R83). -/
def BEAD_CTL (a : Nat) : Nat := 0x10000 + 0x1000 * a
/-- BEAD_CMD, strand offset (R83). -/
def BEAD_CMD (a : Nat) : Nat := 0x10004 + 0x1000 * a
/-- BEAD_STATUS, strand offset (R83). -/
def BEAD_STATUS (a : Nat) : Nat := 0x10008 + 0x1000 * a
/-- BEAD_FLAGS, strand offset (R83). -/
def BEAD_FLAGS (a : Nat) : Nat := 0x1000c + 0x1000 * a
/-- BEAD_EVT, strand offset (R83). -/
def BEAD_EVT (a : Nat) : Nat := 0x10010 + 0x1000 * a
/-- BEAD_DIV, strand offset (R83). -/
def BEAD_DIV (a : Nat) : Nat := 0x10014 + 0x1000 * a
/-- BEAD_PINCFG, strand offset (R83). -/
def BEAD_PINCFG (a : Nat) : Nat := 0x10018 + 0x1000 * a
/-- BEAD_QCFG, strand offset (R83). -/
def BEAD_QCFG (a : Nat) : Nat := 0x1001c + 0x1000 * a
/-- BEAD_QSTAT, strand offset (R83). -/
def BEAD_QSTAT (a : Nat) : Nat := 0x10020 + 0x1000 * a
/-- BEAD_CNT_x, strand offset (R84). -/
def BEAD_CNT (a : Nat) : Nat := 0x100a0 + 0x1000 * a
/-- BEAD_IMEM_i, strand offset (R85). -/
def BEAD_IMEM (a b : Nat) : Nat := 0x10100 + 0x1000 * a + 0x4 * b
/-- BP_PAD_p, strand offset (R85). -/
def BP_PAD (a : Nat) : Nat := 0x10800 + 0x4 * a
/-- BP_IN, strand offset (R85). -/
def BP_IN : Nat := 0x10880
/-- BP_VIO, strand offset (R85). -/
def BP_VIO : Nat := 0x10884
/-- BP_CLAIM, strand offset (R85). -/
def BP_CLAIM : Nat := 0x10888
/-- VL_OWN, strand offset (R85). -/
def VL_OWN : Nat := 0x1088c
/-- BP_OWN_k, strand offset (R85). -/
def BP_OWN (a : Nat) : Nat := 0x10890 + 0x4 * a
/-- MAC_CTL, strand offset (R127). -/
def MAC_CTL (a : Nat) : Nat := 0x20000 + 0x4000 * a
/-- MAC_STATUS, strand offset (R127). -/
def MAC_STATUS (a : Nat) : Nat := 0x20004 + 0x4000 * a
/-- MAC_FLAGS, strand offset (R127). -/
def MAC_FLAGS (a : Nat) : Nat := 0x20008 + 0x4000 * a
/-- MAC_CMD, strand offset (R127). -/
def MAC_CMD (a : Nat) : Nat := 0x2000c + 0x4000 * a
/-- MAC_MAXLEN, strand offset (R127). -/
def MAC_MAXLEN (a : Nat) : Nat := 0x20010 + 0x4000 * a
/-- MAC_TAGCFG, strand offset (R127). -/
def MAC_TAGCFG (a : Nat) : Nat := 0x20014 + 0x4000 * a
/-- MAC_TAGDEF, strand offset (R127). -/
def MAC_TAGDEF (a : Nat) : Nat := 0x20018 + 0x4000 * a
/-- MAC_PCPMAP, strand offset (R127). -/
def MAC_PCPMAP (a : Nat) : Nat := 0x2001c + 0x4000 * a
/-- MAC_PREEMPT, strand offset (R127). -/
def MAC_PREEMPT (a : Nat) : Nat := 0x20020 + 0x4000 * a
/-- MAC_TS_RXCORR, strand offset (R127). -/
def MAC_TS_RXCORR (a : Nat) : Nat := 0x20024 + 0x4000 * a
/-- MAC_TS_TXCORR, strand offset (R127). -/
def MAC_TS_TXCORR (a : Nat) : Nat := 0x20028 + 0x4000 * a
/-- MAC_MGMT, strand offset (R127). -/
def MAC_MGMT (a : Nat) : Nat := 0x2002c + 0x4000 * a
/-- MAC_FLT_k_W0, strand offset (R127). -/
def MAC_FLT_W0 (a b : Nat) : Nat := 0x20100 + 0x4000 * a + 0x10 * b
/-- MAC_FLT_k_W1, strand offset (R127). -/
def MAC_FLT_W1 (a b : Nat) : Nat := 0x20104 + 0x4000 * a + 0x10 * b
/-- MAC_FLT_k_W2, strand offset (R127). -/
def MAC_FLT_W2 (a b : Nat) : Nat := 0x20108 + 0x4000 * a + 0x10 * b
/-- MAC_FLT_k_W3, strand offset (R127). -/
def MAC_FLT_W3 (a b : Nat) : Nat := 0x2010c + 0x4000 * a + 0x10 * b
/-- MAC_CNT_x, strand offset (R127). -/
def MAC_CNT (a : Nat) : Nat := 0x20400 + 0x4000 * a
/-- MDIO_CFG, strand offset (R128). -/
def MDIO_CFG : Nat := 0x23000
/-- MDIO_CMD, strand offset (R128). -/
def MDIO_CMD : Nat := 0x23004
/-- MDIO_STAT, strand offset (R128). -/
def MDIO_STAT : Nat := 0x23008
/-- PT_CTL, strand offset (R143). -/
def PT_CTL (a : Nat) : Nat := 0xb0000 + 0x100 * a
/-- PT_STATUS, strand offset (R143). -/
def PT_STATUS (a : Nat) : Nat := 0xb0004 + 0x100 * a
/-- PT_FLAGS, strand offset (R143). -/
def PT_FLAGS (a : Nat) : Nat := 0xb0008 + 0x100 * a
/-- PT_CMD, strand offset (R143). -/
def PT_CMD (a : Nat) : Nat := 0xb000c + 0x100 * a
/-- PT_CNT_x, strand offset (R143). -/
def PT_CNT (a : Nat) : Nat := 0xb0040 + 0x100 * a
/-- SW_CTL, strand offset (R167). -/
def SW_CTL : Nat := 0x30000
/-- SW_STATUS, strand offset (R167). -/
def SW_STATUS : Nat := 0x30004
/-- SW_FLAGS, strand offset (R167). -/
def SW_FLAGS : Nat := 0x30008
/-- SW_CMD, strand offset (R167). -/
def SW_CMD : Nat := 0x3000c
/-- SW_MIRROR, strand offset (R167). -/
def SW_MIRROR : Nat := 0x30010
/-- SW_VCFG, strand offset (R167). -/
def SW_VCFG : Nat := 0x30014
/-- SW_GRP_MEM_g, strand offset (R167). -/
def SW_GRP_MEM (a : Nat) : Nat := 0x30020 + 0x8 * a
/-- SW_GRP_MAP_g, strand offset (R167). -/
def SW_GRP_MAP (a : Nat) : Nat := 0x30024 + 0x8 * a
/-- SW_FDB_CMD, strand offset (R167). -/
def SW_FDB_CMD : Nat := 0x30030
/-- SW_FDB_D0, strand offset (R167). -/
def SW_FDB_D0 : Nat := 0x30034
/-- SW_FDB_D1, strand offset (R167). -/
def SW_FDB_D1 : Nat := 0x30038
/-- SW_FDB_D2, strand offset (R167). -/
def SW_FDB_D2 : Nat := 0x3003c
/-- SW_IN_CFG_i, strand offset (R167). -/
def SW_IN_CFG (a : Nat) : Nat := 0x30100 + 0x10 * a
/-- SW_FC_i, strand offset (R167). -/
def SW_FC (a : Nat) : Nat := 0x30104 + 0x10 * a
/-- SW_FCQ_i, strand offset (R167). -/
def SW_FCQ (a : Nat) : Nat := 0x30108 + 0x10 * a
/-- SW_IN_STAT_i, strand offset (R167). -/
def SW_IN_STAT (a : Nat) : Nat := 0x3010c + 0x10 * a
/-- SW_QCFG_e_q, strand offset (R167). -/
def SW_QCFG (a b : Nat) : Nat := 0x30400 + 0x80 * a + 0x10 * b
/-- SW_CBS_e_q, strand offset (R167). -/
def SW_CBS (a b : Nat) : Nat := 0x30404 + 0x80 * a + 0x10 * b
/-- SW_CBSLIM_e_q, strand offset (R167). -/
def SW_CBSLIM (a b : Nat) : Nat := 0x30408 + 0x80 * a + 0x10 * b
/-- SW_QSTAT_e_q, strand offset (R167). -/
def SW_QSTAT (a b : Nat) : Nat := 0x3040c + 0x80 * a + 0x10 * b
/-- GCL_x_k, strand offset (R167). -/
def GCL (a b c : Nat) : Nat := 0x32000 + 0x1000 * a + 0x400 * b + 0x4 * c
/-- GCL_CTL, strand offset (R167). -/
def GCL_CTL (a : Nat) : Nat := 0x32800 + 0x1000 * a
/-- SW_QCNT_x, strand offset (R168). -/
def SW_QCNT (a b : Nat) : Nat := 0x38000 + 0x200 * a + 0x40 * b
/-- SW_UCNT_x, strand offset (R168). -/
def SW_UCNT : Nat := 0x3a000
/-- TIME_CTL, strand offset (R188). -/
def TIME_CTL : Nat := 0x50000
/-- TIME_CMD, strand offset (R188). -/
def TIME_CMD : Nat := 0x50004
/-- TIME_STATUS, strand offset (R188). -/
def TIME_STATUS : Nat := 0x50008
/-- TIME_FLAGS, strand offset (R188). -/
def TIME_FLAGS : Nat := 0x5000c
/-- TIME_CNT_x, strand offset (R189). -/
def TIME_CNT : Nat := 0x50100
/-- BNG_CTL, strand offset (R212). -/
def BNG_CTL : Nat := 0x60000
/-- BNG_CMD, strand offset (R212). -/
def BNG_CMD : Nat := 0x60004
/-- BNG_STATUS, strand offset (R212). -/
def BNG_STATUS : Nat := 0x60008
/-- BNG_FLAGS, strand offset (R212). -/
def BNG_FLAGS : Nat := 0x6000c
/-- TRK_CFG, strand offset (R213). -/
def TRK_CFG (a : Nat) : Nat := 0x60100 + 0x100 * a
/-- TRK_STATUS, strand offset (R213). -/
def TRK_STATUS (a : Nat) : Nat := 0x60120 + 0x100 * a
/-- EVT_k_W0, strand offset (R214). -/
def EVT_W0 (a : Nat) : Nat := 0x61000 + 0x10 * a
/-- EVT_k_W1, strand offset (R214). -/
def EVT_W1 (a : Nat) : Nat := 0x61004 + 0x10 * a
/-- EVT_k_W2, strand offset (R214). -/
def EVT_W2 (a : Nat) : Nat := 0x61008 + 0x10 * a
/-- EVT_k_W3, strand offset (R214). -/
def EVT_W3 (a : Nat) : Nat := 0x6100c + 0x10 * a
/-- EVT_STAT_k, strand offset (R214). -/
def EVT_STAT (a : Nat) : Nat := 0x62000 + 0x8 * a
/-- EVT_TF_k, strand offset (R214). -/
def EVT_TF (a : Nat) : Nat := 0x62004 + 0x8 * a
/-- BNG_CNT_x, strand offset (R214). -/
def BNG_CNT : Nat := 0x63000
/-- FLG_CTL, strand offset (R238). -/
def FLG_CTL : Nat := 0x70000
/-- FLG_CMD, strand offset (R238). -/
def FLG_CMD : Nat := 0x70004
/-- FLG_STATUS, strand offset (R238). -/
def FLG_STATUS : Nat := 0x70008
/-- FLG_FLAGS, strand offset (R238). -/
def FLG_FLAGS : Nat := 0x7000c
/-- WIN_k_W0, strand offset (R240). -/
def WIN_W0 (a : Nat) : Nat := 0x71000 + 0x10 * a
/-- WIN_k_W1, strand offset (R240). -/
def WIN_W1 (a : Nat) : Nat := 0x71004 + 0x10 * a
/-- WIN_k_W2, strand offset (R240). -/
def WIN_W2 (a : Nat) : Nat := 0x71008 + 0x10 * a
/-- WIN_k_W3, strand offset (R240). -/
def WIN_W3 (a : Nat) : Nat := 0x7100c + 0x10 * a
/-- FLG_CNT_x, strand offset (R241). -/
def FLG_CNT : Nat := 0x73000
/-- MAP_CTL, strand offset (R278). -/
def MAP_CTL : Nat := 0x80000
/-- MAP_CMD, strand offset (R278). -/
def MAP_CMD : Nat := 0x80004
/-- MAP_STATUS, strand offset (R278). -/
def MAP_STATUS : Nat := 0x80008
/-- MAP_FLAGS, strand offset (R278). -/
def MAP_FLAGS : Nat := 0x8000c
/-- MAP_CNT_x, strand offset (R279). -/
def MAP_CNT : Nat := 0x80100
/-- DMA_CTL, strand offset (R308). -/
def DMA_CTL : Nat := 0x40000
/-- DMA_CMD, strand offset (R308). -/
def DMA_CMD : Nat := 0x40004
/-- DMA_STATUS, strand offset (R308). -/
def DMA_STATUS : Nat := 0x40008
/-- DMA_FLAGS, strand offset (R308). -/
def DMA_FLAGS : Nat := 0x4000c
/-- DMA_RXMAP_H, strand offset (R308). -/
def DMA_RXMAP_H : Nat := 0x40010
/-- DMA_RXMAP_C, strand offset (R308). -/
def DMA_RXMAP_C : Nat := 0x40014
/-- DMA_ABORT, strand offset (R308). -/
def DMA_ABORT : Nat := 0x40020
/-- DMA_ABORT_RES, strand offset (R308). -/
def DMA_ABORT_RES : Nat := 0x40024
/-- DMA_CQ_POST_Q, strand offset (R308). -/
def DMA_CQ_POST_Q : Nat := 0x40028
/-- DMA_CQ_POST, strand offset (R308). -/
def DMA_CQ_POST : Nat := 0x4002c
/-- DMA_CNT_x, strand offset (R310). -/
def DMA_CNT : Nat := 0x42000
/-- CLASP_ID, device offset (R335). -/
def CLASP_ID : Nat := 0x1000000
/-- CLASP_MODE, device offset (R335). -/
def CLASP_MODE : Nat := 0x1000004
/-- CLASP_CTL, device offset (R335). -/
def CLASP_CTL : Nat := 0x1000008
/-- CLASP_FLAGS, device offset (R335). -/
def CLASP_FLAGS : Nat := 0x100000c
/-- CLASP_CNT_x, device offset (R338). -/
def CLASP_CNT : Nat := 0x1002000
/-- LEDGER_FLAGS, strand offset (R358). -/
def LEDGER_FLAGS : Nat := 0x10
/-- LEDGER_CMD, strand offset (R358). -/
def LEDGER_CMD : Nat := 0x14
/-- CMDACC_GO, strand offset (R358). -/
def CMDACC_GO : Nat := 0x2c
/-- CMDACC_RES, strand offset (R358). -/
def CMDACC_RES : Nat := 0x30
/-- LEDGER_CNT_x, strand offset (R360). -/
def LEDGER_CNT : Nat := 0x400
/-- CORE_CTL, strand offset (R384). -/
def CORE_CTL : Nat := 0xa0000
/-- CORE_STATUS, strand offset (R384). -/
def CORE_STATUS : Nat := 0xa0004
/-- CORE_FLAGS, strand offset (R384). -/
def CORE_FLAGS : Nat := 0xa0008
/-- CORE_CMD, strand offset (R384). -/
def CORE_CMD : Nat := 0xa000c
/-- CORE_CNT_x, strand offset (R385). -/
def CORE_CNT : Nat := 0xa0100
/-- BANK_OWNER_k, strand offset (R405). -/
def BANK_OWNER (a : Nat) : Nat := 0x90100 + 0x4 * a
/-- BANK_STATE_k, strand offset (R405). -/
def BANK_STATE (a : Nat) : Nat := 0x90200 + 0x4 * a
/-- BANK_FLAGS, strand offset (R405). -/
def BANK_FLAGS : Nat := 0x9000c
/-- BANK_CNT_x, strand offset (R406). -/
def BANK_CNT : Nat := 0x90400
/-- LKT_CFG, page offset (R425). -/
def LKT_CFG : Nat := 0x0
/-- LKT_STATUS, page offset (R425). -/
def LKT_STATUS : Nat := 0x4
/-- LKT_FLAGS, page offset (R425). -/
def LKT_FLAGS : Nat := 0x8
/-- LKT_CNT_x, page offset (R426). -/
def LKT_CNT : Nat := 0x40
/-- LP_STATUS, Loupe address (R451). -/
def LP_STATUS : Nat := 0x50080000
/-- LP_FLAGS, Loupe address (R451). -/
def LP_FLAGS : Nat := 0x50080004
/-- LP_CMD, Loupe address (R451). -/
def LP_CMD : Nat := 0x50080008
/-- LP_CNT_x, Loupe address (R452). -/
def LP_CNT : Nat := 0x50080400
/-- UPD_STATUS, Loupe address (R480). -/
def UPD_STATUS : Nat := 0x71001000
/-- BOOT_STATUS, Loupe address (R480). -/
def BOOT_STATUS : Nat := 0x71001004
/-- UPD_FLAGS, Loupe address (R480). -/
def UPD_FLAGS : Nat := 0x71001008
/-- UPD_CNT_x, Loupe address (R481). -/
def UPD_CNT : Nat := 0x71001100
/-- BEAD_TXQ, strand offset (R84). -/
def BEAD_TXQ (a : Nat) : Nat := 0x10024 + 0x1000 * a
/-- BEAD_RXQ, strand offset (R84). -/
def BEAD_RXQ (a : Nat) : Nat := 0x10028 + 0x1000 * a
/-- BEAD_SHCFG, strand offset (R84). -/
def BEAD_SHCFG (a : Nat) : Nat := 0x1002c + 0x1000 * a
/-- BEAD_OSR, strand offset (R84). -/
def BEAD_OSR (a : Nat) : Nat := 0x10030 + 0x1000 * a
/-- BEAD_ISR, strand offset (R84). -/
def BEAD_ISR (a : Nat) : Nat := 0x10034 + 0x1000 * a
/-- BEAD_XY, strand offset (R84). -/
def BEAD_XY (a : Nat) : Nat := 0x10038 + 0x1000 * a
/-- BEAD_SHCNT, strand offset (R84). -/
def BEAD_SHCNT (a : Nat) : Nat := 0x1003c + 0x1000 * a
/-- BEAD_CMP, strand offset (R84). -/
def BEAD_CMP (a : Nat) : Nat := 0x10040 + 0x1000 * a
/-- BEAD_CMP_MASK, strand offset (R84). -/
def BEAD_CMP_MASK (a : Nat) : Nat := 0x10044 + 0x1000 * a
/-- BEAD_CMPCFG, strand offset (R84). -/
def BEAD_CMPCFG (a : Nat) : Nat := 0x10048 + 0x1000 * a
/-- BEAD_CRCCFG, strand offset (R84). -/
def BEAD_CRCCFG (a : Nat) : Nat := 0x1004c + 0x1000 * a
/-- BEAD_CRC, strand offset (R84). -/
def BEAD_CRC (a : Nat) : Nat := 0x10050 + 0x1000 * a
/-- BEAD_CRC_FINAL, strand offset (R84). -/
def BEAD_CRC_FINAL (a : Nat) : Nat := 0x10054 + 0x1000 * a
/-- BEAD_CRCU_POLY_k, strand offset (R84). -/
def BEAD_CRCU_POLY (a b : Nat) : Nat := 0x10060 + 0x1000 * a + 0x10 * b
/-- BEAD_CRCU_INIT_k, strand offset (R84). -/
def BEAD_CRCU_INIT (a b : Nat) : Nat := 0x10064 + 0x1000 * a + 0x10 * b
/-- BEAD_CRCU_XOR_k, strand offset (R84). -/
def BEAD_CRCU_XOR (a b : Nat) : Nat := 0x10068 + 0x1000 * a + 0x10 * b
/-- BEAD_CRCU_PARAM_k, strand offset (R84). -/
def BEAD_CRCU_PARAM (a b : Nat) : Nat := 0x1006c + 0x1000 * a + 0x10 * b
/-- GCL_LEN, strand offset (R168). -/
def GCL_LEN (a : Nat) : Nat := 0x32804 + 0x1000 * a
/-- GCL_NEXT_CYCLE, strand offset (R168). -/
def GCL_NEXT_CYCLE (a : Nat) : Nat := 0x32808 + 0x1000 * a
/-- GCL_NEXT_BASE_NS, strand offset (R168). -/
def GCL_NEXT_BASE_NS (a : Nat) : Nat := 0x3280c + 0x1000 * a
/-- GCL_NEXT_BASE_S, strand offset (R168). -/
def GCL_NEXT_BASE_S (a : Nat) : Nat := 0x32810 + 0x1000 * a
/-- GCL_NEXT_BASE_SH, strand offset (R168). -/
def GCL_NEXT_BASE_SH (a : Nat) : Nat := 0x32814 + 0x1000 * a
/-- GCL_CUR_CYCLE, strand offset (R168). -/
def GCL_CUR_CYCLE (a : Nat) : Nat := 0x32818 + 0x1000 * a
/-- GCL_AGATE, strand offset (R168). -/
def GCL_AGATE (a : Nat) : Nat := 0x32820 + 0x1000 * a
/-- GCL_STAT, strand offset (R168). -/
def GCL_STAT (a : Nat) : Nat := 0x32824 + 0x1000 * a
/-- TIME_RATE, strand offset (R189). -/
def TIME_RATE : Nat := 0x50010
/-- TIME_RATE_INIT, strand offset (R189). -/
def TIME_RATE_INIT : Nat := 0x50014
/-- TIME_NOW_NS, strand offset (R189). -/
def TIME_NOW_NS : Nat := 0x50018
/-- TIME_NOW_S, strand offset (R189). -/
def TIME_NOW_S : Nat := 0x5001c
/-- TIME_NOW_SH, strand offset (R189). -/
def TIME_NOW_SH : Nat := 0x50020
/-- STEP_NS, strand offset (R189). -/
def STEP_NS : Nat := 0x50024
/-- STEP_S, strand offset (R189). -/
def STEP_S : Nat := 0x50028
/-- STEP_SH, strand offset (R189). -/
def STEP_SH : Nat := 0x5002c
/-- STEP_FRAC, strand offset (R189). -/
def STEP_FRAC : Nat := 0x50030
/-- PPS_IN_CORR, strand offset (R189). -/
def PPS_IN_CORR : Nat := 0x50044
/-- PPS_SEC_S, strand offset (R189). -/
def PPS_SEC_S : Nat := 0x50048
/-- PPS_SEC_SH, strand offset (R189). -/
def PPS_SEC_SH : Nat := 0x5004c
/-- PPS_IN_TS_NS, strand offset (R189). -/
def PPS_IN_TS_NS : Nat := 0x50050
/-- PPS_IN_TS_S, strand offset (R189). -/
def PPS_IN_TS_S : Nat := 0x50054
/-- PPS_IN_TS_SH, strand offset (R189). -/
def PPS_IN_TS_SH : Nat := 0x50058
/-- PPS_ERR, strand offset (R189). -/
def PPS_ERR : Nat := 0x5005c
/-- PPS_OUT_OFS, strand offset (R189). -/
def PPS_OUT_OFS : Nat := 0x50060
/-- PPS_OUT_W, strand offset (R189). -/
def PPS_OUT_W : Nat := 0x50064
/-- BNG_PINMASK, strand offset (R213). -/
def BNG_PINMASK : Nat := 0x60010
/-- BNG_PINLVL, strand offset (R213). -/
def BNG_PINLVL : Nat := 0x60014
/-- BNG_EIRQ, strand offset (R213). -/
def BNG_EIRQ : Nat := 0x60018
/-- TRK_ANG_OFS, strand offset (R214). -/
def TRK_ANG_OFS (a : Nat) : Nat := 0x60104 + 0x100 * a
/-- TRK_STEP_AU, strand offset (R214). -/
def TRK_STEP_AU (a : Nat) : Nat := 0x60108 + 0x100 * a
/-- TRK_NOM_RATE, strand offset (R214). -/
def TRK_NOM_RATE (a : Nat) : Nat := 0x6010c + 0x100 * a
/-- TRK_RATE_MIN, strand offset (R214). -/
def TRK_RATE_MIN (a : Nat) : Nat := 0x60110 + 0x100 * a
/-- TRK_RATE_MAX, strand offset (R214). -/
def TRK_RATE_MAX (a : Nat) : Nat := 0x60114 + 0x100 * a
/-- TRK_TIMEOUT, strand offset (R214). -/
def TRK_TIMEOUT (a : Nat) : Nat := 0x60118 + 0x100 * a
/-- TRK_MAXAGE, strand offset (R214). -/
def TRK_MAXAGE (a : Nat) : Nat := 0x6011c + 0x100 * a
/-- TRK_ANGLE, strand offset (R214). -/
def TRK_ANGLE (a : Nat) : Nat := 0x60124 + 0x100 * a
/-- TRK_RATE_LO, strand offset (R214). -/
def TRK_RATE_LO (a : Nat) : Nat := 0x60128 + 0x100 * a
/-- TRK_RATE_HI, strand offset (R214). -/
def TRK_RATE_HI (a : Nat) : Nat := 0x6012c + 0x100 * a
/-- TRK_TURNS, strand offset (R214). -/
def TRK_TURNS (a : Nat) : Nat := 0x60130 + 0x100 * a
/-- TRK_LAST_E, strand offset (R214). -/
def TRK_LAST_E (a : Nat) : Nat := 0x60134 + 0x100 * a
/-- TRK_TREF_NS, strand offset (R214). -/
def TRK_TREF_NS (a : Nat) : Nat := 0x60138 + 0x100 * a
/-- TRK_TREF_S, strand offset (R214). -/
def TRK_TREF_S (a : Nat) : Nat := 0x6013c + 0x100 * a
/-- TRK_OBS_NS, strand offset (R214). -/
def TRK_OBS_NS (a : Nat) : Nat := 0x60140 + 0x100 * a
/-- TRK_OBS_S, strand offset (R214). -/
def TRK_OBS_S (a : Nat) : Nat := 0x60144 + 0x100 * a
/-- TRK_OBS_VAL, strand offset (R214). -/
def TRK_OBS_VAL (a : Nat) : Nat := 0x60148 + 0x100 * a
/-- GAIN_RATE_j, strand offset (R214). -/
def GAIN_RATE (a b : Nat) : Nat := 0x60180 + 0x100 * a + 0x10 * b
/-- GAIN_K_j, strand offset (R214). -/
def GAIN_K (a b : Nat) : Nat := 0x60184 + 0x100 * a + 0x10 * b
/-- GAIN_PLAUS_j, strand offset (R214). -/
def GAIN_PLAUS (a b : Nat) : Nat := 0x60188 + 0x100 * a + 0x10 * b
/-- FLG_MATRIX, strand offset (R239). -/
def FLG_MATRIX : Nat := 0x70010
/-- FLG_MARGIN, strand offset (R239). -/
def FLG_MARGIN : Nat := 0x70014
/-- FLG_GUARD, strand offset (R239). -/
def FLG_GUARD : Nat := 0x70018
/-- FLG_ALIGN, strand offset (R239). -/
def FLG_ALIGN : Nat := 0x7001c
/-- FLG_SLEW, strand offset (R239). -/
def FLG_SLEW : Nat := 0x70020
/-- FLG_DA_LO, strand offset (R239). -/
def FLG_DA_LO : Nat := 0x70024
/-- FLG_DA_HI, strand offset (R239). -/
def FLG_DA_HI : Nat := 0x70028
/-- FLG_SA_LO, strand offset (R239). -/
def FLG_SA_LO : Nat := 0x7002c
/-- FLG_SA_HI, strand offset (R239). -/
def FLG_SA_HI : Nat := 0x70030
/-- FLG_FWD_SLACK, strand offset (R239). -/
def FLG_FWD_SLACK : Nat := 0x70034
/-- CT_OFS_NS, strand offset (R239). -/
def CT_OFS_NS : Nat := 0x70040
/-- CT_OFS_S, strand offset (R239). -/
def CT_OFS_S : Nat := 0x70044
/-- CT_OFS_SH, strand offset (R239). -/
def CT_OFS_SH : Nat := 0x70048
/-- CT_RATE, strand offset (R239). -/
def CT_RATE : Nat := 0x7004c
/-- ALIGN_E, strand offset (R239). -/
def ALIGN_E : Nat := 0x70050
/-- CT_NOW_NS, strand offset (R239). -/
def CT_NOW_NS : Nat := 0x70054
/-- CT_NOW_S, strand offset (R239). -/
def CT_NOW_S : Nat := 0x70058
/-- CT_NOW_SH, strand offset (R239). -/
def CT_NOW_SH : Nat := 0x7005c
/-- BZ_CFG, strand offset (R239). -/
def BZ_CFG : Nat := 0x70060
/-- BZ_DEV_WARN, strand offset (R239). -/
def BZ_DEV_WARN : Nat := 0x70064
/-- BZ_NODE_PORT_k, strand offset (R239). -/
def BZ_NODE_PORT (a : Nat) : Nat := 0x70068 + 0x4 * a
/-- LINK_DELAY, strand offset (R240). -/
def LINK_DELAY (a : Nat) : Nat := 0x70100 + 0x20 * a
/-- PORT_STAT, strand offset (R240). -/
def PORT_STAT (a : Nat) : Nat := 0x70104 + 0x20 * a
/-- LAST_VIOL, strand offset (R240). -/
def LAST_VIOL (a : Nat) : Nat := 0x70108 + 0x20 * a
/-- DEV_LAST, strand offset (R241). -/
def DEV_LAST (a : Nat) : Nat := 0x72000 + 0x10 * a
/-- DEV_MIN, strand offset (R241). -/
def DEV_MIN (a : Nat) : Nat := 0x72004 + 0x10 * a
/-- DEV_MAX, strand offset (R241). -/
def DEV_MAX (a : Nat) : Nat := 0x72008 + 0x10 * a
/-- DEV_STAT, strand offset (R241). -/
def DEV_STAT (a : Nat) : Nat := 0x7200c + 0x10 * a
/-- MAP_TBL, strand offset (R279). -/
def MAP_TBL : Nat := 0x80010
/-- MAP_NDESC, strand offset (R279). -/
def MAP_NDESC : Nat := 0x80014
/-- MAP_NOUT, strand offset (R279). -/
def MAP_NOUT : Nat := 0x80018
/-- MAP_IMG, strand offset (R279). -/
def MAP_IMG : Nat := 0x8001c
/-- MAP_CTX, strand offset (R279). -/
def MAP_CTX : Nat := 0x80020
/-- MAP_FMT_ADDR, strand offset (R279). -/
def MAP_FMT_ADDR : Nat := 0x80024
/-- MAP_CURVE_ADDR, strand offset (R279). -/
def MAP_CURVE_ADDR : Nat := 0x80028
/-- MAP_PERIOD, strand offset (R279). -/
def MAP_PERIOD : Nat := 0x8002c
/-- MAP_BASE_NS, strand offset (R279). -/
def MAP_BASE_NS : Nat := 0x80030
/-- MAP_BASE_S, strand offset (R279). -/
def MAP_BASE_S : Nat := 0x80034
/-- MAP_BASE_SH, strand offset (R279). -/
def MAP_BASE_SH : Nat := 0x80038
/-- MAP_RUN_SEQ, strand offset (R279). -/
def MAP_RUN_SEQ : Nat := 0x80040
/-- MAP_LAST_CYCLES, strand offset (R279). -/
def MAP_LAST_CYCLES : Nat := 0x80044
/-- MAP_MAX_CYCLES, strand offset (R279). -/
def MAP_MAX_CYCLES : Nat := 0x80048
/-- MAP_LAST_ERR, strand offset (R279). -/
def MAP_LAST_ERR : Nat := 0x8004c
/-- TX_RING_BASE_LO, strand offset (R309). -/
def TX_RING_BASE_LO (a : Nat) : Nat := 0x41000 + 0x40 * a
/-- TX_RING_BASE_HI, strand offset (R309). -/
def TX_RING_BASE_HI (a : Nat) : Nat := 0x41004 + 0x40 * a
/-- TX_RING_CFG, strand offset (R309). -/
def TX_RING_CFG (a : Nat) : Nat := 0x41008 + 0x40 * a
/-- TX_RING_CTL, strand offset (R309). -/
def TX_RING_CTL (a : Nat) : Nat := 0x4100c + 0x40 * a
/-- TX_RING_TAIL, strand offset (R309). -/
def TX_RING_TAIL (a : Nat) : Nat := 0x41010 + 0x40 * a
/-- TX_RING_HEAD, strand offset (R309). -/
def TX_RING_HEAD (a : Nat) : Nat := 0x41014 + 0x40 * a
/-- TX_RING_STATUS, strand offset (R309). -/
def TX_RING_STATUS (a : Nat) : Nat := 0x41018 + 0x40 * a
/-- TX_RING_FLAGS, strand offset (R309). -/
def TX_RING_FLAGS (a : Nat) : Nat := 0x4101c + 0x40 * a
/-- RX_RING_BASE_LO, strand offset (R309). -/
def RX_RING_BASE_LO (a : Nat) : Nat := 0x41400 + 0x40 * a
/-- RX_RING_BASE_HI, strand offset (R309). -/
def RX_RING_BASE_HI (a : Nat) : Nat := 0x41404 + 0x40 * a
/-- RX_RING_CFG, strand offset (R309). -/
def RX_RING_CFG (a : Nat) : Nat := 0x41408 + 0x40 * a
/-- RX_RING_CTL, strand offset (R309). -/
def RX_RING_CTL (a : Nat) : Nat := 0x4140c + 0x40 * a
/-- RX_RING_TAIL, strand offset (R309). -/
def RX_RING_TAIL (a : Nat) : Nat := 0x41410 + 0x40 * a
/-- RX_RING_HEAD, strand offset (R309). -/
def RX_RING_HEAD (a : Nat) : Nat := 0x41414 + 0x40 * a
/-- RX_RING_STATUS, strand offset (R309). -/
def RX_RING_STATUS (a : Nat) : Nat := 0x41418 + 0x40 * a
/-- RX_RING_FLAGS, strand offset (R309). -/
def RX_RING_FLAGS (a : Nat) : Nat := 0x4141c + 0x40 * a
/-- RX_HOLD_NS, strand offset (R309). -/
def RX_HOLD_NS (a : Nat) : Nat := 0x41420 + 0x40 * a
/-- CQ_BASE_LO, strand offset (R310). -/
def CQ_BASE_LO (a : Nat) : Nat := 0x41800 + 0x40 * a
/-- CQ_BASE_HI, strand offset (R310). -/
def CQ_BASE_HI (a : Nat) : Nat := 0x41804 + 0x40 * a
/-- CQ_CFG, strand offset (R310). -/
def CQ_CFG (a : Nat) : Nat := 0x41808 + 0x40 * a
/-- CQ_CTL, strand offset (R310). -/
def CQ_CTL (a : Nat) : Nat := 0x4180c + 0x40 * a
/-- CQ_HEAD, strand offset (R310). -/
def CQ_HEAD (a : Nat) : Nat := 0x41810 + 0x40 * a
/-- CQ_TAIL, strand offset (R310). -/
def CQ_TAIL (a : Nat) : Nat := 0x41814 + 0x40 * a
/-- CLASP_CMD, device offset (R336). -/
def CLASP_CMD : Nat := 0x1000010
/-- CLASP_IRQ_ARM_LO, device offset (R336). -/
def CLASP_IRQ_ARM_LO : Nat := 0x1000020
/-- CLASP_IRQ_ARM_HI, device offset (R336). -/
def CLASP_IRQ_ARM_HI : Nat := 0x1000024
/-- CLASP_SWIN, device offset (R336). -/
def CLASP_SWIN : Nat := 0x1000030
/-- CLASP_IRQ_ROUTE, device offset (R336). -/
def CLASP_IRQ_ROUTE : Nat := 0x1000034
/-- CLASP_BAR2_EN_LO_s, device offset (R336). -/
def CLASP_BAR2_EN_LO (a : Nat) : Nat := 0x1000040 + 0x8 * a
/-- CLASP_BAR2_EN_HI_s, device offset (R336). -/
def CLASP_BAR2_EN_HI (a : Nat) : Nat := 0x1000044 + 0x8 * a
/-- ACC_TBL_LO_s, device offset (R336). -/
def ACC_TBL_LO (a : Nat) : Nat := 0x1000080 + 0x10 * a
/-- ACC_TBL_HI_s, device offset (R336). -/
def ACC_TBL_HI (a : Nat) : Nat := 0x1000084 + 0x10 * a
/-- ACC_TBL_CFG_s, device offset (R336). -/
def ACC_TBL_CFG (a : Nat) : Nat := 0x1000088 + 0x10 * a
/-- MG_CFG, device offset (R337). -/
def MG_CFG (a : Nat) : Nat := 0x1001000 + 0x40 * a
/-- MG_PCQ_BASE_LO, device offset (R337). -/
def MG_PCQ_BASE_LO (a : Nat) : Nat := 0x1001004 + 0x40 * a
/-- MG_PCQ_BASE_HI, device offset (R337). -/
def MG_PCQ_BASE_HI (a : Nat) : Nat := 0x1001008 + 0x40 * a
/-- MG_PCQ_HEAD, device offset (R337). -/
def MG_PCQ_HEAD (a : Nat) : Nat := 0x100100c + 0x40 * a
/-- MG_PCQ_TAIL, device offset (R337). -/
def MG_PCQ_TAIL (a : Nat) : Nat := 0x1001010 + 0x40 * a
/-- MG_ACC_LO, device offset (R337). -/
def MG_ACC_LO (a : Nat) : Nat := 0x1001014 + 0x40 * a
/-- MG_ACC_HI, device offset (R337). -/
def MG_ACC_HI (a : Nat) : Nat := 0x1001018 + 0x40 * a
/-- MG_TAIL, device offset (R337). -/
def MG_TAIL (a : Nat) : Nat := 0x100101c + 0x40 * a
/-- MG_MARK, device offset (R337). -/
def MG_MARK (a : Nat) : Nat := 0x1001020 + 0x40 * a
/-- MG_ACCEPTED, device offset (R337). -/
def MG_ACCEPTED (a : Nat) : Nat := 0x1001024 + 0x40 * a
/-- MG_ABORT, device offset (R337). -/
def MG_ABORT (a : Nat) : Nat := 0x1001028 + 0x40 * a
/-- MG_ABORT_RES, device offset (R337). -/
def MG_ABORT_RES (a : Nat) : Nat := 0x100102c + 0x40 * a
/-- MG_STATUS, device offset (R337). -/
def MG_STATUS (a : Nat) : Nat := 0x1001030 + 0x40 * a
/-- MG_DUP_AGE, device offset (R337). -/
def MG_DUP_AGE (a : Nat) : Nat := 0x1001034 + 0x40 * a
/-- REC_CMD, device offset (R338). -/
def REC_CMD : Nat := 0x1810000
/-- REC_OFFSET, device offset (R338). -/
def REC_OFFSET : Nat := 0x1810004
/-- REC_LEN, device offset (R338). -/
def REC_LEN : Nat := 0x1810008
/-- REC_STATUS, device offset (R338). -/
def REC_STATUS : Nat := 0x181000c
/-- REC_NEXT, device offset (R338). -/
def REC_NEXT : Nat := 0x1810010
/-- REC_TOTAL, device offset (R338). -/
def REC_TOTAL : Nat := 0x1810014
/-- CMDACC_QSEQ, strand offset (R359). -/
def CMDACC_QSEQ : Nat := 0x20
/-- CMDACC_NOTICE_LO, strand offset (R359). -/
def CMDACC_NOTICE_LO : Nat := 0x24
/-- CMDACC_NOTICE_HI, strand offset (R359). -/
def CMDACC_NOTICE_HI : Nat := 0x28
/-- CMD_CQ, strand offset (R359). -/
def CMD_CQ : Nat := 0x34
/-- LEDGER_ACC_j, strand offset (R359). -/
def LEDGER_ACC (a : Nat) : Nat := 0x100 + 0x10 * a
/-- LEDGER_STA_j, strand offset (R359). -/
def LEDGER_STA (a : Nat) : Nat := 0x104 + 0x10 * a
/-- LEDGER_CMP_j, strand offset (R359). -/
def LEDGER_CMP (a : Nat) : Nat := 0x108 + 0x10 * a
/-- LEDGER_ENTRY_j, strand offset (R359). -/
def LEDGER_ENTRY (a : Nat) : Nat := 0x10c + 0x10 * a
/-- CORE_WDOG, strand offset (R385). -/
def CORE_WDOG : Nat := 0xa0010
/-- CORE_WDOG_KICK, strand offset (R385). -/
def CORE_WDOG_KICK : Nat := 0xa0014
/-- CORE_IRQ_PEND, strand offset (R385). -/
def CORE_IRQ_PEND : Nat := 0xa0018
/-- CORE_IRQ_EN, strand offset (R385). -/
def CORE_IRQ_EN : Nat := 0xa001c
/-- CORE_BRK0, strand offset (R385). -/
def CORE_BRK0 : Nat := 0xa0020
/-- CORE_BRK1, strand offset (R385). -/
def CORE_BRK1 : Nat := 0xa0024
/-- CORE_PC, strand offset (R385). -/
def CORE_PC : Nat := 0xa0028
/-- CORE_LAST_TRAP, strand offset (R385). -/
def CORE_LAST_TRAP : Nat := 0xa002c
/-- CORE_LAST_TPC, strand offset (R385). -/
def CORE_LAST_TPC : Nat := 0xa0030
/-- DT_HDR_e, strand offset (R385). -/
def DT_HDR (a : Nat) : Nat := 0xa0800 + 0x4 * a
/-- DT_UOP_e_m, strand offset (R385). -/
def DT_UOP (a b : Nat) : Nat := 0xa1000 + 0x40 * a + 0x8 * b
/-- DT_UCTL_e_m, strand offset (R385). -/
def DT_UCTL (a b : Nat) : Nat := 0xa1004 + 0x40 * a + 0x8 * b
/-- BANK_CTL, strand offset (R406). -/
def BANK_CTL : Nat := 0x90000
/-- BANK_CMD, strand offset (R406). -/
def BANK_CMD : Nat := 0x90004
/-- BANK_REMAP, strand offset (R406). -/
def BANK_REMAP : Nat := 0x90010
/-- BANK_LAST_ERR, strand offset (R406). -/
def BANK_LAST_ERR : Nat := 0x90014
/-- HM_STATUS, Loupe address (R408). -/
def HM_STATUS : Nat := 0x50010000
/-- HM_CMD, Loupe address (R408). -/
def HM_CMD : Nat := 0x50010004
/-- LC_STATE, Loupe address (R408). -/
def LC_STATE : Nat := 0x50010008
/-- LC_ADVANCE, Loupe address (R408). -/
def LC_ADVANCE : Nat := 0x5001000c
/-- TAMPER_CAUSE, Loupe address (R408). -/
def TAMPER_CAUSE : Nat := 0x50010010
/-- LKT_CTL, page offset (R426). -/
def LKT_CTL : Nat := 0xc
/-- TX_LO, page offset (R426). -/
def TX_LO : Nat := 0x10
/-- TX_HI, page offset (R426). -/
def TX_HI : Nat := 0x14
/-- TX_TIMEOUT, page offset (R426). -/
def TX_TIMEOUT : Nat := 0x18
/-- RX_LO, page offset (R426). -/
def RX_LO : Nat := 0x1c
/-- RX_HI, page offset (R426). -/
def RX_HI : Nat := 0x20
/-- RX_STAT, page offset (R426). -/
def RX_STAT : Nat := 0x24
/-- RX_ACK, page offset (R426). -/
def RX_ACK : Nat := 0x28
/-- LKT_CMD, page offset (R426). -/
def LKT_CMD : Nat := 0x2c
/-- LKT_SUMMARY_LO, device offset (R426). -/
def LKT_SUMMARY_LO : Nat := 0x1404000
/-- LKT_SUMMARY_HI, device offset (R426). -/
def LKT_SUMMARY_HI : Nat := 0x1404004
/-- LKT_BIND_c, Loupe address (R426). -/
def LKT_BIND (a : Nat) : Nat := 0x50044000 + 0x4 * a
/-- LP_CFG, Loupe address (R452). -/
def LP_CFG : Nat := 0x50080010
/-- LP_LIFE_WARN, Loupe address (R452). -/
def LP_LIFE_WARN : Nat := 0x50080014
/-- LP_MGMT_MAC_LO, Loupe address (R452). -/
def LP_MGMT_MAC_LO : Nat := 0x50080018
/-- LP_MGMT_MAC_HI, Loupe address (R452). -/
def LP_MGMT_MAC_HI : Nat := 0x5008001c
/-- LP_TIME_NS, Loupe address (R452). -/
def LP_TIME_NS : Nat := 0x50080020
/-- LP_TIME_S, Loupe address (R452). -/
def LP_TIME_S : Nat := 0x50080024
/-- LP_TIME_SH, Loupe address (R452). -/
def LP_TIME_SH : Nat := 0x50080028
/-- LP_HOP, Loupe address (R452). -/
def LP_HOP : Nat := 0x50080030
/-- LP_PCYC, Loupe address (R452). -/
def LP_PCYC : Nat := 0x50080034
/-- TEMP_j, Loupe address (R452). -/
def TEMP (a : Nat) : Nat := 0x50080100 + 0x4 * a
/-- VCORE_s, Loupe address (R452). -/
def VCORE (a : Nat) : Nat := 0x50080140 + 0x8 * a
/-- VSERDES_s, Loupe address (R452). -/
def VSERDES (a : Nat) : Nat := 0x50080144 + 0x8 * a
/-- WEAR_DRIFT_s, Loupe address (R452). -/
def WEAR_DRIFT (a : Nat) : Nat := 0x50080180 + 0x10 * a
/-- WEAR_EQH_s, Loupe address (R452). -/
def WEAR_EQH (a : Nat) : Nat := 0x50080184 + 0x10 * a
/-- WEAR_U_s, Loupe address (R452). -/
def WEAR_U (a : Nat) : Nat := 0x50080188 + 0x10 * a
/-- WEAR_REMAIN_s, Loupe address (R452). -/
def WEAR_REMAIN (a : Nat) : Nat := 0x5008018c + 0x10 * a
/-- REQ_LEN, device offset (R452). -/
def REQ_LEN : Nat := 0x1420000
/-- REQ_STATUS, device offset (R452). -/
def REQ_STATUS : Nat := 0x1420004
/-- FLC_STATUS_f, Loupe address (R481). -/
def FLC_STATUS (a : Nat) : Nat := 0x71000000 + 0x100 * a
/-- UPD_CMD, Loupe address (R481). -/
def UPD_CMD : Nat := 0x7100100c
/-- UPD_SESSION, Loupe address (R481). -/
def UPD_SESSION : Nat := 0x71001010
/-- UPD_TOTAL, Loupe address (R481). -/
def UPD_TOTAL : Nat := 0x71001014
/-- UPD_STORED, Loupe address (R481). -/
def UPD_STORED : Nat := 0x71001018
/-- UPD_GAP, Loupe address (R481). -/
def UPD_GAP : Nat := 0x7100101c
/-- UPD_AT_NS, Loupe address (R481). -/
def UPD_AT_NS : Nat := 0x71001020
/-- UPD_AT_S, Loupe address (R481). -/
def UPD_AT_S : Nat := 0x71001024
/-- UPD_AT_SH, Loupe address (R481). -/
def UPD_AT_SH : Nat := 0x71001028
/-- BOOT_GEN, Loupe address (R481). -/
def BOOT_GEN : Nat := 0x7100102c
/-- UPD_CFG, Loupe address (R481). -/
def UPD_CFG : Nat := 0x71001030
/-- UPD_PATHS, Loupe address (R481). -/
def UPD_PATHS : Nat := 0x71001034

end Sys2Proof.Machine.Reg
end

