-- ==== Sys2Proof/Machine/Mem.lean ====
section
/-! DEFINITION. Byte-addressed memory in one canonical form: strand SRAM (R387), Loupe SRAM (R430) and the Hallmark (R400). -/

namespace Sys2Proof.Machine

/-- A memory: its listed bytes, addresses strictly rising.  An unlisted byte reads as 0: the fill of R397 and of the wipe of
R403, and the model's choice for Loupe SRAM (DESIGN CHOICE).  (DESIGN CHOICE, unsafe: log entry 4.) -/
abbrev Memory := List Host.Cell

/-- What an unlisted address reads as.  (DESIGN CHOICE, unsafe: log entry 4.) -/
def memDefault : Byte := 0

/-- The byte at an address. -/
def Memory.get : Memory → Nat → Byte
  | [], _ => memDefault
  | (a, b) :: m, k => if a = k then b else Memory.get m k

/-- The memory without an entry for address `k`. -/
def Memory.drop1 : Memory → Nat → Memory
  | [], _ => []
  | (a, b) :: m, k => if a = k then m else if k < a then (a, b) :: m else (a, b) :: Memory.drop1 m k

/-- The memory with byte `v` put at address `k`, at its place in the rising order. -/
def Memory.put1 : Memory → Nat → Byte → Memory
  | [], k, v => [(k, v)]
  | (a, b) :: m, k, v => if k < a then (k, v) :: (a, b) :: m else if a = k then (k, v) :: m else (a, b) :: Memory.put1 m k v

/-- The memory with byte `v` written at address `k`; a byte equal to what an unlisted address reads as is not listed.  (DESIGN CHOICE, unsafe: log entry 4.) -/
def Memory.set (m : Memory) (k : Nat) (v : Byte) : Memory := if v = memDefault then Memory.drop1 m k else Memory.put1 m k v

/-- The memory with bytes written from address `k` upward. -/
def Memory.write : Memory → Nat → List Byte → Memory
  | m, _, [] => m
  | m, k, b :: bs => Memory.write (Memory.set m k b) (k + 1) bs

/-- `n` bytes from address `k` upward. -/
def Memory.read (m : Memory) (k : Nat) : Nat → List Byte
  | 0 => []
  | n + 1 => Memory.get m k :: Memory.read m (k + 1) n

/-- The memory without the entries from `lo` below `hi`: they read as 0 again. -/
def Memory.clear (m : Memory) (lo hi : Nat) : Memory := m.filter fun c => !(decide (lo ≤ c.1) && decide (c.1 < hi))

/-- All entries of a memory lie above `k`, strictly rising, and none equals the unlisted value. -/
def Memory.above : Memory → Nat → Bool
  | [], _ => true
  | (a, b) :: m, k => decide (k < a) && b != memDefault && Memory.above m a

/-- The canonical form.  (DESIGN CHOICE, unsafe: log entry 4.) -/
def Memory.wf : Memory → Bool
  | [] => true
  | (a, b) :: m => b != memDefault && Memory.above m a

end Sys2Proof.Machine
end

