-- ==== Sys2Proof/Machine/StrandUnits.lean ====
section
/-! DEFINITION. The state of the strand's units that the register file does not hold: Bead engines and pins, ports,
pass-through channels, switch, time base.  One structure a unit; the field's comment names the rule of the spec that gives it.
Registers and flag bits that software reads back as they stand live in the strand's register table. -/

namespace Sys2Proof.Machine

/-! ## Bead engines (chapter Bead Engines) -/

/-- The states of an engine (R70), in the order of BEAD_STATUS.STATE. -/
inductive EngState where
  | stopped | running | stalled | waiting
deriving DecidableEq, Repr

/-- One word of a Bead queue: the word, and for a TX entry the first cycle in which a PULL may take it (R67). -/
structure QEnt where
  word : Word
  ready : Nat
  /-- The time shift, in 2^-32 ns, that steps of the time base add to an observation word waiting here (R210). -/
  adj : Int := 0
deriving DecidableEq, Repr

/-- The lane holding register of an engine with a virtual input group (R105). -/
structure LaneHold where
  word : Nat := 0
  valid : Bool := false
  sof : Bool := false
  eof : Bool := false
  err : Bool := false
deriving DecidableEq, Repr

/-- What a SYNC in progress has seen (R104). -/
inductive SyncState where
  | idle | watching (k : Nat) | hit
deriving DecidableEq, Repr

/-- A start of the present cycle and what it replaced, for a claim of a lower-numbered engine or a master command of the same cycle that
undoes it (R56, R75). -/
structure Begun where
  /-- By a Bangle action, not by a master. -/
  bangle : Bool
  pc : Nat
  osrCnt : Nat
  isrCnt : Nat
  stallCause : Nat
  left : Nat
  acc : Nat
  crc : Word
  /-- The pins it newly claimed, and whether it newly claimed its TX lane. -/
  pins : List Nat
  lane : Bool
deriving DecidableEq, Repr

/-- One Bead engine (R49). -/
structure Engine where
  state : EngState := .stopped
  /-- PC, 6 bits: the next instruction (R74). -/
  pc : Nat := 0
  osr : Word := 0
  isr : Word := 0
  /-- Bits of OSR used, 0 to 32. -/
  osrCnt : Nat := 0
  /-- Bits of ISR assembled, 0 to 32. -/
  isrCnt : Nat := 0
  x : BitVec 16 := 0
  y : BitVec 16 := 0
  /-- The compare value CMP (R60). -/
  cmp : Word := 0
  /-- The CRC accumulator, raw form (R63). -/
  crc : Word := 0
  /-- Instruction memory, 64 words of 24 bits, default 0. -/
  imem : Tab (BitVec 24) := {}
  /-- TX queue, oldest first (R64). -/
  txq : List QEnt := []
  /-- RX queue, oldest first (R64). -/
  rxq : List QEnt := []
  /-- STOP accepted, not yet acted (R72). -/
  stopPend : Bool := false
  /-- STOP_CAUSE: 0 reset, 1 COMMAND, 2 STEP, 3 PIN_CONFLICT, 4 QUEUE_CFG, 5 IMEM_PARITY. -/
  stopCause : Nat := 0
  /-- STALL_CAUSE: 0 none, 1 PULL, 2 PUSH. -/
  stallCause : Nat := 0
  /-- STEP (R72): 0 none, 1 the one instruction has not completed, 2 completed and its delay is passing. -/
  stepping : Nat := 0
  /-- Failed the self-test twice (R81). -/
  unavail : Bool := false
  /-- Cycles left to the next engine clock (R51 `left`). -/
  left : Nat := 0
  /-- The fraction accumulator (R51 `acc`). -/
  acc : Nat := 0
  /-- The present cycle is an engine clock at which no instruction has executed yet (R51). -/
  due : Bool := false
  /-- Delay clocks still to pass (R87). -/
  dly : Nat := 0
  /-- Addresses of instruction memory whose fetch fails, until a write of the word (R79). -/
  bad : Tab Bool := {}
  /-- V and N of the most recent SHOUT (R100). -/
  outV : Nat × Nat := (0, 0)
  /-- V and N of the most recent SHIN (R100). -/
  inV : Nat × Nat := (0, 0)
  sync : SyncState := .idle
  /-- The words a stalled STAMP captured when it first executed (R101). -/
  stamp : Option (List Word) := none
  lane : LaneHold := {}
deriving DecidableEq, Repr

/-- The bit-level pins of a strand (R53 to R59, R509).  (DESIGN CHOICE, unsafe: log entry 24.) -/
structure BpPins where
  /-- The engine that claims pin p (R56). -/
  own : Tab (Option Nat) := {}
  /-- The engine that claims the TX lane of port p (R56). -/
  lane : Tab (Option Nat) := {}
  /-- The level an engine drives on pin p; none since the claim (R88). -/
  drv : Tab (Option Bool) := {}
  /-- Pin changes made at this cycle's engine clocks, effective in the next cycle (R57). -/
  next : List (Nat × Bool) := []
  /-- The level the board drives on pin p. -/
  ext : Tab PadIn := {}
  /-- First stage of the input synchronizer, BP23 to BP0 (R57). -/
  sync1 : BitVec 24 := 0
  /-- Second stage: the synchronized level (BP_IN). -/
  sync2 : BitVec 24 := 0
  /-- Measured VIO of bank k: 0 absent, 1 in the 1.8 V window, 2 in the 3.3 V window (R494). -/
  vio : Tab Nat := {}
  /-- A mismatch of bank k has been logged since the load (R59). -/
  vioLogged : Tab Bool := {}
deriving DecidableEq, Repr

/-! ## Frames -/

/-- What travels with a frame beside its bytes (R116, R126, R149, R186, R187). -/
structure FrMeta where
  /-- Ingress switch port, 0 to 9. -/
  src : Nat := 0
  /-- Traffic class 0 to 7. -/
  cls : Nat := 0
  /-- Stripped tags: S-tag TCI, C-tag TCI, HSR tag bytes, PRP trailer bytes (R116). -/
  sTag : Option Nat := none
  cTag : Option Nat := none
  hsr : Option Nat := none
  prp : Option Nat := none
  /-- VLAN and priority that the filter and the lookup used (R118). -/
  vid : Nat := 0
  pcp : Nat := 0
  tagged : Bool := false
  /-- The RX time-stamp: seconds and nanoseconds in 2^-16 ns, and TS_FLAGS bits [15:0] (R185); none for internal sources. -/
  ts : Option (Nat × Nat) := none
  /-- Truncated at MAXLEN: sent with an inverted FCS, OVERSIZE status to a host queue (R113). -/
  oversize : Bool := false
  /-- Carries an error status (R114 mirror copies), and one by an uncorrectable buffer error (R166). -/
  err : Bool := false
  ue : Bool := false
  /-- A mirror copy, and one cut to its first 124 bytes, on the way to a host queue (R164). -/
  mirror : Bool := false
  trunc : Bool := false
  /-- Marked for mirroring by a filter rule (R118 ACTION 2). -/
  mark : Bool := false
  /-- Tag requests of a transmit descriptor: 0 silent, 1 insert, 2 none, for S-tag and C-tag (R117). -/
  insS : Option Bool := none
  insC : Option Bool := none
  /-- Sequence number for HSR and PRP insertion (R117). -/
  seq : Nat := 0
  /-- One-step insertion offset and correction offset (R187). -/
  oneStep : Option (Nat × Option Nat) := none
  /-- The transmit item the frame belongs to: TX ring and QSEQ, with TS_REQ (R291). -/
  item : Option (Nat × Nat × Bool) := none
deriving DecidableEq, Repr

/-- A frame: its bytes from the destination address to the last byte before the FCS, and its metadata. -/
structure Frame where
  bytes : List Byte := []
  info : FrMeta := {}
deriving DecidableEq, Repr

/-! ## Ports (chapter Network Ports and the Frame MAC) -/

/-- A frame in reception on a port (R112 to R119). -/
structure MacRx where
  wire : RxWire
  /-- Cycle in which its last byte crosses the boundary. -/
  stop : Nat
  /-- Cycle of the filter decision: that of the byte after the last recognised EtherType (R119). -/
  decides : Nat
  /-- Bound for the switch, and refused a first cell (R115). -/
  bound : Bool := false
  refused : Bool := false
  /-- Cells reserved from the port's PMIN and from the shared pool (R152). -/
  own : Nat := 0
  shared : Nat := 0
  /-- ACTION and class, once decided (R118). -/
  rule : Option (Nat × Nat) := none
  /-- Cycle in which byte 0 crossed the boundary. -/
  start : Nat := 0
  /-- Its RX time-stamp in 2^-16 ns, and TS_FLAGS (R126). -/
  stamp : Nat := 0
  flags : Nat := 0
  /-- A Filigree frame of this strand's controller (R216), and cluster time at its RX time-stamp in 2^-16 ns (R230). -/
  flg : Bool := false
  ct : Int := 0
deriving DecidableEq, Repr

/-- A frame in transmission on a port, or the remainder of one that was preempted (R124). -/
structure TxCur where
  frame : Frame
  /-- The egress queue it came from; 8 stands for a flow-control frame. -/
  queue : Nat
  /-- The reference it holds until its end (R163). -/
  ref : Option (Nat × Nat) := none
  /-- Cycle of the first preamble byte of the piece on the wire, and of the end of its last byte. -/
  start : Nat
  stop : Nat
  /-- The whole frame as sent, after insertion and padding, without FCS. -/
  wire : List Byte
  /-- The piece on the wire: from byte `sent` to byte `upto`; short of the end it is a fragment and ends with its mCRC. -/
  sent : Nat := 0
  upto : Nat
  /-- Cycle in which it crosses the time-stamp point, until it has (R186). -/
  stamp : Option Nat := none
  /-- Sent with an inverted FCS; ended early by a buffer error, so not sent complete (R166). -/
  inv : Bool := false
  broke : Bool := false
deriving DecidableEq, Repr

/-- A frame on a port's RX lane, presented word by word to the engines that read it (R105, R133). -/
structure LaneRx where
  bytes : List Byte
  /-- Cycle in which byte 0 crossed the RX boundary. -/
  start : Nat
  err : Bool
  /-- Words already presented. -/
  given : Nat := 0
deriving DecidableEq, Repr

/-- One port's state beside its registers. -/
structure Port where
  /-- Filter words 0 to 2 held until the write of word 3, key 4k + w (R119). -/
  held : Tab Word := {}
  /-- What the PHY says: its link bit, and the speed in its control information (R107). -/
  phyLink : Bool := false
  phySpeed : Nat := 0
  /-- Pause in force: key 0 to 7 a queue (PFC), key 8 the port (PAUSE); the cycle at which it ends (R123). -/
  pause : Tab Nat := {}
  rx : Option MacRx := none
  tx : Option TxCur := none
  /-- The remainder of a preempted frame (R124). -/
  txHeld : Option TxCur := none
  /-- Flow-control frames that wait for the next frame boundary: quanta by class, 8 for PAUSE (R156). -/
  fc : Tab (Option Nat) := {}
  /-- Cycle in which the last one of a class started (R156). -/
  fcAt : Tab Nat := {}
  /-- The egress queue of the piece last sent. -/
  lastQ : Nat := 8
  lane : Option LaneRx := none
  /-- Device time in ns at which the MDIO frame in progress began; P0's page holds the controller (R110, R127). -/
  mdioAt : Nat := 0
deriving DecidableEq, Repr

/-! ## Pass-through path -/

/-- A pending edit on a lane (R102, R103, R141). -/
inductive LaneEdit where
  | replace (off : Nat) (bytes : List Byte)
  | correct (off : Nat)
deriving DecidableEq, Repr

/-- An edit of a frame in transit, and whether its bytes have left the window, so that it is pending no longer (R103, R138). -/
structure PtEdit where
  edit : LaneEdit
  gone : Bool := false
deriving DecidableEq, Repr

/-- A frame in transit on a channel. -/
structure PtCur where
  /-- The source port it came from. -/
  src : Nat
  /-- Its bytes as received, cut at the source's MAXLEN (R113). -/
  bytes : List Byte
  /-- Speed code of both ports. -/
  code : Nat
  /-- Cycles in which byte 0 crosses the RX boundary and the TX boundary (R133, R135). -/
  start : Nat
  out : Nat
  /-- Launched after its nominal time (R140). -/
  late : Bool := false
  /-- Its first preamble byte has been launched. -/
  launched : Bool := false
  /-- Its last FCS byte has left the edit window. -/
  passed : Bool := false
  /-- To be sent with an inverted FCS (R139). -/
  bad : Bool := false
  /-- The source link is lost after its last byte (R139). -/
  lost : Bool := false
  /-- What ends it early (R136). -/
  fifo : FifoEnd := .none
  /-- Its edits in the order in which they were armed. -/
  edits : List PtEdit := []
  /-- 0 a lane frame; on a Filigree port 1 a forwarded Filigree frame, 2 one of the controller's own (R224, R226). -/
  flg : Nat := 0
deriving DecidableEq, Repr

/-- One pass-through channel (R129). -/
structure PtChan where
  /-- Edits for the next frame, armed while none was in transit (R102). -/
  edits : List LaneEdit := []
  /-- The frames in transit, oldest first. -/
  frames : List PtCur := []
  /-- Cycle in which the last frame sent on the port ended (R135). -/
  lastEnd : Nat := 0
deriving DecidableEq, Repr

/-! ## Switch (chapter Strand Switch Core and Buffer) -/

/-- A cell that failed an ECC check while it held a frame (R166): its number, whether the error was uncorrectable, and whether it fails its
test. -/
structure CellFault where
  cell : Nat
  ue : Bool
  bad : Bool
deriving DecidableEq, Repr

/-- A frame stored in the buffer, with the cells it draws: from the shared pool, and from one queue's QMIN (R153, R163). -/
structure SwFrame where
  frame : Frame := {}
  /-- References still held by egress queues. -/
  refs : Nat := 0
  shared : Nat := 0
  minQueue : Nat := 0
  minCells : Nat := 0
  /-- The cells it lies in, in order, and those of them that have failed (R146, R166).  (DESIGN CHOICE, safe: log entry 40.) -/
  cells : List Nat := []
  failed : List CellFault := []
  /-- A port has sent it past the time-stamp point, so its item has its TX time-stamp (R186). -/
  stamped : Bool := false
deriving DecidableEq, Repr

/-- One entry of an egress queue. -/
structure SwRef where
  fid : Nat
  /-- Cells charged to the queue's occupancy (R153, R155). -/
  cells : Nat
  /-- Eligible, 24 cycles after its last byte was written (R147). -/
  eligible : Bool
  /-- Cycle in which its last byte was written. -/
  written : Nat
  /-- A mirror copy: no tags are inserted (R164). -/
  mirror : Bool := false
  /-- Sent with an inverted FCS: oversize, truncated or error copies (R113, R164, R166). -/
  inv : Bool := false
  /-- A truncated copy carries only the first 124 bytes (R164). -/
  trunc : Bool := false
  /-- Counted in GATE_HELD already (R160). -/
  heldOnce : Bool := false
  /-- Counted in SW_HELD already (R227). -/
  flgHeld : Bool := false
deriving DecidableEq, Repr

/-- What the DMA engine learns of a transmit item's frame: its ring, its QSEQ and its TX time-stamp, if it got one (R186). -/
structure TxNote where
  ring : Nat
  qseq : Nat
  ts : Option (Nat × Nat)
deriving DecidableEq, Repr

/-- A frame waiting at an internal source (R154). -/
structure SwWait where
  src : Nat
  mask : Nat
  frame : Frame
deriving DecidableEq, Repr

/-- One entry of the forwarding table (R149). -/
structure FdbEnt where
  d0 : Word := 0
  d1 : Word := 0
  d2 : Word := 0
deriving DecidableEq, Repr

/-- A V port that is reading a frame from its engine or writing one to it (R148). -/
structure VPort where
  /-- Header of the frame being read, and the words read so far. -/
  hdr : Option Word := none
  got : List Word := []
  /-- Words still to be written to the engine's TX queue. -/
  toSend : List Word := []
deriving DecidableEq, Repr

/-- The running state of an E port's gate list (R159, R161). -/
structure Gcl where
  /-- Base time of the active list in ns of strand time. -/
  base : Nat := 0
  /-- The armed swap's time in ns of strand time. -/
  swapAt : Nat := 0
  /-- The cycle time that the armed swap brings (R161). -/
  swapCycle : Nat := 0
  /-- Gates of the list at the position it had when it was last looked at, bit q = queue q open, and the entry index: the position it keeps in
  HOLD (R162). -/
  gates : Nat := 0xFF
  entry : Nat := 0
deriving DecidableEq, Repr

/-- The switch.  (DESIGN CHOICE, safe: log entry 40.)  (DEDUCED, safe: log entry 70.) -/
structure Switch where
  frames : Tab SwFrame := {}
  nextId : Nat := 1
  /-- Egress queues, key 8e + q, head first. -/
  queues : Tab (List SwRef) := {}
  waiting : List SwWait := []
  /-- Cells charged to an ingress port's frames in reception, key 8·port + class (R152). -/
  inUse : Tab Nat := {}
  fdb : Tab FdbEnt := {}
  /-- Credit of a shaped queue in 10^-6 bit, key 8e + q (R158). -/
  credit : Tab Int := {}
  gcl : Tab Gcl := {}
  vports : Tab VPort := {}
  /-- The cells retired (R166). -/
  retired : List Nat := []
  /-- The configured minimums were refused at the lock: PMIN and QMIN count as 0 (R151). -/
  minsOff : Bool := false
  /-- E ports whose flow control was refused at the lock (R156). -/
  fcOff : Tab Bool := {}
  /-- Frames that left the H and C egress queues and wait for the DMA engine: switch port, queue and frame. -/
  toDma : List (Nat × Nat × Frame) := []
  /-- What became of transmit items' frames, for the DMA engine. -/
  notes : List TxNote := []
deriving DecidableEq, Repr

/-! ## Time base (chapter Strand Time Base) -/

/-- The strand time base (R170 to R184). -/
structure TimeBase where
  /-- SEC. -/
  sec : Nat := 0
  /-- NS, FRAC and the 16 invisible bits as one number in 2^-32 ns, below 10^9 · 2^32. -/
  sub : Nat := 0
  /-- Latches of TIME_NOW_S and TIME_NOW_SH by master: 0 link A, 1 link B, 2 core, 3 Loupe (R173). -/
  latch : Tab (Nat × Nat) := {}
  /-- Time of the reference PPS edge in 2^-16 ns (R180). -/
  ppsRef : Option Int := none
  /-- The reference edge came after the last step (R181). -/
  refAfterStep : Bool := false
  /-- Time of the last valid PPS edge in 2^-16 ns. -/
  ppsValid : Option Int := none
  /-- A step has been taken since the time base started (R182). -/
  stepped : Bool := false
  /-- PPS_OUT is active (R184), and the cycle in which its width has run out. -/
  ppsOut : Bool := false
  ppsEnd : Nat := 0
  /-- TS_UNCERTAIN as it stood at the last PPS_IN capture (R182). -/
  ppsUnc : Bool := true
  /-- The counter in the cycle before, from which it has advanced, in 2^-32 ns (R184). -/
  prev : Nat := 0
  /-- The RATE write of this cycle that is kept, and its master (R171). -/
  rateBy : Option (Nat × Word) := none
  /-- STEP_ARM has reached the unit in this cycle (R176). -/
  arm : Bool := false
  /-- The value to which an edge of this cycle aligns the counter, in 2^-32 ns (R181). -/
  align : Option Int := none
  /-- The cycles in which STEP commands act (R178). -/
  steps : List Nat := []
deriving DecidableEq, Repr

/-! ## Bangle (chapter Bangle: Scheduling Against Angle) -/

/-- The states of a tracker (R191). -/
inductive TrkState where
  | off | warmup | valid
deriving DecidableEq, Repr

/-- An observation triple waiting in a tracker's FIFO (R192), with the time shift of later steps (R210). -/
structure Obs where
  ns : Word
  sec : Word
  value : Word
  adj : Int := 0
deriving DecidableEq, Repr

/-- One angle tracker (R191). -/
structure Tracker where
  state : TrkState := .off
  /-- Refused at the lock: held in OFF (R192, R196). -/
  refused : Bool := false
  /-- Unwrapped angle in au, 64 bits: turns modulo 2^32 in the upper half (R191). -/
  theta : Int := 0
  /-- Strand time at which it held, in 2^-32 ns. -/
  tref : Int := 0
  /-- Rate, Q32.32 au per ns. -/
  omega : Int := 0
  agree : Nat := 0
  misses : Nat := 0
  /-- Input FIFO, 4 entries (R194). -/
  fifo : List Obs := []
  /-- Words of a partly taken group (R192). -/
  part : List QEnt := []
  /-- The core's held TRK_OBS_NS and TRK_OBS_S. -/
  obsNs : Word := 0
  obsS : Word := 0
deriving DecidableEq, Repr

/-- The states of an event entry (chapter section Prediction and commit). -/
inductive EvtState where
  | idle | pending | committed
deriving DecidableEq, Repr

/-- One event entry's running state (R200 to R207, R510); its words are registers. -/
structure EvtEnt where
  state : EvtState := .idle
  /-- The last and the next occurrence: unwrapped angle of 64 bits and index j. -/
  last : Option Int := none
  next : Option (Int × Nat) := none
  /-- The turn that fixes the residue of an EVERY_NTH series. -/
  series : Option Int := none
  realign : Bool := false
  /-- Committed fire time, or last prediction, in 2^-32 ns of strand time. -/
  tf : Int := 0
  nom : Bool := false
  held : Bool := false
  /-- Sign of the rate at the last visit that used one. -/
  sign : Option Int := none
deriving DecidableEq, Repr

/-- Bangle. -/
structure Bangle where
  trk : Tab Tracker := {}
  ent : Tab EvtEnt := {}
  /-- Words 0 to 2 held until the write of word 3, key 4k + w (R207). -/
  held : Tab Word := {}
  /-- Latched TRK_RATE_LO, TRK_RATE_HI, TRK_TURNS: key 4·master + tracker (R214). -/
  latch : Tab (Word × Word × Word) := {}
  /-- Actions still waiting: firing cycle, entry, ACTION and ARG (R204). -/
  waiting : List (Nat × Nat × Nat) := []
  /-- The cycle the count below belongs to, and the actions performed in it. -/
  actCycle : Nat := 0
  actCount : Nat := 0
  /-- Levels driven on the pins of BNG_PINMASK from their first action on, and those that take effect with the next cycle (R201, R202). -/
  pinDrv : Tab (Option Bool) := {}
  pinNext : List (Nat × Bool) := []
  /-- Cycle in which the loop unit last took an observation (R195). -/
  loopAt : Option Nat := none
  /-- Time shifts of observations, with the cycles at whose end they act (R210). -/
  shifts : List (Nat × Int) := []
deriving DecidableEq, Repr

/-! ## Filigree (chapter Filigree Time-Triggered Bus and the Bezel Guardian) -/

/-- A frame the Bezel has accepted whose end has not arrived, or that waits in a port's arbitration buffer (R234, R235). -/
structure BzFrame where
  win : Nat
  /-- Cycles in which its first and its last byte cross the RX boundary. -/
  start : Nat := 0
  stop : Nat := 0
  /-- Cluster time of the start of the basic cycle of its window, in 2^-16 ns. -/
  cycle : Int
  frame : Frame
deriving DecidableEq, Repr

/-- The Filigree controller and its Bezel. -/
structure Filigree where
  /-- CT_OFS in 2^-32 ns, signed (R221). -/
  ctOfs : Int := 0
  /-- CT_RATE in 2^-32 ns per ns. -/
  ctRate : Int := 0
  /-- SLEW in 2^-16 ns (R230). -/
  slew : Int := 0
  good : Nat := 0
  bad : Nat := 0
  /-- RX time-stamp of the last ALIGN applied, strand time in 2^-16 ns. -/
  rLast : Int := 0
  /-- Latches of CT_NOW_S and CT_NOW_SH by master. -/
  latch : Tab (Nat × Nat) := {}
  /-- SEQ of the next frame sent (R224). -/
  seq : Nat := 0
  /-- The payload staged for sending by TX ring: its bytes, QSEQ and TS_REQ (R224, R292), and the cluster time in 2^-16 ns from which it was
  fully staged. -/
  staged : Tab (Option (List Byte × Nat × Bool × Int)) := {}
  /-- A delay request outstanding on a port: SEQ and t1 in 2^-16 ns (R228). -/
  req : Tab (Option (Nat × Int)) := {}
  /-- Responses owed: port, SEQ of the request and T2 in 2^-16 ns of strand time. -/
  owed : List (Nat × Nat × Int) := []
  /-- (SRC_POS, SEQ) delivered in this basic cycle (R220). -/
  seen : List (Nat × Nat) := []
  /-- (port, window) with a frame accepted in this basic cycle's occurrence (R233 row 9). -/
  taken : List (Nat × Nat) := []
  /-- Counts of the last 64 basic cycles by port, the current one first (R234). -/
  hist : Tab (List Nat) := {}
  /-- An accepted frame still arriving on a port (R234). -/
  arriving : Tab (Option BzFrame) := {}
  /-- The arbitration buffer of a port (R235). -/
  arb : Tab (Option BzFrame) := {}
  /-- The basic cycle whose start was last taken (R230). -/
  cycle : Option Int := none
  /-- Cluster time at which an ALIGN frame was last taken, in 2^-16 ns (R231). -/
  alignAt : Int := 0
  /-- Strand time of the last request outside windows, in 2^-16 ns (R229). -/
  reqAt : Option Int := none
  /-- The last window that has opened: its basic cycle and its index; it opens once (R224). -/
  opened : Option (Int × Nat) := none
  /-- MASTER_CONFLICT has been logged in this load (R231). -/
  conflictLogged : Bool := false
  /-- Refused at the lock: stays OFF (R219). -/
  refused : Bool := false
deriving DecidableEq, Repr

end Sys2Proof.Machine
end

