-- ==== Sys2Proof/Machine/StrandUnits2.lean ====
section
/-! DEFINITION. The state of a strand's further units: DMA engine, ledger, mapper, packages, Dridin core, memory banks. -/

namespace Sys2Proof.Machine

/-! ## DMA engine (chapter DMA Rings and Completion Queues) -/

/-- What an outstanding host read is for (R304).  Rings have keys: TX ring r is r, RX ring r is 16 + r. -/
inductive ReadWhat where
  | desc (key idx : Nat)
  | data (key qseq off : Nat)
  | back
deriving DecidableEq, Repr

/-- One outstanding read of host memory. -/
structure HostRead where
  tag : Nat
  link : Bool
  addr : Nat
  len : Nat
  what : ReadWhat
deriving DecidableEq, Repr

/-- How far a TX item has come (R340). -/
inductive ItemStep where
  | accepted | reading | committed
deriving DecidableEq, Repr

/-- A TX item from its acceptance to its completion (R286, R340). -/
structure Item where
  qseq : Nat
  /-- Index of its first descriptor, and the number of its descriptors. -/
  idx : Nat
  n : Nat
  descs : List (List Word)
  /-- Summed LEN. -/
  len : Nat
  step : ItemStep := .accepted
  /-- Data read so far by offset, and reads still outstanding. -/
  got : Tab (List Byte) := {}
  missing : Nat := 0
  /-- STATUS it will end with (R289), and its TX time-stamp with the TS_FLAGS bits. -/
  status : Nat := 0
  ts : Option (Nat × Nat) := none
  /-- The writer may decide it: it committed, or it ended in an error or an abort. -/
  ended : Bool := false
  /-- Its write-backs are suppressed (R351); its record too, where a link reset took it (R305). -/
  noWb : Bool := false
  noRec : Bool := false
  /-- Replayed from the store: its completion does not move HEAD (R351). -/
  replay : Bool := false
  /-- A duplicate submission that HEAD passes over (R346). -/
  dup : Bool := false
deriving DecidableEq, Repr

/-- An RX frame that is filling buffers (R298). -/
structure RxCur where
  frame : Frame
  queue : Nat
  /-- Descriptors consumed: index, its words, and the bytes written into its buffer. -/
  used : List (Nat × List Word × Nat)
  /-- Frame bytes written so far, or handed to a Bead queue. -/
  done : Nat
  /-- Words that wait for room in a Bead TX queue, and its engine (R67). -/
  left : List Word := []
  leftQ : Nat := 0
deriving DecidableEq, Repr

/-- One ring beside its registers. -/
structure Ring where
  /-- Descriptors read from host memory, by index. -/
  fetched : Tab (List Word) := {}
  /-- Index of the next descriptor that starts an item. -/
  next : Nat := 0
  items : List Item := []
  /-- A Filigree request or a kick that has not started its item yet (R292). -/
  asked : Bool := false
  /-- OWN = 0 was read once at this index, and the cycle from which the descriptor is read again (R284). -/
  own : Option Nat := none
  ownAt : Nat := 0
  /-- The cycle in which the ring entered HOLDING (R298). -/
  holdAt : Nat := 0
  rx : Option RxCur := none
  /-- Items that a restart replays and that have not committed (R351). -/
  replay : Nat := 0
  /-- An item waits for store space and has been counted (R344). -/
  fullWait : Bool := false
  /-- Descriptors that an abort named before the engine took them (R302). -/
  aborts : List Nat := []
deriving DecidableEq, Repr

/-- A completion record waiting to be written (R294, R296).  Keys: rings as above, 32 the mapper, 33 + k command queue k, 40 none. -/
structure CqRec where
  key : Nat
  cq : Nat
  words : List Word
  /-- Tag of the read-back that covers it; none where it has returned or none is needed (R296). -/
  tag : Option Nat
  /-- It had to wait for queue space and has been counted. -/
  waited : Bool := false
deriving DecidableEq, Repr

/-- A request of the strand to the Clasp (R319): posted writes and reads, in order.  (DESIGN CHOICE, safe: log entry 61.) -/
inductive HostReq where
  /-- Frame data of a ring: its key, whether it is the first data write of its frame, address and bytes. -/
  | data (link : Bool) (key : Nat) (first : Bool) (addr : Nat) (bytes : List Byte)
  /-- The write-back of a descriptor of a ring: key, index, QSEQ of its item, address and bytes. -/
  | wb (link : Bool) (key idx qseq addr : Nat) (bytes : List Byte)
  /-- A completion record of a queue: queue, ring key, address and words. -/
  | record (link : Bool) (cq key addr : Nat) (words : List Word)
  /-- A read request: tag, address, length. -/
  | read (link : Bool) (tag addr len : Nat)
deriving DecidableEq, Repr

/-- The DMA engine. -/
structure Dma where
  rings : Tab Ring := {}
  reads : List HostRead := []
  /-- Reads that wait for one of the 64 places (R304). -/
  waitReads : List HostRead := []
  nextTag : Nat := 0
  recs : List CqRec := []
  /-- The redundancy package's sequence counters by source address (R253, R285). -/
  redSeq : Tab Nat := {}
  /-- Address of the last posted write issued on link A and on link B (R296). -/
  lastA : Option Nat := none
  lastB : Option Nat := none
  /-- The TX ring started last (R291). -/
  turn : Nat := 15
  /-- An abort request on its way to the completion writer (R302). -/
  abort : Option Word := none
  /-- Requests on their way to the Clasp; empty between commands. -/
  reqs : List HostReq := []
deriving DecidableEq, Repr

/-! ## Acceptance ledger (chapter Accepted Work) -/

/-- One ledger entry (R342). -/
structure LedEnt where
  valid : Bool := false
  anchored : Bool := false
  acc : Nat := 0
  sta : Nat := 0
  cmp : Nat := 0
  next : Nat := 0
deriving DecidableEq, Repr

/-- A TX item as the accepted-item store holds it (R344): its QSEQ, first index and descriptors. -/
structure Stored where
  qseq : Nat
  idx : Nat
  descs : List (List Word)
deriving DecidableEq, Repr

/-- The acceptance ledger of a strand, in its retention banks (R342 to R345). -/
structure Ledger where
  ent : Tab LedEnt := {}
  store : Tab (List Stored) := {}
  /-- Anchor of a TX ring: BASE_LO, BASE_HI, CFG. -/
  anchor : Tab (Word × Word × Word) := {}
  /-- Completion log, key 128·r + slot: eight words. -/
  log : Tab (List Word) := {}
  /-- Stored notices of a command queue: QSEQ and the notice. -/
  notices : Tab (List (Nat × Nat)) := {}
deriving DecidableEq, Repr

/-! ## Signal mapper (chapter Contexts, Signal Mapper and Tables) -/

/-- A curve: ID, EXTEND mode and its points as binary32 words (R273). -/
structure Curve where
  id : Nat
  extend : Bool
  pts : List (Word × Word)
deriving DecidableEq, Repr

/-- The mapper beside its registers. -/
structure Mapper where
  fmts : List Word := []
  curves : List Curve := []
  /-- A run in progress: its number, and whether it processes only its IN section (R263). -/
  run : Option (Nat × Bool) := none
  /-- The cycle in which the run started (R264). -/
  runAt : Nat := 0
  /-- A trigger reached the mapper in this cycle; it acts as the cycle passes (R263). -/
  trig : Bool := false
  /-- A trigger has acted since the time base started. -/
  any : Bool := false
  /-- Refused at the lock (R274). -/
  refused : Bool := false
  /-- Code 0x0B02 has been logged in this load (R271). -/
  errLogged : Bool := false
deriving DecidableEq, Repr

/-! ## Protocol packages (chapter Protocol Packages) -/

/-- A package loaded into the strand, as the load record names it (R256). -/
structure Pkg where
  id : Nat
  ver : Nat
  role : Nat
  engines : Nat
  banks : Nat
  contexts : Nat
  load : Nat
  /-- In operation (GO_OPERATIONAL, GO_STOPPED). -/
  operational : Bool := false
  dupDiscard : Nat := 0
  ringDrop : Nat := 0
  /-- Ports it holds exclusively, as a mask (R249, R253). -/
  ports : Nat := 0
  /-- Of the redundancy package: its duplicate table, oldest first, by source address, sequence number and device time in ns (R253). -/
  dups : List (Nat × Nat × Nat) := []
  /-- The second of the device's time in which it last forwarded on the ring, and how many frames in it (R254). -/
  ringSec : Nat := 0
  ringCount : Nat := 0
deriving DecidableEq, Repr

/-! ## Dridin core (chapter Dridin Core) -/

/-- States of a core (CORE_STATUS.STATE). -/
inductive CoreState where
  | reset | running | waiting | halted | doubleTrap
deriving DecidableEq, Repr

/-- A store in the write buffer (R372): address, size in bytes and value. -/
structure WbEnt where
  addr : Nat
  size : Nat
  val : Nat
deriving DecidableEq, Repr

/-- A Dridin core: registers, special registers, write buffer, pending results (R362, R363, R372, R374). -/
structure DCore where
  state : CoreState := .reset
  /-- W0 to W14, and the hidden registers U0 and U1 of a decode-table sequence as 16 and 17; W15 is `pc`. -/
  w : Tab Word := {}
  /-- Address of the current instruction. -/
  pc : Nat := 0
  ml : Word := 0
  mh : Word := 0
  qt : Word := 0
  rm : Word := 0
  /-- FLAGS of R363. -/
  dz : Bool := false
  nc : Nat := 0
  d : Bool := false
  n : Bool := false
  z : Bool := false
  c : Bool := false
  v : Bool := false
  tm : Bool := false
  ie : Bool := false
  trapdz : Bool := false
  tpc : Word := 0
  tflags : Word := 0
  tcause : Word := 0
  tval : Word := 0
  vbase : Word := 0
  cycHi : Word := 0
  /-- Cycle counter. -/
  cyc : Nat := 0
  wbuf : List WbEnt := []
  /-- A pending product MH:ML, and a pending quotient and remainder, each with the cycles left until it has landed (R374). -/
  mul : Option (Nat × Nat) := none
  div : Option (Nat × Word × Word) := none
  /-- Watchdog cycles left; none while it does not run (R382). -/
  wdog : Option Nat := none
deriving DecidableEq, Repr

/-! ## Memory banks (chapter Memory Banks) -/

/-- A request of the common service in its exchange bank (R442): the channel whose oldest notice names it, its bank and core address, the
response that the Loupe has ready, and whether the Loupe is returning the bank. -/
structure Exchange where
  chan : Nat
  bank : Nat
  addr : Nat
  resp : Option (List Byte) := none
  back : Bool := false
deriving DecidableEq, Repr

/-- The strand's SRAM beside the bank registers. -/
structure Banks where
  mem : Memory := []
  /-- Words known to hold an error, key 16,384·bank + word: 1 correctable, 2 uncorrectable (R398). -/
  ecc : Tab Nat := {}
  /-- The owner a pending grant names: code, group (R393). -/
  pendTo : Tab (Nat × Nat) := {}
  /-- A power change in progress: the state it leads to (R396). -/
  pwrTo : Tab (Option Nat) := {}
  /-- The device time in ns of a release, and of a power change's request, with what PWR_NOW showed then and the state it leads away from (R393,
  R394, R396). -/
  relAt : Tab Nat := {}
  pwrAt : Tab (Nat × Nat × Nat) := {}
  /-- Banks in RELEASING, and FREE banks with a grant (R393). -/
  leaving : List Nat := []
  taking : List Nat := []
  /-- Scrubs waiting: bank, word and the requester that met the error (R398). -/
  scrubs : List (Nat × Nat × Nat) := []
  /-- Banks retired without a spare (R399). -/
  retired : List Nat := []
  /-- Word index of the patrol, and the cycle of its last instant. -/
  patrol : Nat := 0
  patrolAt : Nat := 0
  /-- A bank has been marked LASTING by this command (R399, R433). -/
  marked : Bool := false
  /-- A retention bank has shown an uncorrectable error (R345, R398). -/
  ledgerUe : Bool := false
  /-- The request that the common service has outstanding with the Loupe (R442). -/
  exch : Option Exchange := none
deriving DecidableEq, Repr

end Sys2Proof.Machine
end

