-- ==== Sys2Proof/Machine/StrandState.lean ====
section
/-! DEFINITION. The state of one strand's gated logic, and the plain reads and writes of its register and counter tables. -/

namespace Sys2Proof.Machine

/-- The fault classes of the log (R436). -/
inductive FClass where
  | transient | lasting | fatal
deriving DecidableEq, Repr

/-- An event a unit reports to the Loupe for its log (R438): code, class and arguments.  `once` is the key of the
once-per-second rule the event's own rule gives, where it gives one. -/
structure Report where
  code : Nat
  cls : FClass
  args : List Nat := []
  once : Option Nat := none
deriving DecidableEq, Repr

/-- What the device sends out of itself, newest last: the model's record of its outputs.  (DESIGN CHOICE, safe: log entry 7.)  (DESIGN CHOICE, safe: log entry 54.) -/
inductive Out where
  /-- A frame sent on Ethernet port `port`: bytes before the FCS, and whether the FCS is inverted. -/
  | frame (port : Nat) (bytes : List Byte) (inv : Bool)
  /-- A fragment of a preempted frame, which ends with its mCRC (R124); the frame itself follows whole as `frame` when its last byte is sent. -/
  | fragment (port : Nat) (bytes : List Byte)
  /-- A posted write to host memory on link A (`false`) or B. -/
  | hostWrite (link : Bool) (addr : Nat) (bytes : List Byte)
  /-- A read request to host memory. -/
  | hostRead (link : Bool) (addr len : Nat)
  /-- An MSI-X message (R321). -/
  | msix (link : Bool) (vec : Nat)
  /-- The answer to a read by a master. -/
  | readData (v : Nat)
  /-- The answer to a read that is refused with Completer Abort status (R317, R318, R398). -/
  | completerAbort
  /-- An answer of the Loupe to a Ngufotu request: OP, STATUS and body (R444). -/
  | answer (op status : Nat) (body : List Byte)
  /-- A relay message sent on a path (R466 to R470): KIND, path and words. -/
  | relay (kind path : Nat) (words : List Nat)
  /-- An MDIO management frame started (R110). -/
  | mdio (cmd : Word)
  /-- The level of PPS_OUT (R184). -/
  | ppsOut (level : Bool)
  /-- A state machine's action that the common service runs (R276): context, ACTION and ARG. -/
  | action (ctx act arg : Nat)
  /-- The heartbeat of the Loupe to a supervisor (R31). -/
  | heartbeat (strand : Nat)
deriving DecidableEq, Repr

/-- The present cycle of a strand: what has happened in it, by which later events of the same cycle are decided.  It counts only while
`time` is the present time.  (DESIGN CHOICE, safe: log entry 6.) -/
structure StrandCyc where
  time : Nat := 0
  c : Cycle := {}
  /-- EVT bits of an engine as they stood before the cycle (R76, R106). -/
  evt : Tab (Option Nat) := {}
  /-- Engines with a BEAD_CMD write of START, STEP, STOP, QFLUSH or PIN_RELEASE in it (R75). -/
  cmds : List Nat := []
  /-- Starts of the cycle, by engine (R56, R75). -/
  begun : Tab (Option Begun) := {}
  /-- CMP, CMP_MASK and CMP_SRC of an engine before a master's first write of them in the cycle (R61). -/
  cmp0 : Tab (Option (Word × Word × Nat)) := {}
  /-- Engines whose CMP a master has written, or an instruction; the same for CMP_SRC (R61, R99). -/
  cmpM : List Nat := []
  cmpE : List Nat := []
  srcM : List Nat := []
  srcE : List Nat := []
  /-- E ports whose AG_STATE a Bangle action has changed; AG_STATE of a port before a master's write of it (R159). -/
  agateB : List Nat := []
  agateM : Tab (Option Nat) := {}
  /-- RESYNC was commanded (R231). -/
  resync : Bool := false
  /-- The forwarding table as it stood before a write of the cycle (R150). -/
  fdb0 : Option (Tab FdbEnt) := none
  /-- PPS_SEC_S and PPS_SEC_SH before a write of them in the cycle, and whether one has set SEC_VALID (R12, R189). -/
  sec0 : Option (Word × Word) := none
  secSet : Bool := false
  /-- Accesses of bank ports: port B, bank, requester (R388). -/
  ports : List (Bool × Nat × Nat) := []
  /-- Writes of bank ports: port B, address, and the bytes that stood there (R390). -/
  wrs : List (Bool × Nat × List Byte) := []
  /-- BANK_OWNER_k (key k) and BANK_STATE_k (key 64 + k) written in it: by the core, the word before, and the owner or the state that was pending
  (R394). -/
  hand : Tab (Option (Bool × Word × (Nat × Nat) × Option Nat)) := {}
  /-- Event entries whose word 3 was written in the cycle, as they stood before: running state and words 0 to 3 (R207). -/
  evt0 : Tab (Option (EvtEnt × List Word)) := {}
deriving DecidableEq, Repr

/-- What a strand's units see of the rest of the device while one command is carried out: set at the start of each
command from the device state and empty between commands. -/
structure Env where
  /-- The strand's number. -/
  sid : Nat := 0
  /-- The strand's completion queues that an enabled merge group consumes (R324). -/
  merged : List Nat := []
  /-- The device's time in ns: commands between which it does not advance fall in one cycle. -/
  ns : Nat := 0
  /-- The strand is not OFF: its pins show their safe states at least (R35, R57). -/
  powered : Bool := false
  /-- The strand state is HOLD (R41). -/
  hold : Bool := false
  /-- The strand state is RUN or HOLD: traffic and units run. -/
  active : Bool := false
  /-- The strand state is LOADING (R389). -/
  loading : Bool := false
  /-- The strand's configuration lock (R13). -/
  locked : Bool := false
  /-- Fenced inward (R32). -/
  fenceIn : Bool := false
  /-- TX rings that a merge group of MD6 holds as standby (R329). -/
  standby : List Nat := []
  /-- The base mode is MD7 (R219). -/
  coupler : Bool := false
deriving DecidableEq, Repr

/-- The gated logic of one strand (R21). -/
structure StrandSt where
  env : Env := {}
  /-- Cycles of the strand clock since the strand's logic was last reset. -/
  now : Nat := 0
  /-- Registers by strand offset; one that is not listed holds its value after reset. -/
  regs : Tab Word := {}
  /-- Live statistics counters by the strand offset of their snapshot register (R16). -/
  cnt : Tab Nat := {}
  /-- Snapshot registers (R17). -/
  snap : Tab Nat := {}
  bead : Tab Engine := {}
  bp : BpPins := {}
  ports : Quad Port := Quad.all {}
  pt : Quad PtChan := Quad.all {}
  sw : Switch := {}
  time : TimeBase := {}
  bng : Bangle := {}
  flg : Filigree := {}
  dma : Dma := {}
  ledger : Ledger := {}
  map : Mapper := {}
  pkgs : List Pkg := []
  /-- Core address of the state-machine table of each machine index (R245, R275). -/
  machines : Tab (Option Nat) := {}
  core : DCore := {}
  banks : Banks := {}
  /-- The present cycle. -/
  cyc : StrandCyc := {}
  /-- Reports on their way to the Loupe and outputs on their way out; empty between commands. -/
  reports : List Report := []
  outs : List Out := []
deriving DecidableEq, Repr

/-! ## Registers -/

/-- The register at a strand offset, as it stands. -/
def StrandSt.rd (st : StrandSt) (off : Nat) : Word := st.regs.get (strandReset off) off

/-- The strand with the register at a strand offset replaced, by hardware. -/
def StrandSt.wr (st : StrandSt) (off : Nat) (v : Word) : StrandSt :=
  { st with regs := st.regs.set (strandReset off) off v }

/-- A field of a register. -/
def StrandSt.fld (st : StrandSt) (off hi lo : Nat) : Nat := fieldOf (st.rd off) hi lo

/-- A bit of a register. -/
def StrandSt.bit (st : StrandSt) (off i : Nat) : Bool := bitOf (st.rd off) i

/-- The strand with a field of a register written by hardware. -/
def StrandSt.put (st : StrandSt) (off hi lo v : Nat) : StrandSt := st.wr off (setField (st.rd off) hi lo v)

/-- The strand with a bit of a register written by hardware. -/
def StrandSt.putBit (st : StrandSt) (off i : Nat) (b : Bool) : StrandSt := st.wr off (setBit (st.rd off) i b)

/-! ## The present cycle -/

/-- The record of the present cycle. -/
def StrandSt.thisCyc (st : StrandSt) : StrandCyc := if st.cyc.time = st.env.ns then st.cyc else { time := st.env.ns }

/-- The strand with the record of the present cycle changed. -/
def StrandSt.inCyc (st : StrandSt) (f : StrandCyc → StrandCyc) : StrandSt := { st with cyc := f st.thisCyc }

/-- The strand with a flag bit set by hardware; a write of the same cycle does not clear it (R12). -/
def StrandSt.flag (st : StrandSt) (off i : Nat) : StrandSt :=
  (st.inCyc fun y => { y with c := y.c.noteSet off (2 ^ i) }).putBit off i true

/-- The bits of a register that hardware has set in this cycle (R12). -/
def StrandSt.kept (st : StrandSt) (off : Nat) : Nat := st.thisCyc.c.set.get 0 off

/-! ## Counters -/

/-- A live counter. -/
def StrandSt.counter (st : StrandSt) (off : Nat) : Nat := st.cnt.get 0 off

/-- The strand with a counter raised by `n`, saturating (R16). -/
def StrandSt.addCnt (st : StrandSt) (off n : Nat) : StrandSt :=
  let v := st.cnt.get 0 off
  { st with cnt := st.cnt.set 0 off (min counterMax (v + n)),
            cyc := { st.thisCyc with c := st.thisCyc.c.noteCnt off v n } }

/-- The strand with a counter raised by one. -/
def StrandSt.inc (st : StrandSt) (off : Nat) : StrandSt := st.addCnt off 1

/-- The snapshot-and-clear command of the unit whose counters lie from `lo` below `hi` (R17). -/
def StrandSt.snapRange (st : StrandSt) (lo hi : Nat) : StrandSt :=
  let x := st.thisCyc.c.snap st.cnt st.snap lo hi
  { st with cyc := { st.thisCyc with c := x.1 }, cnt := x.2.1, snap := x.2.2 }

/-! ## Reports and outputs -/

/-- The strand with one more report for the Loupe's log. -/
def StrandSt.report (st : StrandSt) (code : Nat) (cls : FClass) (args : List Nat := []) : StrandSt :=
  { st with reports := st.reports ++ [{ code := code, cls := cls, args := args }] }

/-- The same, under a rule that logs at most once per second for each key. -/
def StrandSt.reportOnce (st : StrandSt) (code : Nat) (cls : FClass) (key : Nat) (args : List Nat := []) : StrandSt :=
  { st with reports := st.reports ++ [{ code := code, cls := cls, args := args, once := some key }] }

/-- The strand with one more output. -/
def StrandSt.emit (st : StrandSt) (o : Out) : StrandSt := { st with outs := st.outs ++ [o] }

/-! ## Engines, ports and channels by number -/

/-- Bead engine `n`. -/
def StrandSt.eng (st : StrandSt) (n : Nat) : Engine := st.bead.get {} n

/-- The strand with engine `n` replaced. -/
def StrandSt.setEng (st : StrandSt) (n : Nat) (e : Engine) : StrandSt := { st with bead := st.bead.set {} n e }

/-- The strand with engine `n` changed. -/
def StrandSt.updEng (st : StrandSt) (n : Nat) (f : Engine → Engine) : StrandSt := st.setEng n (f (st.eng n))

/-- Port `p`. -/
def StrandSt.port (st : StrandSt) (p : Fin 4) : Port := st.ports.get p

/-- The strand with port `p` replaced. -/
def StrandSt.setPort (st : StrandSt) (p : Fin 4) (q : Port) : StrandSt := { st with ports := st.ports.set p q }

/-- Pass-through channel `p`. -/
def StrandSt.chan (st : StrandSt) (p : Fin 4) : PtChan := st.pt.get p

/-- The strand with channel `p` replaced. -/
def StrandSt.setChan (st : StrandSt) (p : Fin 4) (c : PtChan) : StrandSt := { st with pt := st.pt.set p c }

/-- Tracker `i`. -/
def StrandSt.trk (st : StrandSt) (i : Nat) : Tracker := st.bng.trk.get {} i

/-- The strand with tracker `i` replaced. -/
def StrandSt.setTrk (st : StrandSt) (i : Nat) (t : Tracker) : StrandSt :=
  { st with bng := { st.bng with trk := st.bng.trk.set {} i t } }

end Sys2Proof.Machine
end

