-- ==== Sys2Proof/Machine/TimeOps.lean ====
section
/-! DEFINITION. Reading the strand's time and angles: the counter's fields, uncertainty, time-stamp flags, a tracker's angle. -/

namespace Sys2Proof.Machine

/-- One nanosecond and one second in the counter's unit of 2^-32 ns (R170). -/
def nsUnit : Nat := 2 ^ 32
def secUnit : Nat := 10 ^ 9 * 2 ^ 32

/-- The whole counter in 2^-32 ns (R170). -/
def StrandSt.t32 (st : StrandSt) : Nat := st.time.sec * secUnit + st.time.sub

/-- The counter in 2^-16 ns, without the invisible bits. -/
def StrandSt.t16 (st : StrandSt) : Nat := st.t32 / 2 ^ 16

/-- The counter in whole nanoseconds. -/
def StrandSt.tNs (st : StrandSt) : Nat := st.t32 / nsUnit

/-- NS of the counter (R170). -/
def StrandSt.ns (st : StrandSt) : Nat := st.time.sub / nsUnit

/-- FRAC of the counter (R170). -/
def StrandSt.frac (st : StrandSt) : Nat := st.time.sub / 2 ^ 16 % 2 ^ 16

/-- RATE, signed, in 2^-32 ns per ns (R171). -/
def StrandSt.rate (st : StrandSt) : Int := signedN 32 (st.rd Reg.TIME_RATE).toNat

/-- What the counter advances in one cycle, in 2^-32 ns (R170). -/
def StrandSt.cycle32 (st : StrandSt) : Int := (nsUnit : Nat) + st.rate

/-- TIME_STATUS.RUNNING: the time base has started (R172). -/
def StrandSt.timeRunning (st : StrandSt) : Bool := st.bit Reg.TIME_STATUS 5

/-- TS_UNCERTAIN (R182, R183). -/
def StrandSt.tsUncertain (st : StrandSt) : Bool :=
  st.bit Reg.TIME_CTL 10 ||
  !(st.time.stepped && (st.fld Reg.TIME_STATUS 9 8 == 2 || st.fld Reg.TIME_STATUS 7 6 == 2))

/-- Bits [15:0] of TS_FLAGS for a time-stamp taken now (R185). -/
def StrandSt.tsFlags (st : StrandSt) : Nat :=
  st.fld Reg.TIME_STATUS 31 24 * 256 + b2n (st.bit Reg.TIME_STATUS 4) * 4 + b2n st.tsUncertain * 2 + 1

/-- The seconds and nanoseconds of a time in 2^-16 ns. -/
def secOf16 (t : Nat) : Nat := t / (10 ^ 9 * 2 ^ 16)
def nsOf16 (t : Nat) : Nat := t / 2 ^ 16 % 10 ^ 9
def fracOf16 (t : Nat) : Nat := t % 2 ^ 16

/-- The unwrapped angle of a tracker at a time in 2^-32 ns: the product is formed exactly and its fraction dropped (R197, R199).  (DEDUCED, unsafe: log entry 43.) -/
def Tracker.at32 (t : Tracker) (time : Int) : Int := t.theta + t.omega * (time - t.tref) / (2 ^ 64 : Nat)

/-- The angle of a tracker at a time; 0 in OFF (R191, R199). -/
def Tracker.angle (t : Tracker) (time : Int) : Nat :=
  match t.state with
  | .off => 0
  | .warmup => wrapN 32 (t.at32 time)
  | .valid => wrapN 32 (t.at32 time)

/-- The angle of tracker `i` now. -/
def StrandSt.angleNow (st : StrandSt) (i : Nat) : Nat := (st.trk i).angle st.t32

end Sys2Proof.Machine
end

