-- ==== Sys2Proof/Machine/BeadOps.lean ====
section
/-! DEFINITION. The machinery of the Bead engines: pin groups, claims, queues, compare unit, CRC, starting and stopping, and the
frame of one instruction (rules R49 to R80, R86 to R91). -/

namespace Sys2Proof.Machine

/-! ## Configuration fields -/

/-- Fields of BEAD_PINCFG of engine `n`. -/
def StrandSt.outKind (st : StrandSt) (n : Nat) : Bool := st.bit (Reg.BEAD_PINCFG n) 19
def StrandSt.outCnt (st : StrandSt) (n : Nat) : Nat := st.fld (Reg.BEAD_PINCFG n) 18 15
def StrandSt.outBase (st : StrandSt) (n : Nat) : Nat := st.fld (Reg.BEAD_PINCFG n) 14 10
def StrandSt.inKind (st : StrandSt) (n : Nat) : Bool := st.bit (Reg.BEAD_PINCFG n) 9
def StrandSt.inCnt (st : StrandSt) (n : Nat) : Nat := st.fld (Reg.BEAD_PINCFG n) 8 5
def StrandSt.inBase (st : StrandSt) (n : Nat) : Nat := st.fld (Reg.BEAD_PINCFG n) 4 0
def StrandSt.sideEn (st : StrandSt) (n : Nat) : Bool := st.bit (Reg.BEAD_PINCFG n) 26
def StrandSt.sideBase (st : StrandSt) (n : Nat) : Nat := st.fld (Reg.BEAD_PINCFG n) 25 21

/-- OSR_DIR and ISR_DIR of BEAD_SHCFG (R50). -/
def StrandSt.osrDir (st : StrandSt) (n : Nat) : Bool := st.bit (Reg.BEAD_SHCFG n) 0
def StrandSt.isrDir (st : StrandSt) (n : Nat) : Bool := st.bit (Reg.BEAD_SHCFG n) 1

/-- The TX lane an engine's virtual output group names (R54). -/
def StrandSt.outLane (st : StrandSt) (n : Nat) : Nat := st.outBase n % 4

/-- The RX lane an engine's virtual input group names (R54). -/
def StrandSt.inLane (st : StrandSt) (n : Nat) : Nat := st.inBase n % 4

/-- A speed code of SPEED_ACT as 16-bit lane words: only 2500 Mb/s (R54, R95). -/
def StrandSt.laneWidth (st : StrandSt) (p : Nat) : Nat := if st.fld (Reg.MAC_STATUS p) 9 8 = 3 then 16 else 8

/-! ## Pins (R53 to R59, R509) -/

/-- Whether the output driver of pin `p` may drive: its bank's VIO is right (R59).  (DESIGN CHOICE, unsafe: log entry 24.) -/
def StrandSt.bankOk (st : StrandSt) (p : Nat) : Bool :=
  let k := if p < 12 then 0 else 1
  let want := if st.bit Reg.BP_VIO k then 2 else 1
  st.bp.vio.get 0 k == want

/-- A VIO mismatch of bank `k` is logged once per load: code 0x0203 (R59). -/
def StrandSt.vioWatch (st : StrandSt) (k : Nat) : StrandSt :=
  if st.bankOk (12 * k) || st.bp.vioLogged.get false k then st
  else ({ st with bp := { st.bp with vioLogged := st.bp.vioLogged.set false k true } } : StrandSt).report 0x0203 .lasting [k]

/-- The safe state of a pin: the level driven, or none (R57). -/
def StrandSt.safeLevel (st : StrandSt) (p : Nat) : Option Bool :=
  if st.bit (Reg.BP_PAD p) 1 then some (st.bit (Reg.BP_PAD p) 2) else none

/-- What the device drives on pin `p`: an engine's level, Bangle's level, or the safe state, which is all a strand in LOADING, HOLD or
FENCED shows; nothing in OFF (R35, R57, R58, R59, R88, R202, R487). -/
def StrandSt.pinDrive (st : StrandSt) (p : Nat) : Option Bool :=
  if !st.env.powered || !st.bankOk p then none
  else if st.env.hold || !st.env.active then st.safeLevel p
  else if bitN (st.rd Reg.BNG_PINMASK).toNat p then
    (match st.bng.pinDrv.get none p with
     | some v => some v
     | none => st.safeLevel p)
  else match st.bp.own.get none p, st.bp.drv.get none p with
    | some _, some v => some v
    | _, _ => st.safeLevel p

/-- The level of pad `p` as a reader finds it: driven by the device, by the board or by a pull; otherwise, and in
contention, a free value (R509).  (DESIGN CHOICE, safe: log entry 10.)  (DESIGN CHOICE, unsafe: log entry 24.) -/
def StrandSt.padLevel (st : StrandSt) (reader p : Nat) : Bool :=
  let free := Config.freePin st.env.sid st.now p reader
  let ext := st.bp.ext.get PadIn.floating p
  match st.pinDrive p with
  | some d =>
    (match ext with
     | .floating => d
     | .low => if d then free else false
     | .high => if d then true else free)
  | none =>
    (match ext with
     | .low => false
     | .high => true
     | .floating =>
       if st.env.powered && st.fld (Reg.BP_PAD p) 4 3 = 1 then false
       else if st.env.powered && st.fld (Reg.BP_PAD p) 4 3 = 2 then true
       else free)

/-- The level an engine reads from pin `p`: synchronized, or the pad itself with SYNC_BYPASS (R57). -/
def StrandSt.pinRead (st : StrandSt) (reader p : Nat) : Bool :=
  if st.bit (Reg.BP_PAD p) 7 then st.padLevel reader p else st.bp.sync2.getLsbD p

/-- Bit `i` of engine `n`'s input group (R53, R54, R93). -/
def StrandSt.inBit (st : StrandSt) (n i : Nat) : Bool :=
  if st.inKind n then decide (i < st.laneWidth (st.inLane n)) && bitN (st.eng n).lane.word i
  else decide (i < st.inCnt n) && decide (st.inBase n + i < 24) && st.pinRead n (st.inBase n + i)

/-- The number the low `w` bits of the input group spell. -/
def StrandSt.inWord (st : StrandSt) (n w : Nat) : Nat :=
  ((List.range w).map fun i => if st.inBit n i then 2 ^ i else 0).sum

/-- The strand with pin `p` driven from the next cycle (R57). -/
def StrandSt.drivePin (st : StrandSt) (p : Nat) (v : Bool) : StrandSt :=
  if p < 24 then { st with bp := { st.bp with next := st.bp.next ++ [(p, v)] } } else st

/-- Whether pin `p` is a side-set pin of engine `n`: output bits that overlap it have no effect (R55, R88). -/
def StrandSt.isSide (st : StrandSt) (n p : Nat) : Bool := st.sideEn n && (p == st.sideBase n || p == st.sideBase n + 1)

/-- The strand with group bits `i < k` of engine `n`'s physical output group driven to the bits of `v` (R53, R55, R92).  (DEDUCED, unsafe: log entry 22.) -/
def StrandSt.driveGroup (st : StrandSt) (n k v : Nat) : StrandSt :=
  if st.outKind n then st
  else (List.range (min k (st.outCnt n))).foldl
    (fun s i => if st.isSide n (st.outBase n + i) then s else s.drivePin (st.outBase n + i) (bitN v i)) st

/-- The pins an engine claims: its physical output group and its side-set pins (R56). -/
def StrandSt.claimPins (st : StrandSt) (n : Nat) : List Nat :=
  (if st.outKind n then [] else (List.range (st.outCnt n)).map (st.outBase n + ·)).filter (· < 24) ++
  (if st.sideEn n then [st.sideBase n, st.sideBase n + 1] else []).filter (· < 24)

/-- Whether engine `m` claimed pin `p` by a start of this cycle: a claim that a lower-numbered engine's claim of the same cycle takes (R56). -/
def StrandSt.claimedNow (st : StrandSt) (m p : Nat) : Bool :=
  match st.thisCyc.begun.get none m with
  | some b => b.pins.contains p
  | none => false

/-- The same for the TX lane of engine `m`'s output group. -/
def StrandSt.lanedNow (st : StrandSt) (m : Nat) : Bool :=
  match st.thisCyc.begun.get none m with
  | some b => b.lane
  | none => false

/-- The engines that hold a pin or the lane that engine `n` would claim. -/
def StrandSt.claimHolders (st : StrandSt) (n : Nat) : List Nat :=
  (List.range 16).filter fun m => m != n &&
    ((st.claimPins n).any (fun p => st.bp.own.get none p == some m) ||
     (st.outKind n && st.bp.lane.get none (st.outLane n) == some m))

/-- Whether engine `m` gives up to engine `n` what both claim: it claimed all of it in this cycle and has the higher number (R56). -/
def StrandSt.yields (st : StrandSt) (n m : Nat) : Bool :=
  decide (n < m) && (st.claimPins n).all (fun p => st.bp.own.get none p != some m || st.claimedNow m p) &&
  (!(st.outKind n && st.bp.lane.get none (st.outLane n) == some m) || st.lanedNow m)

/-- Whether a claim of engine `n` meets another engine's claim that stands, or a pin of Bangle (R56, R202). -/
def StrandSt.claimConflict (st : StrandSt) (n : Nat) : Bool :=
  (st.claimPins n).any (fun p => bitN (st.rd Reg.BNG_PINMASK).toNat p) || (st.claimHolders n).any fun m => !st.yields n m

/-- The strand with engine `n`'s claims taken; a newly claimed pin has not been driven yet (R56, R88). -/
def StrandSt.claim (st : StrandSt) (n : Nat) : StrandSt :=
  let bp := (st.claimPins n).foldl (fun b p =>
    match b.own.get none p with
    | some _ => b
    | none => { b with own := b.own.set none p (some n), drv := b.drv.set none p none }) st.bp
  { st with bp := if st.outKind n then { bp with lane := bp.lane.set none (st.outLane n) (some n) } else bp }

/-- Whether engine `n` holds a claim (BEAD_STATUS.CLAIMED). -/
def StrandSt.holdsClaim (st : StrandSt) (n : Nat) : Bool :=
  (List.range 24).any (fun p => st.bp.own.get none p == some n) ||
  (List.range 4).any (fun p => st.bp.lane.get none p == some n)

/-- The strand with engine `n`'s claims ended (R56 PIN_RELEASE); edits armed for a next frame stay for a later claim's first one (R131).
(DEDUCED, unsafe: log entry 25.) -/
def StrandSt.releaseClaims (st : StrandSt) (n : Nat) : StrandSt :=
  let own := (List.range 24).foldl (fun t p => if t.get none p == some n then t.set none p none else t) st.bp.own
  let drv := (List.range 24).foldl (fun t p =>
    if st.bp.own.get none p == some n then t.set none p none else t) st.bp.drv
  let lane := (List.range 4).foldl (fun t p => if t.get none p == some n then t.set none p none else t) st.bp.lane
  { st with bp := { st.bp with own := own, drv := drv, lane := lane } }

/-- The strand with engine `n`'s claimed pins back in their safe state, claims kept (R79). -/
def StrandSt.undrive (st : StrandSt) (n : Nat) : StrandSt :=
  let drv := (List.range 24).foldl (fun t p =>
    if st.bp.own.get none p == some n then t.set none p none else t) st.bp.drv
  let nxt := st.bp.next.filter (fun c => st.bp.own.get none c.1 != some n)
  { st with bp := { st.bp with drv := drv, next := nxt } }

/-! ## Queues (R64 to R69) -/

/-- Whether even engine `n` is chained with engine `n + 1` (R65). -/
def StrandSt.chained (st : StrandSt) (n : Nat) : Bool := n % 2 == 0 && st.bit (Reg.BEAD_QCFG n) 16

/-- Whether engine `n` is the odd engine of a chain, which has no queue (R65). -/
def StrandSt.chainOdd (st : StrandSt) (n : Nat) : Bool := n % 2 == 1 && st.chained (n - 1)

/-- BEAD_QCFG as it reads: the odd engine of a chain reads as the even one, with CHAIN 0 (R65). -/
def StrandSt.qcfgPeek (st : StrandSt) (n : Nat) : Word :=
  if st.chainOdd n then setBit (st.rd (Reg.BEAD_QCFG (n - 1))) 16 false else st.rd (Reg.BEAD_QCFG n)

/-- Depth of an engine's TX queue, 0 for none (R64, R65). -/
def StrandSt.txDepth (st : StrandSt) (n : Nat) : Nat :=
  if st.chainOdd n then 0
  else match st.fld (Reg.BEAD_QCFG n) 1 0 with
    | 0 => 8
    | 1 => if st.chained n then 32 else 16
    | _ => 0

/-- Depth of an engine's RX queue, 0 for none (R64, R65). -/
def StrandSt.rxDepth (st : StrandSt) (n : Nat) : Nat :=
  if st.chainOdd n then 0
  else match st.fld (Reg.BEAD_QCFG n) 1 0 with
    | 0 => 8
    | 2 => if st.chained n then 32 else 16
    | _ => 0

/-- The queue thresholds of BEAD_QCFG (R69). -/
def StrandSt.txThresh (st : StrandSt) (n : Nat) : Nat := fieldOf (st.qcfgPeek n) 7 2
def StrandSt.rxThresh (st : StrandSt) (n : Nat) : Nat := fieldOf (st.qcfgPeek n) 13 8

/-- The TX threshold condition that WAIT on queue level tests (R69, R98). -/
def StrandSt.txThr (st : StrandSt) (n : Nat) : Bool :=
  decide (st.txThresh n ≤ st.txDepth n) && decide ((st.eng n).txq.length ≤ st.txThresh n)

/-- The RX threshold condition that WAIT on queue level tests (R69, R98). -/
def StrandSt.rxThr (st : StrandSt) (n : Nat) : Bool :=
  decide (st.rxThresh n ≠ 0) && decide (st.rxThresh n ≤ st.rxDepth n) && decide (st.rxThresh n ≤ (st.eng n).rxq.length)

/-- The strand with a word appended to engine `n`'s TX queue, takeable from two cycles later (R67). -/
def StrandSt.txAppend (st : StrandSt) (n : Nat) (w : Word) : StrandSt :=
  st.updEng n fun e => { e with txq := e.txq ++ [{ word := w, ready := st.now + 2 }] }

/-- The strand with words appended to engine `n`'s RX queue, readable from the next cycle, and THR set where the level
rises to the threshold (R67, R69). -/
def StrandSt.rxAppend (st : StrandSt) (n : Nat) (ws : List Word) : StrandSt :=
  let before := st.rxThr n
  let st' := st.updEng n fun e => { e with rxq := e.rxq ++ ws.map fun w => { word := w, ready := st.now + 1 } }
  if !before && st'.rxThr n then st'.flag (Reg.BEAD_FLAGS n) 9 else st'

/-- The strand without the head of engine `n`'s TX queue, and THR set where the level falls to the threshold (R69). -/
def StrandSt.txTake (st : StrandSt) (n : Nat) : StrandSt :=
  let before := st.txThr n
  let st' := st.updEng n fun e => { e with txq := e.txq.drop 1 }
  if !before && st'.txThr n then st'.flag (Reg.BEAD_FLAGS n) 9 else st'

/-- The strand with engine `n`'s queues emptied, and THR set where the TX level so falls to the threshold (R66, R69). -/
def StrandSt.emptyQueues (st : StrandSt) (n : Nat) : StrandSt :=
  let before := st.txThr n
  let st' := st.updEng n fun e => { e with txq := [], rxq := [] }
  if !before && st'.txThr n then st'.flag (Reg.BEAD_FLAGS n) 9 else st'

/-- Whether an enabled V port is bound to engine `n` (R148). -/
def StrandSt.vBound (st : StrandSt) (n : Nat) : Bool :=
  (List.range 4).any fun k => st.bit Reg.SW_VCFG (16 + k) && st.fld Reg.SW_VCFG (4 * k + 3) (4 * k) == n

/-- Whether an enabled tracker takes its observations from engine `n` (R192). -/
def StrandSt.trkBound (st : StrandSt) (n : Nat) : Bool :=
  (List.range 4).any fun i =>
    st.bit (Reg.TRK_CFG i) 31 && st.bit (Reg.TRK_CFG i) 29 && st.fld (Reg.TRK_CFG i) 27 24 == n

/-- A core or host write of BEAD_TXQ (R64, R65, R67, R148). -/
def StrandSt.txqWrite (st : StrandSt) (n : Nat) (w : Word) : StrandSt :=
  if st.txDepth n = 0 || st.vBound n then st.flag (Reg.BEAD_FLAGS n) 6
  else if st.txDepth n ≤ (st.eng n).txq.length then
    (st.flag (Reg.BEAD_FLAGS n) 3).inc (Reg.BEAD_CNT n + 8 * 4)
  else st.txAppend n w

/-- A master's read of BEAD_RXQ: the word returned and the strand after it; an entry is there from the cycle after its PUSH (R64, R65, R67,
R68, R148, R192). -/
def StrandSt.rxqRead (st : StrandSt) (n : Nat) : Word × StrandSt :=
  if st.rxDepth n = 0 || st.vBound n || st.trkBound n then (0, st.flag (Reg.BEAD_FLAGS n) 6)
  else match (st.eng n).rxq with
    | [] => (0, st.flag (Reg.BEAD_FLAGS n) 4)
    | q :: rest =>
      if st.now < q.ready then (0, st.flag (Reg.BEAD_FLAGS n) 4)
      else (q.word, st.updEng n fun e => { e with rxq := rest })

/-! ## Compare unit (R60) -/

/-- CMP, CMP_MASK and CMP_SRC as an engine clock of this cycle takes them: a master's write of the cycle comes after it (R61). -/
structure CmpUnit where
  cmp : Word
  mask : Word
  src : Nat
deriving DecidableEq, Repr

def StrandSt.cmpUnit (st : StrandSt) (n : Nat) : CmpUnit :=
  match st.thisCyc.cmp0.get none n with
  | some x => ⟨x.1, x.2.1, x.2.2⟩
  | none => ⟨(st.eng n).cmp, st.rd (Reg.BEAD_CMP_MASK n), st.fld (Reg.BEAD_CMPCFG n) 2 0⟩

/-- A master is about to write the compare unit of engine `n`. -/
def StrandSt.noteCmp (st : StrandSt) (n : Nat) : StrandSt :=
  let u := st.cmpUnit n
  st.inCyc fun y => { y with cmp0 := y.cmp0.set none n (some (u.cmp, u.mask, u.src)) }

/-- A master's write of CMP: lost to an engine's of the same cycle (R61). -/
def StrandSt.masterCmp (st : StrandSt) (eng : Nat) (v : Word) : StrandSt :=
  if st.thisCyc.cmpE.contains eng then st.flag (Reg.BEAD_FLAGS eng) 11
  else ((st.noteCmp eng).updEng eng fun e => { e with cmp := v }).inCyc fun y => { y with cmpM := eng :: y.cmpM }

/-- CMP_SRC of engine `n`. -/
def StrandSt.cmpSrc (st : StrandSt) (n : Nat) : Nat := (st.cmpUnit n).src

/-- The compare source's value (R60). -/
def StrandSt.cmpValue (st : StrandSt) (n : Nat) : Nat :=
  match st.cmpSrc n with
  | 0 => (st.eng n).isr.toNat
  | 1 => (st.eng n).x.toNat
  | 2 => st.ns
  | 3 => st.angleNow 0
  | 4 => st.angleNow 1
  | 5 => st.angleNow 2
  | 6 => st.angleNow 3
  | _ => 0

/-- EQ of the compare unit; a CMP of 10^9 or more never matches the nanoseconds (R60). -/
def StrandSt.cmpEq (st : StrandSt) (n : Nat) : Bool :=
  let m := (st.cmpUnit n).mask.toNat
  let c := (st.cmpUnit n).cmp.toNat
  if st.cmpSrc n = 2 && 10 ^ 9 ≤ c then false else (st.cmpValue n &&& m) == (c &&& m)

/-- REACHED of the compare unit (R60). -/
def StrandSt.cmpReached (st : StrandSt) (n : Nat) : Bool :=
  let v := st.cmpValue n
  let c := (st.cmpUnit n).cmp.toNat
  match st.cmpSrc n with
  | 0 => st.cmpEq n
  | 1 => st.cmpEq n
  | 2 => decide (c < 10 ^ 9) && decide ((v + 10 ^ 9 - c) % 10 ^ 9 < 5 * 10 ^ 8)
  | _ => decide ((v + 2 ^ 32 - c) % 2 ^ 32 ≤ 2 ^ 31 - 1)

/-! ## CRC accumulator (R62, R63) -/

/-- One entry of the CRC table. -/
structure CrcEntry where
  width : Nat
  poly : Nat
  init : Nat
  refin : Bool
  refout : Bool
  xorout : Nat
deriving DecidableEq, Repr

/-- The entry POLY_SEL selects (R62). -/
def StrandSt.crcEntry (st : StrandSt) (n : Nat) : CrcEntry :=
  match st.fld (Reg.BEAD_CRCCFG n) 2 0 with
  | 0 => ⟨32, 0x04C11DB7, 0xFFFFFFFF, true, true, 0xFFFFFFFF⟩
  | 1 => ⟨16, 0x1021, 0xFFFF, false, false, 0⟩
  | 2 => ⟨17, 0x1685B, 0x10000, false, false, 0⟩
  | 3 => ⟨21, 0x102899, 0x100000, false, false, 0⟩
  | 4 => ⟨8, 0, 0, false, false, 0⟩
  | k =>
    let j := k - 5
    let w := st.fld (Reg.BEAD_CRCU_PARAM n j) 5 0
    ⟨w, (st.rd (Reg.BEAD_CRCU_POLY n j)).toNat % 2 ^ w, (st.rd (Reg.BEAD_CRCU_INIT n j)).toNat % 2 ^ w,
      st.bit (Reg.BEAD_CRCU_PARAM n j) 6, st.bit (Reg.BEAD_CRCU_PARAM n j) 7, (st.rd (Reg.BEAD_CRCU_XOR n j)).toNat % 2 ^ w⟩

/-- One bit fed to a CRC register in normal form (R63). -/
def CrcEntry.feedBit (c : CrcEntry) (acc : Nat) (b : Bool) : Nat :=
  let top := bitN acc (c.width - 1)
  let sh := (2 * acc) % 2 ^ c.width
  if xor top b then sh ^^^ c.poly else sh

/-- The bits of an octet in the order REFIN gives them (R63). -/
def octetBits (refin : Bool) (o : Nat) : List Bool :=
  let up := (List.range 8).map (bitN o)
  if refin then up else up.reverse

/-- One octet fed to the accumulator; entry 4 sums octets (R62, R63). -/
def CrcEntry.feedOctet (c : CrcEntry) (sum : Bool) (acc o : Nat) : Nat :=
  if sum then (acc + o) % 256 else (octetBits c.refin o).foldl c.feedBit acc

/-- The finished value of an accumulator: REFOUT, then XOROUT (R63). -/
def CrcEntry.final (c : CrcEntry) (acc : Nat) : Nat :=
  ((if c.refout then revBits c.width (acc % 2 ^ c.width) else acc % 2 ^ c.width) ^^^ c.xorout) % 2 ^ c.width

/-- What BEAD_CRC_FINAL reads (R63). -/
def StrandSt.crcFinal (st : StrandSt) (n : Nat) : Nat := (st.crcEntry n).final (st.eng n).crc.toNat

/-- The strand with engine `n`'s accumulator loaded with the entry's initial value (R63). -/
def StrandSt.crcLoad (st : StrandSt) (n : Nat) : StrandSt :=
  st.updEng n fun e => { e with crc := BitVec.ofNat 32 (st.crcEntry n).init }

/-- The CRC-32 entry used by frame checks (R62 entry 0). -/
def crc32Entry : CrcEntry := ⟨32, 0x04C11DB7, 0xFFFFFFFF, true, true, 0xFFFFFFFF⟩

/-- CRC-32 of a byte list (IEEE 802.3 FCS). -/
def crc32 (bs : List Byte) : Nat :=
  crc32Entry.final (bs.foldl (fun a b => crc32Entry.feedOctet false a b.toNat) crc32Entry.init)

/-! ## Octets of a shift register (R100, R102) -/

/-- Octet `i` of a 32-bit register, from bit 0 upward or, with the direction bit set, from bit 31 downward (R100). -/
def regOctet (dir : Bool) (w : Word) (i : Nat) : Nat :=
  if dir then bitsN w.toNat (31 - 8 * i) (24 - 8 * i) else bitsN w.toNat (8 * i + 7) (8 * i)

/-! ## The divider (R51, R52) -/

/-- DIV_INT, with 0 for 65,536, and DIV_FRAC of engine `n`. -/
def StrandSt.divInt (st : StrandSt) (n : Nat) : Nat := let i := st.fld (Reg.BEAD_DIV n) 23 8; if i = 0 then 65536 else i
def StrandSt.divFrac (st : StrandSt) (n : Nat) : Nat := st.fld (Reg.BEAD_DIV n) 7 0

/-- Cycles from the present one to engine `n`'s `k`-th engine clock after it, `k` from 1: intervals of DIV_INT cycles, one longer where
the fraction carries (R51). -/
def StrandSt.clockIn (st : StrandSt) (n k : Nat) : Nat :=
  (st.eng n).left + (k - 1) * st.divInt n + ((st.eng n).acc + (k - 1) * st.divFrac n) / 256

/-- Engine clocks of engine `n` in the next `c` cycles. -/
def StrandSt.clocksIn (st : StrandSt) (n c : Nat) : Nat :=
  if c < (st.eng n).left then 0
  else 1 + (256 * (c - (st.eng n).left + 1) - (st.eng n).acc - 1) / (256 * st.divInt n + st.divFrac n)

/-- The divider restarted: the next engine clock falls 2 cycles later (R52).  (DEDUCED, unsafe: log entry 20.) -/
def StrandSt.divRestart (st : StrandSt) (n : Nat) : StrandSt := st.updEng n fun e => { e with left := 2, acc := 0 }

/-! ## Starting and stopping (R56, R72 to R75) -/

/-- A Bangle start counts as missed, at the engine (R75). -/
def StrandSt.startMissed (st : StrandSt) (n : Nat) : StrandSt := (st.flag (Reg.BEAD_FLAGS n) 8).inc (Reg.BEAD_CNT n + 8 * 6)

/-- A Bangle start counts as missed, at Bangle (R201). -/
def StrandSt.bangleMissed (st : StrandSt) : StrandSt := (st.flag Reg.BNG_FLAGS 2).inc (Reg.BNG_CNT + 8 * 24)

/-- The start of engine `m` in this cycle undone: the engine and its claims are as they were (R56, R75). -/
def StrandSt.undoStart (st : StrandSt) (m : Nat) : StrandSt :=
  match st.thisCyc.begun.get none m with
  | none => st
  | some b =>
    let bp := b.pins.foldl (fun (x : BpPins) p => { x with own := x.own.set none p none, drv := x.drv.set none p none }) st.bp
    let bp := if b.lane then { bp with lane := bp.lane.set none (st.outLane m) none } else bp
    (({ st with bp := bp } : StrandSt).updEng m fun e =>
      { e with state := .stopped, pc := b.pc, osrCnt := b.osrCnt, isrCnt := b.isrCnt, stallCause := b.stallCause, left := b.left,
               acc := b.acc, crc := b.crc, stepping := 0, stopPend := false }).inCyc
      fun y => { y with begun := y.begun.set none m none }

/-- Engine `m` loses the claims of its start of this cycle to a lower-numbered engine (R56, R75). -/
def StrandSt.loseClaim (st : StrandSt) (m : Nat) : StrandSt :=
  let byBangle := match st.thisCyc.begun.get none m with
    | some b => b.bangle
    | none => false
  let st := ((st.undoStart m).updEng m fun e => { e with stopCause := 3 }).flag (Reg.BEAD_FLAGS m) 5
  if byBangle then (st.startMissed m).bangleMissed else st

/-- A START or STEP that the engine accepts: claims, PC, counters, divider, RUNNING; or a refused claim (R56, R72).
The Boolean is false where the claim was refused.  (DEDUCED, unsafe: log entry 20.) -/
def StrandSt.startEngine (st : StrandSt) (n : Nat) (resume step bangle : Bool) : Bool × StrandSt :=
  if st.claimConflict n then
    (false, (st.updEng n fun e => { e with stopCause := 3 }).flag (Reg.BEAD_FLAGS n) 5)
  else
    let st := (st.claimHolders n).foldl (fun s m => s.loseClaim m) st
    let e := st.eng n
    let b : Begun :=
      { bangle := bangle, pc := e.pc, osrCnt := e.osrCnt, isrCnt := e.isrCnt, stallCause := e.stallCause, left := e.left, acc := e.acc,
        crc := e.crc, pins := (st.claimPins n).filter fun p => st.bp.own.get none p == none,
        lane := st.outKind n && st.bp.lane.get none (st.outLane n) == none }
    let st1 := ((st.claim n).updEng n fun e =>
      { e with state := .running, pc := st.fld (Reg.BEAD_CTL n) 5 0, stepping := b2n step, stallCause := 0, dly := 0, due := false,
               stopPend := false, sync := .idle, stamp := none,
               osrCnt := if resume then e.osrCnt else 0, isrCnt := if resume then e.isrCnt else 0 }).inCyc
      fun y => { y with begun := y.begun.set none n (some b) }
    (true, (if resume then st1 else st1.crcLoad n).divRestart n)

/-- START or STEP by a master: accepted while STOPPED and not marked UNAVAIL (R72, R81). -/
def StrandSt.cmdStart (st : StrandSt) (n : Nat) (resume step : Bool) : StrandSt :=
  let e := st.eng n
  if e.state != .stopped || e.unavail then st.flag (Reg.BEAD_FLAGS n) 2
  else (st.startEngine n resume step false).2

/-- A Bangle start action: the Boolean says it was missed, a master command of the same cycle among the causes (R75). -/
def StrandSt.bangleStart (st : StrandSt) (n : Nat) : Bool × StrandSt :=
  let e := st.eng n
  if st.bit (Reg.BEAD_CTL n) 13 && e.state == .stopped && !e.unavail && !st.thisCyc.cmds.contains n then
    let r := st.startEngine n false false true
    if r.1 then (false, r.2) else (true, r.2.startMissed n)
  else (true, st.startMissed n)

/-- A master command of R75 reaches engine `n`: a Bangle start of this cycle counts as missed. -/
def StrandSt.meetBangle (st : StrandSt) (n : Nat) : StrandSt :=
  let st := st.inCyc fun y => { y with cmds := n :: y.cmds }
  match st.thisCyc.begun.get none n with
  | some b => if b.bangle then ((st.undoStart n).startMissed n).bangleMissed else st
  | none => st

/-- STOP by a master (R72): pending in every state but STOPPED. -/
def StrandSt.cmdStop (st : StrandSt) (n : Nat) : StrandSt :=
  st.updEng n fun e => if e.state = .stopped then e else { e with stopPend := true }

/-- The engine stops, keeping its registers, queues and claims (R74). -/
def StrandSt.stopEngine (st : StrandSt) (n cause : Nat) : StrandSt :=
  st.updEng n fun e => { e with state := .stopped, stopCause := cause, stopPend := false, dly := 0, due := false, stepping := 0,
                                sync := .idle, stamp := none }

/-- QFLUSH: accepted while STOPPED (R66, R72). A chained queue belongs to the even engine (R65). -/
def StrandSt.cmdQflush (st : StrandSt) (n : Nat) : StrandSt :=
  if (st.eng n).state = .stopped then st.emptyQueues n else st.flag (Reg.BEAD_FLAGS n) 2

/-- PIN_RELEASE: accepted while STOPPED (R56, R72). -/
def StrandSt.cmdPinRelease (st : StrandSt) (n : Nat) : StrandSt :=
  if (st.eng n).state = .stopped then st.releaseClaims n else st.flag (Reg.BEAD_FLAGS n) 2

/-- EVT bits of engine `n` as an engine clock of this cycle finds them: a set or a clear of the cycle comes after it (R106). -/
def StrandSt.evtBefore (st : StrandSt) (n : Nat) : Nat := (st.thisCyc.evt.get none n).getD (st.fld (Reg.BEAD_EVT n) 3 0)
def StrandSt.evt (st : StrandSt) (n k : Nat) : Bool := bitN (st.evtBefore n) k

/-- EVT bits of engine `n` are about to change. -/
def StrandSt.noteEvt (st : StrandSt) (n : Nat) : StrandSt :=
  st.inCyc fun y => { y with evt := y.evt.set none n (some (st.evtBefore n)) }

/-- EVT[k] of engine `n` is consumed; a set of the same cycle leaves it set (R76). -/
def StrandSt.evtTake (st : StrandSt) (n k : Nat) : StrandSt :=
  (st.noteEvt n).putBit (Reg.BEAD_EVT n) k (bitN (st.kept (Reg.BEAD_EVT n)) k)

/-- The strand with EVT[k] of engine `n` set; a SYNC that watches it consumes it in the same cycle (R76, R104). -/
def StrandSt.evtSet (st : StrandSt) (n k : Nat) : StrandSt :=
  let set := fun (s : StrandSt) => (s.noteEvt n).flag (Reg.BEAD_EVT n) k
  match (st.eng n).sync with
  | .watching j =>
    if j = k then (st.updEng n fun e => { e with sync := .hit, due := false }).divRestart n else set st
  | _ => set st

/-- The strand with every EVT bit of the mask set (R76). -/
def StrandSt.evtSetMask (st : StrandSt) (n mask : Nat) : StrandSt :=
  (List.range 4).foldl (fun s k => if bitN mask k then s.evtSet n k else s) st

/-- A write of BEAD_CMD as a whole (R72, R73): QFLUSH, PIN_RELEASE, DIV_RESTART, SNAP and EVT_SET act in this order, before START or STEP,
so that PIN_RELEASE with START claims anew.  (DESIGN CHOICE, unsafe: log entry 170.) -/
def StrandSt.beadCmd (st : StrandSt) (n v : Nat) : StrandSt :=
  let go := bitN v 0
  let stop := bitN v 1
  let step := bitN v 2
  let st := if go || stop || step || bitN v 4 || bitN v 5 then st.meetBangle n else st
  let st := if bitN v 4 then st.cmdQflush n else st
  let st := if bitN v 5 then st.cmdPinRelease n else st
  let st := if bitN v 7 then st.divRestart n else st
  let st := if bitN v 6 then st.snapRange (Reg.BEAD_CNT n) (Reg.BEAD_CNT n + 56) else st
  let st := st.evtSetMask n (bitsN v 11 8)
  if stop then (if go || step then (st.cmdStop n).flag (Reg.BEAD_FLAGS n) 2 else st.cmdStop n)
  else if go && step then st.flag (Reg.BEAD_FLAGS n) 2
  else if go then st.cmdStart n (bitN v 3) false
  else if step then st.cmdStart n (bitN v 3) true
  else st

/-! ## The frame of one instruction (R70, R71, R79, R86 to R89) -/

/-- What an instruction did at its engine clock: completed, with the address PC takes where it jumps; blocked as STALLED with
a cause, or as WAITING; or found no queue (R64). -/
inductive BeadRes where
  | done (st : StrandSt) (jump : Option Nat)
  | stall (st : StrandSt) (cause : Nat)
  | wait (st : StrandSt)
  | noQueue (st : StrandSt)

/-- Side-set of a completing instruction (R55, R88). -/
def StrandSt.sideSet (st : StrandSt) (n : Nat) (sse : Bool) (ss : Nat) : StrandSt :=
  if st.sideEn n && sse then
    (st.drivePin (st.sideBase n) (bitN ss 0)).drivePin (st.sideBase n + 1) (bitN ss 1)
  else st

/-- The fetch at this engine clock fails and is refetched clean: the instruction executes a cycle later (R79). -/
def StrandSt.fetchRetry (st : StrandSt) (n : Nat) : StrandSt :=
  (((st.updEng n fun e => { e with due := false }).inc (Reg.BEAD_CNT n + 8 * 5)).flag (Reg.BEAD_FLAGS n) 7).reportOnce
    0x0204 .transient n [st.env.sid, n]

/-- The fetch fails twice: the engine stops with its claimed pins safe, and the word fails until it is written anew (R79). -/
def StrandSt.fetchFail (st : StrandSt) (n : Nat) : StrandSt :=
  let st := st.updEng n fun e => { e with bad := e.bad.set false e.pc true }
  ((((st.inc (Reg.BEAD_CNT n + 8 * 5)).flag (Reg.BEAD_FLAGS n) 7).stopEngine n 5).undrive n).report 0x0202 .lasting [st.env.sid, n]

/-- Engine `n` executes or retries an instruction (R70, R71, R74, R79, R87).  (DESIGN CHOICE, safe: log entry 21.) -/
def StrandSt.beadClock (st : StrandSt) (n : Nat) (sse : Bool) (ss dly : Nat) (body : StrandSt → BeadRes) : StrandSt :=
  let e := st.eng n
  if e.state = .stopped then st
  else
    match body (st.updEng n fun x => { x with due := false }) with
    | .done s jump =>
      let s := (s.sideSet n sse ss).inc (Reg.BEAD_CNT n + 8)
      let s := s.updEng n fun x =>
        { x with state := .running, pc := jump.getD ((e.pc + 1) % 64), dly := dly, stamp := none, sync := .idle,
                 stallCause := if e.state = .stalled then 0 else x.stallCause,
                 stepping := if e.stepping = 1 then 2 else 0 }
      if e.stepping = 1 && dly == 0 then s.stopEngine n 2 else s
    | .stall s cause =>
      if e.state = .stalled then s
      else ((s.updEng n fun x => { x with state := .stalled, stallCause := cause }).flag (Reg.BEAD_FLAGS n) 12).inc
        (Reg.BEAD_CNT n + 8 * (1 + cause))
    | .wait s => s.updEng n fun x => { x with state := .waiting }
    | .noQueue s => (s.stopEngine n 4).flag (Reg.BEAD_FLAGS n) 6

/-- Cycles from the present one to the engine clock at which engine `n` executes next, or stops: none where the present cycle is one (R51, R72, R87). -/
def StrandSt.nextExec (st : StrandSt) (n : Nat) : Nat :=
  let e := st.eng n
  if e.state = .stopped || e.due then 0
  else st.clockIn n (if e.stopPend then 1 else if e.stepping = 2 then max 1 e.dly else e.dly + 1)

/-- Engine `n` after `c` cycles in which it executes nothing: its divider counts, delay clocks pass, a pending STOP or the end of a STEP
stops it at its engine clock, and the cycles of a stall are counted (R51, R52, R70, R72, R87). -/
def StrandSt.enginePass (st : StrandSt) (n c : Nat) : StrandSt :=
  let e := st.eng n
  if e.state = .stopped then st
  else
    let k := st.clocksIn n c
    let j := if e.stopPend then 1 else if e.stepping = 2 then max 1 e.dly else 0
    let stall := fun (s : StrandSt) (m : Nat) => if e.state = .stalled then s.addCnt (Reg.BEAD_CNT n) m else s
    if 0 < j && j ≤ k then (stall st (st.clockIn n j)).stopEngine n (if e.stopPend then 1 else 2)
    else
      (stall st c).updEng n fun x =>
        { x with left := st.clockIn n (k + 1) - c, acc := (x.acc + k * st.divFrac n) % 256, dly := x.dly - k,
                 due := decide (x.dly < k) && st.clockIn n k == c }

end Sys2Proof.Machine
end

