-- ==== Sys2Proof/Machine/BangleOps.lean ====
section
/-! DEFINITION. Bangle: trackers, observations, the loop, the occurrences of an entry and the predictor (R191 to R207, R510). -/

namespace Sys2Proof.Machine

/-! ## Entries and their occurrences (R200, R510) -/

/-- Running state of event entry `k`. -/
def StrandSt.ent (st : StrandSt) (k : Nat) : EvtEnt := st.bng.ent.get {} k

/-- The strand with the running state of entry `k` replaced. -/
def StrandSt.setEnt (st : StrandSt) (k : Nat) (e : EvtEnt) : StrandSt :=
  { st with bng := { st.bng with ent := st.bng.ent.set {} k e } }

/-- The tracker of entry `k`. -/
def StrandSt.evtTrk (st : StrandSt) (k : Nat) : Nat := st.fld (Reg.EVT_W3 k) 30 29

/-- One turn in au. -/
def turn : Int := 2 ^ 32

/-- What the rules of R200 need of an entry: rule, N, target, and the residue turn of a running EVERY_NTH series. -/
structure Rep where
  rule : Nat
  n : Nat
  target : Nat
  series : Option Int
deriving DecidableEq, Repr

/-- The rule of entry `k` as its words stand. -/
def StrandSt.evtRep (st : StrandSt) (k : Nat) : Rep :=
  ⟨st.fld (Reg.EVT_W2 k) 11 10, st.fld (Reg.EVT_W2 k) 9 0, (st.rd (Reg.EVT_W0 k)).toNat, (st.ent k).series⟩

/-- A 64-bit angle (R191). -/
def ang64 (x : Int) : Int := x % 2 ^ 64

/-- How far angle `b` lies above `a`, by serial arithmetic (R7, R191). -/
def angDiff (a b : Int) : Int := signedN 64 (wrapN 64 (b - a))

/-- The first turn from `n` on, upward, whose count modulo 2^32 is congruent to `m` modulo `N` (R200, R191). -/
def turnUp (n m : Int) (k : Nat) : Int :=
  let w := n % turn
  let c := w + (m - w) % (k : Int)
  if c < turn then n + (c - w) else n + (turn - w) + m % (k : Int)

/-- The same downward. -/
def turnDown (n m : Int) (k : Nat) : Int :=
  let w := n % turn
  let c := w - (w - m) % (k : Int)
  if 0 ≤ c then n - (w - c) else n - w - 1 - (turn - 1 - m) % (k : Int)

/-- The least occurrence angle above `base`, with its index j (R200, R510). -/
def Rep.above (r : Rep) (base : Int) : Int × Nat :=
  let n0 := (base - r.target) / turn + 1
  if r.rule = 3 && r.n != 0 then
    let x := base - r.target + 1
    let j := ceilDiv ((x % turn).toNat * r.n) (2 ^ 32)
    if j = r.n then ((x / turn + 1) * turn + r.target, 0)
    else (x / turn * turn + r.target + (j * 2 ^ 32 / r.n : Nat), j)
  else match r.rule, r.series with
    | 2, some m => (turnUp n0 m (max 1 r.n) * turn + r.target, 0)
    | _, _ => (n0 * turn + r.target, 0)

/-- The greatest occurrence angle below `base`, with its index j (R200, R510). -/
def Rep.below (r : Rep) (base : Int) : Int × Nat :=
  let x := base - 1 - r.target
  let n0 := x / turn
  if r.rule = 3 && r.n != 0 then
    let j := min (r.n - 1) (ceilDiv (((x % turn).toNat + 1) * r.n) (2 ^ 32) - 1)
    (n0 * turn + r.target + (j * 2 ^ 32 / r.n : Nat), j)
  else match r.rule, r.series with
    | 2, some m => (turnDown n0 m (max 1 r.n) * turn + r.target, 0)
    | _, _ => (n0 * turn + r.target, 0)

/-- The occurrence next to `base` in the direction of a rate's sign (R510). -/
def Rep.next (r : Rep) (sign base : Int) : Int × Nat :=
  let x := if sign < 0 then r.below base else r.above base
  (ang64 x.1, x.2)

/-- The least integer at or above the quotient of `a` by `b`, for `b` not 0. -/
def ceilQuot (a b : Int) : Int := if b < 0 then -(a / -b) else -(-a / b)

/-- Fire time, in 2^-32 ns of strand time, of an occurrence at angle `ang` at rate `w` (R200). -/
def Tracker.fireTime (t : Tracker) (ang w : Int) (lead : Nat) : Int :=
  t.tref + (ceilQuot (angDiff t.theta ang * turn) w - lead) * nsUnit

/-- The bound of R203 on the angles that realignment may choose: only an angle beyond it has a fire time after `lim`. -/
def Tracker.beyond (t : Tracker) (w : Int) (lead : Nat) (lim : Int) : Int :=
  let f := (lim + (lead * nsUnit : Nat) - t.tref) / nsUnit
  if w < 0 then t.theta + ceilQuot (w * f) turn else t.theta + w * f / turn

/-- The first occurrence after the entry's last one whose fire time lies after `lim` (R203, R205, R510). -/
def Rep.realign (r : Rep) (t : Tracker) (last : Option Int) (w : Int) (lead : Nat) (lim : Int) : Int × Nat :=
  let b := t.beyond w lead lim
  let from' := match last with
    | some l => t.theta + angDiff t.theta l
    | none => t.theta
  r.next w (if w < 0 then min from' b else max from' b)

/-- E.last becomes E.next and E.next the following occurrence; a ONCE entry disables itself (R203). -/
def StrandSt.evtAdvance (st : StrandSt) (k : Nat) : StrandSt :=
  let e := st.ent k
  if st.fld (Reg.EVT_W2 k) 11 10 = 0 then
    (st.setEnt k { tf := e.tf, nom := e.nom }).putBit (Reg.EVT_W3 k) 31 false
  else match e.next with
    | none => st.setEnt k { e with state := .pending }
    | some n =>
      st.setEnt k { e with state := .pending, last := some n.1, next := some ((st.evtRep k).next (e.sign.getD 1) n.1) }

/-- REALIGN for every enabled entry of tracker `i` (R205). -/
def StrandSt.realignAll (st : StrandSt) (i : Nat) : StrandSt :=
  st.bng.ent.cells.foldl (fun (s : StrandSt) (c : Nat × EvtEnt) =>
    if c.2.state != .idle && s.evtTrk c.1 == i then s.setEnt c.1 { s.ent c.1 with realign := true } else s) st

/-! ## Observations (R192 to R194) -/

/-- A submission by the core (R192, R194 cause 6). -/
def StrandSt.obsSubmit (st : StrandSt) (i : Nat) (value : Word) : StrandSt :=
  let t := st.trk i
  if st.bit (Reg.TRK_CFG i) 29 || t.state = .off then st
  else if 4 ≤ t.fifo.length then (st.put (Reg.TRK_STATUS i) 10 8 6).inc (Reg.BNG_CNT + 8 * (4 * i + 2))
  else st.setTrk i { t with fifo := t.fifo ++ [⟨t.obsNs, t.obsS, value, 0⟩] }

/-- Bangle takes words of the bound engine's RX queue, up to the end of one group of three (R192). -/
def StrandSt.obsTake (st : StrandSt) (i : Nat) : StrandSt :=
  let t := st.trk i
  let n := st.fld (Reg.TRK_CFG i) 27 24
  if !st.bit (Reg.TRK_CFG i) 29 || t.state = .off || 4 ≤ t.fifo.length then st
  else
    let got := ((st.eng n).rxq.takeWhile fun q => decide (q.ready ≤ st.now)).take (3 - t.part.length)
    let st := st.updEng n fun e => { e with rxq := e.rxq.drop got.length }
    match t.part ++ got with
    | [a, b, c] => st.setTrk i { t with part := [], fifo := t.fifo ++ [⟨a.word, b.word, c.word, a.adj⟩] }
    | more => st.setTrk i { t with part := more }

/-- Full time of an observation in 2^-32 ns (R194, R210). -/
def StrandSt.obsTime (st : StrandSt) (o : Obs) : Int :=
  let s := st.time.sec / 2 ^ 32 * 2 ^ 32 + o.sec.toNat
  let t : Int := ((s * secUnit + fieldOf o.ns 29 0 * nsUnit : Nat) : Int) + o.adj
  if (st.t32 : Int) < t then t - (2 ^ 32 * secUnit : Nat) else t

/-- The first cause of R194 that rejects an observation, 0 where none does. -/
def StrandSt.obsReject (st : StrandSt) (i : Nat) (o : Obs) : Nat :=
  let t := st.obsTime o
  if 10 ^ 9 ≤ fieldOf o.ns 29 0 || bitOf o.ns 30 then 1
  else if (st.t32 : Int) < t then 2
  else if ((st.fld (Reg.TRK_MAXAGE i) 23 0 * 1000 * nsUnit : Nat) : Int) < (st.t32 : Int) - t then 3
  else if t ≤ (st.trk i).tref then 4
  else if bitOf o.ns 31 && st.bit (Reg.TRK_CFG i) 30 then 5
  else 0

/-- The angle of an observation's value (R193). -/
def StrandSt.obsAngle (st : StrandSt) (i : Nat) (o : Obs) : Nat :=
  ((st.rd (Reg.TRK_ANG_OFS i)).toNat + o.value.toNat * (st.rd (Reg.TRK_STEP_AU i)).toNat) % 2 ^ 32

/-! ## The loop (R196 to R198) -/

/-- A rate register, Q16.16 au/ns, as Q32.32. -/
def StrandSt.rate32 (st : StrandSt) (off : Nat) : Int := signedN 32 (st.rd off).toNat * 2 ^ 16

/-- Gains as exact quotients of Q0.16 values and the plausibility window. -/
structure Gain where
  k1 : Int
  k2 : Int
  den : Int
  plaus : Nat
deriving DecidableEq, Repr

/-- The gains and window at rate `w` (R196). -/
def StrandSt.gain (st : StrandSt) (i : Nat) (w : Int) : Gain :=
  let npts := st.fld (Reg.TRK_CFG i) 18 16
  let k1 := fun j => (st.fld (Reg.GAIN_K i j) 31 16 : Int)
  let k2 := fun j => (st.fld (Reg.GAIN_K i j) 15 0 : Int)
  let pl := fun j => (st.rd (Reg.GAIN_PLAUS i j)).toNat
  let r := fun j => st.rate32 (Reg.GAIN_RATE i j)
  if w ≤ r 0 then ⟨k1 0, k2 0, 1, pl 0⟩
  else if r npts ≤ w then ⟨k1 npts, k2 npts, 1, pl npts⟩
  else
    let j := ((List.range npts).filter fun j => decide (r j ≤ w)).getLastD 0
    let den := r (j + 1) - r j
    ⟨k1 j * den + (w - r j) * (k1 (j + 1) - k1 j), k2 j * den + (w - r j) * (k2 (j + 1) - k2 j), den, pl j⟩

/-- The lock check of R192 and R196 for tracker `i`: its rates, its limits and its engine, which serves one tracker in use. -/
def StrandSt.trkCfgOk (st : StrandSt) (i : Nat) : Bool :=
  let npts := st.fld (Reg.TRK_CFG i) 18 16
  let n := st.fld (Reg.TRK_CFG i) 27 24
  let uses := fun (k : Nat) => st.bit (Reg.TRK_CFG k) 31 && st.bit (Reg.TRK_CFG k) 29
  (List.range npts).all (fun j => st.rate32 (Reg.GAIN_RATE i j) < st.rate32 (Reg.GAIN_RATE i (j + 1))) &&
  decide (st.rate32 (Reg.TRK_RATE_MIN i) < st.rate32 (Reg.TRK_RATE_MAX i)) &&
  (!st.bit (Reg.TRK_CFG i) 29 || (st.rxDepth n != 0 && !st.vBound n)) &&
  (!uses i || (List.range 4).all fun k => k == i || !uses k || st.fld (Reg.TRK_CFG k) 27 24 != n)

/-- Bangle's part of the configuration lock: every tracker is checked, and every bit of BNG_PINLVL loaded (R192, R196, R202). -/
def StrandSt.bangleLock (st : StrandSt) : StrandSt :=
  let lvl := (List.range 24).foldl (fun (w : Word) p => setBit w p (st.bit (Reg.BP_PAD p) 2)) 0
  (List.range 4).foldl (fun (s : StrandSt) i =>
    if s.trkCfgOk i then s
    else ((s.setTrk i { s.trk i with refused := true }).flag Reg.BNG_FLAGS 4).report 0x0803 .lasting [i]) (st.wr Reg.BNG_PINLVL lvl)

/-- leave_valid (R198). -/
def StrandSt.leaveValid (st : StrandSt) (i cause : Nat) : StrandSt :=
  let st := st.setTrk i { st.trk i with state := .warmup, agree := 0 }
  let st := ((st.put (Reg.TRK_STATUS i) 6 4 cause).flag Reg.BNG_FLAGS 0).inc (Reg.BNG_CNT + 8 * (4 * i + 3))
  (st.report 0x0801 .transient [i, cause]).realignAll i

/-- A tracker becomes VALID (R197, R205). -/
def StrandSt.becomeValid (st : StrandSt) (i : Nat) : StrandSt :=
  (st.setTrk i { st.trk i with state := .valid, agree := 3, misses := 0 }).realignAll i

/-- Whether a rate lies within RATE_MIN and RATE_MAX. -/
def StrandSt.rateOk (st : StrandSt) (i : Nat) (w : Int) : Bool :=
  decide (st.rate32 (Reg.TRK_RATE_MIN i) ≤ w) && decide (w ≤ st.rate32 (Reg.TRK_RATE_MAX i))

/-- `apply` of R197 for an observation at time `t` (2^-32 ns) with angle `phi`.  (DEDUCED, unsafe: log entry 43.) -/
def StrandSt.obsApply (st : StrandSt) (i : Nat) (t : Int) (phi : Nat) (unc : Bool) : StrandSt :=
  let k := st.trk i
  let dt := t - k.tref
  let predQ := k.theta * turn + k.omega * dt / nsUnit
  let pred := predQ / turn
  let e := signedN 32 (wrapN 32 ((phi : Int) - pred))
  let g := st.gain i k.omega
  let st := st.wr (Reg.TRK_LAST_E i) (BitVec.ofNat 32 (wrapN 32 e))
  let accept := fun (s : StrandSt) => (s.putBit (Reg.TRK_STATUS i) 11 unc).inc (Reg.BNG_CNT + 8 * (4 * i))
  if k.state = .valid then
    if g.plaus < e.natAbs then
      let st := (st.setTrk i { k with misses := k.misses + 1 }).inc (Reg.BNG_CNT + 8 * (4 * i + 1))
      if st.fld (Reg.TRK_CFG i) 15 8 ≤ k.misses + 1 then st.leaveValid i 1 else st
    else
      let theta := (predQ + g.k1 * e * 2 ^ 16 / g.den) / turn
      let omega := k.omega + g.k2 * e * 2 ^ 16 * nsUnit / (g.den * dt)
      let st := st.setTrk i { k with misses := 0, theta := ang64 theta, omega := omega, tref := t }
      accept (if st.rateOk i omega then st else st.leaveValid i 3)
  else
    let omega := if 1 ≤ k.agree then k.omega + e * turn * nsUnit / dt else k.omega
    let st1 := st.setTrk i { k with theta := ang64 (pred + e), omega := omega, tref := t, agree := min (k.agree + 1) 2 }
    accept (if k.agree = 2 && decide (e.natAbs ≤ g.plaus) && st.rateOk i omega then st1.becomeValid i else st1)

/-- The loop unit takes the head observation of tracker `i`, 8 cycles after the one before it or later (R194, R195).  (DEDUCED, safe: log entry 193.) -/
def StrandSt.obsStep (st : StrandSt) (i : Nat) : StrandSt :=
  let t := st.trk i
  match t.state, t.fifo with
  | .off, _ => st
  | _, [] => st
  | _, o :: rest =>
    let early := match st.bng.loopAt with
      | some c => decide (st.now < c + 8)
      | none => false
    if early then st
    else
    let st := ({ st with bng := { st.bng with loopAt := some st.now } } : StrandSt).setTrk i { t with fifo := rest }
    let c := st.obsReject i o
    if c = 0 then st.obsApply i (st.obsTime o) (st.obsAngle i o) (bitOf o.ns 31)
    else (st.put (Reg.TRK_STATUS i) 10 8 c).inc (Reg.BNG_CNT + 8 * (4 * i + 2))

/-- TIMEOUT: the time since the last observation of a VALID tracker exceeds TRK_TIMEOUT (R198). -/
def StrandSt.trkTimeout (st : StrandSt) (i : Nat) : StrandSt :=
  let t := st.trk i
  if t.state = .valid && decide (t.tref + (st.fld (Reg.TRK_TIMEOUT i) 15 0 * 10 ^ 6 * nsUnit : Nat) < (st.t32 : Int)) then st.leaveValid i 2
  else st

/-- RESTART for tracker `i` (R198). -/
def StrandSt.trkRestart (st : StrandSt) (i : Nat) : StrandSt :=
  match (st.trk i).state with
  | .off => st
  | .warmup => st.setTrk i { st.trk i with agree := 0 }
  | .valid => st.leaveValid i 4

/-- A read of TRK_ANGLE by a master: the angle, and the latch of rate and turns (R199, R214). -/
def StrandSt.angleRead (st : StrandSt) (m i : Nat) : Word × StrandSt :=
  let t := st.trk i
  let lo := BitVec.ofNat 32 (wrapN 32 t.omega)
  let hi := BitVec.ofNat 32 (wrapN 32 (t.omega / turn))
  let turns := if t.state = .off then 0 else BitVec.ofNat 32 (wrapN 32 (t.at32 st.t32 / turn))
  (BitVec.ofNat 32 (st.angleNow i),
    { st with bng := { st.bng with latch := st.bng.latch.set (0, 0, 0) (4 * m + i) (lo, hi, turns) } })

/-- Bangle's part of the time-base start (R209). -/
def StrandSt.bangleStartTime (st : StrandSt) : StrandSt :=
  (List.range 4).foldl (fun (s : StrandSt) i =>
    let t := s.trk i
    if s.bit (Reg.TRK_CFG i) 31 && !t.refused then
      (s.setTrk i { t with state := .warmup, agree := 0, theta := 0, tref := 0,
                           omega := s.rate32 (Reg.TRK_NOM_RATE i) }).realignAll i
    else s.realignAll i) st

/-! ## The predictor (R203) -/

/-- The sign of a rate. -/
def signOf (w : Int) : Int := if w < 0 then -1 else if w = 0 then 0 else 1

/-- The part of a visit that follows the choice of the rate `w` (R203). -/
def StrandSt.visitAt (st : StrandSt) (k : Nat) (t : Tracker) (w : Int) (nom : Bool) : StrandSt :=
  let lead := st.fld (Reg.EVT_W1 k) 23 0
  let lim : Int := st.t32 + (2000 * nsUnit : Nat)
  let e0 := st.ent k
  let turned := match e0.sign with
    | some g => g != signOf w
    | none => false
  let e := { e0 with held := false, sign := some (signOf w), realign := e0.realign || turned,
                     last := if turned then none else e0.last }
  if w = 0 then st.setEnt k e
  else
    let rep := st.evtRep k
    let occ := if e.realign || e.next.isNone then rep.realign t e.last w lead lim else e.next.getD (0, 0)
    let series := if rep.rule = 2 && e.series.isNone then some (occ.1 / turn) else e.series
    let tf := t.fireTime occ.1 w lead
    let st := if e.realign then st.inc (Reg.BNG_CNT + 8 * 22) else st
    let e := { e with realign := false, next := some occ, series := series, tf := tf }
    let st := st.setEnt k e
    if lim < tf then st
    else if nom && st.fld (Reg.EVT_W2 k) 13 12 = 2 then (st.inc (Reg.BNG_CNT + 8 * 20)).evtAdvance k
    else if tf ≤ st.t32 then
      if st.bit (Reg.EVT_W2 k) 14 then (st.inc (Reg.BNG_CNT + 8 * 18)).evtAdvance k
      else
        let st := ((st.inc (Reg.BNG_CNT + 8 * 17)).flag Reg.BNG_FLAGS 1).reportOnce 0x0802 .transient 0x0802 [k]
        st.setEnt k { e with state := .committed, tf := st.t32 + (nsUnit : Nat), nom := nom }
    else st.setEnt k { e with state := .committed, nom := nom }

/-- A visit of the predictor to entry `k` as it stands (R203, R206, R510). -/
def StrandSt.visitNow (st : StrandSt) (k : Nat) : StrandSt :=
  let e := st.ent k
  let i := st.evtTrk k
  let t := st.trk i
  if e.state != .pending || !st.timeRunning then st
  else match t.state with
    | .off => st
    | .valid => st.visitAt k t t.omega false
    | .warmup =>
      if st.fld (Reg.EVT_W2 k) 13 12 = 0 then st.setEnt k { e with held := true }
      else st.visitAt k t (st.rate32 (Reg.TRK_NOM_RATE i)) true

/-- The words of entry `k`, and the strand with them replaced. -/
def StrandSt.evtWords (st : StrandSt) (k : Nat) : List Word := (List.range 4).map fun w => st.rd (Reg.EVT_W0 k + 4 * w)
def StrandSt.putWords (st : StrandSt) (k : Nat) (ws : List Word) : StrandSt :=
  (List.range 4).foldl (fun (s : StrandSt) w => s.wr (Reg.EVT_W0 k + 4 * w) (ws.getD w 0)) st

/-- A visit of the predictor to entry `k`: in the cycle of a write of its word 3 it sees the entry as it stood before, and an occurrence that it
commits is cancelled by the write (R203, R207). -/
def StrandSt.visit (st : StrandSt) (k : Nat) : StrandSt :=
  match st.thisCyc.evt0.get none k with
  | none => st.visitNow k
  | some (e, ws) =>
    let x := ((st.setEnt k e).putWords k ws).visitNow k
    let x := if e.state != .committed && (x.ent k).state == .committed then x.inc (Reg.BNG_CNT + 8 * 23) else x
    (x.setEnt k (st.ent k)).putWords k (st.evtWords k)

/-! ## Entry writes (R207) -/

/-- A write of word 3 of entry `k` (R207). -/
def StrandSt.evtWrite (st : StrandSt) (k : Nat) (v : Word) : StrandSt :=
  let held := fun w => st.bng.held.get (st.rd (Reg.EVT_W0 k + 4 * w)) (4 * k + w)
  let w2 := held 2
  let clear := fun (s : StrandSt) =>
    ({ s with bng := { s.bng with held := s.bng.held.dropIf fun j => j / 4 == k } } : StrandSt)
  let on := st.bit (Reg.EVT_W3 k) 31
  let bad := (2 ≤ fieldOf w2 11 10 && fieldOf w2 9 0 = 0) || fieldOf w2 13 12 = 3
  if bitOf v 31 && (bad || on) then (clear st).flag Reg.BNG_FLAGS 3
  else
    let st := st.inCyc fun y => { y with evt0 := if (y.evt0.get none k).isSome then y.evt0 else y.evt0.set none k (some (st.ent k, st.evtWords k)) }
    let st1 := ((st.wr (Reg.EVT_W0 k) (held 0)).wr (Reg.EVT_W1 k) (held 1)).wr (Reg.EVT_W2 k) w2
    let st1 := clear (st1.wr (Reg.EVT_W3 k) (v &&& 0xE0000000))
    let e := st.ent k
    if bitOf v 31 then st1.setEnt k { state := .pending, realign := true }
    else if e.state = .committed then (st1.setEnt k {}).inc (Reg.BNG_CNT + 8 * 23)
    else st1.setEnt k {}

end Sys2Proof.Machine
end

