-- ==== Sys2Proof/Machine/BankOps.lean ====
section
/-! DEFINITION. Strand SRAM: who may access a bank, ECC, ownership, power states and remapping (R387 to R399). -/

namespace Sys2Proof.Machine

/-- Bytes of a bank. -/
def bankSize : Nat := 0x20000

/-- Bank and word of a core address. -/
def bankNo (a : Nat) : Nat := a / bankSize
def bankWord (a : Nat) : Nat := a % bankSize / 8

/-- Requester codes of BANK_LAST_ERR (R406). -/
def reqCore : Nat := 0
def reqDma : Nat := 1
def reqBar2 : Nat := 2
def reqLoupe : Nat := 3
def reqMapper : Nat := 6
def reqPatrol : Nat := 7

/-- Fields of BANK_OWNER_k and BANK_STATE_k. -/
def StrandSt.bankOwner (st : StrandSt) (k : Nat) : Nat := st.fld (Reg.BANK_OWNER k) 2 0
def StrandSt.bankHo (st : StrandSt) (k : Nat) : Nat := st.fld (Reg.BANK_OWNER k) 17 16
def StrandSt.bankPwr (st : StrandSt) (k : Nat) : Nat := st.fld (Reg.BANK_STATE k) 3 2

/-- Whether a requester is on port B (R388). -/
def portB (req : Nat) : Bool := decide (4 ≤ req)

/-- The strand with an event in BANK_LAST_ERR (R406).  (DEDUCED, unsafe: log entry 123.) -/
def StrandSt.bankErr (st : StrandSt) (kind req bank word : Nat) : StrandSt :=
  st.wr Reg.BANK_LAST_ERR (BitVec.ofNat 32 (kind * 2 ^ 28 + req * 2 ^ 24 + bank * 2 ^ 16 + word))

/-- Whether an access counts as the owner's (R391). -/
def ownsBank (req owner : Nat) (write : Bool) : Bool :=
  match req with
  | 0 => owner == 1
  | 1 => owner == 2 || owner == 1
  | 2 => owner == 2
  | 3 => !write || owner == 6
  | 6 => owner == 5 || owner == 1
  | _ => true

/-- The power state an access meets, and whether the old owner still holds the bank: an access of the cycle of a PWR write, of a release or of a
change of owner is judged by the start of that cycle (R393, R394, R396). -/
def StrandSt.pwrMet (st : StrandSt) (k : Nat) : Nat :=
  let p := st.banks.pwrAt.get (0, 0, 0) k
  if (st.banks.pwrTo.get none k).isSome && p.1 = st.env.ns then p.2.1 else st.bankPwr k
def StrandSt.held (st : StrandSt) (k : Nat) : Bool := st.bankHo k == 0 || (st.bankHo k == 1 && st.banks.relAt.get 0 k == st.env.ns)

/-- The core accesses the exchange bank while its request to the Loupe is outstanding (R442). -/
def StrandSt.exchanging (st : StrandSt) (req k : Nat) : Bool := req == 0 && st.banks.exch.any fun x => x.bank == k

/-- Judges an access at a core address: power first, then owner (R392, R396, R442). The Boolean says it is served. -/
def StrandSt.bankJudge (st : StrandSt) (req a : Nat) (write : Bool) : Bool × StrandSt :=
  let k := bankNo a
  if 48 ≤ k then (false, st)
  else if st.pwrMet k != 0 then
    (false, (((st.bankErr 5 req k (bankWord a)).flag Reg.BANK_FLAGS 1).inc (Reg.BANK_CNT + 8 * 5)).reportOnce 0x1004 .transient 0x1004 [k, req])
  else if (req == 3 && !write) || (st.held k && ownsBank req (st.bankOwner k) write && !st.exchanging req k) then (true, st)
  else
    (false, (((st.bankErr 4 req k (bankWord a)).flag Reg.BANK_FLAGS 0).inc (Reg.BANK_CNT + 8 * 4)).reportOnce 0x1005 .transient 0x1005 [k, req])

/-- A bank is marked LASTING: a logical bank waits for its remap, a retention bank is only logged (R398, R399).  (DEDUCED, unsafe: log entry 123.) -/
def StrandSt.markLasting (st : StrandSt) (k : Nat) : StrandSt :=
  if 48 ≤ k then st
  else
    let st := (st.putBit (Reg.BANK_STATE k) 4 true).flag Reg.BANK_FLAGS 5
    { st with banks := { st.banks with marked := true } }

/-- An uncorrectable error at a word (R345, R398).  (DEDUCED, unsafe: log entry 123.) -/
def StrandSt.bankUe (st : StrandSt) (req k w : Nat) : StrandSt :=
  let st := (st.markLasting k).bankErr 3 req k w
  let st := ((st.flag Reg.BANK_FLAGS 4).inc (Reg.BANK_CNT + 8 * 3)).report 0x1003 .lasting [k, w]
  if 48 ≤ k then { st with banks := { st.banks with ledgerUe := true } } else st

/-- Whether a word waits for its scrub. -/
def Banks.waits (b : Banks) (k w : Nat) : Bool := b.scrubs.any fun s => s.1 == k && s.2.1 == w
def Banks.dropScrub (b : Banks) (k w : Nat) : Banks := { b with scrubs := b.scrubs.filter fun s => !(s.1 == k && s.2.1 == w) }

/-- A correctable error at a word: its scrub is queued (R398). -/
def StrandSt.bankCe (st : StrandSt) (req k w : Nat) : StrandSt :=
  if st.banks.waits k w then st
  else if 4 ≤ st.banks.scrubs.length then st.inc (Reg.BANK_CNT + 8 * 2)
  else { st with banks := { st.banks with scrubs := st.banks.scrubs ++ [(k, w, req)] } }

/-- The ECC check of the words of a read from `a` of `n` bytes: whether one is uncorrectable (R398).  (DESIGN CHOICE, safe: log entry 125.) -/
def StrandSt.eccRead (st : StrandSt) (req a n : Nat) : Bool × StrandSt :=
  if st.banks.ecc.cells.isEmpty then (false, st)
  else
    ((List.range (ceilDiv (a % 8 + n) 8)).map (a / 8 + ·)).foldl (fun (r : Bool × StrandSt) w =>
      match r.2.banks.ecc.get 0 w with
      | 0 => r
      | 1 => (r.1, r.2.bankCe req (w / 16384) (w % 16384))
      | _ => (true, r.2.bankUe req (w / 16384) (w % 16384))) (false, st)

/-- What an access gives: served, an uncorrectable error met, the bytes read. -/
structure BankAcc where
  ok : Bool
  ue : Bool
  bytes : List Byte
  st : StrandSt

/-! ## Ports (R388, R390) -/

/-- An access takes its port of the bank: it waits a cycle for each other requester that came before it in the cycle (R388).  (DESIGN CHOICE, unsafe:
log entry 199.) -/
def StrandSt.takePort (st : StrandSt) (req k : Nat) : StrandSt :=
  let b := portB req
  let others := ((st.thisCyc.ports.filter fun p => p.1 == b && p.2.1 == k && p.2.2 != req).map (·.2.2)).eraseDups.length
  let st := st.inCyc fun y => { y with ports := (b, k, req) :: y.ports }
  if others = 0 then st else st.addCnt (Reg.BANK_CNT + 8 * (if b then 7 else 6)) others

/-- Whether a write of the cycle covers a byte, or touches a word. -/
def covers (x : Bool × Nat × List Byte) (a : Nat) : Bool := decide (x.2.1 ≤ a) && decide (a < x.2.1 + x.2.2.length)
def touches (x : Bool × Nat × List Byte) (w : Nat) : Bool := decide (x.2.1 < 8 * w + 8) && decide (8 * w < x.2.1 + x.2.2.length)

/-- The bytes a port reads: where the other port writes in the same cycle, those held before (R390). -/
def StrandSt.portRead (st : StrandSt) (req a n : Nat) : List Byte :=
  let now := Memory.read st.banks.mem a n
  let ws := st.thisCyc.wrs.filter fun x => x.1 != portB req
  if ws.isEmpty then now
  else now.zipIdx.map fun c => match ws.find? (fun x => covers x (a + c.2)) with
    | some x => x.2.2.getD (a + c.2 - x.2.1) c.1
    | none => c.1

/-- The strand with bytes in SRAM replaced. -/
def StrandSt.memWrite (st : StrandSt) (a : Nat) (bs : List Byte) : StrandSt :=
  { st with banks := { st.banks with mem := Memory.write st.banks.mem a bs } }

/-- A port writes: where port B writes a byte in the same cycle its value is stored, and each word that both ports write is a collision
(R390). -/
def StrandSt.portWrite (st : StrandSt) (req a : Nat) (bs : List Byte) : StrandSt :=
  let b := portB req
  let ws := st.thisCyc.wrs
  let other := ws.filter fun x => x.1 != b
  let old := Memory.read st.banks.mem a bs.length
  let bs' := if b || other.isEmpty then bs
    else (bs.zip old).zipIdx.map fun c => if other.any fun x => covers x (a + c.2) then c.1.2 else c.1.1
  let hits := if other.isEmpty then 0 else
    (((List.range (ceilDiv (a % 8 + bs.length) 8)).map (a / 8 + ·)).filter fun w =>
      other.any (touches · w) && !ws.any fun x => x.1 == b && touches x w).length
  let st := (st.inCyc fun y => { y with wrs := y.wrs ++ [(b, a, old)] }).memWrite a bs'
  if hits = 0 then st else (st.flag Reg.BANK_FLAGS 7).addCnt (Reg.BANK_CNT + 8 * 8) hits

/-! ## Accesses -/

/-- A read of `n` bytes inside one bank (R388, R390, R392, R398); a blocked read returns zeros. -/
def StrandSt.bankRead1 (st : StrandSt) (req a n : Nat) : BankAcc :=
  let j := st.bankJudge req a false
  if !j.1 then ⟨false, false, List.replicate n 0, j.2⟩
  else
    let e := (j.2.takePort req (bankNo a)).eccRead req a n
    ⟨true, e.1, e.2.portRead req a n, e.2⟩

/-- A read that may cross from one bank into the next; the number bounds the banks. -/
def StrandSt.bankReadN (st : StrandSt) (req a n : Nat) : Nat → BankAcc
  | 0 => ⟨false, false, [], st⟩
  | k + 1 =>
    let n1 := bankSize - a % bankSize
    if n ≤ n1 then st.bankRead1 req a n
    else
      let x := st.bankRead1 req a n1
      let y := x.st.bankReadN req (a + n1) (n - n1) k
      ⟨x.ok && y.ok, x.ue || y.ue, x.bytes ++ y.bytes, y.st⟩

/-- A read of strand SRAM. -/
def StrandSt.bankRead (st : StrandSt) (req a n : Nat) : BankAcc := st.bankReadN req a n 8

/-- A write whose words are ECC-checked one by one: a whole word cures, a part is merged, a part into an uncorrectable word is
discarded; a write that reaches a word before its scrub drops the scrub, and the error counts as transient (R398). -/
def StrandSt.eccWrite (st : StrandSt) (req a : Nat) (bs : List Byte) : Bool × StrandSt :=
  if st.banks.ecc.cells.isEmpty then (false, st.portWrite req a bs)
  else
    ((List.range (ceilDiv (a % 8 + bs.length) 8)).map (a / 8 + ·)).foldl (fun (r : Bool × StrandSt) w =>
      let lo := max a (8 * w)
      let hi := min (a + bs.length) (8 * w + 8)
      let part := (bs.drop (lo - a)).take (hi - lo)
      let s := r.2
      let k := w / 16384
      let dropped := s.banks.waits k (w % 16384)
      if hi - lo = 8 || (dropped && s.banks.ecc.get 0 w = 1) then
        let b := s.banks.dropScrub k (w % 16384)
        let s1 := ({ s with banks := { b with ecc := b.ecc.set 0 w 0 } } : StrandSt).portWrite req lo part
        (r.1, if dropped then s1.inc Reg.BANK_CNT else s1)
      else match s.banks.ecc.get 0 w with
        | 0 => (r.1, s.portWrite req lo part)
        | 1 => (r.1, (s.bankCe req k (w % 16384)).portWrite req lo part)
        | _ => (true, s.bankUe req k (w % 16384))) (false, st)

/-- A write inside one bank (R392, R398); a blocked write is discarded. -/
def StrandSt.bankWrite1 (st : StrandSt) (req a : Nat) (bs : List Byte) : BankAcc :=
  let j := st.bankJudge req a true
  if !j.1 then ⟨false, false, [], j.2⟩
  else
    let e := (j.2.takePort req (bankNo a)).eccWrite req a bs
    ⟨true, e.1, [], e.2⟩

/-- A write that may cross from one bank into the next. -/
def StrandSt.bankWriteN (st : StrandSt) (req a : Nat) (bs : List Byte) : Nat → BankAcc
  | 0 => ⟨false, false, [], st⟩
  | k + 1 =>
    let n1 := bankSize - a % bankSize
    if bs.length ≤ n1 then st.bankWrite1 req a bs
    else
      let x := st.bankWrite1 req a (bs.take n1)
      let y := x.st.bankWriteN req (a + n1) (bs.drop n1) k
      ⟨x.ok && y.ok, x.ue || y.ue, [], y.st⟩

/-- A write of strand SRAM. -/
def StrandSt.bankWrite (st : StrandSt) (req a : Nat) (bs : List Byte) : BankAcc := st.bankWriteN req a bs 8

/-- A 32-bit word of strand SRAM as the core or its agents hold it, without a judgement: for tables the hardware reads at the
lock and for contexts (R257, R260). -/
def StrandSt.memWord (st : StrandSt) (a : Nat) : Nat := leNum (Memory.read st.banks.mem a 4)

/-- The strand with a 32-bit word of SRAM replaced by the mapper. -/
def StrandSt.memPut (st : StrandSt) (a v : Nat) : StrandSt := st.portWrite reqMapper a (leBytes 4 v)

/-! ## Ownership (R389, R393 to R395) -/

/-- HANDOVER_ERR: an ownership or power-state write is discarded. -/
def StrandSt.handoverErr (st : StrandSt) : StrandSt := st.flag Reg.BANK_FLAGS 2

/-- Whether bank `k` is one of the process image pair of a configured mapper (R394). -/
def StrandSt.imageBank (st : StrandSt) (k : Nat) : Bool :=
  let n := st.fld Reg.MAP_IMG 3 0
  let b0 := st.fld Reg.MAP_IMG 13 8
  let b1 := st.fld Reg.MAP_IMG 21 16
  n != 0 && st.env.locked && ((decide (b0 ≤ k) && decide (k < b0 + n)) || (decide (b1 ≤ k) && decide (k < b1 + n)))

/-- Whether a GRANT may name the owner code `own` (R389, R393). -/
def StrandSt.grantable (st : StrandSt) (own : Nat) : Bool :=
  own != 0 && own != 7 && (st.env.loading || (own != 3 && own != 4))

/-- The strand with bank `k` leaving its owner from the next cycle on. -/
def StrandSt.setLeaving (st : StrandSt) (k : Nat) : StrandSt :=
  let st := st.put (Reg.BANK_OWNER k) 17 16 1
  { st with banks := { st.banks with relAt := st.banks.relAt.set 0 k st.env.ns, leaving := k :: st.banks.leaving } }

/-- RELEASE of bank `k` (R393). -/
def StrandSt.bankRelease (st : StrandSt) (k : Nat) : StrandSt :=
  if st.bankHo k != 0 || st.imageBank k then st.handoverErr else st.setLeaving k

/-- The strand with a grant pending at bank `k`; a FREE bank's acts as the cycle passes. -/
def StrandSt.setGrant (st : StrandSt) (k own group : Nat) : StrandSt :=
  let st := st.putBit (Reg.BANK_OWNER k) 15 true
  let taking := if st.bankHo k = 2 then k :: st.banks.taking else st.banks.taking
  { st with banks := { st.banks with pendTo := st.banks.pendTo.set (0, 0) k (own, group), taking := taking } }

/-- GRANT of bank `k` (R393). -/
def StrandSt.bankGrant (st : StrandSt) (k own group : Nat) : StrandSt :=
  if st.bankHo k = 0 || st.bit (Reg.BANK_OWNER k) 15 || !st.grantable own || st.imageBank k then st.handoverErr
  else st.setGrant k own group

/-- RELEASE_GRANT of bank `k` (R393). -/
def StrandSt.bankReleaseGrant (st : StrandSt) (k own group : Nat) : StrandSt :=
  if st.bankHo k != 0 || !st.grantable own || st.imageBank k then st.handoverErr
  else (st.setLeaving k).setGrant k own group

/-- The owner that a pending grant names takes the FREE bank (R393). -/
def StrandSt.bankTake (st : StrandSt) (k : Nat) : StrandSt :=
  let g := st.banks.pendTo.get (0, 0) k
  let st := { st with banks := { st.banks with pendTo := st.banks.pendTo.set (0, 0) k (0, 0), taking := st.banks.taking.filter (· != k) } }
  st.wr (Reg.BANK_OWNER k) (BitVec.ofNat 32 (g.1 + (if g.1 = 4 then g.2 * 8 else 0)))

/-- The bank is FREE; the owner of a pending grant takes it in the cycle after, where cycles are counted (R393). -/
def StrandSt.setFree (st : StrandSt) (k : Nat) : StrandSt :=
  let pend := st.bit (Reg.BANK_OWNER k) 15
  let b := { st.banks with leaving := st.banks.leaving.filter (· != k), taking := if pend then k :: st.banks.taking else st.banks.taking }
  let st := ({ st with banks := b } : StrandSt).wr (Reg.BANK_OWNER k) (BitVec.ofNat 32 (2 * 2 ^ 16 + b2n pend * 2 ^ 15))
  if pend && !st.env.active then st.bankTake k else st

/-- BANK_FREE: the last access accepted before the release has completed, in a later cycle than the release's (R393).  (DEDUCED, unsafe: log entry 200.) -/
def StrandSt.bankFree (st : StrandSt) (k : Nat) : StrandSt :=
  if st.bankHo k != 1 || st.env.ns ≤ st.banks.relAt.get 0 k then st else st.setFree k

/-- What the cycle brings to banks in handover as it passes: a grant of a FREE bank acts, and a release is done 3 cycles after its write at the
latest (R393). -/
def StrandSt.bankEnd (st : StrandSt) : StrandSt :=
  let due := st.banks.leaving.filter fun k => decide (st.banks.relAt.get 0 k + 2 ≤ st.env.ns)
  let st := st.banks.taking.foldl StrandSt.bankTake st
  due.foldl StrandSt.setFree st

/-- The next cycle at whose end a bank in handover changes. -/
def StrandSt.bankTimes (st : StrandSt) : List Nat :=
  if st.banks.taking.isEmpty then st.banks.leaving.map fun k => st.now + (st.banks.relAt.get 0 k + 2 - st.env.ns) else [st.now]

/-- A write of BANK_OWNER_k (key k) or of BANK_STATE_k.PWR (key 64 + k) by the core or the Loupe: where both write it in one cycle, the core's
acts and the Loupe's is discarded (R394). -/
def StrandSt.handWrite (st : StrandSt) (m key reg : Nat) (f : StrandSt → StrandSt) : StrandSt :=
  let k := key % 64
  let was := (m == 2, st.rd reg, st.banks.pendTo.get (0, 0) k, st.banks.pwrTo.get none k)
  let note := fun (s : StrandSt) => s.inCyc fun y => { y with hand := y.hand.set none key (some was) }
  match st.thisCyc.hand.get none key with
  | none => f (note st)
  | some (core, w, pend, pwr) =>
    if core == (m == 2) then f st
    else if core then st.handoverErr
    else
      let b := { st.banks with pendTo := st.banks.pendTo.set (0, 0) k pend, pwrTo := st.banks.pwrTo.set none k pwr,
                               leaving := if key < 64 && fieldOf w 17 16 != 1 then st.banks.leaving.filter (· != k) else st.banks.leaving,
                               taking := if key < 64 && !bitOf w 15 then st.banks.taking.filter (· != k) else st.banks.taking }
      f (note (({ st with banks := b } : StrandSt).wr reg w)).handoverErr

/-- A write of BANK_OWNER_k by master `m` (0 link A, 1 link B, 2 core, 3 Loupe): host writes are discarded (R393). -/
def StrandSt.bankOwnerWrite (st : StrandSt) (m k : Nat) (v : Word) : StrandSt :=
  if m < 2 || fieldOf v 31 30 = 0 then st
  else st.handWrite m k (Reg.BANK_OWNER k) fun s => match fieldOf v 31 30 with
    | 1 => s.bankRelease k
    | 2 => s.bankGrant k (fieldOf v 29 27) (fieldOf v 26 25)
    | _ => s.bankReleaseGrant k (fieldOf v 29 27) (fieldOf v 26 25)

/-! ## Power (R396, R397) -/

/-- The power state a bank has, or that a change in progress leads away from (R396). -/
def StrandSt.pwrWas (st : StrandSt) (k : Nat) : Nat := if st.bankPwr k = 3 then (st.banks.pwrAt.get (0, 0, 0) k).2.2 else st.bankPwr k

/-- BANK_STATE_k.PWR takes a state: a change of the power state begins, also in place of one in progress to another state (R396). -/
def StrandSt.pwrRequest (st : StrandSt) (k v : Nat) : StrandSt :=
  let now := st.bankPwr k
  let was := st.pwrWas k
  let st := st.put (Reg.BANK_STATE k) 1 0 v
  if now = v || st.banks.pwrTo.get none k == some v then st
  else
    let st := st.put (Reg.BANK_STATE k) 3 2 3
    { st with banks := { st.banks with pwrTo := st.banks.pwrTo.set none k (some v),
                                       pwrAt := st.banks.pwrAt.set (0, 0, 0) k (st.env.ns, now, was) } }

/-- A write of BANK_STATE_k.PWR by master `m` (R394, R396, R399). -/
def StrandSt.pwrWrite (st : StrandSt) (m k v : Nat) : StrandSt :=
  if m < 2 || 2 < v || st.bit (Reg.BANK_STATE k) 5 then st
  else st.handWrite m (64 + k) (Reg.BANK_STATE k) fun s => s.pwrRequest k v

/-- Cycles a power change takes at least: 200 from RETENTION to ON, 16,400 from OFF to ON, one otherwise (R396).  (DEDUCED, unsafe: log entry 200.) -/
def pwrCycles (was v : Nat) : Nat := if v = 0 then (if was = 1 then 200 else if was = 2 then 16400 else 1) else 1

/-- The strand with the contents and the error marks of bank `k` gone: it reads as the zero fill (R396, R397). -/
def StrandSt.bankWipe (st : StrandSt) (k : Nat) : StrandSt :=
  { st with banks := { st.banks with mem := Memory.clear st.banks.mem (k * bankSize) ((k + 1) * bankSize),
                                     ecc := st.banks.ecc.dropIf (fun w => w / 16384 == k),
                                     scrubs := st.banks.scrubs.filter (fun s => s.1 != k) } }

/-- PWR_CHANGE_DONE of bank `k` (R396). -/
def StrandSt.pwrDone (st : StrandSt) (k : Nat) : StrandSt :=
  match st.banks.pwrTo.get none k with
  | none => st
  | some v =>
    let p := st.banks.pwrAt.get (0, 0, 0) k
    if st.env.ns < p.1 + pwrCycles p.2.2 v then st else
    let st := st.put (Reg.BANK_STATE k) 3 2 v
    let st := { st with banks := { st.banks with pwrTo := st.banks.pwrTo.set none k none } }
    if v = 2 then st.bankWipe k else st

/-! ## Scrub, patrol and remap (R398, R399) -/

/-- SCRUB of a waiting word: the re-read is clean, or it fails (R398). -/
def StrandSt.scrub (st : StrandSt) (k w : Nat) (clean : Bool) : StrandSt :=
  match st.banks.scrubs.find? (fun s => s.1 == k && s.2.1 == w) with
  | none => st
  | some (_, _, req) =>
    let b := st.banks.dropScrub k w
    if clean then
      let st := { st with banks := { b with ecc := b.ecc.set 0 (16384 * k + w) 0 } }
      ((st.bankErr 1 req k w).inc Reg.BANK_CNT).reportOnce 0x1001 .transient 0x1001 [k, w]
    else
      let st := (({ st with banks := b } : StrandSt).markLasting k).bankErr 2 req k w
      ((st.flag Reg.BANK_FLAGS 3).inc (Reg.BANK_CNT + 8)).report 0x1002 .lasting [k, w]

/-- An error that the ledger's hardware meets in retention bank L0 (48) or L1 (49), at the word of the patrol's index (R398).  (DESIGN CHOICE, safe: log
entry 124.) -/
def StrandSt.retentionErr (st : StrandSt) (k e : Nat) : StrandSt :=
  if e = 1 then st.bankCe reqPatrol k st.banks.patrol else st.bankUe reqPatrol k st.banks.patrol

/-- PATROL_READ, 64 × SCRUB_INT cycles after the last one: the word index in every bank that is ON is read, then the index advances by one.
`found` is an error that the read meets in a bank at that index: 1 correctable, 2 uncorrectable (R398).  (DESIGN CHOICE, safe: log
entry 125.) -/
def StrandSt.patrolRead (st : StrandSt) (found : Option (Nat × Nat)) : StrandSt :=
  match found with
  | some (48, e) => st.retentionErr 48 e
  | some (49, e) => st.retentionErr 49 e
  | _ =>
    let every := 64 * st.fld Reg.BANK_CTL 31 16
    if every = 0 || st.now < st.banks.patrolAt + every then st
    else
      let w := st.banks.patrol
      let ecc := match found with
        | some (k, e) => st.banks.ecc.set 0 (16384 * (k % 48) + w) (max (st.banks.ecc.get 0 (16384 * (k % 48) + w)) (min 2 e))
        | none => st.banks.ecc
      let st := { st with banks := { st.banks with ecc := ecc, patrol := (w + 1) % 16384, patrolAt := st.now } }
      (List.range 48).foldl (fun (s : StrandSt) k =>
        if s.bankPwr k != 0 then s
        else match s.banks.ecc.get 0 (16384 * k + w) with
          | 0 => s
          | 1 => s.bankCe reqPatrol k w
          | _ => s.bankUe reqPatrol k w) st

/-- One bank that is marked LASTING gets a spare, or is retired (R399): the remap word and the retired banks. -/
def remapOne (r : Word × List Nat) (k : Nat) : Word × List Nat :=
  if !bitOf r.1 15 then (setField (setBit r.1 15 true) 13 8 k, r.2)
  else if !bitOf r.1 31 then (setField (setBit r.1 31 true) 29 24 k, r.2)
  else (setField r.1 5 0 (fieldOf r.1 5 0 + 1), r.2 ++ [k])

/-- Banks marked LASTING. -/
def StrandSt.lastingBanks (st : StrandSt) : List Nat := (List.range 48).filter fun k => st.bit (Reg.BANK_STATE k) 4

/-- The remap table after the lasting banks have been remapped (R399). -/
def StrandSt.remapped (st : StrandSt) : Word × List Nat :=
  (st.lastingBanks.filter fun k => !st.banks.retired.contains k).foldl remapOne (st.rd Reg.BANK_REMAP, st.banks.retired)

end Sys2Proof.Machine
end

