-- ==== Sys2Proof/Machine/LedgerOps.lean ====
section
/-! DEFINITION. The acceptance ledger, its store and log, and the acceptance port of the core (R340 to R349, R353). -/

namespace Sys2Proof.Machine

/-- Ledger entry `j`: TX rings 0 to 15, RX rings 16 to 31, the mapper 32, command queues 33 to 36 (R342). -/
def StrandSt.led (st : StrandSt) (j : Nat) : LedEnt := st.ledger.ent.get {} j

/-- The strand with a ledger entry replaced. -/
def StrandSt.setLed (st : StrandSt) (j : Nat) (e : LedEnt) : StrandSt :=
  { st with ledger := { st.ledger with ent := st.ledger.ent.set {} j e } }

/-- The accepted-item store of TX ring `r`, oldest first (R344). -/
def StrandSt.stored (st : StrandSt) (r : Nat) : List Stored := st.ledger.store.get [] r

/-- The strand with the store of a ring replaced. -/
def StrandSt.setStored (st : StrandSt) (r : Nat) (l : List Stored) : StrandSt :=
  { st with ledger := { st.ledger with store := st.ledger.store.set [] r l } }

/-- STORED: the descriptors a ring's store holds. -/
def StrandSt.storedCount (st : StrandSt) (r : Nat) : Nat := ((st.stored r).map fun s => s.descs.length).sum

/-- The stored notices of command queue `k` (R349). -/
def StrandSt.notices (st : StrandSt) (k : Nat) : List (Nat × Nat) := st.ledger.notices.get [] k

/-- The strand with the notices of a command queue replaced. -/
def StrandSt.setNotices (st : StrandSt) (k : Nat) (l : List (Nat × Nat)) : StrandSt :=
  { st with ledger := { st.ledger with notices := st.ledger.notices.set [] k l } }

/-- The log slot of an item filled: eight words (R345). -/
def StrandSt.setLog (st : StrandSt) (r q : Nat) (ws : List Word) : StrandSt :=
  { st with ledger := { st.ledger with log := st.ledger.log.set [] (128 * r + q % 128) ws } }

/-- One above a sequence number, modulo 2^32. -/
def seqNext (q : Nat) : Nat := (q + 1) % 2 ^ 32

/-- The newer of two sequence numbers (R7). -/
def seqMax (a b : Nat) : Nat := if newer b a then b else a

/-- An item of a TX ring is decided: CMP and STA take its QSEQ and the store drops it (R343, R344, R347). -/
def StrandSt.ledComplete (st : StrandSt) (r q : Nat) : StrandSt :=
  let e := st.led r
  (st.setLed r { e with cmp := seqMax e.cmp q, sta := seqMax e.sta q }).setStored r ((st.stored r).filter fun s => s.qseq != q)

/-- An item of a TX ring commits (R340). -/
def StrandSt.ledStart (st : StrandSt) (r q : Nat) : StrandSt :=
  let e := st.led r
  st.setLed r { e with sta := seqMax e.sta q }

/-- The QSEQ of the next record of an RX ring or of the mapper: one above CMP (R288, R348). -/
def StrandSt.ledNext (st : StrandSt) (j : Nat) : Nat := seqNext (st.led j).cmp

/-- The writer issues a record of an RX ring or of the mapper: CMP and STA take its number (R340, R342). -/
def StrandSt.ledIssue (st : StrandSt) (j q : Nat) : StrandSt :=
  st.setLed j { st.led j with valid := true, sta := q, cmp := q }

/-- Such a record became visible (R340, R342). -/
def StrandSt.ledVisible (st : StrandSt) (j q : Nat) : StrandSt :=
  st.setLed j { st.led j with valid := true, acc := q }

/-- The completion queue of command queue `k`, where it is enabled (R359). -/
def StrandSt.cmdQueue (st : StrandSt) (k : Nat) : Option Nat :=
  if st.bit Reg.CMD_CQ (16 + k) then some (st.fld Reg.CMD_CQ (4 * k + 2) (4 * k)) else none

/-- The result of a request to the acceptance port (R349, CMDACC_RES). -/
def StrandSt.cmdResult (st : StrandSt) (code : Nat) : StrandSt := st.wr Reg.CMDACC_RES (BitVec.ofNat 32 (2 ^ 31 + code))

/-- CMD_ACCEPT: OP 1 of the acceptance port on command queue `k` (R349).  (DEDUCED, safe: log entry 65.) -/
def StrandSt.cmdAccept (st : StrandSt) (k : Nat) : StrandSt :=
  let q := (st.rd Reg.CMDACC_QSEQ).toNat
  let notice := (st.rd Reg.CMDACC_NOTICE_HI).toNat * 2 ^ 32 + (st.rd Reg.CMDACC_NOTICE_LO).toNat
  let e := st.led (33 + k)
  if (st.cmdQueue k).isNone then st.cmdResult 4
  else if q = seqNext e.acc then
    if (st.notices k).length < 16 then
      ((st.setLed (33 + k) { e with valid := true, acc := q }).setNotices k (st.notices k ++ [(q, notice)])).cmdResult 0
    else st.cmdResult 3
  else if newer q e.acc then (st.flag Reg.LEDGER_FLAGS 3).cmdResult 2
  else (st.inc (Reg.LEDGER_CNT + 8 * 5)).cmdResult 1

/-- CMD_START: OP 2 of the acceptance port on command queue `k` (R349). -/
def StrandSt.cmdStart' (st : StrandSt) (k : Nat) : StrandSt :=
  let q := (st.rd Reg.CMDACC_QSEQ).toNat
  let e := st.led (33 + k)
  if q = seqNext e.sta && !newer q e.acc then (st.setLed (33 + k) { e with sta := q }).cmdResult 0
  else (st.flag Reg.LEDGER_FLAGS 3).cmdResult 2

/-- A command entry completes (R349). -/
def StrandSt.cmdComplete (st : StrandSt) (k q : Nat) : StrandSt :=
  (st.setLed (33 + k) { st.led (33 + k) with cmp := q }).setNotices k ((st.notices k).filter fun n => n.1 != q)

/-- The ledger as a STRAND_COLD leaves it (R353). -/
def Ledger.cleared : Ledger := {}

/-- Entries with ACC above CMP: work the device still owes (R353). -/
def Ledger.owed (l : Ledger) : Nat := (l.ent.cells.filter fun c => c.2.valid && newer c.2.acc c.2.cmp).length

/-- LEDGER_ENTRY_j as it reads (R359). -/
def StrandSt.ledEntryWord (st : StrandSt) (j : Nat) : Nat :=
  let e := st.led j
  b2n e.valid * 2 ^ 31 + b2n e.anchored * 2 ^ 30 + (if j < 16 then st.storedCount j else 0) % 128 * 2 ^ 16 + e.next % 2 ^ 16

/-- A word of the read-only view of the ledger's stored state, by strand offset (R360). -/
def StrandSt.ledView (st : StrandSt) (off : Nat) : Nat :=
  if off < 0xD0000 then
    let o := off - 0xC0000
    let r := o / 0x1000
    let n := o % 0x1000 / 0x20
    (((st.ledger.log.get [] (128 * r + n)).getD (o % 0x20 / 4) 0)).toNat
  else if off < 0xD8000 then
    let o := off - 0xD0000
    let ds := (st.stored (o / 0x800)).flatMap (·.descs)
    ((ds.getD (o % 0x800 / 0x20) []).getD (o % 0x20 / 4) 0).toNat
  else if off < 0xD8100 then
    let a := st.ledger.anchor.get (0, 0, 0) ((off - 0xD8000) / 0x10)
    match off % 0x10 / 4 with
    | 0 => a.1.toNat
    | 1 => a.2.1.toNat
    | 2 => a.2.2.toNat
    | _ => 0
  else if 0xD9000 ≤ off && off < 0xD9200 then
    let o := off - 0xD9000
    let n := ((st.notices (o / 0x80)).getD (o % 0x80 / 8) (0, 0)).2
    if o % 8 < 4 then n % 2 ^ 32 else n / 2 ^ 32
  else 0

end Sys2Proof.Machine
end

