-- ==== Sys2Proof/Machine/PtOps.lean ====
section
/-! DEFINITION. Port speeds and latencies (R107, R126) and the pass-through channels: forming a path, the fill, edits and the
end of a frame (R102, R103, R129 to R142). -/

namespace Sys2Proof.Machine

/-- Fields of MAC_CTL of port `p`. -/
def StrandSt.macMode (st : StrandSt) (p : Nat) : Nat := st.fld (Reg.MAC_CTL p) 7 4
def StrandSt.ptRx (st : StrandSt) (p : Nat) : Nat := st.fld (Reg.MAC_CTL p) 13 12
def StrandSt.ptTx (st : StrandSt) (p : Nat) : Nat := st.fld (Reg.MAC_CTL p) 15 14

/-- LINK_UP and SPEED_ACT of port `p`. -/
def StrandSt.linkUp (st : StrandSt) (p : Nat) : Bool := st.bit (Reg.MAC_STATUS p) 0
def StrandSt.speedAct (st : StrandSt) (p : Nat) : Nat := st.fld (Reg.MAC_STATUS p) 9 8

/-- MAXLEN of port `p` (R111). -/
def StrandSt.maxLen (st : StrandSt) (p : Nat) : Nat := st.fld (Reg.MAC_MAXLEN p) 13 0

/-- Speed of a SPEED_ACT code in Mb/s, 0 without a link. -/
def speedMbps (code : Nat) : Nat :=
  match code with
  | 1 => 100
  | 2 => 1000
  | 3 => 2500
  | _ => 0

/-- T_byte in tenths of a cycle (R134): 80, 8 and 3.2 cycles; at no link the slowest. -/
def tByte10 (code : Nat) : Nat :=
  match code with
  | 2 => 80
  | 3 => 32
  | _ => 800

/-- Cycles that `n` bytes take at a speed, rounded up. -/
def bytesCycles (code n : Nat) : Nat := ceilDiv (n * tByte10 code) 10

/-- L_in of a mode and speed in 2^-16 ns, rounded to the nearest (R126). -/
def latIn (mode speed : Nat) : Nat :=
  match mode, speed with
  | 1, 1 => 104 * 65536
  | 1, _ => 20 * 65536
  | 2, _ => 20 * 65536
  | 3, _ => 943718
  | 4, 1 => 46 * 65536
  | 4, _ => 6 * 65536
  | _, _ => 0

/-- L_out of a mode and speed in 2^-16 ns, rounded to the nearest (R126). -/
def latOut (mode speed : Nat) : Nat :=
  match mode, speed with
  | 1, 1 => 96 * 65536
  | 1, _ => 16 * 65536
  | 2, _ => 16 * 65536
  | 3, _ => 734003
  | 4, 1 => 44 * 65536
  | 4, _ => 5 * 65536
  | _, _ => 0

/-- RXCORR and TXCORR, signed, in 2^-16 ns (R126). -/
def StrandSt.rxCorr (st : StrandSt) (p : Nat) : Int := signedN 32 (st.rd (Reg.MAC_TS_RXCORR p)).toNat
def StrandSt.txCorr (st : StrandSt) (p : Nat) : Int := signedN 32 (st.rd (Reg.MAC_TS_TXCORR p)).toNat

/-- The RX time-stamp of a frame whose time-stamp point is crossed now (R126), in 2^-16 ns. -/
def StrandSt.rxStamp (st : StrandSt) (p : Nat) : Int :=
  (st.t16 : Int) - latIn (st.macMode p) (st.speedAct p) - st.rxCorr p

/-- The TX time-stamp of a frame whose time-stamp point is crossed `cycles` from now (R126), in 2^-16 ns. -/
def StrandSt.txStamp (st : StrandSt) (p cycles : Nat) : Int :=
  ((st.t32 : Int) + cycles * st.cycle32) / (2 ^ 16 : Nat) + latOut (st.macMode p) (st.speedAct p) + st.txCorr p

/-! ## Channels -/

/-- The engine that claims the TX lane of port `p` (R129). -/
def StrandSt.laneOwner (st : StrandSt) (p : Nat) : Option Nat := st.bp.lane.get none p

/-- The source port of channel `p` while it is ACTIVE (R129). -/
def StrandSt.chanSource (st : StrandSt) (p : Nat) : Option Nat :=
  match st.laneOwner p with
  | some n => if st.inKind n && st.inLane n != p then some (st.inLane n) else none
  | none => none

/-- EDIT_EXT of channel `p` (R133). -/
def StrandSt.editExt (st : StrandSt) (p : Nat) : Nat := st.fld (Reg.PT_CTL p) 25 16

/-- The fill F for frames from source port `a` (R134). -/
def StrandSt.ptFill (st : StrandSt) (a : Nat) : Nat :=
  max 12 (ceilDiv (st.maxLen a * tByte10 (st.speedAct a)) 50000)

/-- L_b of channel `p` with source `a` (R133). -/
def StrandSt.ptLb (st : StrandSt) (p a : Nat) : Nat := 38 + st.editExt p + (st.ptFill a - 12)

/-- The speed the configuration gives port `p` (R107). -/
def StrandSt.confSpeed (st : StrandSt) (p : Nat) : Nat :=
  match st.macMode p with
  | 0 => 0
  | 2 => 2
  | 3 => 3
  | _ => st.fld (Reg.MAC_CTL p) 3 2

/-- The speed of port `p`, or with no link the one its configuration gives (R142).  (DEDUCED, safe: log entry 176.) -/
def StrandSt.speedConf (st : StrandSt) (p : Nat) : Nat := if st.linkUp p then st.speedAct p else st.confSpeed p

/-- Cycle in which byte `k` of a frame crosses the RX boundary: at 2500 Mb/s, that of its 16-bit word (R133). -/
def byteCycle (code start k : Nat) : Nat :=
  if code = 3 then start + (k / 2) * 64 / 10 else start + k * tByte10 code / 10

/-- The cycle at whose end byte `k` of a frame leaves the edit window, the last in which an edit of it may become pending (R138). -/
def StrandSt.editDeadline (st : StrandSt) (p : Nat) (f : PtCur) (k : Nat) : Nat := byteCycle f.code f.start k + 11 + st.editExt p

/-- The cycle at whose end the last FCS byte of a frame leaves the edit window. -/
def StrandSt.ptPasses (st : StrandSt) (p : Nat) (f : PtCur) : Nat := st.editDeadline p f (f.bytes.length + 3)

/-- The residence r a correction addition adds, in 2^-16 ns (R141). -/
def StrandSt.residence (st : StrandSt) (p a : Nat) : Int :=
  latIn (st.macMode a) (st.speedAct a) + st.rxCorr a + (st.ptLb p a * 65536 : Nat) +
  latOut (st.macMode p) (st.speedAct p) + st.txCorr p

/-- Whether the correction addition is available (R142). -/
def StrandSt.tcWanted (st : StrandSt) (p : Nat) : Bool :=
  st.bit (Reg.PT_CTL p) 3 && st.ptTx p == 1 && decide (ceilDiv (7 * tByte10 (st.speedConf p)) 10 ≤ st.editExt p)

/-- Bytes `new` written into a frame from byte `off`; bytes past the frame's end are not written. -/
def overlay (bytes : List Byte) (off : Nat) (new : List Byte) : List Byte :=
  (bytes.take off ++ new ++ bytes.drop (off + new.length)).take bytes.length

/-- First byte and length an edit covers (R102, R141). -/
def LaneEdit.span : LaneEdit → Nat × Nat
  | .replace off bs => (off, bs.length)
  | .correct off => (off, 8)

/-- A frame with one edit applied (R102, R141). -/
def LaneEdit.apply (e : LaneEdit) (r : Int) (bytes : List Byte) : List Byte :=
  match e with
  | .replace off bs => overlay bytes off bs
  | .correct off => overlay bytes off (beBytes 8 (wrapN 64 (beNum ((bytes.drop off).take 8) + r)))

/-- Whether an edit lies, in the part it acts on, at or beyond a frame's FCS: a replacement with its first byte, a correction addition with
any (R103, R141).  (DEDUCED, unsafe: log entry 177.) -/
def LaneEdit.beyond (e : LaneEdit) (len : Nat) : Bool :=
  match e with
  | .replace off _ => decide (len ≤ off)
  | .correct off => decide (len < off + 8)

/-- A frame's bytes as they leave the window: its edits in the order in which they were armed, so that the later-armed one supplies a byte
that two cover (R103).  (DEDUCED, unsafe: log entry 177.) -/
def PtCur.edited (f : PtCur) (r : Int) : List Byte :=
  f.edits.foldl (fun bs e => if e.edit.beyond f.bytes.length then bs else e.edit.apply r bs) f.bytes

/-- An edit counted as applied (R138, R141). -/
def StrandSt.editApplied (st : StrandSt) (p : Nat) (e : LaneEdit) : StrandSt :=
  let st := st.inc (Reg.PT_CNT p + 8 * 4)
  match e with
  | .replace _ _ => st
  | .correct _ => st.inc (Reg.PT_CNT p + 8 * 7)

/-- An edit discarded under R103. -/
def StrandSt.discardEdit (st : StrandSt) (p : Nat) : StrandSt := (st.flag (Reg.PT_FLAGS p) 4).inc (Reg.PT_CNT p + 8 * 6)

/-- The cycle at whose end an edit of a frame is pending no longer: its last byte leaves the window, or the frame's last FCS byte (R103). -/
def StrandSt.editEnds (st : StrandSt) (p : Nat) (f : PtCur) (e : LaneEdit) : Nat :=
  st.editDeadline p f (min (e.span.1 + e.span.2 - 1) (f.bytes.length + 3))

/-- The edits of a frame that this cycle ends: applied, or discarded at or beyond the FCS (R103, R138). -/
def StrandSt.ptEdits (st : StrandSt) (p : Nat) (f : PtCur) : StrandSt × PtCur :=
  let due := fun (e : PtEdit) => !e.gone && decide (st.editEnds p f e.edit ≤ st.now)
  let st' := (f.edits.filter due).foldl (fun (s : StrandSt) e =>
    if e.edit.beyond f.bytes.length then s.discardEdit p else s.editApplied p e.edit) st
  (st', { f with edits := f.edits.map fun e => if due e then { e with gone := true } else e })

/-- A frame whose end comes early: the edits still pending are discarded (R103). -/
def StrandSt.ptDropEdits (st : StrandSt) (p : Nat) (f : PtCur) : StrandSt :=
  (f.edits.filter fun e => !e.gone).foldl (fun (s : StrandSt) _ => s.discardEdit p) st

/-- Bytes of a frame that have crossed the TX boundary by now. -/
def StrandSt.ptSent (st : StrandSt) (f : PtCur) : Nat := min f.bytes.length ((st.now - f.out) * 10 / tByte10 f.code)

/-- The cycle of a frame's first preamble byte, and the end of its last byte (R135). -/
def PtCur.launch (f : PtCur) : Nat := f.out - bytesCycles f.code 8
def PtCur.ends (f : PtCur) : Nat := f.out + bytesCycles f.code (f.bytes.length + 4)

/-- A frame ends at once after the bytes already sent, with the inverted CRC of those; of a frame of which none has been, nothing leaves
(R122, R136, R139). -/
def StrandSt.ptBreak (st : StrandSt) (p : Nat) (f : PtCur) (n : Nat) : StrandSt :=
  let st := st.ptDropEdits p f
  if n = 0 then st else st.emit (.frame p ((f.edited (st.residence p f.src)).take n) true)

/-- A frame ends because its source link is lost: a lane frame is counted in PT_FWD_ERR (R139). -/
def StrandSt.ptLose (st : StrandSt) (p : Nat) (f : PtCur) : StrandSt :=
  let st := st.ptBreak p f (st.ptSent f)
  if f.flg = 0 then (st.inc (Reg.PT_CNT p + 8)).flag (Reg.PT_FLAGS p) 0 else st

/-- A frame's last byte has left: its FCS is regenerated, inverted where it came in bad (R139, R226). -/
def StrandSt.ptFinish (st : StrandSt) (p : Nat) (f : PtCur) : StrandSt :=
  let bs := f.edited (st.residence p f.src)
  let st := if !f.bad then (st.inc (Reg.MAC_CNT p + 8 * 12)).addCnt (Reg.MAC_CNT p + 8 * 13) (bs.length + 4)
    else if f.flg = 0 then (st.inc (Reg.PT_CNT p + 8)).flag (Reg.PT_FLAGS p) 0 else st
  st.emit (.frame p bs f.bad)

/-- The cycle in which the FIFO's underrun or overrun ends a frame, and the number of its flag (R136). -/
def PtCur.breaks (f : PtCur) : Option (Nat × Nat × Nat) :=
  match f.fifo with
  | .none => none
  | .underrun n => some (f.out + bytesCycles f.code n, n, 1)
  | .overrun n => some (f.out + bytesCycles f.code n, n, 2)

/-- An underrun (1) or overrun (2) of the FIFO (R136). -/
def StrandSt.ptFifo (st : StrandSt) (p k : Nat) : StrandSt :=
  ((st.flag (Reg.PT_FLAGS p) k).inc (Reg.PT_CNT p + 8 * (k + 1))).reportOnce 0x0501 .transient p [p]

/-- The cycle in which a frame's last received byte has crossed the RX boundary. -/
def PtCur.received (f : PtCur) : Nat := byteCycle f.code f.start f.bytes.length

/-- One frame in transit in this cycle: edits whose bytes leave the window, launch, the loss of its link, its FIFO's end or its own; no frame
is left where it ends (R135 to R140).  (DEDUCED, safe: log entry 178.) -/
def StrandSt.ptStep1 (st : StrandSt) (p : Nat) (f : PtCur) : StrandSt × Option PtCur :=
  if f.lost && decide (f.received ≤ st.now) then (st.ptLose p f, none)
  else
    let r := st.ptEdits p f
    let f := { r.2 with passed := r.2.passed || decide (st.ptPasses p f ≤ st.now) }
    let st := r.1
    let go := !f.launched && decide (f.launch ≤ st.now)
    let st := if go && !f.lost && f.flg = 0 then st.inc (Reg.PT_CNT p) else st
    let st := if go && f.late && f.flg = 0 then st.inc (Reg.PT_CNT p + 8 * 9) else st
    let f := { f with launched := f.launched || go }
    match f.breaks with
    | some (c, n, k) => if c ≤ st.now then ((st.ptBreak p f (min n f.bytes.length)).ptFifo p k, none) else (st, some f)
    | none => if f.ends ≤ st.now + 1 then (st.ptFinish p f, none) else (st, some f)

/-- The cycle in which byte 0 of a frame leaves port `p`: its nominal one, or 16 byte times past the end of the frame before it on the port, 8 of
them its preamble (R135). -/
def StrandSt.laneOut (st : StrandSt) (p : Fin 4) (nominal : Nat) : Nat :=
  let c := st.chan p
  let before := max c.lastEnd (max (((st.port p).tx.map TxCur.stop).getD 0) ((c.frames.getLast?.map PtCur.ends).getD 0))
  if before = 0 then nominal else max nominal (before + bytesCycles (st.speedAct p) 16)

/-- The frames in transit on channel `p` in this cycle. -/
def StrandSt.ptStep (st : StrandSt) (p : Fin 4) : StrandSt :=
  let r := (st.chan p).frames.foldl (fun (a : StrandSt × List PtCur) f =>
    let x := a.1.ptStep1 p f
    (x.1, a.2 ++ x.2.toList)) (st, [])
  let c := r.1.chan p
  let ended := (st.chan p).frames.filter fun f => decide (f.ends ≤ st.now + 1)
  if ended.isEmpty then r.1.setChan p { c with frames := r.2 }
  else (r.1.setChan p { c with frames := r.2, lastEnd := st.now + 1 }).setPort p { r.1.port p with lastQ := 8 }

/-- The cycles in which something happens to a frame in transit. -/
def StrandSt.ptTimes (st : StrandSt) (p : Nat) (f : PtCur) : List Nat :=
  (if f.lost then [f.received] else []) ++ (f.edits.filter fun e => !e.gone).map (fun e => st.editEnds p f e.edit) ++
  (if f.passed then [] else [st.ptPasses p f]) ++ (if f.launched then [] else [f.launch]) ++
  [match f.breaks with | some (c, _, _) => c | none => f.ends - 1]

/-- The frame that is in transit on the lane for an EDIT: the last to start, until its last FCS byte has left the window (R102). -/
def PtChan.transit (c : PtChan) : Option PtCur := c.frames.getLast?.filter fun f => !f.passed

/-- The number of edits that are pending on a lane (R103). -/
def PtChan.pending (c : PtChan) : Nat := c.edits.length + (c.frames.map fun f => f.edits.countP fun e => !e.gone).sum

/-- An edit armed on the lane of port `p` by EDIT: for the frame in transit, or for the next one to start; in HOLD it is discarded (R58, R102,
R103, R138, R141). -/
def StrandSt.armEdit (st : StrandSt) (p : Fin 4) (e : LaneEdit) : StrandSt :=
  let c := st.chan p
  if 4 ≤ c.pending || st.env.hold then st.discardEdit p
  else match c.transit with
    | none => st.setChan p { c with edits := c.edits ++ [e] }
    | some f =>
      if st.editDeadline p f e.span.1 < st.now + 1 then (st.flag (Reg.PT_FLAGS p) 3).inc (Reg.PT_CNT p + 8 * 5)
      else st.setChan p { c with frames := c.frames.dropLast ++ [{ f with edits := f.edits ++ [{ edit := e }] }] }

/-- Frames in transit are abandoned as the link of port `p` falls (R108), or cut and discarded at entry to HOLD (R122): `k` is the counter of
one that is, `cut` whether one that has begun is ended with an inverted FCS. -/
def StrandSt.ptAbandon (st : StrandSt) (p : Fin 4) (cut : Bool) (k : Nat) : StrandSt :=
  let fs := (st.chan p).frames
  let st := st.setChan p { st.chan p with frames := [] }
  fs.foldl (fun (s : StrandSt) f =>
    if cut && f.launched then (((s.ptBreak p f (s.ptSent f)).inc (Reg.MAC_CNT p + 8 * 17)).flag (Reg.MAC_FLAGS p) 6)
    else (s.ptDropEdits p f).inc (Reg.MAC_CNT p + 8 * k)) st

/-- The frames of channel `p` that are still arriving on port `a`, whose link falls (R139). -/
def StrandSt.ptSourceLost (st : StrandSt) (a : Nat) (p : Fin 4) : StrandSt :=
  let hit := fun (f : PtCur) => f.src == a && decide (st.now < f.received)
  let fs := (st.chan p).frames
  let st := st.setChan p { st.chan p with frames := fs.filter fun f => !hit f }
  (fs.filter hit).foldl (fun (s : StrandSt) f => s.ptLose p f) st

/-- RATE_MISMATCH of channel `p` ends where the speeds agree (R130). -/
def StrandSt.ptRates (st : StrandSt) (p : Fin 4) : StrandSt :=
  match st.chanSource p with
  | some a => if st.speedAct a = st.speedAct p then st.putBit (Reg.PT_STATUS p) 3 false else st
  | none => st

/-- TC_ACT and TC_REFUSED re-judged at a change of link speed: a channel that asked for the addition and may have it (R142). -/
def StrandSt.tcRejudge (st : StrandSt) (p : Fin 4) : StrandSt :=
  if st.bit (Reg.PT_CTL p) 3 && st.ptTx p == 1 && st.env.locked then
    if st.tcWanted p then (st.putBit (Reg.PT_STATUS p) 4 true).putBit (Reg.PT_FLAGS p) 6 false
    else (st.putBit (Reg.PT_STATUS p) 4 false).flag (Reg.PT_FLAGS p) 6
  else st

end Sys2Proof.Machine
end

