-- ==== Sys2Proof/Machine/FlgTime.lean ====
section
/-! DEFINITION. Filigree cluster time, the matrix and its windows, and the closed intervals (R221 to R223, R227). -/

namespace Sys2Proof.Machine

/-- Cluster time in 2^-32 ns (R221). -/
def StrandSt.ct32 (st : StrandSt) : Int := (st.t32 : Int) + st.flg.ctOfs

/-- Cluster time of a strand time in 2^-16 ns, with the offset as it stands. -/
def StrandSt.ctOf16 (st : StrandSt) (t : Int) : Int := t + st.flg.ctOfs / (2 ^ 16 : Nat)

/-- FLG_CTL fields: ROLE, TOPO, NODE_POS, PORTS (R219, R220). -/
def StrandSt.flgRole (st : StrandSt) : Nat := st.fld Reg.FLG_CTL 31 30
def StrandSt.flgLine (st : StrandSt) : Bool := st.bit Reg.FLG_CTL 29
def StrandSt.flgPos (st : StrandSt) : Nat := st.fld Reg.FLG_CTL 25 20
def StrandSt.flgPort (st : StrandSt) (p : Nat) : Bool := st.bit Reg.FLG_CTL (16 + p)
def StrandSt.flgPorts (st : StrandSt) : List Nat := (List.range 4).filter st.flgPort

/-- STATE of FLG_STATUS: 0 OFF, 1 COLD, 2 SYNCING, 3 SYNCED. -/
def StrandSt.flgState (st : StrandSt) : Nat := st.fld Reg.FLG_STATUS 2 0

/-- BC_LEN and NROWS (R222). -/
def StrandSt.bcLen (st : StrandSt) : Nat := st.fld Reg.FLG_MATRIX 23 0
def StrandSt.nRows (st : StrandSt) : Nat := 2 ^ st.fld Reg.FLG_MATRIX 26 24

/-- Start of the basic cycle that holds cluster time `ct` (2^-16 ns), in the same unit. -/
def StrandSt.cycleStart (st : StrandSt) (ct : Int) : Int := ct - ct % ((st.bcLen * 65536 : Nat) : Int)

/-- Row of a cluster time in 2^-16 ns (R222). -/
def StrandSt.rowOf (st : StrandSt) (ct : Int) : Nat := (ct / ((st.bcLen * 65536 : Nat) : Int) % (st.nRows : Int)).toNat

/-- The current row (R222). -/
def StrandSt.flgRow (st : StrandSt) : Nat := st.rowOf (st.ct32 / (2 ^ 16 : Nat))

/-- Offset in the basic cycle of a cluster time in 2^-16 ns (R222). -/
def StrandSt.offOf (st : StrandSt) (ct : Int) : Int := ct % ((st.bcLen * 65536 : Nat) : Int)

/-- Fields of window entry `k`. -/
def StrandSt.winValid (st : StrandSt) (k : Nat) : Bool := st.bit (Reg.WIN_W3 k) 31
def StrandSt.winStart (st : StrandSt) (k : Nat) : Nat := st.fld (Reg.WIN_W0 k) 23 0
def StrandSt.winLen (st : StrandSt) (k : Nat) : Nat := st.fld (Reg.WIN_W1 k) 23 0
def StrandSt.winPrio (st : StrandSt) (k : Nat) : Nat := st.fld (Reg.WIN_W1 k) 31 29
def StrandSt.winKind (st : StrandSt) (k : Nat) : Nat := st.fld (Reg.WIN_W2 k) 31 30
def StrandSt.winOwner (st : StrandSt) (k : Nat) : Nat := st.fld (Reg.WIN_W2 k) 29 24
def StrandSt.winRep (st : StrandSt) (k : Nat) : Nat := st.fld (Reg.WIN_W2 k) 22 20
def StrandSt.winBase (st : StrandSt) (k : Nat) : Nat := st.fld (Reg.WIN_W2 k) 19 14

/-- MARGIN, GUARD and FWD_SLACK. -/
def StrandSt.flgMargin (st : StrandSt) : Nat := st.fld Reg.FLG_MARGIN 15 0
def StrandSt.flgGuard (st : StrandSt) : Nat := st.fld Reg.FLG_GUARD 15 0
def StrandSt.flgSlack (st : StrandSt) : Nat := if st.flgRole = 2 then st.fld Reg.FLG_FWD_SLACK 15 0 else 0

/-- Whether window `k` is in use and belongs to row `r` (R222). -/
def StrandSt.winInRow (st : StrandSt) (k r : Nat) : Bool :=
  st.winValid k && (r + 64 - st.winBase k) % 2 ^ st.winRep k == 0

/-- The numbers of the VALID window entries: entries that are listed in the register table. -/
def StrandSt.winList (st : StrandSt) : List Nat := (List.range 128).filter st.winValid

/-- Whether Filigree holds a switch frame of `n` cycles on port `p` now: the frame and 12 byte times would not end before the next
closed interval of this or the next row (R227). -/
def StrandSt.flgHolds (st : StrandSt) (p n : Nat) : Bool :=
  if st.flgRole = 0 || !st.flgPort p || st.flgState = 0 then false
  else
    let ct := st.ct32 / (2 ^ 16 : Nat)
    let r := st.rowOf ct
    let off := st.offOf ct / 65536
    let stop := off + n + bytesCycles (st.speedAct p) 12
    let bc := st.bcLen
    let closed := fun (base : Nat) (row : Nat) => st.winList.any fun k =>
      st.winInRow k row &&
      (let a : Int := (base + st.winStart k : Nat) - (st.flgMargin : Int)
       let b : Int := (base + st.winStart k + st.winLen k + st.flgGuard + st.flgSlack : Nat)
       decide (off < b) && decide (a < stop))
    closed 0 r || closed bc ((r + 1) % st.nRows)

end Sys2Proof.Machine
end

