-- ==== Sys2Proof/Machine/SwitchOps.lean ====
section
/-! DEFINITION. The frame's path through MAC and switch: tags, filter rules, forwarding, cells, queues, gates and insertion
(rules R111 to R126 and R145 to R166). -/

namespace Sys2Proof.Machine

/-! ## Tags (R116, R117) -/

/-- The recognised elements of a frame: S-tag TCI, C-tag TCI, HSR tag, PRP trailer, and the place of the EtherType after them. -/
structure Tags where
  s : Option Nat
  c : Option Nat
  hsr : Option Nat
  prp : Option Nat
  etAt : Nat
deriving DecidableEq, Repr

/-- The tags of a frame in the order R116 gives. -/
def parseTags (bs : List Byte) : Tags :=
  let s := if be16 bs 12 = 0x88A8 then some (be16 bs 14) else none
  let o1 := if s.isSome then 16 else 12
  let c := if be16 bs o1 = 0x8100 then some (be16 bs (o1 + 2)) else none
  let o2 := if c.isSome then o1 + 4 else o1
  let h := if be16 bs o2 = 0x892F then some (be16 bs (o2 + 2) * 65536 + be16 bs (o2 + 4)) else none
  let o3 := if h.isSome then o2 + 6 else o2
  let n := bs.length
  let p := if n ≥ o3 + 8 && be16 bs (n - 2) = 0x88FB && be16 bs (n - 4) % 4096 = (n - (o3 + 2)) % 4096 then
      some (be16 bs (n - 6) * 65536 + be16 bs (n - 4)) else none
  ⟨s, c, h, p, o3⟩

/-- A frame without `k` bytes from byte `i`. -/
def cutBytes (bs : List Byte) (i k : Nat) : List Byte := bs.take i ++ bs.drop (i + k)

/-- The frame with the tags stripped that MAC_TAGCFG of its port names (R116).  (DEDUCED, safe: log entry 36.) -/
def stripTags (cfg : Word) (t : Tags) (bs : List Byte) : List Byte :=
  let bs := if t.prp.isSome && bitOf cfg 12 then bs.take (bs.length - 6) else bs
  let sLen := if t.s.isSome then 4 else 0
  let cLen := if t.c.isSome then 4 else 0
  let bs := if t.hsr.isSome && bitOf cfg 13 then cutBytes bs (12 + sLen + cLen) 6 else bs
  let bs := if t.c.isSome && bitOf cfg 14 then cutBytes bs (12 + sLen) 4 else bs
  if t.s.isSome && bitOf cfg 15 then cutBytes bs 12 4 else bs

/-! ## Filter rules (R118, R119) -/

/-- VID, PCP and "tagged" as the filter takes them (R118). -/
def StrandSt.vlanOf (st : StrandSt) (p : Nat) (t : Tags) : Nat × Nat × Bool :=
  let def_ := st.rd (Reg.MAC_TAGDEF p)
  match t.c, t.s with
  | some c, _ => (if c % 4096 = 0 then fieldOf def_ 11 0 else c % 4096, c / 8192, true)
  | none, some s => (if s % 4096 = 0 then fieldOf def_ 11 0 else s % 4096, s / 8192, true)
  | none, none => (fieldOf def_ 11 0, fieldOf def_ 15 13, false)

/-- Whether rule `k` of port `p` is VALID and matches (R118). -/
def StrandSt.ruleHits (st : StrandSt) (p k vid pcp et : Nat) (bs : List Byte) : Bool :=
  let w3 := st.rd (Reg.MAC_FLT_W3 p k)
  let w2 := st.rd (Reg.MAC_FLT_W2 p k)
  let w1 := st.rd (Reg.MAC_FLT_W1 p k)
  let w0 := st.rd (Reg.MAC_FLT_W0 p k)
  let da := leBytes 4 w0.toNat ++ leBytes 2 (fieldOf w1 15 0)
  let daOk := match fieldOf w3 30 29 with
    | 0 => true
    | 1 => bs.take 6 == da
    | 2 => bs.take 3 == da.take 3
    | _ => (byteAt bs 0).getLsbD 0 == (da.getD 0 0).getLsbD 0
  bitOf w3 31 && daOk && (!bitOf w3 28 || fieldOf w2 11 0 == vid) && (!bitOf w3 27 || fieldOf w2 14 12 == pcp) &&
    (!bitOf w3 26 || fieldOf w1 31 16 == et)

/-- ACTION and RX queue of a frame: the first matching rule decides, else MAC_PCPMAP or DEF_Q (R118). -/
def StrandSt.filterFrame (st : StrandSt) (p vid pcp : Nat) (tagged : Bool) (et : Nat) (bs : List Byte) : Nat × Nat :=
  match (List.range 32).find? (fun k => st.ruleHits p k vid pcp et bs) with
  | some k => (st.fld (Reg.MAC_FLT_W3 p k) 25 24, st.fld (Reg.MAC_FLT_W3 p k) 18 16)
  | none => (0, if tagged then st.fld (Reg.MAC_PCPMAP p) (4 * pcp + 2) (4 * pcp) else st.fld (Reg.MAC_TAGDEF p) 30 28)

/-! ## Cells (R151 to R155) -/

/-- Sum of `f` over the listed registers whose offset satisfies `p`: for registers that reset to zero it is the sum over all. -/
def StrandSt.sumRegs (st : StrandSt) (p : Nat → Bool) (f : Word → Nat) : Nat :=
  ((st.regs.cells.filter fun c => p c.1).map fun c => f c.2).sum

/-- ΣPMIN and ΣQMIN as configured. -/
def StrandSt.sumPmin (st : StrandSt) : Nat :=
  st.sumRegs (fun o => decide (0x30100 ≤ o) && decide (o < 0x301A0) && o % 16 == 0) (fun w => fieldOf w 13 0)
def StrandSt.sumQmin (st : StrandSt) : Nat :=
  st.sumRegs (fun o => decide (0x30400 ≤ o) && decide (o < 0x30900) && o % 16 == 0) (fun w => fieldOf w 13 0)

/-- PMIN of an ingress port and QMIN of an egress queue in force (R151). -/
def StrandSt.pmin (st : StrandSt) (i : Nat) : Nat := if st.sw.minsOff then 0 else st.fld (Reg.SW_IN_CFG i) 13 0
def StrandSt.qmin (st : StrandSt) (e q : Nat) : Nat := if st.sw.minsOff then 0 else st.fld (Reg.SW_QCFG e q) 13 0

/-- Cells of the shared pool drawn by stored frames, and reserved by frames in reception (R152). -/
def StrandSt.sharedUsed (st : StrandSt) : Nat :=
  (st.sw.frames.cells.map fun c => c.2.shared).sum +
  ([st.ports.get 0, st.ports.get 1, st.ports.get 2, st.ports.get 3].map fun q => (q.rx.map MacRx.shared).getD 0).sum

/-- Free cells of the shared pool (R151). -/
def StrandSt.sharedFree (st : StrandSt) : Nat :=
  8192 - (if st.sw.minsOff then 0 else st.sumPmin + st.sumQmin) - st.sw.retired.length - st.sharedUsed

/-- `n` cell numbers from `k` upward that are not in use; the number bounds the search. -/
def takeCells (used : List Nat) : Nat → Nat → Nat → List Nat
  | 0, _, _ => []
  | _, 0, _ => []
  | fuel + 1, n + 1, k => if used.contains k then takeCells used fuel (n + 1) (k + 1) else k :: takeCells used fuel n (k + 1)

/-- The cells a frame of `n` cells is stored in: the lowest that are free (R146).  (DESIGN CHOICE, safe: log entry 40.) -/
def StrandSt.newCells (st : StrandSt) (n : Nat) : List Nat :=
  takeCells (st.sw.retired ++ st.sw.frames.cells.flatMap fun c => c.2.cells) 8192 n 0

/-- Word `w` (0 to 16,383) of buffer bank SB`b`, without its ECC bits: a cell is striped as two words in each bank (R146).  (DESIGN CHOICE,
safe: log entry 40.) -/
def StrandSt.bufferWord (st : StrandSt) (b w : Nat) : Nat :=
  match st.sw.frames.cells.find? fun c => c.2.cells.contains (w / 2) with
  | some c => leNum ((c.2.frame.bytes.drop (128 * c.2.cells.idxOf (w / 2) + 64 * (w % 2) + 8 * b)).take 8)
  | none => 0

/-- Key of egress queue `q` of switch port `e`. -/
def qKey (e q : Nat) : Nat := 8 * e + q

/-- An egress queue, head first. -/
def StrandSt.queue (st : StrandSt) (e q : Nat) : List SwRef := st.sw.queues.get [] (qKey e q)

/-- The strand with an egress queue replaced. -/
def StrandSt.setQueue (st : StrandSt) (e q : Nat) (l : List SwRef) : StrandSt :=
  { st with sw := { st.sw with queues := st.sw.queues.set [] (qKey e q) l } }

/-- Cells of the frame of queue `q` that a port is sending, or holds preempted: they are charged until it ends (R163). -/
def Port.sendCells (x : Port) (q : Nat) : Nat :=
  ((x.tx.toList ++ x.txHeld.toList).map fun c => if c.queue = q then (c.ref.map Prod.snd).getD 0 else 0).sum

/-- Port `e` of the strand, for a switch port's number. -/
def StrandSt.portOf (st : StrandSt) (e : Nat) : Option Port := if e < 4 then some (st.port (Fin.ofNat 4 e)) else none

/-- OCC of an egress queue: cells charged to it. -/
def StrandSt.occ (st : StrandSt) (e q : Nat) : Nat :=
  ((st.queue e q).map (·.cells)).sum + ((st.portOf e).map fun x => x.sendCells q).getD 0

/-- QCAP of an egress queue; 0 stands for 8,192 (R153). -/
def StrandSt.qcap (st : StrandSt) (e q : Nat) : Nat :=
  let c := st.fld (Reg.SW_QCFG e q) 31 18
  if c = 0 then 8192 else c

/-- Free cells of a queue's QMIN. -/
def StrandSt.qminFree (st : StrandSt) (e q : Nat) : Nat :=
  st.qmin e q - ((st.sw.frames.cells.filter fun c => c.2.minQueue == qKey e q).map fun c => c.2.minCells).sum

/-! ## Forwarding (R149, R165) -/

/-- The forwarding-table entry at an index. -/
def StrandSt.fdbAt (st : StrandSt) (i : Nat) : FdbEnt := st.sw.fdb.get {} i

/-- PORT_MASK of the lowest VALID entry whose VID and DA both match (R149 step 3), in the table as it stood before a write of this cycle
(R150). -/
def StrandSt.fdbLookup (st : StrandSt) (vid : Nat) (bs : List Byte) : Option Nat :=
  (((st.thisCyc.fdb0.getD st.sw.fdb).cells.find? fun c =>
    bitOf c.2.d1 31 && fieldOf c.2.d1 27 16 == vid &&
      bs.take 6 == leBytes 4 c.2.d0.toNat ++ leBytes 2 (fieldOf c.2.d1 15 0))).map fun c => fieldOf c.2.d2 9 0

/-- The bytes of a flow-hash field as bits, bit 7 of each byte first (R62 entry 1, R165).  (PRESUMED, unsafe: log entry 33.) -/
def hashBits (bs : List Byte) : List Bool := bs.flatMap fun b => octetBits false b.toNat

/-- The fields HASH_SEL selects, in the order of its bits; an absent field contributes nothing (R165).  (PRESUMED, unsafe: log entry 33.) -/
def hashFields (sel : Nat) (bs : List Byte) (tci : Option Nat) : List Bool :=
  let t := parseTags bs
  let et := be16 bs t.etAt
  let ip := t.etAt + 2
  let v4 := et == 0x0800
  let v6 := et == 0x86DD
  let l4 := if v4 then ip + 4 * ((byteAt bs ip).toNat % 16) else ip + 40
  let proto := if v4 then (byteAt bs (ip + 9)).toNat else (byteAt bs (ip + 6)).toNat
  let hasL4 := (v4 || v6) && (proto == 6 || proto == 17)
  let part := fun (i n : Nat) => hashBits ((bs.drop i).take n)
  (if bitN sel 0 then part 0 6 else []) ++ (if bitN sel 1 then part 6 6 else []) ++
  (match tci with | some v => if bitN sel 2 then ((List.range 12).map (bitN v)).reverse else [] | none => []) ++
  (if bitN sel 3 then part t.etAt 2 else []) ++
  (if bitN sel 4 && v4 then part (ip + 12) 4 else if bitN sel 4 && v6 then part (ip + 8) 16 else []) ++
  (if bitN sel 5 && v4 then part (ip + 16) 4 else if bitN sel 5 && v6 then part (ip + 24) 16 else []) ++
  (if bitN sel 6 && hasL4 then part l4 2 else []) ++ (if bitN sel 7 && hasL4 then part (l4 + 2) 2 else [])

/-- CRC-16 CCITT of a bit list (R62 entry 1). -/
def crc16Bits (bits : List Bool) : Nat :=
  bits.foldl (CrcEntry.feedBit ⟨16, 0x1021, 0xFFFF, false, false, 0⟩) 0xFFFF

/-- The VLAN tag of a frame as it stands in it, or stood before it was stripped: the C-tag, or the S-tag without one (R118, R165). -/
def Frame.tci (f : Frame) : Option Nat :=
  let t := parseTags f.bytes
  t.c.or (f.info.cTag.or (t.s.or f.info.sTag))

/-- A destination mask with each port group's members replaced by the member the flow hash selects (R149 step 5). -/
def StrandSt.groupMask (st : StrandSt) (mask : Nat) (f : Frame) : Nat :=
  let h := crc16Bits (hashFields (st.fld Reg.SW_CTL 15 8) f.bytes f.tci) % 16
  [0, 1].foldl (fun m g =>
    let mem := st.fld (Reg.SW_GRP_MEM g) 3 0
    if m &&& mem = 0 then m
    else (m - (m &&& mem)) ||| (2 ^ st.fld (Reg.SW_GRP_MAP g) (2 * h + 1) (2 * h))) mask

/-- The destinations of a frame that asked for `mask`, 0 for a lookup; a miss is counted (R149).  (DEDUCED, unsafe: log entry 31.) -/
def StrandSt.destinations (st : StrandSt) (mask : Nat) (f : Frame) : Nat × StrandSt :=
  let r := if mask != 0 then (mask, st)
    else match st.fdbLookup f.info.vid f.bytes with
      | some m => (m, st)
      | none => (st.fld (Reg.SW_IN_CFG f.info.src) 29 20, st.inc (Reg.SW_UCNT + 8 * 15))
  let m := r.1 - (r.1 &&& 2 ^ f.info.src)
  (r.2.groupMask m f, r.2)

/-! ## Queueing and releasing -/

/-- Cells of a stored frame: an external frame counts its FCS (R111, R152), an internal one does not (R154).  (DEDUCED, unsafe: log entry 32.) -/
def frameCells (f : Frame) : Nat := ceilDiv (f.bytes.length + (if f.info.src < 4 then 4 else 0)) 128

/-- Whether a queue accepts `n` more cells under its cap (R153). -/
def StrandSt.capOk (st : StrandSt) (e q n : Nat) : Bool := decide (st.occ e q + n ≤ st.qcap e q)

/-- The ports of a destination mask, ascending. -/
def maskPorts (m : Nat) : List Nat := (List.range 10).filter (bitN m)

/-- The strand with a reference to a stored frame at the tail of a queue. -/
def StrandSt.pushRef (st : StrandSt) (e q : Nat) (r : SwRef) : StrandSt := st.setQueue e q (st.queue e q ++ [r])

/-- A frame put on its destination queues, with its cells charged; what a queue refuses is counted in Q_DROP (R153, R155, R163).
A frame of which the caps leave one destination is unicast (DEDUCED, safe: log entry 179).  The Boolean of the result says whether any queue
took it; the number is the frame's place in the buffer.  (DEDUCED, unsafe: log entry 37.) -/
def StrandSt.enqueue (st : StrandSt) (mask : Nat) (f : Frame) : Nat × Bool × StrandSt :=
  let q := f.info.cls
  let n := frameCells f
  let fits := (maskPorts mask).filter fun e => st.capOk e q n
  let drop := fun (s : StrandSt) (es : List Nat) => es.foldl (fun s e => s.inc (Reg.SW_QCNT e q + 16)) s
  let st1 := drop st ((maskPorts mask).filter fun e => !st.capOk e q n)
  let fid := st1.sw.nextId
  let ref : SwRef := { fid := fid, cells := n, eligible := false, written := st1.now, inv := f.info.oversize || f.info.err }
  match fits with
  | [] => (fid, false, st1)
  | [e] =>
    -- one destination left: a unicast frame
    let fromMin := min n (st1.qminFree e q)
    if n - fromMin ≤ st1.sharedFree then
      let sf : SwFrame := { frame := f, refs := 1, shared := n - fromMin, minQueue := qKey e q, minCells := fromMin,
                            cells := st1.newCells n }
      (fid, true, ({ st1 with sw := { st1.sw with frames := st1.sw.frames.set {} fid sf, nextId := fid + 1 } }).pushRef e q ref)
    else (fid, false, drop st1 [e])
  | es =>
    if n ≤ st1.sharedFree then
      let sf : SwFrame := { frame := f, refs := es.length, shared := n, cells := st1.newCells n }
      let st2 := { st1 with sw := { st1.sw with frames := st1.sw.frames.set {} fid sf, nextId := fid + 1 } }
      (fid, true, (es.foldl (fun s e => s.pushRef e q ref) st2).inc (Reg.SW_UCNT + 8 * 14))
    else (fid, false, drop st1 es)

/-- A mirror copy of a stored frame on the analysis port's queue, or counted as MIR_DROP (R164).  A frame with a copy has two references, so
all its cells count in the shared pool from then on (R163).  (DEDUCED, safe: log entry 179.) -/
def StrandSt.mirrorRef (st : StrandSt) (fid : Nat) (f : Frame) : StrandSt :=
  let e := st.fld Reg.SW_MIRROR 3 0
  let q := st.fld Reg.SW_MIRROR 9 7
  let trunc := st.bit Reg.SW_MIRROR 10 && decide (128 < f.bytes.length + 4)
  let n := frameCells f
  let sf := st.sw.frames.get {} fid
  let need := if sf.refs = 0 then n else sf.minCells
  if st.capOk e q n && decide (need ≤ st.sharedFree) then
    let sf' : SwFrame := { sf with frame := f, refs := sf.refs + 1, shared := sf.shared + need, minCells := 0,
                                   cells := if sf.refs = 0 then st.newCells n else sf.cells }
    let st1 := { st with sw := { st.sw with frames := st.sw.frames.set {} fid sf', nextId := max st.sw.nextId (fid + 1) } }
    let st2 := if sf.refs = 1 then st1.inc (Reg.SW_UCNT + 8 * 14) else st1
    st2.pushRef e q { fid := fid, cells := n, eligible := false, written := st.now, mirror := true,
                      inv := f.info.err || f.info.oversize || trunc, trunc := trunc }
  else (st.flag Reg.SW_FLAGS 0).inc Reg.SW_UCNT

/-- Whether mirroring selects a frame: its source port, any of its destinations, or a filter rule (R164). -/
def StrandSt.mirrored (st : StrandSt) (mask : Nat) (f : Frame) : Bool :=
  bitN (st.fld Reg.SW_MIRROR 31 22) f.info.src || (st.fld Reg.SW_MIRROR 21 12 &&& mask) != 0 || f.info.mark

/-- A frame put on the queues of the destinations `mask`, with its mirror copy (R153, R164). -/
def StrandSt.toQueues (st : StrandSt) (mask : Nat) (f : Frame) : StrandSt :=
  let r := st.enqueue mask f
  if r.2.2.mirrored mask f then r.2.2.mirrorRef r.1 f else r.2.2

/-- A frame enters the switch at its end: destinations, queues and mirror copy (R149, R153, R164). -/
def StrandSt.forward (st : StrandSt) (mask : Nat) (f : Frame) : StrandSt :=
  let d := st.destinations mask f
  d.2.toQueues d.1 f

/-- A cell that failed is freed: tested, and put back into service or retired; after 256 it stays in service (R166). -/
def StrandSt.freeFailed (st : StrandSt) (c : CellFault) : StrandSt :=
  if !c.bad then (if c.ue then st.report 0x0604 .transient [c.cell] else st)
  else if st.sw.retired.length < 256 then
    ({ st with sw := { st.sw with retired := c.cell :: st.sw.retired } } : StrandSt).report 0x0603 .lasting [c.cell]
  else (st.flag Reg.SW_FLAGS 1).report 0x0605 .lasting

/-- One reference to a stored frame released; the last one frees its cells (R163, R166).  A transmit item that no E port has
stamped is noted without a time-stamp (R186). -/
def StrandSt.release (st : StrandSt) (fid : Nat) : StrandSt :=
  let sf := st.sw.frames.get {} fid
  if 1 < sf.refs then
    { st with sw := { st.sw with frames := st.sw.frames.set {} fid { sf with refs := sf.refs - 1 } } }
  else
    let notes := match sf.frame.info.item with
      | some (ring, qseq, true) => if sf.stamped then [] else [({ ring := ring, qseq := qseq, ts := none } : TxNote)]
      | _ => []
    sf.failed.foldl StrandSt.freeFailed
      { st with sw := { st.sw with frames := ⟨tabErase st.sw.frames.cells fid⟩, notes := st.sw.notes ++ notes } }

/-- What a read of a stored frame finds (R166): the counters, flag and log, and the cell that fails. -/
def StrandSt.bufRead (st : StrandSt) (fid : Nat) (e : BufErr) : StrandSt :=
  let fail := fun (s : StrandSt) (i : Nat) (ue bad : Bool) =>
    let sf := s.sw.frames.get {} fid
    let c := sf.cells.getD i 0
    if sf.cells.isEmpty || sf.failed.any fun f => f.cell == c then s
    else { s with sw := { s.sw with frames := s.sw.frames.set {} fid { sf with failed := sf.failed ++ [{ cell := c, ue := ue, bad := bad }] } } }
  match e with
  | .clean => st
  | .corrected => (st.inc (Reg.SW_UCNT + 8)).reportOnce 0x0602 .transient 0
  | .stuck bad => fail st 0 false bad
  | .lost n bad => fail ((st.inc (Reg.SW_UCNT + 16)).flag Reg.SW_FLAGS 2) (n / 128) true bad

/-- The head of a queue leaves it: counted in Q_FRAMES and Q_OCTETS, or not where it is discarded. -/
def StrandSt.popQueue (st : StrandSt) (e q : Nat) (count : Bool) (octets : Nat) : StrandSt :=
  match st.queue e q with
  | [] => st
  | r :: rest =>
    let st1 := (st.setQueue e q rest).release r.fid
    if count then (st1.inc (Reg.SW_QCNT e q)).addCnt (Reg.SW_QCNT e q + 8) octets else st1

/-- Whether a frame from an internal source can be admitted now (R154).  (DEDUCED, unsafe: log entry 37.) -/
def StrandSt.admissible (st : StrandSt) (mask : Nat) (f : Frame) : Bool :=
  let n := frameCells f
  let q := f.info.cls
  let ds := maskPorts mask
  decide (n ≤ st.pmin f.info.src + st.sharedFree) && ds.all (fun e => st.capOk e q n) &&
  (match ds with
   | [] => true
   | [e] => decide (n ≤ st.qminFree e q + st.sharedFree)
   | _ => decide (n ≤ st.sharedFree))

/-- A frame of an internal source is presented: it waits in order (R154). -/
def StrandSt.present (st : StrandSt) (mask : Nat) (f : Frame) : StrandSt :=
  { st with sw := { st.sw with waiting := st.sw.waiting ++ [{ src := f.info.src, mask := mask, frame := f }] } }

/-- Admits what can be admitted of the frames waiting at source `src`: a frame that waits holds back only later frames of its
own class (R154). -/
def StrandSt.admitLoop (st : StrandSt) (src : Nat) : List SwWait → List Nat → StrandSt
  | [], _ => st
  | w :: ws, blocked =>
    if w.src != src || blocked.contains w.frame.info.cls then
      ({ st with sw := { st.sw with waiting := st.sw.waiting ++ [w] } } : StrandSt).admitLoop src ws blocked
    else
      let d := st.destinations w.mask w.frame
      if d.2.admissible d.1 w.frame then (d.2.toQueues d.1 w.frame).admitLoop src ws blocked
      else
        ({ st with sw := { st.sw with waiting := st.sw.waiting ++ [w] } } : StrandSt).admitLoop src ws (w.frame.info.cls :: blocked)

/-- INTERNAL_ADMIT of source `src`. -/
def StrandSt.admitInternal (st : StrandSt) (src : Nat) : StrandSt :=
  ({ st with sw := { st.sw with waiting := [] } } : StrandSt).admitLoop src st.sw.waiting []

/-! ## Gates (R159 to R162) -/

/-- The active list's number, length, cycle time and base time (R159). -/
def StrandSt.gclList (st : StrandSt) (e : Nat) : Nat := b2n (st.bit (Reg.GCL_CTL e) 30)
def StrandSt.gclLen (st : StrandSt) (e : Nat) : Nat :=
  if st.bit (Reg.GCL_CTL e) 30 then st.fld (Reg.GCL_LEN e) 24 16 else st.fld (Reg.GCL_LEN e) 8 0
def StrandSt.gclCycle (st : StrandSt) (e : Nat) : Nat := st.fld (Reg.GCL_CUR_CYCLE e) 29 0
def StrandSt.gclSt (st : StrandSt) (e : Nat) : Gcl := st.sw.gcl.get {} e
def StrandSt.setGcl (st : StrandSt) (e : Nat) (g : Gcl) : StrandSt :=
  { st with sw := { st.sw with gcl := st.sw.gcl.set {} e g } }

/-- The entries of the active list. -/
def StrandSt.gclEntries (st : StrandSt) (e : Nat) : List Word :=
  (List.range (st.gclLen e)).map fun k => st.rd (Reg.GCL e (st.gclList e) k)

/-- The entry that holds at offset `o`: its index and gates; past the last, the last entry's gates (R159). -/
def gclFind (o : Nat) : List Word → Nat → Nat → Option (Nat × Nat)
  | [], _, _ => none
  | w :: ws, k, sum =>
    let s := sum + fieldOf w 23 0
    if o < s then some (k, fieldOf w 31 24) else gclFind o ws (k + 1) s

/-- Entry index and list gates at strand time `t` ns (R159). -/
def StrandSt.gclAt (st : StrandSt) (e t : Nat) : Nat × Nat :=
  let es := st.gclEntries e
  let g := st.gclSt e
  if t < g.base || es.isEmpty || st.gclCycle e = 0 then (0, 0xFF)
  else
    let o := (t - g.base) % st.gclCycle e
    (gclFind o es 0 0).getD (es.length - 1, fieldOf (es.getLastD 0) 31 24)

/-- The list position is noted: GCL_ENTRY_ADVANCE, and entry to HOLD, where it stops (R159, R162). -/
def StrandSt.gclRefresh (st : StrandSt) (e : Nat) : StrandSt :=
  let p := st.gclAt e st.tNs
  st.setGcl e { st.gclSt e with entry := p.1, gates := p.2 }

/-- The list's entry and gates now: of the present time, or in HOLD of the position at which it stopped (R159, R162). -/
def StrandSt.gclNow (st : StrandSt) (e : Nat) : Nat × Nat :=
  if st.env.hold then ((st.gclSt e).entry, (st.gclSt e).gates) else st.gclAt e st.tNs

/-- The effective gate of queue `q`: list gate and angle gate; GATE_EN = 0 and HOLD open every gate (R159, R162). -/
def StrandSt.gateOpen (st : StrandSt) (e q : Nat) : Bool :=
  !st.bit (Reg.GCL_CTL e) 31 || st.env.hold ||
  (bitN (st.gclNow e).2 q && (!st.bit (Reg.GCL_AGATE e) (8 + q) || st.bit (Reg.GCL_AGATE e) q))

/-- A frame of queue `q` is in transmission as its angle gate closes (R160). -/
def StrandSt.gateOverruns (st : StrandSt) (e : Nat) (was : StrandSt) : StrandSt :=
  (List.range 8).foldl (fun (s : StrandSt) q =>
    let sends := match s.portOf e with
      | some x => (match x.tx with | some c => c.queue == q && decide (s.now < c.stop) | none => false)
      | none => false
    if sends && was.gateOpen e q && !s.gateOpen e q then s.inc (Reg.SW_QCNT e q + 32) else s) st

/-- AG_STATE of port `e` changed by a Bangle action: a master's write of the same cycle is lost, and AGATE_LOST set (R159). -/
def StrandSt.agateBangle (st : StrandSt) (e q : Nat) (b : Bool) : StrandSt :=
  let was := st
  let y := st.thisCyc
  let st := match y.agateM.get none e with
    | some old => (st.put (Reg.GCL_AGATE e) 7 0 old).flag Reg.SW_FLAGS 5
    | none => st
  let st := st.inCyc fun y => { y with agateB := e :: y.agateB, agateM := y.agateM.set none e none }
  (st.putBit (Reg.GCL_AGATE e) q b).gateOverruns e was

/-- A master's write of GCL_AGATE, as the value it leaves: its AG_STATE is lost where a Bangle action changed it in this cycle (R159). -/
def StrandSt.agateWrite (st : StrandSt) (e : Nat) (v : Word) : StrandSt :=
  let was := st
  let y := st.thisCyc
  let old := st.fld (Reg.GCL_AGATE e) 7 0
  let st := st.put (Reg.GCL_AGATE e) 15 8 (fieldOf v 15 8)
  if y.agateB.contains e then (st.flag Reg.SW_FLAGS 5).gateOverruns e was
  else
    let st := st.inCyc fun y => { y with agateM := if (y.agateM.get none e).isSome then y.agateM else y.agateM.set none e (some old) }
    (st.put (Reg.GCL_AGATE e) 7 0 (fieldOf v 7 0)).gateOverruns e was

/-- The boundaries of the active list within a cycle, rising, the cycle's end included. -/
def gclBounds (cycle : Nat) : List Word → Nat → List Nat
  | [], _ => [cycle]
  | w :: ws, sum =>
    let s := sum + fieldOf w 23 0
    if cycle ≤ s then [cycle] else s :: gclBounds cycle ws s

/-- Nanoseconds until the list gate of queue `q` next closes, if it ever does; a pending swap closes every gate (R160). -/
def StrandSt.gateCloses (st : StrandSt) (e q : Nat) : Option Nat :=
  let t := st.tNs
  let g := st.gclSt e
  let es := st.gclEntries e
  let cyc := st.gclCycle e
  let swap := if st.bit (Reg.GCL_CTL e) 29 then some (g.swapAt - t) else none
  let list :=
    if es.isEmpty || cyc = 0 then none
    else
      let start := if t < g.base then g.base else t - (t - g.base) % cyc
      let bs := gclBounds cyc es 0
      let times := (if t < g.base then [g.base] else []) ++ (bs.map (start + ·)) ++ (bs.map (start + cyc + ·))
      (times.filter fun b => decide (t < b) && !bitN (st.gclAt e b).2 q).head?.map (· - t)
  match swap, list with
  | some a, some b => some (min a b)
  | some a, none => some a
  | none, l => l

/-! ## Transmission (R117, R122, R157, R160, R186, R187) -/

/-- The bytes a MAC sends for a frame of the switch: tags inserted, padded, PRP trailer after the padding (R117).  (PRESUMED, unsafe: log entry 34.)
(DEDUCED, unsafe: log entry 180.) -/
def StrandSt.txWire (st : StrandSt) (p : Nat) (mirror : Bool) (f : Frame) : List Byte :=
  let cfg := st.rd (Reg.MAC_TAGCFG p)
  let def_ := st.rd (Reg.MAC_TAGDEF p)
  let m := f.info
  if mirror then f.bytes ++ List.replicate (60 - f.bytes.length) 0
  else
    let t := parseTags f.bytes
    let tag := fun (et tci : Nat) => beBytes 2 et ++ beBytes 2 tci
    let wantC := m.insC.getD (bitOf cfg 10) && t.c.isNone
    let wantS := m.insS.getD (bitOf cfg 11) && t.s.isNone
    let sLen := if t.s.isSome then 4 else 0
    let cIns := if wantC then tag 0x8100 (m.cTag.getD (fieldOf def_ 15 13 * 8192 + fieldOf def_ 11 0)) else []
    let sIns := if wantS then tag 0x88A8 (m.sTag.getD (fieldOf def_ 15 13 * 8192 + fieldOf def_ 27 16)) else []
    let lan := fieldOf cfg 7 4
    let body := f.bytes.drop t.etAt
    let head := f.bytes.take t.etAt
    let lsdu := body.length - 2 + 6
    let hIns := if bitOf cfg 9 && t.hsr.isNone then
        beBytes 2 0x892F ++ beBytes 2 (lan * 4096 + lsdu % 4096) ++ beBytes 2 m.seq else []
    let head := head.take 12 ++ sIns ++ (head.drop 12).take sLen ++ cIns ++ head.drop (12 + sLen) ++ hIns
    let whole := head ++ body
    if bitOf cfg 8 && t.prp.isNone then
      let padded := whole ++ List.replicate (54 - whole.length) 0
      let size := padded.length - (head.length + 2) + 6
      padded ++ beBytes 2 m.seq ++ beBytes 2 (lan * 4096 + size % 4096) ++ beBytes 2 0x88FB
    else whole ++ List.replicate (60 - whole.length) 0

/-- Whether a frame of the switch is a management frame of port `p` (R122): `wire` is the frame as sent, so a tag that the port inserts
counts.  (DEDUCED, safe: log entry 181.) -/
def StrandSt.isMgmt (st : StrandSt) (p : Nat) (wire : List Byte) (m : FrMeta) : Bool :=
  let t := parseTags wire
  let vid := match t.c.or t.s with
    | some tci => some (tci % 4096)
    | none => if m.tagged then some m.vid else none
  match vid with
  | some v => v == st.fld (Reg.MAC_MGMT p) 11 0
  | none => st.bit (Reg.MAC_MGMT p) 12 && be16 wire t.etAt == 0x88B5

/-- Whether a pause of queue `q` is in force on a port at cycle `now` (R123). -/
def Port.pausedAt (x : Port) (q now : Nat) : Bool := decide (now < x.pause.get 0 8) || decide (now < x.pause.get 0 q)

/-- Whether egress queue `q` of E port `e` is paused (R123). -/
def StrandSt.paused (st : StrandSt) (e q : Nat) : Bool := ((st.portOf e).map fun x => x.pausedAt q st.now).getD false

/-- The reference of a frame in transmission, or held preempted, is released (R163). -/
def StrandSt.txRelease (st : StrandSt) (c : TxCur) : StrandSt :=
  match c.ref with
  | some r => st.release r.1
  | none => st

/-- The piece in transmission on a port ends: a fragment leaves its remainder, a frame is counted and its reference released (R124, R128,
R163, R166). -/
def StrandSt.txDone (st : StrandSt) (p : Fin 4) : StrandSt :=
  match (st.port p).tx with
  | none => st
  | some c =>
    let st := (st.setPort p { st.port p with tx := none, lastQ := c.queue }).setChan p { st.chan p with lastEnd := c.stop }
    if c.upto < c.wire.length && !c.broke then
      (st.setPort p { st.port p with txHeld := some { c with sent := c.upto } }).emit
        (.fragment p ((c.wire.take c.upto).drop c.sent))
    else
      let st := if c.broke then st else (st.inc (Reg.MAC_CNT p + 8 * 12)).addCnt (Reg.MAC_CNT p + 8 * 13) (c.wire.length + 4)
      (st.emit (.frame p (c.wire.take c.upto) c.inv)).txRelease c

/-- The 10-byte and the correction insertion of one-step time-stamps (R187): the bytes, and whether it failed. -/
def oneStepInsert (os : Option (Nat × Option Nat)) (ts : Nat) (bs : List Byte) : List Byte × Bool :=
  match os with
  | none => (bs, false)
  | some (k, j) =>
    let fits := decide (16 ≤ k) && decide (k + 10 ≤ bs.length) &&
      (match j with | some j => decide (16 ≤ j) && decide (j + 8 ≤ bs.length) | none => true)
    if !fits then (bs, true)
    else
      let b1 := overlay bs k (beBytes 6 (secOf16 ts) ++ beBytes 4 (nsOf16 ts))
      (match j with
       | some j => overlay b1 j (beBytes 8 (wrapN 64 (beNum ((b1.drop j).take 8) + fracOf16 ts)))
       | none => b1, false)

/-- The frame in transmission on port `p` crosses the time-stamp point: its item gets its TX time-stamp if no port has stamped it yet, and
one-step fields are inserted (R126, R186, R187). -/
def StrandSt.txStampNow (st : StrandSt) (p : Fin 4) : StrandSt :=
  match (st.port p).tx with
  | none => st
  | some c =>
    let ts := (st.txStamp p 0).toNat
    let ins := oneStepInsert c.frame.info.oneStep ts c.wire
    let st := st.setPort p { st.port p with tx := some { c with stamp := none, wire := ins.1 } }
    let st := if ins.2 then st.inc (Reg.TIME_CNT + 8 * 8) else st
    match c.ref, c.frame.info.item with
    | some (fid, _), some (ring, qseq, true) =>
      let sf := st.sw.frames.get {} fid
      if sf.stamped then st
      else { st with sw := { st.sw with notes := st.sw.notes ++ [{ ring := ring, qseq := qseq, ts := some (ts, st.tsFlags) }],
                                        frames := st.sw.frames.set {} fid { sf with stamped := true } } }
    | _, _ => st

/-- Cycles for `n` frame bytes with preamble and check bytes. -/
def StrandSt.frameCycles (st : StrandSt) (p n : Nat) : Nat := bytesCycles (st.speedAct p) (8 + n + 4)

/-- A switch frame starts on E port `p` from queue `q`, with `k` bytes as its first piece; its reference leaves the queue (R157, R163). -/
def StrandSt.startTx (st : StrandSt) (p : Fin 4) (q : Nat) (r : SwRef) (wire : List Byte) (k : Nat) : StrandSt :=
  let sf := st.sw.frames.get {} r.fid
  let cur : TxCur := { frame := sf.frame, queue := q, ref := some (r.fid, r.cells), start := st.now,
                       stop := st.now + st.frameCycles p k, wire := wire, upto := k,
                       stamp := some (st.now + bytesCycles (st.speedAct p) 8), inv := r.inv }
  let st := (st.setPort p { st.port p with tx := some cur }).setQueue p q (st.queue p q).tail
  (st.inc (Reg.SW_QCNT p q)).addCnt (Reg.SW_QCNT p q + 8) (wire.length + 4)

end Sys2Proof.Machine
end

