-- ==== Sys2Proof/Machine/RedOps.lean ====
section
/-! DEFINITION. The redundancy package on received frames: PRP and HSR duplicates, the HSR ring (R253, R254). -/

namespace Sys2Proof.Machine

/-- The redundancy package of the strand, with its number (R244). -/
def StrandSt.redPkg (st : StrandSt) : Option (Nat × Pkg) := (st.pkgs.zipIdx.find? fun x => x.1.id == 14).map fun x => (x.2, x.1)

/-- The strand with package `k` replaced. -/
def StrandSt.setPkg (st : StrandSt) (k : Nat) (p : Pkg) : StrandSt := { st with pkgs := st.pkgs.set k p }

/-- The duplicate table without the entries of 400 ms ago and before (R253). -/
def Pkg.freshDups (p : Pkg) (ns : Nat) : List (Nat × Nat × Nat) := p.dups.filter fun e => ns < e.2.2 + 400000000

/-- Whether the table holds a frame (R253). -/
def Pkg.knows (p : Pkg) (ns sa seq : Nat) : Bool := (p.freshDups ns).any fun e => e.1 == sa && e.2.1 == seq

/-- A frame entered into the table, whose oldest entry goes where it is full (R253).  (DESIGN CHOICE, unsafe: log entry 194.) -/
def Pkg.note (p : Pkg) (ns sa seq : Nat) : Pkg :=
  let l := p.freshDups ns ++ [(sa, seq, ns)]
  { p with dups := l.drop (l.length - 4096) }

/-- The source address of a frame. -/
def frameSa (f : Frame) : Nat := beNum ((f.bytes.drop 6).take 6)

/-- A frame of a LAN port under PRP: its second copy does not reach the core; other destinations get both (R253).  (DESIGN CHOICE, unsafe: log entry
194.) -/
def StrandSt.prpForward (st : StrandSt) (k : Nat) (p : Pkg) (f : Frame) : StrandSt :=
  let d := st.destinations 0 f
  match f.info.prp with
  | some t =>
    if !bitN d.1 5 then d.2.toQueues d.1 f
    else if p.knows st.env.ns (frameSa f) (t / 65536) then
      (d.2.setPkg k { p with dupDiscard := p.dupDiscard + 1 }).toQueues (d.1 - 2 ^ 5) f
    else (d.2.setPkg k (p.note st.env.ns (frameSa f) (t / 65536))).toQueues d.1 f
  | none => d.2.toQueues d.1 f

/-- Frames one package may forward on the ring in a second (R254). -/
def ringLimit : Nat := 300000

/-- A frame to be forwarded counted against the limit in its second of the device's time; the Boolean says that it lies within (R254).  (DESIGN
CHOICE, unsafe: log entry 194.) -/
def Pkg.ringTake (p : Pkg) (ns : Nat) : Bool × Pkg :=
  let sec := ns / 1000000000
  let n := if p.ringSec = sec then p.ringCount else 0
  if n < ringLimit then (true, { p with ringSec := sec, ringCount := n + 1 })
  else (false, { p with ringSec := sec, ringCount := n, ringDrop := p.ringDrop + 1 })

/-- A frame of a ring port under HSR: it goes to port C; there the node's own frames and duplicates are discarded, and any other is forwarded once
to the other ring port and to its local destinations, as a frame of C (R254).  (DESIGN CHOICE, unsafe: log entry 194.) -/
def StrandSt.hsrForward (st : StrandSt) (k : Nat) (p : Pkg) (f : Frame) : StrandSt :=
  let ring := (List.range 4).filter (bitN p.ports)
  let seq := (f.info.hsr.getD 0) % 65536
  let sa := frameSa f
  if ring.any fun q => Config.portAddress st.env.sid q == sa then st
  else if f.info.hsr.isSome && p.knows st.env.ns sa seq then st.setPkg k { p with dupDiscard := p.dupDiscard + 1 }
  else
    let r := (if f.info.hsr.isSome then p.note st.env.ns sa seq else p).ringTake st.env.ns
    let st := st.setPkg k r.2
    if !r.1 then st
    else
      let d := st.destinations 0 f
      let other := ((ring.filter (· != f.info.src)).map (2 ^ ·)).sum
      let local_ := (maskPorts d.1).filter fun e => e != 5 && !ring.contains e
      let mask := other + (local_.map (2 ^ ·)).sum
      let st := d.2.toQueues (2 ^ 5) f
      if mask = 0 then st else st.present mask { f with info := { f.info with src := 5, item := none } }

/-- A received frame enters the switch, through the redundancy package where that holds its port (R253, R254). -/
def StrandSt.redForward (st : StrandSt) (f : Frame) : StrandSt :=
  match st.redPkg with
  | some (k, p) =>
    if !bitN p.ports f.info.src then st.forward 0 f
    else if p.role = 0 then st.prpForward k p f
    else if p.role = 1 then st.hsrForward k p f
    else st.forward 0 f
  | none => st.forward 0 f

end Sys2Proof.Machine
end

