-- ==== Sys2Proof/Machine/PortOps.lean ====
section
/-! DEFINITION. Receiving a frame, flow control, link changes and starting frames on egress ports (R107 to R109, R111 to R125, R128,
R147, R154, R156 to R162).  What happens by itself in a cycle, a frame's decision or end, is settled as that cycle passes, so that commands of
the cycle come before it. -/

namespace Sys2Proof.Machine

/-! ## Whether the port's switch side may start frames (R109, R120, R140) -/

/-- Whether the port's switch side may start frames at all: TX enabled, PT_TX not 1, nothing in transit on its channel, and with PT_TX = 2 the
source lane not in a frame (R109, R120, R140). -/
def StrandSt.txFree (st : StrandSt) (p : Fin 4) : Bool :=
  st.bit (Reg.MAC_CTL p) 1 && st.ptTx p != 1 && (st.chan p).frames.isEmpty &&
  (st.ptTx p != 2 || (match st.chanSource p with
     | some a => (st.port (Fin.ofNat 4 a)).rx.isNone
     | none => true))

/-! ## Flow control toward external peers (R156) -/

/-- IN_USE of an E port: one class, or all. -/
def StrandSt.inUse (st : StrandSt) (p c : Nat) : Nat := st.sw.inUse.get 0 (8 * p + c)
def StrandSt.inUseAll (st : StrandSt) (p : Nat) : Nat := ((List.range 8).map (st.inUse p)).sum

/-- A MAC control frame of port `p`.  (DESIGN CHOICE, safe: log entry 11.) -/
def StrandSt.ctlFrame (st : StrandSt) (p : Nat) (body : List Byte) : List Byte :=
  let bs := beBytes 6 0x0180C2000001 ++ beBytes 6 (Config.portAddress st.env.sid p) ++ beBytes 2 0x8808 ++ body
  bs ++ List.replicate (60 - bs.length) 0

/-- The priorities whose MAC_PCPMAP names class `c` (R156). -/
def StrandSt.pcpsOf (st : StrandSt) (p c : Nat) : List Nat :=
  (List.range 8).filter fun k => st.fld (Reg.MAC_PCPMAP p) (4 * k + 2) (4 * k) == c

/-- The PAUSE frame (class 8) or the PFC frame for class `c` with the given quanta (R156). -/
def StrandSt.fcFrame (st : StrandSt) (p c quanta : Nat) : List Byte :=
  st.ctlFrame p (if c = 8 then beBytes 2 0x0001 ++ beBytes 2 quanta
    else
      let ps := st.pcpsOf p c
      beBytes 2 0x0101 ++ beBytes 2 ((ps.map (2 ^ ·)).sum) ++
        (List.range 8).flatMap (fun k => beBytes 2 (if ps.contains k then quanta else 0)))

/-- A waiting flow-control frame starts at the frame boundary, ahead of all queues, past gates and shapers (R156).  (DEDUCED, safe: log entry
38.) -/
def StrandSt.fcGo (st : StrandSt) (p : Fin 4) : StrandSt :=
  if (st.port p).tx.isSome || !st.txFree p || !st.linkUp p || st.env.hold then st
  else match (List.range 9).find? fun k => ((st.port p).fc.get none k).isSome with
    | none => st
    | some k =>
      let wire := st.fcFrame p k (((st.port p).fc.get none k).getD 0)
      let cur : TxCur := { frame := { bytes := wire }, queue := 8, start := st.now + 1, wire := wire, upto := wire.length,
                           stop := st.now + 1 + bytesCycles (st.speedAct p) (8 + wire.length + 4) }
      (st.setPort p { st.port p with tx := some cur, fc := (st.port p).fc.set none k none,
                                     fcAt := (st.port p).fcAt.set 0 k (st.now + 1) }).inc (Reg.SW_UCNT + 8 * (4 + p))

/-- A PAUSE (class 8) or a PFC frame for class `c` is to be sent; none in HOLD, on a port that sends lane frames only, or without a link
(R120, R156). -/
def StrandSt.sendFc (st : StrandSt) (p : Fin 4) (c quanta : Nat) : StrandSt :=
  if st.env.hold || !st.linkUp p || st.ptTx p == 1 then st
  else (st.setPort p { st.port p with fc := (st.port p).fc.set none c (some quanta) }).fcGo p

/-- FC_MODE of port `p` in force (R156). -/
def StrandSt.fcMode (st : StrandSt) (p : Nat) : Nat := if st.sw.fcOff.get false p then 0 else st.fld (Reg.SW_FC p) 31 30

/-- The count FC_MODE compares for class `c`. -/
def StrandSt.fcCount (st : StrandSt) (p c : Nat) : Nat := if st.fcMode p = 1 then st.inUseAll p else st.inUse p c

/-- The comparison of the counts with XOFF and XON after they changed for class `c` (R156). -/
def StrandSt.fcCheck (st : StrandSt) (p : Fin 4) (c : Nat) : StrandSt :=
  let m := st.fcMode p
  if m = 0 then st
  else
    let bitAt := if m = 1 then 24 else 24 + c
    let n := st.fcCount p c
    let k := if m = 1 then 8 else c
    let on := st.bit (Reg.SW_IN_STAT p) bitAt
    if !on && st.fld (Reg.SW_FC p) 27 14 ≤ n then
      (st.putBit (Reg.SW_IN_STAT p) bitAt true).sendFc p k (st.fld (Reg.SW_FCQ p) 15 0)
    else if on && n < st.fld (Reg.SW_FC p) 13 0 then
      (st.putBit (Reg.SW_IN_STAT p) bitAt false).sendFc p k 0
    else st

/-- FC_REPEAT: QUANTA × 256 bit times after the last one the frame is repeated while the count stays at or above XON (R156). -/
def StrandSt.fcRepeat (st : StrandSt) (p : Fin 4) (c : Nat) : StrandSt :=
  let m := st.fcMode p
  let bitAt := if m = 1 then 24 else 24 + c
  let k := if m = 1 then 8 else c
  let quanta := st.fld (Reg.SW_FCQ p) 15 0
  if m != 0 && st.bit (Reg.SW_IN_STAT p) bitAt && decide (st.fld (Reg.SW_FC p) 13 0 ≤ st.fcCount p c) &&
      decide ((st.port p).fcAt.get 0 k + bytesCycles (st.speedAct p) (32 * quanta) ≤ st.now) then
    st.sendFc p k quanta
  else st

/-- The strand with the cells charged to a port's class changed (R152). -/
def StrandSt.charge (st : StrandSt) (p c : Nat) (n : Int) : StrandSt :=
  { st with sw := { st.sw with inUse := st.sw.inUse.set 0 (8 * p + c) ((st.inUse p c : Int) + n).toNat } }

/-! ## Flow control received (R123) -/

/-- Cycles of a number of pause quanta of 512 bit times. -/
def quantaCycles (code q : Nat) : Nat := bytesCycles code (64 * q)

/-- A PAUSE or PFC frame's effect; the Boolean says the frame was one (R123).  (DEDUCED, unsafe: log entry 30.)  Of several priorities mapped
to one queue the highest decides.  (DEDUCED, unsafe: log entry 26.) -/
def StrandSt.macControl (st : StrandSt) (p : Fin 4) (bs : List Byte) : Bool × StrandSt :=
  if be16 bs 12 != 0x8808 then (false, st)
  else match be16 bs 14 with
    | 0x0001 =>
      let st1 := st.inc (Reg.MAC_CNT p + 8 * 7)
      if st.bit (Reg.MAC_CTL p) 17 then
        let q := be16 bs 16
        let stop := if q = 0 then 0 else st.now + quantaCycles (st.speedAct p) q
        (true, st1.setPort p { st1.port p with pause := (st1.port p).pause.set 0 8 stop })
      else (true, st1)
    | 0x0101 =>
      let st1 := st.inc (Reg.MAC_CNT p + 8 * 7)
      if st.bit (Reg.MAC_CTL p) 18 then
        let en := be16 bs 16
        let pause := (List.range 8).foldl (fun t k =>
          if bitN en k then
            let q := be16 bs (18 + 2 * k)
            t.set 0 (st.fld (Reg.MAC_PCPMAP p) (4 * k + 2) (4 * k)) (if q = 0 then 0 else st.now + quantaCycles (st.speedAct p) q)
          else t) (st1.port p).pause
        (true, st1.setPort p { st1.port p with pause := pause })
      else (true, st1)
    | _ => (false, st)

/-- PAUSE_EXPIRY: the pause of a queue, or of the port (8), has run out (R123). -/
def StrandSt.pauseExpiry (st : StrandSt) (p : Fin 4) (q : Nat) : StrandSt :=
  if st.now < (st.port p).pause.get 0 q then st else st.setPort p { st.port p with pause := (st.port p).pause.set 0 q 0 }

/-! ## Receiving (R111 to R119, R125, R126) -/

/-- Whether a frame is a PAUSE or PFC frame, which the MAC consumes: it goes to no lane and no queue (R123).  (DEDUCED, unsafe: log entry
30.) -/
def macControlFrame (bs : List Byte) : Bool := be16 bs 12 == 0x8808 && (be16 bs 14 == 0x0001 || be16 bs 14 == 0x0101)

/-- The error counter of a received frame, if it has an error: the first that applies in the order of R112. -/
def rxError (maxLen : Nat) (w : RxWire) : Option Nat :=
  let len := w.bytes.length + 4
  if w.linkLost then some 10
  else if w.symErr then some 9
  else if maxLen < len then some 4
  else if len < 64 then some 3
  else if w.fcsBad then some 2
  else none

/-- The bytes the MAC keeps of a frame: all, or of an oversize one the first MAXLEN − 4 (R113). -/
def StrandSt.rxBytes (st : StrandSt) (p : Nat) (w : RxWire) : List Byte :=
  if st.maxLen p < w.bytes.length + 4 then w.bytes.take (st.maxLen p - 4) else w.bytes

/-- The metadata of a received frame (R116, R118, R126): the sequence number of an HSR or PRP element goes with it (R117). -/
def StrandSt.rxMeta (st : StrandSt) (p : Nat) (t : Tags) (v : Nat × Nat × Bool) (cls : Nat) (ts : Nat × Nat) : FrMeta :=
  let cfg := st.rd (Reg.MAC_TAGCFG p)
  let hsr := if bitOf cfg 13 then t.hsr else none
  let prp := if bitOf cfg 12 then t.prp else none
  { src := p, cls := cls, sTag := if bitOf cfg 15 then t.s else none, cTag := if bitOf cfg 14 then t.c else none,
    hsr := hsr, prp := prp, seq := match hsr, prp with
      | some h, _ => h % 65536
      | none, some r => r / 65536
      | none, none => 0,
    vid := v.1, pcp := v.2.1, tagged := v.2.2, ts := some ts }

/-- The cells reserved for a frame bound for the switch, ⌈MAXLEN / 128⌉, first from its port's PMIN (R115, R152): from either part, or none
where they do not suffice. -/
def StrandSt.reserve (st : StrandSt) (p : Nat) : Option (Nat × Nat) :=
  let n := ceilDiv (st.maxLen p) 128
  let own := min n (st.pmin p)
  if n - own ≤ st.sharedFree then some (own, n - own) else none

/-- Whether a port reassembles fragments (R121, R125). -/
def StrandSt.preemptPort (st : StrandSt) (p : Nat) : Bool := st.bit (Reg.MAC_PREEMPT p) 0 && st.ptRx p == 0 && st.ptTx p == 0

/-- The time-stamp of a frame whose time-stamp point was crossed `age` cycles ago. -/
def StrandSt.rxStampAt (st : StrandSt) (p age : Nat) : Int := st.rxStamp p - age * st.cycle32 / (2 ^ 16 : Nat)

/-- A frame starts on port `p`: its lane words, its reservation and its time-stamp (R105, R109, R115, R120, R125, R126).  A port that does not
reassemble takes no fragments for a frame.  `bound`: it is one for the switch; `flg`: a Filigree frame, which is decided after byte 18 (R226).  (DEDUCED,
safe: log entry 187.) -/
def StrandSt.rxFrame (st : StrandSt) (p : Fin 4) (w : RxWire) (bound flg : Bool) : StrandSt :=
  if !st.bit (Reg.MAC_CTL p) 0 || !st.linkUp p || !st.env.active || (st.port p).rx.isSome ||
      ((w.frags != 1 || w.assyErr) && !st.preemptPort p) then st
  else
    let st := st.addCnt (Reg.MAC_CNT p + 8 * 11) (w.frags - 1)
    if w.assyErr then st.inc (Reg.MAC_CNT p + 8 * 8)
    else
      let code := st.speedAct p
      let stop := if w.frags = 1 then byteCycle code st.now (w.bytes.length + 3) else st.now
      let cells := if bound then st.reserve p else none
      let refused := bound && cells.isNone
      let lane := if st.ptRx p = 0 || macControlFrame w.bytes then (st.port p).lane
        else some { bytes := st.rxBytes p w, start := st.now, err := w.fcsBad || decide (st.maxLen p < w.bytes.length + 4) }
      let rx : MacRx :=
        { wire := w, stop := stop, bound := bound, refused := refused,
          decides := min stop (if w.frags = 1 then byteCycle code st.now (if flg then 18 else (parseTags w.bytes).etAt + 2) else st.now),
          own := (cells.map Prod.fst).getD 0, shared := (cells.map Prod.snd).getD 0,
          start := st.now, stamp := (st.rxStampAt p w.age).toNat, flags := st.tsFlags, flg := flg,
          ct := st.ctOf16 (st.rxStampAt p w.age) }
      let st := st.setPort p { st.port p with rx := some rx, lane := lane }
      if refused then st.flag (Reg.MAC_FLAGS p) 3 else st

/-- The filter decision of the frame in reception: from here its cells count in IN_USE (R118, R119, R152). -/
def StrandSt.rxDecide (st : StrandSt) (p : Fin 4) : StrandSt :=
  match (st.port p).rx with
  | none => st
  | some r =>
    if r.flg || !r.bound || r.refused || r.rule.isSome then st
    else
      let bytes := st.rxBytes p r.wire
      let t := parseTags bytes
      let v := st.vlanOf p t
      let f := st.filterFrame p v.1 v.2.1 v.2.2 (be16 bytes t.etAt) bytes
      let st := st.setPort p { st.port p with rx := some { r with rule := some f } }
      (st.charge p f.2 (r.own + r.shared)).fcCheck p f.2

/-- The frame in reception is over: its reservation and its ingress charge go back (R152, R153). -/
def StrandSt.rxClear (st : StrandSt) (p : Fin 4) : StrandSt :=
  match (st.port p).rx with
  | none => st
  | some r =>
    let st := st.setPort p { st.port p with rx := none }
    match r.rule with
    | some f => (st.charge p f.2 (-((r.own + r.shared : Nat) : Int))).fcCheck p f.2
    | none => st

/-- The switch side of a frame at its end: filter, tags, error handling and forwarding (R113, R114, R116, R118, R149); `ok` counts it as
received without error. -/
def StrandSt.rxSwitch (st : StrandSt) (p : Fin 4) (r : MacRx) (err : Option Nat) : StrandSt :=
  let ovs := err == some 4
  let bytes := st.rxBytes p r.wire
  let t := parseTags bytes
  let f := r.rule.getD (0, 0)
  let m := st.rxMeta p t (st.vlanOf p t) f.2 (r.stamp, r.flags)
  let frame : Frame := { bytes := stripTags (st.rd (Reg.MAC_TAGCFG p)) t bytes, info := { m with mark := f.1 == 2, oversize := ovs } }
  match err with
  | some 4 => if f.1 != 1 && st.bit (Reg.MAC_CTL p) 16 then st.redForward frame else st
  | some _ =>
    if st.bit Reg.SW_MIRROR 11 && bitN (st.fld Reg.SW_MIRROR 31 22) p then
      st.mirrorRef st.sw.nextId { frame with info := { frame.info with err := true } }
    else st
  | none => if f.1 = 1 then st.inc (Reg.MAC_CNT p + 8 * 6) else st.redForward frame

/-- A frame received without error and not dropped (R112). -/
def StrandSt.rxCount (st : StrandSt) (p : Nat) (w : RxWire) : StrandSt :=
  (st.inc (Reg.MAC_CNT p)).addCnt (Reg.MAC_CNT p + 8) (w.bytes.length + 4)

/-- The errors of a frame at its end: its flags and its counter (R112, R113). -/
def StrandSt.rxErrors (st : StrandSt) (p : Nat) (w : RxWire) : StrandSt :=
  let st := if st.maxLen p < w.bytes.length + 4 then st.flag (Reg.MAC_FLAGS p) 2 else st
  let st := if w.fcsBad && !w.linkLost then st.flag (Reg.MAC_FLAGS p) 1 else st
  match rxError (st.maxLen p) w with
  | some c => st.inc (Reg.MAC_CNT p + 8 * c)
  | none => st

/-- The frame in reception on port `p` ends (R112 to R119, R123). -/
def StrandSt.rxEnds (st : StrandSt) (p : Fin 4) (r : MacRx) : StrandSt :=
  let w := r.wire
  let err := rxError (st.maxLen p) w
  let st := (st.rxClear p).rxErrors p w
  if err.isNone && macControlFrame w.bytes then (st.macControl p w.bytes).2.rxCount p w
  else if st.ptRx p = 1 then (if err.isNone then st.rxCount p w else st)
  else if r.refused then (if err.isNone then st.inc (Reg.MAC_CNT p + 8 * 5) else st)
  else
    let st := if err.isNone && (r.rule.getD (0, 0)).1 != 1 then st.rxCount p w else st
    st.rxSwitch p r err

/-! ## Link changes (R107, R108, R142, R158, R165) -/

/-- The members of a port group that have LINK_UP. -/
def StrandSt.liveMembers (st : StrandSt) (g : Nat) : List Nat :=
  (List.range 4).filter fun e => bitN (st.fld (Reg.SW_GRP_MEM g) 3 0) e && st.linkUp e

/-- The map entries of a group that name the fallen member, rewritten in ascending order to the members still live, in rotation (R165). -/
def StrandSt.groupRewrite (st : StrandSt) (g e : Nat) : StrandSt :=
  let live := st.liveMembers g
  if !bitN (st.fld (Reg.SW_GRP_MEM g) 3 0) e || live.isEmpty then st
  else
    ((List.range 16).foldl (fun (a : StrandSt × Nat) b =>
      if a.1.fld (Reg.SW_GRP_MAP g) (2 * b + 1) (2 * b) = e then
        (a.1.put (Reg.SW_GRP_MAP g) (2 * b + 1) (2 * b) (live.getD (a.2 % live.length) 0), a.2 + 1)
      else a) (st, 0)).1

/-- Whether port `p` has a link, and its speed, from its mode and what the PHY shows (R107); a reserved speed carries none.  (DESIGN CHOICE,
safe: log entry 182.) -/
def StrandSt.linkWant (st : StrandSt) (p : Fin 4) : Bool × Nat :=
  let sync := st.bit (Reg.MAC_STATUS p) 1
  let an := st.bit (Reg.MAC_CTL p) 11
  let conf := st.fld (Reg.MAC_CTL p) 3 2
  let x := st.port p
  let slow := fun (up : Bool) (s : Nat) => if up && (s == 1 || s == 2) then (true, s) else (false, 0)
  match st.macMode p with
  | 1 => if an then slow (sync && x.phyLink) x.phySpeed else slow sync conf
  | 2 => if sync && (!an || st.bit (Reg.MAC_STATUS p) 3) then (true, 2) else (false, 0)
  | 3 => if sync then (true, 3) else (false, 0)
  | 4 => slow x.phyLink conf
  | _ => (false, 0)

/-- A frame in transmission or held preempted as the link falls: abandoned and counted (R108). -/
def StrandSt.txLost (st : StrandSt) (p : Fin 4) (c : TxCur) : StrandSt := (st.txRelease c).inc (Reg.MAC_CNT p + 8 * 15)

/-- The link of port `p` falls: frames in reception, in transmission and in transit are lost (R108, R139), and port groups turn to their other
members (R165). -/
def StrandSt.linkFall (st : StrandSt) (p : Fin 4) : StrandSt :=
  let st := (st.putBit (Reg.MAC_STATUS p) 0 false).inc (Reg.MAC_CNT p + 8 * 18)
  let st := if (st.port p).rx.isSome then (st.rxClear p).inc (Reg.MAC_CNT p + 8 * 10) else st
  let ts := (st.port p).tx.toList.filter (fun c => decide (st.now < c.stop)) ++ (st.port p).txHeld.toList
  let st := match (st.port p).tx with
    | some c => if c.stop ≤ st.now then st.txDone p else st
    | none => st
  let st := st.setPort p { st.port p with tx := none, txHeld := none, lane := none, pause := {}, fc := {} }
  let st := ts.foldl (fun s c => s.txLost p c) st
  let st := st.ptAbandon p false 15
  let st := ([0, 1, 2, 3] : List (Fin 4)).foldl (fun s c => s.ptSourceLost p c) st
  let st := (st.putBit (Reg.MAC_STATUS p) 7 false).putBit (Reg.MAC_STATUS p) 3 false
  [0, 1].foldl (fun s g => s.groupRewrite g p) st

/-- The port's link follows its mode and its PHY: on a change LINK_UP, SPEED_ACT and LINK_CHANGE, and what hangs on them (R107, R108, R124,
R130, R142, R158). -/
def StrandSt.linkSettle (st : StrandSt) (p : Fin 4) : StrandSt :=
  let w := st.linkWant p
  let was := st.linkUp p
  if was = w.1 && st.speedAct p = w.2 then st
  else
    let chans : List (Fin 4) := [0, 1, 2, 3]
    let st := chans.foldl (fun s c => s.ptRates c) st
    let st := if was && !w.1 then st.linkFall p else st
    let st := (st.put (Reg.MAC_STATUS p) 9 8 w.2).putBit (Reg.MAC_STATUS p) 0 w.1
    let st := if was == w.1 then st else st.flag (Reg.MAC_FLAGS p) 0
    let st := if w.1 && st.preemptPort p && st.bit (Reg.MAC_PREEMPT p) 2 then st.putBit (Reg.MAC_STATUS p) 7 true else st
    let st := { st with sw := { st.sw with credit := st.sw.credit.dropIf fun k => k / 8 == p.val } }
    let st := chans.foldl (fun s c => s.tcRejudge c) st
    chans.foldl (fun s c => s.ptRates c) st

/-- LINK_CHANGE: the PHY's code-group sync or RX clock, its link bit and the speed in its control information change (R107, R108). -/
def StrandSt.linkChange (st : StrandSt) (p : Fin 4) (sync link : Bool) (speed : Nat) : StrandSt :=
  let st := st.setPort p { st.port p with phyLink := link, phySpeed := speed }
  (st.putBit (Reg.MAC_STATUS p) 1 sync).linkSettle p

/-! ## Starting frames (R108, R109, R120, R122, R124, R157, R160) -/

/-- The smallest fragment a port may send, in bytes with its mCRC (R124). -/
def StrandSt.minFrag (st : StrandSt) (p : Nat) : Nat := 64 * (1 + st.fld (Reg.MAC_PREEMPT p) 5 4)

/-- Whether queue `q` is preemptable on a port with preemption active (R124). -/
def StrandSt.preemptable (st : StrandSt) (p q : Nat) : Bool :=
  st.bit (Reg.MAC_STATUS p) 7 && bitN (st.fld (Reg.MAC_PREEMPT p) 23 16) q

/-- How the guard of R160 judges a head frame of `n` bytes before its FCS: 0 it may start whole, 1 it must wait, `k` + 2: it may
start as a fragment of `k` bytes. -/
def StrandSt.guardOf (st : StrandSt) (p q n : Nat) : Nat :=
  if !st.bit (Reg.GCL_CTL p) 31 || st.env.hold then 0
  else match st.gateCloses p q with
    | none => 0
    | some c =>
      if st.frameCycles p n ≤ c then 0
      else if st.preemptable p q && decide (bytesCycles (st.speedAct p) (8 + st.minFrag p) ≤ c) then
        let k := min (c * 10 / tByte10 (st.speedAct p) - 12) (n + 4 - st.minFrag p)
        if st.minFrag p ≤ k + 4 && st.minFrag p ≤ n - k + 4 then k + 2 else 1
      else 1

/-- Whether the credit of a shaped queue allows a start (R157, R158). -/
def StrandSt.creditOk (st : StrandSt) (e q : Nat) : Bool :=
  !st.bit (Reg.SW_CBS e q) 31 || decide (0 ≤ st.sw.credit.get 0 (qKey e q))

/-- The head of a queue and the bytes its port would send for it: on an E port after insertion and padding (R117). -/
def StrandSt.headBytes (st : StrandSt) (e q : Nat) : Option (SwRef × List Byte) :=
  match st.queue e q with
  | [] => none
  | r :: _ =>
    let f := (st.sw.frames.get {} r.fid).frame
    let f := if r.trunc then { f with bytes := f.bytes.take 124 } else f
    some (r, if e < 4 then st.txWire e r.mirror f else f.bytes)

/-- Marks the head of a queue as held by the guard, counted once (R160). -/
def StrandSt.markHeld (st : StrandSt) (e q : Nat) : StrandSt :=
  match st.queue e q with
  | r :: rest =>
    if r.heldOnce then st
    else (st.setQueue e q ({ r with heldOnce := true } :: rest)).inc (Reg.SW_QCNT e q + 24)
  | [] => st

/-- Marks the head of a queue as held for Filigree, counted once (R227). -/
def StrandSt.markFlgHeld (st : StrandSt) (e q : Nat) : StrandSt :=
  match st.queue e q with
  | r :: rest =>
    if r.flgHeld then st else (st.setQueue e q ({ r with flgHeld := true } :: rest)).inc (Reg.FLG_CNT + 8 * 8)
  | [] => st

/-- Heads that may not stay: discarded in HOLD unless management (R122), with LINKDOWN_DISCARD while the link is down (R108), or
over MAXLEN after insertion (R117).  The number bounds the discards of one selection. -/
def StrandSt.dropHeads (st : StrandSt) (p q : Nat) : Nat → StrandSt
  | 0 => st
  | k + 1 =>
    match st.headBytes p q with
    | none => st
    | some (r, wire) =>
      let f := (st.sw.frames.get {} r.fid).frame
      let drop := fun (c : Nat) => ((st.popQueue p q false 0).inc (Reg.MAC_CNT p + 8 * c)).dropHeads p q k
      if !r.eligible then st
      else if !st.linkUp p then (if st.bit (Reg.MAC_CTL p) 19 then drop 15 else st)
      else if st.env.hold && !st.isMgmt p wire f.info then drop 16
      else if st.maxLen p < wire.length + 4 then drop 14
      else st

/-- Whether the head of queue `q` is eligible but for the guard (R157). -/
def StrandSt.qReady (st : StrandSt) (e q : Nat) : Bool :=
  (match st.queue e q with | r :: _ => r.eligible | [] => false) &&
  (decide (3 < e) || (!st.paused e q && st.gateOpen e q && st.creditOk e q))

/-- The highest eligible queue of an E port below `q` among those that `ok` allows, with the guard's answer; held heads are marked (R157,
R160, R227). -/
def StrandSt.pick (st : StrandSt) (p : Nat) (ok : Nat → Bool) : Nat → Option (Nat × Nat) × StrandSt
  | 0 => (none, st)
  | q + 1 =>
    if ok q && st.qReady p q then
      match st.headBytes p q with
      | some (_, wire) =>
        let g := st.guardOf p q wire.length
        if g = 1 then (st.markHeld p q).pick p ok q
        else if st.flgHolds p (st.frameCycles p wire.length) then (st.markFlgHeld p q).pick p ok q
        else (some (q, g), st)
      | none => st.pick p ok q
    else st.pick p ok q

/-- A frame cut by an uncorrectable buffer error after `n` bytes (R166). -/
def TxCur.cutAt (c : TxCur) (n cycles : Nat) : TxCur :=
  if c.upto ≤ n then c else { c with upto := n, stop := c.start + cycles, inv := true, broke := true }

/-- Starts the head of queue `q`, whole or as a first fragment, and reads it from the buffer (R124, R160, R166). -/
def StrandSt.launch (st : StrandSt) (p : Fin 4) (q g : Nat) (e : BufErr) : StrandSt :=
  match st.headBytes p q with
  | none => st
  | some (r, wire) =>
    let st := (st.startTx p q r wire (if g = 0 then wire.length else g - 2)).bufRead r.fid e
    match e, (st.port p).tx with
    | .lost n _, some c => st.setPort p { st.port p with tx := some (c.cutAt n (st.frameCycles p n)) }
    | _, _ => st

/-- Where a preemptable frame in transmission can be preempted: the byte up to which it is sent, once the fragment on the wire and the
remainder both meet the minimum (R124). -/
def StrandSt.preemptAt (st : StrandSt) (p : Nat) (c : TxCur) : Option Nat :=
  let gone := ceilDiv ((st.now - c.start) * 10) (tByte10 (st.speedAct p)) - 8
  let k := c.sent + max gone (st.minFrag p - 4)
  if k < c.upto && decide (st.minFrag p + k ≤ c.wire.length + 4) then some k else none

/-- An express queue that is eligible while a preemptable frame is in transmission preempts it: the fragment on the wire ends with its mCRC
as soon as R124 allows (R124, R157).  (DEDUCED, safe: log entry 41.) -/
def StrandSt.tryPreempt (st : StrandSt) (p : Fin 4) (c : TxCur) : StrandSt :=
  if !st.preemptable p c.queue || c.broke then st
  else
    let r := st.pick p (fun q => !st.preemptable p q) 8
    match r.1, st.preemptAt p c with
    | some _, some k =>
      r.2.setPort p { r.2.port p with tx := some { c with upto := k, stop := c.start + st.frameCycles p (k - c.sent) } }
    | _, _ => r.2

/-- The remainder of a preempted frame resumes where its gate is open, whole or as a further fragment (R124, R160).  (DEDUCED, safe: log entry
41.) -/
def StrandSt.resumeHeld (st : StrandSt) (p : Fin 4) : StrandSt :=
  match (st.port p).txHeld with
  | some c =>
    let left := c.wire.length - c.sent
    let g := st.guardOf p c.queue left
    if !st.gateOpen p c.queue || g = 1 then st
    else
      let n := if g = 0 then left else g - 2
      st.setPort p { st.port p with txHeld := none, tx := some { c with start := st.now, upto := c.sent + n,
                                                                        stop := st.now + st.frameCycles p n } }
  | none => st

/-- EGRESS_SELECT on an E port (R157): at a frame boundary the waiting flow-control frame, the highest eligible queue, or behind the express
ones a preempted remainder, which TX_EN = 0 does not keep from ending (R109); within a preemptable frame only preemption. -/
def StrandSt.egressE (st : StrandSt) (p : Fin 4) (e : BufErr) : StrandSt :=
  let st := match (st.port p).tx with
    | some c => if c.stop ≤ st.now then st.txDone p else st
    | none => st
  let st := ((List.range 8).foldl (fun s q => s.dropHeads p q (s.queue p q).length) st).fcGo p
  if !st.linkUp p then st
  else match (st.port p).tx with
  | some c => if st.txFree p then st.tryPreempt p c else st
  | none =>
    if !st.txFree p then st.resumeHeld p
    else
      let r := st.pick p (fun q => (st.port p).txHeld.isNone || !st.preemptable p q) 8
      match r.1 with
      | some (q, g) => r.2.launch p q g e
      | none => r.2.resumeHeld p

/-! ## V ports and the internal ports (R148, R157) -/

/-- The header word of a frame on a V port's way to its engine, MASK 0 (R148).  (DESIGN CHOICE, unsafe: log entry 183.) -/
def vHeader (f : Frame) : Word :=
  BitVec.ofNat 32 (f.info.cls % 8 * 2 ^ 19 + f.bytes.length % 2 ^ 14)

/-- The data words of a frame on a V port, byte 0 in bits [7:0] of the first (R148). -/
def vWords : List Byte → List Word
  | [] => []
  | [a] => [BitVec.ofNat 32 (leNum [a])]
  | [a, b] => [BitVec.ofNat 32 (leNum [a, b])]
  | [a, b, c] => [BitVec.ofNat 32 (leNum [a, b, c])]
  | a :: b :: c :: d :: r => BitVec.ofNat 32 (leNum [a, b, c, d]) :: vWords r

/-- The engine of an enabled V port. -/
def StrandSt.vEngine (st : StrandSt) (k : Nat) : Option Nat :=
  if st.bit Reg.SW_VCFG (16 + k) then some (st.fld Reg.SW_VCFG (4 * k + 3) (4 * k)) else none

/-- Whether an internal port can take a frame: a V port that is enabled, whose engine has a TX queue, and that has written all words of the
frame before (R148). -/
def StrandSt.internalReady (st : StrandSt) (e : Nat) : Bool :=
  e < 6 || (match st.vEngine (e - 6) with
    | some n => st.txDepth n != 0 && (st.sw.vports.get {} (e - 6)).toSend.isEmpty
    | none => false)

/-- A frame as an internal port delivers it: a truncated copy its first 124 bytes, with an error status where the read failed (R164, R166). -/
def Frame.deliveredBy (f : Frame) (r : SwRef) (err : BufErr) : Frame :=
  let bad := match err with
    | .lost _ _ => true
    | _ => false
  { f with bytes := if r.trunc then f.bytes.take 124 else f.bytes,
           info := { f.info with ue := bad, mirror := r.mirror, trunc := r.trunc } }

/-- EGRESS_SELECT on an internal port: the head of the highest non-empty queue leaves for the DMA engine or the V port, with an error status
where its read fails (R157, R166). -/
def StrandSt.egressI (st : StrandSt) (e : Nat) (err : BufErr) : StrandSt :=
  match ((List.range 8).reverse.find? fun q => st.internalReady e && st.qReady e q) with
  | none => st
  | some q =>
    match st.queue e q with
    | [] => st
    | r :: _ =>
      let st := st.bufRead r.fid err
      let f := (st.sw.frames.get {} r.fid).frame.deliveredBy r err
      let st := st.popQueue e q true f.bytes.length
      if e < 6 then { st with sw := { st.sw with toDma := st.sw.toDma ++ [(e, q, f)] } }
      else
        let vp := st.sw.vports.get {} (e - 6)
        { st with sw := { st.sw with vports := st.sw.vports.set {} (e - 6) { vp with toSend := vHeader f :: vWords f.bytes } } }

/-- FRAME_ELIGIBLE: the oldest frame of a queue that is not yet eligible becomes so, 24 cycles after its last byte was written (R147). -/
def markEligible (now : Nat) : List SwRef → List SwRef
  | [] => []
  | r :: rs =>
    if r.eligible then r :: markEligible now rs
    else if r.written + 24 ≤ now then { r with eligible := true } :: rs else r :: rs

/-- Words enter an engine's TX queue while it has room: those of a V port, or of the DMA engine (R67, R148). -/
def StrandSt.queuePut (st : StrandSt) (n : Nat) : List Word → StrandSt × List Word
  | [] => (st, [])
  | w :: ws =>
    if st.txDepth n = 0 || st.txDepth n ≤ (st.eng n).txq.length then (st, w :: ws)
    else (st.txAppend n w).queuePut n ws

/-- V_PORT_INGRESS: words are read from the engine's RX queue; a good header starts a frame, a bad one is counted alone, and a
whole frame is presented to the switch (R148). The number bounds the words read. -/
def StrandSt.vRecv (st : StrandSt) (k n : Nat) : Nat → StrandSt
  | 0 => st
  | fuel + 1 =>
    match (st.eng n).rxq with
    | [] => st
    | q :: rest =>
      if st.rxDepth n = 0 || st.now < q.ready then st
      else
        let st1 := st.updEng n fun e => { e with rxq := rest }
        let vp := st1.sw.vports.get {} k
        let keep := fun (v : VPort) => { st1 with sw := { st1.sw with vports := st1.sw.vports.set {} k v } }
        match vp.hdr with
        | none =>
          let len := fieldOf q.word 13 0
          if len < 14 || 9212 < len || fieldOf q.word 18 14 != 0 then (st1.inc (Reg.SW_UCNT + 8 * 16)).vRecv k n fuel
          else (keep { vp with hdr := some q.word, got := [] }).vRecv k n fuel
        | some h =>
          let got := vp.got ++ [q.word]
          let len := fieldOf h 13 0
          if got.length < ceilDiv len 4 then (keep { vp with got := got }).vRecv k n fuel
          else
            let bytes := (got.flatMap fun w => leBytes 4 w.toNat).take len
            let t := parseTags bytes
            let tci := match t.c, t.s with
              | some c, _ => some c
              | none, some s => some s
              | none, none => none
            let f : Frame := { bytes := bytes, info := { src := 6 + k, cls := fieldOf h 21 19, vid := (tci.getD 0) % 4096,
                                                         pcp := (tci.getD 0) / 8192, tagged := tci.isSome } }
            ((keep { vp with hdr := none, got := [] }).present (fieldOf h 31 22) f).vRecv k n fuel

/-! ## HOLD (R122) -/

/-- A frame of the switch that HOLD cuts short: what was sent ends with an inverted FCS (R122). -/
def StrandSt.txCut (st : StrandSt) (p : Fin 4) (c : TxCur) (sent : Nat) : StrandSt :=
  (((st.txRelease c).emit (.frame p (c.wire.take sent) true)).inc (Reg.MAC_CNT p + 8 * 17)).flag (Reg.MAC_FLAGS p) 6

/-- Entry to HOLD: a non-management frame in transmission, or one that waits preempted, is cut; lane frames are cut or discarded, and the gate
list's position stops (R122, R162). -/
def StrandSt.holdCut (st : StrandSt) (p : Fin 4) : StrandSt :=
  let st := st.gclRefresh p
  let keep := fun (c : TxCur) => c.queue != 8 && st.isMgmt p c.wire c.frame.info
  let st := match (st.port p).tx with
    | some c =>
      if c.stop ≤ st.now then st.txDone p
      else if keep c then st
      else (st.setPort p { st.port p with tx := none }).txCut p c
        (c.sent + ((st.now - c.start) * 10 / tByte10 (st.speedAct p) - 8))
    | none => st
  let st := match (st.port p).txHeld with
    | some c => if keep c then st else (st.setPort p { st.port p with txHeld := none }).txCut p c c.sent
    | none => st
  (st.setPort p { st.port p with fc := {} }).ptAbandon p true 16

/-! ## What passes by itself -/

/-- Bytes of a lane word of port `p`. -/
def StrandSt.laneBytes (st : StrandSt) (p : Nat) : Nat := st.laneWidth p / 8

/-- Engines that read the RX lane of port `p`. -/
def StrandSt.laneReaders (st : StrandSt) (p : Nat) : List Nat := (List.range 16).filter fun n => st.inKind n && st.inLane n == p

/-- The next word of a frame on port `p`'s RX lane, from this cycle on, and the cycle at whose end it reaches the holding registers, in which it
then sits from the fourth cycle after it crossed the boundary (R105, R133). -/
def StrandSt.laneNext (st : StrandSt) (p : Nat) (l : LaneRx) : Option (Nat × Nat) :=
  let w := st.laneBytes p
  let code := st.speedAct p
  let k := ceilDiv ((st.now - (l.start + 3)) * 10) (w * tByte10 code)
  if k < ceilDiv l.bytes.length w then some (k, byteCycle code l.start (k * w) + 3) else none

/-- Word `k` of the frame on port `p`'s RX lane reaches engine `n`'s holding register; a word that replaces an unread one is counted (R105).
(DEDUCED, unsafe: log entry 29.) -/
def StrandSt.laneGive (st : StrandSt) (p : Fin 4) (l : LaneRx) (k n : Nat) : StrandSt :=
  let w := st.laneBytes p
  let last := decide (l.bytes.length ≤ (k + 1) * w)
  let st1 := if (st.eng n).lane.valid then (st.flag (Reg.PT_FLAGS p) 5).inc (Reg.PT_CNT p + 8 * 8) else st
  st1.updEng n fun e => { e with lane :=
    { word := leNum ((l.bytes.drop (k * w)).take w), valid := true, sof := k == 0, eof := last, err := last && l.err } }

/-- The word of port `p`'s lane that this cycle presents. -/
def StrandSt.laneStep (st : StrandSt) (p : Fin 4) : StrandSt :=
  match (st.port p).lane with
  | none => st
  | some l =>
    match st.laneNext p l with
    | none => st
    | some (k, t) =>
      if st.now < t then st
      else
        let st := (st.laneReaders p).foldl (fun (s : StrandSt) n => s.laneGive p l k n) st
        st.setPort p { st.port p with lane := some { l with given := k + 1 } }

/-- The cycles in which something happens by itself on port `p` and its channel. -/
def StrandSt.portTimes (st : StrandSt) (p : Fin 4) : List Nat :=
  let x := st.port p
  (match x.lane with
   | some l => if (st.laneReaders p).isEmpty then [] else ((st.laneNext p l).map Prod.snd).toList
   | none => []) ++
  (match x.tx with | some c => c.stamp.toList ++ [c.stop - 1] | none => []) ++
  (match x.rx with | some r => (if r.rule.isNone && (r.flg || (r.bound && !r.refused)) then [r.decides] else []) ++ [r.stop] | none => []) ++
  (st.chan p).frames.flatMap (st.ptTimes p)

/-- What a transmission does in this cycle: its time-stamp point, its end and the flow-control frame that may follow it. -/
def StrandSt.txStep (st : StrandSt) (p : Fin 4) : StrandSt :=
  let st := match (st.port p).tx with
    | some c => (match c.stamp with | some k => if k ≤ st.now then st.txStampNow p else st | none => st)
    | none => st
  match (st.port p).tx with
  | some c => if c.stop ≤ st.now + 1 then (st.txDone p).fcGo p else st
  | none => st

end Sys2Proof.Machine
end

