-- ==== Sys2Proof/Machine/DmaOps.lean ====
section
/-! DEFINITION. DMA rings and completion queues (R281 to R311, R346 to R352).  Rings have keys: TX ring r is r, RX ring r is
16 + r. -/

namespace Sys2Proof.Machine

/-! ## Registers of a ring and of a queue -/

/-- The registers of the page of ring `k` (R309). -/
def ringPage (k : Nat) : Nat := 0x41000 + 0x40 * k
def StrandSt.ringBase (st : StrandSt) (k : Nat) : Nat :=
  (st.rd (ringPage k + 4)).toNat * 2 ^ 32 + st.fld (ringPage k) 31 5 * 32
def StrandSt.ringMode (st : StrandSt) (k : Nat) : Nat := st.fld (ringPage k + 8) 31 30
def StrandSt.ringCq (st : StrandSt) (k : Nat) : Nat := st.fld (ringPage k + 8) 26 24
def StrandSt.ringLink (st : StrandSt) (k : Nat) : Bool := st.bit (ringPage k + 8) 18
def StrandSt.ringLoc (st : StrandSt) (k : Nat) : Bool := st.bit (ringPage k + 8) 17
def StrandSt.ringSize (st : StrandSt) (k : Nat) : Nat := 2 ^ st.fld (ringPage k + 8) 4 0
def StrandSt.ringEn (st : StrandSt) (k : Nat) : Bool := st.bit (ringPage k + 0xC) 0
def StrandSt.ringTail (st : StrandSt) (k : Nat) : Nat := st.fld (ringPage k + 0x10) 15 0
def StrandSt.ringHead (st : StrandSt) (k : Nat) : Nat := st.fld (ringPage k + 0x14) 15 0
def StrandSt.ringState (st : StrandSt) (k : Nat) : Nat := st.fld (ringPage k + 0x18) 2 0
def StrandSt.setHead (st : StrandSt) (k i : Nat) : StrandSt := st.put (ringPage k + 0x14) 15 0 i
def StrandSt.setTail (st : StrandSt) (k i : Nat) : StrandSt := st.put (ringPage k + 0x10) 15 0 i
def StrandSt.setRingState (st : StrandSt) (k s : Nat) : StrandSt := st.put (ringPage k + 0x18) 2 0 s

/-- A flag of RING_FLAGS set (R309). -/
def StrandSt.ringFlag (st : StrandSt) (k b : Nat) : StrandSt := st.flag (ringPage k + 0x1C) b

/-- The ring beside its registers. -/
def StrandSt.ring (st : StrandSt) (k : Nat) : Ring := st.dma.rings.get {} k

/-- The strand with a ring replaced. -/
def StrandSt.setRing (st : StrandSt) (k : Nat) (g : Ring) : StrandSt :=
  { st with dma := { st.dma with rings := st.dma.rings.set {} k g } }

/-- The strand with a ring changed. -/
def StrandSt.updRing (st : StrandSt) (k : Nat) (f : Ring → Ring) : StrandSt := st.setRing k (f (st.ring k))

/-- Steps from HEAD to index `i`, and the number of owned descriptors (R282). -/
def StrandSt.ringDist (st : StrandSt) (k i : Nat) : Nat := (i + st.ringSize k - st.ringHead k % st.ringSize k) % st.ringSize k
def StrandSt.ringOwned (st : StrandSt) (k : Nat) : Nat := st.ringDist k (st.ringTail k)

/-- Whether the hardware owns descriptor `i` (R282). -/
def StrandSt.owns (st : StrandSt) (k i : Nat) : Bool := decide (i < st.ringSize k) && decide (st.ringDist k i < st.ringOwned k)

/-- The registers of completion queue `c` (R310). -/
def cqPage (c : Nat) : Nat := 0x41800 + 0x40 * c
def StrandSt.cqBase (st : StrandSt) (c : Nat) : Nat := (st.rd (cqPage c + 4)).toNat * 2 ^ 32 + st.fld (cqPage c) 31 4 * 16
def StrandSt.cqLink (st : StrandSt) (c : Nat) : Bool := st.bit (cqPage c + 8) 18
def StrandSt.cqLoc (st : StrandSt) (c : Nat) : Bool := st.bit (cqPage c + 8) 17
def StrandSt.cqSize (st : StrandSt) (c : Nat) : Nat := 2 ^ st.fld (cqPage c + 8) 4 0
def StrandSt.cqEn (st : StrandSt) (c : Nat) : Bool := st.bit (cqPage c + 0xC) 0
def StrandSt.cqHead (st : StrandSt) (c : Nat) : Nat := st.fld (cqPage c + 0x10) 16 0
def StrandSt.cqTail (st : StrandSt) (c : Nat) : Nat := st.fld (cqPage c + 0x14) 16 0

/-- A queue is full: equal indices, different lap bits (R294). -/
def StrandSt.cqFull (st : StrandSt) (c : Nat) : Bool :=
  st.cqHead c % 2 ^ 16 == st.cqTail c % 2 ^ 16 && st.cqHead c / 2 ^ 16 != st.cqTail c / 2 ^ 16

/-- Records of a ring that wait at its queue; 8 of them stop the ring's next item (R294). -/
def StrandSt.cqHolds (st : StrandSt) (k : Nat) : Bool := decide (8 ≤ (st.dma.recs.filter fun r => r.key == k).length)

/-! ## Requests to the host and reads in flight (R304) -/

/-- The strand with a request on its way to the Clasp; the address of a posted write is kept for the read-backs (R296). -/
def StrandSt.hostReq (st : StrandSt) (r : HostReq) : StrandSt :=
  let d := { st.dma with reqs := st.dma.reqs ++ [r] }
  let at_ := fun (link : Bool) (a : Nat) => if link then { d with lastB := some a } else { d with lastA := some a }
  { st with dma := match r with
    | .data l _ _ a _ => at_ l a
    | .wb l _ _ _ a _ => at_ l a
    | .record l _ _ a _ => at_ l a
    | .read _ _ _ _ => d }

/-- The address a read-back reads: of the last posted write issued on the link (R296), or of the queue before any. -/
def StrandSt.lastWrite (st : StrandSt) (link : Bool) (cq : Nat) : Nat := (if link then st.dma.lastB else st.dma.lastA).getD (st.cqBase cq)

/-- Issues a read: at 64 outstanding it waits and is counted (R304). -/
def StrandSt.issueRead (st : StrandSt) (link : Bool) (addr len : Nat) (what : ReadWhat) : StrandSt :=
  let t := st.dma.nextTag
  let rd : HostRead := { tag := t, link := link, addr := addr, len := len, what := what }
  if st.dma.reads.length < 64 then
    let d := { st.dma with nextTag := t + 1, reads := st.dma.reads ++ [rd] }
    ({ st with dma := d } : StrandSt).hostReq (.read link t addr len)
  else
    let d := { st.dma with nextTag := t + 1, waitReads := st.dma.waitReads ++ [rd] }
    ({ st with dma := d } : StrandSt).inc (Reg.DMA_CNT + 8 * 4)

/-- An outstanding read leaves its place, and the oldest waiting read takes it. -/
def StrandSt.freeRead (st : StrandSt) (tag : Nat) : StrandSt :=
  let reads := st.dma.reads.filter fun r => r.tag != tag
  match st.dma.waitReads with
  | w :: ws =>
    if reads.length < 64 then
      let d := { st.dma with reads := reads ++ [w], waitReads := ws }
      ({ st with dma := d } : StrandSt).hostReq (.read w.link w.tag w.addr w.len)
    else { st with dma := { st.dma with reads := reads } }
  | [] => { st with dma := { st.dma with reads := reads } }

/-- The pieces a buffer's read, or its write to the host, is split into: at most 512 B, none across a 4 KiB boundary (R1, R304, R312). The number
bounds the pieces.  (DESIGN CHOICE, unsafe: log entry 62.) -/
def readPieces (addr off : Nat) : Nat → Nat → List (Nat × Nat × Nat)
  | 0, _ => []
  | _ + 1, 0 => []
  | k + 1, n =>
    let m := min n (min 512 (4096 - addr % 4096))
    (addr, off, m) :: readPieces (addr + m) (off + m) k (n - m)

/-! ## Descriptors -/

/-- Fields of a descriptor. -/
def dWord (d : List Word) (i : Nat) : Word := d.getD i 0
def dAddr (d : List Word) : Nat := (dWord d 1).toNat * 2 ^ 32 + (dWord d 0).toNat
def dLen (d : List Word) : Nat := fieldOf (dWord d 2) 13 0
def dOwn (d : List Word) : Bool := bitOf (dWord d 3) 31
def dFirst (d : List Word) : Bool := bitOf (dWord d 3) 30
def dLast (d : List Word) : Bool := bitOf (dWord d 3) 29
def dQseq (d : List Word) : Nat := (dWord d 4).toNat

/-- Bytes as little-endian words. -/
def wordsOf : Nat → List Byte → List Word
  | 0, _ => []
  | n + 1, bs => BitVec.ofNat 32 (leNum (bs.take 4)) :: wordsOf n (bs.drop 4)

/-- Words as little-endian bytes. -/
def wordBytes (ws : List Word) : List Byte := ws.flatMap fun w => leBytes 4 w.toNat

/-- Address of descriptor `i` (R281). -/
def StrandSt.descAddr (st : StrandSt) (k i : Nat) : Nat := st.ringBase k + 32 * i

/-- ADDR_ERR counted, flagged and logged (R306). -/
def StrandSt.addrErr (st : StrandSt) (k : Nat) : StrandSt :=
  (((st.ringFlag k 2).flag Reg.DMA_FLAGS 2).inc (Reg.DMA_CNT + 8 * 12)).report 0x0C04 .lasting [k]

/-- The ring enters FAULT (R284). -/
def StrandSt.ringFault (st : StrandSt) (k : Nat) : StrandSt := (st.setRingState k 3).flag Reg.DMA_FLAGS 0

/-- Reads the descriptors the engine may read ahead: up to 64 owned ones from HEAD that it has neither read nor asked for
(R283).  Rings in SRAM are read when an item is formed. -/
def StrandSt.prefetch (st : StrandSt) (k : Nat) : StrandSt :=
  if st.ringLoc k || st.ringState k = 0 || st.ringState k = 3 || (st.ring k).replay != 0 || (st.ring k).fullWait then st
  else
    (List.range (min 64 (st.ringOwned k))).foldl (fun (s : StrandSt) n =>
      let i := (s.ringHead k + n) % s.ringSize k
      let g := s.ring k
      let asked := (s.dma.reads ++ s.dma.waitReads).any fun r => r.what == .desc k i
      let taken := decide (s.ringDist k i < s.ringDist k g.next) && decide (k < 16)
      if taken || asked || (tabFind g.fetched.cells i).isSome || g.own == some i then s
      else s.issueRead (s.ringLink k) (s.descAddr k i) 32 (.desc k i)) st

/-- A descriptor as read has OWN = 0: it is read again after 1 µs (R284). -/
def StrandSt.ownMiss (st : StrandSt) (k i : Nat) : StrandSt :=
  st.updRing k fun g => { g with own := some i, ownAt := st.now + 1000 }

/-- The descriptor at an owned index, if the engine has it: from host memory as fetched, from SRAM by a read (R301, R306). -/
def StrandSt.descAt (st : StrandSt) (k i : Nat) : Option (List Word) × StrandSt :=
  if (st.ring k).own == some i || !st.owns k i then (none, st)
  else if st.ringLoc k then
    match tabFind (st.ring k).fetched.cells i with
    | some d => (some d, st)
    | none =>
      let r := st.bankRead reqDma (st.descAddr k i) 32
      let d := wordsOf 8 r.bytes
      if !r.ok || r.ue then (none, (r.st.addrErr k).ringFault k)
      else if !dOwn d then (none, r.st.ownMiss k i)
      else (some d, r.st)
  else (tabFind (st.ring k).fetched.cells i, st)

/-- OWN_RECHECK of ring `k`: the second read gives `words` (for a ring in SRAM they are read there) (R284).  (DEDUCED, safe: log entry 60.) -/
def StrandSt.ownRecheck (st : StrandSt) (k : Nat) (words : List Word) : StrandSt :=
  match (st.ring k).own with
  | none => st
  | some i =>
    if st.now < (st.ring k).ownAt then st
    else
    let acc := st.bankRead reqDma (st.descAddr k i) 32
    let d := if st.ringLoc k then wordsOf 8 acc.bytes else words
    let st := if st.ringLoc k then acc.st else st
    let st := st.updRing k fun g => { g with own := none }
    if st.ringLoc k && (!acc.ok || acc.ue) then (st.addrErr k).ringFault k
    else if dOwn d then
      let st := st.updRing k fun g => { g with fetched := g.fetched.set [] i d }
      ((st.flag Reg.DMA_FLAGS 1).inc (Reg.DMA_CNT + 8 * 7)).report 0x0C01 .transient [k]
    else ((st.ringFlag k 0).ringFault k).report 0x0C02 .lasting [k, i]

/-! ## Write-backs and records -/

/-- Writes a descriptor back: to SRAM, or toward the host (R287, R306). -/
def StrandSt.writeBack (st : StrandSt) (k i q : Nat) (d : List Word) : StrandSt :=
  if st.ringLoc k then
    let r := st.bankWrite reqDma (st.descAddr k i) (wordBytes d)
    if !r.ok || r.ue then (r.st.addrErr k).ringFault k else r.st
  else st.hostReq (.wb (st.ringLink k) k i q (st.descAddr k i) (wordBytes d))

/-- Word 1 of a completion record without its PHASE (R293). -/
def recWord1 (kind ring index : Nat) : Nat := kind % 4 * 2 ^ 29 + ring % 16 * 2 ^ 24 + index % 2 ^ 16

/-- Word 2 of a completion record (R293). -/
def recWord2 (len n status : Nat) : Nat := len % 2 ^ 14 * 2 ^ 16 + n % 256 * 256 + status % 256

/-- A record handed to the writer: for a queue in host memory behind a read-back that covers the writes issued so far
(R295, R296).  (DESIGN CHOICE, safe: log entry 67.) -/
def StrandSt.pushRec (st : StrandSt) (key cq : Nat) (words : List Word) : StrandSt :=
  if st.cqLoc cq then
    { st with dma := { st.dma with recs := st.dma.recs ++ [{ key := key, cq := cq, words := words, tag := none }] } }
  else
    let t := st.dma.nextTag
    let st := (st.issueRead (st.cqLink cq) (st.lastWrite (st.cqLink cq) cq) 4 .back).inc (Reg.DMA_CNT + 8 * 5)
    { st with dma := { st.dma with recs := st.dma.recs ++ [{ key := key, cq := cq, words := words, tag := some t }] } }

/-- The lap and index that follow a place of a queue of `size` records (R294). -/
def lapNext (size p : Nat) : Nat :=
  if p % 2 ^ 16 + 1 < size then p + 1 else if p / 2 ^ 16 = 0 then 2 ^ 16 else 0

/-- Writes a record at CQ_TAIL with its PHASE; one that a merge group consumes is visible later (R293, R294, R306, R340). -/
def StrandSt.writeRec (st : StrandSt) (r : CqRec) : StrandSt :=
  let tail := st.cqTail r.cq
  let w1 := setBit (r.words.getD 1 0) 31 (tail / 2 ^ 16 = 0)
  let words := [r.words.getD 0 0, w1, r.words.getD 2 0, 0]
  let addr := st.cqBase r.cq + 16 * (tail % 2 ^ 16)
  let st := st.put (cqPage r.cq + 0x14) 16 0 (lapNext (st.cqSize r.cq) tail)
  let st :=
    if st.cqLoc r.cq then
      let a := st.bankWrite reqDma addr (wordBytes words)
      if !a.ok || a.ue then ((a.st.flag Reg.DMA_FLAGS 2).inc (Reg.DMA_CNT + 8 * 12)).report 0x0C04 .lasting [r.key] else a.st
    else st.hostReq (.record (st.cqLink r.cq) r.cq r.key addr words)
  let q := (r.words.getD 0 0).toNat
  let status := fieldOf (r.words.getD 2 0) 7 0
  let st := if 16 ≤ r.key && r.key < 32 && status != 1 then st.inc (Reg.DMA_CNT + 8) else st
  if 16 ≤ r.key && r.key ≤ 32 && status != 2 && !st.env.merged.contains r.cq then st.ledVisible r.key q else st

/-- Writes what can be written of the waiting records: the records of a queue keep their order, and one that finds its queue full
is counted once (R294, R295). `stuck` lists the queues whose older record still waits. -/
def StrandSt.flushLoop (st : StrandSt) : List CqRec → List Nat → StrandSt
  | [], _ => st
  | r :: rs, stuck =>
    let keep := fun (s : StrandSt) (x : CqRec) => ({ s with dma := { s.dma with recs := s.dma.recs ++ [x] } } : StrandSt)
    if r.tag.isSome || !st.cqEn r.cq then (keep st r).flushLoop rs (r.cq :: stuck)
    else if st.cqFull r.cq then
      let s := if r.waited then st else (st.flag Reg.DMA_FLAGS 4).inc (Reg.DMA_CNT + 8 * 6)
      (keep s { r with waited := true }).flushLoop rs (r.cq :: stuck)
    else if stuck.contains r.cq then (keep st r).flushLoop rs stuck
    else (st.writeRec r).flushLoop rs stuck

/-- Writes the records that can be written. -/
def StrandSt.flushRecs (st : StrandSt) : StrandSt :=
  ({ st with dma := { st.dma with recs := [] } } : StrandSt).flushLoop st.dma.recs []

/-- A read-back with tag `t` returned: the records it covers may be written (R296).  (DESIGN CHOICE, safe: log entry 67.) -/
def StrandSt.readBack (st : StrandSt) (t : Nat) : StrandSt :=
  let recs := st.dma.recs.map fun r => match r.tag with
    | some u => if u ≤ t then { r with tag := none } else r
    | none => r
  ({ st with dma := { st.dma with recs := recs } } : StrandSt).flushRecs

/-- READBACK_RETURN: the oldest read-back in flight returns. -/
def StrandSt.readbackReturn (st : StrandSt) : StrandSt :=
  match st.dma.reads.find? (fun r => r.what == .back) with
  | some r => (st.freeRead r.tag).readBack r.tag
  | none => st

/-! ## TX items -/

/-- Items of a ring with the item of a QSEQ changed. -/
def StrandSt.updItem (st : StrandSt) (k q : Nat) (f : Item → Item) : StrandSt :=
  st.updRing k fun g => { g with items := g.items.map fun it => if it.qseq = q && !it.dup then f it else it }

/-- An item ends before its commit with a status (R289). -/
def StrandSt.endItem (st : StrandSt) (k q status : Nat) : StrandSt :=
  st.updItem k q fun it => { it with ended := true, status := status }

/-- The engine whose BEAD_TXQ, or BEAD_RXQ, stands at a core address (R67, R371). -/
def txqAt (a : Nat) : Option Nat := (List.range 16).find? fun n => a == 0xF0000000 + Reg.BEAD_TXQ n
def rxqAt (a : Nat) : Option Nat := (List.range 16).find? fun n => a == 0xF0000000 + Reg.BEAD_RXQ n

/-- The engine's read of a buffer in the strand: SRAM, or the words of a Bead RX queue (R67, R301). -/
def StrandSt.dmaRead (st : StrandSt) (a n : Nat) : BankAcc :=
  match rxqAt a with
  | some e =>
    let r := (List.range (ceilDiv n 4)).foldl (fun (x : StrandSt × List Byte) _ =>
      let w := x.1.rxqRead e
      (w.2, x.2 ++ leBytes 4 w.1.toNat)) (st, [])
    { ok := true, ue := false, bytes := r.2.take n, st := r.1 }
  | none => st.bankRead reqDma a n

/-- Starts to read an item's data (R286, R304, R306). -/
def StrandSt.startRead (st : StrandSt) (k : Nat) (it : Item) : StrandSt :=
  if st.ringLoc k then
    let r := it.descs.foldl (fun (a : StrandSt × Nat × Bool × Tab (List Byte)) d =>
      let x := a.1.dmaRead (dAddr d) (dLen d)
      (x.st, a.2.1 + dLen d, a.2.2.1 && x.ok && !x.ue, a.2.2.2.set [] a.2.1 x.bytes)) (st, 0, true, {})
    let st := r.1
    if r.2.2.1 then st.updItem k it.qseq fun i => { i with step := .reading, got := r.2.2.2 }
    else (st.addrErr k).endItem k it.qseq 8
  else
    let ps := (it.descs.foldl (fun (a : Nat × List (Nat × Nat × Nat)) d =>
      (a.1 + dLen d, a.2 ++ readPieces (dAddr d) a.1 40 (dLen d))) (0, [])).2
    let st := st.updItem k it.qseq fun i => { i with step := .reading, missing := ps.length }
    ps.foldl (fun (s : StrandSt) p => s.issueRead (s.ringLink k) p.1 p.2.2 (.data k it.qseq p.2.1)) st

/-- The first item of a ring that has not started. -/
def StrandSt.nextItem (st : StrandSt) (k : Nat) : Option Item :=
  (st.ring k).items.find? fun it => it.step == .accepted && !it.ended && !it.dup

/-- In modes 1 and 2 a request that finds an accepted item starts it; in mode 0 every accepted item starts (R291, R292). -/
def StrandSt.startItems (st : StrandSt) (k : Nat) : StrandSt :=
  if st.ringMode k = 0 then
    ((st.ring k).items.filter fun it => it.step == .accepted && !it.ended && !it.dup).foldl (fun s it => s.startRead k it) st
  else if (st.ring k).asked then
    match st.nextItem k with
    | some it => (st.updRing k fun g => { g with asked := false }).startRead k it
    | none => st
  else st

/-- Duplicates at the head of a ring's items: HEAD passes over them (R346). The number bounds them. -/
def StrandSt.sweepDups (st : StrandSt) (k : Nat) : Nat → StrandSt
  | 0 => st
  | n + 1 =>
    match (st.ring k).items with
    | it :: rest =>
      if it.dup then ((st.updRing k fun g => { g with items := rest }).setHead k ((it.idx + it.n) % st.ringSize k)).sweepDups k n
      else st
    | [] => st

/-- The descriptors of the item that starts at index `i`, as far as they are at hand: the list, and whether it is malformed (R286).
The number bounds the descriptors. -/
def StrandSt.gather (st : StrandSt) (k i : Nat) (first : Bool) : Nat → Option (List (List Word) × Bool) × StrandSt
  | 0 => (some ([], true), st)
  | n + 1 =>
    let r := st.descAt k (i % st.ringSize k)
    match r.1 with
    | none => (none, r.2)
    | some d =>
      if first && !dFirst d then (some ([d], true), r.2)
      else if !first && dFirst d then (some ([], true), r.2)
      else if dLast d then (some ([d], false), r.2)
      else
        let x := r.2.gather k (i + 1) false n
        (x.1.map fun y => (d :: y.1, y.2), x.2)

/-- Whether the fields of a formed item are in order (R286, R292).  (DEDUCED, unsafe: log entry 64.) -/
def StrandSt.itemOk (st : StrandSt) (k : Nat) (ds : List (List Word)) : Bool :=
  let len := (ds.map dLen).sum
  let w3 := dWord (ds.headD []) 3
  let w5 := dWord (ds.headD []) 5
  let w7 := dWord (ds.headD []) 7
  ds.all (fun d => fieldOf (dWord d 2) 31 14 == 0) && fieldOf w3 10 8 == 0 && fieldOf w5 15 14 == 0 && !bitOf w7 30 &&
  decide (14 ≤ len) && decide (len ≤ 9212) && ds.all (fun d => decide (1 ≤ dLen d) && decide (dLen d ≤ 9212)) &&
  !(bitOf w3 12 && bitOf w7 31 && decide (len < fieldOf w7 29 16 + 2)) &&
  (st.ringMode k != 1 || [0, 1, 2, 3].all fun p => !st.bit Reg.FLG_CTL (16 + p) || decide (len + 34 ≤ st.maxLen p))

/-- The anchor of a TX ring set from its registers (R344). -/
def StrandSt.setAnchor (st : StrandSt) (k : Nat) : StrandSt :=
  let cfg := st.rd (ringPage k + 8)
  let v := BitVec.ofNat 32 (b2n (bitOf cfg 18) * 2 ^ 18 + b2n (bitOf cfg 17) * 2 ^ 17 + fieldOf cfg 4 0)
  { st with ledger := { st.ledger with anchor := st.ledger.anchor.set (0, 0, 0) k (st.rd (ringPage k), st.rd (ringPage k + 4), v) } }

/-- Removes the cached descriptors of an item and sets where the next item starts. -/
def StrandSt.takeDescs (st : StrandSt) (k i n : Nat) : StrandSt :=
  let size := st.ringSize k
  let gone := fun (j : Nat) => decide ((j + size - i % size) % size < n)
  st.updRing k fun g => { g with fetched := g.fetched.dropIf gone, aborts := g.aborts.filter (fun j => !gone j),
                                 next := (i + n) % size, fullWait := false }

/-- A duplicate submission is passed over (R346). -/
def StrandSt.passDup (st : StrandSt) (k i q : Nat) (ds : List (List Word)) : StrandSt :=
  let size := st.ringSize k
  let st := (ds.zipIdx.foldl (fun (s : StrandSt) (d : List Word × Nat) =>
    s.writeBack k ((i + d.2) % size) q (d.1.set 3 (setBit (dWord d.1 3) 31 false))) st)
  let st := ((st.inc Reg.LEDGER_CNT).flag Reg.LEDGER_FLAGS 0).reportOnce 0x0E03 .transient 0x0E03 [k, q]
  let st := st.takeDescs k i ds.length
  let it : Item := { qseq := q, idx := i, n := ds.length, descs := ds, len := 0, step := .accepted, dup := true }
  (st.updRing k fun g => { g with items := g.items ++ [it] }).sweepDups k 64

/-- The three time-stamp words of a write-back (R185, R287); without a time-stamp only TS_VALID = 0 is fixed.  (DESIGN CHOICE, safe: log entry 12.) -/
def StrandSt.tsWords (st : StrandSt) (ts : Option (Nat × Nat)) : List Word :=
  match ts with
  | some (t, fl) => [BitVec.ofNat 32 (secOf16 t), BitVec.ofNat 32 (nsOf16 t), BitVec.ofNat 32 (fracOf16 t * 2 ^ 16 + fl)]
  | none => [Config.noStamp st.env.sid st.now 0, Config.noStamp st.env.sid st.now 1,
             setBit (Config.noStamp st.env.sid st.now 2) 0 false]

/-- Items that have not committed leave the engine: they stay in the store and are replayed at EN (R305, R351).  (DEDUCED, unsafe: log entry 63.) -/
def StrandSt.dropUncommitted (st : StrandSt) (k : Nat) : StrandSt :=
  st.updRing k fun g =>
    { g with items := g.items.filter (fun it => it.step == .committed || it.ended), fetched := {}, asked := false, own := none,
             replay := 0, fullWait := false }

/-- Whether an item of a TX ring has started and is not complete (R307). -/
def StrandSt.started (st : StrandSt) (k : Nat) : Bool := (st.ring k).items.any fun it => !it.dup && (it.step != .accepted || it.ended)

/-- A ring that EN = 0 stops at the next item boundary stops there (R307). -/
def StrandSt.stopRing (st : StrandSt) (k : Nat) : StrandSt :=
  if st.ringEn k || st.ringState k != 1 || st.started k || (st.ring k).rx.isSome then st else (st.setRingState k 0).dropUncommitted k

/-- The completion writer decides a TX item (R287, R289, R293, R295, R345); a replayed item that ends without a commit no longer holds back the
ring's fetches (R351). -/
def StrandSt.completeTx (st : StrandSt) (k : Nat) (it : Item) : StrandSt :=
  let size := st.ringSize k
  let last := (it.idx + it.n - 1) % size
  let len := if it.status = 0 || it.status = 8 then it.len else 0
  let ts := st.tsWords it.ts
  let cq := st.ringCq k
  let words : List Word := [BitVec.ofNat 32 it.qseq, BitVec.ofNat 32 (recWord1 0 k last), BitVec.ofNat 32 (recWord2 len it.n it.status), 0]
  let st := (st.ledComplete k it.qseq).setLog k it.qseq
    ([words.getD 0 0, setBit (words.getD 1 0) 31 (st.cqTail cq / 2 ^ 16 = 0), words.getD 2 0, 0] ++ ts ++ [0])
  let st := if it.noWb then st
    else (it.descs.zipIdx.foldl (fun (s : StrandSt) (d : List Word × Nat) =>
      let w3 := setField (setBit (dWord d.1 3) 31 false) 7 0 it.status
      s.writeBack k ((it.idx + d.2) % size) it.qseq
        [dWord d.1 0, dWord d.1 1, dWord d.1 2, w3, dWord d.1 4, ts.getD 0 0, ts.getD 1 0, ts.getD 2 0]) st)
  let st := if it.replay then st else st.setHead k ((it.idx + it.n) % size)
  let early := it.replay && it.step != .committed
  let st := st.updRing k fun g => { g with items := g.items.tail, replay := g.replay - b2n early }
  let st := st.inc Reg.DMA_CNT
  let st := if it.status = 7 then st.inc (Reg.DMA_CNT + 8 * 11) else if it.status = 2 then st.inc (Reg.DMA_CNT + 8 * 8) else st
  let st := if it.noRec then st else st.pushRec k cq words
  ((((st.sweepDups k 64).updRing k fun g => { g with fullWait := false }).stopRing k).prefetch k).flushRecs

/-- An item is accepted: mark, anchor, store; one that is malformed, or that an abort named, is ended at once (R302, R344, R347). -/
def StrandSt.acceptItem (st : StrandSt) (k i q : Nat) (ds : List (List Word)) (bad : Bool) : StrandSt :=
  let size := st.ringSize k
  let next := (i + ds.length) % size
  let aborted := (List.range ds.length).any fun n => (st.ring k).aborts.contains ((i + n) % size)
  let e := st.led k
  let st := (st.setLed k { e with valid := true, acc := q, anchored := true, next := next }).setAnchor k
  let st := if bad then st else st.setStored k (st.stored k ++ [{ qseq := q, idx := i, descs := ds }])
  let st := st.takeDescs k i ds.length
  let it : Item := { qseq := q, idx := i, n := ds.length, descs := ds, len := (ds.map dLen).sum, step := .accepted,
                     ended := bad || aborted, status := if bad then 7 else if aborted then 2 else 0 }
  let st := st.updRing k fun g => { g with items := g.items ++ [it] }
  if bad then (st.ringFlag k 3).completeTx k it else st.startItems k

/-- Whether TX ring `k` can start an item: RUNNING, enabled, in mode 0, its queue not behind, its next descriptor at hand (R291, R294). -/
def StrandSt.canStart (st : StrandSt) (k : Nat) : Bool :=
  let g := st.ring k
  st.ringState k == 1 && st.ringEn k && st.ringMode k == 0 && !st.cqHolds k && g.replay == 0 && !g.fullWait && st.owns k g.next &&
  g.own != some g.next && (st.ringLoc k || (tabFind g.fetched.cells g.next).isSome)

/-- Whether it is ring `k`'s turn: no ring that can start an item comes before it, by ascending index from the one started last (R291).
(DESIGN CHOICE, safe: log entry 198.) -/
def StrandSt.ringTurn (st : StrandSt) (k : Nat) : Bool :=
  st.ringMode k != 0 ||
  (match (List.range 16).find? fun n => st.canStart ((st.dma.turn + 1 + n) % 16) with
   | some n => (st.dma.turn + 1 + n) % 16 == k
   | none => true)

/-- TX_ITEM_FETCH of TX ring `k`: the next item's descriptors are checked and judged (R286, R344, R346); the check of a malformed one
ends when the items before it are decided (R347).  (DEDUCED, safe: log entry 201.) -/
def StrandSt.itemFetch (st : StrandSt) (k : Nat) : StrandSt :=
  if st.ringState k != 1 || !st.ringEn k || (st.ring k).replay != 0 || st.cqHolds k || !st.ringTurn k then st
  else
    let st := if st.ringMode k = 0 then { st with dma := { st.dma with turn := k } } else st
    let i := (st.ring k).next
    let r := st.gather k i true 64
    match r.1 with
    | none => r.2
    | some (ds, bad) =>
      let st := r.2
      let bad := bad || !st.itemOk k ds
      let q := dQseq (ds.headD [])
      if bad && !(st.ring k).items.isEmpty then st else
      let st := if (st.led k).valid then st
        else
          let p := (q + 2 ^ 32 - 1) % 2 ^ 32
          st.setLed k { st.led k with valid := true, acc := p, sta := p, cmp := p }
      let acc := (st.led k).acc
      if q = seqNext acc then
        if !bad && 64 < st.storedCount k + ds.length then
          if (st.ring k).fullWait then st
          else (st.updRing k fun g => { g with fullWait := true }).inc (Reg.LEDGER_CNT + 8 * 6)
        else (st.acceptItem k i q ds bad).prefetch k
      else if newer q acc then
        let st := ((st.ringFlag k 3).ringFault k).inc (Reg.LEDGER_CNT + 8)
        (st.flag Reg.LEDGER_FLAGS 1).report 0x0E02 .lasting [k, q, acc]
      else (st.passDup k i q ds).prefetch k

/-- HOST_READ_COMPLETION: the read with tag `tag` ends with data, with an error, or with LINK_RESET (R284, R304 to R306).  (DEDUCED, safe: log entry 60.) -/
def StrandSt.readComplete (st : StrandSt) (tag status : Nat) (data : List Byte) : StrandSt :=
  match st.dma.reads.find? (fun r => r.tag == tag) with
  | none => st
  | some r =>
    let st := st.freeRead tag
    match r.what with
    | .desc k i =>
      if status = 2 || !st.owns k i || st.ringState k = 0 || st.ringState k = 3 then st
      else if status = 1 then (st.addrErr k).ringFault k
      else
        let d := wordsOf 8 data
        if dOwn d then st.updRing k fun g => { g with fetched := g.fetched.set [] i d } else st.ownMiss k i
    | .data k q off =>
      if status = 2 then st
      else if status = 1 then
        if (st.ring k).items.any (fun it => it.qseq == q && it.step == .reading && !it.ended) then (st.addrErr k).endItem k q 8 else st
      else st.updItem k q fun it => { it with got := it.got.set [] off (data.take r.len), missing := it.missing - 1 }
    | .back => st.readBack tag

/-- The frame of a TX item, with the descriptor's edits and metadata (R285, R117, R149, R187).  (DEDUCED, unsafe: log entry 31.)  (DEDUCED, safe: log entry 35.) -/
def StrandSt.txFrame (st : StrandSt) (k : Nat) (it : Item) : Frame × Nat × StrandSt :=
  let d := it.descs.headD []
  let w3 := dWord d 3
  let w5 := dWord d 5
  let w6 := dWord d 6
  let w7 := dWord d 7
  let bytes0 := (it.got.cells.flatMap (·.2))
  let bytes := if bitOf w3 12 && bitOf w7 31 then overlay bytes0 (fieldOf w7 29 16) [0, 0] else bytes0
  let sa := beNum ((bytes.drop 6).take 6)
  let cnt := st.dma.redSeq.get 0 sa
  let own := bitOf w3 11
  let st := if own then st else { st with dma := { st.dma with redSeq := st.dma.redSeq.set 0 sa ((cnt + 1) % 65536) } }
  let act := fieldOf w3 27 26
  let t := parseTags bytes
  let tci := match t.c, t.s with
    | some c, _ => some c
    | none, some s => some s
    | none, none => none
  let m : FrMeta := { src := if st.ringLoc k then 5 else 4, cls := fieldOf w3 25 23,
                      vid := tci.getD 0 % 4096, pcp := tci.getD 0 / 8192, tagged := tci.isSome,
                      insC := if act = 0 then none else some (act != 3), insS := if act = 0 then none else some (act == 2),
                      cTag := if act = 1 || act = 2 then some (fieldOf w6 15 0) else none,
                      sTag := if act = 2 then some (fieldOf w6 31 16) else none,
                      seq := if own then fieldOf w7 15 0 else cnt,
                      oneStep := if bitOf w3 12 && bitOf w5 31 then
                          some (fieldOf w5 13 0, if bitOf w5 30 then some (fieldOf w5 29 16) else none) else none,
                      item := some (k, it.qseq, bitOf w3 28) }
  ({ bytes := bytes, info := m }, fieldOf w3 22 13, st)

/-- The effect of a commit on item and ledger (R291, R340, R351). -/
def StrandSt.committed (st : StrandSt) (k : Nat) (it : Item) (done : Bool) : StrandSt :=
  let st := (st.ledStart k it.qseq).updItem k it.qseq fun i => { i with step := .committed, ended := done }
  if it.replay then
    let n := (st.ring k).replay - 1
    (st.updRing k fun g => { g with replay := n }).prefetch k
  else st

/-- The item of TX ring `k` that is to commit next, where its data is whole and nothing else holds it (R291, R329). -/
def StrandSt.txReady (st : StrandSt) (k : Nat) : Option Item :=
  match (st.ring k).items.find? (fun it => it.step != .committed && !it.ended && !it.dup) with
  | some it => if it.step != .reading || it.missing != 0 || st.env.standby.contains k then none else some it
  | none => none

/-- The traffic class of a TX item's frame. -/
def Item.cls (it : Item) : Nat := fieldOf (dWord (it.descs.headD []) 3) 25 23

/-- TX_COMMIT of TX ring `k`: the oldest item whose data is whole commits (R291, R292, R294, R329). -/
def StrandSt.txCommit (st : StrandSt) (k : Nat) : StrandSt :=
  match st.txReady k with
  | none => st
  | some it =>
    if st.ringMode k = 1 then
      let ts := bitOf (dWord (it.descs.headD []) 3) 28
      let staged := st.flg.staged.set none k (some (it.got.cells.flatMap (·.2), it.qseq, ts, st.ct32 / (2 ^ 16 : Nat)))
      ({ st with flg := { st.flg with staged := staged } } : StrandSt).committed k it false
    else
      let f := st.txFrame k it
      let d := f.2.2.destinations f.2.1 f.1
      if !d.2.admissible d.1 f.1 then st
      else
        let tsReq := bitOf (dWord (it.descs.headD []) 3) 28
        (d.2.toQueues d.1 f.1).committed k it (!tsReq || !(d.2.enqueue d.1 f.1).2.1)

/-- INTERNAL_ADMIT of H (4) or C (5): the ready items of its TX rings commit; a frame that waits holds back the later ones of its class (R154).
A frame of the redundancy package that waits does too (R254).  (DEDUCED, unsafe: log entry 37.) -/
def StrandSt.txCommits (st : StrandSt) (src : Nat) : StrandSt :=
  ((List.range 16).foldl (fun (a : StrandSt × List Nat) k =>
    match a.1.txReady k with
    | none => a
    | some it =>
      if a.1.ringLoc k != decide (src = 5) || (a.1.ringMode k != 1 && a.2.contains it.cls) then a
      else
        let s := a.1.txCommit k
        let waits := match s.txReady k with
          | some j => j.qseq == it.qseq
          | none => false
        (s, if waits then it.cls :: a.2 else a.2)) (st, (st.sw.waiting.filter fun w => w.src == src).map fun w => w.frame.info.cls)).1

/-- Whether a frame waits at internal source `src` (R154). -/
def StrandSt.sourceWaits (st : StrandSt) (src : Nat) : Bool :=
  (st.sw.waiting.any fun w => w.src == src) ||
  ((src = 4 || src = 5) && (List.range 16).any fun k =>
    !(st.ring k).items.isEmpty && st.ringLoc k == decide (src = 5) && st.ringMode k != 1 && (st.txReady k).isSome)

/-- What the switch and the Filigree controller report of transmit items (R186, R291, R292). -/
def StrandSt.takeNotes (st : StrandSt) : StrandSt :=
  let notes := st.sw.notes
  notes.foldl (fun (s : StrandSt) n => s.updItem n.ring n.qseq fun it =>
    if it.step == .committed && !it.ended then { it with ended := true, ts := n.ts } else it)
    { st with sw := { st.sw with notes := [] } }

/-- COMPLETION_WRITE of TX ring `k`: its oldest item is decided, if it has ended (R295). -/
def StrandSt.completionWrite (st : StrandSt) (k : Nat) : StrandSt :=
  let st := st.takeNotes
  match (st.ring k).items with
  | it :: _ => if it.ended && !it.dup then st.completeTx k it else st
  | [] => st

/-- In MD6 the standby retires its items at or below the mark without transmitting them (R329). -/
def StrandSt.retireTo (st : StrandSt) (k mark : Nat) : StrandSt :=
  st.updRing k fun g =>
    { g with items := g.items.map fun it => if !newer it.qseq mark && it.step != .committed && !it.ended then
        { it with ended := true, step := .committed } else it }

/-! ## RX rings -/

/-- The RX ring of egress queue `q` of H (4) or C (5) (R290), by key. -/
def StrandSt.rxKey (st : StrandSt) (e q : Nat) : Nat := 16 + st.fld (Reg.DMA_RXMAP_H + 4 * (e - 4)) (4 * q + 3) (4 * q)

/-- Whether a ring can take a frame's first descriptor now (R290, R294). -/
def StrandSt.rxReady (st : StrandSt) (k : Nat) : Bool :=
  st.ringState k == 1 && st.ringEn k && st.ringOwned k != 0 && (st.ring k).rx.isNone && !st.cqHolds k &&
  !(st.sw.toDma.any fun f => st.rxKey f.1 f.2.1 == k)

/-- EGRESS_SELECT on H or C: among the queues whose ring can take a frame the highest one sends its head (R157, R290).  (DEDUCED, safe: log entry 70.) -/
def StrandSt.egressHC (st : StrandSt) (e : Nat) (err : BufErr) : StrandSt :=
  match ((List.range 8).reverse.find? fun q => st.qReady e q && st.rxReady (st.rxKey e q)) with
  | none => st
  | some q =>
    match st.queue e q with
    | [] => st
    | r :: _ =>
      let st := st.bufRead r.fid err
      let f := (st.sw.frames.get {} r.fid).frame.deliveredBy r err
      let st := st.popQueue e q true f.bytes.length
      { st with sw := { st.sw with toDma := st.sw.toDma ++ [(e, q, f)] } }

/-- Words 0 and 1 of an RX write-back (R288). -/
def rxTagWords (m : FrMeta) : List Word :=
  let s := m.sTag.getD 0
  let c := m.cTag.getD 0
  let red := match m.hsr, m.prp with
    | some h, _ => h % 65536 * 2 ^ 16 + h / 2 ^ 28 % 16 * 2 ^ 12 + 2 ^ 11 + 2 ^ 10
    | none, some p => p / 65536 % 65536 * 2 ^ 16 + p / 2 ^ 12 % 16 * 2 ^ 12 + 2 ^ 11
    | none, none => 0
  [BitVec.ofNat 32 (s % 65536 * 65536 + c % 65536),
   BitVec.ofNat 32 (red + b2n m.sTag.isSome * 512 + b2n m.cTag.isSome * 256 + b2n m.mirror * 128 + m.src % 16)]

/-- HEAD of an RX ring passes over descriptors that were aborted before a frame reached them (R282, R302). The number bounds them. -/
def StrandSt.skipAborts (st : StrandSt) (k : Nat) : Nat → StrandSt
  | 0 => st.updRing k fun g => { g with aborts := g.aborts.filter (st.owns k) }
  | n + 1 =>
    let h := st.ringHead k
    if (st.ring k).aborts.contains h && st.owns k h then (st.setHead k ((h + 1) % st.ringSize k)).skipAborts k n else st.skipAborts k n

/-- Writes back the descriptors of an RX item and hands its record to the writer (R288, R293, R298). -/
def StrandSt.rxEnd (st : StrandSt) (k : Nat) (cur : RxCur) (status : Nat) : StrandSt :=
  let size := st.ringSize k
  let q := st.ledNext k
  let n := cur.used.length
  let ts := st.tsWords cur.frame.info.ts
  let st := (cur.used.zipIdx.foldl (fun (s : StrandSt) (u : (Nat × List Word × Nat) × Nat) =>
    let w3 := b2n (u.2 == 0) * 2 ^ 30 + b2n (u.2 + 1 == n) * 2 ^ 29 + cur.queue % 8 * 2 ^ 23 + status % 256
    s.writeBack k u.1.1 q (rxTagWords cur.frame.info ++
      [BitVec.ofNat 32 (u.1.2.2 % 2 ^ 14 * 2 ^ 16 + dLen u.1.2.1), BitVec.ofNat 32 w3, BitVec.ofNat 32 q] ++ ts)) st)
  let last := ((cur.used.getLast?).map (·.1)).getD 0
  let st := ((st.ledIssue k q).setHead k ((last + 1) % size)).skipAborts k (st.ring k).aborts.length
  let len := if status = 1 || status = 2 || status = 7 then 0 else cur.frame.bytes.length
  let st := st.updRing k fun g => { g with rx := none }
  let st := if st.ringState k = 2 then st.setRingState k 1 else st
  let st := if st.ringEn k then st else st.setRingState k 0
  (st.pushRec k (st.ringCq k) [BitVec.ofNat 32 q, BitVec.ofNat 32 (recWord1 1 (k - 16) last),
    BitVec.ofNat 32 (recWord2 len n status), 0]).flushRecs

/-- The frame of a ring is discarded for want of buffers (R298). -/
def StrandSt.rxDiscard (st : StrandSt) (k : Nat) : StrandSt :=
  match (st.ring k).rx with
  | none => st
  | some cur =>
    let st := (st.inc (Reg.DMA_CNT + 8 * 2)).flag Reg.DMA_FLAGS 3
    (st.rxEnd k cur 1).reportOnce 0x0C03 .transient 0x0C03 [k]

/-- The status an RX frame ends with (R166, R289). -/
def rxStatus (m : FrMeta) : Nat := if m.ue then 6 else if m.trunc then 4 else if m.err then 5 else if m.oversize then 3 else 0

/-- A malformed RX descriptor is an item of its own (R288). -/
def StrandSt.rxBadDesc (st : StrandSt) (k i : Nat) (d : List Word) : StrandSt :=
  let q := st.ledNext k
  let st := st.writeBack k i q ((d.set 3 (BitVec.ofNat 32 7)).set 4 (BitVec.ofNat 32 q))
  let st := ((st.ledIssue k q).ringFlag k 3).inc (Reg.DMA_CNT + 8 * 11)
  (st.pushRec k (st.ringCq k) [BitVec.ofNat 32 q, BitVec.ofNat 32 (recWord1 1 (k - 16) i), BitVec.ofNat 32 (recWord2 0 1 7), 0]).flushRecs

/-- Descriptor `i`, an item of its own, is decided: HEAD passes it, at once where no frame holds descriptors before it (R282). -/
def StrandSt.rxPass (st : StrandSt) (k i : Nat) (free : Bool) : StrandSt :=
  let st := st.updRing k fun g => { g with aborts := if g.aborts.contains i then g.aborts else g.aborts ++ [i] }
  if free then st.skipAborts k (st.ring k).aborts.length else st

/-- Index of the next descriptor an RX ring consumes: aborted ones are passed over. -/
def StrandSt.rxNext (st : StrandSt) (k : Nat) : Nat :=
  match (st.ring k).rx with
  | some cur =>
    let at_ := fun (n : Nat) => (((cur.used.getLast?).map (fun u => u.1 + 1)).getD (st.ringHead k) + n) % st.ringSize k
    at_ (((List.range (st.ring k).aborts.length).find? fun n => !(st.ring k).aborts.contains (at_ n)).getD (st.ring k).aborts.length)
  | none => st.ringHead k

/-- The frame in progress takes a consumed descriptor: its bytes go to SRAM, to the host, or word by word to a Bead queue, which refuses them where
the engine has no TX queue or a V port is bound to it; the Boolean says that the write succeeded (R64, R67, R148, R301, R306). -/
def StrandSt.rxPart (st : StrandSt) (k i : Nat) (d : List Word) (cur : RxCur) : Bool × RxCur × StrandSt :=
  let part := (cur.frame.bytes.drop cur.done).take (dLen d)
  let cur' := { cur with used := cur.used ++ [(i, d, part.length)], done := cur.done + part.length }
  if !st.ringLoc k then
    (true, cur', (readPieces (dAddr d) 0 40 part.length).foldl (fun (s : StrandSt) p =>
      s.hostReq (.data (st.ringLink k) k (cur.done == 0 && p.2.1 == 0) p.1 ((part.drop p.2.1).take p.2.2))) st)
  else match txqAt (dAddr d) with
    | some n =>
      if st.txDepth n = 0 || st.vBound n then (false, cur', st.flag (Reg.BEAD_FLAGS n) 6)
      else (true, { cur' with left := wordsOf (ceilDiv part.length 4) part, leftQ := n }, st)
    | none =>
      let acc := st.bankWrite reqDma (dAddr d) part
      (acc.ok && !acc.ue, cur', acc.st)

/-- Consumes descriptors for the frame in progress from index `i` on (R288, R298); words that wait for a Bead queue go first (R67). The number
bounds the steps. -/
def StrandSt.rxFill (st : StrandSt) (k i : Nat) : Nat → StrandSt
  | 0 => st
  | n + 1 =>
    match (st.ring k).rx with
    | none => st
    | some cur =>
      let i := i % st.ringSize k
      if !cur.left.isEmpty then
        let r := st.queuePut cur.leftQ cur.left
        let st := r.1.updRing k fun g => { g with rx := some { cur with left := r.2 } }
        if r.2.isEmpty then st.rxFill k i n else st
      else if !cur.used.isEmpty && cur.frame.bytes.length ≤ cur.done then st.rxEnd k cur (rxStatus cur.frame.info)
      else if !st.owns k i then
        if cur.used.isEmpty then st
        else
          let now := st.now
          let st := ((st.setRingState k 2).inc (Reg.DMA_CNT + 8 * 13)).updRing k fun g => { g with holdAt := now }
          if st.fld (ringPage k + 0x20) 23 0 = 0 then st.rxDiscard k else st
      else if (st.ring k).aborts.contains i then st.rxFill k (i + 1) n
      else
        let r := st.descAt k i
        match r.1 with
        | none => r.2
        | some d =>
          let st := r.2.updRing k fun g => { g with fetched := g.fetched.dropIf (· == i) }
          if dLen d < 256 || 16320 < dLen d || dLen d % 64 != 0 then ((st.rxBadDesc k i d).rxPass k i cur.used.isEmpty).rxFill k (i + 1) n
          else
            let x := st.rxPart k i d cur
            if !x.1 then (x.2.2.addrErr k).rxEnd k x.2.1 8
            else (x.2.2.updRing k fun g => { g with rx := some x.2.1 }).rxFill k (i + 1) n

/-- RX_RING_DELIVER of the RX ring with key `k`: the frame in progress goes on, or the next frame for the ring starts (R288, R290).  (DEDUCED, safe: log entry 70.) -/
def StrandSt.rxDeliver (st : StrandSt) (k : Nat) : StrandSt :=
  if st.ringState k != 1 then st
  else match (st.ring k).rx with
    | some _ => (st.rxFill k (st.rxNext k) 128).prefetch k
    | none =>
      match st.sw.toDma.find? (fun f => st.rxKey f.1 f.2.1 == k) with
      | none => st
      | some f =>
        let st := { st with sw := { st.sw with toDma := st.sw.toDma.erase f } }
        let st := st.updRing k fun g => { g with rx := some { frame := f.2.2, queue := f.2.1, used := [], done := 0 } }
        (st.rxFill k (st.ringHead k) 128).prefetch k

/-- Whether the hold limit of a HOLDING ring has run out (R298). -/
def StrandSt.holdDue (st : StrandSt) (k : Nat) : Bool :=
  st.ringState k == 2 && decide ((st.ring k).holdAt + st.fld (ringPage k + 0x20) 23 0 ≤ st.now)

/-- RX_HOLD_EXPIRY: the held frame is discarded (R298). -/
def StrandSt.rxHoldExpiry (st : StrandSt) (k : Nat) : StrandSt := if st.holdDue k then st.rxDiscard k else st

/-! ## Doorbells, enables and aborts -/

/-- A write of RING_TAIL of ring `k` (R282, R298). -/
def StrandSt.tailWrite (st : StrandSt) (k v : Nat) : StrandSt :=
  if st.ringSize k ≤ v || st.ringDist k v < st.ringOwned k then st.ringFlag k 1
  else
    let st := (st.rxHoldExpiry k).setTail k v
    let st := if st.ringState k = 2 && st.owns k (st.rxNext k) then st.setRingState k 1 else st
    st.prefetch k

/-- Whether a ring's queue and mapping allow EN = 1 (R307). -/
def StrandSt.ringCfgOk (st : StrandSt) (k : Nat) : Bool :=
  let c := st.ringCq k
  let loc := st.ringLoc k
  let named := fun (e : Nat) => (List.range 8).any fun q => st.rxKey e q == k
  !(!loc && st.cqLoc c) && !(!loc && !st.cqLoc c && st.cqLink c != st.ringLink k) &&
  !(decide (16 ≤ k) && ((loc && named 4) || (!loc && named 5)))

/-- The items of (STA, ACC] replayed from the store (R351).  (DEDUCED, unsafe: log entry 63.) -/
def StrandSt.replay (st : StrandSt) (k : Nat) : StrandSt :=
  let e := st.led k
  let a := st.ledger.anchor.get (0, 0, 0) k
  let cfg := st.rd (ringPage k + 8)
  let hit := e.anchored && a.1 == st.rd (ringPage k) && a.2.1 == st.rd (ringPage k + 4) &&
    fieldOf a.2.2 4 0 == fieldOf cfg 4 0 && bitOf a.2.2 17 == bitOf cfg 17 && bitOf a.2.2 18 == bitOf cfg 18
  let todo := (st.stored k).filter fun s => newer s.qseq e.sta
  let items : List Item := todo.map fun s =>
    { qseq := s.qseq, idx := s.idx, n := s.descs.length, descs := s.descs, len := (s.descs.map dLen).sum, step := .accepted,
      replay := true, noWb := !hit }
  let st := st.updRing k fun g =>
    { g with items := (g.items.map fun it => { it with replay := true }) ++ items, replay := items.length }
  let st := st.addCnt (Reg.LEDGER_CNT + 8 * 2) items.length
  let st := if items.isEmpty then st else st.report 0x0E01 .transient [k, items.length]
  let st :=
    if hit then
      let old := st.ringHead k
      let far := decide (st.ringDist k e.next ≤ st.ringOwned k)
      let st := if far then st else st.setTail k e.next
      if old = e.next then st else st.setHead k e.next
    else if items.isEmpty then st
    else (st.addCnt (Reg.LEDGER_CNT + 8 * 3) items.length).flag Reg.LEDGER_FLAGS 4
  let h := st.ringHead k
  (st.updRing k fun g => { g with next := h }).startItems k

/-- RING_ENABLE (R307, R351). -/
def StrandSt.ringEnable (st : StrandSt) (k : Nat) : StrandSt :=
  if st.ringEn k then st
  else if !st.ringCfgOk k then (st.flag Reg.DMA_FLAGS 5).report 0x0C05 .lasting [k]
  else if st.ringState k = 1 then st.putBit (ringPage k + 0xC) 0 true
  else
    let st := ((st.putBit (ringPage k + 0xC) 0 true).setRingState k 1).dropUncommitted k
    let st :=
      if k < 16 && (st.led k).valid then st.replay k
      else
        let h := st.ringHead k
        st.updRing k fun g => { g with next := h }
    st.prefetch k

/-- RING_DISABLE: the ring stops at the next item boundary; a held frame is discarded (R298, R307). -/
def StrandSt.ringDisable (st : StrandSt) (k : Nat) : StrandSt :=
  let st := st.putBit (ringPage k + 0xC) 0 false
  if (st.ringState k = 2 || st.ringState k = 3) && (st.ring k).rx.isSome then (st.rxDiscard k).dropUncommitted k
  else if st.ringState k = 1 then st.stopRing k
  else (st.setRingState k 0).dropUncommitted k

/-- IDX_CLEAR, on a stopped ring only (R309, R352). -/
def StrandSt.idxClear (st : StrandSt) (k : Nat) : StrandSt :=
  if st.ringState k != 0 then st.ringFlag k 1
  else
    let st := ((st.setHead k 0).setTail k 0).updRing k fun g => { g with next := 0, fetched := {}, aborts := [] }
    if k < 16 && (st.led k).valid then st.setLed k { st.led k with anchored := false } else st

/-- CQ_ENABLE: the queue restarts at index 0, lap bit 0 (R310). -/
def StrandSt.cqEnable (st : StrandSt) (c : Nat) : StrandSt :=
  if st.cqEn c then st
  else (((st.putBit (cqPage c + 0xC) 0 true).wr (cqPage c + 0x10) 0).wr (cqPage c + 0x14) 0).flushRecs

/-- CQ_HEAD_WRITE: software frees records (R294). -/
def StrandSt.cqHeadWrite (st : StrandSt) (c : Nat) (v : Word) : StrandSt := (st.put (cqPage c + 0x10) 16 0 (fieldOf v 16 0)).flushRecs

/-- CQ_POST: the core posts a record of KIND 3 (R297, R349).  (DESIGN CHOICE, safe: log entry 13.) -/
def StrandSt.cqPost (st : StrandSt) (v : Word) : StrandSt :=
  let q := (st.rd Reg.DMA_CQ_POST_Q).toNat
  let c := fieldOf v 26 24
  let words : List Word := [BitVec.ofNat 32 q, BitVec.ofNat 32 (recWord1 3 (Config.postedRing c) (fieldOf v 15 0)),
                            BitVec.ofNat 32 (recWord2 0 0 (fieldOf v 23 16)), 0]
  match (List.range 4).find? (fun k => st.cmdQueue k == some c) with
  | some k =>
    let e := st.led (33 + k)
    if q = seqNext e.cmp && !newer q e.sta then ((st.cmdComplete k q).pushRec (33 + k) c words).flushRecs
    else st.flag Reg.LEDGER_FLAGS 3
  | none => (st.pushRec 40 c words).flushRecs

/-- A record of a mapper run (R268, R293). -/
def StrandSt.mapRec (st : StrandSt) (c q : Nat) : StrandSt :=
  ((st.ledIssue 32 q).pushRec 32 c [BitVec.ofNat 32 q, BitVec.ofNat 32 (recWord1 2 0 0), 0, 0]).flushRecs

/-- The abort of one descriptor (R302): the result, 0 ABORTED, 1 ALREADY_COMPLETE, 2 NOT_OWNED.  (DESIGN CHOICE, safe: log entry 205.) -/
def StrandSt.abortOne (st : StrandSt) (k i : Nat) : Nat × StrandSt :=
  let size := st.ringSize k
  let holds := fun (it : Item) => !it.dup && decide ((i + size - it.idx % size) % size < it.n)
  if k < 16 then
    match (st.ring k).items.find? (fun it => holds it && (st.owns k i || it.replay)) with
    | some it =>
      if it.step == .committed || (it.ended && it.status != 2) then (1, st.inc (Reg.DMA_CNT + 8 * 9))
      else (0, st.endItem k it.qseq 2)
    | none =>
      if !st.owns k i then (2, st)
      else (0, st.updRing k fun g => { g with aborts := if g.aborts.contains i then g.aborts else g.aborts ++ [i] })
  else if !st.owns k i then (2, st)
  else
    let used := match (st.ring k).rx with
      | some cur => cur.used.any fun u => u.1 == i
      | none => false
    if used then (1, st.inc (Reg.DMA_CNT + 8 * 9))
    else
      let d := (st.descAt k i).1.getD ((List.range 8).map (Config.unreadDesc st.env.sid st.now k))
      if (st.ring k).aborts.contains i then (1, st.inc (Reg.DMA_CNT + 8 * 9))
      else
      let st := (st.writeBack k i 0 (d.set 3 (BitVec.ofNat 32 2))).inc (Reg.DMA_CNT + 8 * 8)
      let st := (st.pushRec k (st.ringCq k) [0, BitVec.ofNat 32 (recWord1 1 (k - 16) i), BitVec.ofNat 32 (recWord2 0 1 2), 0]).flushRecs
      (0, st.rxPass k i (match (st.ring k).rx with | some cur => cur.used.isEmpty | none => true))

/-- The abort of every owned descriptor, in ring order: the number of items aborted (R303). An item is aborted once. -/
def StrandSt.abortAll (st : StrandSt) (k : Nat) : Nat × StrandSt :=
  let size := st.ringSize k
  let h := st.ringHead k
  (List.range (st.ringOwned k)).foldl (fun (a : Nat × StrandSt) n =>
    let i := (h + n) % size
    let again := (a.2.ring k).items.any fun it => it.ended && it.status == 2 && decide ((i + size - it.idx % size) % size < it.n) && it.idx != i
    let r := a.2.abortOne k i
    (if r.1 = 0 && !again then a.1 + 1 else a.1, r.2)) (0, st)

/-- DMA_ABORT: the request goes to the completion writer; one before it is decided is discarded (R302). -/
def StrandSt.dmaAbort (st : StrandSt) (v : Word) : StrandSt :=
  if st.dma.abort.isSome then st.flag Reg.DMA_FLAGS 6
  else ({ st with dma := { st.dma with abort := some v } } : StrandSt).putBit Reg.DMA_ABORT_RES 31 false

/-- The writer decides the abort request as the cycle passes, behind the commits of the cycle (R302, R303).  (DEDUCED, safe: log entry 68.) -/
def StrandSt.abortEnd (st : StrandSt) : StrandSt :=
  match st.dma.abort with
  | none => st
  | some v =>
    let k := (if bitOf v 24 then 16 else 0) + fieldOf v 23 20
    let st := ({ st with dma := { st.dma with abort := none } } : StrandSt).takeNotes
    let r : Nat × Nat × StrandSt :=
      if bitOf v 25 then
        let a := st.abortAll k
        (0, min 65535 a.1, a.2)
      else
        let a := st.abortOne k (fieldOf v 15 0)
        (a.1, if a.1 = 0 then 1 else 0, a.2)
    r.2.2.wr Reg.DMA_ABORT_RES (BitVec.ofNat 32 (2 ^ 31 + r.1 * 2 ^ 16 + r.2.1))

/-- A DMA_KICK action of Bangle (R201, R292). -/
def StrandSt.dmaKick (st : StrandSt) (k : Nat) : StrandSt :=
  let g := st.ring k
  let busy := g.asked || g.items.any fun it => it.step == .reading && !it.ended
  let work := st.ringOwned k != 0
  if st.ringMode k != 2 || st.ringState k != 1 || busy || !work then (st.ringFlag k 5).inc (Reg.DMA_CNT + 8 * 10)
  else (st.updRing k fun g => { g with asked := true }).startItems k

/-! ## Resets and load (R305, R353) -/

/-- A LINK_RESET of a link, as the strand's DMA engine sees it (R305).  (DEDUCED, unsafe: log entry 66.) -/
def StrandSt.dmaLinkReset (st : StrandSt) (link : Bool) : StrandSt :=
  let st := (List.range 32).foldl (fun (s : StrandSt) k =>
    if s.ringLoc k || s.ringLink k != link then s
    else if s.ringState k = 0 then s.ringFlag k 4
    else
      let s := ((s.putBit (ringPage k + 0xC) 0 false).setRingState k 0).ringFlag k 4
      let s := if (s.ring k).rx.isSome then (s.updRing k fun g => { g with rx := none }).inc (Reg.DMA_CNT + 8 * 3) else s
      (s.dropUncommitted k).updRing k fun g =>
        { g with aborts := [], items := g.items.map fun it => { it with noWb := true, noRec := true } }) st
  let st := (List.range 8).foldl (fun (s : StrandSt) c =>
    if s.cqLoc c || s.cqLink c != link then s else s.putBit (cqPage c + 0xC) 0 false) st
  let recs := st.dma.recs.filter fun r => st.cqLoc r.cq || st.cqLink r.cq != link
  let d := { st.dma with recs := recs, reads := st.dma.reads.filter (fun r => r.link != link),
                         waitReads := st.dma.waitReads.filter (fun r => r.link != link) }
  ({ st with dma := d } : StrandSt).report 0x0C06 .transient [b2n link]

/-- The LOC = 1 items of a ring end ABORTED in ledger and log as the strand leaves LOADING (R353). -/
def StrandSt.abortLoc1 (st : StrandSt) (r : Nat) : StrandSt :=
  let a := st.ledger.anchor.get (0, 0, 0) r
  if !bitOf a.2.2 17 then st
  else
    (st.stored r).foldl (fun (s : StrandSt) it =>
      let last := (it.idx + it.descs.length - 1) % 2 ^ fieldOf a.2.2 4 0
      let s := (s.ledComplete r it.qseq).setLog r it.qseq
        ([BitVec.ofNat 32 it.qseq, BitVec.ofNat 32 (2 ^ 31 + recWord1 0 r last), BitVec.ofNat 32 (recWord2 0 it.descs.length 2), 0]
          ++ s.tsWords none ++ [0])
      ((s.inc (Reg.LEDGER_CNT + 8 * 4)).flag Reg.LEDGER_FLAGS 2).report 0x0E04 .lasting [r, it.qseq]) st

/-- Commands in (CMP, STA] of an enabled command queue are posted as ABORTED (R353). The number bounds them. -/
def StrandSt.abortCmds (st : StrandSt) (k : Nat) : Nat → StrandSt
  | 0 => st
  | n + 1 =>
    let e := st.led (33 + k)
    match st.cmdQueue k with
    | none => st
    | some c =>
      if newer e.sta e.cmp then
        let q := seqNext e.cmp
        ((st.cmdComplete k q).pushRec (33 + k) c [BitVec.ofNat 32 q, BitVec.ofNat 32 (recWord1 3 (Config.postedRing c) 0),
          BitVec.ofNat 32 (recWord2 0 0 2), 0]).abortCmds k n
      else st

/-- The ledger as the strand leaves LOADING after a reset that kept it (R353). -/
def StrandSt.ledgerResume (st : StrandSt) : StrandSt :=
  let st := (List.range 16).foldl (fun (s : StrandSt) r =>
    let e := s.led r
    if e.valid then (s.setLed r { e with sta := e.cmp }).abortLoc1 r else s) st
  (List.range 4).foldl (fun s k => s.abortCmds k 16) st

/-- The lock's check of the command queues: two enabled queues that name one CQ are both disabled (R359). -/
def StrandSt.cmdCqLock (st : StrandSt) : StrandSt :=
  let clash := (List.range 4).filter fun k => (List.range 4).any fun j => j != k && (st.cmdQueue k).isSome && st.cmdQueue k == st.cmdQueue j
  if clash.isEmpty then st
  else (clash.foldl (fun (s : StrandSt) k => s.putBit Reg.CMD_CQ (16 + k) false) st).flag Reg.DMA_FLAGS 5

end Sys2Proof.Machine
end

