-- ==== Sys2Proof/Machine/FloatOps.lean ====
section
/-! DEFINITION. Numbers of the mapper's binary64 path (R272, R273): exact values, and the one rounding to a format. -/

namespace Sys2Proof.Machine

/-- A value on the binary64 path: a NaN, an infinity, or the exact value ± n / d with its sign kept for zero. -/
inductive Num where
  | nan
  | inf (neg : Bool)
  | fin (neg : Bool) (n d : Nat)
deriving DecidableEq, Repr

/-- An integer as a value. -/
def Num.ofInt (i : Int) : Num := .fin (decide (i < 0)) i.natAbs 1

/-- Whether a value is zero, and its sign. -/
def Num.isZero : Num → Bool
  | .fin _ n _ => n == 0
  | _ => false
def Num.neg : Num → Bool
  | .nan => false
  | .inf s => s
  | .fin s _ _ => s

/-- The value negated. -/
def Num.flip : Num → Num
  | .nan => .nan
  | .inf s => .inf (!s)
  | .fin s n d => .fin (!s) n d

/-- The sum. -/
def Num.add : Num → Num → Num
  | .nan, _ => .nan
  | _, .nan => .nan
  | .inf s, .inf t => if s = t then .inf s else .nan
  | .inf s, _ => .inf s
  | _, .inf t => .inf t
  | .fin s n d, .fin t m e =>
    let i : Int := (if s then -(n : Int) else n) * e + (if t then -(m : Int) else m) * d
    if i = 0 then .fin (s && t) 0 1 else .fin (decide (i < 0)) i.natAbs (d * e)

/-- The difference. -/
def Num.sub (a b : Num) : Num := a.add b.flip

/-- The product. -/
def Num.mul : Num → Num → Num
  | .nan, _ => .nan
  | _, .nan => .nan
  | .inf s, b => if b.isZero then .nan else .inf (s != b.neg)
  | a, .inf t => if a.isZero then .nan else .inf (a.neg != t)
  | .fin s n d, .fin t m e => .fin (s != t) (n * m) (d * e)

/-- The quotient. -/
def Num.div : Num → Num → Num
  | .nan, _ => .nan
  | _, .nan => .nan
  | .inf _, .inf _ => .nan
  | .inf s, .fin t _ _ => .inf (s != t)
  | .fin s _ _, .inf t => .fin (s != t) 0 1
  | .fin s n d, .fin t m e => if m = 0 then (if n = 0 then .nan else .inf (s != t)) else .fin (s != t) (n * e) (d * m)

/-- Whether `a ≤ b`; false where either is a NaN. -/
def Num.le : Num → Num → Bool
  | .nan, _ => false
  | _, .nan => false
  | .inf true, _ => true
  | _, .inf false => true
  | .inf false, _ => false
  | _, .inf true => false
  | .fin s n d, .fin t m e => decide ((if s then -(n : Int) else n) * e ≤ (if t then -(m : Int) else m) * d)

/-- Whether `a < b`. -/
def Num.lt (a b : Num) : Bool := a.le b && !b.le a

/-- `n / d` rounded to an integer, to nearest with ties to even. -/
def roundHalfEven (n d : Nat) : Nat :=
  let q := n / d
  let r := 2 * (n % d)
  if d < r || (r = d && q % 2 = 1) then q + 1 else q

/-- The power of two at or below `n / d`, for `n` above 0. -/
def floorLog (n d : Nat) : Int :=
  let e : Int := (Nat.log2 n : Int) - (Nat.log2 d : Int)
  let below := if 0 ≤ e then decide (n < d * 2 ^ e.toNat) else decide (n * 2 ^ (-e).toNat < d)
  if below then e - 1 else e

/-- The bits of a binary format with `eb` exponent bits and `mb` fraction bits, for a value (R272): one rounding to nearest,
ties to even; a NaN is the quiet NaN. -/
def floatBits (eb mb : Nat) : Num → Nat
  | .nan => (2 ^ (eb + 1) - 1) * 2 ^ (mb - 1)
  | .inf s => b2n s * 2 ^ (eb + mb) + (2 ^ eb - 1) * 2 ^ mb
  | .fin s n d =>
    let sign := b2n s * 2 ^ (eb + mb)
    if n = 0 then sign
    else
      let bias : Int := 2 ^ (eb - 1) - 1
      let e := max (floorLog n d) (1 - bias)
      let q := e - mb
      let m := if 0 ≤ q then roundHalfEven n (d * 2 ^ q.toNat) else roundHalfEven (n * 2 ^ (-q).toNat) d
      let bits := (e + bias - 1).toNat * 2 ^ mb + m
      if (2 ^ eb - 1) * 2 ^ mb ≤ bits then sign + (2 ^ eb - 1) * 2 ^ mb else sign + bits

/-- The value of a binary format's bits. -/
def floatNum (eb mb b : Nat) : Num :=
  let s := bitN b (eb + mb)
  let e := b / 2 ^ mb % 2 ^ eb
  let f := b % 2 ^ mb
  if e = 2 ^ eb - 1 then (if f = 0 then .inf s else .nan)
  else
    let m := if e = 0 then f else f + 2 ^ mb
    let q : Int := (max e 1 : Nat) - ((2 ^ (eb - 1) - 1 + mb : Nat) : Int)
    if 0 ≤ q then .fin s (m * 2 ^ q.toNat) 1 else .fin s m (2 ^ (-q).toNat)

/-- A value rounded to binary64. -/
def Num.to64 (a : Num) : Num := floatNum 11 52 (floatBits 11 52 a)

/-- binary32 and binary64 readings. -/
def num32 (b : Nat) : Num := floatNum 8 23 b
def num64 (b : Nat) : Num := floatNum 11 52 b

/-- A finite value rounded to an integer, to nearest with ties to even. -/
def Num.round : Num → Option Int
  | .fin s n d => some (if s then -(roundHalfEven n d : Int) else roundHalfEven n d)
  | _ => none

end Sys2Proof.Machine
end

