-- ==== Sys2Proof/Machine/MapperOps.lean ====
section
/-! DEFINITION. The signal mapper: contexts, descriptors, conversion, curves, triggers and runs; and the state-machine tables
that the common service interprets (R257 to R276, R348). -/

namespace Sys2Proof.Machine

/-! ## Contexts (R257, R258) -/

/-- Address of context `c`, and a word of its header. -/
def StrandSt.ctxAddr (st : StrandSt) (c : Nat) : Nat := st.fld Reg.MAP_CTX 5 0 * bankSize + 512 * c
def StrandSt.ctxWord (st : StrandSt) (c off : Nat) : Nat := st.memWord (st.ctxAddr c + off)
def StrandSt.nCtx (st : StrandSt) : Nat := st.fld Reg.MAP_CTX 26 16

/-- The address and length of a context's buffer: RX (`false`) or TX, number `n`; none where its pointer breaks R258. -/
def StrandSt.ctxBuf (st : StrandSt) (c : Nat) (tx : Bool) (n : Nat) : Option (Nat × Nat) :=
  let ptr := st.ctxWord c (8 + 8 * b2n tx + 4 * n)
  let len := bitsN (st.ctxWord c 24) (16 * b2n tx + 15) (16 * b2n tx)
  if ptr = 0xFFFFFFFF then
    if len ≤ 112 then some (st.ctxAddr c + (if tx then 288 else 64) + 112 * n, len) else none
  else if len ≤ 2048 && ptr % 8 = 0 && ptr + len ≤ 0x600000 then some (ptr, len) else none

/-! ## Formats and values (R270, R272) -/

/-- Bits of an image kind's field: IMG_W, or the payload's width for RAW. -/
def fmtImgW (f : Word) (w : Nat) : Nat := if fieldOf f 7 4 = 0 then w else 8 * 2 ^ fieldOf f 9 8

/-- Whether a kind can stand with a width in bits. -/
def kindOk (kind w : Nat) : Bool :=
  match kind with
  | 3 => w % 4 == 0
  | 4 => w == 32
  | 5 => w == 64
  | k => decide (k ≤ 2)

/-- Whether a descriptor's width, bit offset and curve fit its format (R270, R271). -/
def fmtOk (f : Word) (w bit curve : Nat) : Bool :=
  let fk := fieldOf f 3 0
  let ik := fieldOf f 7 4
  kindOk fk w && kindOk ik (fmtImgW f w) && ((fk == 0) == (ik == 0)) && (fk != 0 || curve == 0) &&
  (!bitOf f 10 || (bit == 0 && w % 8 == 0))

/-- The bytes of a `w`-bit number reversed (R270). -/
def revBytes (w v : Nat) : Nat := leNum (leBytes (w / 8) v).reverse

/-- A source value: an exact integer, a value of the binary64 path, or none where the conversion leaves the destination. -/
inductive SrcVal where
  | int (i : Int)
  | num (n : Num)
  | bad
deriving DecidableEq, Repr

/-- The number that BCD digits spell, lowest first; none where a digit is above 9. -/
def bcdDigits : Nat → Nat → Option Nat
  | 0, _ => some 0
  | k + 1, v => if v % 16 ≤ 9 then (bcdDigits k (v / 16)).map fun r => v % 16 + 10 * r else none

/-- The digits of a number as packed BCD. -/
def bcdPack : Nat → Nat → Nat
  | 0, _ => 0
  | k + 1, v => v % 10 + 16 * bcdPack k (v / 10)

/-- The value of a `w`-bit field of a kind (R270, R272). -/
def readKind (kind w : Nat) (signNib : Bool) (v : Nat) : SrcVal :=
  match kind with
  | 1 => .int v
  | 2 => .int (signedN w v)
  | 3 =>
    if signNib then
      let s := v / 16 ^ (w / 4 - 1) % 16
      match bcdDigits (w / 4 - 1) v with
      | some n => if s = 0xC || s = 0xF then .int n else if s = 0xD then .int (-(n : Int)) else .bad
      | none => .bad
    else match bcdDigits (w / 4) v with
      | some n => .int n
      | none => .bad
  | 4 => .num (num32 v)
  | 5 => .num (num64 v)
  | _ => .int v

/-- The range of an integer kind (R272). -/
def kindRange (kind w : Nat) (signNib : Bool) : Int × Int :=
  match kind with
  | 2 => (-(2 ^ (w - 1) : Nat), (2 ^ (w - 1) : Nat) - 1)
  | 3 => if signNib then (-((10 ^ (w / 4 - 1) : Nat) - 1 : Int), (10 ^ (w / 4 - 1) : Nat) - 1) else (0, (10 ^ (w / 4) : Nat) - 1)
  | _ => (0, (2 ^ w : Nat) - 1)

/-- An integer as a field of a kind: the bits, and whether it saturated (R272).  (DESIGN CHOICE, safe: log entry 14.) -/
def writeInt (kind w : Nat) (signNib : Bool) (i : Int) : Nat × Bool :=
  let r := kindRange kind w signNib
  let j := max r.1 (min r.2 i)
  let bits := match kind with
    | 3 =>
      if signNib then
        (if j < 0 then 0xD else if Config.bcdPlusF then 0xF else 0xC) * 16 ^ (w / 4 - 1) + bcdPack (w / 4 - 1) j.natAbs
      else bcdPack (w / 4) j.natAbs
    | _ => wrapN w j
  (bits, j != i)

/-- A value of the binary64 path as a field of a kind: the bits and whether it saturated; none for a NaN bound for an integer (R272).
A finite value beyond a binary32's range and an infinity give the largest finite value of their sign.  (DEDUCED, unsafe: log entry 50.) -/
def writeNum (kind w : Nat) (signNib : Bool) (a : Num) : Option (Nat × Bool) :=
  match kind with
  | 4 | 5 =>
    let eb := if kind = 4 then 8 else 11
    let mb := if kind = 4 then 23 else 52
    let b := floatBits eb mb a
    match a with
    | .nan => some (b, false)
    | _ =>
      if b % 2 ^ (eb + mb) = (2 ^ eb - 1) * 2 ^ mb then some (b - 1, true) else some (b, false)
  | _ =>
    match a with
    | .nan => none
    | .inf s => some ((writeInt kind w signNib (if s then -(2 ^ 70 : Nat) else (2 ^ 70 : Nat))).1, true)
    | .fin _ _ _ => a.round.map fun i => writeInt kind w signNib i

/-! ## Curves (R273) -/

/-- The line through two points, at `x`.  (DEDUCED, safe: log entry 49.) -/
def lineAt (p q : Num × Num) (x : Num) : Num :=
  p.2.add (((x.sub p.1).mul (q.2.sub p.2)).div (q.1.sub p.1))

/-- The curve's value at `x`, between or beyond its points. -/
def curveAt (extend : Bool) (x : Num) : List (Num × Num) → Num
  | [] => .nan
  | [p] => p.2
  | p :: q :: rest =>
    if x.lt p.1 then (if extend then lineAt p q x else p.2)
    else if x.le q.1 then lineAt p q x
    else match rest with
      | [] => if extend then lineAt p q x else q.2
      | r :: rs => curveAt extend x (q :: r :: rs)

/-- A curve applied; a NaN stays one.  (DEDUCED, safe: log entry 49.) -/
def Curve.apply (c : Curve) (x : Num) : Num :=
  if x = .nan then .nan else curveAt c.extend x (c.pts.map fun p => (num32 p.1.toNat, num32 p.2.toNat))

/-! ## One descriptor (R261, R266, R267, R271, R272) -/

/-- The fields of a descriptor word. -/
structure Desc where
  ctx : Nat
  byte : Nat
  bit : Nat
  w : Nat
  pi : Nat
  fmt : Nat
  curve : Nat
deriving DecidableEq, Repr

/-- Descriptor `i` of the table. -/
def StrandSt.mapDesc (st : StrandSt) (i : Nat) : Desc :=
  let v := leNum (Memory.read st.banks.mem (st.fld Reg.MAP_TBL 5 0 * bankSize + 8 * i) 8)
  ⟨bitsN v 63 54, bitsN v 53 43, bitsN v 42 40, bitsN v 39 34 + 1, bitsN v 33 11, bitsN v 10 6, bitsN v 5 0⟩

/-- A copy of the image: its first bank. -/
def StrandSt.imgBank (st : StrandSt) (copy : Bool) : Nat := if copy then st.fld Reg.MAP_IMG 21 16 else st.fld Reg.MAP_IMG 13 8

/-- FRONT and BACK. -/
def StrandSt.front (st : StrandSt) : Bool := st.bit Reg.MAP_STATUS 2

/-- A run in progress: the strand, the RX_SEL taken by context, the contexts written, and the crossings of the two lanes. -/
structure MapRun where
  st : StrandSt
  rxSel : Tab (Option Nat) := {}
  used : List Nat := []
  wrote : List Nat := []
  lane0 : Nat := 0
  lane1 : Nat := 0

/-- The cause a faulty descriptor is recorded with, if it has one (R271, MAP_LAST_ERR).  (DESIGN CHOICE, unsafe: log entry 51.) -/
def StrandSt.descCause (st : StrandSt) (d : Desc) (buf : Option (Nat × Nat)) : Option Nat :=
  let f := st.map.fmts.getD d.fmt 0
  let iw := fmtImgW f d.w
  match buf with
  | none => some 5
  | some b =>
    if 8 * b.2 < 8 * d.byte + d.bit + d.w then some 1
    else if (fieldOf f 7 4 != 0 && d.pi % iw != 0) || st.fld Reg.MAP_IMG 3 0 * 2 ^ 20 < d.pi + iw then some 2
    else if !fmtOk f d.w d.bit d.curve then some 3
    else if d.curve != 0 && !(st.map.curves.any fun c => c.id == d.curve) then some 4
    else none

/-- Reads `w` bits from bit `bit` of the byte at `a`; the Boolean says an uncorrectable error was met. -/
def StrandSt.readBits (st : StrandSt) (a bit w : Nat) : Nat × Bool × StrandSt :=
  let r := st.bankRead reqMapper a (ceilDiv (bit + w) 8)
  (leNum r.bytes / 2 ^ bit % 2 ^ w, r.ue, r.st)

/-- Writes `w` bits from bit `bit` of the byte at `a`. -/
def StrandSt.writeBits (st : StrandSt) (a bit w v : Nat) : StrandSt :=
  let n := ceilDiv (bit + w) 8
  let old := leNum (Memory.read st.banks.mem a n)
  (st.bankWrite reqMapper a (leBytes n (putN old (bit + w - 1) bit v))).st

/-- The converted value of a field: bits, saturated; none leaves the destination unchanged (R272). -/
def StrandSt.convert (st : StrandSt) (f : Word) (d : Desc) (out : Bool) (raw : Nat) : Option (Nat × Bool) :=
  let fk := fieldOf f 3 0
  let ik := fieldOf f 7 4
  let iw := fmtImgW f d.w
  let sn := bitOf f 11
  let sk := if out then ik else fk
  let sw := if out then iw else d.w
  let dk := if out then fk else ik
  let dw := if out then d.w else iw
  let raw := if !out && bitOf f 10 then revBytes d.w raw else raw
  let res := if fk = 0 then some (raw, false)
    else
      let exact := decide (sk ≤ 3) && decide (dk ≤ 3) && d.curve == 0
      let curve := fun (n : Num) => match st.map.curves.find? (fun c => c.id == d.curve) with
        | some c => if d.curve = 0 then n else (c.apply n).to64
        | none => n
      match readKind sk sw sn raw with
      | .bad => none
      | .int i => if exact then some (writeInt dk dw sn i) else writeNum dk dw sn (curve (Num.ofInt i).to64)
      | .num n => writeNum dk dw sn (curve n)
  if out && bitOf f 10 then res.map fun r => (revBytes d.w r.1, r.2) else res

/-- A field that crosses a 64-bit word boundary (R269). -/
def crosses (bitAddr w : Nat) : Bool := decide (64 < bitAddr % 64 + w)

/-- One descriptor of a section processed (R266, R267, R271, R272). -/
def MapRun.step (m : MapRun) (out : Bool) (i lane : Nat) : MapRun :=
  let st := m.st
  let d := st.mapDesc i
  let ctl := st.ctxWord d.ctx 0
  if st.nCtx ≤ d.ctx || !bitN ctl 31 || !bitN ctl 30 then { m with st := st.inc (Reg.MAP_CNT + 8 * 3) }
  else
    let sel := if out then 1 - bitsN (st.ctxWord d.ctx 60) 31 31
      else (m.rxSel.get none d.ctx).getD (bitsN ctl 29 29)
    let m := { m with used := if m.used.contains d.ctx then m.used else m.used ++ [d.ctx],
                      rxSel := if out then m.rxSel else m.rxSel.set none d.ctx (some sel) }
    let buf := st.ctxBuf d.ctx out sel
    match st.descCause d buf, buf with
    | none, some (a, _) =>
      let f := st.map.fmts.getD d.fmt 0
      let iw := fmtImgW f d.w
      let img := st.imgBank (!st.front) * bankSize
      let pay := (a + d.byte, d.bit, d.w)
      let im := (img + d.pi / 8, d.pi % 8, iw)
      let src := if out then im else pay
      let dst := if out then pay else im
      let slow := crosses (8 * pay.1 + pay.2.1) d.w || crosses (8 * im.1 + im.2.1) iw
      let r := st.readBits src.1 src.2.1 src.2.2
      let m := { m with lane0 := m.lane0 + b2n (slow && lane == 0), lane1 := m.lane1 + b2n (slow && lane == 1) }
      if r.2.1 then { m with st := r.2.2 }
      else match r.2.2.convert f d out r.1 with
        | none => { m with st := r.2.2.inc (Reg.MAP_CNT + 8 * 4) }
        | some (v, sat) =>
          let s := if sat then r.2.2.inc (Reg.MAP_CNT + 8 * 5) else r.2.2
          { m with st := s.writeBits dst.1 dst.2.1 dst.2.2 v,
                   wrote := if out && !m.wrote.contains d.ctx then m.wrote ++ [d.ctx] else m.wrote }
    | c, _ =>
      let cause := c.getD 5
      let s := ((st.inc (Reg.MAP_CNT + 8 * 2)).flag Reg.MAP_FLAGS 2).wr Reg.MAP_LAST_ERR (BitVec.ofNat 32 (cause * 2 ^ 28 + i))
      if s.map.errLogged then { m with st := s }
      else { m with st := ({ s with map := { s.map with errLogged := true } } : StrandSt).report 0x0B02 .lasting [i, cause] }

/-- TX_SEL inverted in the contexts the OUT section wrote (R266). -/
def StrandSt.flipTx (st : StrandSt) (cs : List Nat) : StrandSt :=
  cs.foldl (fun (s : StrandSt) c => s.memPut (s.ctxAddr c + 60) (putN (s.ctxWord c 60) 31 31 (1 - bitsN (s.ctxWord c 60) 31 31))) st

/-- A run processed: OUT section, TX_SEL, IN section, MAP_RUN of the contexts used; with it its T_run but for the waits (R264, R268, R269).  (DESIGN
CHOICE, unsafe: log entry 52.) -/
def StrandSt.mapProcess (st : StrandSt) (num : Nat) (inOnly : Bool) : Nat × StrandSt :=
  let nd := st.fld Reg.MAP_NDESC 18 0
  let no := if inOnly || st.env.hold then 0 else st.fld Reg.MAP_NOUT 18 0
  let skip := st.fld Reg.MAP_NOUT 18 0
  let m0 : MapRun := { st := st }
  let m1 := (List.range no).foldl (fun (m : MapRun) i => m.step true i (i % 2)) m0
  let m1 := { m1 with st := m1.st.flipTx m1.wrote }
  let m2 := (List.range (nd - skip)).foldl (fun (m : MapRun) i => m.step false (skip + i) (i % 2)) m1
  (40 + ceilDiv nd 2 + max m2.lane0 m2.lane1, m2.used.foldl (fun (s : StrandSt) c => s.memPut (s.ctxAddr c + 56) num) m2.st)

/-- MAP_RUN_DONE: T_run cycles after its start the run is complete; `waits` counts the cycles it lost to port B conflicts (R264, R269). -/
def StrandSt.mapRunDone (st : StrandSt) (waits : Nat) : StrandSt :=
  match st.map.run with
  | none => st
  | some (num, inOnly) =>
    let r := st.mapProcess num inOnly
    let t := r.1 + waits
    if st.now < st.map.runAt + t then st
    else
      let st := r.2
      let st := { st with map := { st.map with run := none } }
      let st := ((st.putBit Reg.MAP_STATUS 0 false).putBit Reg.MAP_STATUS 1 false).wr Reg.MAP_RUN_SEQ (BitVec.ofNat 32 num)
      let st := (st.wr Reg.MAP_LAST_CYCLES (BitVec.ofNat 32 t)).wr Reg.MAP_MAX_CYCLES (BitVec.ofNat 32 (max t (st.rd Reg.MAP_MAX_CYCLES).toNat))
      let st := (st.inc Reg.MAP_CNT).addCnt (Reg.MAP_CNT + 8 * 6) waits |>.addCnt (Reg.BANK_CNT + 8 * 7) waits
      if st.bit Reg.MAP_CTL 23 then st.mapRec (st.fld Reg.MAP_CTL 22 20) num else st

/-! ## Triggers and swap (R262, R263, R268) -/

/-- The owners of the image banks: FRONT by FRONT_OWNER, BACK the mapper (R262). -/
def StrandSt.imageOwners (st : StrandSt) : StrandSt :=
  let fo := if st.bit Reg.MAP_CTL 19 then 2 else 1
  let put := fun (s : StrandSt) (b o : Nat) =>
    (List.range (s.fld Reg.MAP_IMG 3 0)).foldl (fun (s : StrandSt) n => s.wr (Reg.BANK_OWNER (b + n)) (BitVec.ofNat 32 o)) s
  put (put st (st.imgBank st.front) fo) (st.imgBank (!st.front)) 5

/-- A run starts in the cycle after the trigger's (R263). -/
def StrandSt.runStart (st : StrandSt) (inOnly : Bool) : StrandSt :=
  let num := seqNext (st.rd Reg.MAP_RUN_SEQ).toNat
  let sec := inOnly || st.fld Reg.MAP_NOUT 18 0 == 0 || st.env.hold
  ({ st with map := { st.map with run := some (num, inOnly), runAt := st.now + 1, any := true } } : StrandSt).putBit Reg.MAP_STATUS 0 true
    |>.putBit Reg.MAP_STATUS 1 sec

/-- A trigger reaches the mapper: two of one cycle act as one (R263, R268). -/
def StrandSt.mapTrigger (st : StrandSt) : StrandSt :=
  if st.map.refused || !st.env.active then st else { st with map := { st.map with trig := true } }

/-- What a trigger of this cycle does as the cycle passes: dropped while a run is in progress, else swap and run, or the first run (R263). -/
def StrandSt.mapEnd (st : StrandSt) : StrandSt :=
  if !st.map.trig then st
  else
    let st := { st with map := { st.map with trig := false } }
    if st.map.run.isSome then
      ((st.flag Reg.MAP_FLAGS 1).inc (Reg.MAP_CNT + 8)).reportOnce 0x0B03 .transient 0x0B03
    else if !st.map.any then st.runStart true
    else
      let st := (st.putBit Reg.MAP_STATUS 2 (!st.front)).imageOwners
      let st := (st.put Reg.MAP_STATUS 31 16 (st.fld Reg.MAP_STATUS 31 16 + 1)).putBit Reg.MAP_STATUS 3 true
      (st.flag Reg.MAP_FLAGS 0).runStart false

/-- MAP_RUN: the RUN command (R268). -/
def StrandSt.mapRun (st : StrandSt) : StrandSt :=
  if st.fld Reg.MAP_CTL 31 30 = 0 then st.mapTrigger else st.flag Reg.MAP_FLAGS 4

/-- The base time and the period of the time trigger, in 2^-32 ns (R268). -/
def StrandSt.mapBase (st : StrandSt) : Nat :=
  ((st.fld Reg.MAP_BASE_SH 15 0 * 2 ^ 32 + (st.rd Reg.MAP_BASE_S).toNat) * 10 ^ 9 + st.fld Reg.MAP_BASE_NS 29 0) * nsUnit

/-- Whether the counter has reached a target BASE + m × PERIOD by its advance into this cycle (R268). -/
def StrandSt.mapTarget (st : StrandSt) : Bool :=
  let b := st.mapBase
  let p := st.fld Reg.MAP_PERIOD 29 0 * nsUnit
  p != 0 && decide (b ≤ st.t32) && decide (st.time.prev < b + (st.t32 - b) / p * p)

/-- MAP_TIME_TRIGGER (R268). -/
def StrandSt.mapTime (st : StrandSt) : StrandSt :=
  if st.fld Reg.MAP_CTL 31 30 = 1 && st.timeRunning && st.mapTarget then st.mapTrigger else st

/-- The Bangle IRQ action on a line, as the mapper sees it (R268). -/
def StrandSt.mapAngle (st : StrandSt) (line : Nat) : StrandSt :=
  if st.fld Reg.MAP_CTL 31 30 = 2 && st.fld Reg.MAP_CTL 29 27 = line then st.mapTrigger else st

/-- The start of a Filigree basic cycle, as the mapper sees it (R268). -/
def StrandSt.mapFiligree (st : StrandSt) : StrandSt :=
  let row := st.flgRow
  if st.fld Reg.MAP_CTL 31 30 = 3 && row % 2 ^ st.fld Reg.MAP_CTL 26 24 = 0 && 2 ≤ st.flgState && st.flgState ≤ 3 then st.mapTrigger
  else st

/-! ## The strand lock (R270, R273, R274, R348) -/

/-- The curves of a table: their headers and points, with the addresses they end at; none where a header holds a reserved value. -/
def readCurves (m : Memory) : Nat → Nat → Option (List Curve)
  | 0, _ => some []
  | k + 1, a =>
    let h := Memory.read m a 8
    let id := (byteAt h 0).toNat
    let n := (byteAt h 1).toNat
    let mode := (byteAt h 2).toNat
    if id < 1 || 63 < id || n < 2 || 64 < n || 1 < mode || leNum (h.drop 3) != 0 then none
    else
      let pts := (List.range n).map fun j =>
        (BitVec.ofNat 32 (leNum (Memory.read m (a + 8 + 8 * j) 4)), BitVec.ofNat 32 (leNum (Memory.read m (a + 12 + 8 * j) 4)))
      (readCurves m k (a + 8 + 8 * n)).map fun cs => { id := id, extend := mode == 1, pts := pts } :: cs

/-- Whether x values rise strictly and none is a NaN. -/
def rising : List Num → Bool
  | a :: b :: r => a.lt b && rising (b :: r)
  | [a] => a != .nan
  | [] => true

/-- Whether two ranges of banks are disjoint. -/
def disjoint (a n b m : Nat) : Bool := n == 0 || m == 0 || decide (a + n ≤ b) || decide (b + m ≤ a)

/-- The strand lock's work in the mapper: tables copied, checks made, image banks owned (R262, R270, R273, R274, R348). -/
def StrandSt.mapLock (st : StrandSt) : StrandSt :=
  let mem := st.banks.mem
  let fa := st.fld Reg.MAP_FMT_ADDR 22 3 * 8
  let ca := st.fld Reg.MAP_CURVE_ADDR 22 3 * 8
  let fmts := (List.range 32).map fun i => BitVec.ofNat 32 (leNum (Memory.read mem (fa + 4 * i) 4))
  let cnt := leNum (Memory.read mem ca 4)
  let curves := if 63 < cnt then none else readCurves mem cnt (ca + 4)
  let cs := curves.getD []
  let nd := st.fld Reg.MAP_NDESC 18 0
  let nt := ceilDiv (8 * nd) bankSize
  let nc := ceilDiv st.nCtx 256
  let sz := st.fld Reg.MAP_IMG 3 0
  let rs := [(st.fld Reg.MAP_TBL 5 0, nt), (st.fld Reg.MAP_CTX 5 0, nc), (st.imgBank false, sz), (st.imgBank true, sz)]
  let apart := (rs.zipIdx.all fun a => rs.zipIdx.all fun b => a.2 == b.2 || disjoint a.1.1 a.1.2 b.1.1 b.1.2) &&
    rs.all fun a => a.2 == 0 || decide (a.1 + a.2 ≤ 48)
  let ok := fmts.all (fun f => fieldOf f 31 12 == 0 && decide (fieldOf f 7 4 ≤ 5) && decide (fieldOf f 3 0 ≤ 5)) && curves.isSome &&
    cs.all (fun c => rising (c.pts.map fun p => num32 p.1.toNat)) && (cs.map (·.id)).Nodup && decide ((cs.map fun c => c.pts.length).sum ≤ 4032) &&
    decide (st.fld Reg.MAP_NOUT 18 0 ≤ nd) && decide (nd ≤ 262144) && apart &&
    (st.fld Reg.MAP_CTL 31 30 != 1 || decide (10000 ≤ st.fld Reg.MAP_PERIOD 29 0))
  let m : Mapper := { fmts := fmts, curves := cs, refused := !ok }
  let st := { st with map := m }
  let st := if st.bit Reg.MAP_CTL 23 && (st.led 32).valid then st.wr Reg.MAP_RUN_SEQ (BitVec.ofNat 32 (st.led 32).cmp) else st
  let clear := fun (s : StrandSt) (b : Nat) =>
    { s with banks := { s.banks with mem := Memory.clear s.banks.mem (b * bankSize) ((b + sz) * bankSize) } }
  if ok then (clear (clear st (st.imgBank false)) (st.imgBank true)).imageOwners else (st.flag Reg.MAP_FLAGS 3).report 0x0B01 .lasting []

/-! ## State machines (R275, R276) -/

/-- The lowest pending event of a context. -/
def lowestBit (v : Nat) : Option Nat := (List.range 32).find? (bitN v)

/-- An event that finds no valid entry (R257, R276). -/
def StrandSt.smReject (st : StrandSt) (c : Nat) : StrandSt := st.memPut (st.ctxAddr c + 28) ((st.ctxWord c 28 + 1) % 2 ^ 32)

/-- SM_EVENT: the common service takes the lowest pending event of context `c` (R276).  (DEDUCED, unsafe: log entry 53.)  (DESIGN CHOICE, safe: log entry 54.) -/
def StrandSt.smEvent (st : StrandSt) (c : Nat) : StrandSt :=
  let ctl := st.ctxWord c 0
  if st.nCtx ≤ c || !bitN ctl 31 then st
  else match lowestBit (st.ctxWord c 4), st.machines.get none (bitsN ctl 23 16) with
    | none, _ => st
    | some e, none => (st.memPut (st.ctxAddr c + 4) (putBitN (st.ctxWord c 4) e false)).smReject c
    | some e, some tbl =>
      let st := st.memPut (st.ctxAddr c + 4) (putBitN (st.ctxWord c 4) e false)
      let head := Memory.read st.banks.mem tbl 16
      let s0 := if e = 7 then (byteAt head 4).toNat else bitsN ctl 15 8
      let st := if e = 7 then st.memPut (st.ctxAddr c) (putN ctl 15 8 s0) else st
      let ent := st.memWord (tbl + 16 + 4 * (32 * s0 + e))
      if (byteAt head 3).toNat < e || !bitN ent 0 then
        st.smReject c
      else
        let act := bitsN ent 23 16
        let st := if act = 0 then st else st.emit (.action c act (bitsN ent 15 8))
        st.memPut (st.ctxAddr c) (putN (st.ctxWord c 0) 15 8 (bitsN ent 31 24))

/-- Whether a context has been silent for TIMEOUT_NS: by the nanoseconds of the present second, where those can tell (R276).  (DEDUCED, safe: log
entry 197.) -/
def StrandSt.ctxSilent (st : StrandSt) (c : Nat) : Bool :=
  let t := st.ctxWord c 44
  decide (10 ^ 9 ≤ t) || decide (t ≤ (st.tNs % 10 ^ 9 + 10 ^ 9 - st.ctxWord c 40 % 10 ^ 9) % 10 ^ 9)

/-- CTX_TIMEOUT: event 1 becomes pending (R276). -/
def StrandSt.ctxTimeout (st : StrandSt) (c : Nat) : StrandSt :=
  if st.nCtx ≤ c || !bitN (st.ctxWord c 0) 31 || st.ctxWord c 44 = 0 || !st.ctxSilent c then st
  else st.memPut (st.ctxAddr c + 4) (putBitN (st.ctxWord c 4) 1 true)

end Sys2Proof.Machine
end

