-- ==== Sys2Proof/Machine/BangleFire.lean ====
section
/-! DEFINITION. Firing of committed Bangle entries and their actions (R201, R202, R204, R211). -/

namespace Sys2Proof.Machine

/-- An action that has no effect (R201). -/
def StrandSt.actErr (st : StrandSt) : StrandSt := (st.flag Reg.BNG_FLAGS 5).inc (Reg.BNG_CNT + 8 * 26)

/-- A pin action: the pin's level, driven from the next cycle (R201, R202). -/
def StrandSt.pinAct (st : StrandSt) (p : Nat) (level : Bool) : StrandSt :=
  if 24 ≤ p || !st.bit Reg.BNG_PINMASK p then st.actErr
  else
    let st := st.putBit Reg.BNG_PINLVL p level
    { st with bng := { st.bng with pinNext := st.bng.pinNext ++ [(p, level)] } }

/-- Whether the argument of an action sets a reserved bit (R201). -/
def argReserved (act arg : Nat) : Bool :=
  decide (2 ^ (match act with
    | 0 => 0
    | 1 => 4
    | 2 => 6
    | 3 => 5
    | 4 => 5
    | 5 => 4
    | 6 => 6
    | 7 => 5
    | 8 => 3
    | _ => 0) ≤ arg)

/-- The effect of an action without reserved argument bits. -/
def StrandSt.actionOf (st : StrandSt) (act arg : Nat) : StrandSt :=
  match act with
  | 0 => st
  | 1 =>
    let r := st.bangleStart (arg % 16)
    if r.1 then r.2.bangleMissed else r.2
  | 2 => st.evtSet (arg % 16) (arg / 16 % 4)
  | 3 => st.agateBangle (arg % 4) (arg / 4 % 8) true
  | 4 => st.agateBangle (arg % 4) (arg / 4 % 8) false
  | 5 => st.dmaKick (arg % 16)
  | 6 => st.pinAct (arg % 32) (bitN arg 5)
  | 7 => st.pinAct (arg % 32) (!st.bit Reg.BNG_PINLVL (arg % 32))
  | 8 => (st.flag Reg.BNG_EIRQ (arg % 8)).mapAngle (arg % 8)
  | _ => st.actErr

/-- The effect of an action (R201). -/
def StrandSt.action (st : StrandSt) (act arg : Nat) : StrandSt := if argReserved act arg then st.actErr else st.actionOf act arg

/-- The action unit performs an action in this cycle: its count of the cycle grows (R204). -/
def StrandSt.perform (st : StrandSt) (act arg : Nat) : StrandSt :=
  let n := if st.bng.actCycle = st.now then st.bng.actCount + 1 else 1
  ({ st with bng := { st.bng with actCycle := st.now, actCount := n } } : StrandSt).action act arg

/-- Whether the action unit has one of its four actions of this cycle left. -/
def StrandSt.actFree (st : StrandSt) : Bool := st.bng.actCycle != st.now || decide (st.bng.actCount < 4)

/-- ACTION_DEFERRED: the first of the waiting actions is performed; its cycles of waiting have been counted (R204).  In HOLD no
firing's action is performed (R211).  (DEDUCED, unsafe: log entry 45.) -/
def StrandSt.actDeferred (st : StrandSt) : StrandSt :=
  match st.bng.waiting with
  | [] => st
  | (c, act, arg) :: rest =>
    if !st.actFree then st
    else
      let st := { st with bng := { st.bng with waiting := rest } }
      if st.env.hold then st.inc (Reg.BNG_CNT + 8 * 21)
      else (st.addCnt (Reg.BNG_CNT + 8 * 25) (st.now - c)).perform act arg

/-- Waiting actions of earlier cycles go first. The number bounds them. -/
def StrandSt.drainWaiting (st : StrandSt) : Nat → StrandSt
  | 0 => st
  | n + 1 =>
    match st.bng.waiting with
    | (c, _, _) :: _ => if c < st.now && st.actFree then st.actDeferred.drainWaiting n else st
    | [] => st

/-- Whether entry `k` is to fire: it is committed, and strand time has reached its fire time (R204). -/
def StrandSt.evtDue (st : StrandSt) (k : Nat) : Bool :=
  (st.ent k).state == .committed && st.timeRunning && decide ((st.ent k).tf ≤ (st.t32 : Int))

/-- Entry `k` fires where it is due (R204, R211).  (DEDUCED, unsafe: log entry 45.) -/
def StrandSt.evtFire (st : StrandSt) (k : Nat) : StrandSt :=
  let e := st.ent k
  if !st.evtDue k then st
  else
    let act := st.fld (Reg.EVT_W2 k) 31 28
    let arg := st.fld (Reg.EVT_W2 k) 27 16
    if st.env.hold then (st.inc (Reg.BNG_CNT + 8 * 21)).evtAdvance k
    else
      let st := st.drainWaiting 4
      let st := st.inc (Reg.BNG_CNT + 8 * 16)
      let st := if e.nom then st.inc (Reg.BNG_CNT + 8 * 19) else st
      let st :=
        if st.actFree then st.perform act arg
        else { st with bng := { st.bng with waiting := st.bng.waiting ++ [(st.now, act, arg)] } }
      st.evtAdvance k

/-- The entries below `k` that are to fire too. -/
def StrandSt.evtLower (st : StrandSt) (k : Nat) : List Nat := (st.bng.ent.cells.map (·.1)).filter fun l => decide (l < k) && st.evtDue l

/-- EVT_FIRE of entry `k`: where it is due, the entries of lower index that are due fire before it (R204). -/
def StrandSt.evtFires (st : StrandSt) (k : Nat) : StrandSt :=
  if !st.evtDue k then st else ((st.evtLower k).foldl (fun s l => s.evtFire l) st).evtFire k

end Sys2Proof.Machine
end

