-- ==== Sys2Proof/Machine/BeadInstr.lean ====
section
/-! DEFINITION. The effect of each Bead instruction at an engine clock (R89 to R106): what it does when it completes, and
when it blocks. -/

namespace Sys2Proof.Machine

/-- A reserved field value makes the instruction a NOP (R89). -/
def beadNop (st : StrandSt) : BeadRes := .done st none

/-- The N-bit value V that SHOUT forms from OSR (R92). -/
def shoutValue (dir : Bool) (osr : Word) (n : Nat) : Nat :=
  if dir then revBits n (bitsN osr.toNat 31 (32 - n)) else osr.toNat % 2 ^ n

/-- SHOUT N (R92). -/
def beadShout (eng n : Nat) (st : StrandSt) : BeadRes :=
  if n = 0 || 32 < n then beadNop st
  else
    let e := st.eng eng
    let dir := st.osrDir eng
    let v := shoutValue dir e.osr n
    let osr := if dir then e.osr <<< n else e.osr >>> n
    let st := st.updEng eng fun e => { e with osr := osr, osrCnt := min 32 (e.osrCnt + n), outV := (v, n) }
    .done (st.driveGroup eng n v) none

/-- SHIN N (R93): a virtual group gives up the held lane word. -/
def beadShin (eng n : Nat) (st : StrandSt) : BeadRes :=
  if n = 0 || 32 < n then beadNop st
  else
    let v := st.inWord eng n
    let w : Word := BitVec.ofNat 32 v
    let isr := fun (i : Word) => if st.isrDir eng then (i <<< n) ||| w else (i >>> n) ||| (w <<< (32 - n))
    .done (st.updEng eng fun e =>
      { e with isr := isr e.isr, isrCnt := min 32 (e.isrCnt + n), inV := (v, n),
               lane := if st.inKind eng then { e.lane with valid := false } else e.lane }) none

/-- OSR and OSR_CNT that a PULL of a queue entry loads in each form (R50). -/
def pullLoad (dir : Bool) (form : Nat) (w : Word) : Word × Nat :=
  match form with
  | 0 => (w, 0)
  | 1 => (if dir then BitVec.ofNat 32 (w.toNat % 2 ^ 8 * 2 ^ 24) else BitVec.ofNat 32 (w.toNat % 2 ^ 8), 24)
  | _ => (if dir then BitVec.ofNat 32 (w.toNat % 2 ^ 16 * 2 ^ 16) else BitVec.ofNat 32 (w.toNat % 2 ^ 16), 16)

/-- PULL (R50, R64, R67). -/
def beadPull (eng form : Nat) (st : StrandSt) : BeadRes :=
  if form = 3 then beadNop st
  else if st.txDepth eng = 0 then .noQueue st
  else match (st.eng eng).txq with
    | [] => .stall st 1
    | q :: _ =>
      if st.now < q.ready then .stall st 1
      else
        let l := pullLoad (st.osrDir eng) form q.word
        .done ((st.txTake eng).updEng eng fun e => { e with osr := l.1, osrCnt := l.2 }) none

/-- The word that a PUSH of ISR appends in each form (R50). -/
def pushWord (dir : Bool) (form : Nat) (isr : Word) (cnt : Nat) : Word :=
  let just := if cnt = 0 then 0 else if dir then isr.toNat % 2 ^ cnt else isr.toNat >>> (32 - cnt)
  match form with
  | 0 => isr
  | 1 => BitVec.ofNat 32 just
  | _ => if cnt = 0 then 0 else BitVec.ofNat 32 (wrapN 32 (signedN cnt just))

/-- PUSH (R50, R64, R67). -/
def beadPush (eng form : Nat) (st : StrandSt) : BeadRes :=
  if form = 3 then beadNop st
  else if st.rxDepth eng = 0 then .noQueue st
  else if st.rxDepth eng ≤ (st.eng eng).rxq.length then .stall st 2
  else
    let e := st.eng eng
    .done ((st.rxAppend eng [pushWord (st.isrDir eng) form e.isr e.isrCnt]).updEng eng
      fun e => { e with isr := 0, isrCnt := 0 }) none

/-- SET (R94). -/
def beadSet (eng dest imm : Nat) (st : StrandSt) : BeadRes :=
  match dest with
  | 0 => .done (st.driveGroup eng 10 imm) none
  | 1 => .done (st.updEng eng fun e => { e with x := BitVec.ofNat 16 imm }) none
  | 2 => .done (st.updEng eng fun e => { e with y := BitVec.ofNat 16 imm }) none
  | 3 => .done (st.updEng eng fun e => { e with x := BitVec.ofNat 16 (imm % 64 * 1024 + e.x.toNat % 1024) }) none
  | 4 => .done (st.updEng eng fun e => { e with y := BitVec.ofNat 16 (imm % 64 * 1024 + e.y.toNat % 1024) }) none
  | 5 => if imm ≤ 32 then .done (st.updEng eng fun e => { e with osrCnt := imm }) none else beadNop st
  | 6 => if imm ≤ 32 then .done (st.updEng eng fun e => { e with isrCnt := imm }) none else beadNop st
  | _ => beadNop st

/-- Value and width of a MOV source (R95). -/
def movSource (eng src : Nat) (st : StrandSt) : Nat × Nat :=
  let e := st.eng eng
  match src with
  | 0 => (e.osr.toNat, 32)
  | 1 => (e.isr.toNat, 32)
  | 2 => (e.x.toNat, 16)
  | 3 => (e.y.toNat, 16)
  | 4 => ((st.cmpUnit eng).cmp.toNat, 32)
  | 5 => let w := if st.inKind eng then st.laneWidth (st.inLane eng) else st.inCnt eng
         (st.inWord eng w, w)
  | 6 => (st.crcFinal eng, (st.crcEntry eng).width)
  | _ => (st.ns, 32)

/-- OPN of MOV over the source's width (R95). -/
def movOp (opn w v : Nat) : Nat :=
  match opn with
  | 0 => v
  | 1 => 2 ^ w - 1 - v % 2 ^ w
  | 2 => revBits w v
  | _ => if w = 32 then beNum (leBytes 4 v) else v

/-- An engine write of CMP; with a master's write in the same cycle the engine's value is kept and CMP_LOST is set (R61). -/
def StrandSt.engineCmp (st : StrandSt) (eng v : Nat) (lost : Bool) : StrandSt :=
  let meet := lost || st.thisCyc.cmpM.contains eng
  let st := (st.updEng eng fun e => { e with cmp := BitVec.ofNat 32 v }).inCyc fun y => { y with cmpE := eng :: y.cmpE }
  if meet then st.flag (Reg.BEAD_FLAGS eng) 11 else st

/-- MOV (R95). -/
def beadMov (eng dst src opn : Nat) (lost : Bool) (st : StrandSt) : BeadRes :=
  if 7 < src || 6 < dst then beadNop st
  else
    let s := movSource eng src st
    let v := movOp opn s.2 s.1
    match dst with
    | 0 => .done (st.updEng eng fun e => { e with osr := BitVec.ofNat 32 v, osrCnt := 0 }) none
    | 1 => .done (st.updEng eng fun e => { e with isr := BitVec.ofNat 32 v, isrCnt := 0 }) none
    | 2 => .done (st.updEng eng fun e => { e with x := BitVec.ofNat 16 v }) none
    | 3 => .done (st.updEng eng fun e => { e with y := BitVec.ofNat 16 v }) none
    | 4 => .done (st.engineCmp eng v lost) none
    | 5 => .done (st.driveGroup eng 32 v) none
    | _ => .done (st.updEng eng fun e => { e with crc := BitVec.ofNat 32 (v % 2 ^ (st.crcEntry eng).width) }) none

/-- Whether a JMP condition holds; reserved conditions are handled by the caller (R96). -/
def jmpHolds (eng cond : Nat) (st : StrandSt) : Bool :=
  let e := st.eng eng
  match cond with
  | 0 => true
  | 1 => e.x == 0
  | 2 => e.x != 0
  | 3 => e.y == 0
  | 4 => e.y != 0
  | 5 => e.x != e.y
  | 6 => st.cmpEq eng
  | 7 => !st.cmpEq eng
  | 8 => st.cmpReached eng
  | 9 => !st.cmpReached eng
  | 10 => e.osrCnt == 32
  | 11 => decide (e.osrCnt < 32)
  | 12 => e.isrCnt == 32
  | 13 => st.txDepth eng == 0 || e.txq.isEmpty
  | 14 => st.rxDepth eng == 0 || decide (st.rxDepth eng ≤ e.rxq.length)
  | 16 => st.evt eng 0
  | 17 => st.evt eng 1
  | 18 => st.evt eng 2
  | 19 => st.evt eng 3
  | 20 => st.inBit eng 0
  | 21 => !st.inBit eng 0
  | 22 => st.inBit eng 1
  | _ => !st.inBit eng 1

/-- JMP (R96); conditions 15 and 24 to 31 are reserved. -/
def beadJmp (eng cond addr : Nat) (st : StrandSt) : BeadRes :=
  if cond = 15 || 23 < cond then beadNop st
  else .done st (if jmpHolds eng cond st then some addr else none)

/-- Bit INDEX that WAIT PIN tests: an input-group bit, or a lane status bit (R98, R105). -/
def waitPin (eng index : Nat) (st : StrandSt) : Bool :=
  if st.inKind eng && 16 ≤ index then
    let l := (st.eng eng).lane
    match index with
    | 16 => l.valid
    | 17 => l.sof
    | 18 => l.eof
    | 19 => l.err
    | _ => false
  else st.inBit eng index

/-- WAIT (R98, R76). -/
def beadWait (eng : Nat) (pol : Bool) (src index : Nat) (st : StrandSt) : BeadRes :=
  let test := fun (c : Bool) => if c == pol then BeadRes.done st none else .wait st
  match src with
  | 0 => test (waitPin eng index st)
  | 1 => test (st.cmpEq eng)
  | 2 => test (st.cmpReached eng)
  | 3 =>
    if !pol then beadNop st
    else if st.evt eng (index % 4) then .done (st.evtTake eng (index % 4)) none
    else .wait st
  | 4 =>
    (match index with
     | 0 => test (st.txThr eng)
     | 1 => test (st.rxThr eng)
     | _ => beadNop st)
  | 5 => test (st.bit (Reg.BEAD_FLAGS eng) 10)
  | _ => beadNop st

/-- A sum formed by CMP: modulo 10^9 for the nanoseconds where the old value is below 10^9, else modulo 2^32 (R99). -/
def cmpSum (src old add : Nat) : Nat := if src = 2 && old < 10 ^ 9 then (old + add) % 10 ^ 9 else (old + add) % 2 ^ 32

/-- CMP (R99): MODE 3 with a master's write of CMP_SRC in the same cycle keeps the engine's value and sets CMP_LOST. -/
def beadCmp (eng mode imm : Nat) (lost : Bool) (st : StrandSt) : BeadRes :=
  let e := st.eng eng
  let src := st.cmpSrc eng
  let old := (st.cmpUnit eng).cmp.toNat
  match mode with
  | 0 => .done (st.engineCmp eng (cmpSum src old imm) lost) none
  | 1 => .done (st.engineCmp eng (cmpSum src old e.x.toNat) lost) none
  | 2 => .done (st.engineCmp eng (cmpSum src (st.cmpValue eng) imm) lost) none
  | _ =>
    if imm % 8 = 7 then beadNop st
    else
      let meet := lost || st.thisCyc.srcM.contains eng
      let st := (st.put (Reg.BEAD_CMPCFG eng) 2 0 (imm % 8)).inCyc fun y => { y with srcE := eng :: y.srcE }
      .done (if meet then st.flag (Reg.BEAD_FLAGS eng) 11 else st) none

/-- CRC (R100). -/
def beadCrc (eng : Nat) (init : Bool) (src oct : Nat) (st : StrandSt) : BeadRes :=
  let c := st.crcEntry eng
  let sum := st.fld (Reg.BEAD_CRCCFG eng) 2 0 == 4
  let e := st.eng eng
  let a0 := if init then c.init else e.crc.toNat % 2 ^ c.width
  let serial := fun (vn : Nat × Nat) =>
    if sum then a0 else ((List.range vn.2).map (bitN vn.1)).foldl c.feedBit a0
  let octets := fun (dir : Bool) (w : Word) =>
    ((List.range (oct + 1)).map (regOctet dir w)).foldl (c.feedOctet sum) a0
  let a := match src with
    | 0 => serial e.outV
    | 1 => serial e.inV
    | 2 => octets (st.osrDir eng) e.osr
    | _ => octets (st.isrDir eng) e.isr
  .done (st.updEng eng fun e => { e with crc := BitVec.ofNat 32 a }) none

/-- The words a STAMP captures at its first engine clock (R101).  (DEDUCED, unsafe: log entry 28.) -/
def stampWords (eng adj : Nat) (nosec ang : Bool) (trk : Nat) (st : StrandSt) : List Word :=
  let back : Int :=
    if st.inKind eng then 4 else if st.bit (Reg.BP_PAD (st.inBase eng)) 7 then 0 else 2
  let shift : Int := match adj with
    | 1 => - back
    | 2 => 1
    | _ => 0
  let t : Int := max 0 ((st.t32 : Int) + shift * st.cycle32)
  let ns := (t.toNat / nsUnit) % 10 ^ 9
  let sec := t.toNat / secUnit
  let tr := st.trk trk
  let w0 := b2n st.tsUncertain * 2 ^ 31 + b2n (ang && tr.state != .valid) * 2 ^ 30 + ns
  [BitVec.ofNat 32 w0] ++ (if nosec then [] else [BitVec.ofNat 32 sec]) ++
    (if ang then [BitVec.ofNat 32 (tr.angle t)] else [])

/-- STAMP (R101): a full RX queue stalls it with the captured words kept. -/
def beadStamp (eng adj : Nat) (nosec ang : Bool) (trk : Nat) (st : StrandSt) : BeadRes :=
  if adj = 3 then beadNop st
  else if st.rxDepth eng = 0 then .noQueue st
  else
    let ws := ((st.eng eng).stamp).getD (stampWords eng adj nosec ang trk st)
    if st.rxDepth eng < (st.eng eng).rxq.length + ws.length then
      .stall (st.updEng eng fun e => { e with stamp := some ws }) 2
    else .done (st.rxAppend eng ws) none

/-- The bytes an EDIT takes from OSR, and OSR after it: octets past its end are 0 (R100, R102). -/
def editBytes (dir : Bool) (osr : Word) (cnt n : Nat) : List Byte × Word :=
  ((List.range n).map fun i => if cnt + 8 * i < 32 then BitVec.ofNat 8 (regOctet dir osr i) else 0,
   if dir then osr <<< (8 * n) else osr >>> (8 * n))

/-- EDIT (R102, R103, R141): with TC_ACT = 1 bit 15 of an X offset makes it a correction, which takes nothing from OSR.  (DEDUCED, unsafe:
log entry 27.) -/
def beadEdit (eng : Nat) (offx : Bool) (len offset : Nat) (st : StrandSt) : BeadRes :=
  if !st.outKind eng then beadNop st
  else
    let p : Fin 4 := Fin.ofNat 4 (st.outLane eng)
    let e := st.eng eng
    let x := e.x.toNat
    if offx && bitN x 15 && st.bit (Reg.PT_STATUS p) 4 then .done (st.armEdit p (.correct (x % 2 ^ 14))) none
    else
      let n := len + 1
      let b := editBytes (st.osrDir eng) e.osr e.osrCnt n
      let st := st.updEng eng fun e => { e with osr := b.2, osrCnt := min 32 (e.osrCnt + 8 * n) }
      .done (st.armEdit p (.replace (if offx then x else offset) b.1)) none

/-- IRQ (R77, R91). -/
def beadIrq (eng : Nat) (st : StrandSt) : BeadRes := .done (st.flag (Reg.BEAD_FLAGS eng) 10) none

/-- CNT (R97). -/
def beadCnt (eng : Nat) (reg : Bool) (addr : Nat) (st : StrandSt) : BeadRes :=
  let e := st.eng eng
  let v := (if reg then e.y else e.x) - 1
  let st := st.updEng eng fun e => if reg then { e with y := v } else { e with x := v }
  .done st (if v = 0 then none else some addr)

/-- SYNC (R104): watches EVT[K], consumes it in the first cycle it is 1 and restarts the divider, and completes at the
engine clock 2 cycles later; a bit set in this cycle is that event itself (R76). -/
def beadSync (eng k : Nat) (st : StrandSt) : BeadRes :=
  let hit := fun (s : StrandSt) => BeadRes.wait ((s.updEng eng fun e => { e with sync := .hit }).divRestart eng)
  match (st.eng eng).sync with
  | .hit => .done st none
  | _ =>
    if st.evt eng k then hit (st.evtTake eng k)
    else if st.bit (Reg.BEAD_EVT eng) k then hit (st.putBit (Reg.BEAD_EVT eng) k false)
    else .wait (st.updEng eng fun e => { e with sync := .watching k })

end Sys2Proof.Machine
end

