-- ==== Sys2Proof/Machine/DevUnits.lean ====
section
/-! DEFINITION. The state of the device beside its strands: supervisors, Clasp, Lockets, Loupe, flashes, boot and update. -/

namespace Sys2Proof.Machine

/-! ## Strand supervisors (chapter Strands, Clasp and Loupe) -/

/-- The strand states (R41), coded as SUP_STATUS.STATE. -/
inductive Phase where
  | off | loading | run | hold | fenced
deriving DecidableEq, Repr

/-- The code of a strand state. -/
def Phase.code : Phase → Nat
  | .off => 0
  | .loading => 1
  | .run => 2
  | .hold => 3
  | .fenced => 4

/-- One strand's supervisor, in its always-on island (R24, R47). -/
structure SupSt where
  phase : Phase := .off
  lock : Bool := false
  fenceIn : Bool := false
  fenceOut : Bool := false
  pllLock : Bool := false
  clkOk : Bool := false
  lastReset : Nat := 0
  retValid : Bool := false
  /-- A REJOIN is in progress (R36, R355). -/
  rejoin : Bool := false
  /-- SUP_CTL's RWL fields and SUP_CAUSE. -/
  ctl : Word := 0
  cause : Word := 0
  /-- Device time in ns of the last warm reset by a first watchdog expiry (R30). -/
  wdogAt : Option Nat := none
  /-- Device time in ns of the last Loupe heartbeat, or of the POR before one (R31).  (DESIGN CHOICE, unsafe: log entry 171.) -/
  hbAt : Nat := 0
  /-- Device time in ns of the entry to LOADING (R42). -/
  loadAt : Nat := 0
  /-- The engines have been tested in this LOADING (R81). -/
  tested : Bool := false
deriving DecidableEq, Repr

/-! ## Clasp (chapter Clasp Host Port and Address Map) -/

/-- One PCIe link and its per-link registers (R312, R319 to R321, R335, R450).  (DEDUCED, safe: log entry 72.) -/
structure Link where
  up : Bool := false
  /-- The function is in D3hot (R313). -/
  d3 : Bool := false
  /-- Posted-write credits the host has granted (R319). -/
  credits : Nat := 0
  /-- The address of the last posted write issued (R296). -/
  lastW : Nat := 0
  /-- ARMED bits (R321). -/
  arm : Nat := 2 ^ 64 - 1
  /-- MSI-X table by word (R320). -/
  msix : Tab Word := {}
  /-- CLASP_SWIN.PAGE (R316). -/
  swin : Nat := 0
  /-- Request buffer, REQ_STATUS and the length submitted (R450). -/
  reqBuf : Memory := []
  busy : Bool := false
  done : Bool := false
  reject : Bool := false
  reqLen : Nat := 0
deriving DecidableEq, Repr

/-- A write-back the merge holds (R324): QSEQ, address and bytes. -/
structure HeldWb where
  qseq : Nat
  addr : Nat
  bytes : List Byte
deriving DecidableEq, Repr

/-- A merged record on its way to the PCQ (R324, R325): its words; the write-backs of its item that are still to be written; the number of the
read-back that covers it, 0 before one is issued; and whether that has returned. -/
structure PcqRec where
  words : List Word
  pre : List HeldWb := []
  /-- Of an RX record: the strand, and its ledger entry (R340). -/
  source : Option (StrandId × Nat) := none
  back : Nat := 0
  ready : Bool
  waited : Bool := false
deriving DecidableEq, Repr

/-- A strand's record that has reached a TX group's merge: the strand's parity, the device time in ns, and its words. -/
structure MergeRec where
  odd : Bool
  at_ : Nat
  words : List Word
deriving DecidableEq, Repr

/-- One merge group beside its registers. -/
structure MGroup where
  /-- 0 STOPPED, 1 RUNNING, 2 LINK_LOST. -/
  state : Nat := 0
  primary : Bool := false
  mark : Nat := 0
  gseq : Nat := 0
  /-- Held write-backs of the even and odd strand. -/
  held0 : List HeldWb := []
  held1 : List HeldWb := []
  /-- The last QSEQ recorded by each strand since enable (R330). -/
  prev0 : Option Nat := none
  prev1 : Option Nat := none
  /-- Delivered records by QSEQ: STATUS, NDESC, INDEX (R324), newest first. -/
  past : List (Nat × Nat × Nat × Nat) := []
  /-- Records waiting for the PCQ, and the number of read-backs issued. -/
  out : List PcqRec := []
  backs : Nat := 0
  /-- Records that the merge has still to decide: of the present cycle (R324), or held for the other strand's (R327). -/
  first : List MergeRec := []
  /-- QSEQ of the items an abort concerns, and the strands, by parity, that an undecided MG_ABORT has asked (R327). -/
  split : List Nat := []
  abort : Option (List Bool) := none
  /-- The duplicate table (R326): key and device time of entry, oldest first. -/
  dup : List (Nat × Nat) := []
  /-- RX: the source address of each strand's frame in writing, and of the items whose records have not arrived the strand by parity, QSEQ,
  RED_VALID with RED_HSR, RED_SEQ and source address (R326). -/
  sa : Tab Nat := {}
  red : List (Bool × Nat × Nat × Nat × Nat) := []
  /-- The last ACCEPTED value written since enable (R322). -/
  acc : Option Nat := none
  accShown : Nat := 0
  /-- A write-back buffer was full and has been counted for its head (R324). -/
  fullCounted : Tab Bool := {}
deriving DecidableEq, Repr

/-- The recovery download window (R333, R338). -/
structure Recovery where
  isOpen : Bool := false
  owner : Bool := false
  code : Nat := 0
  next : Nat := 0
  total : Nat := 0
  buf : Memory := []
  offset : Word := 0
  len : Nat := 0
  /-- KIND of the image by its header: 1 firmware, 2 configuration. -/
  kind : Nat := 0
  /-- The blocks stored since offset 0, in order. -/
  image : List (List Byte) := []
deriving DecidableEq, Repr

/-- The Clasp.  (DEDUCED, unsafe: log entry 146.) -/
structure Clasp where
  links : Duo Link := ⟨{}, {}⟩
  /-- Shared registers by device offset. -/
  regs : Tab Word := {}
  cnt : Tab Nat := {}
  snap : Tab Nat := {}
  /-- Requests of each strand that wait (R319), and the strand whose turn is next. -/
  q : Quad (List HostReq) := Quad.all []
  turn : Nat := 0
  groups : Tab MGroup := {}
  /-- ACCEPTED values written by 20·strand + ring since the table was enabled (R322). -/
  accs : Tab (Option Nat) := {}
  rec_ : Recovery := {}
  /-- The internal reset's self-check is running (R332). -/
  checking : Bool := false
  /-- The host port is fenced (R332). -/
  fenced : Bool := false
  /-- Device time in ns of the last mismatch. -/
  mismatchAt : Option Nat := none
deriving DecidableEq, Repr

/-! ## Lockets -/

/-- One notice (R413, R415, R421). -/
structure Notice where
  ptr : Nat
  tag : Nat
  epoch : Nat
  read : Bool := false
  pendReset : Bool := false
  /-- The waited notice of its sender. -/
  waited : Bool := false
deriving DecidableEq, Repr

/-- One side of a channel (R412, R417). -/
structure LktSide where
  txLo : Word := 0
  timeout : Nat := 0
  ctl : Word := 0
  flags : Word := 0
  /-- WAIT_STATE. -/
  wait : Nat := 0
  /-- Device time in ns of the waited post, its TX_TIMEOUT, and the time at which its timeout has come (R417). -/
  waitAt : Nat := 0
  waitUs : Nat := 0
  due : Option Nat := none
  /-- The wait is on the Loupe's second post of a notice (R437). -/
  again : Bool := false
  /-- Notices queued to this side. -/
  rx : List Notice := []
  /-- Device time in ns of a reset of the sender that purges them (R422). -/
  purgeAt : Option Nat := none
deriving DecidableEq, Repr

/-- One channel (R409): its binding word, its sides and its counters. -/
structure Chan where
  bind : Word := 0
  senior : LktSide := {}
  junior : LktSide := {}
  cnt : Tab Nat := {}
  snap : Tab Nat := {}
  /-- The present cycle of the page while one command is carried out, empty between commands. -/
  cyc : Cycle := {}
deriving DecidableEq, Repr

/-! ## Loupe -/

/-- One log record (R438). -/
structure LogRec where
  num : Nat
  time : Nat
  source : Nat
  cls : Nat
  timeUnc : Bool
  supp : Bool
  code : Nat
  args : List Nat
deriving DecidableEq, Repr

/-- A kept response (R447): path, TXN, device time in ns, OP, STATUS and body. -/
structure KeptResp where
  path : Nat
  txn : Nat
  at_ : Nat
  op : Nat
  status : Nat
  body : List Byte
deriving DecidableEq, Repr

/-- The wear of one strand (R433 to R435): EQH in 2^-32 h, drift in ppm, monitor failed. -/
structure Wear where
  eqh : Nat := 0
  drift : Nat := 0
  monFail : Bool := false
  /-- LIFE_WARN and WEAR_OUT have been logged. -/
  warned : Bool := false
  out : Bool := false
deriving DecidableEq, Repr

/-- The bank remaps, retirements and pending marks the wear record keeps of a strand (R399, R433). -/
structure WearBanks where
  remap : Word := 0
  retired : List Nat := []
  marks : List Nat := []
deriving DecidableEq, Repr

/-- The wear record in a flash (R433). -/
structure WearRec where
  gen : Nat := 0
  hopNs : Nat := 0
  pcyc : Nat := 0
  wear : Quad Wear := Quad.all {}
  banks : Quad WearBanks := Quad.all {}
  logNum : Nat := 0
deriving DecidableEq, Repr

/-- A strand's load record (R256): what each package holds, the sums of R247 and, after a refused load, its code, PKG_ID and
resource.  (DEDUCED, safe: log entry 164.) -/
structure LoadRecord where
  pkgs : List Pkg := []
  sums : List Nat := []
  refusal : Option (Nat × Nat × Nat) := none
deriving DecidableEq, Repr

/-- The Loupe pair as it leaves a reset: it executes from the base of its ROM (DESIGN CHOICE: R428 and R430 name no start
address).  (DESIGN CHOICE, unsafe: log entry 90.) -/
def DCore.loupeStart : DCore := { state := .running }

/-- The Loupe.  (DEDUCED, safe: log entry 107.) -/
structure Loupe where
  regs : Tab Word := {}
  cnt : Tab Nat := {}
  snap : Tab Nat := {}
  sram : Memory := []
  core : DCore := DCore.loupeStart
  /-- The Loupe pair runs its firmware (R463 step 4), or the ROM only. -/
  firmware : Bool := false
  safe : Bool := false
  /-- Device times in ns of the LOUPE_RESETs counted (R429). -/
  resets : List Nat := []
  lastReset : Nat := 0
  /-- Loupe time in ns minus device time, and TIME_UNC (R440); device time of the last copy or SET_TIME. -/
  timeOfs : Int := 0
  timeUnc : Bool := true
  timeAt : Nat := 0
  latch : Nat × Nat := (0, 0)
  svcLink : Bool := false
  /-- The log ring, oldest first, the number of its records not yet flushed, and the next number (R439). -/
  log : List LogRec := []
  unflushed : Nat := 0
  nextNum : Nat := 0
  lostPend : Bool := false
  /-- Watchdog expiries not yet logged, since the Loupe firmware did not run (R30): code, class, strand. -/
  late : List (Nat × FClass × StrandId) := []
  /-- Device time in ns of the last record of a code limited to once per second, and the codes with suppressed records, by key. -/
  once : Tab Nat := {}
  supp : Tab Bool := {}
  /-- The current nonce and the device time of its issue (R445), and how many have been issued. -/
  nonce : Option Nat := none
  nonceAt : Nat := 0
  nonces : Nat := 0
  kept : List KeptResp := []
  /-- Messages served since the start of the current second (R447). -/
  msgSec : Nat := 0
  msgCount : Nat := 0
  /-- Consecutive samples above the limit by sensor, at most 2 (R432); device time since which all sensors are 5 °C below it. -/
  hot : Tab Nat := {}
  coolAt : Option Nat := none
  /-- Device times in ns of the last temperature sample, of each strand's last rail sample and wear reading, of the last EQH update and of the last
  copy of a strand's time (R431, R434, R440). -/
  tempAt : Option Nat := none
  railAt : Quad (Option Nat) := Quad.all none
  measuredAt : Quad (Option Nat) := Quad.all none
  eqhAt : Option Nat := none
  copyAt : Option Nat := none
  /-- The highest reading of each strand's sensors in the current minute (R434), in 1/16 °C. -/
  peak : Quad (Option Int) := Quad.all none
  /-- H_OP in ns, PCYC (R433). -/
  hopNs : Nat := 0
  /-- Hours in RUN are counted: there has been a POR in life-cycle FIELD (R433). -/
  counting : Bool := false
  pcyc : Nat := 0
  wear : Quad Wear := Quad.all {}
  wearBanks : Quad WearBanks := Quad.all {}
  loads : Quad LoadRecord := Quad.all {}
deriving DecidableEq, Repr

/-- The Hallmark and the life cycle (R400 to R404). -/
structure Hallmark where
  mem : Memory := []
  valid : Bool := false
  wiping : Bool := false
  /-- Life-cycle state by fuses, and the one being programmed. -/
  lc : Nat := 0
  lcNext : Option Nat := none
  /-- Device time in ns at which the wipe started, and at which it was complete (R403, R404). -/
  wipeAt : Nat := 0
  wipedAt : Nat := 0
  /-- An uncorrectable error has made the identity invalid (R401). -/
  badId : Bool := false
  /-- Key slots: whether each may sign images and commands. -/
  slots : Tab Nat := {}
  enrolGen : Nat := 0
  /-- Anti-rollback counters (OTP) and their shadow. -/
  rollback : Tab Nat := {}
  shadow : Tab Nat := {}
  /-- TAMPER_CAUSE, in the always-on tamper domain (R402). -/
  tamper : Nat := 0
  /-- Device time in ns of the last rise of PORST_N, from which VGLITCH is armed 1 ms later (R490). -/
  roseAt : Nat := 0
deriving DecidableEq, Repr

/-! ## Flashes, boot and update (chapter Start-Up, Configuration and Firmware Update) -/

/-- A boot record (R460). -/
structure BootRec where
  gen : Nat := 0
  active : Nat := 0
  trial : Bool := false
  tries : Nat := 0
  prev : Option Nat := none
  cfgCur : Nat := 0
  cfgPrev : Option Nat := none
deriving DecidableEq, Repr

/-- What the Loupe knows of a stored image by its header (R457). -/
structure ImgInfo where
  kind : Nat := 0
  keySlot : Nat := 0
  revMin : Nat := 0
  rbIdx : Nat := 0
  ver : Nat := 0
  secver : Nat := 0
  cfgFmt : Nat := 0
  length : Nat := 0
deriving DecidableEq, Repr

/-- One flash (R454, R455). Areas: 0 and 1 the slots, 2 and 3 the configuration copies.  (DEDUCED, unsafe: log entry 165.) -/
structure Flash where
  present : Bool := false
  fail : Bool := false
  octal : Bool := false
  sizeLog2 : Nat := 0
  /-- The newest boot record, the copy it is in, and the record in the other copy (R460, R461). -/
  boot : Option BootRec := none
  bootAt : Nat := 0
  bootOld : Option BootRec := none
  wear : Option WearRec := none
  /-- Stored blocks of 1,024 B: key 65,536·area + block. -/
  blocks : Tab (List Byte) := {}
  /-- The header of each area. -/
  info : Tab (Option ImgInfo) := {}
  /-- The log partition's newest number and records. -/
  log : List LogRec := []
  logStop : Bool := false
deriving DecidableEq, Repr

/-- A block queued on a relay path (R469): its session, its number, its HOP where it is forwarded, none where it answers a request,
and its data as read when it was queued. -/
structure RelayItem where
  sess : Nat
  blk : Nat
  hop : Option Nat
  data : List Byte
deriving DecidableEq, Repr

/-- One relay path (R466, R469). -/
structure RelayPath where
  queue : List RelayItem := []
  /-- Requested blocks not yet queued, rising, with the session and the flash area they are of. -/
  marks : List Nat := []
  sess : Nat := 0
  area : Nat := 0
  /-- Device time in ns from which the next block may be sent (R469). -/
  freeAt : Nat := 0
deriving DecidableEq, Repr

/-- The open or last relay session (R467). -/
structure Session where
  id : Nat := 0
  /-- 0 IDLE, 1 RECEIVING, 2 VERIFYING, 3 COMPLETE, 4 ARMED. -/
  state : Nat := 0
  header : Option ImgInfo := none
  /-- Flash area the session is stored into. -/
  area : Nat := 0
  total : Nat := 0
  /-- Blocks stored, rising. -/
  stored : List Nat := []
  /-- The ranges the outstanding request named: first block and count (R470). -/
  want : List (Nat × Nat) := []
  upNow : Bool := false
  upLost : Bool := false
  /-- A request is outstanding: it has been sent once or twice. -/
  asked : Nat := 0
  /-- Device times in ns: of the last block stored or the opening, of the last request, of the last STATE message or the opening (R469, R470). -/
  storedAt : Nat := 0
  askedAt : Nat := 0
  stateAt : Nat := 0
  /-- Blocks stored in the last 2 s with their device times in ns, and one more than the highest stored before (R470). -/
  recent : List (Nat × Nat) := []
  high : Nat := 0
  /-- AT of an ARMED session in ns of Loupe time. -/
  at_ : Nat := 0
  down0 : RelayPath := {}
  down1 : RelayPath := {}
deriving DecidableEq, Repr

/-- Boot and update state. -/
structure Update where
  boot : BootRec := {}
  bootOk : Bool := false
  session : Session := {}
  /-- The most recently activated session, whose blocks the device still serves, and its flash area (R469). -/
  lastActive : Option (Nat × Nat) := none
  /-- A trial runs; it has failed and the restart is due (R473). -/
  trial : Bool := false
  failed : Bool := false
  /-- Device time in ns of the trial's start, or of its failure (R473). -/
  trialAt : Nat := 0
  regs : Tab Word := {}
  cnt : Tab Nat := {}
  snap : Tab Nat := {}
deriving DecidableEq, Repr

end Sys2Proof.Machine
end

