-- ==== Sys2Proof/Machine/DevState.lean ====
section
/-! DEFINITION. The device: its modes, its strands and what joins them, and the plain operations every command uses. -/

namespace Sys2Proof.Machine

/-- How MD9 was entered (R45). -/
inductive HoldBy where
  | safeHold | essential | sensor | degradedStart
deriving DecidableEq, Repr

/-- The present cycle of the units beside the strands: the Clasp's and the Lockets' in ns, the Loupe's and the update unit's in Loupe cycles
(R5).  Each half counts only while its `time` is the present one.  (DESIGN CHOICE, safe: log entry 6.) -/
structure DevCyc where
  time : Nat := 0
  clasp : Cycle := {}
  lkt : Tab Cycle := {}
  /-- Identities reset in it (R421); posts refused for a full queue, by 2·channel + side: TX_HI, epoch, TX_LO, FULL before (R414); crossings by
  channel: the side whose wait has started, and the flags of both sides before (R418). -/
  idents : List Nat := []
  refused : Tab (Option (Word × Nat × Word × Bool)) := {}
  crossed : Tab (Option (Bool × Word × Word)) := {}
  /-- ARMED bits that IRQ_ARM writes of the cycle have set, and those of them that were clear before it (R12, R321). -/
  arm : Tab (Nat × Nat) := {}
  /-- SUP_CAUSE bits it has set, by strand (R12). -/
  cause : Tab Nat := {}
  /-- Strands fenced outward in it (R43). -/
  fenced : List Nat := []
  /-- Strands reset in it: supervisor, logic and epoch as they were before (R29, R43). -/
  before : Tab (Option (SupSt × StrandSt × Nat)) := {}
  loupeTime : Nat := 0
  loupe : Cycle := {}
  upd : Cycle := {}
deriving DecidableEq, Repr

/-- The device.  (DESIGN CHOICE, safe: log entry 7.)  (DESIGN CHOICE, unsafe: log entry 9.) -/
structure Dev where
  /-- Time since power-on in ns: the model's own count, advanced by a tick. -/
  ns : Nat := 0
  /-- Mode 0 to 11 and base mode, 0 before one is recorded (R38, R40). -/
  mode : Nat := 0
  base : Nat := 0
  /-- In POR, before POR_END. -/
  por : Bool := true
  devLock : Bool := false
  cfg : CfgDev := {}
  /-- How MD9 was entered, and the mode it was entered from. -/
  holdBy : Option HoldBy := none
  holdFrom : Nat := 0
  /-- Device time in ns of the entry to MD0 (R491). -/
  sleptAt : Nat := 0
  sup : Quad SupSt := Quad.all {}
  strands : Quad StrandSt := Quad.all {}
  clasp : Clasp := {}
  lkt : Tab Chan := {}
  /-- Epochs by master identity (R419). -/
  epochs : Tab Nat := {}
  loupe : Loupe := {}
  hm : Hallmark := {}
  flashes : Duo Flash := ⟨{}, {}⟩
  upd : Update := {}
  /-- The present cycle. -/
  cyc : DevCyc := {}
  /-- What the device has sent out, oldest first. -/
  out : List Out := []
deriving DecidableEq, Repr

/-- Strand numbers. -/
def allStrands : List StrandId := [0, 1, 2, 3]

def Dev.supOf (d : Dev) (i : StrandId) : SupSt := d.sup.get i
def Dev.setSup (d : Dev) (i : StrandId) (x : SupSt) : Dev := { d with sup := d.sup.set i x }
def Dev.updSup (d : Dev) (i : StrandId) (f : SupSt → SupSt) : Dev := d.setSup i (f (d.supOf i))
def Dev.strand (d : Dev) (i : StrandId) : StrandSt := d.strands.get i
def Dev.setStrand (d : Dev) (i : StrandId) (x : StrandSt) : Dev := { d with strands := d.strands.set i x }
def Dev.phase (d : Dev) (i : StrandId) : Phase := (d.supOf i).phase
/-- (DESIGN CHOICE, safe: log entry 7.) -/
def Dev.emit (d : Dev) (o : Out) : Dev := { d with out := d.out ++ [o] }

/-! ## The present cycle -/

/-- Loupe cycles since power-on (R5, R25). -/
def Dev.loupeCycles (d : Dev) : Nat := 2 * d.ns / 5

/-- The record of the present cycle. -/
def Dev.thisCyc (d : Dev) : DevCyc :=
  let x : DevCyc := if d.cyc.time = d.ns then d.cyc
    else { loupeTime := d.cyc.loupeTime, loupe := d.cyc.loupe, upd := d.cyc.upd, time := d.ns }
  if x.loupeTime = d.loupeCycles then x else { x with loupeTime := d.loupeCycles, loupe := {}, upd := {} }

/-- The device with the record of the present cycle changed. -/
def Dev.inCyc (d : Dev) (f : DevCyc → DevCyc) : Dev := { d with cyc := f d.thisCyc }

/-- Bits of a Clasp, Loupe or update register that hardware has set in this cycle (R12). -/
def Dev.keptClasp (d : Dev) (off : Nat) : Nat := d.thisCyc.clasp.set.get 0 off
def Dev.keptLoupe (d : Dev) (a : Nat) : Nat := d.thisCyc.loupe.set.get 0 a
def Dev.keptUpd (d : Dev) (a : Nat) : Nat := d.thisCyc.upd.set.get 0 a

/-! ## Clasp, Loupe and update registers -/

def Dev.drd (d : Dev) (off : Nat) : Word := d.clasp.regs.get (deviceReset off) off
def Dev.dwr (d : Dev) (off : Nat) (v : Word) : Dev :=
  { d with clasp := { d.clasp with regs := d.clasp.regs.set (deviceReset off) off v } }
def Dev.dfld (d : Dev) (off hi lo : Nat) : Nat := fieldOf (d.drd off) hi lo
def Dev.dbit (d : Dev) (off i : Nat) : Bool := bitOf (d.drd off) i
def Dev.dput (d : Dev) (off hi lo v : Nat) : Dev := d.dwr off (setField (d.drd off) hi lo v)

/-- A flag bit of the Clasp set by hardware; a write of the same cycle does not clear it (R12). -/
def Dev.dflag (d : Dev) (off i : Nat) : Dev :=
  (d.inCyc fun y => { y with clasp := y.clasp.noteSet off (2 ^ i) }).dwr off (setBit (d.drd off) i true)

/-- A Clasp counter raised, saturating (R16, R339). -/
def Dev.cinc (d : Dev) (x : Nat) : Dev :=
  let v := d.clasp.cnt.get 0 (8 * x)
  { d.inCyc fun y => { y with clasp := y.clasp.noteCnt (8 * x) v 1 } with
    clasp := { d.clasp with cnt := d.clasp.cnt.set 0 (8 * x) (min counterMax (v + 1)) } }

/-- A Clasp counter raised by a number, saturating (R16, R339). -/
def Dev.cadd (d : Dev) (x n : Nat) : Dev :=
  let v := d.clasp.cnt.get 0 (8 * x)
  { d.inCyc fun y => { y with clasp := y.clasp.noteCnt (8 * x) v n } with
    clasp := { d.clasp with cnt := d.clasp.cnt.set 0 (8 * x) (min counterMax (v + n)) } }

def Dev.lrd (d : Dev) (a : Nat) : Word := d.loupe.regs.get (loupeReset a) a
def Dev.lwr (d : Dev) (a : Nat) (v : Word) : Dev :=
  { d with loupe := { d.loupe with regs := d.loupe.regs.set (loupeReset a) a v } }
def Dev.lfld (d : Dev) (a hi lo : Nat) : Nat := fieldOf (d.lrd a) hi lo
def Dev.lbit (d : Dev) (a i : Nat) : Bool := bitOf (d.lrd a) i
def Dev.lflag (d : Dev) (a i : Nat) : Dev :=
  (d.inCyc fun y => { y with loupe := y.loupe.noteSet a (2 ^ i) }).lwr a (setBit (d.lrd a) i true)

/-- A Loupe counter raised, saturating (R453). -/
def Dev.linc (d : Dev) (x : Nat) : Dev :=
  let v := d.loupe.cnt.get 0 (8 * x)
  { d.inCyc fun y => { y with loupe := y.loupe.noteCnt (8 * x) v 1 } with
    loupe := { d.loupe with cnt := d.loupe.cnt.set 0 (8 * x) (min counterMax (v + 1)) } }

/-- An update counter raised, saturating (R482). -/
def Dev.uinc (d : Dev) (x : Nat) : Dev :=
  let v := d.upd.cnt.get 0 (8 * x)
  { d.inCyc fun y => { y with upd := y.upd.noteCnt (8 * x) v 1 } with
    upd := { d.upd with cnt := d.upd.cnt.set 0 (8 * x) (min counterMax (v + 1)) } }

/-- Flash and update unit registers, by Loupe address (R480, R481). -/
def Dev.urd (d : Dev) (a : Nat) : Word := d.upd.regs.get (loupeReset a) a
def Dev.uwr (d : Dev) (a : Nat) (v : Word) : Dev := { d with upd := { d.upd with regs := d.upd.regs.set (loupeReset a) a v } }
def Dev.uflag (d : Dev) (i : Nat) : Dev :=
  (d.inCyc fun y => { y with upd := y.upd.noteSet Reg.UPD_FLAGS (2 ^ i) }).uwr Reg.UPD_FLAGS (setBit (d.urd Reg.UPD_FLAGS) i true)

/-! ## Time and log (R438 to R440) -/

/-- Loupe time in ns (R440). -/
def Dev.loupeNs (d : Dev) : Nat := ((d.ns : Int) + d.loupe.timeOfs).toNat

/-- The code of a fault class (R436). -/
def FClass.code : FClass → Nat
  | .transient => 1
  | .lasting => 2
  | .fatal => 3

/-- The ring of at most 2,048 records with one more at its end (R439). -/
def ringPush (log : List LogRec) (r : LogRec) : List LogRec := (log ++ [r]).drop (log.length + 1 - 2048)

/-- A record enters the ring; one that pushes out an unflushed record loses it (R439). -/
def Dev.pushLog (d : Dev) (code : Nat) (cls : FClass) (source : Nat) (args : List Nat) (supp : Bool) : Dev :=
  let l := d.loupe
  let r : LogRec := { num := l.nextNum, time := d.loupeNs, source := source, cls := cls.code, timeUnc := l.timeUnc, supp := supp,
                      code := code, args := args.take 4 }
  let lost := decide (2048 ≤ l.unflushed)
  let d := { d with loupe := { l with log := ringPush l.log r, nextNum := (l.nextNum + 1) % 2 ^ 32,
                                      unflushed := min 2048 (l.unflushed + 1), lostPend := l.lostPend || lost } }
  let d := d.linc 4
  if lost then (d.linc 5).lflag Reg.LP_FLAGS 0 else d

/-- The trial fails, once: code 0x130C, and T19 is due after 1 s (R473). -/
def Dev.trialFail (d : Dev) : Dev :=
  if !d.upd.trial then d
  else ((({ d with upd := { d.upd with trial := false, failed := true, trialAt := d.ns } } : Dev).uflag 4).uinc 11).pushLog 0x130C .lasting 0 [] false

/-- A record; a FATAL one fails a trial (R473). -/
def Dev.logRec (d : Dev) (code : Nat) (cls : FClass) (source : Nat) (args : List Nat) (supp : Bool) : Dev :=
  let d := d.pushLog code cls source args supp
  if cls = .fatal then d.trialFail else d

/-- A record. -/
def Dev.log (d : Dev) (code : Nat) (cls : FClass) (source : Nat) (args : List Nat := []) : Dev := d.logRec code cls source args false

/-- A record of a code that a rule limits to once per second for each code, source and key (R439). -/
def Dev.logOnce (d : Dev) (code : Nat) (cls : FClass) (source key : Nat) (args : List Nat := []) : Dev :=
  let k := (key * 2 ^ 16 + code) * 256 + source
  let last := d.loupe.once.get 0 k
  if last != 0 && d.ns + 1 < last + 10 ^ 9 then
    (({ d with loupe := { d.loupe with supp := d.loupe.supp.set false (code * 256 + source) true } } : Dev).linc 6)
  else
    let s := d.loupe.supp.get false (code * 256 + source)
    let l := { d.loupe with once := d.loupe.once.set 0 k (d.ns + 1), supp := d.loupe.supp.set false (code * 256 + source) false }
    ({ d with loupe := l } : Dev).logRec code cls source args s

/-! ## A strand's command -/

/-- Number of the even strand of a strand's pair. -/
def pairEven (i : StrandId) : StrandId := if i.val < 2 then 0 else 2
def pairOdd (i : StrandId) : StrandId := if i.val < 2 then 1 else 3

/-- MG_CFG of a group, and whether it is a TX group that names a pair with these strands. -/
def Dev.mg (d : Dev) (g : Nat) : MGroup := d.clasp.groups.get {} g
def Dev.setMg (d : Dev) (g : Nat) (x : MGroup) : Dev := { d with clasp := { d.clasp with groups := d.clasp.groups.set {} g x } }
def mgPage (g : Nat) : Nat := 0x1001000 + 0x40 * g
def Dev.mgCfg (d : Dev) (g : Nat) : Word := d.drd (mgPage g)

/-- The standby rings of a strand in MD6: rings of enabled TX groups whose primary is the partner (R38, R329). -/
def Dev.standbyRings (d : Dev) (i : StrandId) : List Nat :=
  if d.base != 6 then []
  else (List.range 8).filterMap fun g =>
    let c := d.mgCfg g
    let pair := decide (2 ≤ i.val)
    if bitOf c 31 && !bitOf c 30 && bitOf c 29 == pair && (d.mg g).primary != decide (i.val % 2 = 1) then some (fieldOf c 11 8) else none

/-- The completion queues of strand `i` that an enabled merge group consumes (R324). -/
def Dev.mergedQueues (d : Dev) (i : StrandId) : List Nat :=
  (List.range 8).filterMap fun g =>
    let c := d.mgCfg g
    if bitOf c 31 && bitOf c 29 == decide (2 ≤ i.val) && bitOf c (27 + i.val % 2) then some (fieldOf c 18 16) else none

/-- What strand `i` sees of the device. -/
def Dev.envOf (d : Dev) (i : StrandId) : Env :=
  let p := d.phase i
  { sid := i.val, ns := d.ns, powered := p != .off, hold := p = .hold, active := p = .run || p = .hold, loading := p = .loading, locked := (d.supOf i).lock,
    fenceIn := (d.supOf i).fenceIn, standby := d.standbyRings i, merged := d.mergedQueues i, coupler := d.base = 7 }

/-- A report of strand `i` enters the log. -/
def Dev.takeReport (d : Dev) (i : StrandId) (r : Report) : Dev :=
  match r.once with
  | none => d.log r.code r.cls (0x10 + i.val) r.args
  | some k => d.logOnce r.code r.cls (0x10 + i.val) k r.args

/-- The strand after a command, its reports, outputs and requests taken out of it. -/
def Dev.absorb (d : Dev) (i : StrandId) (x : StrandSt) : Dev :=
  let reqs := if (d.supOf i).fenceOut then [] else x.dma.reqs
  let y := { x with env := {}, reports := [], outs := [], dma := { x.dma with reqs := [] } }
  let c := { d.clasp with q := d.clasp.q.set i (d.clasp.q.get i ++ reqs) }
  let d := { d with strands := d.strands.set i y, clasp := c, out := d.out ++ x.outs }
  x.reports.foldl (fun e r => e.takeReport i r) d

/-- A command carried out in strand `i`. -/
def Dev.onStrand (d : Dev) (i : StrandId) (f : StrandSt → StrandSt) : Dev :=
  d.absorb i (f { d.strand i with env := d.envOf i })

/-- The same for a unit's event, which happens only in RUN and HOLD (R41). -/
def Dev.onActive (d : Dev) (i : StrandId) (f : StrandSt → StrandSt) : Dev :=
  if d.phase i = .run || d.phase i = .hold then d.onStrand i f else d

/-- The same for what comes from a strand's links, which are there while its ports are clocked (R107). -/
def Dev.onClocked (d : Dev) (i : StrandId) (f : StrandSt → StrandSt) : Dev :=
  if d.phase i = .loading || d.phase i = .run || d.phase i = .hold then d.onStrand i f else d

/-- The same with a result beside the strand. -/
def Dev.onStrandR {α : Type} (d : Dev) (i : StrandId) (f : StrandSt → α × StrandSt) : α × Dev :=
  let r := f { d.strand i with env := d.envOf i }
  (r.1, d.absorb i r.2)

end Sys2Proof.Machine
end

