-- ==== Sys2Proof/Machine/LocketOps.lean ====
section
/-! DEFINITION. Lockets: posts, reads, acknowledgements, waits, resets and views (R409 to R427). -/

namespace Sys2Proof.Machine

/-- Channel `c`. -/
def Dev.chan (d : Dev) (c : Nat) : Chan := d.lkt.get {} c
def Dev.setChan (d : Dev) (c : Nat) (x : Chan) : Dev := { d with lkt := d.lkt.set {} c x }

/-- Binding fields. -/
def Chan.valid (x : Chan) : Bool := bitOf x.bind 31
def Chan.purge (x : Chan) : Bool := bitOf x.bind 30
def Chan.idHi (x : Chan) : Nat := fieldOf x.bind 7 4
def Chan.idLo (x : Chan) : Nat := fieldOf x.bind 3 0

/-- The side an identity has in a channel: `true` junior; none where the channel does not name it (R409, R412). -/
def Chan.sideOf (x : Chan) (id : Nat) : Option Bool :=
  if !x.valid then none else if x.idLo = id then some false else if x.idHi = id then some true else none

/-- A side, and the channel with a side replaced. -/
def Chan.side (x : Chan) (j : Bool) : LktSide := if j then x.junior else x.senior
def Chan.setSide (x : Chan) (j : Bool) (y : LktSide) : Chan := if j then { x with junior := y } else { x with senior := y }
def Chan.ident (x : Chan) (j : Bool) : Nat := if j then x.idHi else x.idLo

/-- A channel counter raised (R427). -/
def Chan.inc (x : Chan) (n k : Nat) : Chan :=
  let v := x.cnt.get 0 (8 * n)
  { x with cyc := x.cyc.noteCnt (8 * n) v k, cnt := x.cnt.set 0 (8 * n) (min counterMax (v + k)) }

/-- A channel counter as if it had not been raised in this cycle. -/
def Chan.unInc (x : Chan) (n : Nat) : Chan :=
  { x with cyc := { x.cyc with cnt := x.cyc.cnt.upd (0, 0) (8 * n) fun p => (p.1, p.2 - 1) }, cnt := x.cnt.upd 0 (8 * n) (· - 1) }

/-- A flag of a side set by hardware; a write of the same cycle does not clear it (R12). -/
def flagKey (j : Bool) : Nat := 8 + 256 * b2n j
def Chan.flag (x : Chan) (j : Bool) (i : Nat) : Chan :=
  let y := x.side j
  { x.setSide j { y with flags := setBit y.flags i true } with cyc := x.cyc.noteSet (flagKey j) (2 ^ i) }

/-- A flag of a side as it stood before this cycle. -/
def Chan.unFlag (x : Chan) (j : Bool) (i : Nat) (was : Bool) : Chan :=
  let y := x.side j
  if was then x
  else { x.setSide j { y with flags := setBit y.flags i false } with
         cyc := { x.cyc with set := x.cyc.set.upd 0 (flagKey j) fun m => putBitN m i false } }

/-- A wait of a side ends (R417). -/
def Chan.endWait (x : Chan) (j : Bool) (code : Nat) : Chan :=
  let x := x.flag j 0
  x.setSide j { x.side j with wait := code, due := none }

/-- What a command does to a channel. -/
def Dev.withChan (d : Dev) (c : Nat) (f : Chan → Chan) : Dev :=
  let y := f { d.chan c with cyc := d.thisCyc.lkt.get {} c }
  (d.inCyc fun z => { z with lkt := z.lkt.set {} c y.cyc }).setChan c { y with cyc := {} }

/-- Whether the strand of a channel with the Loupe is fenced inward (R424). -/
def Dev.lktCut (d : Dev) (x : Chan) : Bool :=
  x.idLo == 0 && match x.idHi with
    | 4 => (d.supOf 0).fenceIn
    | 5 => (d.supOf 1).fenceIn
    | 6 => (d.supOf 2).fenceIn
    | 7 => (d.supOf 3).fenceIn
    | _ => false

/-- Whether a post of side `j` finds 4 notices queued (R414). -/
def Chan.full (x : Chan) (j : Bool) : Bool := decide (4 ≤ (x.side (!j)).rx.length)

/-- A crossing: both sides wait, and the junior side's wait ends (R418). -/
def Chan.cross (x : Chan) : Chan :=
  if x.senior.wait = 1 && x.junior.wait = 1 then (((x.flag false 1).flag true 1).endWait true 4).inc 3 1 else x

/-- LOCKET_POST: a write of TX_HI by side `j` of a channel at device time `now`; `pend` says that the receiver was reset in this cycle (R413, R414, R417,
R418, R421). -/
def Chan.post (x : Chan) (j : Bool) (hi txLo : Word) (epoch now : Nat) (pend : Bool) : Chan :=
  let y := x.side j
  let z := x.side (!j)
  let wait := bitOf hi 24
  if wait && y.wait = 1 then x.flag j 3
  else if x.full j then (x.flag j 2).inc 4 1
  else
    let n : Notice := { ptr := fieldOf hi 15 0 * 2 ^ 32 + txLo.toNat, tag := fieldOf hi 23 16, epoch := epoch, waited := wait, pendReset := pend }
    let x := (x.setSide (!j) { z with rx := z.rx ++ [n] }).inc (if j then 1 else 0) 1
    if !wait then x else (x.setSide j { x.side j with wait := 1, waitAt := now, waitUs := y.timeout, due := none, again := false }).cross

/-- A post by identity `id` on channel `c` (R424); what an ACK of the same cycle may change is noted (R414, R418). -/
def Dev.lktPost (d : Dev) (c id : Nat) (hi : Word) : Dev :=
  let x := d.chan c
  match x.sideOf id with
  | none => d
  | some j =>
    if id = 0 && d.lktCut x then d.withChan c fun x => x.flag j 6
    else
      let y := x.side j
      let epoch := d.epochs.get 0 id
      let wait := bitOf hi 24
      let note := fun (z : DevCyc) =>
        if wait && y.wait = 1 then z
        else if x.full j then { z with refused := z.refused.set none (2 * c + b2n j) (some (hi, epoch, y.txLo, bitOf y.flags 2)) }
        else if wait && (x.side (!j)).wait = 1 then { z with crossed := z.crossed.set none c (some (j, x.senior.flags, x.junior.flags)) }
        else z
      (d.inCyc note).withChan c fun x => x.post j hi y.txLo epoch d.ns (d.thisCyc.idents.contains (x.ident (!j)))

/-- RX_HI_READ: the oldest notice, marked READ (R415). -/
def Dev.lktRead (d : Dev) (c id : Nat) : Word × Dev :=
  let x := d.chan c
  match x.sideOf id with
  | none => (0, d)
  | some j =>
    if id = 0 && d.lktCut x then (0, d)
    else match (x.side j).rx with
      | [] => (0, d)
      | n :: rest =>
        (BitVec.ofNat 32 (n.epoch % 256 * 2 ^ 24 + n.tag % 256 * 2 ^ 16 + n.ptr / 2 ^ 32 % 2 ^ 16),
         d.setChan c (x.setSide j { x.side j with rx := { n with read := true } :: rest }))

/-- LOCKET_ACK: the oldest notice of side `j` is released, and ends its sender's wait where it was the waited one (R415, R417). -/
def Chan.ack (x : Chan) (j : Bool) : Chan :=
  match (x.side j).rx with
  | [] => x.flag j 4
  | n :: rest =>
    let x := x.setSide j { x.side j with rx := rest }
    if n.waited && (x.side (!j)).wait = 1 then x.endWait (!j) 2 else x

/-- A crossing of this cycle taken back: an ACK of the cycle has ended the other wait first (R418). -/
def Chan.unCross (x : Chan) (senior junior : Word) : Chan :=
  let x := (((x.unFlag false 1 (bitOf senior 1)).unFlag true 1 (bitOf junior 1)).unFlag true 0 (bitOf junior 0)).unInc 3
  { x with junior := { x.junior with wait := 1 } }

/-- An ACK by identity `id`: it acts before a wait that starts in the same cycle, and a post that the same cycle has refused takes the slot it
frees (R414, R418). -/
def Dev.lktAck (d : Dev) (c id : Nat) : Dev :=
  let x := d.chan c
  match x.sideOf id with
  | none => d
  | some j =>
    if id = 0 && d.lktCut x then d.withChan c fun x => x.flag j 4
    else
      let waited := ((x.side j).rx.head?.map (·.waited)).getD false
      let d := match d.thisCyc.crossed.get none c with
        | some (k, s, t) =>
          if k == j && waited then (d.inCyc fun z => { z with crossed := z.crossed.set none c none }).withChan c fun x => x.unCross s t else d
        | none => d
      let d := d.withChan c fun x => x.ack j
      let key := 2 * c + b2n (!j)
      match d.thisCyc.refused.get none key with
      | some (hi, epoch, lo, was) =>
        if (x.side j).rx.isEmpty then d
        else (d.inCyc fun z => { z with refused := z.refused.set none key none }).withChan c fun x =>
          ((x.unFlag (!j) 2 was).unInc 4).post (!j) hi lo epoch d.ns (d.thisCyc.idents.contains id)
      | none => d

/-- LOCKET_TIMEOUT of the wait of identity `id` on channel `c`, TX_TIMEOUT µs after its post at the earliest; an ACK of the same cycle comes first
(R417). -/
def Dev.lktTimeout (d : Dev) (c id : Nat) : Dev :=
  let x := d.chan c
  match x.sideOf id with
  | none => d
  | some j =>
    let y := x.side j
    if y.wait != 1 || d.ns < y.waitAt + 1000 * y.waitUs then d else d.setChan c (x.setSide j { y with due := some d.ns })

/-- What a reset of identity `id` at device time `now` does to a channel: as receiver (R421) and as sender (R422).  (DEDUCED, unsafe: log entry 130.) -/
def Chan.resetId (x : Chan) (id now : Nat) : Chan :=
  match x.sideOf id with
  | none => x
  | some j =>
    let y := x.side j
    let z := x.side (!j)
    let purge := x.purge && !z.rx.isEmpty
    let x := x.setSide j { y with rx := y.rx.map (fun n => { n with read := false, pendReset := true }),
                                  due := none, wait := if y.wait = 1 && !purge then 0 else y.wait }
    x.setSide (!j) (if purge then { z with purgeAt := some now } else { z with rx := z.rx.map fun n => { n with waited := false } })

/-- A reset of an identity: its epoch and its channels (R419, R421, R422). -/
def Dev.resetIdent (d : Dev) (id : Nat) : Dev :=
  let d := { d.inCyc fun y => { y with idents := id :: y.idents } with epochs := d.epochs.upd 0 id fun e => (e + 1) % 256 }
  d.lkt.cells.foldl (fun (e : Dev) (c : Nat × Chan) => e.setChan c.1 ((e.chan c.1).resetId id e.ns)) d

/-- The Loupe posts the notice of a timed-out wait once more by its own means; the second failure is LASTING (R437).  (DEDUCED, unsafe: log
entry 204.) -/
def Dev.lktRetry (d : Dev) (c : Nat) (j : Bool) (before : LktSide) (n : Option Notice) : Dev :=
  let x := d.chan c
  if x.ident j != 0 then d
  else
    let fail := fun (d : Dev) => d.log 0x1206 .lasting 0 [c]
    match n with
    | none => d
    | some n =>
      if before.again || d.lktCut x || x.full j then fail (d.setChan c (x.setSide j { x.side j with again := false }))
      else
        let hi := BitVec.ofNat 32 (2 ^ 24 + n.tag % 256 * 2 ^ 16 + n.ptr / 2 ^ 32 % 2 ^ 16)
        let d := d.withChan c fun x => x.post j hi (BitVec.ofNat 32 (n.ptr % 2 ^ 32)) (d.epochs.get 0 0) d.ns false
        let x := d.chan c
        d.setChan c (x.setSide j { x.side j with again := true })

/-- The timeout that has come for side `j`'s wait: it ends TIMEOUT (R417, R437).  (DEDUCED, unsafe: log entry 202.) -/
def Dev.lktTimeEnd (d : Dev) (c : Nat) (j : Bool) : Dev :=
  let x := d.chan c
  match (x.side j).due with
  | none => d
  | some t =>
    if d.ns ≤ t then d
    else
      let d := d.withChan c fun x =>
        let z := x.side (!j)
        ((x.setSide (!j) { z with rx := z.rx.map fun n => { n with waited := false } }).endWait j 3).inc 2 1
      (d.logOnce 0x1102 .transient (if 4 ≤ x.idHi then 0x10 + (x.idHi - 4) else 0) c [c]).lktRetry c j (x.side j)
        ((x.side (!j)).rx.find? (·.waited))

/-- The purge of the notices of side `j`'s queue, as the cycle of the sender's reset passes (R417, R422). -/
def Dev.lktPurgeEnd (d : Dev) (c : Nat) (j : Bool) : Dev :=
  let x := d.chan c
  let y := x.side j
  match y.purgeAt with
  | none => d
  | some t =>
    if d.ns ≤ t then d
    else
      let n := y.rx.length
      let d := d.withChan c fun x =>
        let x := x.setSide j { y with rx := [], purgeAt := none }
        let x := if (x.side (!j)).wait = 1 then x.endWait (!j) 5 else x
        if n = 0 then x else (x.flag (!j) 5).inc 5 n
      if n = 0 then d else d.log 0x1103 .transient 0 [c, n]

/-- What earlier cycles have left for their ends on the channels: timeouts and purges. -/
def Dev.lktEnd (d : Dev) : Dev :=
  d.lkt.cells.foldl (fun (e : Dev) (c : Nat × Chan) =>
    [false, true].foldl (fun (e : Dev) j => (e.lktTimeEnd c.1 j).lktPurgeEnd c.1 j) e) d

/-- The Clasp internal reset's effect on the Clasp channels (R423). -/
def Dev.lktLost (d : Dev) : Dev :=
  let d := d.lkt.cells.foldl (fun (e : Dev) (c : Nat × Chan) =>
    let x := e.chan c.1
    if x.valid && (x.idLo == 1 || x.idLo == 2) then e.withChan c.1 fun x => (({ bind := x.bind } : Chan).flag false 7).flag true 7 else e) d
  { d with epochs := (d.epochs.upd 0 1 fun e => (e + 1) % 256).upd 0 2 fun e => (e + 1) % 256 }

/-- Whether a binding entry passes the lock's check (R410). -/
def bindOk (w : Word) : Bool :=
  let lo := fieldOf w 3 0
  let hi := fieldOf w 7 4
  (lo == 0 || lo == 1 || lo == 2) && decide (4 ≤ hi) && decide (hi ≤ 7)

/-- The lock's check of the binding table (R410). -/
def Dev.bindLock (d : Dev) : Dev :=
  d.lkt.cells.foldl (fun (e : Dev) (c : Nat × Chan) =>
    let x := e.chan c.1
    if x.valid && !bindOk x.bind then (e.setChan c.1 { x with bind := 0 }).log 0x1101 .lasting 0 [c.1] else e) d

/-- The doorbell condition of identity `id` on channel `c`; `cut` says that it sees an empty queue (R416, R424). -/
def Chan.bell (x : Chan) (id : Nat) (cut : Bool) : Bool :=
  match x.sideOf id with
  | none => false
  | some j =>
    let y := x.side j
    (!cut && y.rx.any (fun n => !n.read) && bitOf y.ctl 0) || (bitOf y.flags 0 && bitOf y.ctl 1)

def Dev.bell (d : Dev) (id : Nat) : Bool := d.lkt.cells.any fun c => c.2.bell id (id = 0 && d.lktCut c.2)

/-- A register of a channel page as identity `id` reads it (R425, R426); a read of RX_HI is `lktRead`. -/
def Dev.lktReg (d : Dev) (c id off : Nat) : Word :=
  let x := d.chan c
  match x.sideOf id with
  | none => 0
  | some j =>
    let y := x.side j
    let z := x.side (!j)
    let rx := if id = 0 && d.lktCut x then [] else y.rx
    let peer := x.ident (!j)
    match off with
    | 0x00 => BitVec.ofNat 32 (2 ^ 31 + b2n j * 2 ^ 30 + b2n x.purge * 2 ^ 29 + peer * 16 + id)
    | 0x04 => BitVec.ofNat 32 (d.epochs.get 0 id * 2 ^ 24 + d.epochs.get 0 peer * 2 ^ 16 + y.wait * 2 ^ 8 + z.rx.length * 16 + rx.length)
    | 0x08 => y.flags
    | 0x0C => y.ctl
    | 0x18 => BitVec.ofNat 32 y.timeout
    | 0x1C => BitVec.ofNat 32 ((rx.head?.map (·.ptr % 2 ^ 32)).getD 0)
    | 0x24 =>
      match rx with
      | [] => 0
      | n :: _ => BitVec.ofNat 32 (2 ^ 31 + b2n n.pendReset * 2 ^ 30 + b2n (n.epoch != d.epochs.get 0 peer) * 2 ^ 29 + b2n n.read * 2 ^ 28)
    | o =>
      if 0x40 ≤ o && o < 0x70 then
        let v := x.snap.get 0 (o / 8 * 8 - 0x40)
        BitVec.ofNat 32 (if o % 8 < 4 then v % 2 ^ 32 else v / 2 ^ 32)
      else 0

/-- A write of a register of a channel page by identity `id` (R412 to R417, R426). -/
def Dev.lktWrite (d : Dev) (c id off : Nat) (v : Word) : Dev :=
  let x := d.chan c
  match x.sideOf id with
  | none => d
  | some j =>
    let y := x.side j
    let keep := fun (y : LktSide) => d.setChan c (x.setSide j y)
    match off with
    | 0x08 => keep { y with flags := y.flags &&& ~~~(v &&& ~~~BitVec.ofNat 32 ((d.thisCyc.lkt.get {} c).set.get 0 (flagKey j))) }
    | 0x0C => keep { y with ctl := BitVec.ofNat 32 (fieldOf v 1 0) }
    | 0x10 => keep { y with txLo := v }
    | 0x14 => d.lktPost c id v
    | 0x18 => let t := fieldOf v 19 0
              if 1 ≤ t && t ≤ 1000000 then keep { y with timeout := t } else d
    | 0x28 => if bitOf v 0 then d.lktAck c id else d
    | 0x2C =>
      if bitOf v 0 then d.withChan c fun x =>
        let r := x.cyc.snap x.cnt x.snap 0 0x100
        { x with cyc := r.1, cnt := r.2.1, snap := r.2.2 }
      else d
    | _ => d

end Sys2Proof.Machine
end

