-- ==== Sys2Proof/Machine/ExchangeOps.lean ====
section
/-! DEFINITION. The exchange bank of a strand's common service: how its requests reach the Loupe and how the responses return (R442). -/

namespace Sys2Proof.Machine

/-- The request that the oldest notice of a channel between the core of strand `i` and the Loupe names: a message in one of the strand's banks
(R442).  (DESIGN CHOICE, unsafe: log entry 203.) -/
def Dev.exchangeFind (d : Dev) (i : StrandId) : Option Exchange :=
  d.lkt.cells.findSome? fun c =>
    if !c.2.valid || c.2.idLo != 0 || c.2.idHi != 4 + i.val then none
    else match c.2.senior.rx with
      | [] => none
      | n :: _ => if n.ptr < 48 * bankSize then some { chan := c.1, bank := bankNo n.ptr, addr := n.ptr } else none

/-- Strand `i` with its outstanding request. -/
def Dev.setExchange (d : Dev) (i : StrandId) (x : Option Exchange) : Dev :=
  let st := d.strand i
  { d with strands := d.strands.set i { st with banks := { st.banks with exch := x } } }

/-- A request is outstanding from its post until its notice is gone (R442). -/
def Dev.exchangeWatch (d : Dev) (i : StrandId) : Dev :=
  let now := if d.phase i = .run || d.phase i = .hold then d.exchangeFind i else none
  match (d.strand i).banks.exch, now with
  | none, none => d
  | some x, some y => if x.chan = y.chan && x.addr = y.addr then d else d.setExchange i now
  | _, _ => d.setExchange i now

/-- The Loupe acknowledges the notice of a request, which is then no longer outstanding (R442). -/
def Dev.exchangeAck (d : Dev) (i : StrandId) (x : Exchange) : Dev := (d.lktAck x.chan 0).setExchange i none

/-- A write of BANK_OWNER_k by the Loupe: RELEASE_GRANT to an owner. -/
def grantWord (to_ : Nat) : Word := BitVec.ofNat 32 (3 * 2 ^ 30 + to_ * 2 ^ 27)

/-- The Loupe's next move once a response is ready: it takes the bank, writes the response at the request's address and returns the bank, and
acknowledges the notice when the core owns the bank again (R393, R442).  (DESIGN CHOICE, unsafe: log entry 203.) -/
def Dev.exchangeMove (d : Dev) (i : StrandId) : Dev :=
  match (d.strand i).banks.exch with
  | none => d
  | some x =>
    match x.resp with
    | none => d
    | some bs =>
      let st := d.strand i
      if (d.supOf i).fenceIn || st.bankHo x.bank != 0 then d
      else
        let own := st.bankOwner x.bank
        if x.back then (if own = 1 then d.exchangeAck i x else d)
        else if own = 6 then
          (d.onStrand i fun st => (st.bankWrite reqLoupe x.addr bs).st.bankOwnerWrite 3 x.bank (grantWord 1)).setExchange i (some { x with back := true })
        else if own = 1 && !({ st with env := d.envOf i } : StrandSt).imageBank x.bank then d.onStrand i fun st => st.bankOwnerWrite 3 x.bank (grantWord 6)
        else d

/-- What follows every command and every span of time for the requests in the exchange banks. -/
def Dev.exchangeRun (d : Dev) : Dev := allStrands.foldl (fun (e : Dev) i => (e.exchangeMove i).exchangeWatch i) d

/-- Whether a request of strand `i` waits for the Loupe. -/
def Dev.exchangeWaits (d : Dev) (i : StrandId) : Bool := (d.strand i).banks.exch.any fun x => x.resp.isNone

/-- The Loupe reads the header of a request from the exchange bank (R391, R442). -/
def Dev.exchangeRead (d : Dev) (i : StrandId) : Dev :=
  match (d.strand i).banks.exch with
  | none => d
  | some x => d.onStrand i fun st => (st.bankRead reqLoupe x.addr 32).st

/-- A request of strand `i` has its response; one that is discarded is only acknowledged (R442).  (DESIGN CHOICE, unsafe: log entry 203.) -/
def Dev.exchangeReply (d : Dev) (i : StrandId) (resp : Option (List Byte)) : Dev :=
  match (d.strand i).banks.exch, resp with
  | none, _ => d
  | some x, some bs => d.setExchange i (some { x with resp := some bs })
  | some x, none => d.exchangeAck i x

/-- LOUPE_RESET loses the responses under way (R27). -/
def Dev.exchangeLost (d : Dev) : Dev :=
  allStrands.foldl (fun (e : Dev) i => match (e.strand i).banks.exch with
    | none => e
    | some x => e.setExchange i (some { x with resp := none, back := false })) d

end Sys2Proof.Machine
end

