-- ==== Sys2Proof/Machine/IntOps.lean ====
section
/-! DEFINITION. The interrupt conditions of a strand's units and the lines they drive (R77, R127, R143, R167, R188, R212, R238,
R278, R308, R320, R378, R405). -/

namespace Sys2Proof.Machine

/-- Whether any of the listed bits of a register is set. -/
def StrandSt.anyBit (st : StrandSt) (off : Nat) (bits : List Nat) : Bool := bits.any (st.bit off)

/-- The interrupt of engine `n` (R77). -/
def StrandSt.intBead (st : StrandSt) (n : Nat) : Bool :=
  let e := st.eng n
  st.bit (Reg.BEAD_FLAGS n) 10 || (st.bit (Reg.BEAD_FLAGS n) 9 && st.bit (Reg.BEAD_CTL n) 11) ||
  (st.bit (Reg.BEAD_FLAGS n) 12 && st.bit (Reg.BEAD_CTL n) 12) || (e.state == .stopped && decide (3 ≤ e.stopCause))

/-- Port, channel, switch, time, Bangle, Filigree, mapper, DMA and bank interrupts. -/
def StrandSt.intPort (st : StrandSt) (p : Nat) : Bool := st.anyBit (Reg.MAC_FLAGS p) [0, 5, 4]
def StrandSt.intPt (st : StrandSt) (p : Nat) : Bool := st.anyBit (Reg.PT_FLAGS p) [1, 2, 6]
def StrandSt.intSw (st : StrandSt) : Bool := st.anyBit Reg.SW_FLAGS [3, 2, 1]
def StrandSt.intTime (st : StrandSt) : Bool :=
  st.anyBit Reg.TIME_FLAGS [1, 3, 5] || (st.bit Reg.TIME_FLAGS 4 && st.bit Reg.TIME_CTL 2)
def StrandSt.intBangle (st : StrandSt) : Bool :=
  st.bit Reg.BNG_FLAGS 4 || (st.bit Reg.BNG_FLAGS 0 && st.bit Reg.BNG_CTL 3) || (st.bit Reg.BNG_FLAGS 1 && st.bit Reg.BNG_CTL 4) ||
  (st.fld Reg.BNG_EIRQ 7 0 &&& st.fld Reg.BNG_CTL 15 8) != 0
def StrandSt.intFlg (st : StrandSt) : Bool :=
  st.anyBit Reg.FLG_FLAGS [0, 7] || (st.bit Reg.FLG_FLAGS 3 && st.bit Reg.FLG_CTL 2) ||
  (st.bit Reg.FLG_FLAGS 4 && st.bit Reg.FLG_CTL 3) || (st.bit Reg.FLG_FLAGS 5 && st.bit Reg.FLG_CTL 4)
def StrandSt.intMap (st : StrandSt) : Bool :=
  st.anyBit Reg.MAP_FLAGS [3, 2] || (st.bit Reg.MAP_FLAGS 1 && st.bit Reg.MAP_CTL 3) || (st.bit Reg.MAP_FLAGS 0 && st.bit Reg.MAP_CTL 2)
def StrandSt.intDma (st : StrandSt) : Bool := st.anyBit Reg.DMA_FLAGS [0, 2, 5]
def StrandSt.intBank (st : StrandSt) : Bool := st.anyBit Reg.BANK_FLAGS [4, 3, 6]

/-- A completion queue holds unread records (R308). -/
def StrandSt.cqUnread (st : StrandSt) (c : Nat) : Bool := st.cqEn c && st.cqHead c != st.cqTail c

/-- CORE_IRQ_PEND, lines 0 to 30 (R378). -/
def StrandSt.coreLine (st : StrandSt) (k : Nat) : Bool :=
  if k < 16 then st.intBead k && st.bit (Reg.BEAD_CTL k) 9
  else if k < 20 then st.intPort (k - 16) && st.bit (Reg.MAC_CTL (k - 16)) 9
  else if k < 24 then st.intPt (k - 20) && st.bit (Reg.PT_CTL (k - 20)) 1
  else match k with
    | 24 => st.intSw && st.bit Reg.SW_CTL 0
    | 25 => st.intTime && st.bit Reg.TIME_CTL 0
    | 26 => st.intBangle && st.bit Reg.BNG_CTL 0
    | 27 => st.intFlg && st.bit Reg.FLG_CTL 0
    | 28 => st.intMap && st.bit Reg.MAP_CTL 0
    | 29 => (st.intDma && st.bit Reg.DMA_CTL 0) || (st.intBank && st.bit Reg.BANK_CTL 0)
    | 30 => (List.range 8).any fun c => st.cqUnread c && st.cqLoc c && st.bit (cqPage c + 8) 8
    | _ => false

/-- The host conditions of vectors 12s + 8 to 12s + 11, without the change of strand state (R320). -/
def StrandSt.hostLine (st : StrandSt) (k : Nat) : Bool :=
  match k with
  | 0 => (List.range 16).any fun n => st.intBead n && st.bit (Reg.BEAD_CTL n) 10
  | 1 => ((List.range 4).any fun p => (st.intPort p && st.bit (Reg.MAC_CTL p) 10) || (st.intPt p && st.bit (Reg.PT_CTL p) 2)) ||
      (st.intSw && st.bit Reg.SW_CTL 1)
  | 2 => (st.intTime && st.bit Reg.TIME_CTL 1) || (st.intBangle && st.bit Reg.BNG_CTL 1) || (st.intFlg && st.bit Reg.FLG_CTL 1) ||
      (st.intMap && st.bit Reg.MAP_CTL 1)
  | _ => (st.intDma && st.bit Reg.DMA_CTL 1) || (st.intBank && st.bit Reg.BANK_CTL 1)

end Sys2Proof.Machine
end

