-- ==== Sys2Proof/Machine/ClaspOps.lean ====
section
/-! DEFINITION. The Clasp: requests toward the hosts, interrupts, acceptance reports, merge groups, resets and the recovery window
(R312 to R334). -/

namespace Sys2Proof.Machine

/-! ## Links -/

def Dev.link (d : Dev) (b : Bool) : Link := d.clasp.links.get b
def Dev.setLink (d : Dev) (b : Bool) (x : Link) : Dev := { d with clasp := { d.clasp with links := d.clasp.links.set b x } }

/-- The link carries requests toward its host: trained, not in D3hot, and the host port not fenced (R313, R332).  (DEDUCED, unsafe: log entry 74.) -/
def Dev.linkOpen (d : Dev) (b : Bool) : Bool :=
  (d.link b).up && !(d.link b).d3 && !d.clasp.fenced && !d.clasp.checking && d.mode != 0

/-- A posted write of at most 512 B goes out: it takes a credit (R1, R319).  (DESIGN CHOICE, safe: log entry 61.) -/
def Dev.hostWrite (d : Dev) (b : Bool) (addr : Nat) (bytes : List Byte) : Dev :=
  let x := d.link b
  (d.setLink b { x with credits := x.credits - 1, lastW := addr }).emit (.hostWrite b addr bytes)

/-! ## Merge groups: which requests they consume (R323, R324, R326) -/

/-- The strand of a group's parity, and a strand's parity. -/
def mgStrand (c : Word) (odd : Bool) : StrandId :=
  if bitOf c 29 then (if odd then 3 else 2) else (if odd then 1 else 0)
def oddOf (i : StrandId) : Bool := i.val % 2 == 1

/-- Whether a group's configuration names a strand, and the ring of that strand. -/
def mgHas (c : Word) (i : StrandId) : Bool :=
  bitOf c 29 == decide (2 ≤ i.val) && bitOf c (if oddOf i then 28 else 27)
def mgRing (c : Word) (odd : Bool) : Nat := if odd then fieldOf c 15 12 else fieldOf c 11 8

/-- The enabled TX group that consumes the write-backs of TX ring `k` of strand `i`. -/
def Dev.txGroup (d : Dev) (i : StrandId) (k : Nat) : Option Nat :=
  (List.range 8).find? fun g =>
    let c := d.mgCfg g
    bitOf c 31 && !bitOf c 30 && mgHas c i && mgRing c (oddOf i) == k

/-- The enabled RX group of RX ring key `k` of strand `i`. -/
def Dev.rxGroup (d : Dev) (i : StrandId) (k : Nat) : Option Nat :=
  (List.range 8).find? fun g =>
    let c := d.mgCfg g
    bitOf c 31 && bitOf c 30 && mgHas c i && 16 + mgRing c (oddOf i) == k

/-- The group that consumes the records of queue `q` of strand `i`. -/
def Dev.cqGroup (d : Dev) (i : StrandId) (q : Nat) : Option Nat :=
  (List.range 8).find? fun g =>
    let c := d.mgCfg g
    bitOf c 31 && mgHas c i && fieldOf c 18 16 == q

/-- A strand of a group takes part: it is in RUN or HOLD and its gate is open. -/
def Dev.live (d : Dev) (i : StrandId) : Bool := (d.phase i = .run || d.phase i = .hold) && !(d.supOf i).fenceOut

/-! ## Requests toward the hosts (R319) -/

/-- What may be done with the request at the head of a strand's queue: 0 wait, 1 send it, 2 drop it. -/
def Dev.reqVerdict (d : Dev) (i : StrandId) (r : HostReq) : Nat :=
  let go := fun (b posted : Bool) =>
    if !(d.link b).up then 2
    else if !d.linkOpen b then 0
    else if posted && (d.link b).credits = 0 then 0 else 1
  match r with
  | .data b _ _ _ _ => go b true
  | .wb b k _ _ _ _ => if k < 16 && (d.txGroup i k).isSome then 0 else go b true
  | .record b q _ _ _ => if (d.cqGroup i q).isSome then 0 else go b true
  | .read b _ _ _ => go b false

/-- Facts of an RX frame that its group keeps: the source address of its first data write, and the RED fields of its
write-backs (R326). -/
def Dev.noteRx (d : Dev) (i : StrandId) (r : HostReq) : Dev :=
  match r with
  | .data _ k true _ bs =>
    match d.rxGroup i k with
    | some g => d.setMg g { d.mg g with sa := (d.mg g).sa.set 0 (b2n (oddOf i)) (beNum ((bs.drop 6).take 6)) }
    | none => d
  | .wb _ k _ q _ bs =>
    match d.rxGroup i k with
    | some g =>
      let w1 := leNum ((bs.drop 4).take 4)
      let odd := oddOf i
      let m := d.mg g
      if m.red.any fun r => r.1 == odd && r.2.1 == q then d
      else d.setMg g { m with red := m.red ++ [(odd, q, bitsN w1 11 10, bitsN w1 31 16, m.sa.get 0 (b2n odd))] }
    | none => d
  | _ => d

/-- Sends a request. -/
def Dev.sendReq (d : Dev) (i : StrandId) (r : HostReq) : Dev :=
  let d := d.noteRx i r
  match r with
  | .data b _ _ a bs => d.hostWrite b a bs
  | .wb b _ _ _ a bs => d.hostWrite b a bs
  | .record b _ _ a ws => d.hostWrite b a (wordBytes ws)
  | .read b _ a n => d.emit (.hostRead b a n)

/-- One turn of the round robin from strand `i` on: the first strand that can, sends or drops its head; the Boolean says one did. -/
def Dev.pumpTurn (d : Dev) : List StrandId → Bool × Dev
  | [] => (false, d)
  | i :: rest =>
    match d.clasp.q.get i with
    | [] => d.pumpTurn rest
    | r :: rs =>
      let take := { d with clasp := { d.clasp with q := d.clasp.q.set i rs, turn := (i.val + 1) % 4 } }
      match d.reqVerdict i r with
      | 0 => d.pumpTurn rest
      | 1 => (true, take.sendReq i r)
      | _ => (true, take)

/-- The strands in turn order. -/
def turnOrder (t : Nat) : List StrandId := (List.range 4).map fun n => Fin.ofNat 4 (t + n)

/-- Sends what can be sent. The number bounds the requests. -/
def Dev.pumpN (d : Dev) : Nat → Dev
  | 0 => d
  | n + 1 =>
    let r := d.pumpTurn (turnOrder d.clasp.turn)
    if r.1 then r.2.pumpN n else d

/-- Sends what can be sent of every strand's requests, in round-robin turn (R319). -/
def Dev.pump (d : Dev) : Dev := d.pumpN ((d.clasp.q.toList.map List.length).sum)

/-! ## The PCQ (R325) -/

def Dev.pcqHead (d : Dev) (g : Nat) : Nat := d.dfld (mgPage g + 0xC) 16 0
def Dev.pcqTail (d : Dev) (g : Nat) : Nat := d.dfld (mgPage g + 0x10) 16 0
def Dev.pcqSize (d : Dev) (g : Nat) : Nat := 2 ^ fieldOf (d.mgCfg g) 4 0
def Dev.pcqFull (d : Dev) (g : Nat) : Bool :=
  d.pcqHead g % 2 ^ 16 == d.pcqTail g % 2 ^ 16 && d.pcqHead g / 2 ^ 16 != d.pcqTail g / 2 ^ 16

/-- Writes held write-backs while the link has credits; those that are left. -/
def Dev.writeHeld (d : Dev) (b : Bool) : List HeldWb → List HeldWb × Dev
  | [] => ([], d)
  | w :: ws => if (d.link b).credits = 0 then (w :: ws, d) else (d.hostWrite b w.addr w.bytes).writeHeld b ws

/-- Writes the write-backs of delivered records in the records' order while the link has credits (R319, R324). -/
def Dev.writePre (d : Dev) (b : Bool) : List PcqRec → List PcqRec × Dev
  | [] => ([], d)
  | r :: rs =>
    let x := d.writeHeld b r.pre
    if x.1.isEmpty then
      let y := x.2.writePre b rs
      ({ r with pre := [] } :: y.1, y.2)
    else ({ r with pre := x.1 } :: rs, x.2)

/-- One read-back for every delivered record whose write-backs are written and that none covers yet (R296, R324). -/
def Dev.pcqBack (d : Dev) (g : Nat) : Dev :=
  let m := d.mg g
  let b := bitOf (d.mgCfg g) 24
  let need := fun (r : PcqRec) => r.pre.isEmpty && !r.ready && r.back == 0
  if !m.out.any need then d
  else
    (d.setMg g { m with backs := m.backs + 1, out := m.out.map fun r => if need r then { r with back := m.backs + 1 } else r }).emit
      (.hostRead b (d.link b).lastW 4)

/-- Writes the oldest waiting merged records while their read-backs have returned, the PCQ has room and the link carries them; each record that
finds it full is counted once (R325). The number bounds them. -/
def Dev.pcqWrite (d : Dev) (g : Nat) : Nat → Dev
  | 0 => d
  | n + 1 =>
    let m := d.mg g
    let b := bitOf (d.mgCfg g) 24
    match m.out with
    | [] => d
    | r :: rs =>
      if !r.ready || (d.link b).credits = 0 then d
      else if d.pcqFull g then
        let late := fun (x : PcqRec) => x.ready && !x.waited
        if !m.out.any late then d
        else ((d.setMg g { m with out := m.out.map fun x => { x with waited := x.waited || x.ready } }).cadd 9
          (m.out.filter late).length).dflag Reg.CLASP_FLAGS 5
      else
        let tail := d.pcqTail g
        let gs := (m.gseq + 1) % 2 ^ 32
        let w1 := setBit (r.words.getD 1 0) 31 (tail / 2 ^ 16 = 0)
        let words := [r.words.getD 0 0, w1, r.words.getD 2 0, BitVec.ofNat 32 gs]
        let base := (d.drd (mgPage g + 8)).toNat * 2 ^ 32 + d.dfld (mgPage g + 4) 31 4 * 16
        let m := { m with out := rs, gseq := gs, mark := if bitOf (d.mgCfg g) 30 then gs else m.mark }
        let d := (d.setMg g m).hostWrite b (base + 16 * (tail % 2 ^ 16)) (wordBytes words)
        let d := d.dput (mgPage g + 0x10) 16 0 (lapNext (d.pcqSize g) tail)
        let d := if bitOf w1 23 then d else d.cinc 0
        let d := match r.source with
          | some (i, k) => d.onActive i fun s => s.ledVisible k (r.words.getD 0 0).toNat
          | none => d
        d.pcqWrite g n

/-- What a group sends to its link: write-backs, read-backs and records (R324, R325). -/
def Dev.pcqFlush (d : Dev) (g : Nat) : Dev :=
  let b := bitOf (d.mgCfg g) 24
  if (d.mg g).out.isEmpty || (d.mg g).state != 1 || !d.linkOpen b then d
  else
    let x := d.writePre b (d.mg g).out
    let d := (x.2.setMg g { x.2.mg g with out := x.1 }).pcqBack g
    d.pcqWrite g (d.mg g).out.length

/-- READBACK_RETURN of a group: its oldest read-back in flight returns (R296, R324). -/
def Dev.pcqReturn (d : Dev) (g : Nat) : Dev :=
  let m := d.mg g
  match m.out.find? (fun r => r.back != 0 && !r.ready) with
  | none => d
  | some x => d.setMg g { m with out := m.out.map fun r => if r.back = x.back then { r with ready := true } else r }

/-! ## Interrupts (R320, R321) -/

/-- Whether the PCQ of a group holds unread records. -/
def Dev.pcqUnread (d : Dev) (g : Nat) : Bool := d.pcqHead g != d.pcqTail g

/-- The condition of vector `v` on link `b` (R320). -/
def Dev.vecCond (d : Dev) (b : Bool) (v : Nat) : Bool :=
  if v < 48 then
    let i : StrandId := Fin.ofNat 4 (v / 12)
    let st := d.strand i
    let k := v % 12
    if k < 8 then st.cqUnread k && st.bit (cqPage k + 8) 8 && !st.cqLoc k && st.cqLink k == b && (d.cqGroup i k).isNone
    else
      bitOf (d.drd Reg.CLASP_IRQ_ROUTE) (8 * i.val + 2 * (k - 8) + b2n b) &&
        (st.hostLine (k - 8) || (k == 11 && d.dbit Reg.CLASP_FLAGS (12 + i.val)))
  else if v < 56 then
    let c := d.mgCfg (v - 48)
    bitOf c 22 && bitOf c 24 == b && d.pcqUnread (v - 48)
  else match v with
    | 56 => d.bell (1 + b2n b)
    | 57 => (d.link b).done
    | 58 => (d.dfld Reg.CLASP_FLAGS 7 0 &&& d.dfld Reg.CLASP_CTL 7 0) != 0
    | _ => false

/-- Whether a vector of a link is masked in its table entry.  (PRESUMED, unsafe: log entry 71.) -/
def Link.masked (x : Link) (v : Nat) : Bool := bitOf (x.msix.get (if v < 64 then 1 else 0) (4 * v + 3)) 0

/-- Whether an armed vector has been armed again in the present cycle (R321). -/
def Dev.rearmed (d : Dev) (b : Bool) (v : Nat) : Bool :=
  let a := d.thisCyc.arm.get (0, 0) (b2n b)
  bitN a.1 v && !bitN a.2 v

/-- Every vector of a link whose condition holds, that is armed and not masked, sends its message and is disarmed; a re-arm that meets the
send in its cycle leaves it armed (R12, R321). -/
def Dev.sendVectors (d : Dev) (b : Bool) : Dev :=
  if !d.linkOpen b then d
  else (List.range 59).foldl (fun (e : Dev) v =>
    let x := e.link b
    if bitN x.arm v && !x.masked v && e.vecCond b v then
      if e.rearmed b v then (e.inCyc fun y => { y with arm := y.arm.upd (0, 0) (b2n b) fun p => (putBitN p.1 v false, p.2) }).emit (.msix b v)
      else (e.setLink b { x with arm := putBitN x.arm v false }).emit (.msix b v)
    else e) d

/-- IRQ_ARM (R321). -/
def Dev.irqArm (d : Dev) (b hi : Bool) (v : Word) : Dev :=
  let x := d.link b
  let m := v.toNat * 2 ^ (if hi then 32 else 0)
  (d.inCyc fun y => { y with arm := y.arm.upd (0, 0) (b2n b) fun p => (p.1 ||| m, p.2 ||| (m &&& (2 ^ 64 - 1 - x.arm))) }).setLink b
    { x with arm := x.arm ||| m }

/-- A word of the MSI-X table written: unmasking sends what is pending when the command settles (R321). -/
def Dev.msixWrite (d : Dev) (b : Bool) (k : Nat) (v : Word) : Dev :=
  let x := d.link b
  d.setLink b { x with msix := x.msix.set (if k % 4 = 3 then 1 else 0) k v }

/-- The reads of MSI-X table and PBA: while a vector is masked, or its link in D3hot, its pending bit follows the condition (R313, R320, R321).  (PRESUMED, unsafe: log entry 71.) -/
def Dev.msixRead (d : Dev) (b : Bool) (k : Nat) : Word := (d.link b).msix.get (if k % 4 = 3 then 1 else 0) k
def Dev.pba (d : Dev) (b : Bool) : Nat :=
  ((List.range 59).map fun v => if ((d.link b).masked v || (d.link b).d3) && d.vecCond b v then 2 ^ v else 0).sum

/-! ## Acceptance reports (R322) -/

/-- The accepted mark of ring `r` of a strand: TX rings 0 to 15, command queues as 16 + k.  (DEDUCED, unsafe: log entry 78.) -/
def Dev.accMark (d : Dev) (i : StrandId) (r : Nat) : Option Nat :=
  let e := (d.strand i).led (if r < 16 then r else 33 + (r - 16))
  if e.valid then some e.acc else none

/-- ACC_REPORT for a ring of the table of strand `i` (R322).  (DEDUCED, unsafe: log entry 78.) -/
def Dev.accTable (d : Dev) (i : StrandId) (r : Nat) : Dev :=
  let pg := 0x1000080 + 0x10 * i.val
  let b := d.dbit (pg + 8) 1
  let key := 20 * i.val + r
  if !d.dbit (pg + 8) 0 || !d.linkOpen b || (d.link b).credits = 0 || (d.txGroup i r).isSome ||
      (r < 16 && (d.strand i).ringLoc r) || 20 ≤ r then d
  else match d.accMark i r with
    | none => d
    | some v =>
      let last := d.clasp.accs.get none key
      let old := match last with
        | some o => o == v || !newer v o
        | none => false
      if old then d
      else
        let base := (d.drd (pg + 4)).toNat * 2 ^ 32 + d.dfld pg 31 6 * 64
        let c := { d.clasp with accs := d.clasp.accs.set none key (some v) }
        ({ d with clasp := c } : Dev).hostWrite b (base + 4 * r) (leBytes 4 v)

/-- The lower of two marks in serial order (R322). -/
def serialMin (a b : Nat) : Nat := if newer a b then b else a

/-- The mark a TX group reports: the lower of its live strands' marks (R322, R328). -/
def Dev.groupMark (d : Dev) (g : Nat) : Option Nat :=
  let c := d.mgCfg g
  let e := mgStrand c false
  let o := mgStrand c true
  let r := fieldOf c 11 8
  match d.live e, d.live o with
  | true, true =>
    match d.accMark e r, d.accMark o r with
    | some a, some b => some (serialMin a b)
    | _, _ => none
  | true, false => d.accMark e r
  | false, true => d.accMark o r
  | false, false => none

/-- ACC_REPORT for a TX merge group (R322). -/
def Dev.accGroup (d : Dev) (g : Nat) : Dev :=
  let c := d.mgCfg g
  let b := bitOf c 24
  let m := d.mg g
  if !bitOf c 31 || bitOf c 30 || m.state != 1 || !d.linkOpen b || (d.link b).credits = 0 then d
  else match d.groupMark g with
    | none => d
    | some v =>
      let old := match m.acc with
        | some o => o == v || !newer v o
        | none => false
      if old then d
      else
        let addr := (d.drd (mgPage g + 0x18)).toNat * 2 ^ 32 + d.dfld (mgPage g + 0x14) 31 2 * 4
        (d.setMg g { m with acc := some v, accShown := v }).hostWrite b addr (leBytes 4 v)

/-! ## Fencing seen by the Clasp (R35, R328) -/

/-- The Clasp closes its gate to a strand: its requests, its records that the merge has not decided and its held write-backs go, and the other
strand of each of its groups becomes, or stays, primary (R35, R328). -/
def Dev.claspGate (d : Dev) (i : StrandId) : Dev :=
  let d := { d with clasp := { d.clasp with q := d.clasp.q.set i [] } }
  (List.range 8).foldl (fun (e : Dev) g =>
    let c := e.mgCfg g
    if !bitOf c 31 || !mgHas c i then e
    else
      let m := e.mg g
      let odd := oddOf i
      let m := { m with first := m.first.filter fun r => r.odd != odd }
      let m := if odd then { m with held1 := [], prev1 := none } else { m with held0 := [], prev0 := none }
      let two := mgHas c (mgStrand c false) && mgHas c (mgStrand c true)
      if two then
        ((e.setMg g { m with primary := !odd }).cinc 4).log 0x0D04 .transient 0x20 [g]
      else e.setMg g m) d

/-! ## Merge (R324 to R327, R329, R330) -/

/-- The head of a strand's request queue removed. -/
def Dev.popReq (d : Dev) (i : StrandId) : Dev :=
  { d with clasp := { d.clasp with q := d.clasp.q.set i (d.clasp.q.get i).tail } }

/-- A strand's CQ head moves past the record the Clasp has consumed (R325). -/
def Dev.returnHead (d : Dev) (i : StrandId) (q : Nat) : Dev :=
  d.onStrand i fun st => st.cqHeadWrite q (BitVec.ofNat 32 (lapNext (st.cqSize q) (st.cqHead q)))

/-- The words of a merged record (R325). -/
def mergedWords (ws : List Word) (odd dup : Bool) : List Word :=
  let w1 := (ws.getD 1 0)
  let w1 := BitVec.ofNat 32 (fieldOf w1 30 29 % 2 * 2 ^ 29 + b2n odd * 2 ^ 28 + fieldOf w1 27 24 * 2 ^ 24 + b2n dup * 2 ^ 23 + fieldOf w1 15 0)
  [ws.getD 0 0, w1, ws.getD 2 0, 0]

/-- A merged record joins those that wait for the PCQ; on a link that is lost it is discarded (R325, R331).  (DEDUCED, unsafe: log entry 75.) -/
def Dev.pcqPush (d : Dev) (g : Nat) (r : PcqRec) : Dev :=
  let m := d.mg g
  if m.state = 1 then d.setMg g { m with out := m.out ++ [r] }
  else if bitOf (d.mgCfg g) 30 then d.setMg g { m with gseq := (m.gseq + 1) % 2 ^ 32 } else d

/-- Delivery of a TX record: the mark, the item's write-backs, the record (R324). -/
def Dev.deliverTx (d : Dev) (g : Nat) (odd : Bool) (ws : List Word) : Dev :=
  let q := (ws.getD 0 0).toNat
  let m := d.mg g
  let mine := (if odd then m.held1 else m.held0).filter fun h => h.qseq == q
  let gone := fun (l : List HeldWb) => l.filter fun h => h.qseq != q
  let w2 := ws.getD 2 0
  let m := { m with mark := q, held0 := gone m.held0, held1 := gone m.held1,
                    past := ((q, fieldOf w2 7 0, fieldOf w2 15 8, fieldOf (ws.getD 1 0) 15 0) :: m.past).take (2 ^ 16) }
  let d := (d.setMg g m).pcqPush g { words := mergedWords ws odd false, pre := mine, ready := false }
  if d.base = 6 then
    let other := mgStrand (d.mgCfg g) (!m.primary)
    d.onActive other fun st => st.retireTo (fieldOf (d.mgCfg g) 11 8) q
  else d

/-- ABORT_SPLIT: the strands' records of an item that an abort concerns differ in STATUS (R327). -/
def Dev.abortSplit (d : Dev) (differ : Bool) : Dev := if differ then (d.cinc 6).dflag Reg.CLASP_FLAGS 7 else d

/-- A suppressed TX record, and what it shows of the delivered one (R324, R327). -/
def Dev.suppressTx (d : Dev) (g : Nat) (odd : Bool) (ws : List Word) : Dev :=
  let q := (ws.getD 0 0).toNat
  let m := d.mg g
  let gone := fun (l : List HeldWb) => l.filter fun h => h.qseq != q
  let d := (d.setMg g (if odd then { m with held1 := gone m.held1 } else { m with held0 := gone m.held0 })).cinc 1
  let w2 := ws.getD 2 0
  match m.past.find? (fun p => p.1 == q) with
  | some (_, s, n, x) =>
    let status := s != fieldOf w2 7 0
    let d := d.abortSplit (status && m.split.contains q)
    let differs := (status && !m.split.contains q) || n != fieldOf w2 15 8 || x != fieldOf (ws.getD 1 0) 15 0
    if differs then ((d.dflag Reg.CLASP_FLAGS 2).cinc 5).log 0x0D03 .lasting 0x20 [g, q] else d
  | none => d

/-- The record kept as a strand's last of the group (R330). -/
def MGroup.setPrev (m : MGroup) (odd : Bool) (q : Nat) : MGroup := if odd then { m with prev1 := some q } else { m with prev0 := some q }

/-- QSEQ and STATUS of a record. -/
def MergeRec.q (r : MergeRec) : Nat := (r.words.getD 0 0).toNat
def MergeRec.ok (r : MergeRec) : Bool := fieldOf (r.words.getD 2 0) 7 0 == 0

/-- Which of an item's two records is delivered: of an abort's item the one that completed it (R327); else the first that came, of one cycle the
even strand's (R324). -/
def mergePick (split : Bool) (a b : MergeRec) : MergeRec :=
  if split && a.ok != b.ok then (if a.ok then a else b)
  else if a.at_ = b.at_ && a.odd then b else a

/-- The next record of a TX group that the merge suppresses (true) or delivers (R324, R327, R329): those of the present cycle wait for its
end, and the first of an abort's item for the other strand's. -/
def Dev.mergeChoice (d : Dev) (g : Nat) : Option (Bool × MergeRec) :=
  let m := d.mg g
  let rs := m.first.filter fun r => decide (r.at_ < d.ns)
  let standby := fun (r : MergeRec) => d.base == 6 && r.odd != m.primary
  match rs.find? (fun r => !newer r.q m.mark || standby r) with
  | some r => some (true, r)
  | none =>
    match rs.filter (fun r => r.q == seqNext m.mark) with
    | [] => none
    | a :: rest =>
      let split := m.split.contains a.q
      match rest.find? (fun r => r.odd != a.odd) with
      | some b => some (false, mergePick split a b)
      | none => if split && d.live (mgStrand (d.mgCfg g) (!a.odd)) then none else some (false, a)

/-- The merge of a TX group decides what it can. The number bounds the records. -/
def Dev.mergeRun (d : Dev) (g : Nat) : Nat → Dev
  | 0 => d
  | n + 1 =>
    match d.mergeChoice g with
    | none => d
    | some (s, r) =>
      let m := d.mg g
      let d := d.setMg g { m with first := m.first.erase r }
      (if s then d.suppressTx g r.odd r.words else d.deliverTx g r.odd r.words).mergeRun g n

/-- An RX record reaches the merge (R326). -/
def Dev.mergeRx (d : Dev) (g : Nat) (odd : Bool) (ws : List Word) : Dev :=
  let c := d.mgCfg g
  let here := fun (r : Bool × Nat × Nat × Nat × Nat) => r.1 == odd && r.2.1 == (ws.getD 0 0).toNat
  let red := (((d.mg g).red.find? here).getD (odd, 0, 0, 0, 0)).2.2
  let m := { d.mg g with red := (d.mg g).red.filter fun r => !here r }
  let d := d.setMg g m
  let status := fieldOf (ws.getD 2 0) 7 0
  let two := bitOf c 27 && bitOf c 28
  let source := if status = 2 then none else some (mgStrand c odd, 16 + fieldOf (ws.getD 1 0) 27 24)
  let pass := fun (e : Dev) (dup : Bool) => e.pcqPush g { words := mergedWords ws odd dup, source := source, ready := true }
  if status = 1 || status = 2 || status = 7 then pass d false
  else
    let key := red.2.2 * 2 ^ 17 + red.1 % 2 * 2 ^ 16 + red.2.1
    if bitOf c 25 && 2 ≤ red.1 then
      let age := d.dfld (mgPage g + 0x34) 15 0 * 10 ^ 6
      let tbl := m.dup.filter fun e => decide (d.ns ≤ e.2 + age)
      if tbl.any (fun e => e.1 == key) then pass ((d.setMg g { m with dup := tbl }).cinc 2) true
      else
        let full := decide (4096 ≤ tbl.length)
        let tbl := (if full then tbl.tail else tbl) ++ [(key, d.ns)]
        let d := d.setMg g { m with dup := tbl }
        pass (if full then (d.cinc 3).dflag Reg.CLASP_FLAGS 6 else d) false
    else if !two || odd == m.primary then pass d false
    else pass (d.cinc 2) true

/-- Whether a record carries a QSEQ of its ring: an aborted RX descriptor's does not (R293, R302). -/
def Dev.numbered (d : Dev) (g : Nat) (ws : List Word) : Bool := !(bitOf (d.mgCfg g) 30 && fieldOf (ws.getD 2 0) 7 0 == 2)

/-- Whether a strand's record keeps the protocol (R330). -/
def Dev.recordOk (d : Dev) (g : Nat) (i : StrandId) (ws : List Word) : Bool :=
  let m := d.mg g
  let c := d.mgCfg g
  let q := (ws.getD 0 0).toNat
  let prev := if oddOf i then m.prev1 else m.prev0
  let e := (d.strand i).led (if bitOf c 30 then 16 + mgRing c (oddOf i) else fieldOf c 11 8)
  !d.numbered g ws ||
    ((!newer q (if bitOf c 30 then m.gseq else m.mark) || prev.isNone || prev == some ((q + 2 ^ 32 - 1) % 2 ^ 32)) && !newer q e.sta)

/-! ## Link and Clasp resets (R305, R331, R332) -/

/-- A LINK_RESET's effect on the Clasp (R27, R331, R334, R450). -/
def Dev.claspLinkReset (d : Dev) (b : Bool) : Dev :=
  let x := d.link b
  let d := d.setLink b { up := false, reqBuf := x.reqBuf }
  let drop := fun (r : HostReq) => match r with
    | .data c _ _ _ _ => c != b
    | .wb c _ _ _ _ _ => c != b
    | .record c _ _ _ _ => c != b
    | .read c _ _ _ => c != b
  let d := { d with clasp := { d.clasp with q := d.clasp.q.map (List.filter drop) } }
  (List.range 8).foldl (fun (e : Dev) g =>
    if bitOf (e.mgCfg g) 31 && bitOf (e.mgCfg g) 24 == b then
      e.setMg g { e.mg g with state := 2, held0 := [], held1 := [], out := [] }
    else e) d

/-- The strands' part of a LINK_RESET (R28, R305). -/
def Dev.strandsLinkReset (d : Dev) (b : Bool) : Dev :=
  allStrands.foldl (fun e i => e.onActive i fun st => st.dmaLinkReset b) d

/-- LINK_RESET of a link (R27, R331). -/
def Dev.linkReset (d : Dev) (b : Bool) : Dev :=
  let d := ((d.strandsLinkReset b).claspLinkReset b).resetIdent (1 + b2n b)
  let r := d.clasp.rec_
  let d := if r.isOpen && r.owner == b then { d with clasp := { d.clasp with rec_ := { r with isOpen := false } } } else d
  (d.cinc (10 + b2n b)).log 0x0D05 .transient (0x21 + b2n b) [b2n b]

/-- CLASP_INTERNAL_RESET: a mismatch of the halves; a second within 1 s fences the host port (R332). -/
def Dev.claspReset (d : Dev) : Dev :=
  let again := match d.clasp.mismatchAt with
    | some t => decide (d.ns < t + 10 ^ 9)
    | none => false
  let d := (d.strandsLinkReset false).strandsLinkReset true
  let c : Clasp := { checking := !again && !d.clasp.fenced, mismatchAt := some d.ns, fenced := again || d.clasp.fenced }
  let e := ({ d with clasp := c } : Dev).lktLost
  if again && !d.clasp.fenced then e.log 0x0D02 .fatal 0x20 [] else e

/-- CLASP_SELF_CHECK_DONE, 50 µs after the reset (R332). -/
def Dev.claspCheck (d : Dev) (clean : Bool) : Dev :=
  let early := match d.clasp.mismatchAt with
    | some t => decide (d.ns < t + 50000)
    | none => false
  if !d.clasp.checking || early then d
  else
    let d := { d with clasp := { d.clasp with checking := false } }
    if clean then ((d.cinc 12).dflag Reg.CLASP_FLAGS 0).log 0x0D01 .transient 0x20 []
    else ({ d with clasp := { d.clasp with fenced := true } } : Dev).log 0x0D02 .fatal 0x20 []

/-- PCIE_LINK_UP (R331, R332): the link returns to L0 with the host's initial credits (R1).  (DEDUCED, unsafe: log entry 73.) -/
def Dev.pcieUp (d : Dev) (b : Bool) : Dev :=
  if d.clasp.fenced || d.clasp.checking || d.mode = 0 then d
  else
    let x := d.link b
    if x.up then d else d.setLink b { x with up := true, credits := 128 }

/-- POSTED_CREDIT_RETURN (R319): the credits of a link never exceed those the host granted at first. -/
def Dev.creditReturn (d : Dev) (b : Bool) (n : Nat) : Dev :=
  let x := d.link b
  if x.up then d.setLink b { x with credits := min 128 (x.credits + n) } else d

/-! ## Merge-group registers (R323, R327, R337) -/

/-- Whether the rings a group's configuration names are all STOPPED. -/
def Dev.mgStopped (d : Dev) (c : Word) : Bool :=
  let k := fun (odd : Bool) => (if bitOf c 30 then 16 else 0) + mgRing c odd
  [false, true].all fun odd => !bitOf c (if odd then 28 else 27) || (d.strand (mgStrand c odd)).ringState (k odd) == 0

/-- Whether a configuration with EN = 1 keeps the group's rules (R337). -/
def Dev.mgRules (d : Dev) (g : Nat) (c : Word) : Bool :=
  let tx := !bitOf c 30
  let st := fieldOf c 28 27
  let others := (List.range 8).filter fun h => h != g && bitOf (d.mgCfg h) 31 && !bitOf (d.mgCfg h) 30 && bitOf (d.mgCfg h) 29 == bitOf c 29
  (!tx || st == 3) && st != 0 && (st != 3 || d.base == 5 || d.base == 6) && (!tx || fieldOf c 15 12 == fieldOf c 11 8) &&
  !(d.base == 6 && tx && others.any fun h => bitOf (d.mgCfg h) 26 != bitOf c 26)

/-- The refusal of an MG_CFG write. -/
def Dev.mgRefuse (d : Dev) (g : Nat) : Dev := (d.dflag (mgPage g + 0x30) 7).log 0x0D06 .lasting 0x20 [g]

/-- MG_CFG_WRITE (R331, R337). -/
def Dev.mgCfgWrite (d : Dev) (g : Nat) (v : Word) : Dev :=
  let c := d.mgCfg g
  if bitOf c 31 then
    if bitOf v 31 then d
    else if !d.mgStopped c then d.mgRefuse g
    else (d.dwr (mgPage g) (setBit c 31 false)).setMg g
      { d.mg g with state := 0, out := [], held0 := [], held1 := [], first := [], split := [], abort := none }
  else
    let sz := fieldOf v 4 0
    let keep := BitVec.ofNat 32 (fieldOf v 31 22 * 2 ^ 22 + fieldOf v 18 16 * 2 ^ 16 + fieldOf v 15 8 * 2 ^ 8 +
      (if 4 ≤ sz && sz ≤ 16 then sz else fieldOf c 4 0))
    if bitOf v 31 then
      if !d.mgRules g keep then d.mgRefuse g
      else
        let r := fieldOf keep 11 8
        let marks := [false, true].filterMap fun odd =>
          let e := (d.strand (mgStrand keep odd)).led r
          if e.valid then some e.cmp else none
        let mark := if bitOf keep 30 then 0 else marks.foldl seqMax (marks.headD 0)
        let m : MGroup := { state := 1, primary := bitOf keep 26, mark := mark }
        ((d.dwr (mgPage g) keep).setMg g m).dwr (mgPage g + 0x10) 0 |>.dwr (mgPage g + 0xC) 0
    else d.dwr (mgPage g) keep

/-- MG_TAIL_WRITE (R323). -/
def Dev.mgTailWrite (d : Dev) (g : Nat) (v : Nat) : Dev :=
  let c := d.mgCfg g
  let d := d.dput (mgPage g + 0x1C) 15 0 v
  if !bitOf c 31 || bitOf c 30 then d
  else [false, true].foldl (fun (e : Dev) odd =>
    let i := mgStrand c odd
    if e.live i then e.onStrand i fun st => st.tailWrite (fieldOf c 11 8) v else e) d

/-- QSEQ of the item of TX ring `k` that holds descriptor `i`. -/
def StrandSt.itemAt (st : StrandSt) (k i : Nat) : List Nat :=
  let size := st.ringSize k
  ((st.ring k).items.filter fun it => !it.dup && decide ((i + size - it.idx % size) % size < it.n)).map (·.qseq)

/-- MG_ABORT: the request goes to ring r of each live strand; one before DONE is discarded (R327). -/
def Dev.mgAbort (d : Dev) (g : Nat) (v : Word) : Dev :=
  let c := d.mgCfg g
  if !bitOf c 31 || bitOf c 30 then d
  else if (d.mg g).abort.isSome then d.dflag (mgPage g + 0x30) 6
  else
    let r := fieldOf c 11 8
    let req := BitVec.ofNat 32 (b2n (bitOf v 16) * 2 ^ 25 + r * 2 ^ 20 + fieldOf v 15 0)
    let asked := [false, true].filter fun odd => d.live (mgStrand c odd)
    let qs := asked.flatMap fun odd =>
      let st := d.strand (mgStrand c odd)
      if bitOf v 16 then (st.ring r).items.map (·.qseq) else st.itemAt r (fieldOf v 15 0)
    let d := asked.foldl (fun (e : Dev) odd => e.onStrand (mgStrand c odd) fun st => st.dmaAbort req) d
    let m := d.mg g
    (d.setMg g { m with split := (m.split ++ qs).eraseDups, abort := some asked }).dwr (mgPage g + 0x2C) 0

/-- MG_ABORT_RES once every strand asked has answered or has been fenced: completion wins (R327). -/
def Dev.mgAbortDone (d : Dev) (g : Nat) : Dev :=
  let c := d.mgCfg g
  match (d.mg g).abort with
  | none => d
  | some asked =>
    let res := (asked.filter fun odd => d.live (mgStrand c odd)).map fun odd => (d.strand (mgStrand c odd)).rd Reg.DMA_ABORT_RES
    if !res.all fun w => bitOf w 31 then d
    else
      let codes := res.map fun w => fieldOf w 17 16
      let code := if codes.contains 1 then 1 else if codes.contains 0 then 0 else 2
      let items := (res.map fun w => fieldOf w 15 0).foldl max 0
      (d.setMg g { d.mg g with abort := none }).dwr (mgPage g + 0x2C) (BitVec.ofNat 32 (2 ^ 31 + code * 2 ^ 16 + items))

/-! ## What follows every command -/

/-- A merge group decides and sends what it can. -/
def Dev.mgSettle (d : Dev) (g : Nat) : Dev :=
  if !bitOf (d.mgCfg g) 31 then d
  else
    let d := if bitOf (d.mgCfg g) 30 then d else (d.mergeRun g (d.mg g).first.length).mgAbortDone g
    d.pcqFlush g

/-- What follows every command and every span of time: merges are decided, and waiting requests and messages go out as far as they can (R319, R321,
R324, R325). -/
def Dev.settle (d : Dev) : Dev :=
  let d := (List.range 8).foldl Dev.mgSettle d.lktEnd.exchangeRun.pump
  (d.sendVectors false).sendVectors true

end Sys2Proof.Machine
end

