-- ==== Sys2Proof/Machine/Flags.lean ====
section
/-! DEFINITION. The D32 flag computations: the adder with its carries, shifts, decimal arithmetic and division (R369, R370, R373,
R375). -/

namespace Sys2Proof.Machine

/-- What the adder gives: result, carry out of bit 31, signed overflow, and the carries out of bits 4i + 3 (R363, R369). -/
structure AddOut where
  res : Word
  c : Bool
  v : Bool
  nc : Nat
deriving DecidableEq, Repr

/-- Carry out of the low `k` bits of `a + b + cin`. -/
def carryOut (a b cin k : Nat) : Bool := decide (2 ^ k ≤ a % 2 ^ k + b % 2 ^ k + cin)

/-- `a + b + cin` (R365, R369). -/
def adder (a b : Word) (cin : Bool) : AddOut :=
  let n := b2n cin
  let exact := a.toNat + b.toNat + n
  let signed := a.toInt + b.toInt + n
  { res := BitVec.ofNat 32 exact, c := decide (2 ^ 32 ≤ exact),
    v := decide (signed < -(2 ^ 31) ∨ 2 ^ 31 ≤ signed),
    nc := ((List.range 8).map fun i => if carryOut a.toNat b.toNat n (4 * i + 4) then 2 ^ i else 0).sum }

/-- Result and C of a shift of `a` by `n`, 0 to 255; C is `none` where it is kept (R370). -/
def shifter (kind : Nat) (a : Word) (n : Nat) : Word × Option Bool :=
  let x := a.toNat
  let top := bitN x 31
  match kind with
  | 0 =>
    if n = 0 then (a, none)
    else if n ≤ 32 then (BitVec.ofNat 32 (x * 2 ^ n), some (bitN x (32 - n)))
    else (0, some false)
  | 1 =>
    if n = 0 then (a, none)
    else if n ≤ 32 then (BitVec.ofNat 32 (x / 2 ^ n), some (bitN x (n - 1)))
    else (0, some false)
  | 2 =>
    if n = 0 then (a, none)
    else if n ≤ 31 then (BitVec.ofInt 32 (a.toInt / (2 ^ n : Nat)), some (bitN x (n - 1)))
    else (if top then BitVec.allOnes 32 else 0, some top)
  | _ =>
    if n = 0 then (a, none)
    else
      let k := n % 32
      let r := BitVec.ofNat 32 (x / 2 ^ k + x * 2 ^ (32 - k))
      if k = 0 then (a, some top) else (r, some (bitN r.toNat 31))

/-! ## Decimal (R373) -/

/-- The number that eight packed BCD digits spell; none where a digit is above 9. -/
def bcdNum (w : Word) : Option Nat :=
  if (List.range 8).all fun i => decide (fieldOf w (4 * i + 3) (4 * i) ≤ 9) then
    some ((List.range 8).map fun i => fieldOf w (4 * i + 3) (4 * i) * 10 ^ i).sum
  else none

/-- The packed BCD form of the low eight decimal digits of a number. -/
def bcdOf (n : Nat) : Word := BitVec.ofNat 32 ((List.range 8).map fun i => n / 10 ^ i % 10 * 16 ^ i).sum

/-- BADD: sum and D; none for an invalid operand. -/
def bcdAdd (a b : Word) (d : Bool) : Option (Word × Bool) :=
  match bcdNum a, bcdNum b with
  | some x, some y =>
    let s := x + y + b2n d
    some (bcdOf (s % 10 ^ 8), decide (10 ^ 8 ≤ s))
  | _, _ => none

/-- BSUB: difference, as its ten's complement where negative, and D; none for an invalid operand. -/
def bcdSub (a b : Word) (d : Bool) : Option (Word × Bool) :=
  match bcdNum a, bcdNum b with
  | some x, some y => some (bcdOf ((x + 10 ^ 8 - y - b2n d) % 10 ^ 8), decide (x < y + b2n d))
  | _, _ => none

/-- One nibble of DADJ: the carry into it and the nibbles so far. -/
def dadjNibble (wa : Word) (nc : Nat) (r : Nat × Nat) (i : Nat) : Nat × Nat :=
  let d := fieldOf wa (4 * i + 3) (4 * i) + r.1
  let d := if 9 < d || bitN nc i then d + 6 else d
  (b2n (decide (15 < d)), r.2 + d % 16 * 16 ^ i)

/-- DADJ: the adjusted word and D. -/
def decAdjust (wa : Word) (c : Bool) (nc : Nat) : Word × Bool :=
  let r := (List.range 8).foldl (dadjNibble wa nc) (0, 0)
  (BitVec.ofNat 32 r.2, r.1 == 1 || c)

/-! ## Multiply and divide (R374, R375) -/

/-- The 64-bit product. -/
def product (signed : Bool) (a b : Word) : Nat :=
  if signed then wrapN 64 (a.toInt * b.toInt) else a.toNat * b.toNat

/-- Quotient, remainder and V; a division by zero gives the values of R375. -/
def quotient (signed : Bool) (a b : Word) : Word × Word × Bool :=
  if b = 0 then
    (if signed then (if a.toInt < 0 then 0x80000000 else 0x7FFFFFFF) else 0xFFFFFFFF, a, false)
  else if signed then
    if a = 0x80000000 && b = 0xFFFFFFFF then (0x80000000, 0, true)
    else (BitVec.ofInt 32 (a.toInt.tdiv b.toInt), BitVec.ofInt 32 (a.toInt.tmod b.toInt), false)
  else (BitVec.ofNat 32 (a.toNat / b.toNat), BitVec.ofNat 32 (a.toNat % b.toNat), false)

end Sys2Proof.Machine
end

