-- ==== Sys2Proof/Machine/Operands.lean ====
section
/-! DEFINITION. The D32 operand forms: register reads and writes, sources, addressing modes, guards and special registers (R362,
R363, R366, R371). -/

namespace Sys2Proof.Machine

/-! ## Registers (R362) -/

/-- A word register read as an operand: W15 is the address of the instruction plus 4; 16 and 17 are U0 and U1. -/
def DCore.reg (k : DCore) (n : Nat) : Word := if n = 15 then BitVec.ofNat 32 (k.pc + 4) else k.w.get 0 n

/-- A word register other than W15 written. -/
def DCore.setReg (k : DCore) (n : Nat) (v : Word) : DCore := { k with w := k.w.set 0 n v }

/-! ## Sources and addresses (R365, R371) -/

/-- A source in the form the core executes: a register by number, or a value. -/
inductive Src where
  | reg (n : Nat)
  | imm (v : Nat)
deriving DecidableEq, Repr

/-- The value of a source. -/
def DCore.src (k : DCore) : Src → Word
  | .reg n => k.reg n
  | .imm v => BitVec.ofNat 32 v

/-- An addressing mode in the form the core executes. -/
inductive AMode where
  | disp (d : Nat)
  | postInc
  | preDec
  | index (wi sh : Nat)
deriving DecidableEq, Repr

/-- The address of an access of `size` bytes with base register `wa`, and the base register's new value where the mode updates it. -/
def DCore.address (k : DCore) (wa size : Nat) (m : AMode) : Nat × Option Word :=
  let b := k.reg wa
  match m with
  | .disp d => ((b + BitVec.ofInt 32 (signedN 12 d)).toNat, none)
  | .postInc => (b.toNat, some (b + BitVec.ofNat 32 size))
  | .preDec => ((b - BitVec.ofNat 32 size).toNat, some (b - BitVec.ofNat 32 size))
  | .index wi sh => ((b + BitVec.ofNat 32 ((k.reg wi).toNat * 2 ^ sh)).toNat, none)

/-- The operands of the D32 rows in the form the core executes. -/
def DSrc.src : DSrc → Src
  | .reg n => .reg n.val
  | .imm v => .imm v.toNat

def DCnt.src : DCnt → Src
  | .reg n => .reg n.val
  | .imm v => .imm v.toNat

def DMode.mode : DMode → AMode
  | .disp d => .disp d.toNat
  | .postInc => .postInc
  | .preDec => .preDec
  | .index wi sh => .index wi.val sh.val

/-! ## Guards (R366) -/

/-- Whether guard `g` holds. -/
def DCore.guard (k : DCore) (g : Nat) : Bool :=
  match g with
  | 0 => k.z
  | 1 => !k.z
  | 2 => k.n
  | 3 => !k.n
  | 4 => k.c
  | 5 => !k.c
  | 6 => k.c && !k.z
  | 7 => !k.c || k.z
  | 8 => k.n == k.v
  | 9 => k.n != k.v
  | 10 => !k.z && k.n == k.v
  | 11 => k.z || k.n != k.v
  | 12 => k.v
  | 13 => !k.v
  | 14 => true
  | _ => k.d

/-! ## Special registers (R363) -/

/-- FLAGS as a word. -/
def DCore.flags (k : DCore) : Word :=
  BitVec.ofNat 32 (b2n k.dz * 2 ^ 16 + k.nc % 256 * 2 ^ 8 + b2n k.d * 16 + b2n k.n * 8 + b2n k.z * 4 + b2n k.c * 2 + b2n k.v)

/-- FLAGS written whole. -/
def DCore.setFlags (k : DCore) (w : Word) : DCore :=
  { k with dz := bitOf w 16, nc := fieldOf w 15 8, d := bitOf w 4, n := bitOf w 3, z := bitOf w 2, c := bitOf w 1, v := bitOf w 0 }

/-- A special register as MFS reads it; CYC_LO latches CYC_HI. -/
def DCore.special (k : DCore) (id idx : Nat) : Word × DCore :=
  match idx with
  | 0 => (k.ml, k)
  | 1 => (k.mh, k)
  | 2 => (k.qt, k)
  | 3 => (k.rm, k)
  | 4 => (k.flags, k)
  | 5 => (BitVec.ofNat 32 (b2n k.tm * 4 + b2n k.ie * 2 + b2n k.trapdz), k)
  | 6 => (k.tpc, k)
  | 7 => (k.tflags, k)
  | 8 => (k.tcause, k)
  | 9 => (k.tval, k)
  | 10 => (k.vbase, k)
  | 11 => (BitVec.ofNat 32 k.cyc, { k with cycHi := BitVec.ofNat 32 (k.cyc / 2 ^ 32) })
  | 12 => (k.cycHi, k)
  | 13 => (BitVec.ofNat 32 (0x0D32 * 2 ^ 16 + 0x0100 + id), k)
  | _ => (0, k)

/-- A special register written by MTS; a write of a read-only one is discarded. -/
def DCore.setSpecial (k : DCore) (idx : Nat) (v : Word) : DCore :=
  match idx with
  | 0 => { k with ml := v }
  | 1 => { k with mh := v }
  | 2 => { k with qt := v }
  | 3 => { k with rm := v }
  | 4 => k.setFlags v
  | 5 => { k with ie := bitOf v 1, trapdz := bitOf v 0 }
  | 6 => { k with tpc := v }
  | 7 => { k with tflags := BitVec.ofNat 32 (b2n (bitOf v 31) * 2 ^ 31 + (({} : DCore).setFlags v).flags.toNat) }
  | 8 => { k with tcause := BitVec.ofNat 32 (fieldOf v 3 0) }
  | 9 => { k with tval := v }
  | 10 => { k with vbase := BitVec.ofNat 32 (fieldOf v 31 10 * 1024) }
  | _ => k

end Sys2Proof.Machine
end

