-- ==== Sys2Proof/Machine/D32.lean ====
section
/-! DEFINITION. The D32 instruction set: its operations, their words, their effect on the core's registers, and the D16 decode table
(R364 to R380). -/

namespace Sys2Proof.Machine

/-- A D32 operation.  `maj` is the major opcode of R365. -/
inductive DOp where
  /-- Majors 0x00 to 0x0C. -/
  | alu (maj : Nat) (s : Bool) (wd wa : Nat) (src : Src)
  /-- MOVW 0x0D, MOVT 0x0E. -/
  | wide (maj wd imm : Nat)
  | shf (s : Bool) (wd wa kind : Nat) (cnt : Src)
  /-- Majors 0x10 to 0x14. -/
  | load (maj wd wa : Nat) (m : AMode)
  /-- Majors 0x15 to 0x17. -/
  | store (maj wd wa : Nat) (m : AMode)
  | branch (l : Bool) (ofs : Nat)
  | branchReg (l : Bool) (wa : Nat)
  | sys (fn imm : Nat)
  | mfs (wd idx : Nat)
  | mts (wa idx : Nat)
  /-- Majors 0x1D to 0x20. -/
  | mulDiv (maj : Nat) (s : Bool) (wa wb : Nat)
  /-- Majors 0x21 to 0x25. -/
  | decimal (maj : Nat) (s : Bool) (wd wa wb : Nat)
deriving DecidableEq, Repr

/-! ## Words (R364, R365) -/

/-- Bits [13:0] of a format A word. -/
def srcBits (s : Bool) (x : Src) : Nat :=
  b2n s * 2 ^ 13 + match x with
    | .reg n => n * 2 ^ 8
    | .imm v => 2 ^ 12 + v

/-- Bits [13:0] of a format SH word. -/
def shiftBits (s : Bool) (kind : Nat) (x : Src) : Nat :=
  b2n s * 2 ^ 13 + kind * 2 ^ 10 + match x with
    | .reg n => n * 2 ^ 6
    | .imm v => 2 ^ 12 + v

/-- Bits [13:0] of a format M word. -/
def modeBits (m : AMode) : Nat :=
  match m with
  | .disp d => d
  | .postInc => 2 ^ 12
  | .preDec => 2 * 2 ^ 12
  | .index wi sh => 3 * 2 ^ 12 + wi * 2 ^ 8 + sh * 2 ^ 6

/-- Bits [27:0] of an operation's word. -/
def DOp.bits (o : DOp) : Nat :=
  match o with
  | .alu maj s wd wa src => maj * 2 ^ 22 + wd * 2 ^ 18 + wa * 2 ^ 14 + srcBits s src
  | .wide maj wd imm => maj * 2 ^ 22 + wd * 2 ^ 18 + imm
  | .shf s wd wa kind cnt => 0x0F * 2 ^ 22 + wd * 2 ^ 18 + wa * 2 ^ 14 + shiftBits s kind cnt
  | .load maj wd wa m => maj * 2 ^ 22 + wd * 2 ^ 18 + wa * 2 ^ 14 + modeBits m
  | .store maj wd wa m => maj * 2 ^ 22 + wd * 2 ^ 18 + wa * 2 ^ 14 + modeBits m
  | .branch l ofs => 0x18 * 2 ^ 22 + b2n l * 2 ^ 21 + ofs
  | .branchReg l wa => 0x19 * 2 ^ 22 + b2n l * 2 ^ 21 + wa * 2 ^ 14
  | .sys fn imm => 0x1A * 2 ^ 22 + fn * 2 ^ 18 + imm
  | .mfs wd idx => 0x1B * 2 ^ 22 + wd * 2 ^ 18 + idx
  | .mts wa idx => 0x1C * 2 ^ 22 + wa * 2 ^ 14 + idx
  | .mulDiv maj s wa wb => maj * 2 ^ 22 + wa * 2 ^ 14 + srcBits s (.reg wb)
  | .decimal maj s wd wa wb => maj * 2 ^ 22 + wd * 2 ^ 18 + wa * 2 ^ 14 + srcBits s (.reg wb)

/-- The word of an operation with guard `g`. -/
def DOp.encode (g : Nat) (o : DOp) : Nat := g * 2 ^ 28 + o.bits

/-- Whether an addressing mode is the reserved one: a base update of W15 (R368). -/
def AMode.bad (m : AMode) (wa : Nat) : Bool :=
  match m with
  | .postInc => wa == 15
  | .preDec => wa == 15
  | _ => false

/-- Whether an operation holds a value that is reserved (R368).  (DEDUCED, unsafe: log entry 92.) -/
def DOp.reserved (o : DOp) : Bool :=
  match o with
  | .load _ _ wa m => m.bad wa
  | .store _ _ wa m => m.bad wa
  | .sys fn _ => decide (4 < fn)
  | .mfs _ idx => decide (13 < idx)
  | .mts _ idx => decide (13 < idx)
  | _ => false

/-- The source of a format A word; none where a reserved bit is set. -/
def srcOf (w : Nat) : Option Src :=
  if bitN w 12 then some (.imm (bitsN w 11 0))
  else if bitsN w 7 0 = 0 then some (.reg (bitsN w 11 8)) else none

/-- The count of a format SH word. -/
def cntOf (w : Nat) : Option Src :=
  if bitN w 12 then (if bitsN w 9 8 = 0 then some (.imm (bitsN w 7 0)) else none)
  else if bitsN w 5 0 = 0 then some (.reg (bitsN w 9 6)) else none

/-- The addressing mode of a format M word. -/
def modeOf (w : Nat) : Option AMode :=
  match bitsN w 13 12 with
  | 0 => some (.disp (bitsN w 11 0))
  | 1 => if bitsN w 11 0 = 0 then some .postInc else none
  | 2 => if bitsN w 11 0 = 0 then some .preDec else none
  | _ => if bitsN w 5 0 = 0 then some (.index (bitsN w 11 8) (bitsN w 7 6)) else none

/-- The operation of a word, none where it is a reserved encoding (R365, R368).  (DEDUCED, unsafe: log entry 92.) -/
def DOp.read (w : Nat) : Option DOp :=
  let maj := bitsN w 27 22
  let wd := bitsN w 21 18
  let wa := bitsN w 17 14
  let s := bitN w 13
  if maj ≤ 0x0C then
    if (0x08 ≤ maj && maj ≤ 0x0A && wa != 0) || (0x0B ≤ maj && wd != 0) then none
    else (srcOf w).map fun x => .alu maj s wd wa x
  else if maj ≤ 0x0E then if bitsN w 17 16 = 0 then some (.wide maj wd (bitsN w 15 0)) else none
  else if maj = 0x0F then (cntOf w).map fun x => .shf s wd wa (bitsN w 11 10) x
  else if maj ≤ 0x14 then (modeOf w).map fun m => .load maj wd wa m
  else if maj ≤ 0x17 then (modeOf w).map fun m => .store maj wd wa m
  else if maj = 0x18 then some (.branch (bitN w 21) (bitsN w 20 0))
  else if maj = 0x19 then
    if bitsN w 20 18 = 0 && bitsN w 13 0 = 0 then some (.branchReg (bitN w 21) wa) else none
  else if maj = 0x1A then if wa = 0 then some (.sys wd (bitsN w 13 0)) else none
  else if maj = 0x1B then if wa = 0 && bitsN w 13 8 = 0 then some (.mfs wd (bitsN w 7 0)) else none
  else if maj = 0x1C then if wd = 0 && bitsN w 13 8 = 0 then some (.mts wa (bitsN w 7 0)) else none
  else if maj ≤ 0x20 then
    if wd = 0 && !bitN w 12 && bitsN w 7 0 = 0 then some (.mulDiv maj s wa (bitsN w 11 8)) else none
  else if maj ≤ 0x25 then
    if !bitN w 12 && bitsN w 7 0 = 0 && (maj ≤ 0x22 || bitsN w 11 8 = 0) then some (.decimal maj s wd wa (bitsN w 11 8)) else none
  else none

/-- The operation of a word without reserved values. -/
def DOp.decode (w : Nat) : Option DOp := (DOp.read w).bind fun o => if o.reserved then none else some o

/-! ## Effects on the core's registers -/

/-- What an operation comes to: it completes; it completes and jumps; it traps with a cause and a TVAL; or it is reserved. -/
inductive DRes where
  | done (k : DCore)
  | jump (k : DCore) (target : Word)
  | trap (k : DCore) (cause tval : Nat)
  | rsvd
deriving DecidableEq, Repr

/-- A result into Wd; into W15 it jumps, and an unaligned target takes the ALIGN trap before any effect (R362).  (DEDUCED, unsafe: log entry 87.) -/
def DCore.result (k k1 : DCore) (wd : Nat) (v : Word) : DRes :=
  if wd = 15 then (if v.toNat % 4 = 0 then .jump k1 v else .trap k 2 v.toNat) else .done (k1.setReg wd v)

/-- Majors 0x00 to 0x0C (R365, R369). -/
def DCore.alu (k : DCore) (maj : Nat) (s : Bool) (wd wa : Nat) (src : Src) : DRes :=
  let a := if maj = 0x0A then 0 else k.reg wa
  let b := k.src src
  let sum := match maj with
    | 0 => adder a b false
    | 1 => adder a b k.c
    | 3 => adder a (~~~b) k.c
    | _ => adder a (~~~b) true
  let arith := maj ≤ 3 || maj = 0x0A || maj = 0x0B
  let res := match maj with
    | 4 => a &&& b
    | 5 => a ||| b
    | 6 => a ^^^ b
    | 7 => a &&& ~~~b
    | 8 => b
    | 9 => ~~~b
    | 0x0C => a &&& b
    | _ => sum.res
  let nz := { k with n := bitOf res 31, z := res == 0 }
  let fl := if arith then { nz with c := sum.c, v := sum.v, nc := if maj ≤ 1 then sum.nc else k.nc } else nz
  let k1 := if s || 0x0B ≤ maj then fl else k
  if 0x0B ≤ maj then .done k1 else k.result k1 wd res

/-- MOVW and MOVT. -/
def DCore.wide (k : DCore) (maj wd imm : Nat) : DRes :=
  let v := if maj = 0x0D then BitVec.ofNat 32 imm else setField (k.reg wd) 31 16 imm
  k.result k wd v

/-- SHF (R370). -/
def DCore.shf (k : DCore) (s : Bool) (wd wa kind : Nat) (cnt : Src) : DRes :=
  let r := shifter kind (k.reg wa) ((k.src cnt).toNat % 256)
  let k1 := if s then { k with n := bitOf r.1 31, z := r.1 == 0, c := r.2.getD k.c } else k
  k.result k1 wd r.1

/-- B and BR (R367). -/
def DCore.branch (k : DCore) (l : Bool) (ofs : Nat) : DRes :=
  let t := BitVec.ofInt 32 ((k.pc : Int) + 4 * signedN 21 ofs)
  .jump (if l then k.setReg 14 (BitVec.ofNat 32 (k.pc + 4)) else k) t
def DCore.branchReg (k : DCore) (l : Bool) (wa : Nat) : DRes :=
  let t := k.reg wa
  if t.toNat % 4 = 0 then .jump (if l then k.setReg 14 (BitVec.ofNat 32 (k.pc + 4)) else k) t else .trap k 2 t.toNat

/-- RTE (R377); with TM = 0 it is reserved (R368).  (DEDUCED, unsafe: log entry 93.) -/
def DCore.rte (k : DCore) : DRes :=
  if !k.tm then .rsvd
  else .jump { k.setFlags k.tflags with ie := bitOf k.tflags 31, tm := false } k.tpc

/-- MFS and MTS (R363). -/
def DCore.mfs (k : DCore) (id wd idx : Nat) : DRes :=
  let r := k.special id idx
  k.result r.2 wd r.1
def DCore.mts (k : DCore) (wa idx : Nat) : DRes := .done (k.setSpecial idx (k.reg wa))

/-- MUL, MULS, DIV and DIVS (R374, R375).  (DEDUCED, safe: log entry 85.) -/
def DCore.mulDiv (k : DCore) (maj wa wb : Nat) : DRes :=
  let a := k.reg wa
  let b := k.reg wb
  if maj ≤ 0x1E then .done { k with mul := some (3, product (maj == 0x1E) a b) }
  else
    let r := quotient (maj == 0x20) a b
    if b = 0 && k.trapdz then .trap { k with dz := true } 4 a.toNat
    else .done { k with dz := k.dz || b == 0, v := r.2.2, div := some (18, r.1, r.2.1) }

/-- BADD, BSUB, DADJ, BTOB and BFROMB (R369, R373). -/
def DCore.decimal (k : DCore) (maj wd wa wb : Nat) : DRes :=
  let a := k.reg wa
  let invalid := DRes.done { k with v := true }
  match maj with
  | 0x21 =>
    match bcdAdd a (k.reg wb) k.d with
    | some (r, d) => k.result { k with z := r == 0, v := false, d := d } wd r
    | none => invalid
  | 0x22 =>
    match bcdSub a (k.reg wb) k.d with
    | some (r, d) => k.result { k with z := r == 0, v := false, d := d } wd r
    | none => invalid
  | 0x23 =>
    let r := decAdjust a k.c k.nc
    k.result { k with z := r.1 == 0, d := r.2 } wd r.1
  | 0x24 =>
    match bcdNum a with
    | some n => k.result { k with z := n == 0, v := false } wd (BitVec.ofNat 32 n)
    | none => invalid
  | _ =>
    if a.toNat ≤ 99999999 then
      let r := bcdOf a.toNat
      k.result { k with z := r == 0, v := false } wd r
    else invalid

/-- An operation that touches no memory and does not sleep or wait; WAIT and BARRIER are done by the device. -/
def DCore.exec (k : DCore) (id : Nat) (o : DOp) : DRes :=
  match o with
  | .alu maj s wd wa src => k.alu maj s wd wa src
  | .wide maj wd imm => k.wide maj wd imm
  | .shf s wd wa kind cnt => k.shf s wd wa kind cnt
  | .branch l ofs => k.branch l ofs
  | .branchReg l wa => k.branchReg l wa
  | .mfs wd idx => k.mfs id wd idx
  | .mts wa idx => k.mts wa idx
  | .mulDiv maj _ wa wb => k.mulDiv maj wa wb
  | .decimal maj _ wd wa wb => k.decimal maj wd wa wb
  | .sys fn imm => match fn with
    | 0 => .trap k 5 imm
    | 1 => k.rte
    | 4 => .trap k 6 k.pc
    | _ => .done k
  | .load _ _ _ _ => .done k
  | .store _ _ _ _ => .done k

/-- The pending product, or quotient and remainder, lands (R374). -/
def DCore.landMul (k : DCore) : DCore :=
  match k.mul with
  | some (_, p) => { k with mul := none, ml := BitVec.ofNat 32 p, mh := BitVec.ofNat 32 (p / 2 ^ 32) }
  | none => k
def DCore.landDiv (k : DCore) : DCore :=
  match k.div with
  | some (_, q, r) => { k with div := none, qt := q, rm := r }
  | none => k

/-- Pending results after `n` cycles: a product of cycle c lands at the end of c + 2, a quotient at the end of c + 17 (R374). -/
def DCore.results (k : DCore) (n : Nat) : DCore :=
  let k := match k.mul with
    | some (left, p) => if left ≤ n then k.landMul else { k with mul := some (left - n, p) }
    | none => k
  match k.div with
  | some (left, x) => if left ≤ n then k.landDiv else { k with div := some (left - n, x) }
  | none => k

/-- Trap entry (R377). -/
def DCore.enter (k : DCore) (cause tpc tval : Nat) : DCore :=
  { k with tflags := BitVec.ofNat 32 (b2n k.ie * 2 ^ 31 + k.flags.toNat), tpc := BitVec.ofNat 32 tpc,
           tcause := BitVec.ofNat 32 cause, tval := BitVec.ofNat 32 tval, tm := true, ie := false,
           pc := (k.vbase.toNat + 0x20 * cause) % 2 ^ 32 }

/-! ## The D16 decode table (R379, R380) -/

/-- The registers of entry `e`. -/
def dtHdr (e : Nat) : Nat := 0xA0800 + 4 * e
def dtUop (e m : Nat) : Nat := 0xA1000 + 0x40 * e + 8 * m
def dtUctl (e m : Nat) : Nat := 0xA1004 + 0x40 * e + 8 * m

/-- The entry that maps a major. -/
def StrandSt.dtEntry (st : StrandSt) (maj : Nat) : Option Nat :=
  if st.bit Reg.CORE_CTL 31 then
    (List.range 16).find? fun e => st.bit (dtHdr e) 31 && st.fld (dtHdr e) 13 8 == maj
  else none

/-- A field of a micro-operation taken from the D16 instruction (SUBST), then named in the hidden registers (TMP). -/
def dtField (uctl iw : Nat) (b hi lo own : Nat) (t : Bool) : Nat :=
  let f := if bitN uctl b && t then bitsN iw hi lo else own
  if bitN uctl (4 + b) then 16 + f % 2 else f

/-- A micro-operation with SUBST and TMP applied: fields Wd, Wa, Wb and IMM12 of the format that has them.  (DEDUCED, unsafe: log entry 96.) -/
def DOp.subst (uctl iw : Nat) (o : DOp) : DOp :=
  let d := fun (own : Nat) => dtField uctl iw 0 21 18 own true
  let a := fun (own : Nat) => dtField uctl iw 1 17 14 own true
  let b := fun (own : Nat) => dtField uctl iw 2 11 8 own true
  let src := fun (x : Src) => match x with
    | .reg n => Src.reg (b n)
    | .imm v => Src.imm (if bitN uctl 3 then bitsN iw 11 0 else v)
  let cnt := fun (x : Src) => match x with
    | .reg n => Src.reg (b n)
    | .imm v => Src.imm v
  match o with
  | .alu maj s wd wa x => .alu maj s (if maj = 0x0B || maj = 0x0C then wd else d wd) (if 0x08 ≤ maj && maj ≤ 0x0A then wa else a wa) (src x)
  | .wide maj wd imm => .wide maj (d wd) imm
  | .shf s wd wa kind c => .shf s (d wd) (a wa) kind (cnt c)
  | .load maj wd wa m => .load maj (d wd) (a wa) m
  | .store maj wd wa m => .store maj (d wd) (a wa) m
  | .mulDiv maj s wa wb => .mulDiv maj s (a wa) (b wb)
  | .decimal maj s wd wa wb => .decimal maj s (d wd) (a wa) (if 0x23 ≤ maj then wb else b wb)
  | o => o

/-- Whether an entry passes the lock's check (R380). -/
def StrandSt.dtOk (st : StrandSt) (e : Nat) : Bool :=
  let maj := st.fld (dtHdr e) 13 8
  decide (0x26 ≤ maj) &&
  ((List.range 16).all fun f => f == e || !st.bit (dtHdr f) 31 || st.fld (dtHdr f) 13 8 != maj) &&
  (List.range (st.fld (dtHdr e) 2 0 + 1)).all fun m =>
    let w := (st.rd (dtUop e m)).toNat
    (DOp.decode w).isSome && !(0x18 ≤ bitsN w 27 22 && bitsN w 27 22 ≤ 0x1C)

/-- The lock's check of the decode table (R380). -/
def StrandSt.dtLock (st : StrandSt) : StrandSt :=
  let bad := (List.range 16).filter fun e => st.bit (dtHdr e) 31 && !st.dtOk e
  bad.foldl (fun (s : StrandSt) e => ((s.putBit (dtHdr e) 31 false).flag Reg.CORE_FLAGS 2).report 0x0F02 .lasting [e]) st

end Sys2Proof.Machine
end

