-- ==== Sys2Proof/Machine/FiligreeOps.lean ====
section
/-! DEFINITION. The Filigree controller and the Bezel (R216 to R237). -/

namespace Sys2Proof.Machine

/-! ## Frames (R216 to R218) -/

/-- DA and SA of Filigree frames. -/
def StrandSt.flgDa (st : StrandSt) : List Byte := leBytes 4 (st.rd Reg.FLG_DA_LO).toNat ++ leBytes 2 (st.fld Reg.FLG_DA_HI 15 0)
def StrandSt.flgSa (st : StrandSt) : List Byte := leBytes 4 (st.rd Reg.FLG_SA_LO).toNat ++ leBytes 2 (st.fld Reg.FLG_SA_HI 15 0)

/-- Whether a frame on port `p` is a Filigree frame of this controller (R216). -/
def StrandSt.isFlgFrame (st : StrandSt) (p : Nat) (bs : List Byte) : Bool :=
  st.flgRole != 0 && st.flgPort p && be16 bs 12 == 0x88B6 && bs.take 6 == st.flgDa

/-- Header fields of a Filigree frame. -/
def flgVer (bs : List Byte) : Nat := (byteAt bs 14).toNat / 16
def flgType (bs : List Byte) : Nat := (byteAt bs 14).toNat % 16
def flgPrioOf (bs : List Byte) : Nat := (byteAt bs 15).toNat / 32
def flgSrc (bs : List Byte) : Nat := (byteAt bs 16).toNat
def flgRowF (bs : List Byte) : Nat := (byteAt bs 17).toNat % 64
def flgWinF (bs : List Byte) : Nat := (byteAt bs 18).toNat % 128
def flgSeq (bs : List Byte) : Nat := be16 bs 20
def flgPlen (bs : List Byte) : Nat := be16 bs 22

/-- Whether the header passes R218.  (DEDUCED, safe: log entry 47.) -/
def flgHdrOk (bs : List Byte) : Bool :=
  flgVer bs == 1 && decide (flgType bs ≤ 3) && (decide (flgSrc bs ≤ 63) || flgSrc bs == 0xFF) && decide (30 + flgPlen bs ≤ bs.length)

/-- Whether port `p` runs at its configured speed (R219). -/
def StrandSt.flgSpeedOk (st : StrandSt) (p : Nat) : Bool := st.linkUp p && st.speedAct p == st.confSpeed p

/-- Ten bytes of a time in 2^-16 ns: seconds and nanoseconds (R217). -/
def flgTime (t : Nat) : List Byte := beBytes 6 (secOf16 t) ++ beBytes 4 (nsOf16 t)

/-- A time of ten bytes in 2^-16 ns. -/
def flgTimeOf (bs : List Byte) (i : Nat) : Nat := beNum ((bs.drop i).take 6) * (10 ^ 9 * 2 ^ 16) + beNum ((bs.drop (i + 6)).take 4) * 2 ^ 16

/-- A Filigree frame built by this controller (R216, R220). -/
def StrandSt.flgBuild (st : StrandSt) (ty prio ch row win seq : Nat) (payload : List Byte) : List Byte :=
  let src := if st.flgRole = 2 then 0xFF else st.flgPos
  let h := st.flgDa ++ st.flgSa ++ beBytes 2 0x88B6 ++
    leBytes 1 (16 + ty) ++ leBytes 1 (prio * 32 + ch * 16) ++ leBytes 1 src ++ leBytes 1 row ++ leBytes 1 win ++ leBytes 1 0 ++
    beBytes 2 seq ++ beBytes 2 payload.length ++ List.replicate 6 0 ++ payload
  h ++ List.replicate (60 - h.length) 0

/-- Cycles by which a frame of the controller's own that is to leave port `p` now has to wait for the frame in transmission. -/
def StrandSt.ownWait (st : StrandSt) (p : Nat) : Nat := st.laneOut (Fin.ofNat 4 p) st.now - st.now

/-- The TX time-stamp, in 2^-16 ns, of a frame whose byte 0 crosses the balls of port `p` as soon as it may (R126, R223). -/
def StrandSt.ownStamp (st : StrandSt) (p : Nat) : Int :=
  ((st.t32 : Int) + st.ownWait p * st.cycle32) / (2 ^ 16 : Nat) + st.txCorr p

/-- Sends bytes on port `p` as a frame of the controller: not in HOLD, and at another speed than the configured one it is counted instead
(R122, R219, R227). -/
def StrandSt.flgSend (st : StrandSt) (p : Nat) (bs : List Byte) : StrandSt :=
  if st.env.hold || !st.linkUp p then st
  else if !st.flgSpeedOk p then st.inc (Reg.FLG_CNT + 8 * 12)
  else
    let q : Fin 4 := Fin.ofNat 4 p
    let f : PtCur := { src := 4, bytes := bs, code := st.speedAct p, start := st.now, out := st.laneOut q st.now, passed := true, flg := 2 }
    st.setChan q { st.chan q with frames := (st.chan q).frames ++ [f] }

/-! ## Loss of alignment and cluster time (R221, R230, R231) -/

/-- lose(c) (R231). -/
def StrandSt.flgLose (st : StrandSt) (cause : Nat) : StrandSt :=
  let st := ((st.put Reg.FLG_STATUS 2 0 1).put Reg.FLG_STATUS 6 4 cause).flag Reg.FLG_FLAGS 3
  (st.inc (Reg.FLG_CNT + 8 * 13)).report 0x0901 .transient [cause]

/-- RESYNC (R231): ignored at position 0 and where nothing is aligned. -/
def StrandSt.flgResync (st : StrandSt) : StrandSt :=
  let st := st.inCyc fun y => { y with resync := true }
  if (st.flgRole = 1 && st.flgPos = 0) || st.flgState < 2 then st else st.flgLose 3

/-- ALIGN_TIMEOUT: no ALIGN has been taken for ALIGN_LOSS matrix periods (R231). -/
def StrandSt.flgAlignTimeout (st : StrandSt) : StrandSt :=
  let idle := st.ct32 / (2 ^ 16 : Nat) - st.flg.alignAt
  if (st.flgRole = 1 && st.flgPos = 0) || st.flgState < 2 ||
      idle < ((st.fld Reg.FLG_ALIGN 27 20 * st.nRows * st.bcLen * 65536 : Nat) : Int) then st
  else st.flgLose 1

/-- The registers that show CT_OFS and CT_RATE (R239). -/
def StrandSt.ctShow (st : StrandSt) : StrandSt :=
  let s := st.flg.ctOfs / (secUnit : Int)
  let sub := (st.flg.ctOfs % (secUnit : Int)).toNat
  let st := st.wr Reg.CT_OFS_NS (BitVec.ofNat 32 (sub / nsUnit))
  let st := st.wr Reg.CT_OFS_S (BitVec.ofNat 32 (wrapN 32 s))
  let st := st.wr Reg.CT_OFS_SH (BitVec.ofNat 32 (sub / 2 ^ 16 % 2 ^ 16 * 65536 + wrapN 16 (s / (2 ^ 32 : Nat))))
  st.wr Reg.CT_RATE (BitVec.ofNat 32 (wrapN 32 st.flg.ctRate))

/-- The strand with the cluster offset and rate changed. -/
def StrandSt.setCt (st : StrandSt) (ofs rate : Int) : StrandSt :=
  ({ st with flg := { st.flg with ctOfs := ofs, ctRate := rate } } : StrandSt).ctShow

/-- A read of CT_NOW_NS by a master (R221). -/
def StrandSt.ctNowRead (st : StrandSt) (m : Nat) : Word × StrandSt :=
  let t := (st.ct32 % ((2 ^ 48 * secUnit : Nat) : Int)).toNat
  (BitVec.ofNat 32 (t % secUnit / nsUnit),
    { st with flg := { st.flg with latch := st.flg.latch.set (0, 0) m (t / secUnit, t / 2 ^ 16 % 2 ^ 16) } })

/-- The Filigree controller leaves OFF when the strand starts (R230, R506). -/
def StrandSt.flgStart (st : StrandSt) : StrandSt :=
  if st.flgRole = 0 || st.flg.refused then st
  else st.put Reg.FLG_STATUS 2 0 (if st.flgRole = 1 && st.flgPos = 0 then 3 else 1)

/-! ## The lock checks (R219, R222) -/

/-- Whether the row sets of two windows are disjoint (R222). -/
def StrandSt.rowsDisjoint (st : StrandSt) (k l : Nat) : Bool :=
  let m := 2 ^ min (st.winRep k) (st.winRep l)
  st.winBase k % m != st.winBase l % m

/-- The checks of one VALID window. -/
def StrandSt.winOk (st : StrandSt) (k : Nat) : Bool :=
  decide (st.flgMargin ≤ st.winStart k) && decide (st.winStart k + st.winLen k + st.flgGuard ≤ st.bcLen) &&
  decide (2 ^ st.winRep k ≤ st.nRows) && decide (st.winBase k < 2 ^ st.winRep k) &&
  (st.winKind k != 2 || decide (1000 ≤ st.winLen k)) && (st.winKind k != 3 || decide (4000 ≤ st.winLen k))

/-- The checks of two VALID windows k < l. -/
def StrandSt.winPairOk (st : StrandSt) (k l : Nat) : Bool :=
  let e := fun j => st.winStart j + st.winLen j + st.flgGuard
  let dis := st.rowsDisjoint k l
  (decide (st.winStart k < st.winStart l) || (st.winStart k == st.winStart l && dis)) &&
  (dis || decide (e k ≤ st.winStart l) || decide (e l ≤ st.winStart k))

/-- Every pair of a rising list of windows. -/
def StrandSt.winPairsOk (st : StrandSt) : List Nat → Bool
  | [] => true
  | k :: ks => ks.all (st.winPairOk k) && st.winPairsOk ks

/-- All checks of R219 and R222. -/
def StrandSt.flgCfgOk (st : StrandSt) : Bool :=
  let ps := st.flgPorts
  let a := st.fld Reg.FLG_CTL 13 12
  let b := st.fld Reg.FLG_CTL 15 14
  let ws := st.winList
  ps.all (fun p => st.ptRx p == 0 && st.ptTx p == 0 && !st.bit (Reg.MAC_PREEMPT p) 0 &&
    (st.confSpeed p == 2 || st.confSpeed p == 3) && ps.all fun q => st.confSpeed p == st.confSpeed q) &&
  (st.flgRole != 2 || st.env.coupler) &&
  (st.flgRole != 1 || ps == [a] || (a != b && st.flgPort a && st.flgPort b && ps.length == 2)) &&
  decide (2 * st.flgMargin ≤ st.flgGuard) && ws.all st.winOk && st.winPairsOk ws &&
  (ws.any fun k => st.winKind k == 2) && (ws.all fun k => st.winKind k != 2 || st.winOwner k == 0) &&
  (ws.any fun k => st.winKind k == 3)

/-- Filigree's part of the configuration lock (R219). -/
def StrandSt.flgLock (st : StrandSt) : StrandSt :=
  if st.flgRole = 0 || st.flgCfgOk then st
  else (({ st with flg := { st.flg with refused := true } } : StrandSt).flag Reg.FLG_FLAGS 0).report 0x0903 .lasting

/-! ## Rows and windows (R222 to R225, R230, R234) -/

/-- Ends of Bezel fences as a row 0 starts (R234). -/
def StrandSt.fenceCount (st : StrandSt) (p : Nat) : StrandSt :=
  if !st.bit (Reg.PORT_STAT p) 31 then st
  else
    let left := st.fld (Reg.PORT_STAT p) 23 16 - 1
    let st := st.put (Reg.PORT_STAT p) 23 16 left
    if left = 0 then (st.putBit (Reg.PORT_STAT p) 31 false).report 0x0906 .transient [p] else st

/-- The sum of the counts of the last 64 basic cycles. -/
def StrandSt.violSum (st : StrandSt) (p : Nat) : Nat := (st.flg.hist.get [] p).sum

/-- The basic cycle that a cluster time in 2^-16 ns lies in. -/
def StrandSt.cycleOf (st : StrandSt) (ct : Int) : Int := ct / ((st.bcLen * 65536 : Nat) : Int)

/-- ROW_START: a basic cycle starts that has not been taken yet: the slew, the row, the Bezel's history and fences (R230, R234). -/
def StrandSt.rowStart (st : StrandSt) : StrandSt :=
  let n := st.cycleOf (st.ct32 / (2 ^ 16 : Nat))
  if st.flgState = 0 || st.flg.cycle = some n then st
  else
    let lim : Int := (st.fld Reg.FLG_SLEW 15 0 * 65536 : Nat)
    let d := max (-lim) (min lim st.flg.slew)
    let st := if st.flgRole = 1 && st.flgPos = 0 then st
      else ({ st with flg := { st.flg with slew := st.flg.slew - d } } : StrandSt).setCt (st.flg.ctOfs + d * 65536) st.flg.ctRate
    let hist := (List.range 4).foldl (fun (t : Tab (List Nat)) p =>
      if (st.flg.hist.get [] p).isEmpty then t else t.set [] p ((0 :: t.get [] p).take 64)) st.flg.hist
    let st := { st with flg := { st.flg with seen := [], taken := [], hist := hist, cycle := some n } }
    let st := (List.range 4).foldl (fun (s : StrandSt) p =>
      if (s.flg.hist.get [] p).isEmpty then s else s.put (Reg.PORT_STAT p) 7 0 (s.violSum p)) st
    if st.rowOf (n * ((st.bcLen * 65536 : Nat) : Int)) = 0 then (List.range 4).foldl (fun s p => s.fenceCount p) st else st

/-- Whether this controller sends DATA in window `k` of the current row (R224). -/
def StrandSt.winMine (st : StrandSt) (k : Nat) : Bool :=
  st.flgRole == 1 && st.flgState == 3 && st.winValid k && decide (st.winKind k ≤ 1) && st.bit (Reg.WIN_W2 k) 9

/-- Whether the present time lies `lead` ns before the start of window `k`, at the latest within a cycle of that start: a window of the row that
time leads to (R222, R224, R225). -/
def StrandSt.winNear (st : StrandSt) (k lead : Nat) : Bool :=
  let ct := st.ct32 / (2 ^ 16 : Nat)
  let s := ct + ((lead * 65536 : Nat) : Int)
  st.winInRow k (st.rowOf s) && decide (((st.winStart k * 65536 : Nat) : Int) ≤ st.offOf s) &&
    decide (st.offOf s ≤ ((st.winStart k + lead + 2) * 65536 : Nat))

/-- WIN_STAGE: from START − 5,000 ns the ring the window names is asked for its head frame (R224, R292). -/
def StrandSt.winStage (st : StrandSt) (k : Nat) : StrandSt :=
  if !st.winMine k || !st.winNear k 5000 then st
  else
    let r := st.fld (Reg.WIN_W2 k) 13 10
    if st.fld (Reg.TX_RING_CFG r) 31 30 = 1 then
      { st with dma := { st.dma with rings := st.dma.rings.upd {} r fun g => { g with asked := true } } }
    else st

/-- Whether window `k` opens now: it belongs to the current row, the time lies in its open part, and it has not opened before in this basic cycle
(R222 to R224). -/
def StrandSt.winOpens (st : StrandSt) (k : Nat) : Bool :=
  let ct := st.ct32 / (2 ^ 16 : Nat)
  let off := st.offOf ct
  st.flg.opened != some (st.cycleOf ct, k) && st.winValid k && st.winInRow k st.flgRow && decide (((st.winStart k * 65536 : Nat) : Int) ≤ off) &&
    decide (off < ((st.winStart k + st.winLen k) * 65536 : Nat))

/-- Whether window `k` is the first RTT window of the matrix period (R223, R229). -/
def StrandSt.firstRtt (st : StrandSt) (k : Nat) : Bool :=
  let at_ := fun (j : Nat) => st.winBase j * st.bcLen + st.winStart j
  st.flgRow == st.winBase k && st.winList.all fun j => st.winKind j != 3 || decide (at_ k ≤ at_ j)

/-- The payload of a DATA frame that fits its window on every port (R224, R235). -/
def StrandSt.winFits (st : StrandSt) (k : Nat) (ports : List Nat) (pl : List Byte) : Bool :=
  ports.all fun p => decide (pl.length + 34 ≤ st.maxLen p) && (st.winKind k != 1 || decide (pl.length + 34 ≤ 2048))

/-- A window of this node's own that stays empty (R224). -/
def StrandSt.winEmpty (st : StrandSt) : StrandSt := (st.inc (Reg.FLG_CNT + 8 * 6)).flag Reg.FLG_FLAGS 2

/-- A request for the cable delay on port `p` (R228). -/
def StrandSt.rttSend (st : StrandSt) (ch row win p : Nat) : StrandSt :=
  let q := (st.flg.seq + 1) % 65536
  let t1 := st.ownStamp p
  let st := { st with flg := { st.flg with seq := q, req := st.flg.req.set none p (some (q, t1)) } }
  st.flgSend p (st.flgBuild 2 0 ch row win q [])

/-- The strand with window `k` opened in this basic cycle. -/
def StrandSt.winMark (st : StrandSt) (k : Nat) : StrandSt :=
  { st with flg := { st.flg with opened := some (st.cycleOf (st.ct32 / (2 ^ 16 : Nat)), k) } }

/-- What an open window `k` sends (R223, R224, R229); in HOLD a node sends nothing (R237). -/
def StrandSt.winSend (st : StrandSt) (k : Nat) : StrandSt :=
  let row := st.flgRow
  let a := st.fld Reg.FLG_CTL 13 12
  let b := st.fld Reg.FLG_CTL 15 14
  let ports := if st.flgRole = 2 then st.flgPorts else if st.flgPort b && b != a then [a, b] else [a]
  let ch := fun p => if !st.flgLine && p == b && b != a then 1 else 0
  let q := (st.flg.seq + 1) % 65536
  if st.env.hold then st
  else match st.winKind k with
    | 2 =>
      if st.flgRole = 1 && st.flgPos = 0 then
        let body := fun p => flgTime (st.ctOf16 (st.ownStamp p)).toNat ++ beBytes 8 0
        let st1 := { st with flg := { st.flg with seq := q } }
        (ports.foldl (fun s p => s.flgSend p (s.flgBuild 1 (s.winPrio k) (ch p) row k q (body p))) st1).inc Reg.FLG_CNT
      else st
    | 3 => if st.flgState = 3 && st.firstRtt k then ports.foldl (fun (s : StrandSt) p => s.rttSend (ch p) row k p) st else st
    | _ =>
      if !st.winMine k then st
      else
        let r := st.fld (Reg.WIN_W2 k) 13 10
        match st.flg.staged.get none r with
        | some (pl, qseq, ts, since) =>
          let intime := decide (st.offOf since ≤ ((st.winStart k : Int) - 200) * 65536 || st.cycleOf since < st.cycleOf (st.ct32 / (2 ^ 16 : Nat)))
          if !intime then st.winEmpty
          else
            let stamp := if ts then some ((st.ownStamp a).toNat, st.tsFlags) else none
            let note : TxNote := { ring := r, qseq := qseq, ts := stamp }
            let st1 := { st with flg := { st.flg with staged := st.flg.staged.set none r none } }
            if st.winFits k ports pl then
              let st1 := { st1 with flg := { st1.flg with seq := q }, sw := { st1.sw with notes := st1.sw.notes ++ [note] } }
              (ports.foldl (fun s p => s.flgSend p (s.flgBuild 0 (s.winPrio k) (ch p) row k q pl)) st1).inc (Reg.FLG_CNT + 8 * 5)
            else ({ st1 with sw := { st1.sw with notes := st1.sw.notes ++ [{ note with ts := none }] } } : StrandSt).winEmpty
        | none => st.winEmpty

/-- WIN_START: the window opens, once in its basic cycle (R223, R224). -/
def StrandSt.winOpen (st : StrandSt) (k : Nat) : StrandSt :=
  if !st.winOpens k || st.flgState = 0 then st else (st.winMark k).winSend k

/-- WIN_ACTION: from START − ACT_LEAD of a window in the current row, in HOLD too (R225, R237). -/
def StrandSt.winAct (st : StrandSt) (k : Nat) : StrandSt :=
  if st.winValid k && st.bit (Reg.WIN_W2 k) 8 && st.flgState != 0 && st.winNear k (st.fld (Reg.WIN_W3 k) 23 0) then
    st.evtSet (st.fld (Reg.WIN_W2 k) 7 4) (st.fld (Reg.WIN_W2 k) 3 2)
  else st

/-! ## Alignment (R230 to R232) -/

/-- The window that holds a cluster time (2^-16 ns), widened by MARGIN at both ends (R232). -/
def StrandSt.winAt (st : StrandSt) (s : Int) : Option Nat :=
  let m : Int := (st.flgMargin * 65536 : Nat)
  let off := st.offOf s
  st.winList.find? fun k => st.winInRow k (st.rowOf s) &&
    decide (((st.winStart k * 65536 : Nat) : Int) - m ≤ off) &&
    decide (off < (((st.winStart k + st.winLen k) * 65536 : Nat) : Int) + m)

/-- When a frame arrived: its RX time-stamp, in strand time and in cluster time as it stood then, in 2^-16 ns (R126, R230). -/
structure FlgWhen where
  r : Int
  ct : Int
deriving DecidableEq, Repr

/-- The times of a frame whose byte 0 crossed the boundary of port `p` `age` cycles ago. -/
def StrandSt.flgWhen (st : StrandSt) (p age : Nat) : FlgWhen := ⟨st.rxStampAt p age, st.ctOf16 (st.rxStampAt p age)⟩

/-- The times of a frame whose last byte crosses the boundary of port `p` now. -/
def StrandSt.flgWhenEnd (st : StrandSt) (p : Nat) (bs : List Byte) : FlgWhen := st.flgWhen p (byteCycle (st.speedAct p) 0 (bs.length + 3))

/-- The implied launch time of a frame that arrived on port `p`, in cluster time (R232). -/
def StrandSt.launchTime (st : StrandSt) (p : Nat) (t : FlgWhen) : Int := t.ct - ((st.rd (Reg.LINK_DELAY p)).toNat : Nat)

/-- Whether an ALIGN frame on port `p` is taken for alignment (R230); one in the cycle of a RESYNC is discarded (R231). -/
def StrandSt.alignTaken (st : StrandSt) (p : Nat) (bs : List Byte) (t : FlgWhen) : Bool :=
  let s := st.launchTime p t
  st.bit (Reg.PORT_STAT p) 30 && (st.flgRole != 2 || st.fld Reg.BZ_CFG 25 24 == p) && !st.thisCyc.resync &&
  (st.flgState == 1 ||
    (match st.winAt s with
     | some k => st.winKind k == 2 && k == flgWinF bs && st.rowOf s == flgRowF bs
     | none => false))

/-- `align` of R230, its quotient rounded down.  (DEDUCED, unsafe: log entry 43.) -/
def StrandSt.alignApply (st : StrandSt) (p : Nat) (bs : List Byte) (t : FlgWhen) : StrandSt :=
  let r := t.r
  let e : Int := (flgTimeOf bs 30 : Int) + beNum ((bs.drop 40).take 8) + (st.rd (Reg.LINK_DELAY p)).toNat - t.ct
  let st := { st with flg := { st.flg with alignAt := st.ct32 / (2 ^ 16 : Nat) } }
  let st := st.wr Reg.ALIGN_E (BitVec.ofNat 32 (satN 32 e))
  let done := fun (s : StrandSt) => ({ s with flg := { s.flg with rLast := r } } : StrandSt).inc (Reg.FLG_CNT + 8)
  if st.flgState = 1 then
    let st := st.setCt (st.flg.ctOfs + e * 65536) 0
    let st := { st with flg := { st.flg with good := 0, bad := 0 } }
    done (st.put Reg.FLG_STATUS 2 0 2)
  else if st.fld Reg.FLG_ALIGN 15 0 * 65536 < e.natAbs then
    let st := ({ st with flg := { st.flg with bad := st.flg.bad + 1 } } : StrandSt).inc (Reg.FLG_CNT + 8 * 2)
    if 3 ≤ st.flg.bad then st.flgLose 2 else st
  else
    let dr := 4 * (r - st.flg.rLast)
    let rate := if dr = 0 then st.flg.ctRate else max (-2147483) (min 2147483 (st.flg.ctRate + e * (2 ^ 32 : Nat) / dr))
    let st := st.setCt st.flg.ctOfs rate
    let st := { st with flg := { st.flg with bad := 0, slew := e } }
    if st.flgState = 2 then
      let st := { st with flg := { st.flg with good := st.flg.good + 1 } }
      done (if st.fld Reg.FLG_ALIGN 31 28 ≤ st.flg.good then st.put Reg.FLG_STATUS 2 0 3 else st)
    else done st

/-- ALIGN_RX: an ALIGN frame's last byte on port `p` (R230, R231). -/
def StrandSt.alignRx (st : StrandSt) (p : Nat) (bs : List Byte) (t : FlgWhen) : StrandSt :=
  if st.flgState = 0 then st
  else if st.flgRole = 1 && st.flgPos = 0 then
    let st1 := st.flag Reg.FLG_FLAGS 7
    if st1.flg.conflictLogged then st1
    else ({ st1 with flg := { st1.flg with conflictLogged := true } } : StrandSt).report 0x0905 .lasting
  else if st.alignTaken p bs t then st.alignApply p bs t
  else st

/-! ## Link delay (R228, R229) -/

/-- RTT_REQ_SEND: every 1 ms a request on every Filigree port while COLD or SYNCING (R229). -/
def StrandSt.rttReqSend (st : StrandSt) : StrandSt :=
  let due := match st.flg.reqAt with
    | some t => decide (t + 1000000 * 65536 ≤ (st.t16 : Int) ∨ (st.t16 : Int) < t)
    | none => true
  if (st.flgState != 1 && st.flgState != 2) || !due || st.env.hold then st
  else
    let st := { st with flg := { st.flg with reqAt := some st.t16 } }
    st.flgPorts.foldl (fun (s : StrandSt) p => s.rttSend 0 0 0 p) st

/-- An RTT_REQ has arrived on port `p`: a response is owed, in every state but OFF (R228). -/
def StrandSt.rttReqRx (st : StrandSt) (p : Nat) (bs : List Byte) (t : FlgWhen) : StrandSt :=
  if st.flgState = 0 then st
  else { st with flg := { st.flg with owed := st.flg.owed ++ [(p, flgSeq bs, t.r)] } }

/-- RTT_RESP_SEND: the oldest response owed on port `p` goes out 2,000 ns past the request's arrival or later, with T3 inserted; in HOLD it is
not sent and stays owed (R228, R237).  (DESIGN CHOICE, unsafe: log entry 48.) -/
def StrandSt.rttRespSend (st : StrandSt) (p : Nat) : StrandSt :=
  match st.flg.owed.find? fun o => o.1 == p with
  | none => st
  | some o =>
    if st.env.hold || (st.t16 : Int) < o.2.2 + 2000 * 65536 then st
    else
      let q := (st.flg.seq + 1) % 65536
      let t3 := (st.ownStamp p).toNat
      let st1 := { st with flg := { st.flg with owed := st.flg.owed.erase o, seq := q } }
      st1.flgSend p (st1.flgBuild 3 0 0 0 0 q (flgTime o.2.2.toNat ++ flgTime t3 ++ beBytes 2 o.2.1))

/-- RTT_MEASURE: an RTT_RESP arrives on port `p`; quotients are rounded down (R228, R229).  (DEDUCED, unsafe: log entry 43.) -/
def StrandSt.rttMeasure (st : StrandSt) (p : Nat) (bs : List Byte) (t : FlgWhen) : StrandSt :=
  match st.flg.req.get none p with
  | none => st
  | some (q, t1) =>
    if be16 bs 50 != q || st.flgState = 0 then st
    else
      let m := ((t.r - t1) - ((flgTimeOf bs 40 : Int) - flgTimeOf bs 30)) / 2
      let st := { st with flg := { st.flg with req := st.flg.req.set none p none } }
      let d : Int := (st.rd (Reg.LINK_DELAY p)).toNat
      let done := fun (s : StrandSt) (v : Int) =>
        (s.wr (Reg.LINK_DELAY p) (BitVec.ofNat 32 (wrapN 32 v))).inc (Reg.FLG_CNT + 8 * 3)
      if !st.bit (Reg.PORT_STAT p) 30 then done (st.putBit (Reg.PORT_STAT p) 30 true) m
      else if st.fld Reg.FLG_SLEW 31 16 * 65536 < (m - d).natAbs then
        (st.inc (Reg.FLG_CNT + 8 * 4)).flag Reg.FLG_FLAGS 1
      else done st (d + (m - d) / 4)

/-- RTT_ABANDON: no response has come within 100 µs (R229). -/
def StrandSt.rttAbandon (st : StrandSt) (p : Nat) : StrandSt :=
  match st.flg.req.get none p with
  | some (_, t1) => if (st.t16 : Int) < t1 + 100000 * 65536 then st else { st with flg := { st.flg with req := st.flg.req.set none p none } }
  | none => st

/-! ## Forwarding (R226, R227) -/

/-- One forwarded copy on egress port `q` of a frame whose byte 0 came in on `p` at cycle `start`: cut-through, 20 byte times and 16 cycles
later, or after a switch frame in the way (R226, R227, R136); CORR of an ALIGN grows by the cable delay and the residence.  None in HOLD.  (DESIGN
CHOICE, unsafe: log entry 46.) -/
def StrandSt.flgForward1 (st : StrandSt) (p : Nat) (bs : List Byte) (bad lost : Bool) (start nominal : Nat) (q : Fin 4) : StrandSt :=
  if st.env.hold || !st.flgSpeedOk q then st
  else
    let code := st.speedAct q
    let rf := latIn (st.macMode p) (st.speedAct p) + latOut (st.macMode q) code + (2 * tByte10 (st.speedAct p) + 16) * 65536
    let corr := beNum ((bs.drop 40).take 8) + (st.rd (Reg.LINK_DELAY p)).toNat + rf
    let bs := if flgType bs = 1 then overlay bs 40 (beBytes 8 (corr % 2 ^ 64)) else bs
    let out := st.laneOut q nominal
    let st := if nominal < out then (st.inc (Reg.FLG_CNT + 8 * 9)).flag Reg.FLG_FLAGS 6 else st
    let f : PtCur := { src := p, bytes := bs, code := code, start := start, out := out, bad := bad, lost := lost, passed := true, flg := 1 }
    if 2048 < min (bs.length + 4) ((out - nominal) * 10 / tByte10 code) then st
    else st.setChan q { st.chan q with frames := (st.chan q).frames ++ [f] }

/-- The cycle in which a forwarded frame's byte 0 leaves, nominally (R226). -/
def StrandSt.flgNominal (st : StrandSt) (p start : Nat) : Nat := start + 2 * tByte10 (st.speedAct p) + 16

/-- The copies of a forwarded frame: line nodes to the other port, couplers to every other port (R220, R233). An ALIGN is not
forwarded from a port that has not been measured (R229). -/
def StrandSt.flgForward (st : StrandSt) (p : Nat) (bs : List Byte) (bad lost : Bool) (start nominal : Nat) : StrandSt :=
  if flgType bs = 1 && !st.bit (Reg.PORT_STAT p) 30 then st
  else (st.flgPorts.filter (· != p)).foldl (fun s q => s.flgForward1 p bs bad lost start nominal (Fin.ofNat 4 q)) st

/-- Delivery of a DATA frame to the switch as a received frame of its port with class RX_Q (R220). -/
def StrandSt.flgDeliver (st : StrandSt) (p : Nat) (bs : List Byte) (t : FlgWhen) : StrandSt :=
  let g := parseTags bs
  st.forward 0 { bytes := bs, info := st.rxMeta p g (st.vlanOf p g) (st.fld Reg.FLG_CTL 10 8) (t.r.toNat, st.tsFlags) }

/-- A DATA frame at a node, at its end: delivered, or discarded as the second copy of two channels (R220). -/
def StrandSt.flgNodeData (st : StrandSt) (p : Nat) (bs : List Byte) (t : FlgWhen) : StrandSt :=
  if !st.flgLine && st.flgPorts.length == 2 && st.flg.seen.contains (flgSrc bs, flgSeq bs) then st.inc (Reg.FLG_CNT + 8 * 7)
  else ({ st with flg := { st.flg with seen := (flgSrc bs, flgSeq bs) :: st.flg.seen } } : StrandSt).flgDeliver p bs t

/-- FLG_DATA_RX: the last byte of a good DATA frame at a node that RX_FRAME has not brought (R218 to R220).  (DESIGN CHOICE, safe: log entry
188.) -/
def StrandSt.flgDataRx (st : StrandSt) (p : Nat) (bs : List Byte) : StrandSt :=
  if st.flgRole != 1 || st.flgState = 0 then st
  else if !flgHdrOk bs || !st.flgSpeedOk p then st.inc (Reg.FLG_CNT + 8 * 12)
  else
    let age := byteCycle (st.speedAct p) 0 (bs.length + 3)
    let start := st.now - age
    let st := if st.flgLine then st.flgForward p bs false false start (max st.now (st.flgNominal p start)) else st
    st.flgNodeData p bs (st.flgWhenEnd p bs)

/-! ## The Bezel (R232 to R236) -/

/-- A violation on port `p` with a cause and SRC_POS (R234). -/
def StrandSt.violation (st : StrandSt) (p cause src : Nat) : StrandSt :=
  let h := st.flg.hist.get [] p
  let h' := match h with
    | [] => [1]
    | n :: rest => min 15 (n + 1) :: rest
  let st := { st with flg := { st.flg with hist := st.flg.hist.set [] p h' } }
  let st := (st.put (Reg.PORT_STAT p) 7 0 (st.violSum p)).inc (Reg.FLG_CNT + 8 * (18 + p))
  let st := st.wr (Reg.LAST_VIOL p) (BitVec.ofNat 32 (min 0x3F src * 65536 + cause))
  if st.fld Reg.BZ_CFG 15 8 ≤ st.violSum p && !st.bit (Reg.PORT_STAT p) 31 then
    let st := { st with flg := { st.flg with hist := st.flg.hist.set [] p [] } }
    let st := st.wr (Reg.PORT_STAT p) (setField (setField (setBit (st.rd (Reg.PORT_STAT p)) 31 true) 23 16 (st.fld Reg.BZ_CFG 23 16)) 7 0 0)
    ((st.flag Reg.FLG_FLAGS 4).inc (Reg.FLG_CNT + 8 * (26 + p))).report 0x0902 .lasting [p, min 0x3F src]
  else st

/-- The deviation record of a frame (R236). -/
def StrandSt.devRecord (st : StrandSt) (p : Nat) (bs : List Byte) (s : Int) : StrandSt :=
  let n := flgSrc bs
  let k := flgWinF bs
  if 63 < n || st.fld (Reg.BZ_NODE_PORT (n / 16)) (2 * (n % 16) + 1) (2 * (n % 16)) != p || !st.winValid k ||
      (st.winKind k != 0 && st.winKind k != 2) || st.winOwner k != n || !st.winInRow k (flgRowF bs) then st
  else
    let mp : Int := (st.bcLen * st.nRows * 65536 : Nat)
    let nominal : Int := ((flgRowF bs * st.bcLen + st.winStart k) * 65536 : Nat)
    let d0 := (s - nominal + mp / 2) % mp - mp / 2
    let dev := max (-(32768 * 65536 : Int)) (min d0 (32768 * 65536 - 1))
    let first := st.fld (Reg.DEV_STAT n) 15 0 = 0
    let w := BitVec.ofNat 32 (wrapN 32 dev)
    let st := st.wr (Reg.DEV_LAST n) w
    let st := if first || dev < signedN 32 (st.rd (Reg.DEV_MIN n)).toNat then st.wr (Reg.DEV_MIN n) w else st
    let st := if first || signedN 32 (st.rd (Reg.DEV_MAX n)).toNat < dev then st.wr (Reg.DEV_MAX n) w else st
    let st := st.put (Reg.DEV_STAT n) 15 0 (min 65535 (st.fld (Reg.DEV_STAT n) 15 0 + 1))
    if st.fld Reg.BZ_DEV_WARN 15 0 * 65536 < dev.natAbs && !st.bit (Reg.DEV_STAT n) 31 then
      ((st.putBit (Reg.DEV_STAT n) 31 true).flag Reg.FLG_FLAGS 5).report 0x0904 .transient [n, wrapN 32 dev]
    else st

/-- The strand with the frame in reception on port `p` replaced. -/
def StrandSt.setArriving (st : StrandSt) (p : Nat) (f : Option BzFrame) : StrandSt :=
  { st with flg := { st.flg with arriving := st.flg.arriving.set none p f } }

/-- The strand with the frame held for port `p` replaced. -/
def StrandSt.setArb (st : StrandSt) (p : Nat) (f : Option BzFrame) : StrandSt :=
  { st with flg := { st.flg with arb := st.flg.arb.set none p f } }

/-- Everything after acceptance: an arbitrating frame is held for its port, others are forwarded at once (R226, R233, R235). -/
def StrandSt.bezelAccept (st : StrandSt) (p k : Nat) (bs : List Byte) (bad lost : Bool) (s : Int) (start stop : Nat) : StrandSt :=
  let st := ({ st with flg := { st.flg with taken := (p, k) :: st.flg.taken } } : StrandSt).inc (Reg.FLG_CNT + 8 * (14 + p))
  let f : BzFrame := { win := k, start := start, stop := stop, cycle := st.cycleStart s, frame := { bytes := bs } }
  let st := st.setArriving p (some f)
  if st.winKind k = 1 then st.setArb p (some f) else st.flgForward p bs bad lost start (max st.now (st.flgNominal p start))

/-- The decision of the Bezel on a frame of coupler port `p` (R233): the first row that applies; the Boolean says whether it was accepted.
`start` and `stop` are the cycles in which its first and last byte cross the boundary.  (DESIGN CHOICE, unsafe: log entry 46.) -/
def StrandSt.bezelJudge (st : StrandSt) (p : Nat) (bs : List Byte) (bad lost : Bool) (t : FlgWhen) (start stop : Nat) : Bool × StrandSt :=
  if st.flgRole != 2 || st.flgState = 0 || !st.flgPort p then (false, st)
  else if !st.flgSpeedOk p then (false, st.inc (Reg.FLG_CNT + 8 * 12))
  else
    let s := st.launchTime p t
    let ok := flgHdrOk bs
    let src := flgSrc bs
    let st0 := st.setArriving p none
    let st0 := if ok && flgType bs ≤ 1 then st0.devRecord p bs s else st0
    let v := fun (c : Nat) => (false, st0.violation p c (if ok then src else 0x3F))
    let rtt := ok && (flgType bs == 2 || flgType bs == 3)
    if st0.bit (Reg.PORT_STAT p) 31 then (false, st0.inc (Reg.FLG_CNT + 8 * (22 + p)))
    else if st0.flgState != 3 then
      if ok && flgType bs = 1 && st0.fld Reg.BZ_CFG 25 24 = p then
        (false, st0.flgForward p bs bad lost start (max st.now (st.flgNominal p start)))
      else (false, st0.inc (Reg.FLG_CNT + 8 * 11))
    else if !ok then v 1
    else if rtt then (false, st0)
    else match st0.winAt s with
      | none => v 2
      | some k =>
        let node := st0.fld (Reg.BZ_NODE_PORT (st0.winOwner k / 16)) (2 * (st0.winOwner k % 16) + 1) (2 * (st0.winOwner k % 16))
        let kind := st0.winKind k
        if (kind = 0 || kind = 2) && (p != node || src != st0.winOwner k) then v 3
        else if (kind ≤ 1 && flgType bs != 0) || (kind = 2 && flgType bs != 1) || kind = 3 then v 4
        else if flgRowF bs != st0.rowOf s || flgWinF bs != k then v 5
        else if st0.flg.taken.contains (p, k) then v 6
        else (true, st0.bezelAccept p k bs bad lost s start stop)

/-- What a coupler does at the end of a frame without error: an accepted DATA frame goes to the switch with LOCAL_RX, ALIGN is applied, an RTT
frame answered or measured on every port and in every state but OFF (R220, R228, R230, R233).  (DESIGN CHOICE, safe: log entry 188.) -/
def StrandSt.couplerEnd (st : StrandSt) (p : Nat) (bs : List Byte) (accepted : Bool) (t : FlgWhen) : StrandSt :=
  if !flgHdrOk bs || !st.flgSpeedOk p then st
  else match flgType bs with
    | 0 => if accepted && st.bit Reg.FLG_CTL 11 then st.flgDeliver p bs t else st
    | 1 => st.alignRx p bs t
    | 2 => st.rttReqRx p bs t
    | _ => st.rttMeasure p bs t

/-- BEZEL_DECIDE: byte 18 of a frame that RX_FRAME has not brought, on coupler port `p` (R233); its end follows at once but for the cut that may
come before.  (DESIGN CHOICE, safe: log entry 188.) -/
def StrandSt.bezelDecide (st : StrandSt) (p : Nat) (bs : List Byte) (bad : Bool) : StrandSt :=
  let age := byteCycle (st.speedAct p) 0 18
  let t := st.flgWhen p age
  let start := st.now - age
  let r := st.bezelJudge p bs bad false t start (byteCycle (st.speedAct p) start (bs.length + 3))
  if bad || st.flgRole != 2 || st.flgState = 0 || !st.flgPort p then r.2 else r.2.couplerEnd p bs r.1 t

/-- BEZEL_CUT: an accepted frame is still arriving on port `p` at the implied time START + LEN + GUARD: its copies end with the inverted CRC of
the bytes sent, and one held for arbitration is dropped; one past its 2,048th byte is OVERLONG (R234, R235). -/
def StrandSt.bezelCut (st : StrandSt) (p : Nat) : StrandSt :=
  match st.flg.arriving.get none p with
  | none => st
  | some f =>
    let limit := f.cycle + ((st.winStart f.win + st.winLen f.win + st.flgGuard) * 65536 : Nat)
    if f.stop ≤ st.now || st.ct32 / (2 ^ 16 : Nat) - ((st.rd (Reg.LINK_DELAY p)).toNat : Nat) < limit then st
    else
      let st := st.setArriving p none
      let held := st.winKind f.win = 1
      let hit := fun (g : PtCur) => g.flg == 1 && g.src == p
      let st := if held then st.setArb p none
        else ([0, 1, 2, 3] : List (Fin 4)).foldl (fun (s : StrandSt) q =>
          let fs := (s.chan q).frames
          let s := s.setChan q { s.chan q with frames := fs.filter fun g => !hit g }
          (fs.filter hit).foldl (fun (s : StrandSt) g => s.ptBreak q g (s.ptSent g)) s) st
      let long := held && decide (2049 ≤ (st.now - f.start) * 10 / tByte10 (st.speedAct p))
      let q : Fin 4 := Fin.ofNat 4 p
      let st := match (st.port q).rx with
        | some r => st.setPort q { st.port q with rx := some { r with rule := r.rule.map fun (x : Nat × Nat) => (1, x.2) } }
        | none => st
      st.violation p (if long then 8 else 7) (flgSrc f.frame.bytes)

/-- The held frames in descending PRIO, ties in ascending port (R235). -/
def StrandSt.arbOrder (st : StrandSt) : List (Nat × BzFrame) :=
  let held := (List.range 4).filterMap fun p => (st.flg.arb.get none p).map fun f => (p, f)
  (List.range 8).reverse.flatMap fun prio => held.filter fun h => flgPrioOf h.2.frame.bytes == prio

/-- Forwards held frames one after the other from `off` cycles from now; one that cannot end in time is lost (R235). -/
def StrandSt.arbRun (st : StrandSt) (off : Nat) : List (Nat × BzFrame) → StrandSt
  | [] => st
  | (p, f) :: rest =>
    let n := 8 + f.frame.bytes.length + 4
    let d := bytesCycles (st.speedAct p) (12 + n)
    let lim := f.cycle + ((st.winStart f.win + st.winLen f.win + st.flgGuard + st.flgSlack) * 65536 : Nat)
    if lim < st.ct32 / (2 ^ 16 : Nat) + ((off + bytesCycles (st.speedAct p) n) * 65536 : Nat) then (st.inc (Reg.FLG_CNT + 8 * 10)).arbRun off rest
    else (st.flgForward p f.frame.bytes false false 0 (st.now + off + bytesCycles (st.speedAct p) 8)).arbRun (off + d) rest

/-- Whether the frames held for arbitration go out: their window's open part has ended, or every port has delivered one whole (R235). -/
def StrandSt.arbReady (st : StrandSt) (l : List (Nat × BzFrame)) : Bool :=
  l.all fun h => decide (h.2.cycle + ((st.winStart h.2.win + st.winLen h.2.win) * 65536 : Nat) ≤ st.ct32 / (2 ^ 16 : Nat)) ||
    decide ((l.filter fun g => decide (g.2.stop ≤ st.now)).length = st.flgPorts.length)

/-- ARB_FORWARD: the held frames that have arrived whole (R235). -/
def StrandSt.arbForward (st : StrandSt) : StrandSt :=
  let l := st.arbOrder
  let whole := l.filter fun h => decide (h.2.stop ≤ st.now)
  if st.flgRole != 2 || !st.arbReady l then st
  else
    let st := whole.foldl (fun (s : StrandSt) h => s.setArb h.1 none) st
    if st.env.hold then st else st.arbRun 0 whole

/-- UNFENCE of port `p` (R234). -/
def StrandSt.unfence (st : StrandSt) (p : Nat) : StrandSt :=
  if st.bit (Reg.PORT_STAT p) 31 then
    ((st.putBit (Reg.PORT_STAT p) 31 false).put (Reg.PORT_STAT p) 23 16 0).report 0x0906 .transient [p]
  else st

/-- DEV_CLEAR (R236). -/
def StrandSt.devClear (st : StrandSt) : StrandSt :=
  { st with regs := st.regs.dropIf fun o => decide (0x72000 ≤ o) && decide (o < 0x72400) }

/-! ## A frame on a port (R112, R216, R220) -/

/-- RX_FRAME: a frame starts on port `p`; a Filigree frame is bound for the switch only where it is delivered (R115, R216, R220). -/
def StrandSt.rxTop (st : StrandSt) (p : Fin 4) (w : RxWire) : StrandSt :=
  let flg := st.isFlgFrame p w.bytes
  let bound := st.ptRx p != 1 && !macControlFrame w.bytes &&
    (!flg || (flgType w.bytes == 0 && st.flgState != 0 && (st.flgRole == 1 || st.bit Reg.FLG_CTL 11)))
  st.rxFrame p w bound flg

/-- The decision on a Filigree frame in reception, after byte 18: forwarding in a line, the Bezel's in a coupler; from here its cells count as
RX_Q's (R152, R218 to R220, R226, R233). -/
def StrandSt.flgDecide (st : StrandSt) (p : Fin 4) : StrandSt :=
  match (st.port p).rx with
  | none => st
  | some r =>
    let bs := r.wire.bytes
    let bad := r.wire.fcsBad || r.wire.symErr || decide (st.maxLen p < bs.length + 4) || decide (bs.length + 4 < 64)
    let q := st.fld Reg.FLG_CTL 10 8
    let x : Bool × StrandSt :=
      if st.flgState = 0 then (false, st)
      else if st.flgRole = 2 then st.bezelJudge p bs bad r.wire.linkLost ⟨r.stamp, r.ct⟩ r.start r.stop
      else if !flgHdrOk bs || !st.flgSpeedOk p then (false, st.inc (Reg.FLG_CNT + 8 * 12))
      else (true, if st.flgLine && flgType bs ≤ 1 then st.flgForward p bs bad r.wire.linkLost r.start (st.flgNominal p r.start) else st)
    let st := x.2.setPort p { x.2.port p with rx := some { r with rule := some (b2n (!x.1), q) } }
    (st.charge p q (r.own + r.shared)).fcCheck p q

/-- The end of a Filigree frame: counted as R112 says, and where it is without error delivered, applied or answered (R112, R220, R228, R230,
R235). -/
def StrandSt.flgEnds (st : StrandSt) (p : Fin 4) (r : MacRx) : StrandSt :=
  let w := r.wire
  let t : FlgWhen := ⟨r.stamp, r.ct⟩
  let go := (r.rule.getD (1, 0)).1 = 0
  let st := (st.rxClear p).rxErrors p w
  let long := st.flgRole = 2 && go && decide (2048 < w.bytes.length + 4) &&
    (match st.flg.arriving.get none p with | some f => st.winKind f.win == 1 | none => false)
  let st := st.setArriving p none
  let st := if long then (st.setArb p none).violation p 8 (flgSrc w.bytes) else st
  if (rxError (st.maxLen p) w).isSome then (if st.flgRole = 2 then st.setArb p none else st)
  else if r.refused && go then st.inc (Reg.MAC_CNT p + 8 * 5)
  else
    let st := st.rxCount p w
    if st.flgState = 0 || long then st
    else if st.flgRole = 2 then st.couplerEnd p w.bytes go t
    else if !go then st
    else match flgType w.bytes with
      | 0 => st.flgNodeData p w.bytes t
      | 1 => st.alignRx p w.bytes t
      | 2 => st.rttReqRx p w.bytes t
      | _ => st.rttMeasure p w.bytes t

/-- What a reception does in this cycle: its decision, and its end. -/
def StrandSt.rxStep (st : StrandSt) (p : Fin 4) : StrandSt :=
  let st := match (st.port p).rx with
    | some r => if r.rule.isSome || st.now < r.decides then st else if r.flg then st.flgDecide p else st.rxDecide p
    | none => st
  match (st.port p).rx with
  | some r => if st.now < r.stop then st else if r.flg then st.flgEnds p r else st.rxEnds p r
  | none => st

/-- What this cycle brings by itself on the ports and their channels; the frames that end in it enter the switch in the order of their ports
(R155). -/
def StrandSt.portStep (st : StrandSt) : StrandSt :=
  ([0, 1, 2, 3] : List (Fin 4)).foldl (fun s p => (((s.laneStep p).rxStep p).txStep p).ptStep p) st

end Sys2Proof.Machine
end

