-- ==== Sys2Proof/Machine/PortCmds.lean ====
section
/-! DEFINITION. Commands of ports, pass-through channels, forwarding table and gate lists (R107, R110, R119, R124, R130, R139, R150,
R161). -/

namespace Sys2Proof.Machine

/-- The part of a value that a register's fields hold: the value masked to the given ranges (R14). -/
def keepBits (v : Word) (fs : List (Nat × Nat)) : Word := BitVec.ofNat 32 (fs.foldl (fun a f => putN a f.1 f.2 (fieldOf v f.1 f.2)) 0)

/-! ## MDIO (R110) -/

/-- MDIO_START: a write of MDIO_CMD. -/
def StrandSt.mdioStart (st : StrandSt) (v : Word) : StrandSt :=
  if st.bit Reg.MDIO_STAT 31 then st.flag Reg.MDIO_STAT 29
  else
    let op := if !bitOf v 31 && (fieldOf v 30 29 == 0 || fieldOf v 30 29 == 3) then st.fld Reg.MDIO_CMD 30 29 else fieldOf v 30 29
    let w := setField (keepBits v [(31, 31), (25, 21), (20, 16), (15, 0)]) 30 29 op
    (((st.wr Reg.MDIO_CMD w).flag Reg.MDIO_STAT 31).setPort 0 { st.port 0 with mdioAt := st.env.ns }).emit (.mdio w)

/-- Whether the command in MDIO_CMD is a read: Clause 22 opcode 2, Clause 45 opcodes 2 and 3. -/
def StrandSt.mdioReads (st : StrandSt) : Bool := decide (2 ≤ st.fld Reg.MDIO_CMD 30 29)

/-- The time of an MDIO frame in ns: 64 MDC periods, or 32 without the preamble. -/
def StrandSt.mdioTime (st : StrandSt) : Nat :=
  (if st.bit Reg.MDIO_CFG 8 then 32 else 64) * (2 * (st.fld Reg.MDIO_CFG 7 0 + 1))

/-- MDIO_DONE: the frame ends, not before its time; on a read the PHY has driven the turnaround bit and sent data, or it has not. -/
def StrandSt.mdioDone (st : StrandSt) (ack : Bool) (data : Nat) : StrandSt :=
  if !st.bit Reg.MDIO_STAT 31 || decide (st.env.ns < (st.port 0).mdioAt + st.mdioTime) then st
  else
    let st := st.putBit Reg.MDIO_STAT 31 false
    if st.mdioReads then (st.putBit Reg.MDIO_STAT 30 (!ack)).put Reg.MDIO_STAT 15 0 (if ack then data else 0xFFFF) else st

/-! ## Auto-negotiation and verification (R107, R124) -/

/-- Whether a port runs auto-negotiation: SGMII and 1000BASE-X with AN_EN = 1. -/
def StrandSt.anRuns (st : StrandSt) (p : Nat) : Bool := st.bit (Reg.MAC_CTL p) 11 && (st.macMode p == 1 || st.macMode p == 2)

/-- AN_RESTART: AN_DONE falls; 1000BASE-X, whose link needs it, loses LINK_UP. -/
def StrandSt.anRestart (st : StrandSt) (p : Fin 4) : StrandSt :=
  if !st.anRuns p then st else (st.putBit (Reg.MAC_STATUS p) 3 false).linkSettle p

/-- AN_DONE: negotiation ends; a base page that advertises half duplex only leaves AN_DONE = 0, and LINK_UP with it. -/
def StrandSt.anDone (st : StrandSt) (p : Fin 4) (halfOnly fault : Bool) : StrandSt :=
  if !st.anRuns p then st
  else ((st.putBit (Reg.MAC_STATUS p) 3 (!halfOnly)).putBit (Reg.MAC_STATUS p) 2 fault).linkSettle p



/-- VERIFY_RESTART: verification begins again, so preemption is off until it succeeds; with VERIFY_DIS = 1 there is none to restart (R124).
(DEDUCED, safe: log entry 184.) -/
def StrandSt.verifyRestart (st : StrandSt) (p : Fin 4) : StrandSt :=
  if !st.preemptPort p || st.bit (Reg.MAC_PREEMPT p) 2 then st else st.putBit (Reg.MAC_STATUS p) 7 false

/-- VERIFY_DONE: verification succeeds, or has failed three times.  (DEDUCED, safe: log entry 184.) -/
def StrandSt.verifyDone (st : StrandSt) (p : Fin 4) (good : Bool) : StrandSt :=
  if !st.preemptPort p || st.bit (Reg.MAC_PREEMPT p) 2 || !st.linkUp p then st
  else if good then st.putBit (Reg.MAC_STATUS p) 7 true
  else ((st.putBit (Reg.MAC_STATUS p) 7 false).flag (Reg.MAC_FLAGS p) 5).report 0x0402 .transient [p.val]

/-! ## Filter rules (R119) -/

/-- The fields of words 0 to 3 of a filter rule. -/
def fltMask (w : Nat) (v : Word) : Word :=
  match w with
  | 2 => keepBits v [(14, 12), (11, 0)]
  | 3 => keepBits v [(31, 31), (30, 29), (28, 28), (27, 27), (26, 26), (25, 24), (18, 16)]
  | _ => v

/-- A write of word 0, 1 or 2 of rule `k` of a port, held until the write of word 3. -/
def StrandSt.fltHold (st : StrandSt) (p : Fin 4) (k w : Nat) (v : Word) : StrandSt :=
  let o := st.port p
  st.setPort p { o with held := ⟨tabInsert (4 * k + w) (fltMask w v) (tabErase o.held.cells (4 * k + w))⟩ }

/-- MAC_FLT_W3_WRITE: the held words and word 3 take effect together; the reserved ACTION keeps its field (R15, R119). -/
def StrandSt.fltWrite (st : StrandSt) (p : Fin 4) (k : Nat) (v : Word) : StrandSt :=
  let o := st.port p
  let st := [(0, Reg.MAC_FLT_W0 p k), (1, Reg.MAC_FLT_W1 p k), (2, Reg.MAC_FLT_W2 p k)].foldl (fun (s : StrandSt) x =>
    match tabFind o.held.cells (4 * k + x.1) with
    | some w => s.wr x.2 w
    | none => s) st
  let st := st.setPort p { o with held := o.held.dropIf fun j => j / 4 == k }
  let old := st.rd (Reg.MAC_FLT_W3 p k)
  st.wr (Reg.MAC_FLT_W3 p k) (if fieldOf v 25 24 = 3 then setField (fltMask 3 v) 25 24 (fieldOf old 25 24) else fltMask 3 v)

/-! ## Pass-through (R130, R134 to R136, R139, R140) -/

/-- The FIFO of a channel, and whether a frame that waits for the port `wait` cycles past its nominal time overruns it (R136, R140). -/
def ptOverruns (code len wait : Nat) : Bool := decide (2048 < min (len + 4) (wait * 10 / tByte10 code))

/-- A frame starts on the RX lane that channel `p` forwards (R129, R130, R134 to R136, R139, R140): it is launched at the later of its nominal
time and 8 byte times past the end of the frame before it.  (DESIGN CHOICE, unsafe: log entry 42.)  A frame that no byte of has left when the
FIFO is full leaves nothing.  (DEDUCED, safe: log entry 185.)  One that fails several conditions counts by the first, PT_TX = 0 and speed before
link and HOLD.  (DEDUCED, unsafe: log entry 44.) -/
def StrandSt.ptFrame (st : StrandSt) (p : Fin 4) (w : RxWire) (fifo : FifoEnd) : StrandSt :=
  if !st.env.active then st
  else match st.chanSource p with
  | none => st
  | some a =>
    let code := st.speedAct p
    if st.ptRx a = 0 || 3 ≤ st.ptRx a || !st.linkUp a || !st.bit (Reg.MAC_CTL a) 0 || macControlFrame w.bytes then st
    else
      let off := st.ptTx p = 0 || 3 ≤ st.ptTx p
      let slow := st.linkUp p && st.speedAct a != code
      let st := if slow then st.putBit (Reg.PT_STATUS p) 3 true else st.ptRates p
      if off || slow then st.inc (Reg.PT_CNT p + 8 * 10)
      else if !st.linkUp p then st.inc (Reg.MAC_CNT p + 8 * 15)
      else if st.env.hold then st.inc (Reg.MAC_CNT p + 8 * 16)
      else if !st.bit (Reg.MAC_CTL p) 1 then st
      else
        let nominal := st.now + st.ptLb p a
        let c := st.chan p
        let out := st.laneOut p nominal
        let bytes := st.rxBytes a w
        let f : PtCur := { src := a, bytes := bytes, code := code, start := st.now, out := out, late := decide (nominal < out),
                           bad := w.fcsBad || w.symErr || decide (bytes.length < w.bytes.length) || decide (w.bytes.length + 4 < 64),
                           lost := w.linkLost, fifo := fifo, edits := c.edits.map fun e => { edit := e } }
        let st := st.put (Reg.PT_STATUS p) 23 16 (st.ptFill a)
        if ptOverruns code bytes.length (out - nominal) then
          ((st.setChan p { c with edits := [] }).ptDropEdits p f).ptFifo p 2
        else st.setChan p { c with edits := [], frames := c.frames ++ [f] }

/-- TC_ACT and TC_REFUSED at the end of LOADING (R142): refused unless all its conditions hold, TC_EN among them. -/
def StrandSt.tcLock (st : StrandSt) (p : Fin 4) : StrandSt :=
  if st.tcWanted p then st.putBit (Reg.PT_STATUS p) 4 true
  else (st.flag (Reg.PT_FLAGS p) 6).report 0x0502 .lasting [p.val]

/-! ## Forwarding table (R150) -/

/-- The forwarding table before a write of this cycle is kept for the cycle's lookups (R150). -/
def StrandSt.fdbNote (st : StrandSt) : StrandSt := st.inCyc fun y => { y with fdb0 := some (y.fdb0.getD st.sw.fdb) }

/-- FDB_WRITE. -/
def StrandSt.fdbWrite (st : StrandSt) (i : Nat) : StrandSt :=
  let e : FdbEnt := { d0 := st.rd Reg.SW_FDB_D0, d1 := st.rd Reg.SW_FDB_D1, d2 := st.rd Reg.SW_FDB_D2 }
  { st.fdbNote.put Reg.SW_FDB_CMD 10 0 i with sw := { st.sw with fdb := st.sw.fdb.set {} (i % 2048) e } }

/-- FDB_READ. -/
def StrandSt.fdbRead (st : StrandSt) (i : Nat) : StrandSt :=
  let e := st.fdbAt (i % 2048)
  (((st.put Reg.SW_FDB_CMD 10 0 i).wr Reg.SW_FDB_D0 e.d0).wr Reg.SW_FDB_D1 e.d1).wr Reg.SW_FDB_D2 e.d2

/-- FDB_CLEAR. -/
def StrandSt.fdbClear (st : StrandSt) : StrandSt := { st.fdbNote with sw := { st.sw with fdb := {} } }

/-- A write of SW_FDB_CMD. -/
def StrandSt.fdbCmd (st : StrandSt) (v : Word) : StrandSt :=
  let i := fieldOf v 10 0
  match fieldOf v 30 29 with
  | 1 => st.fdbWrite i
  | 2 => st.fdbRead i
  | 3 => (st.put Reg.SW_FDB_CMD 10 0 i).fdbClear
  | _ => st.put Reg.SW_FDB_CMD 10 0 i

/-! ## Gate control lists (R159, R161) -/

/-- NEXT_BASE of an E port in ns of strand time. -/
def StrandSt.gclNextBase (st : StrandSt) (e : Nat) : Nat :=
  (st.fld (Reg.GCL_NEXT_BASE_SH e) 15 0 * 2 ^ 32 + (st.rd (Reg.GCL_NEXT_BASE_S e)).toNat) * 10 ^ 9 + st.fld (Reg.GCL_NEXT_BASE_NS e) 29 0

/-- The first NEXT_BASE + m × NEXT_CYCLE at or after a time. -/
def firstAt (base cycle t : Nat) : Nat :=
  if t ≤ base then base else if cycle = 0 then t else base + ceilDiv (t - base) cycle * cycle

/-- SWAP: the inactive list is armed, with its length, cycle and base as they stand, or the write is refused while a swap is pending
(R161). -/
def StrandSt.gclSwap (st : StrandSt) (e : Nat) : StrandSt :=
  if st.bit (Reg.GCL_CTL e) 29 then st.flag Reg.SW_FLAGS 4
  else
    let t := st.tNs
    let g := st.gclSt e
    let cyc := st.gclCycle e
    let next := st.fld (Reg.GCL_NEXT_CYCLE e) 29 0
    let due := if st.gclLen e = 0 || t < g.base || cyc = 0 then t else g.base + ((t - g.base) / cyc + 1) * cyc
    (st.putBit (Reg.GCL_CTL e) 29 true).setGcl e { g with swapAt := firstAt (st.gclNextBase e) next due, swapCycle := next }

/-- GCL_SWAP_ACT: the armed list becomes active at its time (R161). -/
def StrandSt.gclSwapAct (st : StrandSt) (e : Nat) : StrandSt :=
  let g := st.gclSt e
  if !st.bit (Reg.GCL_CTL e) 29 || st.tNs < g.swapAt then st
  else
    let st := (st.putBit (Reg.GCL_CTL e) 29 false).putBit (Reg.GCL_CTL e) 30 (!st.bit (Reg.GCL_CTL e) 30)
    let st := (st.put (Reg.GCL_CUR_CYCLE e) 29 0 g.swapCycle).setGcl e { g with base := g.swapAt }
    if st.env.hold then st else st.gclRefresh e

/-- GCL_ENTRY_ADVANCE: the list position follows the present time; it stands still in HOLD (R159, R162). -/
def StrandSt.gclAdvance (st : StrandSt) (e : Nat) : StrandSt := if st.env.hold then st else st.gclRefresh e

/-- A write of GCL_CTL. -/
def StrandSt.gclCtlWrite (st : StrandSt) (e : Nat) (v : Word) : StrandSt :=
  let st := st.putBit (Reg.GCL_CTL e) 31 (bitOf v 31)
  if bitOf v 28 then st.gclSwap e else st

/-- A write of GCL_LEN: the length of the active list, and of either while a swap is pending, stands; a write that would change one that stands
sets GCL_BUSY (R161, R168).  (DEDUCED, safe: log entry 186.) -/
def StrandSt.gclLenWrite (st : StrandSt) (e : Nat) (v : Word) : StrandSt :=
  let held := fun (l : Nat) => st.gclList e = l || st.bit (Reg.GCL_CTL e) 29
  let one := fun (s : StrandSt) (l hi lo : Nat) =>
    let n := fieldOf v hi lo
    if 256 < n || n = s.fld (Reg.GCL_LEN e) hi lo then s
    else if held l then s.flag Reg.SW_FLAGS 4 else s.put (Reg.GCL_LEN e) hi lo n
  one (one st 0 8 0) 1 24 16

/-- A write of entry `k` of list `l` (R161). -/
def StrandSt.gclEntryWrite (st : StrandSt) (e l k : Nat) (v : Word) : StrandSt :=
  if st.gclList e = l || st.bit (Reg.GCL_CTL e) 29 then st.flag Reg.SW_FLAGS 4 else st.wr (Reg.GCL e l k) v

end Sys2Proof.Machine
end

