-- ==== Sys2Proof/Machine/TimeCmds.lean ====
section
/-! DEFINITION. The time base's commands: rate, reading, stepping, PPS input and output (R170 to R184). -/

namespace Sys2Proof.Machine

/-- The limit of RATE (R171). -/
def rateMax : Int := 2147483

/-- A written rate clamped to the range, and whether it was clamped (R171). -/
def clampRate (v : Word) : Word × Bool :=
  let r := signedN 32 v.toNat
  if rateMax < r then (BitVec.ofNat 32 2147483, true)
  else if r < -rateMax then (BitVec.ofNat 32 (wrapN 32 (-rateMax)), true)
  else (v, false)

/-- The report of a clamped write (R171). -/
def StrandSt.noteClamp (st : StrandSt) (c : Bool) : StrandSt :=
  if c then ((st.flag Reg.TIME_FLAGS 5).inc (Reg.TIME_CNT + 8 * 6)).report 0x0704 .transient [st.env.sid] else st

/-- The precedence of RATE writes of one cycle: the core's, then link A's, link B's and the Loupe's (R171). -/
def rateRank (m : Nat) : Nat := if m = 2 then 0 else if m = 3 then 3 else m + 1

/-- A RATE write: kept until the cycle ends, unless one of it that goes before has come; before the time base runs RATE equals RATE_INIT (R171,
R172).  (DEDUCED, unsafe: log entry 189.) -/
def StrandSt.rateWrite (st : StrandSt) (m : Nat) (v : Word) : StrandSt :=
  let before := match st.time.rateBy with
    | some x => decide (rateRank x.1 < rateRank m)
    | none => false
  if before || !st.timeRunning then st else { st with time := { st.time with rateBy := some (m, v) } }

/-- The RATE write that is kept takes effect, and is a servo sample (R171, R182). -/
def StrandSt.rateKeep (st : StrandSt) (v : Word) : StrandSt :=
  let c := clampRate v
  let st := (st.noteClamp c.2).wr Reg.TIME_RATE c.1
  let st := st.put Reg.TIME_STATUS 7 6 (min 2 (st.fld Reg.TIME_STATUS 7 6 + 1))
  { st with time := { st.time with rateBy := none } }.inc (Reg.TIME_CNT + 8 * 7)

/-- A RATE_INIT write: RWL, clamped in the same way (R171). -/
def StrandSt.rateInitWrite (st : StrandSt) (v : Word) : StrandSt :=
  if st.env.locked then st
  else
    let c := clampRate v
    let st := (st.noteClamp c.2).wr Reg.TIME_RATE_INIT c.1
    if st.timeRunning then st else st.wr Reg.TIME_RATE c.1

/-- A read of TIME_NOW_NS by master `m`: NS, with SEC and FRAC latched for it (R173). -/
def StrandSt.timeNowRead (st : StrandSt) (m : Nat) : Nat × StrandSt :=
  (st.ns, { st with time := { st.time with latch := st.time.latch.set (0, 0) m (st.time.sec, st.frac) } })

/-- Whether a step by a PPS edge or by a command may be taken (R175). -/
def StrandSt.mayStep (st : StrandSt) (byPps : Bool) : Bool :=
  let src := st.fld Reg.TIME_CTL 9 8
  let src := if src = 0 && !st.bit Reg.TIME_CTL 6 then 1 else src
  st.bit Reg.TIME_STATUS 2 && (src == 2 || (if byPps then src == 0 else src == 1))

/-- Adds `d` (2^-32 ns) to the time of the observations that wait in a bound engine's RX queue or in Bangle (R210). -/
def StrandSt.shiftObs (st : StrandSt) (d : Int) : StrandSt :=
  let st := (List.range 4).foldl (fun (s : StrandSt) i =>
    if s.bit (Reg.TRK_CFG i) 31 && s.bit (Reg.TRK_CFG i) 29 then
      s.updEng (s.fld (Reg.TRK_CFG i) 27 24) fun e => { e with rxq := e.rxq.map fun q => { q with adj := q.adj + d } }
    else s) st
  (List.range 4).foldl (fun (s : StrandSt) i =>
    let t := s.trk i
    s.setTrk i { t with fifo := t.fifo.map fun o => { o with adj := o.adj + d }, part := t.part.map fun q => { q with adj := q.adj + d } }) st

/-- Adds `d` to the reference time of the trackers and to the committed fire times (R210). -/
def StrandSt.shiftBangle (st : StrandSt) (d : Int) : StrandSt :=
  let st := (List.range 4).foldl (fun (s : StrandSt) i =>
    let t := s.trk i
    s.setTrk i { t with tref := if t.state = .off then t.tref else t.tref + d }) st
  let e := fun (x : EvtEnt) => if x.state = .committed then { x with tf := x.tf + d } else x
  { st with bng := { st.bng with ent := ⟨st.bng.ent.cells.map fun (c : Nat × EvtEnt) => (c.1, e c.2)⟩,
                                 shifts := st.bng.shifts ++ [(st.now + 1, d)] } }

/-- The observations that lie in Bangle at the end of the cycle after a step get its difference (R210). -/
def StrandSt.shiftEnd (st : StrandSt) : StrandSt :=
  let due := st.bng.shifts.filter fun x => decide (x.1 ≤ st.now)
  if due.isEmpty then st
  else due.foldl (fun (s : StrandSt) x => s.shiftObs x.2)
    { st with bng := { st.bng with shifts := st.bng.shifts.filter fun x => decide (st.now < x.1) } }

/-- The modulus of the counter in 2^-32 ns (R170). -/
def timeMod : Nat := 2 ^ 48 * secUnit

/-- The counter takes a new value as of this cycle, at its end: everything a step changes (R174, R180, R162, R210, R221). -/
def StrandSt.stepTo (st : StrandSt) (new : Int) : StrandSt :=
  let d : Int := new - st.t32
  let t := (new % (timeMod : Int)).toNat
  let shift16 := fun (o : Option Int) => o.map fun x => x + d / (2 ^ 16 : Nat)
  let tm := { st.time with sec := t / secUnit, sub := t % secUnit, prev := t, ppsRef := shift16 st.time.ppsRef }
  let tm := { tm with ppsValid := shift16 st.time.ppsValid, refAfterStep := false, stepped := true }
  let st := { st with time := tm }
  let st := st.put Reg.TIME_STATUS 31 24 ((st.fld Reg.TIME_STATUS 31 24 + 1) % 256)
  let st := ((st.put Reg.TIME_STATUS 9 8 0).put Reg.TIME_STATUS 7 6 0).putBit Reg.TIME_STATUS 2 false
  let st := (st.flag Reg.TIME_FLAGS 0).inc Reg.TIME_CNT
  let st := st.shiftBangle d
  let keep := st.flgPos = 0 && st.flgRole = 1
  let st := { st with flg := { st.flg with ctOfs := if keep then st.flg.ctOfs else st.flg.ctOfs - d } }
  (List.range 4).foldl (fun (s : StrandSt) e =>
    if s.gclLen e != 0 then (if s.env.hold then s else s.gclRefresh e).inc (Reg.SW_UCNT + 8 * 3) else s) st

/-- A refused STEP command (R175, R178). -/
def StrandSt.stepRefuse (st : StrandSt) : StrandSt :=
  ((st.flag Reg.TIME_FLAGS 1).inc (Reg.TIME_CNT + 8)).reportOnce 0x0701 .transient 0 [st.env.sid]

/-- A STEP command acting: KIND 0 an offset, KIND 1 an absolute value (R178). -/
def StrandSt.stepCommand (st : StrandSt) : StrandSt :=
  let ns := st.fld Reg.STEP_NS 29 0
  let part := ns * nsUnit + st.fld Reg.STEP_FRAC 15 0 * 2 ^ 16
  let abs := st.bit Reg.STEP_SH 31
  let new : Int :=
    if abs then ((st.fld Reg.STEP_SH 15 0 * 2 ^ 32 + (st.rd Reg.STEP_S).toNat) * secUnit + part : Nat)
    else (st.t32 : Int) + signedN 32 (st.rd Reg.STEP_S).toNat * secUnit + part
  if !st.mayStep false || 10 ^ 9 ≤ ns || new < 0 || !st.timeRunning then st.stepRefuse
  else st.stepTo new

/-- STEP: it acts 2 cycles after it reaches the unit; before the strand's start it is refused (R172, R178).  (DEDUCED, unsafe: log entry 190.) -/
def StrandSt.stepSoon (st : StrandSt) : StrandSt :=
  if !st.env.active then st.stepRefuse else { st with time := { st.time with steps := st.time.steps ++ [st.now + 2] } }

/-- Master identity (R409): 0 the Loupe, 1 link A, 2 link B, 4 + n the core of strand n. -/
def masterIdent (m sid : Nat) : Nat := if m = 3 then 0 else if m = 2 then 4 + sid else m + 1

/-- STEP_ARM by a master: STEP_AVAIL from the next cycle, where the step was not available in this one (R176, R177). -/
def StrandSt.stepArm (st : StrandSt) (m : Nat) : StrandSt :=
  if st.bit Reg.TIME_STATUS 2 || st.time.arm then st
  else (({ st with time := { st.time with arm := true } } : StrandSt).inc (Reg.TIME_CNT + 16)).report 0x0702 .transient
    [st.env.sid, masterIdent m st.env.sid]

/-- What the time base does at the end of a cycle: the RATE write that is kept, an alignment, the STEP commands that act in it, refused behind the
alignment, and an arm (R171, R174, R176, R177, R178).  (DEDUCED, unsafe: log entry 190.) -/
def StrandSt.timeEnd (st : StrandSt) : StrandSt :=
  let st := st.shiftEnd
  let st := match st.time.rateBy with
    | some x => st.rateKeep x.2
    | none => st
  let st := match st.time.align with
    | some v =>
      let x := ({ st with time := { st.time with align := none } } : StrandSt).stepTo v
      { x with time := { x.time with refAfterStep := true } }
    | none => st
  let due := st.time.steps.filter fun c => decide (c ≤ st.now)
  let st := if due.isEmpty then st
    else due.foldl (fun (s : StrandSt) _ => s.stepCommand)
      { st with time := { st.time with steps := st.time.steps.filter fun c => decide (st.now < c) } }
  if st.time.arm then ({ st with time := { st.time with arm := false } } : StrandSt).putBit Reg.TIME_STATUS 2 true else st

/-- The cycles at whose end the time base does something by itself. -/
def StrandSt.timeTimes (st : StrandSt) : List Nat :=
  (if st.time.rateBy.isSome || st.time.align.isSome || st.time.arm then [st.now] else []) ++ st.time.steps ++ st.bng.shifts.map Prod.fst

/-- One second in 2^-16 ns. -/
def sec16 : Nat := 10 ^ 9 * 2 ^ 16

/-- PPS_ERR for an edge time: its distance from the nearest second, saturating at ±32,768 ns (R181). -/
def ppsErr (te : Int) : Nat :=
  let near := (te + (sec16 / 2 : Nat)) / (sec16 : Int) * (sec16 : Int)
  wrapN 32 (max (-(32768 * 65536)) (min (te - near) (32768 * 65536 - 1)))

/-- A captured edge's time in PPS_IN_TS, with TS_UNCERTAIN (R179, R182).  (DEDUCED, safe: log entry 191.) -/
def StrandSt.ppsCapture (st : StrandSt) (te : Int) : StrandSt :=
  let t := (te % ((2 ^ 48 * sec16 : Nat) : Int)).toNat
  let st := st.wr Reg.PPS_IN_TS_NS (BitVec.ofNat 32 (nsOf16 t))
  let st := st.wr Reg.PPS_IN_TS_S (BitVec.ofNat 32 (secOf16 t))
  let st := st.wr Reg.PPS_IN_TS_SH (BitVec.ofNat 32 (fracOf16 t * 65536 + secOf16 t / 2 ^ 32 % 65536))
  { st with time := { st.time with ppsUnc := st.tsUncertain } }

/-- The target second of an alignment at an edge: PPS_SEC as it stood before a write of this cycle, or the nearest one (R181, R189). -/
def StrandSt.ppsSecond (st : StrandSt) (te : Int) : Int :=
  let w := st.thisCyc.sec0.getD (st.rd Reg.PPS_SEC_S, st.rd Reg.PPS_SEC_SH)
  if bitOf w.2 31 then ((w.1.toNat + fieldOf w.2 15 0 * 2 ^ 32 : Nat) : Int) else (te + (sec16 / 2 : Nat)) / (sec16 : Int)

/-- An edge on PPS_IN of the polarity in use, whose capture is `half` half-nanoseconds before the present; `held` says the level held for
100 ns (R179 to R181). -/
def StrandSt.ppsEdge (st : StrandSt) (rising : Bool) (half : Nat) (held : Bool) : StrandSt :=
  if !st.bit Reg.TIME_CTL 6 || !st.timeRunning || st.bit Reg.TIME_CTL 7 == rising then st
  else if !held then (st.inc (Reg.TIME_CNT + 8 * 4)).flag Reg.TIME_FLAGS 2
  else
    let cap := (st.t16 : Int) - (half * 32768 : Nat)
    let te := cap - 4 * 65536 - signedN 32 (st.rd Reg.PPS_IN_CORR).toNat
    let st := st.ppsCapture te
    let tol := st.fld Reg.TIME_CTL 31 22 * 1000 * 65536
    match st.time.ppsRef with
    | none => { st with time := { st.time with ppsRef := some te, refAfterStep := true } }
    | some r =>
      let iv := te - r
      if iv < (sec16 : Int) - tol || (sec16 : Int) + tol < iv then
        let st := (st.inc (Reg.TIME_CNT + 8 * 4)).flag Reg.TIME_FLAGS 2
        { st with time := { st.time with ppsRef := some te, refAfterStep := true } }
      else
        let st := (st.flag Reg.TIME_FLAGS 4).inc (Reg.TIME_CNT + 8 * 3)
        let st := (st.putBit Reg.TIME_STATUS 4 false).wr Reg.PPS_ERR (BitVec.ofNat 32 (ppsErr te))
        let ref := fun (s : StrandSt) => ({ s with time := { s.time with ppsRef := some te, ppsValid := some te, refAfterStep := true } } : StrandSt)
        if st.mayStep true && st.time.align.isNone then
          let s := st.ppsSecond te
          let st := if st.thisCyc.secSet then st else st.putBit Reg.PPS_SEC_SH 31 false
          let st := { st with time := { st.time with align := some ((st.t32 : Int) + (s * (sec16 : Int) - te) * (2 ^ 16 : Nat)) } }
          ref st
        else ref (if st.time.refAfterStep then st.put Reg.TIME_STATUS 9 8 (min 2 (st.fld Reg.TIME_STATUS 9 8 + 1)) else st)

/-- A write of PPS_SEC_S or PPS_SEC_SH is noted for an edge of the same cycle (R12, R189). -/
def StrandSt.secNote (st : StrandSt) (set : Bool) : StrandSt :=
  st.inCyc fun y => { y with sec0 := some (y.sec0.getD (st.rd Reg.PPS_SEC_S, st.rd Reg.PPS_SEC_SH)), secSet := y.secSet || set }

/-- Two seconds of counter time have passed since the last valid edge (R180). -/
def StrandSt.ppsLoss (st : StrandSt) : StrandSt :=
  let due := match st.time.ppsValid with
    | some v => decide (v + 2 * (sec16 : Int) ≤ (st.t16 : Int))
    | none => false
  if !due || !st.timeRunning then st
  else
    let st := ((st.flag Reg.TIME_FLAGS 3).putBit Reg.TIME_STATUS 4 true).inc (Reg.TIME_CNT + 8 * 5)
    let st := st.report 0x0703 .transient [st.env.sid]
    { st with time := { st.time with ppsRef := none, ppsValid := none } }

/-- Whether the counter has reached a target n s + PPS_OUT_OFS by its normal advance into this cycle (R184). -/
def StrandSt.ppsTarget (st : StrandSt) : Bool :=
  let ofs := st.fld Reg.PPS_OUT_OFS 29 0 * nsUnit
  decide (ofs ≤ st.t32) && decide (st.time.prev < (st.t32 - ofs) / secUnit * secUnit + ofs)

/-- The counter reaches a PPS output target: the pulse starts, for PPS_OUT_W cycles (R184). -/
def StrandSt.ppsOutPulse (st : StrandSt) : StrandSt :=
  if !st.bit Reg.TIME_CTL 3 || !st.timeRunning || !st.env.active || (st.bit Reg.TIME_CTL 4 && st.tsUncertain) || !st.ppsTarget then st
  else
    ({ st with time := { st.time with ppsOut := true, ppsEnd := st.now + st.fld Reg.PPS_OUT_W 29 0 } } : StrandSt).emit
      (.ppsOut (!st.bit Reg.TIME_CTL 5))

/-- The pulse's end: its width has run out (R184). -/
def StrandSt.ppsOutEnd (st : StrandSt) : StrandSt :=
  if st.time.ppsOut && decide (st.time.ppsEnd ≤ st.now) then
    ({ st with time := { st.time with ppsOut := false } } : StrandSt).emit (.ppsOut (st.bit Reg.TIME_CTL 5))
  else st

/-- The time base starts (R172). -/
def StrandSt.timeStart (st : StrandSt) : StrandSt :=
  let tm := { st.time with sec := 0, sub := 0, prev := 0, ppsRef := none, ppsValid := none }
  let st := { st with time := { tm with refAfterStep := false, stepped := false, align := none, rateBy := none, arm := false } }
  let st := st.wr Reg.TIME_RATE (st.rd Reg.TIME_RATE_INIT)
  let st := (st.put Reg.TIME_STATUS 31 24 0).put Reg.TIME_STATUS 9 6 0
  (st.putBit Reg.TIME_STATUS 5 true).putBit Reg.TIME_STATUS 2 true

end Sys2Proof.Machine
end

