-- ==== Sys2Proof/Machine/ModeOps.lean ====
section
/-! DEFINITION. Resets, fences, strand states and device modes (R26 to R48, R506 to R508, R428, R429, R440). -/

namespace Sys2Proof.Machine

/-! ## Mode and strand state (R38, R41, R335) -/

/-- The device mode changes: CLASP_FLAGS.MODE_CHG, and a trial fails when the device leaves its base mode (R335, R473). -/
def Dev.setMode (d : Dev) (m : Nat) : Dev :=
  if d.mode = m then d
  else
    let left := d.mode = d.base && d.base != 0
    let d := ({ d with mode := m } : Dev).dflag Reg.CLASP_FLAGS 1
    if left then d.trialFail else d

/-- TIME_UNC returns to 1 when strand `i` is the Loupe's time source (R440). -/
def Dev.timeLost (d : Dev) (i : StrandId) : Dev :=
  if d.lbit Reg.LP_CFG 21 && d.lfld Reg.LP_CFG 23 22 = i.val then { d with loupe := { d.loupe with timeUnc := true } } else d

/-- A strand's state changes: CLASP_FLAGS.STRAND_CHG (R335), and the Loupe's time on a stop of the time base. -/
def Dev.setPhase (d : Dev) (i : StrandId) (p : Phase) : Dev :=
  if d.phase i = p then d
  else
    let d := (d.updSup i fun s =>
      { s with phase := p, loadAt := if p = .loading then d.ns else s.loadAt, tested := s.tested && p != .loading }).dflag Reg.CLASP_FLAGS (12 + i.val)
    if p = .off || p = .fenced then d.timeLost i else d

/-- The strands for which the configuration names a package (R39). -/
def Dev.configured (d : Dev) : List StrandId := allStrands.filter fun i => bitN d.cfg.strands i.val

/-- Whether the mode is one of the base modes (R40). -/
def Dev.inBase (d : Dev) : Bool := decide (4 ≤ d.mode) && decide (d.mode ≤ 7)

/-! ## Back to the base mode (T12, R355) -/

/-- The TX groups of a strand. -/
def Dev.txGroups (d : Dev) (i : StrandId) : List Nat :=
  (List.range 8).filter fun g => bitOf (d.mgCfg g) 31 && !bitOf (d.mgCfg g) 30 && mgHas (d.mgCfg g) i

/-- Whether the pair of a strand is in step: equal accepted marks for every paired queue, the TX groups' rings and the command queues (R355). -/
def Dev.inStep (d : Dev) (pair : Bool) : Bool :=
  let e : StrandId := if pair then 2 else 0
  let o : StrandId := if pair then 3 else 1
  let same := fun (j : Nat) => ((d.strand e).led j).acc == ((d.strand o).led j).acc
  ((d.txGroups e).all fun g => same (fieldOf (d.mgCfg g) 11 8)) && [33, 34, 35, 36].all same

/-- T12: every configured strand is in RUN and, in MD5 and MD6, the pairs are in step. -/
def Dev.tryT12 (d : Dev) : Dev :=
  let run := !d.configured.isEmpty && d.configured.all fun i => d.phase i = .run
  let paired := d.base = 5 || d.base = 6
  if d.mode = 8 && run && (!paired || (d.inStep false && d.inStep true)) then
    let d := allStrands.foldl (fun (e : Dev) i => e.updSup i fun s => { s with rejoin := false }) d
    d.setMode d.base
  else d

/-! ## Outputs at HOLD (R41, R42, R122) -/

/-- RUN to HOLD: frames in transmission that are not management frames are cut (R122). -/
def Dev.toHold (d : Dev) (i : StrandId) : Dev :=
  if d.phase i != .run then d
  else (d.setPhase i .hold).onStrand i fun st => (((st.holdCut 0).holdCut 1).holdCut 2).holdCut 3

/-- HOLD to RUN: gate lists take the present position (R162, R507). -/
def Dev.toRun (d : Dev) (i : StrandId) : Dev :=
  if d.phase i != .hold then d
  else (d.setPhase i .run).onStrand i fun st => [0, 1, 2, 3].foldl (fun s e => s.gclRefresh e) st

/-- HOLD_ENTER: in a mode that allows HOLD (R38, R39, R42).  (DEDUCED, unsafe: log entry 172.) -/
def Dev.holdEnter (d : Dev) (i : StrandId) : Dev := if (4 ≤ d.mode && d.mode ≤ 9) || d.mode = 11 then d.toHold i else d

/-- HOLD_EXIT; the last strand to reach RUN may end MD8 (R42 to R44). -/
def Dev.holdExit (d : Dev) (i : StrandId) : Dev := if d.mode = 9 || d.phase i != .hold then d else (d.toRun i).tryT12

/-! ## Device mode transitions by fences (T11, T13) -/

/-- Whether all strands of the essential set are FENCED. -/
def Dev.essentialFenced (d : Dev) : Bool :=
  let l := allStrands.filter fun i => bitN d.cfg.essential i.val
  !l.isEmpty && l.all fun i => d.phase i = .fenced

/-- T13: entry to MD9 from a base mode or MD8 (R44, R45). -/
def Dev.enterHold (d : Dev) (why : HoldBy) : Dev :=
  if !(d.inBase || d.mode = 8) then d
  else
    let from_ := d.mode
    let d := ({ d with holdBy := some why, holdFrom := from_ } : Dev).setMode 9
    allStrands.foldl (fun e i => e.toHold i) d

/-- T11, then T13 by the essential set, after a strand has been fenced (R44, R46). -/
def Dev.afterFence (d : Dev) : Dev :=
  let d := if d.inBase then d.setMode 8 else d
  if d.essentialFenced then d.enterHold .essential else d

/-! ## Fence outward (R34, R35) -/

/-- The strand after its clocks have stopped and its banks are OFF: its TX lanes are idle and its time is lost (R35, R172, R397). -/
def StrandSt.stopped (st : StrandSt) : StrandSt :=
  let st := (List.range 48).foldl (fun (s : StrandSt) k => s.put (Reg.BANK_STATE k) 3 2 2) st
  let st := ([0, 1, 2, 3] : List (Fin 4)).foldl (fun (s : StrandSt) p =>
    (s.setPort p { s.port p with tx := none, txHeld := none, rx := none, fc := {} }).setChan p { s.chan p with frames := [] }) st
  { st.putBit Reg.TIME_STATUS 5 false with
    time := {}, banks := { st.banks with mem := [], ecc := {}, scrubs := [], pwrTo := {}, leaving := [], taking := [] } }

/-- A watchdog expiry's record: written when the Loupe firmware runs (R30).  (DEDUCED, safe: log entry 107.) -/
def Dev.logExpiry (d : Dev) (code : Nat) (cls : FClass) (i : StrandId) : Dev :=
  if d.loupe.firmware then d.log code cls (0x10 + i.val) []
  else { d with loupe := { d.loupe with late := d.loupe.late ++ [(code, cls, i)] } }

/-- The firmware runs again: the expiries it has missed are logged (R30).  (DEDUCED, safe: log entry 107.) -/
def Dev.logLate (d : Dev) : Dev :=
  let l := d.loupe.late
  l.foldl (fun (e : Dev) x => e.log x.1 x.2.1 (0x10 + x.2.2.val) []) { d with loupe := { d.loupe with late := [] } }

/-- The Loupe logs the inward-fence causes that are set (R48). -/
def Dev.logCauses (d : Dev) (i : StrandId) : Dev :=
  [0, 1, 2].foldl (fun (e : Dev) b =>
    if bitOf (e.supOf i).cause b then e.log (0x120 + b) .transient (0x10 + i.val) [] else e) d

/-- A cause of a fence is recorded (R47). -/
def Dev.setCause (d : Dev) (i : StrandId) (bit : Nat) : Dev :=
  (d.inCyc fun y => { y with cause := y.cause.upd 0 i.val (· ||| 2 ^ bit) }).updSup i fun s => { s with cause := setBit s.cause bit true }

/-- The inward fence ends: the Loupe logs its causes, where it was set (R33, R48). -/
def Dev.fenceInEnd (d : Dev) (i : StrandId) : Dev :=
  if (d.supOf i).fenceIn then (d.updSup i fun s => { s with fenceIn := false }).logCauses i else d

/-- A strand is fenced outward: the Clasp closes its gate, its outputs go to idle and safe values, its clocks stop (R35).  (DEDUCED, unsafe: log entry 102.) -/
def Dev.fence (d : Dev) (i : StrandId) (causeBit code : Nat) : Dev :=
  let d := (d.setCause i causeBit).updSup i fun s => { s with fenceOut := true, rejoin := false }
  let d := d.claspGate i
  let d := if (d.strand i).time.ppsOut then d.emit (.ppsOut ((d.strand i).bit Reg.TIME_CTL 5)) else d
  let d := { d with strands := d.strands.set i (d.strand i).stopped }
  let d := ((d.inCyc fun y => { y with fenced := i.val :: y.fenced }).setPhase i .fenced).fenceInEnd i
  if code = 0x0112 then d.logExpiry code .fatal i else d.log code .fatal (0x10 + i.val) []

/-- The strand as it was before a reset of this cycle, whose effect a fence or a wider reset of the cycle takes away (R29, R43). -/
def Dev.unReset (d : Dev) (i : StrandId) : Dev :=
  match d.thisCyc.before.get none i.val with
  | none => d
  | some x => { (d.setSup i x.1).setStrand i x.2.1 with epochs := d.epochs.set 0 (4 + i.val) x.2.2 }

/-- The same as an event: from LOADING, RUN and HOLD (R42), a reset of the same cycle undone (R43), with the mode changes that follow. -/
def Dev.fenceOut (d : Dev) (i : StrandId) (causeBit code : Nat) : Dev :=
  let d := if d.phase i = .fenced then d else d.unReset i
  match d.phase i with
  | .off => d
  | .fenced => d
  | _ => (d.fence i causeBit code).afterFence

/-- A trigger of the fence policy (R34).  (DEDUCED, unsafe: log entry 101.) -/
def Dev.fenceTrigger (d : Dev) (i : StrandId) (causeBit code : Nat) : Dev :=
  if bitN d.cfg.policy causeBit then d.fenceOut i causeBit code else d

/-! ## Fence inward (R31, R33, R48) -/

/-- The inward fence is set, in RUN and HOLD only. -/
def Dev.fenceInSet (d : Dev) (i : StrandId) (bit : Nat) : Dev :=
  if d.phase i = .run || d.phase i = .hold then (d.setCause i bit).updSup i fun s => { s with fenceIn := true } else d

/-- Whether the Loupe heartbeat has been absent for longer than HB_TIMEOUT, with FENCE_IN_AUTO = 1 (R31). -/
def Dev.hbAbsent (d : Dev) (i : StrandId) : Bool :=
  let s := d.supOf i
  bitOf s.ctl 4 && fieldOf s.ctl 23 8 != 0 && decide (s.hbAt + fieldOf s.ctl 23 8 * 100000 < d.ns)

/-- The heartbeat's absence is acted on, at HB_TIMEOUT and on a strand's entry to RUN or HOLD (R31). -/
def Dev.hbTimeout (d : Dev) (i : StrandId) : Dev := if d.hbAbsent i then d.fenceInSet i 0 else d

/-- The inward fence is released by the strand's own core (R33). -/
def Dev.fenceInRelease (d : Dev) (i : StrandId) : Dev := d.fenceInEnd i

/-! ## Strand resets (R27, R29, R353, R399) -/

/-- What survives in a strand a reset of its logic: the board side of its pins, UNAVAIL marks, the remap table and, of its supervisor
page, what `keep` says. Logical banks come back ON and owned by LOUPE, but for retired ones (R81, R397, R399).  (DESIGN CHOICE, unsafe: log entry 5.) -/
def StrandSt.afterReset (st : StrandSt) (cold : Bool) : StrandSt :=
  let r := st.remapped
  let page := fun (k : Nat) => !cold && decide (k < 0x1000)
  let bead := (List.range 16).foldl (fun (t : Tab Engine) n => t.set {} n { ({} : Engine) with unavail := (st.eng n).unavail }) {}
  let s : StrandSt :=
    { regs := st.regs.keepIf page, cnt := st.cnt.keepIf page, snap := st.snap.keepIf page, bead := bead,
      bp := { ext := st.bp.ext, vio := st.bp.vio }, ledger := if cold then Ledger.cleared else st.ledger,
      banks := { retired := r.2 } }
  let s := s.wr Reg.BANK_REMAP r.1
  let s := r.2.foldl (fun (a : StrandSt) k => a.wr (Reg.BANK_STATE k) (BitVec.ofNat 32 42)) s
  if bitOf r.1 15 && bitOf r.1 31 then s.flag Reg.BANK_FLAGS 6 else s

/-- Whether a reset remaps or retires a bank, and whether it takes the second spare. -/
def StrandSt.sparesOut (st : StrandSt) : Bool :=
  let r := st.remapped
  bitOf r.1 15 && bitOf r.1 31 && !(st.bit Reg.BANK_REMAP 15 && st.bit Reg.BANK_REMAP 31)

/-- The strand's logic is reset: its requests at the Clasp go, and so does what a merge group holds of
it and its memory of its last record.  (DEDUCED, unsafe: log entry 76.) -/
def Dev.resetLogic (d : Dev) (i : StrandId) (cold : Bool) : Dev :=
  let out := (d.strand i).sparesOut
  let d := { d with strands := d.strands.set i ((d.strand i).afterReset cold),
                    clasp := { d.clasp with q := d.clasp.q.set i [] } }
  let d := if out then d.log 0x1006 .lasting (0x10 + i.val) [] else d
  (List.range 8).foldl (fun (e : Dev) g =>
    if mgHas (e.mgCfg g) i then
      let m := e.mg g
      let m := { m with first := m.first.filter fun r => r.odd != oddOf i }
      e.setMg g (if oddOf i then { m with prev1 := none, held1 := [] } else { m with prev0 := none, held0 := [] })
    else e) d

/-- The strand before its first reset of this cycle is kept (R29, R43). -/
def Dev.noteReset (d : Dev) (i : StrandId) : Dev :=
  let x := (d.supOf i, d.strand i, d.epochs.get 0 (4 + i.val))
  d.inCyc fun y => if (y.before.get none i.val).isSome then y else { y with before := y.before.set none i.val (some x) }

/-- STRAND_WARM: ignored in OFF and FENCED (R27, R508).  (DEDUCED, unsafe: log entry 103.) -/
def Dev.strandWarm (d : Dev) (i : StrandId) : Dev :=
  if d.phase i = .off || d.phase i = .fenced then d
  else
    let d := ((d.noteReset i).resetLogic i false).updSup i fun s => { s with lock := false, lastReset := 1 }
    ((d.setPhase i .loading).resetIdent (4 + i.val)).timeLost i

/-- The strand to OFF: its gate opens.  (DEDUCED, unsafe: log entry 102.) -/
def Dev.strandOff (d : Dev) (i : StrandId) : Dev :=
  let was := d.phase i
  let d := d.updSup i fun s => { s with lock := false, pllLock := false, fenceOut := false }
  let d := d.setPhase i .off
  if was = .off then d else d.resetIdent (4 + i.val)

/-- STRAND_COLD: it takes the place of a STRAND_WARM of its cycle, and gives way to POR and to a fence of its cycle (R27, R29, R43, R353).
(DEDUCED, unsafe: log entry 59.) -/
def Dev.strandCold (d : Dev) (i : StrandId) : Dev :=
  if d.por || d.thisCyc.fenced.contains i.val then d
  else
    let owed := (d.strand i).ledger.owed
    let d := if d.base = 4 && owed != 0 then d.log 0x0E05 .lasting (0x10 + i.val) [i.val, owed] else d
    let d := (d.unReset i).noteReset i
    let was := d.phase i
    let d := ((d.resetLogic i true).updSup i fun s => { s with lastReset := 2, retValid := false }).strandOff i
    if was = .off then d.resetIdent (4 + i.val) else d

/-- A Loupe-issued STRAND_WARM or STRAND_COLD is ignored while the strand is fenced inward (R32). -/
def Dev.loupeWarm (d : Dev) (i : StrandId) : Dev := if (d.supOf i).fenceIn then d else d.strandWarm i
def Dev.loupeCold (d : Dev) (i : StrandId) : Dev := if (d.supOf i).fenceIn then d else d.strandCold i

/-- STRAND_COLD by its source: the Loupe, or a PLL that locks again in a strand that runs (R27). -/
def Dev.coldBy (d : Dev) (i : StrandId) (relock : Bool) : Dev :=
  if !relock then d.loupeCold i
  else if (d.phase i = .run || d.phase i = .hold) && !(d.supOf i).pllLock then d.strandCold i else d

/-- What a strand passes to the wear record (R433). -/
def Dev.noteBanks (d : Dev) (i : StrandId) : Dev :=
  let st := d.strand i
  let w : WearBanks := { remap := st.rd Reg.BANK_REMAP, retired := st.banks.retired,
                         marks := st.lastingBanks.filter fun k => !st.banks.retired.contains k }
  { d with loupe := { d.loupe with wearBanks := d.loupe.wearBanks.set i w } }

/-- What errors in a strand's banks bring to the device once the command is done: a mark enters the wear record and, with REMAP_WARM = 1, requests a
STRAND_WARM, except in MD4 while the ledger owes work; an uncorrectable error in a retention bank is a trigger of the fence (R345, R399, R433).
(DEDUCED, unsafe: log entry 123.) -/
def Dev.bankWatch (d : Dev) (i : StrandId) : Dev :=
  let b := (d.strand i).banks
  if !b.marked && !b.ledgerUe then d
  else
    let d := d.setStrand i { d.strand i with banks := { b with marked := false, ledgerUe := false } }
    let d := if b.marked then d.noteBanks i else d
    let d := if b.marked && (d.strand i).bit Reg.BANK_CTL 2 && !(d.mode = 4 && (d.strand i).ledger.owed != 0) then d.loupeWarm i else d
    if b.ledgerUe then d.fenceTrigger i 10 0x0113 else d

/-! ## Clock, supply, watchdog (R26, R30, R34) -/

/-- CLK_FAIL: the monitor's report; `pll` says that the PLL lost lock. -/
def Dev.clkFail (d : Dev) (i : StrandId) (pll : Bool) : Dev :=
  (d.fenceTrigger i 7 0x0110).updSup i fun s => { s with clkOk := false, pllLock := s.pllLock && !pll }

/-- CLK_OK_RETURN: it releases no fence. -/
def Dev.clkReturn (d : Dev) (i : StrandId) : Dev := if d.por then d else d.updSup i fun s => { s with clkOk := true }

/-- The watchdog of a strand that goes on after an expiry counts anew.  (DEDUCED, unsafe: log entry 173.) -/
def Dev.wdogAgain (d : Dev) (i : StrandId) : Dev :=
  let st := d.strand i
  d.setStrand i { st with core := { st.core with wdog := some (st.fld Reg.CORE_WDOG 15 0 * 100000) } }

/-- A watchdog expiry: the first one performs STRAND_WARM; a second within 10 s is logged, and fences outward where the policy enables it
(R30, R34).  (DEDUCED, unsafe: log entry 101.)  (DEDUCED, unsafe: log entry 173.) -/
def Dev.wdogExpiry (d : Dev) (i : StrandId) : Dev :=
  let again := match (d.supOf i).wdogAt with
    | some t => decide (d.ns < t + 10 ^ 10)
    | none => false
  if !(d.phase i = .run || d.phase i = .hold) then d
  else if again then
    (if bitN d.cfg.policy 9 then d.fenceOut i 9 0x0112 else (d.logExpiry 0x0112 .fatal i).wdogAgain i)
  else
    let now := d.ns
    let d := (d.logExpiry 0x0117 .transient i).fenceInEnd i
    (d.updSup i fun s => { s with wdogAt := some now }).strandWarm i

/-- An expiry while the watchdog runs: TIMEOUT is not 0 and the core is not HALTED (R382). -/
def Dev.coreWdog (d : Dev) (i : StrandId) : Dev :=
  let st := d.strand i
  if st.fld Reg.CORE_WDOG 15 0 = 0 || st.core.state = .reset || st.core.state = .halted then d else d.wdogExpiry i

/-- CORE_WDOG_EXPIRY: the watchdog has run down (R382). -/
def Dev.wdogWatch (d : Dev) (i : StrandId) : Dev := if (d.strand i).core.wdog = some 0 then d.coreWdog i else d

/-- A write of CORE_WDOG_KICK by the core (R382). -/
def Dev.wdogKick (d : Dev) (i : StrandId) (v : Word) : Dev :=
  let st := d.strand i
  let t := st.fld Reg.CORE_WDOG 15 0
  if fieldOf v 7 0 = 0xA5 then
    if t = 0 then d
    else d.onStrand i fun s => ({ s with core := { s.core with wdog := some (t * 100000) } } : StrandSt).inc (Reg.CORE_CNT + 8 * 6)
  else (d.onStrand i fun s => s.flag Reg.CORE_FLAGS 3).coreWdog i

/-! ## Loading (R42, R81, R506) -/

/-- An engine's self-test: it failed once and passed, or failed twice (R81). -/
def StrandSt.selfTest (st : StrandSt) (n : Nat) (passed : Bool) : StrandSt :=
  if passed then st.report 0x0200 .transient [n]
  else (st.updEng n fun e => { e with unavail := true }).report 0x0201 .lasting [n]

/-- LOAD_START: the Loupe starts loading a configured strand, or loads it again after a STRAND_WARM; `tests` lists the engines whose
self-test failed (R42, R81). -/
def Dev.loadStart (d : Dev) (i : StrandId) (tests : List (Fin 16 × Bool)) : Dev :=
  let may := d.mode = 2 || d.mode = 3 || (d.mode = 8 && (d.supOf i).rejoin)
  let test := fun (e : Dev) => (e.onStrand i fun s => tests.foldl (fun a t => a.selfTest t.1.val t.2) s).updSup i
    fun s => { s with tested := true }
  if !d.loupe.firmware || !bitN d.cfg.strands i.val || (d.supOf i).fenceIn then d
  else if d.phase i = .loading then (if (d.supOf i).tested then d else test d)
  else if d.phase i != .off || !may then d
  else
    let wb := d.loupe.wearBanks.get i
    let st := d.strand i
    let remap := if st.rd Reg.BANK_REMAP = 0 then wb.remap else st.rd Reg.BANK_REMAP
    let ret := (st.banks.retired ++ wb.retired).eraseDups
    let st := { st.wr Reg.BANK_REMAP remap with banks := { st.banks with retired := ret } }
    let st := wb.marks.foldl (fun (s : StrandSt) k => s.putBit (Reg.BANK_STATE k) 4 true) st
    let r := st.remapped
    let st := { st.wr Reg.BANK_REMAP r.1 with banks := { st.banks with retired := r.2 } }
    let st := (List.range 48).foldl (fun (s : StrandSt) k =>
      s.wr (Reg.BANK_STATE k) (BitVec.ofNat 32 (if r.2.contains k then 42 else 0))) st
    test (({ d with strands := d.strands.set i st } : Dev).setPhase i .loading)

/-- PLL_LOCK_TIMEOUT: the PLL has not locked 1 ms after the entry to LOADING (R42). -/
def Dev.pllTimeout (d : Dev) (i : StrandId) : Dev :=
  if d.phase i = .loading && !(d.supOf i).pllLock && decide ((d.supOf i).loadAt + 10 ^ 6 ≤ d.ns) then (d.fence i 7 0x0110).afterFence else d

/-- The hardware's checks at the strand lock (R121, R142, R151, R156, R192, R219, R274, R359, R380). -/
def StrandSt.lockChecks (st : StrandSt) : StrandSt :=
  let st := [0, 1, 2, 3].foldl (fun (s : StrandSt) p =>
    if s.bit (Reg.MAC_PREEMPT p) 0 && (s.ptRx p != 0 || s.ptTx p != 0) then
      ((s.flag (Reg.MAC_FLAGS p) 4).report 0x0401 .lasting [p]).putBit (Reg.MAC_STATUS p) 7 false
    else if s.preemptPort p && s.linkUp p && s.bit (Reg.MAC_PREEMPT p) 2 then s.putBit (Reg.MAC_STATUS p) 7 true
    else s) st
  let st := ((((st.tcLock 0).tcLock 1).tcLock 2).tcLock 3)
  let st := if 7936 < st.sumPmin + st.sumQmin then
      (({ st with sw := { st.sw with minsOff := true } } : StrandSt).flag Reg.SW_FLAGS 3).report 0x0601 .lasting []
    else st
  let st := [0, 1, 2, 3].foldl (fun (s : StrandSt) p =>
    if s.fld (Reg.SW_FC p) 31 30 != 0 && s.fld (Reg.SW_FC p) 27 14 ≤ s.fld (Reg.SW_FC p) 13 0 then
      ({ s with sw := { s.sw with fcOff := s.sw.fcOff.set false p true } } : StrandSt).flag Reg.SW_FLAGS 3
    else s) st
  (((st.bangleLock.flgLock).mapLock).cmdCqLock).dtLock

/-- The strand starts: time base, core, Bangle, Filigree (R506); its ledger resumes (R353). -/
def StrandSt.startUp (st : StrandSt) : StrandSt :=
  let entry := st.fld Reg.CORE_CTL 22 2 * 4
  let t := st.fld Reg.CORE_WDOG 15 0
  let st := { st with core := { state := .running, pc := entry, wdog := if t = 0 then none else some (t * 100000) } }
  ((st.timeStart.bangleStartTime).flgStart).ledgerResume

/-! ## The image and the configuration in the flashes (T6) -/

/-- A flash that takes reads and writes (R456). -/
def Flash.works (f : Flash) : Bool := f.present && !f.fail

/-- The stored header of a flash area, from the first flash that works. -/
def Dev.areaInfo (d : Dev) (area : Nat) : ImgInfo :=
  let get := fun (f : Flash) => if f.works then f.info.get none area else none
  ((get d.flashes.a) <|> (get d.flashes.b)).getD {}

/-- Whether the configuration can be used: its reader's verdict, and a base mode it may name (R40, R464).  (DEDUCED, unsafe: log entry 111.) -/
def CfgDev.ok (c : CfgDev) : Bool := c.usable && decide (4 ≤ c.base) && decide (c.base ≤ 7)

/-- T6: the image's configuration format is not the copy's. -/
def Dev.tryT6 (d : Dev) : Dev :=
  if d.cfg.ok && (d.areaInfo d.upd.boot.active).cfgFmt != d.cfg.fmt then d.setMode 3 else d

/-! ## Loupe reset (R27, R428, R429, R447, R472) -/

/-- The relay session loses its ARMED state (R472). -/
def Dev.disarm (d : Dev) : Dev :=
  let s := d.upd.session
  if s.state = 4 then { d with upd := { d.upd with session := { s with state := 3 } } } else d

/-- A LOUPE_RESET of cause 1 lockstep, 2 watchdog, 3 command; in MD2 and MD3 the load phase begins again, its configuration read anew (R45,
R463).  (DEDUCED, unsafe: log entry 108.) -/
def Dev.loupeReset (d : Dev) (cause : Nat) : Dev :=
  if d.por || d.mode = 0 then d
  else
    let l := d.loupe
    let ends := l.safe && cause = 3
    let recent := l.resets.filter fun t => decide (d.ns < t + 60 * 10 ^ 9)
    let counted := if ends then [] else if l.safe then l.resets else recent ++ [d.ns]
    let safe := if ends then false else l.safe || decide (3 ≤ counted.length)
    let entered := safe && !l.safe
    let l := { l with sram := [], core := .loupeStart, firmware := !safe && d.mode != 1 && d.mode != 10, safe := safe, resets := counted,
                      lastReset := cause, kept := [], nonce := none }
    let d := (({ d with loupe := l } : Dev).linc 7).disarm.exchangeLost.resetIdent 0
    let d := d.log (0x1200 + cause) .transient 0 []
    let d := if entered then d.log 0x1204 .fatal 0 [] else d
    let d := d.trialFail
    let d := if safe then d
      else
        let d := if d.loupe.firmware then d.logLate else d
        allStrands.foldl (fun e i => if (e.supOf i).fenceIn then e else e.logCauses i) d
    if d.mode = 2 || d.mode = 3 then
      let d := allStrands.foldl (fun e i => if e.phase i = .loading then e.loupeCold i else e) (d.setMode 2)
      if safe then d else d.tryT6
    else d

/-- LOCKSTEP_MISMATCH (R31, R428). -/
def Dev.lockstep (d : Dev) : Dev :=
  if d.por || d.mode = 0 then d
  else
    let d := allStrands.foldl (fun e i => if bitOf (e.supOf i).ctl 4 then e.fenceInSet i 1 else e) d
    d.loupeReset 1

/-- LOUPE_HEARTBEAT to strand `i` (R31). -/
def Dev.heartbeat (d : Dev) (i : StrandId) : Dev :=
  if !d.loupe.firmware || d.loupe.safe then d
  else (d.updSup i fun s => { s with hbAt := d.ns }).emit (.heartbeat i.val)

/-! ## Supervisor registers (R47) -/

/-- SUP_STATUS of strand `i`. -/
def Dev.supStatus (d : Dev) (i : StrandId) : Word :=
  let s := d.supOf i
  BitVec.ofNat 32 (b2n s.retValid * 2 ^ 15 + b2n s.pllLock * 2 ^ 14 + b2n s.clkOk * 2 ^ 13 + b2n s.lock * 2 ^ 12 +
    s.lastReset % 16 * 2 ^ 8 + b2n s.fenceOut * 2 ^ 5 + b2n s.fenceIn * 2 ^ 4 + s.phase.code)

/-- A write of SUP_CTL: RWL fields by the Loupe before the lock, the fence bits by the core, the hold bits by both (R43, R47). -/
def Dev.supCtlWrite (d : Dev) (m : Master) (i : StrandId) (v : Word) : Dev :=
  match m with
  | .host _ => d
  | _ =>
    let byCore := m != .loupe
    let d :=
      if byCore || (d.supOf i).lock then d
      else d.updSup i fun s =>
        let hb := fieldOf v 23 8
        let c := setBit s.ctl 4 (bitOf v 4)
        { s with ctl := if hb = 0 || 20 ≤ hb then setField c 23 8 hb else c }
    let d :=
      if !byCore || (bitOf v 2 && bitOf v 3) then d
      else if bitOf v 2 then d.fenceInSet i 2
      else if bitOf v 3 then d.fenceInRelease i else d
    if bitOf v 0 then d.holdEnter i else if bitOf v 1 then d.holdExit i else d

/-- A write of SUP_CAUSE: the Loupe and the strand core clear bits (R47, R48). -/
def Dev.supCauseWrite (d : Dev) (m : Master) (i : StrandId) (v : Word) : Dev :=
  match m with
  | .host _ => d
  | _ =>
    let kept : Word := BitVec.ofNat 32 (d.thisCyc.cause.get 0 i.val)
    d.updSup i fun s => { s with cause := s.cause &&& ~~~(v &&& ~~~kept) }

end Sys2Proof.Machine
end

