-- ==== Sys2Proof/Machine/HallmarkOps.lean ====
section
/-! DEFINITION. The Hallmark: wipe, tamper, life cycle, enrolment, and mode MD10 (R400 to R404, R478, T16). -/

namespace Sys2Proof.Machine

/-! ## Wipe (R403) -/

/-- A wipe starts: VALID clears at once.  (DEDUCED, unsafe: log entry 128.) -/
def Dev.wipe (d : Dev) : Dev := { d with hm := { d.hm with valid := false, wiping := true, wipeAt := d.ns } }

/-- The region after a wipe: zeros.  (DEDUCED, unsafe: log entry 128.) -/
def Hallmark.wiped (h : Hallmark) : Hallmark :=
  { h with mem := [], valid := false, wiping := false, badId := false, slots := {}, enrolGen := 0, shadow := {} }

/-- WIPE_COMPLETE: all 64 KiB are zero and read back, 20.5 µs after the start at the earliest.  (DEDUCED, unsafe: log entry 128.) -/
def Dev.wipeComplete (d : Dev) : Dev :=
  if d.hm.wiping && d.hm.wipeAt + 20500 ≤ d.ns then { d with hm := { d.hm.wiped with wipedAt := d.ns } } else d

/-- HM_CMD.WIPE by the Loupe firmware: a wipe, with no change of mode (R403, R44).  (DEDUCED, safe: log entry 117.) -/
def Dev.hmWipe (d : Dev) : Dev := if d.por || d.mode = 0 then d else d.wipe

/-! ## Quarantine (T16) -/

/-- T16: strands FENCED, then OFF; mode MD10, except from MD11.  (DEDUCED, unsafe: log entry 114.) -/
def Dev.quarantine (d : Dev) : Dev :=
  if d.mode = 11 || d.mode = 10 then d
  else
    let d := allStrands.foldl (fun (e : Dev) i =>
      if e.phase i = .off then e
      else
        let e := ((e.updSup i fun s => { s with fenceOut := true }).fenceInEnd i).claspGate i
        ((e.setPhase i .fenced).resetLogic i false).strandOff i) d
    let d := d.disarm.setMode 10
    { d with devLock := false, holdBy := none, loupe := { d.loupe with firmware := false } }

/-- Whether a tamper source is armed: VGLITCH from 1 ms after PORST_N has risen, the others always (R402, R490).  (DEDUCED, unsafe: log entry 208.) -/
def Dev.tamperArmed (d : Dev) (bit : Nat) : Bool := bit != 1 || (!d.por && decide (d.hm.roseAt + 1000000 ≤ d.ns))

/-- TAMPER: a source that is armed latches its cause; outside MD11 the Hallmark is wiped and T16 follows (R402).  (DEDUCED, unsafe: log entry 115.) -/
def Dev.tamper (d : Dev) (bit : Nat) : Dev :=
  if !d.tamperArmed bit then d else
  let h := { d.hm with tamper := putBitN d.hm.tamper bit true }
  let d := { d with hm := h }
  if d.por then d
  else if d.mode = 11 then d.log 0x1010 .fatal 0x40 [d.hm.tamper]
  else (d.wipe.log 0x1010 .fatal 0x40 [d.hm.tamper]).quarantine

/-- A write of TAMPER_CAUSE by the Loupe clears latches (R402). -/
def Dev.tamperClear (d : Dev) (v : Nat) : Dev := { d with hm := { d.hm with tamper := d.hm.tamper &&& (15 - v % 16) } }

/-! ## Life cycle (R404) -/

/-- A write of LC_ADVANCE: only with the key, and only to the next state; the wipe first, the fuses after it.  (DEDUCED, unsafe: log entry 129.) -/
def Dev.lcAdvance (d : Dev) (v : Word) : Dev :=
  let t := fieldOf v 1 0
  if fieldOf v 15 8 != 0x5A || t != d.hm.lc + 1 || d.por || d.mode = 0 then d
  else
    let d := { d with hm := { d.hm with lcNext := some t } }
    (d.wipe.log 0x1011 .fatal 0x40 []).quarantine

/-- LIFE_CYCLE_FUSES_PROGRAMMED: 2 ms after the wipe (R404). -/
def Dev.fusesDone (d : Dev) : Dev :=
  match d.hm.lcNext with
  | some t => if d.hm.wiping || d.ns < d.hm.wipedAt + 2000000 then d else { d with hm := { d.hm with lc := t, lcNext := none } }
  | none => d

/-! ## Enrolment (R401, R478) -/

/-- `n` opaque bytes.  (DESIGN CHOICE, safe: log entry 16.) -/
def freeBytes (f : Nat → Byte) (n : Nat) : List Byte := (List.range n).map f

/-- The key slots of an enrolment: entry `k` is a 48 B hash and a 4 B status word.  (PRESUMED, unsafe: log entry 127.) -/
def Hallmark.putSlots (h : Hallmark) : List (List Byte) → Nat → Hallmark
  | [], _ => h
  | e :: es, k =>
    let h := { h with mem := Memory.write h.mem (0x400 + 64 * k) (e.take 52), slots := h.slots.set 0 k (leNum ((e.drop 48).take 4)) }
    h.putSlots es (k + 1)

/-- What an accepted enrolment writes: header, identity and serial number, slots, ENROL_GEN, VALID.  (DESIGN CHOICE, safe: log entry 16.) -/
def Hallmark.enrolled (h : Hallmark) (entries : List (List Byte)) : Hallmark :=
  let g := (h.enrolGen + 1) % 256
  let m := Memory.write h.mem 0 (freeBytes (Config.hmHeader g) 64)
  let m := Memory.write m 0x100 (freeBytes (fun o => Config.identity g (0x100 + o)) 48)
  let m := Memory.write m 0x200 (freeBytes (fun o => Config.identity g (0x200 + o)) 256)
  ({ h with mem := m, valid := true, badId := false, enrolGen := g } : Hallmark).putSlots entries 0

/-- The entries of an enrolment's body, each 52 B. -/
def enrolEntries (body : List Byte) : List (List Byte) := (List.range (body.length / 52)).map fun k => (body.drop (52 * k)).take 52

/-- Whether the body holds one to eight whole entries with no reserved status bit. -/
def enrolBody (body : List Byte) : Bool :=
  body.length % 52 == 0 && decide (52 ≤ body.length) && decide (body.length ≤ 416) &&
  (enrolEntries body).all fun e => decide (leNum ((e.drop 48).take 4) < 4)

/-! ## Access by the Loupe pair (R400, R401) -/

/-- A byte of the Hallmark as the Loupe reads it: the private key and the reserved areas read as 0. -/
def Dev.hmRead (d : Dev) (off : Nat) : Byte :=
  let ok := off < 0x40 || (0x200 ≤ off && off < 0x300) || (0x400 ≤ off && off < 0x600) || (0x1000 ≤ off && off < 0x1040) ||
            (0x2000 ≤ off && off < 0x10000)
  if !ok then 0
  else if 0x1000 ≤ off && off < 0x1040 then BitVec.ofNat 8 (d.hm.shadow.get 0 ((off - 0x1000) / 4) / 256 ^ (off % 4))
  else Memory.get d.hm.mem off

/-- A write of the Loupe: the secure data, and the shadow only with the value the counter holds. -/
def Dev.hmWrite (d : Dev) (off : Nat) (bs : List Byte) : Dev :=
  if 0x2000 ≤ off && off + bs.length ≤ 0x10000 then { d with hm := { d.hm with mem := Memory.write d.hm.mem off bs } }
  else if 0x1000 ≤ off && off < 0x1040 && off % 4 = 0 && bs.length = 4 then
    let k := (off - 0x1000) / 4
    if leNum bs = d.hm.rollback.get 0 k then { d with hm := { d.hm with shadow := d.hm.shadow.set 0 k (leNum bs) } } else d
  else d

/-- The anti-rollback counter `k` advanced to `v` with its shadow (R474). -/
def Dev.advanceCounter (d : Dev) (k v : Nat) : Dev :=
  if d.hm.rollback.get 0 k < v then
    ({ d with hm := { d.hm with rollback := d.hm.rollback.set 0 k v, shadow := d.hm.shadow.set 0 k v } } : Dev).log 0x1321 .transient 0 [k, v]
  else d

/-- Whether the Hallmark holds a valid identity (T2, R401). -/
def Hallmark.hasId (h : Hallmark) : Bool := h.valid && !h.badId

/-- The start's work on the Hallmark: the pending wipe completes, an uncorrectable error makes the identity invalid, the shadow is written from the
counters (R401, R403, R463). -/
def Dev.hmStart (d : Dev) (err : Bool) : Dev :=
  let h := if d.hm.valid then { d.hm with wiping := false, badId := d.hm.badId || err } else { d.hm.wiped with wipedAt := d.ns }
  let d := if d.hm.valid && err then d.log 0x1012 .lasting 0x40 [] else d
  let d := { d with hm := h }
  let d := if d.hm.shadow = d.hm.rollback then d else d.log 0x1013 .lasting 0x40 []
  { d with hm := { d.hm with shadow := d.hm.rollback } }

end Sys2Proof.Machine
end

