-- ==== Sys2Proof/Machine/LoupeOps.lean ====
section
/-! DEFINITION. The Loupe's sensors, wear, log partitions, time and nonce (R431 to R440, R445, R494). -/

namespace Sys2Proof.Machine

/-- The Loupe works beyond its ROM's four operations: after POR, outside MD0 and LOUPE_SAFE (R429).  (DEDUCED, safe: log entry 133.) -/
def Dev.loupeAwake (d : Dev) : Bool := !d.por && d.mode != 0 && !d.loupe.safe

/-! ## Sensors (R431, R432) -/

/-- LP_CFG.TEMP_LIMIT in 1/16 °C. -/
def Dev.tempLimit (d : Dev) : Int := 16 * (d.lfld Reg.LP_CFG 31 24 : Int)

/-- One sensor's new value: its register, its count of samples above the limit, its strand's highest value of the minute.  (DEDUCED, unsafe: log entry
132.)  (DEDUCED, unsafe: log entry 136.) -/
def Dev.tempOne (d : Dev) (j : Fin 12) (t : Int) : Dev :=
  let above := d.tempLimit < t
  let n := if above then min 2 (d.loupe.hot.get 0 j.val + 1) else 0
  let reached := n = 2 && d.loupe.hot.get 0 j.val != 2
  let s : StrandId := Fin.ofNat 4 (j.val / 3)
  let peak := match d.loupe.peak.get s with
    | some p => max p t
    | none => t
  let l := { d.loupe with hot := d.loupe.hot.set 0 j.val n, peak := d.loupe.peak.set s (some peak) }
  let d := ({ d with loupe := l } : Dev).lwr (Reg.TEMP j.val) (BitVec.ofNat 32 (wrapN 16 t))
  if reached then (d.lflag Reg.LP_FLAGS 3).log 0x1205 .transient 0 [j.val, wrapN 16 t] else d

/-- Whether `span` ns have passed since a moment of the past. -/
def Dev.overdue (d : Dev) (last : Option Nat) (span : Nat) : Bool :=
  match last with
  | none => true
  | some t => decide (t + span ≤ d.ns)

/-- TEMP_SAMPLE, every 1 ms: twelve readings in 1/16 °C, of 16 bits; two samples above the limit raise the sensor trigger of T13 (R432).  (DEDUCED, unsafe: log entry 132.) -/
def Dev.tempSample (d : Dev) (ts : List Int) : Dev :=
  if !d.loupeAwake || ts.length != 12 || !d.overdue d.loupe.tempAt (10 ^ 6) then d
  else
    let d := { d with loupe := { d.loupe with tempAt := some d.ns } }
    let d := (List.finRange 12).foldl (fun (e : Dev) j => e.tempOne j (ts.getD j.val 0)) d
    let cool := ts.all fun t => decide (t ≤ d.tempLimit - 80)
    let since := if cool then some (d.loupe.coolAt.getD d.ns) else none
    let d := { d with loupe := { d.loupe with coolAt := since } }
    if (List.range 12).any (fun j => d.loupe.hot.get 0 j == 2) then d.enterHold .sensor else d

/-- Every sensor has read at or below TEMP_LIMIT - 5 °C for 1 s (R432). -/
def Dev.cooled (d : Dev) : Bool :=
  match d.loupe.coolAt with
  | some t => decide (t + 10 ^ 9 ≤ d.ns)
  | none => false

/-- RAIL_SAMPLE of a strand, every 10 µs: its core and SerDes rails in mV (R431). -/
def Dev.railSample (d : Dev) (i : StrandId) (core serdes : Nat) : Dev :=
  if !d.loupeAwake || !d.overdue (d.loupe.railAt.get i) (10 ^ 4) then d
  else (({ d with loupe := { d.loupe with railAt := d.loupe.railAt.set i (some d.ns) } } : Dev).lwr (Reg.VCORE i.val) (BitVec.ofNat 32 (core % 4096))).lwr (Reg.VSERDES i.val) (BitVec.ofNat 32 (serdes % 4096))

/-! ## Wear (R433 to R435) -/

/-- e to the power `y`, both in 2^-60, for small `y`: the series to the 15th power.  (DESIGN CHOICE, unsafe: log entry 135.) -/
def expSeries (y : Int) : Int :=
  (List.range 15).foldl (fun (a : Int) k => 2 ^ 60 + a * y / (2 ^ 60 * (15 - k : Nat))) (2 ^ 60)

/-- Squares a number of 2^-60 `n` times. -/
def squareN (x : Int) : Nat → Int
  | 0 => x
  | n + 1 => squareN (x * x / 2 ^ 60) n

/-- AF = exp(8,123 × (1/368.15 − 1/(T + 273.15))) for T in 1/16 °C, in 2^-32 (R434).  (DESIGN CHOICE, unsafe: log entry 135.) -/
def agingFactor (t16 : Int) : Nat :=
  let x : Int := (8123 * 20 * 2 ^ 60) / 7363 - (8123 * 80 * 2 ^ 60) / (5 * t16 + 21852)
  (squareN (expSeries (x / 32)) 5 / 2 ^ 28).toNat

/-- A usage as a fraction. -/
structure Usage where
  num : Nat
  den : Nat
deriving DecidableEq, Repr

def Usage.max (a b : Usage) : Usage := if a.num * b.den < b.num * a.den then b else a

/-- U_s = max(U_T, U_D, U_C) (R435). -/
def Dev.usage (d : Dev) (i : StrandId) : Usage :=
  let w := d.loupe.wear.get i
  let ut : Usage := { num := w.eqh, den := 264500 * 2 ^ 32 }
  let ud : Usage := { num := if w.monFail then 0 else w.drift ^ 4, den := 12000 ^ 4 }
  let uc : Usage := { num := d.loupe.pcyc, den := 5000 }
  (ut.max ud).max uc

/-- H_OP in hours. -/
def Dev.hop (d : Dev) : Nat := d.loupe.hopNs / (3600 * 10 ^ 9)

/-- WEAR_U_s: U in 2^-16, saturating. -/
def Dev.wearU (d : Dev) (i : StrandId) : Nat := min 0x10000 ((d.usage i).num * 65536 / (d.usage i).den)

/-- WEAR_REMAIN_s: R_s in hours (R435).  (DEDUCED, unsafe: log entry 138.) -/
def Dev.wearRemain (d : Dev) (i : StrandId) : Nat :=
  let u := d.usage i
  if u.den ≤ u.num then 0
  else if u.num = 0 || d.hop < 1000 then 262980
  else min 262980 (d.hop * (u.den - u.num) / u.num)

/-- The usage of a strand is judged: LIFE_WARN and WEAR_OUT, each once per strand (R435). -/
def Dev.judgeWear (d : Dev) (i : StrandId) : Dev :=
  let u := d.usage i
  let w := d.loupe.wear.get i
  let warn := !w.warned && decide (d.lfld Reg.LP_LIFE_WARN 16 0 * u.den ≤ u.num * 65536)
  let out := !w.out && decide (u.den ≤ u.num)
  let w := { w with warned := w.warned || warn, out := w.out || out }
  let d := { d with loupe := { d.loupe with wear := d.loupe.wear.set i w } }
  let d := if warn then (d.lflag Reg.LP_FLAGS 5).log 0x1211 .lasting 0 [i.val] else d
  if out then (d.lflag Reg.LP_FLAGS 6).log 0x1210 .lasting 0 [i.val] else d

/-- Two readings agree within 100 ppm.  (DEDUCED, unsafe: log entry 134.) -/
def agree (a b : Nat) : Bool := decide (a ≤ b + 100) && decide (b ≤ a + 100)

/-- WEAR_MEASURE of a strand: two readings in ppm, and the third that is taken where they differ, once per 24 h and after each
POR (R434).  (DEDUCED, unsafe: log entry 134.) -/
def Dev.wearMeasure (d : Dev) (i : StrandId) (r1 r2 r3 : Nat) : Dev :=
  if !d.loupeAwake || !d.overdue (d.loupe.measuredAt.get i) (86400 * 10 ^ 9) then d
  else
    let d := { d with loupe := { d.loupe with measuredAt := d.loupe.measuredAt.set i (some d.ns) } }
    let w := d.loupe.wear.get i
    let put := fun (e : Dev) (x : Wear) => { e with loupe := { e.loupe with wear := e.loupe.wear.set i x } }
    if agree r1 r2 then (put d { w with drift := (r1 + r2) / 2 % 2 ^ 20 }).judgeWear i
    else if agree r1 r3 || agree r2 r3 then
      let r := if agree r1 r3 then r1 else r2
      ((put d { w with drift := (r + r3) / 2 % 2 ^ 20 }).log 0x1213 .transient 0 [i.val]).judgeWear i
    else ((put d { w with monFail := true }).lflag Reg.LP_FLAGS 4).log 0x1212 .lasting 0 [i.val]

/-- EQH of a strand grows by AF / 60 h at the highest reading of the minute.  (DEDUCED, unsafe: log entry 136.) -/
def Dev.eqhOne (d : Dev) (i : StrandId) : Dev :=
  match d.loupe.peak.get i with
  | none => d
  | some t =>
    let w := d.loupe.wear.get i
    let w := { w with eqh := w.eqh + agingFactor t / 60 }
    ({ d with loupe := { d.loupe with wear := d.loupe.wear.set i w, peak := d.loupe.peak.set i none } } : Dev).judgeWear i

/-- EQH_UPDATE, once a minute: the equivalent hours (R434).  (DEDUCED, unsafe: log entry 137.) -/
def Dev.eqhUpdate (d : Dev) : Dev :=
  if !d.loupeAwake || !d.overdue d.loupe.eqhAt (60 * 10 ^ 9) then d
  else allStrands.foldl (fun e i => e.eqhOne i) { d with loupe := { d.loupe with eqhAt := some d.ns } }

/-! ## Flashes -/

def Dev.flash (d : Dev) (b : Bool) : Flash := d.flashes.get b
def Dev.setFlash (d : Dev) (b : Bool) (f : Flash) : Dev := { d with flashes := d.flashes.set b f }

/-- Log source of a flash (R438). -/
def flashSrc (b : Bool) : Nat := if b then 0x31 else 0x30

/-- A flash is marked FAIL (R456).  (DEDUCED, unsafe: log entry 163.) -/
def Dev.flashFail (d : Dev) (b : Bool) : Dev :=
  let f := d.flash b
  if f.fail then d else ((d.setFlash b { f with fail := true }).uflag 0).log 0x1304 .lasting (flashSrc b) []

/-- How a read of stored content comes out: 0 from FLASH_A, 1 from FLASH_B at the second read, 2 and more not at all (R456).  (DEDUCED, unsafe: log entry 163.) -/
def Dev.readTwice (d : Dev) (outcome : Nat) : Dev :=
  match outcome with
  | 0 => d
  | 1 => ((d.uinc 8).uflag 1).log 0x1301 .transient 0 []
  | _ => d.log 0x1302 .lasting 0 []

/-- Both flashes that work, changed by `f`. -/
def Dev.eachFlash (d : Dev) (f : Flash → Flash) : Dev :=
  let g := fun (x : Flash) => if x.works then f x else x
  { d with flashes := ⟨g d.flashes.a, g d.flashes.b⟩ }

/-- WEAR_RECORD_WRITE (R433). -/
def Dev.wearRecordWrite (d : Dev) : Dev :=
  if d.por then d
  else
    let d := allStrands.foldl (fun e i => if e.phase i = .off then e else e.noteBanks i) d
    let gen := max ((d.flashes.a.wear.map (·.gen)).getD 0) ((d.flashes.b.wear.map (·.gen)).getD 0) + 1
    let l := d.loupe
    let w : WearRec := { gen := gen, hopNs := l.hopNs, pcyc := l.pcyc, wear := l.wear, banks := l.wearBanks,
                         logNum := (l.nextNum + 2 ^ 32 - 1) % 2 ^ 32 }
    d.eachFlash fun f => { f with wear := some w }

/-- The wear record of the higher generation (R433). -/
def Dev.wearFound (d : Dev) : Option WearRec :=
  let a := if d.flashes.a.works then d.flashes.a.wear else none
  let b := if d.flashes.b.works then d.flashes.b.wear else none
  match a, b with
  | some x, some y => some (if x.gen < y.gen then y else x)
  | some x, none => some x
  | none, y => y

/-! ## The log partitions (R438, R439) -/

/-- A log partition with records appended; a sector of 2,048 records is erased as the write point enters it.  (DEDUCED, unsafe: log entry 140.) -/
def logAppend (log : List LogRec) (rs : List LogRec) : List LogRec :=
  rs.foldl (fun l r => if l.length < 131072 then l ++ [r] else l.drop 2048 ++ [r]) log

/-- Whether a flash takes log records. -/
def Flash.logs (f : Flash) : Bool := f.works && !f.logStop

/-- The records written to one flash; `fails` writes of it failed: one is retried, two stop that flash's log. -/
def Dev.flushOne (d : Dev) (b : Bool) (rs : List LogRec) (fails : Nat) : Dev :=
  let f := d.flash b
  if !f.logs then d
  else if 2 ≤ fails then ((d.setFlash b { f with logStop := true }).lflag Reg.LP_FLAGS 1).log 0x1209 .lasting (flashSrc b) []
  else
    let d := d.setFlash b { f with log := logAppend f.log rs }
    if fails = 1 then d.log 0x1208 .transient (flashSrc b) [] else d

/-- LOG_FLUSH: the waiting records go to both flashes (R439). -/
def Dev.logFlush (d : Dev) (failA failB : Nat) : Dev :=
  let l := d.loupe
  if d.por || l.unflushed = 0 || !(d.flashes.a.logs || d.flashes.b.logs) then d
  else
    let rs := l.log.drop (l.log.length - l.unflushed)
    let lost := l.lostPend
    let d := { d with loupe := { l with unflushed := 0, lostPend := false } }
    let d := (d.flushOne false rs failA).flushOne true rs failB
    if lost then d.log 0x120A .transient 0 [] else d

/-- The highest record number the flashes and the wear record hold (R439). -/
def Dev.lastNum (d : Dev) : Option Nat :=
  let nums := (d.flashes.a.log ++ d.flashes.b.log).map (·.num) ++ (d.wearFound.map (·.logNum)).toList
  if nums.isEmpty then none else some (nums.foldl max 0)

/-- A 32 B log record (R438). -/
def LogRec.bytes (r : LogRec) : List Byte :=
  leBytes 6 (r.time / 10 ^ 9) ++ leBytes 4 (r.time % 10 ^ 9) ++
  [BitVec.ofNat 8 r.source, BitVec.ofNat 8 (r.cls + 8 * b2n r.timeUnc + 16 * b2n r.supp)] ++ leBytes 2 r.code ++ leBytes 2 r.num ++
  leBytes 4 (r.args.getD 0 0) ++ leBytes 4 (r.args.getD 1 0) ++ leBytes 4 (r.args.getD 2 0) ++ leBytes 4 (r.args.getD 3 0)

/-- A record by its number, from the ring or a flash (R448). -/
def Dev.findLog (d : Dev) (n : Nat) : Option LogRec :=
  (d.loupe.log ++ d.flashes.a.log ++ d.flashes.b.log).find? fun r => r.num == n

/-! ## Loupe time (R440) -/

/-- Loupe time set to `ns`.  (DEDUCED, unsafe: log entry 142.) -/
def Dev.setLoupeTime (d : Dev) (ns : Nat) : Dev :=
  { d with loupe := { d.loupe with timeOfs := (ns : Int) - d.ns, timeUnc := false, timeAt := d.ns } }

/-- The source strand's time may be copied: enabled, running, certain.  (DEDUCED, unsafe: log entry 141.) -/
def Dev.timeSourceOk (d : Dev) : Bool :=
  let i : StrandId := Fin.ofNat 4 (d.lfld Reg.LP_CFG 23 22)
  d.lbit Reg.LP_CFG 21 && (d.phase i = .run || d.phase i = .hold) && (d.strand i).timeRunning && !(d.strand i).tsUncertain

/-- LOUPE_TIME_COPY, once per second; a fence inward hides the strand's time from the Loupe (R32, R440).  (DEDUCED, unsafe: log entry 141.) -/
def Dev.timeCopy (d : Dev) : Dev :=
  let i : StrandId := Fin.ofNat 4 (d.lfld Reg.LP_CFG 23 22)
  if !d.loupeAwake || !d.timeSourceOk || (d.supOf i).fenceIn || !d.overdue d.loupe.copyAt (10 ^ 9) then d
  else ({ d with loupe := { d.loupe with copyAt := some d.ns } } : Dev).setLoupeTime (d.strand i).tNs

/-- TIME_UNC returns to 1 (R440).  (DEDUCED, unsafe: log entry 143.) -/
def Dev.timeDoubt (d : Dev) : Dev := { d with loupe := { d.loupe with timeUnc := true } }

/-- TIME_UNC_TIMEOUT: 3,600 s without a copy or a SET_TIME (R440). -/
def Dev.timeUncTimeout (d : Dev) : Dev := if d.ns < d.loupe.timeAt + 3600 * 10 ^ 9 then d else d.timeDoubt

/-- TIME_UNC after a command: it returns to 1 when the source's time was good before the command and is not after it.  (DEDUCED, unsafe: log entry 143.) -/
def Dev.timeWatch (d before : Dev) : Dev := if before.timeSourceOk && !d.timeSourceOk then d.timeDoubt else d

/-! ## Nonce (R445) -/

/-- GET_NONCE issues the next nonce.  (DESIGN CHOICE, safe: log entry 17.) -/
def Dev.issueNonce (d : Dev) : Dev :=
  let l := d.loupe
  { d with loupe := { l with nonce := some (Config.nonce l.nonces).toNat, nonceAt := d.ns, nonces := l.nonces + 1 } }

/-- NONCE_EXPIRY, 60 s after the issue (R445). -/
def Dev.nonceExpiry (d : Dev) : Dev :=
  if d.ns < d.loupe.nonceAt + 60 * 10 ^ 9 then d else { d with loupe := { d.loupe with nonce := none } }

end Sys2Proof.Machine
end

