-- ==== Sys2Proof/Machine/Store.lean ====
section
/-! DEFINITION. What the flashes hold of an image: stored blocks and the FIRMWARE directory (R455, R458). -/

namespace Sys2Proof.Machine

/-! ## Stored blocks (R455, R468) -/

/-- Key of block `k` of an area. -/
def blockKey (area k : Nat) : Nat := 65536 * area + k

/-- A block with bytes replaced from `at_` on; an erased byte reads 0xFF. -/
def patchBlock (old : List Byte) (off : Nat) (bs : List Byte) : List Byte :=
  let pre := old.take off ++ List.replicate (off - old.length) 0xFF
  pre ++ bs ++ old.drop (off + bs.length)

/-- The blocks of a flash with bytes stored at an offset of an area. The number bounds the blocks. -/
def storeBytes (t : Tab (List Byte)) (area off : Nat) (bs : List Byte) : Nat → Tab (List Byte)
  | 0 => t
  | n + 1 =>
    match bs with
    | [] => t
    | _ =>
      let room := 1024 - off % 1024
      let key := blockKey area (off / 1024)
      let t := t.set [] key (patchBlock (t.get [] key) (off % 1024) (bs.take room))
      storeBytes t area (off + room) (bs.drop room) n

/-- Bytes stored in both flashes. -/
def Dev.storeArea (d : Dev) (area off : Nat) (bs : List Byte) : Dev :=
  d.eachFlash fun f => { f with blocks := storeBytes f.blocks area off bs (bs.length / 1024 + 2) }

/-- The header of an area as the flashes hold it. -/
def Dev.setInfo (d : Dev) (area : Nat) (i : Option ImgInfo) : Dev := d.eachFlash fun f => { f with info := f.info.set none area i }

/-- An area without blocks. -/
def Dev.eraseArea (d : Dev) (area : Nat) : Dev :=
  (d.eachFlash fun f => { f with blocks := f.blocks.dropIf fun k => k / 65536 == area }).setInfo area none

/-! ## Reading what is stored -/

/-- Little-endian field of a byte list. -/
def leAt (bs : List Byte) (i n : Nat) : Nat := leNum ((bs.drop i).take n)

/-- A block as the first working flash holds it. -/
def Dev.readBlock (d : Dev) (area k : Nat) : List Byte :=
  let f := if d.flashes.a.works then d.flashes.a else d.flashes.b
  f.blocks.get [] (blockKey area k)

/-- `n` bytes from an offset of an area; an erased byte reads 0xFF. -/
def Dev.areaBytes (d : Dev) (area off n : Nat) : List Byte :=
  if n = 0 then []
  else
    let k := off / 1024
    (((List.range ((off + n - 1) / 1024 - k + 1)).flatMap fun j =>
      let b := d.readBlock area (k + j)
      b ++ List.replicate (1024 - b.length) 0xFF).drop (off % 1024)).take n

/-- One entry of a FIRMWARE directory: CKIND, OFFSET and LENGTH (R458). -/
structure FwEnt where
  kind : Nat
  off : Nat
  len : Nat
deriving DecidableEq, Repr

/-- The directory of the payload stored in a slot, which begins behind the 512 B header (R458). -/
def Dev.fwEntries (d : Dev) (slot : Nat) : List FwEnt :=
  (List.range (min 64 (leNum (d.areaBytes slot 512 4)))).map fun k =>
    let e := d.areaBytes slot (528 + 64 * k) 64
    { kind := leAt e 0 1, off := leAt e 4 4, len := leAt e 8 4 }

/-- Whether the directory of a slot keeps R458: 1 to 64 components, no reserved kind, exactly one Loupe firmware, at most one migration routine,
each component inside the payload. -/
def Dev.fwOk (d : Dev) (slot : Nat) : Bool :=
  let n := leNum (d.areaBytes slot 512 4)
  let es := d.fwEntries slot
  decide (1 ≤ n) && decide (n ≤ 64) &&
  es.all (fun e => decide (1 ≤ e.kind) && decide (e.kind ≤ 4) && decide (e.off + e.len ≤ (d.areaInfo slot).length)) &&
  (es.filter fun e => e.kind == 1).length == 1 && decide ((es.filter fun e => e.kind == 2).length ≤ 1)

/-- Whether the image in a slot carries a migration routine (R458, R465). -/
def Dev.fwMigrates (d : Dev) (slot : Nat) : Bool := (d.fwEntries slot).any fun e => e.kind == 2

/-- Whether the image in a slot carries this package (R458). -/
def Dev.fwCarries (d : Dev) (slot : Nat) (m : List Byte) : Bool :=
  (d.fwEntries slot).any fun e => e.kind == 3 && e.len == m.length && d.areaBytes slot (512 + e.off) e.len == m

/-! ## Configuration records (R464) -/

/-- The record TYPEs of a configuration payload, each with its 4 B header and 4-byte aligned; none where the list is broken.  The number bounds the
records. -/
def cfgTypes : Nat → List Byte → Option (List Nat)
  | 0, _ => none
  | n + 1, bs =>
    match bs with
    | [] => some []
    | _ =>
      let len := 4 + 4 * ((leAt bs 2 2 + 3) / 4)
      if bs.length < len then none else (cfgTypes n (bs.drop len)).map (leAt bs 0 2 :: ·)

/-- Whether the payload of a configuration copy is a record list without a reserved type and with exactly one DEVICE record (R464).  (DESIGN CHOICE,
unsafe: log entry 196.) -/
def Dev.cfgForm (d : Dev) (copy : Nat) : Bool :=
  let n := (d.areaInfo (2 + copy % 2)).length
  match cfgTypes (n / 4 + 1) (d.areaBytes (2 + copy % 2) 512 n) with
  | some ts => ts.all (fun t => (1 ≤ t && t ≤ 7) || 0x8000 ≤ t) && (ts.filter (· == 1)).length == 1
  | none => false

end Sys2Proof.Machine
end

