-- ==== Sys2Proof/Machine/StrandRegs.lean ====
section
/-! DEFINITION. A strand's register space as masters read and write it (R8, R11, R14, R18 and the unit chapters).  Masters are
numbered 0 and 1 for the host on link A and B, 2 for the strand's core, 3 for the Loupe. -/

namespace Sys2Proof.Machine

/-- A word spelled by a sum of fields. -/
def packW (fs : List (Nat × Nat)) : Word := BitVec.ofNat 32 (fs.map fun f => f.1 * 2 ^ f.2).sum

/-- The low word or, four bytes on, the high 16 bits of a snapshot counter (R18). -/
def snapWord (t : Tab Nat) (off : Nat) : Word :=
  let v := t.get 0 (off / 8 * 8)
  BitVec.ofNat 32 (if off % 8 = 0 then v % 2 ^ 32 else v / 2 ^ 32 % 2 ^ 16)

/-! ## Bead engines and the Bead control block (R83 to R85) -/

/-- The code of an engine state. -/
def EngState.code : EngState → Nat
  | .stopped => 0
  | .running => 1
  | .stalled => 2
  | .waiting => 3

/-- A read of the page of engine `n` at page offset `o`. -/
def StrandSt.beadPeek (st : StrandSt) (n o : Nat) : Word :=
  let e := st.eng n
  if 0x100 ≤ o && o < 0x200 then (e.imem.get 0 ((o - 0x100) / 4)).setWidth 32
  else if 0xA0 ≤ o && o < 0xD8 then snapWord st.snap (Reg.BEAD_CTL n + o)
  else match o with
    | 0x08 => packW [(e.pc, 16), (b2n e.unavail, 15), (b2n (st.holdsClaim n), 14), (b2n e.stopPend, 13), (e.stopCause, 8),
        (e.stallCause, 4), (e.state.code, 0)]
    | 0x1C => st.qcfgPeek n
    | 0x20 => packW [(e.rxq.length, 8), (e.txq.length, 0)]
    | 0x30 => e.osr
    | 0x34 => e.isr
    | 0x38 => packW [(e.y.toNat, 16), (e.x.toNat, 0)]
    | 0x3C => packW [(e.isrCnt, 8), (e.osrCnt, 0)]
    | 0x40 => e.cmp
    | 0x50 => BitVec.ofNat 32 (e.crc.toNat % 2 ^ (st.crcEntry n).width)
    | 0x54 => BitVec.ofNat 32 (st.crcFinal n)
    | _ => st.rd (Reg.BEAD_CTL n + o)

/-- A read of the Bead control block. -/
def StrandSt.bpPeek (st : StrandSt) (off : Nat) : Word :=
  if off = Reg.BP_IN then st.bp.sync2.setWidth 32
  else if off = Reg.BP_VIO then setBit (setBit (st.rd off) 4 (st.bankOk 0)) 5 (st.bankOk 12)
  else if off = Reg.BP_CLAIM then packW ((List.range 24).map fun p => (b2n (st.bp.own.get none p).isSome, p))
  else if off = Reg.VL_OWN then
    packW ((List.range 4).map fun p => match st.bp.lane.get none p with
      | some n => (16 + n, 8 * p)
      | none => (0, 0))
  else if Reg.BP_OWN 0 ≤ off && off ≤ Reg.BP_OWN 2 then
    packW ((List.range 8).map fun j => ((st.bp.own.get none (2 * (off - Reg.BP_OWN 0) + j)).getD 0, 4 * j))
  else st.rd off

/-- Whether a write of BEAD_QCFG of engine `n` finds every affected engine STOPPED (R66). -/
def StrandSt.qcfgFree (st : StrandSt) (n : Nat) (chain : Bool) : Bool :=
  (st.eng n).state == .stopped && (chain == st.chained n || (st.eng (n + 1)).state == .stopped)

/-- BEAD_QCFG_WRITE (R64 to R66): a chain without a direction is refused as a whole. -/
def StrandSt.qcfgWrite (st : StrandSt) (n : Nat) (v : Word) : StrandSt :=
  if st.chainOdd n then st
  else
    let mode := if fieldOf v 1 0 = 3 then st.fld (Reg.BEAD_QCFG n) 1 0 else fieldOf v 1 0
    let chain := n % 2 == 0 && bitOf v 16
    if !st.qcfgFree n chain then st.flag (Reg.BEAD_FLAGS n) 1
    else if chain && (fieldOf v 1 0 = 0 || fieldOf v 1 0 = 3) then st.flag (Reg.BEAD_FLAGS n) 6
    else
      let st := st.emptyQueues n
      let st := if chain == st.chained n then st else st.emptyQueues (n + 1)
      st.wr (Reg.BEAD_QCFG n) (packW [(b2n chain, 16), (fieldOf v 13 8, 8), (fieldOf v 7 2, 2), (mode, 0)])

/-- BEAD_IMEM_WRITE (R78): a word written anew no longer fails (R79). -/
def StrandSt.imemWrite (st : StrandSt) (n i : Nat) (v : Word) : StrandSt :=
  if (st.eng n).state != .stopped then st.flag (Reg.BEAD_FLAGS n) 0
  else st.updEng n fun e => { e with imem := e.imem.set 0 (i % 64) (v.setWidth 24), bad := e.bad.set false (i % 64) false }

/-! ## Writes by the access codes (R11, R13 to R15) -/

/-- The number of a master in a strand's register space. -/
def Master.code : Master → Nat
  | .host b => b2n b
  | .core _ => 2
  | .loupe => 3

/-- The bit of a master in a row's `who` mask. -/
def mayWrite (r : RegRow) (m : Nat) : Bool := bitN r.who (m - 1)

/-- A write that only stores, over the value `old` that the register reads as. -/
def StrandSt.fieldWrite (st : StrandSt) (m off : Nat) (old v : Word) : Word :=
  match findRow (strandRows off) off with
  | none => old
  | some r => if mayWrite r m then BitVec.ofNat 32 (rowWrite r st.env.locked old.toNat v.toNat (st.kept off)) else old

/-- A write that only stores. -/
def StrandSt.plainWrite (st : StrandSt) (m off : Nat) (v : Word) : StrandSt :=
  if (findRow (strandRows off) off).isSome then st.wr off (st.fieldWrite m off (st.rd off) v) else st

/-- BEAD_PINCFG as a write of `v` over `old` finds its base fields: a virtual base has two bits, a physical base past pin 23 is reserved
and keeps the field (R15, R83). -/
def pincfgBases (old v : Word) : Word :=
  let base := fun (w : Word) (kind hi lo : Nat) =>
    if bitOf v kind then setField w hi lo (fieldOf v (lo + 1) lo)
    else if 24 ≤ fieldOf v hi lo then setField w hi lo (fieldOf old hi lo) else w
  base (base v 19 14 10) 9 4 0

/-- A write of a "STOPPED only" register of engine `n` at page offset `o` (R78). -/
def StrandSt.beadStopped (st : StrandSt) (m n o : Nat) (v : Word) : StrandSt :=
  let off := Reg.BEAD_CTL n + o
  if (st.eng n).state != .stopped then st.flag (Reg.BEAD_FLAGS n) 1
  else
    let w := st.fieldWrite m off (st.beadPeek n o) (if o = 0x18 then pincfgBases (st.rd off) v else v)
    match o with
    | 0x30 => st.updEng n fun e => { e with osr := w }
    | 0x34 => st.updEng n fun e => { e with isr := w }
    | 0x38 => st.updEng n fun e => { e with y := BitVec.ofNat 16 (fieldOf w 31 16), x := BitVec.ofNat 16 (fieldOf w 15 0) }
    | 0x3C => st.updEng n fun e => { e with isrCnt := fieldOf w 13 8, osrCnt := fieldOf w 5 0 }
    | 0x4C => (st.wr off w).crcLoad n
    | 0x50 => st.updEng n fun e => { e with crc := BitVec.ofNat 32 (w.toNat % 2 ^ (st.crcEntry n).width) }
    | _ => st.wr off w

/-- A write into the page of engine `n` at page offset `o`. -/
def StrandSt.beadWrite (st : StrandSt) (m n o : Nat) (v : Word) : StrandSt :=
  let off := Reg.BEAD_CTL n + o
  if 0x100 ≤ o && o < 0x200 then st.imemWrite n ((o - 0x100) / 4) v
  else match o with
    | 0x04 => st.beadCmd n v.toNat
    | 0x1C => st.qcfgWrite n v
    | 0x10 => (st.noteEvt n).plainWrite m off v
    | 0x24 => st.txqWrite n v
    | 0x40 => st.masterCmp n v
    | 0x44 => (st.noteCmp n).plainWrite m off v
    | 0x48 =>
      if st.thisCyc.srcE.contains n then st.flag (Reg.BEAD_FLAGS n) 11
      else ((st.noteCmp n).plainWrite m off v).inCyc fun y => { y with srcM := n :: y.srcM }
    | _ => match findRow (strandRows off) off with
      | none => st
      | some r => if r.stoppedOnly then st.beadStopped m n o v else st.plainWrite m off v

/-! ## Composed reads of the other units -/

/-- PT_STATUS (R143): RATE_MISMATCH until the speeds agree (R130). -/
def StrandSt.ptStatus (st : StrandSt) (p : Fin 4) : Word :=
  let w := st.rd (Reg.PT_STATUS p)
  let s := st.chanSource p
  let lane := st.laneOwner p
  let agree := match s with
    | some a => st.speedAct a == st.speedAct p
    | none => false
  let w := setBit (setBit w 0 s.isSome) 2 (lane.isSome && s.isNone)
  let w := setBit (setBit w 1 ((st.chan p).frames.any fun f => f.flg == 0)) 3 (bitOf w 3 && !agree)
  setField (setField w 9 8 (s.getD 0)) 15 12 (lane.getD 0)

/-- GCL_STAT of port `e`: the active entry, and the effective gates (R159, R168). -/
def StrandSt.gclStat (st : StrandSt) (e : Nat) : Word :=
  packW ((if st.env.locked then (st.gclNow e).1 else 0, 16) ::
    (List.range 8).map fun q => (b2n (st.env.locked && st.gateOpen e q), q))

/-- A read in the switch's space; before the lock the counts and gates that follow from the configuration read 0 (R167, R168).  (DEDUCED, safe:
log entry 192.) -/
def StrandSt.swPeek (st : StrandSt) (off : Nat) : Word :=
  if 0x38000 ≤ off then snapWord st.snap off
  else if off = Reg.SW_STATUS then packW [(st.sw.retired.length, 16), (if st.env.locked then st.sharedFree else 0, 0)]
  else if off = Reg.SW_GRP_MEM 0 || off = Reg.SW_GRP_MEM 1 then
    setField (st.rd off) 7 4 ((st.liveMembers ((off - Reg.SW_GRP_MEM 0) / 8)).map (2 ^ ·)).sum
  else if Reg.SW_IN_CFG 0 ≤ off && off < Reg.SW_IN_CFG 10 && off % 16 = 12 then
    setField (st.rd off) 13 0 (st.inUseAll ((off - Reg.SW_IN_CFG 0) / 16))
  else if Reg.SW_QCFG 0 0 ≤ off && off < Reg.SW_QCFG 10 0 && off % 16 = 12 then
    let e := (off - Reg.SW_QCFG 0 0) / 128
    let q := (off - Reg.SW_QCFG 0 0) % 128 / 16
    packW [(b2n (decide (e < 4) && st.env.locked && st.gateOpen e q), 17), (b2n (st.paused e q), 16), (st.occ e q, 0)]
  else if 0x32000 ≤ off && off < 0x36000 && off % 0x1000 = 0x824 then st.gclStat ((off - 0x32000) / 0x1000)
  else st.rd off

/-- A read in the time base's space (R188, R189). -/
def StrandSt.timePeek (st : StrandSt) (m off : Nat) : Word :=
  let l := st.time.latch.get (0, 0) m
  if 0x50100 ≤ off then snapWord st.snap off
  else if off = Reg.TIME_STATUS then setBit (st.rd off) 3 st.tsUncertain
  else if off = Reg.TIME_NOW_NS then BitVec.ofNat 32 st.ns
  else if off = Reg.TIME_NOW_S then BitVec.ofNat 32 l.1
  else if off = Reg.TIME_NOW_SH then packW [(l.2, 16), (l.1 / 2 ^ 32 % 2 ^ 16, 0)]
  else st.rd off

/-- The code of a tracker state. -/
def TrkState.code : TrkState → Nat
  | .off => 0
  | .warmup => 1
  | .valid => 2

/-- The code of an event entry's state. -/
def EvtState.code : EvtState → Nat
  | .idle => 0
  | .pending => 1
  | .committed => 2

/-- A read of the registers of tracker `i` at offset `o` from TRK_CFG (R213, R214). -/
def StrandSt.trkPeek (st : StrandSt) (m i o : Nat) : Word :=
  let t := st.trk i
  let l := st.bng.latch.get (0, 0, 0) (4 * m + i)
  match o with
  | 0x20 => packW [(t.misses, 16), (st.fld (Reg.TRK_STATUS i) 11 4, 4), (t.agree, 2), (t.state.code, 0)]
  | 0x24 => BitVec.ofNat 32 (st.angleNow i)
  | 0x28 => l.1
  | 0x2C => l.2.1
  | 0x30 => l.2.2
  | 0x38 => BitVec.ofNat 32 ((t.tref / (nsUnit : Int)) % (10 ^ 9 : Int)).toNat
  | 0x3C => BitVec.ofNat 32 (wrapN 32 (t.tref / (secUnit : Int)))
  | _ => st.rd (Reg.TRK_CFG i + o)

/-- A read in Bangle's space (R212 to R214). -/
def StrandSt.bngPeek (st : StrandSt) (m off : Nat) : Word :=
  if 0x63000 ≤ off then snapWord st.snap off
  else if off = Reg.BNG_STATUS then
    packW ((b2n st.timeRunning, 31) :: (List.range 4).map fun i => ((st.trk i).state.code, 2 * i))
  else if 0x60100 ≤ off && off < 0x60500 then st.trkPeek m ((off - 0x60100) / 0x100) (off % 0x100)
  else if 0x62000 ≤ off && off < 0x62800 then
    let e := st.ent ((off - 0x62000) / 8)
    if off % 8 = 0 then
      packW [(e.state.code, 30), (b2n e.nom, 29), (b2n e.held, 28), (((e.next.map Prod.snd).getD 0) % 1024, 16)]
    else BitVec.ofNat 32 (((e.tf / (nsUnit : Int)) % (10 ^ 9 : Int)).toNat)
  else st.rd off

/-- A read in Filigree's space (R238 to R241). -/
def StrandSt.flgPeek (st : StrandSt) (m off : Nat) : Word :=
  let l := st.flg.latch.get (0, 0) m
  if 0x73000 ≤ off then snapWord st.snap off
  else if off = Reg.FLG_STATUS then (if st.flgState = 0 then st.rd off else setField (st.rd off) 29 24 st.flgRow)
  else if off = Reg.CT_NOW_NS then
    BitVec.ofNat 32 ((st.ct32 % ((2 ^ 48 * secUnit : Nat) : Int)).toNat % secUnit / nsUnit)
  else if off = Reg.CT_NOW_S then BitVec.ofNat 32 l.1
  else if off = Reg.CT_NOW_SH then packW [(l.2, 16), (l.1 / 2 ^ 32 % 2 ^ 16, 0)]
  else st.rd off

/-- The code of a core's state. -/
def CoreState.code : CoreState → Nat
  | .reset => 0
  | .running => 1
  | .waiting => 2
  | .halted => 3
  | .doubleTrap => 4

/-- CORE_STATUS (R384). -/
def DCore.status (k : DCore) : Word :=
  packW [(b2n k.div.isSome, 17), (b2n k.mul.isSome, 16), (k.wbuf.length, 12), (b2n k.ie, 9), (b2n k.tm, 8), (k.state.code, 0)]

/-- A read in the core's control block (R384, R385); `bell` is the Locket line 31 (R378). -/
def StrandSt.corePeek (st : StrandSt) (bell : Bool) (off : Nat) : Word :=
  if 0xA0100 ≤ off && off < 0xA0200 then snapWord st.snap off
  else if off = Reg.CORE_STATUS then st.core.status
  else if off = Reg.CORE_PC then BitVec.ofNat 32 st.core.pc
  else if off = Reg.CORE_IRQ_PEND then packW ((b2n bell, 31) :: (List.range 31).map fun k => (b2n (st.coreLine k), k))
  else st.rd off

/-- A read in the ledger's page (R358 to R360). -/
def StrandSt.ledPeek (st : StrandSt) (off : Nat) : Word :=
  if 0x400 ≤ off && off < 0x500 then snapWord st.snap off
  else if 0x100 ≤ off && off < 0x350 then
    let j := (off - 0x100) / 16
    let e := st.led j
    BitVec.ofNat 32 (match off % 16 with
      | 0 => e.acc
      | 4 => e.sta
      | 8 => e.cmp
      | _ => st.ledEntryWord j)
  else if off = Reg.CMDACC_QSEQ || off = Reg.CMDACC_NOTICE_LO || off = Reg.CMDACC_NOTICE_HI then 0
  else st.rd off

/-- A read in the DMA engine's space (R308 to R310). -/
def StrandSt.dmaPeek (st : StrandSt) (off : Nat) : Word :=
  if 0x42000 ≤ off then snapWord st.snap off
  else if off = Reg.DMA_STATUS then
    packW ((st.dma.reads.length, 16) :: (List.range 8).map fun c => (b2n (st.cqUnread c), c))
  else if off = Reg.DMA_CQ_POST_Q then 0
  else st.rd off

/-- What a read of a strand offset returns to master `m`, without its side effects; SUP_STATUS, SUP_CTL and SUP_CAUSE are the
supervisor's. -/
def StrandSt.peek (st : StrandSt) (m : Nat) (bell : Bool) (off : Nat) : Word :=
  match off / 0x10000 with
  | 0 => st.ledPeek off
  | 1 => if 0x10800 ≤ off && off < 0x10900 then st.bpPeek off else st.beadPeek (off % 0x10000 / 0x1000) (off % 0x1000)
  | 2 => if 0x400 ≤ off % 0x4000 && off % 0x4000 < 0x800 then snapWord st.snap off else st.rd off
  | 3 => st.swPeek off
  | 4 => st.dmaPeek off
  | 5 => st.timePeek m off
  | 6 => st.bngPeek m off
  | 7 => st.flgPeek m off
  | 8 => if 0x80100 ≤ off && off < 0x80200 then snapWord st.snap off else st.rd off
  | 9 => if 0x90400 ≤ off && off < 0x90500 then snapWord st.snap off else st.rd off
  | 10 => st.corePeek bell off
  | 11 =>
    if 0xB0400 ≤ off then 0
    else if 0x40 ≤ off % 0x100 then snapWord st.snap off
    else if off % 0x100 = 4 then st.ptStatus (Fin.ofNat 4 ((off - 0xB0000) / 0x100))
    else st.rd off
  | _ => if 0xC0000 ≤ off && off < 0xE0000 then BitVec.ofNat 32 (st.ledView off) else 0

/-- A read of a strand register by master `m`, with its side effects: the RX queue gives up an entry (R67), and the clocks and the
angle latch for the master (R173, R214, R221). -/
def StrandSt.regRead (st : StrandSt) (m : Nat) (bell : Bool) (off : Nat) : Word × StrandSt :=
  if off / 0x10000 = 1 && off % 0x1000 = 0x28 then st.rxqRead (off % 0x10000 / 0x1000)
  else if off = Reg.TIME_NOW_NS then (BitVec.ofNat 32 (st.timeNowRead m).1, (st.timeNowRead m).2)
  else if 0x60100 ≤ off && off < 0x60500 && off % 0x100 = 0x24 then st.angleRead m ((off - 0x60100) / 0x100)
  else if off = Reg.CT_NOW_NS then st.ctNowRead m
  else (st.peek m bell off, st)

/-! ## Snapshots (R17) -/

/-- The first and the end of a unit's counters. -/
def StrandUnit.range : StrandUnit → Nat × Nat
  | .bead n => (Reg.BEAD_CNT n.val, Reg.BEAD_CNT n.val + 56)
  | .mac p => (Reg.MAC_CNT p.val, Reg.MAC_CNT p.val + 0x400)
  | .pt p => (Reg.PT_CNT p.val, Reg.PT_CNT p.val + 0xC0)
  | .switch => (0x38000, 0x3B000)
  | .dma => (0x42000, 0x43000)
  | .time => (0x50100, 0x50200)
  | .bangle => (0x63000, 0x64000)
  | .filigree => (0x73000, 0x74000)
  | .mapper => (0x80100, 0x80200)
  | .bank => (0x90400, 0x90500)
  | .core => (0xA0100, 0xA0200)
  | .ledger => (0x400, 0x500)

/-- The snapshot-and-clear command of a unit. -/
def StrandSt.snapUnit (st : StrandSt) (u : StrandUnit) : StrandSt := st.snapRange u.range.1 u.range.2

/-! ## Writes with an action -/

/-- A write of MAC_CMD of port `p` (R127). -/
def StrandSt.macCmd (st : StrandSt) (p : Fin 4) (v : Word) : StrandSt :=
  let st := if bitOf v 0 then st.snapUnit (.mac p) else st
  let st := if bitOf v 1 then st.anRestart p else st
  if bitOf v 2 then st.verifyRestart p else st

/-- MAC_CTL as a write finds it: MODE 4 on P2 and P3 is reserved and keeps the field (R15, R107). -/
def StrandSt.macCtlIn (st : StrandSt) (p : Fin 4) (v : Word) : Word :=
  if 2 ≤ p.val && fieldOf v 7 4 = 4 then setField v 7 4 (st.macMode p) else v

/-- A write in the ports' space. -/
def StrandSt.macWrite (st : StrandSt) (m off : Nat) (v : Word) : StrandSt :=
  let p : Fin 4 := Fin.ofNat 4 (off % 0x10000 / 0x4000)
  let o := off % 0x4000
  if off = Reg.MDIO_CMD then st.mdioStart v
  else if o = 0x0C then st.macCmd p v
  else if 0x100 ≤ o && o < 0x300 then
    let k := (o - 0x100) / 16
    let w := o % 16 / 4
    if w = 3 then st.fltWrite p k v else st.fltHold p k w v
  else if o = 0 then (st.plainWrite m off (st.macCtlIn p v)).linkSettle p
  else st.plainWrite m off v

/-- A write in the switch's space. -/
def StrandSt.swWrite (st : StrandSt) (m off : Nat) (v : Word) : StrandSt :=
  let e := (off - 0x32000) / 0x1000
  let o := off % 0x1000
  if off = Reg.SW_CMD then (if bitOf v 0 then st.snapUnit .switch else st)
  else if off = Reg.SW_FDB_CMD then st.fdbCmd v
  else if 0x32000 ≤ off && off < 0x36000 && o < 0x800 then st.gclEntryWrite e (o / 0x400) (o % 0x400 / 4) v
  else if 0x32000 ≤ off && off < 0x36000 && o = 0x800 then st.gclCtlWrite e v
  else if 0x32000 ≤ off && off < 0x36000 && o = 0x804 then st.gclLenWrite e v
  else if 0x32000 ≤ off && off < 0x36000 && o = 0x820 then st.agateWrite e v
  else st.plainWrite m off v

/-- A write of TIME_CMD (R188). -/
def StrandSt.timeCmd (st : StrandSt) (m : Nat) (v : Word) : StrandSt :=
  let st := if bitOf v 0 then st.snapUnit .time else st
  let st := if bitOf v 2 then st.stepArm m else st
  if bitOf v 1 then st.stepSoon else st

/-- A write in the time base's space. -/
def StrandSt.timeWrite (st : StrandSt) (m off : Nat) (v : Word) : StrandSt :=
  if off = Reg.TIME_CMD then st.timeCmd m v
  else if off = Reg.TIME_RATE then st.rateWrite m v
  else if off = Reg.PPS_SEC_S then (st.secNote false).plainWrite m off v
  else if off = Reg.PPS_SEC_SH then (st.secNote (bitOf v 31)).plainWrite m off v
  else if off = Reg.TIME_RATE_INIT then st.rateInitWrite v
  else st.plainWrite m off v

/-- A write of BNG_CMD (R212). -/
def StrandSt.bngCmd (st : StrandSt) (v : Word) : StrandSt :=
  let st := if bitOf v 0 then st.snapUnit .bangle else st
  (List.range 4).foldl (fun (s : StrandSt) i => if bitOf v (4 + i) then s.trkRestart i else s) st

/-- A write of word 0, 1 or 2 of event entry `k`, held until the write of word 3 (R207). -/
def StrandSt.evtHold (st : StrandSt) (m k w : Nat) (v : Word) : StrandSt :=
  let x := st.fieldWrite m (Reg.EVT_W0 k + 4 * w) 0 v
  { st with bng := { st.bng with held := ⟨tabInsert (4 * k + w) x (tabErase st.bng.held.cells (4 * k + w))⟩ } }

/-- A write in Bangle's space; the observation registers take writes of the core only (R192, R214). -/
def StrandSt.bngWrite (st : StrandSt) (m off : Nat) (v : Word) : StrandSt :=
  let i := (off - 0x60100) / 0x100
  let o := off % 0x100
  if off = Reg.BNG_CMD then st.bngCmd v
  else if 0x61000 ≤ off && off < 0x62000 then
    let k := (off - 0x61000) / 16
    let w := off % 16 / 4
    if w = 3 then (if bitOf v 31 then st else st.evtFires k).evtWrite k v else st.evtHold m k w v
  else if 0x60100 ≤ off && off < 0x60500 && 0x40 ≤ o && o ≤ 0x48 then
    if m != 2 || st.bit (Reg.TRK_CFG i) 29 then st
    else match o with
      | 0x40 => st.setTrk i { st.trk i with obsNs := v }
      | 0x44 => st.setTrk i { st.trk i with obsS := v }
      | _ => st.obsSubmit i v
  else st.plainWrite m off v

/-- A write of FLG_CMD (R238). -/
def StrandSt.flgCmd (st : StrandSt) (v : Word) : StrandSt :=
  let st := if bitOf v 0 then st.snapUnit .filigree else st
  let st := if bitOf v 1 then st.flgResync else st
  let st := if bitOf v 2 then st.devClear else st
  (List.range 4).foldl (fun (s : StrandSt) p => if bitOf v (4 + p) then s.unfence p else s) st

/-- A write of MAP_CMD (R278). -/
def StrandSt.mapCmd (st : StrandSt) (v : Word) : StrandSt :=
  let st := if bitOf v 0 then st.snapUnit .mapper else st
  if bitOf v 1 then st.mapRun else st

/-- A write of RING_CTL of the ring of page `k` (R307, R309). -/
def StrandSt.ringCtl (st : StrandSt) (k : Nat) (v : Word) : StrandSt :=
  let st := if bitOf v 1 then st.idxClear k else st
  if bitOf v 0 then st.ringEnable k else if st.ringEn k then st.ringDisable k else st

/-- A write in a ring's page (R309): the RX rings take MODE 0 only.  (DEDUCED, unsafe: log entry 69.) -/
def StrandSt.ringWrite (st : StrandSt) (m k o : Nat) (v : Word) : StrandSt :=
  let off := ringPage k + o
  match o with
  | 0x0C => st.ringCtl k v
  | 0x10 => st.tailWrite k (fieldOf v 15 0)
  | _ =>
    if o ≤ 8 then
      if st.ringState k != 0 then st.ringFlag k 1
      else st.plainWrite m off (if o = 8 && 16 ≤ k then setField v 31 30 0 else v)
    else st.plainWrite m off v

/-- A write in a completion queue's page (R310). -/
def StrandSt.cqWrite (st : StrandSt) (m c o : Nat) (v : Word) : StrandSt :=
  let off := cqPage c + o
  match o with
  | 0x0C => if bitOf v 0 then st.cqEnable c else st.putBit off 0 false
  | 0x10 => st.cqHeadWrite c v
  | _ => if o ≤ 8 && st.cqEn c then st else st.plainWrite m off v

/-- A write in the DMA engine's space; DMA_CQ_POST takes writes of the core only (R297, R308). -/
def StrandSt.dmaWrite (st : StrandSt) (m off : Nat) (v : Word) : StrandSt :=
  if off = Reg.DMA_CMD then (if bitOf v 0 then st.snapUnit .dma else st)
  else if off = Reg.DMA_ABORT then st.dmaAbort v
  else if off = Reg.DMA_CQ_POST_Q then (if m = 2 then st.wr off v else st)
  else if off = Reg.DMA_CQ_POST then (if m = 2 then st.cqPost v else st)
  else if 0x41000 ≤ off && off < 0x41800 then st.ringWrite m ((off - 0x41000) / 0x40) (off % 0x40) v
  else if 0x41800 ≤ off && off < 0x41A00 then st.cqWrite m ((off - 0x41800) / 0x40) (off % 0x40) v
  else st.plainWrite m off v

/-- A write in the memory banks' space (R405, R406). -/
def StrandSt.bankWriteReg (st : StrandSt) (m off : Nat) (v : Word) : StrandSt :=
  if off = Reg.BANK_CMD then (if bitOf v 0 then st.snapUnit .bank else st)
  else if Reg.BANK_OWNER 0 ≤ off && off ≤ Reg.BANK_OWNER 47 then st.bankOwnerWrite m ((off - Reg.BANK_OWNER 0) / 4) v
  else if Reg.BANK_STATE 0 ≤ off && off ≤ Reg.BANK_STATE 47 then st.pwrWrite m ((off - Reg.BANK_STATE 0) / 4) (fieldOf v 1 0)
  else st.plainWrite m off v

/-- HALT, RESUME and STEP act on a core's state alone; the instruction of a STEP is a command of its own (R383, R384). -/
def DCore.halt (k : DCore) : DCore := if k.state = .running || k.state = .waiting then { k with state := .halted } else k
def DCore.resume (k : DCore) : DCore := if k.state = .halted then { k with state := .running } else k

/-- A write of CORE_CMD (R383, R384).  (DEDUCED, safe: log entry 80.) -/
def StrandSt.coreCmd (st : StrandSt) (m : Nat) (v : Word) : StrandSt :=
  let st := if bitOf v 0 then st.snapUnit .core else st
  if m != 3 then st
  else if bitOf v 1 then { st with core := st.core.halt }
  else if bitOf v 2 then { st with core := st.core.resume } else st

/-- A write in the core's control block; the decode table is locked with the strand (R380, R384, R385). -/
def StrandSt.coreWrite (st : StrandSt) (m off : Nat) (v : Word) : StrandSt :=
  if off = Reg.CORE_CMD then st.coreCmd m v
  else if 0xA0800 ≤ off && off < 0xA1400 && st.env.locked then st.flag Reg.CORE_FLAGS 1
  else st.plainWrite m off v

/-- A write in the ledger's part of the supervisor page: the host writes nothing there, and the acceptance port serves the core
(R47, R349, R358). -/
def StrandSt.ledWrite (st : StrandSt) (m off : Nat) (v : Word) : StrandSt :=
  if m < 2 then st
  else if off = Reg.LEDGER_CMD then (if bitOf v 0 then st.snapUnit .ledger else st)
  else if off = Reg.CMDACC_QSEQ || off = Reg.CMDACC_NOTICE_LO || off = Reg.CMDACC_NOTICE_HI then (if m = 2 then st.wr off v else st)
  else if off = Reg.CMDACC_GO then
    if m != 2 then st
    else match fieldOf v 5 4 with
      | 1 => st.cmdAccept (fieldOf v 1 0)
      | 2 => st.cmdStart' (fieldOf v 1 0)
      | _ => st
  else st.plainWrite m off v

/-- A write of a strand register by master `m`, but for the supervisor's own registers and the watchdog's kick. -/
def StrandSt.regWrite (st : StrandSt) (m off : Nat) (v : Word) : StrandSt :=
  match off / 0x10000 with
  | 0 => st.ledWrite m off v
  | 1 => if 0x10800 ≤ off && off < 0x10900 then st.plainWrite m off v
         else st.beadWrite m (off % 0x10000 / 0x1000) (off % 0x1000) v
  | 2 => st.macWrite m off v
  | 3 => st.swWrite m off v
  | 4 => st.dmaWrite m off v
  | 5 => st.timeWrite m off v
  | 6 => st.bngWrite m off v
  | 7 => if off = Reg.FLG_CMD then st.flgCmd v else st.plainWrite m off v
  | 8 => if off = Reg.MAP_CMD then st.mapCmd v else st.plainWrite m off v
  | 9 => st.bankWriteReg m off v
  | 10 => st.coreWrite m off v
  | 11 =>
    if off < 0xB0400 && off % 0x100 = 0x0C then (if bitOf v 0 then st.snapUnit (.pt (Fin.ofNat 4 ((off - 0xB0000) / 0x100))) else st)
    else st.plainWrite m off v
  | _ => st

end Sys2Proof.Machine
end

