-- ==== Sys2Proof/Machine/PkgOps.lean ====
section
/-! DEFINITION. Protocol packages: manifests, the checks and the placement of LOADING, host commands and the load record (R244 to
R249, R255, R256). -/

namespace Sys2Proof.Machine

/-! ## Manifests (R244, R245) -/



/-- Fields of a manifest header. -/
def mfId (m : List Byte) : Nat := leAt m 0 2
def mfVer (m : List Byte) : Nat := leAt m 2 2
def mfIface (m : List Byte) : Nat := leAt m 4 1
def mfRole (m : List Byte) : Nat := leAt m 5 1
def mfFlags (m : List Byte) : Nat := leAt m 6 1
def mfNcomp (m : List Byte) : Nat := leAt m 7 1
def mfEngFixed (m : List Byte) : Nat := leAt m 8 2
def mfEngReloc (m : List Byte) : Nat := leAt m 10 1
def mfBanks (m : List Byte) : Nat := leAt m 11 1
def mfContexts (m : List Byte) : Nat := leAt m 12 2
def mfLoad (m : List Byte) : Nat := leAt m 14 2
def mfPins (m : List Byte) : Nat := leAt m 16 4
def mfPorts (m : List Byte) : Nat := leAt m 20 1
def mfTrackers (m : List Byte) : Nat := leAt m 21 1
def mfEntries (m : List Byte) : Nat := leAt m 22 2
def mfTxRings (m : List Byte) : Nat := leAt m 24 2
def mfRxRings (m : List Byte) : Nat := leAt m 26 2
def mfCqs (m : List Byte) : Nat := leAt m 28 1
def mfLockets (m : List Byte) : Nat := leAt m 29 1

/-- Exclusive and shared ports, TIME_STEER, RELOCATABLE. -/
def mfExcl (m : List Byte) : Nat := mfPorts m % 16
def mfShared (m : List Byte) : Nat := mfPorts m / 16
def mfSteers (m : List Byte) : Bool := bitN (mfFlags m) 1
def mfReloc (m : List Byte) : Bool := bitN (mfFlags m) 0

/-- One component entry: KIND, TARGET, DEST and LENGTH. -/
structure Comp where
  kind : Nat
  target : Nat
  dest : Nat
  length : Nat
  zero : Bool
deriving DecidableEq, Repr

/-- The component entries. -/
def mfComps (m : List Byte) : List Comp :=
  (List.range (mfNcomp m)).map fun c =>
    let e := (m.drop (64 + 64 * c)).take 64
    { kind := leAt e 0 1, target := leAt e 1 1, dest := leAt e 4 4, length := leAt e 8 4, zero := leAt e 2 2 == 0 && leAt e 12 4 == 0 }

/-- The contents of the components, behind the entries in their order (R244, R245).  (PRESUMED, unsafe: log entry 195.) -/
def splitParts : List Comp → List Byte → List (Comp × List Byte)
  | [], _ => []
  | c :: cs, bs => (c, bs.take c.length) :: splitParts cs (bs.drop c.length)
def mfParts (m : List Byte) : List (Comp × List Byte) := splitParts (mfComps m) (m.drop (64 + 64 * mfNcomp m))

/-- The pairs (offset, value) of a register image or list. -/
def regPairs (bs : List Byte) : List (Nat × Word) :=
  (List.range (bs.length / 8)).map fun k => (leAt bs (8 * k) 4, BitVec.ofNat 32 (leAt bs (8 * k + 4) 4))

/-- Whether a component's content goes to a core address (R245). -/
def Comp.inCore (c : Comp) : Bool := c.kind == 1 || c.kind == 2 || (5 ≤ c.kind && c.kind ≤ 7)

/-- The banks a list of components covers. -/
def compBanks (cs : List Comp) : List Nat :=
  (List.range 48).filter fun k => cs.any fun c =>
    c.inCore && c.length != 0 && decide (c.dest < (k + 1) * 0x20000) && decide (k * 0x20000 < c.dest + c.length)

/-- Whether one component keeps its format. -/
def Comp.ok (c : Comp) : Bool :=
  c.zero && decide (1 ≤ c.kind) && decide (c.kind ≤ 0x0A) &&
  (!(c.kind == 3 || c.kind == 4) || decide (c.target ≤ 15)) &&
  (!c.inCore || decide (c.dest + c.length ≤ 0x600000)) &&
  (c.kind != 3 || (c.length % 4 == 0 && decide (c.dest + c.length / 4 ≤ 64)))

/-- The manifest's format (R246 step 1). -/
def mfFormatOk (m : List Byte) : Bool :=
  let id := mfId m
  ((1 ≤ id && id ≤ 15) || (0x100 ≤ id && id ≤ 0x7FFF)) && decide (mfIface m ≤ 1) && decide (mfRole m ≤ 7) && decide (mfFlags m < 8) &&
  decide (1 ≤ mfNcomp m) && decide (mfNcomp m ≤ 32) && decide (mfEngReloc m ≤ 16) && decide (mfBanks m ≤ 48) &&
  decide (mfContexts m ≤ 1024) && decide (mfPins m < 2 ^ 24) && decide (mfTrackers m < 16) && decide (mfEntries m ≤ 256) &&
  decide (mfLockets m ≤ 8) && leAt m 30 34 == 0 && decide (64 + 64 * mfNcomp m + ((mfComps m).map Comp.length).sum ≤ m.length) &&
  (mfComps m).all Comp.ok && decide ((compBanks (mfComps m)).length ≤ mfBanks m)

/-! ## Resource sums and conflicts (R247) -/

/-- Bits set in a number. -/
def popcount (n : Nat) : Nat := ((List.range 32).filter (bitN n)).length

/-- The model's names of the resources; the number a refusal shows for one is a free value.  (DESIGN CHOICE, safe: log entry 56.) -/
def resEngines : Nat := 1
def resBanks : Nat := 2
def resContexts : Nat := 3
def resCore : Nat := 4
def resPins : Nat := 5
def resTrackers : Nat := 6
def resTxRings : Nat := 7
def resRxRings : Nat := 8
def resCqs : Nat := 9
def resEntries : Nat := 10
def resLockets : Nat := 11
def resPorts : Nat := 12
def resAddress : Nat := 13
def resFormat : Nat := 14
def resRules : Nat := 15

/-- The first package at which a sum passes its limit. -/
def sumOver (f : List Byte → Nat) (limit : Nat) : List (List Byte) → Nat → Option Nat
  | [], _ => none
  | m :: ms, acc => if limit < acc + f m then some (mfId m) else sumOver f limit ms (acc + f m)

/-- The first package that declares a bit an earlier one declared. -/
def clashOver (f : List Byte → Nat) : List (List Byte) → Nat → Option Nat
  | [], _ => none
  | m :: ms, seen => if seen &&& f m != 0 then some (mfId m) else clashOver f ms (seen ||| f m)

/-- Whether two packages' components share core addresses, or places in the descriptor table. -/
def addrClash (a b : List Byte) : Bool :=
  (mfComps a).any fun x => (mfComps b).any fun y =>
    ((x.inCore && y.inCore) || (x.kind == 8 && y.kind == 8)) && x.length != 0 && y.length != 0 && decide (x.dest < y.dest + y.length) && decide (y.dest < x.dest + x.length)

/-- The first package whose addresses an earlier one uses. -/
def addrOver : List (List Byte) → List (List Byte) → Option Nat
  | [], _ => none
  | m :: ms, seen => if seen.any (addrClash m) then some (mfId m) else addrOver ms (seen ++ [m])

/-- Channels whose binding names the core of strand `i`. -/
def Dev.boundTo (d : Dev) (i : StrandId) : Nat := (d.lkt.cells.filter fun c => c.2.valid && c.2.idHi == 4 + i.val).length

/-- Fixed engines that are UNAVAIL and that the package may not move (R82). -/
def StrandSt.fixedLost (st : StrandSt) (m : List Byte) : Bool :=
  !mfReloc m && (List.range 16).any fun n => bitN (mfEngFixed m) n && (st.eng n).unavail

/-- Banks of the strand tables, by the mapper's registers as they stand: descriptors, image, contexts beyond 256 (R277). -/
def StrandSt.tableBanks (st : StrandSt) : Nat :=
  ceilDiv (8 * st.fld Reg.MAP_NDESC 18 0) bankSize + 2 * st.fld Reg.MAP_IMG 3 0 + ceilDiv (st.nCtx - 256) 256

/-- Engines a package takes. -/
def mfEngines (m : List Byte) : Nat := popcount (mfEngFixed m) + mfEngReloc m

/-- The refusal of the resource sums and conflicts: code, PKG_ID and resource. -/
def Dev.sumRefusal (d : Dev) (i : StrandId) (ms : List (List Byte)) : Option (Nat × Nat × Nat) :=
  let st := d.strand i
  let lost := ((List.range 16).filter fun n => (st.eng n).unavail).length
  let sumBy : (List Byte → Nat) → Nat → Nat → Option (Nat × Nat × Nat) :=
    fun f limit res => (sumOver f limit ms 0).map fun p => (0x0A01, p, res)
  let clash : (List Byte → Nat) → Nat → Option (Nat × Nat × Nat) := fun f res => (clashOver f ms 0).map fun p => (0x0A02, p, res)
  (sumBy mfEngines (16 - lost) resEngines) <|>
  ((ms.find? st.fixedLost).map fun m => (0x0A01, mfId m, resEngines)) <|>
  (sumBy mfBanks (48 - st.banks.retired.length - st.tableBanks) resBanks) <|>
  (sumBy mfContexts 1024 resContexts) <|>
  (sumBy mfLoad 900 resCore) <|>
  (sumBy mfEntries 256 resEntries) <|>
  (sumBy mfLockets (d.boundTo i) resLockets) <|>
  (clash mfEngFixed resEngines) <|> (clash mfPins resPins) <|> (clash mfTrackers resTrackers) <|>
  (clash mfTxRings resTxRings) <|> (clash mfRxRings resRxRings) <|> (clash mfCqs resCqs) <|>
  ((addrOver ms []).map fun p => (0x0A02, p, resAddress))

/-! ## Co-running (R249) -/

/-- The kind of a package for the rules of co-running: 1 a pass-through subordinate role, 2 IRT or CC-Link IE TSN, 3 the 802.1
bridge; 0 any other.  (DEDUCED, safe: log entry 57.) -/
def mfKind (m : List Byte) : Nat :=
  match mfId m with
  | 1 => if mfRole m = 1 then 1 else 0
  | 5 => if mfRole m = 1 then 1 else 0
  | 6 => if mfRole m = 1 then 1 else 0
  | 2 => if mfExcl m != 0 then 2 else 0
  | 7 => 2
  | 12 => if mfRole m = 1 then 2 else 0
  | _ => 0

/-- Whether two packages may not be loaded together: any two pass-through roles, or two of IRT, CC-Link IE TSN and the bridge.  (DEDUCED, safe: log entry 57.) -/
def neverWith (a b : List Byte) : Bool :=
  (mfKind a == 1 && mfKind b == 1) || (mfKind a == 2 && mfKind b == 2 && mfId a != mfId b)

/-- Whether the package's role may share a port (the table's S); user packages are not restricted.  (DEDUCED, safe: log entry 58.) -/
def mayShare (m : List Byte) : Bool :=
  match mfId m with
  | 1 => false
  | 3 => false
  | 5 => false
  | 6 => false
  | 7 => false
  | 11 => false
  | 12 => mfRole m == 0
  | 13 => false
  | 14 => false
  | _ => true

/-- Whether two packages name a port that one of them holds exclusively; the redundancy package's ports are its users' (R249). -/
def portClash (a b : List Byte) : Bool :=
  if mfId a == 14 || mfId b == 14 then mfId a == 14 && mfId b == 14 && mfExcl a &&& mfExcl b != 0
  else (mfExcl a &&& (mfExcl b ||| mfShared b)) != 0 || (mfExcl b &&& (mfExcl a ||| mfShared a)) != 0

/-- The first package that breaks a rule of co-running with an earlier one. -/
def rulesOver : List (List Byte) → List (List Byte) → Option (Nat × Nat)
  | [], _ => none
  | m :: ms, seen =>
    if seen.any (portClash m) then some (mfId m, resPorts)
    else if seen.any (neverWith m) || (mfSteers m && seen.any mfSteers) || (mfShared m != 0 && !mayShare m) then some (mfId m, resRules)
    else rulesOver ms (seen ++ [m])

/-! ## Placement (R246 step 3) -/

/-- Whether the register image of logical engine `e` joins it to the next one (R65). -/
def mfChained (m : List Byte) (e : Nat) : Bool :=
  e % 2 == 0 && (mfParts m).any fun p =>
    p.1.kind == 4 && p.1.target == e && (regPairs p.2).any fun r => r.1 == 0x1C && bitOf r.2 16

/-- The logical engines of a package that need a place: fixed ones that are UNAVAIL, and the others its components name (R82, R246).  (PRESUMED,
unsafe: log entry 195.) -/
def mfMoved (avail : Nat) (m : List Byte) : List Nat :=
  (List.range 16).filter fun e =>
    if bitN (mfEngFixed m) e then !bitN avail e
    else (mfParts m).any (fun p => (p.1.kind == 3 || p.1.kind == 4) && p.1.target == e) || (e % 2 == 1 && mfChained m (e - 1))

/-- `n` of the lowest engines that are free, as a mask. -/
def takeLow (free : Nat) : Nat → Nat
  | 0 => 0
  | n + 1 => match (List.range 16).find? (bitN free) with
    | some e => 2 ^ e + takeLow (putBitN free e false) n
    | none => 0

/-- The places of logical engines, each the lowest free, an engine used with CHAIN and its partner an even-odd pair; none where there is no
place (R65, R246). -/
def placeMoved (m : List Byte) : Nat → List Nat → Option (List (Nat × Nat))
  | _, [] => some []
  | free, e :: es =>
    if e % 2 == 1 && mfChained m (e - 1) then placeMoved m free es
    else if mfChained m e then
      match (List.range 8).find? fun k => bitN free (2 * k) && bitN free (2 * k + 1) with
      | some k => (placeMoved m (putBitN (putBitN free (2 * k) false) (2 * k + 1) false) es).map fun r => (e, 2 * k) :: (e + 1, 2 * k + 1) :: r
      | none => none
    else
      match (List.range 16).find? (bitN free) with
      | some k => (placeMoved m (putBitN free k false) es).map fun r => (e, k) :: r
      | none => none

/-- The mask of the places. -/
def placeMask (l : List (Nat × Nat)) : Nat := (l.map fun x => 2 ^ x.2).foldl (· ||| ·) 0

/-- The engines of each package, `taken` before it: the mask, and where its logical engines stand.  Engines declared beyond those its components
name take the lowest free ones. -/
def placeAll (avail : Nat) : List (List Byte) → Nat → Option (List (Nat × List (Nat × Nat)))
  | [], _ => some []
  | m :: ms, taken =>
    let fixed := mfEngFixed m &&& avail
    let free := avail - (avail &&& taken)
    match placeMoved m free (mfMoved avail m) with
    | none => none
    | some l =>
      let mask := placeMask l
      let more := takeLow (free - (free &&& mask)) (mfEngines m - popcount fixed - popcount mask)
      let at_ := ((List.range 16).filter (bitN fixed)).map fun e => (e, e)
      (placeAll avail ms (taken ||| mask ||| more)).map fun r => (fixed ||| mask ||| more, at_ ++ l) :: r

/-- The engines of a strand that work, and the placement of its packages. -/
def StrandSt.availEngines (st : StrandSt) : Nat := ((List.range 16).map fun n => if (st.eng n).unavail then 0 else 2 ^ n).sum
def StrandSt.placement (st : StrandSt) (ms : List (List Byte)) : Option (List (Nat × List (Nat × Nat))) :=
  placeAll st.availEngines ms ((ms.map mfEngFixed).foldl (· ||| ·) 0 &&& st.availEngines)

/-- The refusal of a load, if there is one (R246 steps 1 and 2, R82): format, then sums, then rules, then engines that find no place. -/
def Dev.loadRefusal (d : Dev) (i : StrandId) (ms : List (List Byte)) : Option (Nat × Nat × Nat) :=
  ((ms.find? fun m => !mfFormatOk m).map fun m => (0x0A03, mfId m, resFormat)) <|>
  (d.sumRefusal i ms) <|>
  ((rulesOver ms []).map fun p => (0x0A04, p.1, p.2)) <|>
  (if ((d.strand i).placement ms).isNone then some (0x0A01, (ms.map mfId).headD 0, resEngines) else none)

/-! ## Writing the components (R245, R246 step 4) -/

/-- The strand offset of a register with a Bead page of a logical engine moved to its place. -/
def movedReg (l : List (Nat × Nat)) (off : Nat) : Nat :=
  if 0x10000 ≤ off && off < 0x20000 && off % 0x1000 < 0x800 then
    match l.lookup (off % 0x10000 / 0x1000) with
    | some e => Reg.BEAD_CTL e + off % 0x1000
    | none => off
  else off

/-- Instructions written to the memory of an engine from address `a` on. -/
def StrandSt.loadProgram (st : StrandSt) (n : Nat) : Nat → List Byte → StrandSt
  | a, b0 :: b1 :: b2 :: b3 :: bs => (st.imemWrite n a (BitVec.ofNat 32 (leNum [b0, b1, b2, b3]))).loadProgram n (a + 1) bs
  | _, _ => st

/-- One component written by the Loupe.  (PRESUMED, unsafe: log entry 195.) -/
def StrandSt.loadPart (st : StrandSt) (l : List (Nat × Nat)) (p : Comp × List Byte) : StrandSt :=
  let e := (l.lookup p.1.target).getD p.1.target
  match p.1.kind with
  | 3 => st.loadProgram e p.1.dest p.2
  | 4 => (regPairs p.2).foldl (fun (s : StrandSt) r => s.regWrite Master.loupe.code (Reg.BEAD_CTL e + r.1 % 0x1000) r.2) st
  | 8 => st.memWrite (st.fld Reg.MAP_TBL 5 0 * bankSize + p.1.dest) p.2
  | 9 => (regPairs p.2).foldl (fun (s : StrandSt) r => s.regWrite Master.loupe.code (movedReg l r.1) r.2) st
  | 10 => st
  | _ => st.memWrite p.1.dest p.2

/-- The components of all packages, in list order. -/
def StrandSt.loadParts (st : StrandSt) (ms : List (List Byte)) (at_ : List (Nat × List (Nat × Nat))) : StrandSt :=
  (ms.zip at_).foldl (fun (s : StrandSt) x => (mfParts x.1).foldl (fun (s : StrandSt) p => s.loadPart x.2.2 p) s) st

/-- The load record of a strand's packages at their places (R256). -/
def records (ms : List (List Byte)) (at_ : List (Nat × List (Nat × Nat))) : List Pkg :=
  (ms.zip at_).map fun p =>
    { id := mfId p.1, ver := mfVer p.1, role := mfRole p.1, engines := p.2.1, banks := mfBanks p.1, contexts := mfContexts p.1,
      load := mfLoad p.1, ports := mfExcl p.1 }

/-- The state-machine tables the packages bring (R245 kind 5). -/
def machineTabs (ms : List (List Byte)) : Tab (Option Nat) :=
  (ms.flatMap mfComps).foldl (fun t c => if c.kind = 5 then t.set none c.target (some c.dest) else t) {}

/-! ## Rejoin (R355) -/

/-- The rejoining strand's entry of the group's ring, from the group and the partner; false where M's record has left the partner's log. Where the
partner has logged no record yet, NEXT is the index of its oldest stored item (R355).  (DEDUCED, unsafe: log entry 206.) -/
def Dev.rejoinGroup (d : Dev) (i : StrandId) (g : Nat) : Bool × Dev :=
  let c := d.mgCfg g
  let p := mgStrand c (!oddOf i)
  let r := fieldOf c 11 8
  let m := (d.mg g).mark
  let ps := d.strand p
  let rec_ := ps.ledger.log.get [] (128 * r + m % 128)
  let found := !rec_.isEmpty && (rec_.getD 0 0).toNat == m
  let size := 2 ^ fieldOf (ps.ledger.anchor.get (0, 0, 0) r).2.2 4 0
  let fresh := (List.range 128).all fun n => (ps.ledger.log.get [] (128 * r + n)).isEmpty
  let next := if found then (fieldOf (rec_.getD 1 0) 15 0 + 1) % size else ((ps.stored r).head?.map (·.idx)).getD (ps.led r).next
  let e : LedEnt := { valid := true, anchored := true, acc := m, sta := m, cmp := m, next := next }
  let put := fun (s : StrandSt) =>
    let s := s.setLed r e
    { s with ledger := { s.ledger with anchor := s.ledger.anchor.set (0, 0, 0) r (ps.ledger.anchor.get (0, 0, 0) r) } }
  if found || fresh then (true, if (ps.led r).valid then d.onStrand i put else d) else (false, d)

/-- Resynchronization during LOADING after REJOIN (R355 steps 1 and 2). -/
def Dev.rejoinSync (d : Dev) (i : StrandId) : Bool × Dev :=
  let r := (d.txGroups i).foldl (fun (a : Bool × Dev) g => if a.1 then a.2.rejoinGroup i g else a) (true, d)
  if !r.1 then r
  else
    let p := if oddOf i then pairEven i else pairOdd i
    let ps := r.2.strand p
    (true, r.2.onStrand i fun s => [0, 1, 2, 3].foldl (fun (a : StrandSt) k =>
      let e := ps.led (33 + k)
      if e.valid then a.setLed (33 + k) { valid := true, acc := e.cmp, sta := e.cmp, cmp := e.cmp } else a) s)

/-! ## The end of a load (R42, R246, R506, T12) -/

/-- The load fails: the strand is fenced with LOAD_FAIL. -/
def Dev.loadFail (d : Dev) (i : StrandId) : Dev := (d.fence i 13 0x0116).afterFence

/-- The sums of R247 as the load record shows them: engines, banks, contexts, core load, Bangle entries, Locket channels. -/
def loadSums (ms : List (List Byte)) : List Nat :=
  [(ms.map mfEngines).sum, (ms.map mfBanks).sum, (ms.map mfContexts).sum, (ms.map mfLoad).sum, (ms.map mfEntries).sum,
   (ms.map mfLockets).sum]

/-- The Loupe's load record of a strand replaced (R256). -/
def Dev.setLoad (d : Dev) (i : StrandId) (r : LoadRecord) : Dev := { d with loupe := { d.loupe with loads := d.loupe.loads.set i r } }

/-- LOAD_COMPLETE: the Loupe has checked and written the packages `ms`, which the image in the active slot carries (R458); `digests` says that what it
reads back verifies.  (DEDUCED, unsafe: log entry 59.)  (DEDUCED, unsafe: log entry 104.)  (DESIGN CHOICE, unsafe: log entry 196.) -/
def Dev.loadComplete (d : Dev) (i : StrandId) (ms : List (List Byte)) (digests : Bool) : Dev :=
  if d.phase i != .loading || !bitN d.cfg.strands i.val then d
  else match d.loadRefusal i ms with
  | some (code, pkg, res) =>
    let num := Config.resourceNumber res
    ((d.setLoad i { sums := loadSums ms, refusal := some (code, pkg, num) }).log code .lasting (0x10 + i.val) [pkg, num]).loadFail i
  | none =>
    let at_ := ((d.strand i).placement ms).getD []
    if !digests || (d.supOf i).fenceIn || !ms.all (d.fwCarries d.upd.boot.active) then d.loadFail i
    else
      let d := d.onStrand i fun s => s.loadParts ms at_
      let sync := if (d.supOf i).rejoin && (d.base = 5 || d.base = 6) then d.rejoinSync i else (true, d)
      if !sync.1 then (d.log 0x0E07 .lasting (0x10 + i.val) []).loadFail i
      else
        let d := sync.2.onStrand i fun s => { s with pkgs := records ms at_, machines := machineTabs ms }
        let d := d.setLoad i { pkgs := (d.strand i).pkgs, sums := loadSums ms }
        let d := d.onStrand i StrandSt.lockChecks
        let d := d.updSup i fun s => { s with lock := true, pllLock := true, retValid := true }
        let d := (d.setPhase i (if d.mode = 9 then .hold else .run)).onStrand i fun s => (s.startUp.vioWatch 0).vioWatch 1
        let d := if d.base = 5 || d.base = 6 then
            (d.txGroups i).foldl (fun (e : Dev) g => e.onStrand i fun s => s.tailWrite (fieldOf (e.mgCfg g) 11 8) (e.dfld (mgPage g + 0x1C) 15 0)) d
          else d
        ((d.noteBanks i).hbTimeout i).tryT12

/-- PAIR_RESYNCHRONIZED (R355, T12). -/
def Dev.pairSync (d : Dev) (pair : Bool) : Dev :=
  let e : StrandId := if pair then 2 else 0
  let o : StrandId := if pair then 3 else 1
  if d.mode != 8 || !(d.base = 5 || d.base = 6) || d.phase e != .run || d.phase o != .run || !d.inStep pair then d
  else (d.log 0x0E06 .transient 0x20 []).tryT12

/-! ## Host commands to a package (R255) -/

/-- The command block at core address `a` answered: STATUS and DONE. -/
def StrandSt.pkgAnswer (st : StrandSt) (a status : Nat) : StrandSt :=
  (st.bankWrite reqCore (a + 10) [BitVec.ofNat 8 status, 1]).st

/-- A command to package number `k` of the strand, its block at core address `a`; `body` is what an accepted command does.  In HOLD all but
GET_STATUS and READ_CONTEXT are refused. -/
def StrandSt.pkgCommand (st : StrandSt) (k a opcode : Nat) (body : Pkg → StrandSt → Nat × StrandSt) : StrandSt :=
  match st.pkgs[k]? with
  | none => st
  | some p =>
    if !st.env.active then st
    else if st.memWord a % 2 ^ 16 != p.id then st.pkgAnswer a 1
    else if st.env.hold && st.memWord a / 2 ^ 16 != 1 && st.memWord a / 2 ^ 16 != 4 then st.pkgAnswer a 5
    else if st.memWord a / 2 ^ 16 != opcode then st.pkgAnswer a 2
    else
      let r := body p st
      r.2.pkgAnswer a r.1



/-- A package's status: role, state, counters.  (PRESUMED, unsafe: log entry 55.) -/
def Pkg.status (p : Pkg) : List Byte := leBytes 4 (p.role + 256 * b2n p.operational) ++ leBytes 4 p.dupDiscard ++ leBytes 4 p.ringDrop

/-- GET_STATUS: the status goes to the block behind the header.  (PRESUMED, unsafe: log entry 55.) -/
def StrandSt.pkgGetStatus (st : StrandSt) (k a : Nat) : StrandSt :=
  st.pkgCommand k a 1 fun p s => (0, (s.bankWrite reqCore (a + 16) p.status).st)

/-- GO_OPERATIONAL and GO_STOPPED. -/
def StrandSt.pkgGo (st : StrandSt) (k a : Nat) (on : Bool) : StrandSt :=
  st.pkgCommand k a (if on then 2 else 3) fun p s => (0, s.setPkg k { p with operational := on })

/-- READ_CONTEXT: the 512 B context whose number stands behind the header is copied behind it (R257).  (PRESUMED, unsafe: log entry 55.) -/
def StrandSt.pkgReadCtx (st : StrandSt) (k a : Nat) : StrandSt :=
  st.pkgCommand k a 4 fun _ s =>
    let c := s.memWord (a + 16)
    if s.nCtx ≤ c then (3, s) else (0, (s.bankWrite reqCore (a + 20) (Memory.read s.banks.mem (s.ctxAddr c) 512)).st)

end Sys2Proof.Machine
end

