-- ==== Sys2Proof/Machine/BootOps.lean ====
section
/-! DEFINITION. Boot records, starts and the transitions of the device mode (R44 to R46, R454 to R465, R472 to R475, R491). -/

namespace Sys2Proof.Machine

/-! ## Boot records (R460 to R462) -/

/-- The boot record of a flash, where the flash works. -/
def Flash.record (f : Flash) : Option BootRec := if f.works then f.boot else none

/-- The copy with the older record, or none, takes a record (R461). -/
def Flash.putRecord (f : Flash) (r : BootRec) : Flash :=
  if f.boot.isNone then { f with boot := some r } else { f with boot := some r, bootAt := 1 - f.bootAt, bootOld := f.boot }

/-- The valid record with the highest generation; ties: FLASH_A. -/
def Dev.bootFound (d : Dev) : Option BootRec :=
  match d.flashes.a.record, d.flashes.b.record with
  | some x, some y => some (if newer y.gen x.gen then y else x)
  | some x, none => some x
  | none, y => y

/-- Whether the flashes' newest generations differ, both flashes working. -/
def Dev.bootDiffers (d : Dev) : Bool :=
  d.flashes.a.works && d.flashes.b.works && (d.flashes.a.boot.map (·.gen)) != (d.flashes.b.boot.map (·.gen))

/-- The record in use. -/
def Dev.setBoot (d : Dev) (r : BootRec) : Dev := { d with upd := { d.upd with boot := r, bootOk := true } }

/-- A record written with GEN one above the newest, to both flashes (R461). -/
def Dev.writeBoot (d : Dev) (r : BootRec) : Dev :=
  let g := ((d.bootFound.map (·.gen)).getD 0 + 1) % 2 ^ 32
  let r := { r with gen := g }
  (d.eachFlash fun f => f.putRecord r).setBoot r

/-- revert(r) of R462. -/
def BootRec.revert (r : BootRec) : BootRec :=
  { r with active := r.prev.getD 0xFF, prev := none, trial := false, tries := 0, cfgCur := r.cfgPrev.getD r.cfgCur, cfgPrev := none }

def Dev.revertBoot (d : Dev) (r : BootRec) : Dev := (d.writeBoot r.revert).log 0x1306 .lasting 0 []

/-- The record in use after the steps of select() before the image is tested.  (DEDUCED, unsafe: log entry 144.) -/
def Dev.countTry (d : Dev) (r : BootRec) : Dev :=
  let d := if d.bootDiffers then (d.eachFlash fun f => if f.boot.map (·.gen) = some r.gen then f else f.putRecord r).log 0x1305 .transient 0 [] else d
  if !r.trial then d.setBoot r
  else if r.tries = 3 then d.revertBoot r
  else d.writeBoot { r with tries := r.tries + 1 }

/-- How the read of a slot comes out at this start (R456). -/
def StartIn.readOf (s : StartIn) (n : Nat) : Nat := if n = 0 then s.read0 else s.read1

/-- Whether the image of a slot can be read and passes. -/
def StartIn.slotOk (s : StartIn) (n : Nat) : Bool := match n with
  | 0 => s.slot0 && decide (s.read0 < 2)
  | 1 => s.slot1 && decide (s.read1 < 2)
  | _ => false

/-- Header and payload of a slot pass, and the payload's directory holds the firmware to boot (R458, R462, R463 step 4). -/
def Dev.slotOk (d : Dev) (s : StartIn) (n : Nat) : Bool := s.slotOk n && d.fwOk n

/-- The image of a slot is read and tested (R456, R462); a slot that no number names holds none. -/
def Dev.testSlot (d : Dev) (s : StartIn) (n : Nat) : Bool × Dev :=
  if n < 2 then (d.slotOk s n, d.readTwice (s.readOf n)) else (false, d)

/-- select() of R462: whether an image boots. -/
def Dev.select (d : Dev) (s : StartIn) : Bool × Dev :=
  match d.bootFound with
  | none => (false, { d with upd := { d.upd with boot := {}, bootOk := false } })
  | some r =>
    let d := d.countTry r
    let r := d.upd.boot
    let t := d.testSlot s r.active
    if t.1 then t
    else if r.trial && r.prev.isSome then
      let d := t.2.revertBoot r
      d.testSlot s d.upd.boot.active
    else t

/-! ## The load phase begins (R463, R464) -/

/-- MD1: the ROM opens the recovery window, every strand OFF (R38, T3, T17).  (DEDUCED, unsafe: log entry 174.) -/
def Dev.toRecovery (d : Dev) : Dev :=
  let d := allStrands.foldl (fun e i => if e.phase i = .off then e else e.strandCold i) (d.setMode 1)
  { d with loupe := { d.loupe with firmware := false } }

/-- Steps 4 to 6: the firmware runs and reads the configuration; a strand for which it names no package goes OFF (R39); T6 where its format
differs from the image's.  (DEDUCED, unsafe: log entry 174.) -/
def Dev.readConfig (d : Dev) (c : CfgDev) : Dev :=
  let c := { c with usable := c.usable && d.cfgForm d.upd.boot.cfgCur }
  let d := { d with cfg := c, base := if c.ok then c.base else 0, devLock := false, holdBy := none,
                    loupe := { d.loupe with firmware := !d.loupe.safe },
                    upd := { d.upd with trial := false, failed := false } }
  let d := (if d.loupe.firmware then d.logLate else d).setMode 2
  if !c.ok then
    let d := d.log 0x130B .lasting 0 []
    allStrands.foldl (fun e i => e.fence i 13 0x0116) d
  else (allStrands.foldl (fun e i => if e.phase i = .off || bitN c.strands i.val then e else e.strandCold i) d).tryT6

/-- Step 1: the counter of a CONFIRMED active image advances (R463, R474).  (DEDUCED, unsafe: log entry 122.) -/
def Dev.confirmCounter (d : Dev) : Dev :=
  match d.bootFound with
  | some r =>
    let i := d.areaInfo r.active
    if r.trial then d else d.advanceCounter i.rbIdx i.secver
  | none => d

/-- Step 3 on: select() and the load phase, or MD1. -/
def Dev.beginLoad (d : Dev) (s : StartIn) : Dev :=
  let r := d.select s
  if r.1 then (r.2.readTwice s.readCfg).readConfig { s.cfg with usable := s.cfg.usable && decide (s.readCfg < 2) } else r.2.toRecovery

/-- A start after a reset of the Loupe (T10, T18, T19): the steps of R463 from the first.  (DEDUCED, unsafe: log entry 105.)  (DEDUCED, unsafe: log entry 118.) -/
def Dev.restart (d : Dev) (s : StartIn) : Dev := ((d.hmStart s.hmErr).confirmCounter).beginLoad s

/-! ## POR and its end (R27, R44, R433, R439, R440, R490) -/

/-- What of a strand survives POR: the board side of its pins. -/
def StrandSt.afterPor (st : StrandSt) : StrandSt := { bp := { ext := st.bp.ext, vio := st.bp.vio } }

/-- What of a flash survives POR: its contents. -/
def Flash.afterPor (f : Flash) : Flash := { boot := f.boot, bootAt := f.bootAt, bootOld := f.bootOld, wear := f.wear, blocks := f.blocks, info := f.info, log := f.log }

/-- The relay session as the session record keeps it: a verification restarts, an ARMED session reads COMPLETE (R476). -/
def Session.kept (s : Session) : Session :=
  { s with state := if s.state = 4 then 3 else s.state, upNow := false, upLost := false, asked := 0, at_ := 0,
           down0 := {}, down1 := {} }

/-- POR: everything but OTP, Hallmark, tamper latches and flash contents. -/
def Dev.powerOn (d : Dev) : Dev :=
  { ns := d.ns, por := true, sup := Quad.all { hbAt := d.ns }, strands := d.strands.map StrandSt.afterPor, hm := { d.hm with lcNext := none },
    flashes := ⟨d.flashes.a.afterPor, d.flashes.b.afterPor⟩, upd := { session := d.upd.session.kept }, out := d.out,
    loupe := { timeOfs := -(d.ns : Int), timeAt := d.ns, pcyc := d.loupe.pcyc, hopNs := d.loupe.hopNs, wear := d.loupe.wear,
               wearBanks := d.loupe.wearBanks, nextNum := d.loupe.nextNum, nonces := d.loupe.nonces } }

/-- One flash at start-up: SIZE_LOG2 by SFDP, or no answer (R454, R456). -/
def Dev.flashUp (d : Dev) (b : Bool) (size : Option Nat) : Dev :=
  match size with
  | some n => d.setFlash b { d.flash b with present := true, octal := true, sizeLog2 := n % 256 }
  | none => d.flashFail b

/-- The wear record and the log number are taken up; PCYC counts the POR, and hours in RUN count from the first POR after MANUFACTURE (R433, R439).  (DEDUCED, unsafe: log entry 139.) -/
def Dev.takeWear (d : Dev) : Dev :=
  let l := match d.wearFound with
    | some w => { d.loupe with hopNs := w.hopNs, pcyc := w.pcyc + 1, wear := w.wear.map fun x => { x with monFail := false }, wearBanks := w.banks }
    | none => { d.loupe with hopNs := 0, pcyc := 1, wear := Quad.all {}, wearBanks := Quad.all {} }
  { d with loupe := { l with counting := d.hm.lc != 0, nextNum := match d.lastNum with
    | some n => (n + 1) % 2 ^ 32
    | none => 0 } }

/-- POR_END: T1 to T4, and T16 for a tamper latch that is set (R44, R46, R402, R463).  (DEDUCED, unsafe: log entry 116.)  (DEDUCED, unsafe: log entry 122.) -/
def Dev.porEnd (d : Dev) (testEn recoveryN : Bool) (flashA flashB : Option Nat) (s : StartIn) : Dev :=
  if !d.por then d
  else
    let d := { d with por := false, hm := { d.hm with roseAt := d.ns } }
    let d := ((d.flashUp false flashA).flashUp true flashB).takeWear
    let test := testEn && (d.hm.lc = 0 || d.hm.lc = 2)
    let d := if d.hm.tamper != 0 && !test then d.wipe.log 0x1010 .fatal 0x40 [d.hm.tamper] else d
    let d := (d.hmStart s.hmErr).confirmCounter
    if test then d.setMode 11
    else if d.hm.tamper != 0 then d.setMode 10
    else if (d.hm.lc = 1 || d.hm.lc = 2) && !d.hm.hasId then d.setMode 10
    else if !recoveryN then d.toRecovery
    else d.beginLoad s

/-- WAKE: T5, or T2, 1 µs after the entry to MD0 at the earliest (R491).  (DEDUCED, unsafe: log entry 79.) -/
def Dev.wake (d : Dev) (s : StartIn) : Dev :=
  if d.por || d.mode != 0 || d.ns < d.sleptAt + 1000 then d
  else
    let d := allStrands.foldl (fun (e : Dev) i => e.updSup i fun x => { x with lastReset := 3 }) d
    let d := (d.hmStart s.hmErr).confirmCounter
    if (d.hm.lc = 1 || d.hm.lc = 2) && !d.hm.hasId then d.setMode 10 else d.beginLoad s

/-! ## The load phase ends (T7 to T10) -/

/-- The device lock, with the lock's check of the Locket bindings (R13, R410).  (DEDUCED, unsafe: log entry 109.) -/
def Dev.lockDevice (d : Dev) : Dev := ({ d with devLock := true } : Dev).bindLock

/-- The trial of a TRIAL image starts; it has failed already where the phase ended other than by T7 (R473). -/
def Dev.startTrial (d : Dev) (t7 : Bool) : Dev :=
  if !d.upd.boot.trial then d
  else
    let d := { d with upd := { d.upd with trial := true, failed := false, trialAt := d.ns } }
    if t7 then d else d.trialFail

/-- T7. -/
def Dev.toBase (d : Dev) : Dev := ((d.lockDevice).setMode d.base).startTrial true

/-- Whether every configured strand has ended its load. -/
def Dev.loadsEnded (d : Dev) : Bool := d.configured.all fun i => d.phase i = .run || d.phase i = .fenced

/-- LOAD_PHASE_END: T7 from MD2, T8, T9.  (DEDUCED, unsafe: log entry 109.)  (DEDUCED, unsafe: log entry 110.) -/
def Dev.loadPhaseEnd (d : Dev) : Dev :=
  if !(d.mode = 2 || d.mode = 3) || !d.loadsEnded then d
  else
    let fenced := !d.cfg.ok || d.configured.any fun i => d.phase i = .fenced
    if !fenced then (if d.mode = 2 then d.toBase else d)
    else if d.cfg.ok && d.cfg.degraded && d.configured.any (fun i => d.phase i = .run) then
      ((d.lockDevice).setMode 8).startTrial false
    else
      let d := { d.lockDevice with holdBy := some .degradedStart, holdFrom := d.mode }
      let d := allStrands.foldl (fun e i => e.toHold i) (d.setMode 9)
      d.startTrial false

/-- The flash areas of the configuration copies. -/
def cfgArea (copy : Nat) : Nat := 2 + copy % 2

/-- The other configuration copy holds `payload`, which the image's routine has built, in the image's format. -/
def Dev.migrated (d : Dev) (payload : List Byte) : Dev :=
  let b := d.upd.boot
  let new := 1 - b.cfgCur % 2
  let info := some { d.areaInfo (cfgArea b.cfgCur) with
    kind := 3, cfgFmt := (d.areaInfo b.active).cfgFmt, secver := 0, rbIdx := 0, length := payload.length }
  ((d.eraseArea (cfgArea new)).storeArea (cfgArea new) 512 payload).setInfo (cfgArea new) info

/-- MIGRATION in MD3: the routine of the image builds `payload`, which is sealed and stored in the other copy; `ok` says that the read-back passes.
Verified, T7; otherwise, or without a routine in the image, T10 (R458, R465).  (DEDUCED, unsafe: log entry 105.)  (DEDUCED, unsafe: log entry
110.) -/
def Dev.migration (d : Dev) (ok : Bool) (payload : List Byte) (s : StartIn) : Dev :=
  if d.mode != 3 then d
  else
    let b := d.upd.boot
    let new := 1 - b.cfgCur % 2
    let d := if d.fwMigrates b.active then d.migrated payload else d
    if ok && d.fwMigrates b.active && d.cfgForm new && d.configured.all (fun i => d.phase i = .run) then
      let d := (d.writeBoot { b with cfgPrev := some b.cfgCur, cfgCur := new }).log 0x1309 .transient 0 []
      d.toBase
    else
      let d := d.log 0x130A .lasting 0 []
      let d := allStrands.foldl (fun e i => e.loupeCold i) d
      (d.loupeReset 3).restart s

/-! ## Commands on the device mode (T12 to T19) -/

/-- The modes from which SHUTDOWN and RESTART have a row. -/
def Dev.running (d : Dev) : Bool := d.inBase || d.mode = 8 || d.mode = 9

/-- T19: all strands STRAND_WARM, LOUPE_RESET, and the load phase (R44).  (DEDUCED, unsafe: log entry 105.)  (DEDUCED, unsafe: log entry 113.) -/
def Dev.t19 (d : Dev) (s : StartIn) : Dev :=
  if !d.running then d
  else
    let d := allStrands.foldl (fun e i => e.loupeWarm i) d
    (d.loupeReset 3).restart s

/-- T15: the ledgers are kept, the log and the wear record are written, strands OFF, the Clasp without power (R315, R353).  (DEDUCED, unsafe: log
entry 59.)  (DEDUCED, unsafe: log entry 79.)  (DEDUCED, unsafe: log entry 119.) -/
def Dev.shutdown (d : Dev) : Dev :=
  if !d.running then d
  else
    let d := (d.logFlush 0 0).wearRecordWrite
    let d := allStrands.foldl (fun (e : Dev) i =>
      if e.phase i = .off then e
      else
        let e := (e.updSup i fun x => { x with retValid := true }).resetLogic i false
        e.strandOff i) d
    let l := { d.loupe with firmware := false, core := .loupeStart, sram := [], kept := [], nonce := none }
    let d := (({ d with clasp := {}, loupe := l, devLock := false, holdBy := none } : Dev).lktLost.resetIdent 0).disarm.setMode 0
    { d with clasp := {}, sleptAt := d.ns }

/-- A commanded LOUPE_RESET: the whole ring is flushed before it (R428, R439).  (DEDUCED, unsafe: log entry 106.) -/
def Dev.resetCommand (d : Dev) : Dev := (d.logFlush 0 0).loupeReset 3

/-- LOUPE_RESET by its cause: 0 lockstep, 1 watchdog, 2 command. -/
def Dev.loupeResetBy (d : Dev) (cause : Fin 3) : Dev := if cause = 2 then d.resetCommand else d.loupeReset (cause.val + 1)

/-- The triggering condition of MD9 is absent (R45). -/
def Dev.triggerGone (d : Dev) : Bool :=
  match d.holdBy with
  | some .essential => !d.essentialFenced
  | some .sensor => d.cooled
  | _ => true

/-- T14's guard. -/
def Dev.mayRelease (d : Dev) : Bool :=
  d.mode = 9 && d.base != 0 && d.triggerGone && d.configured.any fun i => d.phase i != .fenced

/-- The return mode of T14: the mode left by T13, or after T9 the base mode where all strands have loaded (R45).  (DEDUCED,
unsafe: log entry 112.) -/
def Dev.returnMode (d : Dev) : Nat :=
  let fenced := d.configured.any fun i => d.phase i = .fenced
  let pairs := d.configured.all fun i => d.phase i = .hold
  if d.holdBy != some .degradedStart then d.holdFrom
  else if fenced || ((d.base = 5 || d.base = 6) && !pairs) then 8 else d.base

/-- T14: HOLD strands to RUN; the last of them may end MD8 (T12). -/
def Dev.releaseHold (d : Dev) : Dev :=
  if !d.mayRelease then d
  else
    let d := ({ d with holdBy := none } : Dev).setMode d.returnMode
    (allStrands.foldl (fun e i => e.toRun i) d).tryT12

/-- REJOIN of a fenced strand in MD8: STRAND_COLD, and loading may start (R36). -/
def Dev.rejoin (d : Dev) (i : StrandId) : Dev :=
  if d.mode != 8 || d.phase i != .fenced || d.thisCyc.fenced.contains i.val then d
  else (d.strandCold i).updSup i fun x => { x with rejoin := true }

/-- T17. -/
def Dev.recover (d : Dev) : Dev := if d.mode = 10 && d.hm.lc != 3 then d.toRecovery else d

/-! ## Activation, confirmation, reversion (R472 to R475) -/

/-- The image in use is confirmed (R474). -/
def Dev.confirm (d : Dev) : Dev :=
  let b := d.upd.boot
  if !b.trial then d
  else
    let d := d.writeBoot { b with trial := false, tries := 0 }
    let d := { d with upd := { d.upd with trial := false, failed := false } }
    let i := d.areaInfo b.active
    (d.advanceCounter i.rbIdx i.secver).log 0x1307 .transient 0 []

/-- TRIAL_CONFIRM_DUE: the trial has held for T_CONFIRM (R473). -/
def Dev.trialConfirm (d : Dev) : Dev :=
  if d.upd.trial && decide (d.upd.trialAt + fieldOf (d.urd Reg.UPD_CFG) 15 0 * 10 ^ 9 ≤ d.ns) then d.confirm else d

/-- TRIAL_RESTART_DUE: 1 s after a failure (R473). -/
def Dev.trialRestart (d : Dev) (s : StartIn) : Dev :=
  if d.upd.failed && decide (d.upd.trialAt + 10 ^ 9 ≤ d.ns) then ({ d with upd := { d.upd with failed := false } } : Dev).t19 s else d

/-- ACTIVATION_DUE: Loupe time has reached AT: the boot record of an ARMED session, and T19 (R472). -/
def Dev.activationDue (d : Dev) (s : StartIn) : Dev :=
  let x := d.upd.session
  let b := d.upd.boot
  if x.state != 4 || d.loupeNs < x.at_ then d
  else
    let r := if x.area < 2 then { b with active := x.area, prev := some b.active, trial := true, tries := 0, cfgPrev := none }
             else { b with prev := some b.active, cfgPrev := some b.cfgCur, cfgCur := x.area - 2, trial := true, tries := 0 }
    let d := (d.writeBoot r).log 0x1308 .transient 0 []
    let d := { d with upd := { d.upd with session := { x with state := 3 }, lastActive := some (x.id, x.area), trial := false } }
    d.t19 s

end Sys2Proof.Machine
end

