-- ==== Sys2Proof/Machine/ImageOps.lean ====
section
/-! DEFINITION. Kerty image headers, blocks stored in the flashes, the recovery window, merged records, BAR2 (R318, R324, R330,
R333, R334, R457 to R459, R477). -/

namespace Sys2Proof.Machine

/-! ## Image headers (R457, R459) -/

/-- The header fields of an image. -/
def parseHeader (h : List Byte) : ImgInfo :=
  { kind := leAt h 6 1, keySlot := leAt h 7 1, revMin := leAt h 10 1, rbIdx := leAt h 11 1, ver := leAt h 12 4, secver := leAt h 16 4,
    cfgFmt := leAt h 20 2, length := leAt h 24 4 }

/-- Check 1: MAGIC, HDR_VER, no reserved value, reserved bytes zero. -/
def headerForm (h : List Byte) : Bool :=
  let i := parseHeader h
  leAt h 0 4 == 0x5954524B && leAt h 4 2 == 1 && decide (1 ≤ i.kind) && decide (i.kind ≤ 3) && decide (i.keySlot ≤ 7) &&
  decide (i.rbIdx ≤ 15) && decide (i.secver ≤ 255) && leAt h 22 2 == 0 && leAt h 28 4 == 0 && leAt h 177 239 == 0

/-- Check 3's limits of LENGTH. -/
def lengthOk (i : ImgInfo) : Bool :=
  decide (1 ≤ i.length) && decide (i.length ≤ (if i.kind = 1 then 29883904 else 1048064))

/-- The silicon revision of CLASP_ID. -/
def siliconRev : Nat := 1

/-- The checks of R459 in their order on a header that comes from outside: 0 passes, 1 HDR_BAD, 2 ROLLBACK.  `sig` says that the
key's hash is the one its slot (or OTP, while the Hallmark is empty) holds, and that the signature verifies. -/
def Dev.headerCheck (d : Dev) (h : List Byte) (sig : Bool) : Nat :=
  let i := parseHeader h
  if !headerForm h then 1
  else if leAt h 8 2 != 0x0416 || siliconRev < i.revMin then 1
  else if i.kind = 3 || !lengthOk i then 1
  else if !sig || (d.hm.valid && !bitN (d.hm.slots.get 0 i.keySlot) 0) then 1
  else if i.secver < d.hm.rollback.get 0 i.rbIdx then 2
  else 0

/-! ## Recovery window (R333, R334, R477) -/

def Dev.setRec (d : Dev) (r : Recovery) : Dev := { d with clasp := { d.clasp with rec_ := r } }

/-- Whether the window is served (R315). -/
def Dev.recLive (d : Dev) : Bool := d.mode = 1 || d.mode = 11

/-- A refusal: its code is shown and logged. -/
def Dev.recRefuse (d : Dev) (code : Nat) : Dev := (d.setRec { d.clasp.rec_ with code := code }).log 0x0D10 .lasting 0x20 [code]

/-- REC_OPEN. -/
def Dev.recOpen (d : Dev) (b resume : Bool) : Dev :=
  let r := d.clasp.rec_
  if !d.recLive then d
  else if r.isOpen && r.owner != b then d.recRefuse 7
  else if resume then d.setRec { r with isOpen := true, owner := b, code := 0 }
  else d.setRec { r with isOpen := true, owner := b, code := 0, next := 0, total := 0, image := [] }

/-- REC_CLOSE. -/
def Dev.recClose (d : Dev) (b : Bool) : Dev :=
  let r := d.clasp.rec_
  if !d.recLive then d
  else if r.isOpen && r.owner == b then d.setRec { r with isOpen := false, code := 0 } else d.recRefuse 8

/-- The area a recovery image is stored into (R477). -/
def Dev.recArea (d : Dev) (kind : Nat) : Nat :=
  match d.bootFound with
  | some r => if kind = 1 then (if r.active = 0 then 1 else 0) else (if r.cfgCur = 0 then 3 else 2)
  | none => if kind = 1 then 0 else 2

/-- The boot record after a complete recovery (R477); `prevOk` says that the header of the old active slot passes.  (DEDUCED, unsafe: log entry 120.)
(DEDUCED, unsafe: log entry 121.) -/
def Dev.recRecord (d : Dev) (kind : Nat) (prevOk : Bool) : BootRec :=
  match d.bootFound with
  | some r =>
    if kind = 1 then { r with active := d.recArea 1, trial := true, tries := 0, prev := if prevOk then some r.active else none }
    else { r with prev := some r.active, cfgPrev := some r.cfgCur, cfgCur := d.recArea 2 - 2, trial := true, tries := 0 }
  | none => { active := 0, trial := true, tries := 0, prev := none, cfgCur := 0, cfgPrev := none }

/-- A block that fits is stored; the image may be complete with it.  (DEDUCED, unsafe: log entry 120.) -/
def Dev.recStore (d : Dev) (n : Nat) (flashErr digestOk prevOk : Bool) (s : StartIn) : Dev :=
  let r := d.clasp.rec_
  if flashErr then d.recRefuse 6
  else
    let bs := Memory.read r.buf 0 n
    let info := if r.next = 0 then parseHeader bs else (d.areaInfo (d.recArea r.kind))
    let area := d.recArea info.kind
    let total := if r.next = 0 then 512 + info.length else r.total
    let d := if r.next = 0 then (d.eraseArea area).setInfo area (some info) else d
    let d := (d.storeArea area r.next bs).cinc 14
    let next := r.next + n
    let r := { r with next := next, total := total, kind := info.kind, code := 0 }
    if next != total then d.setRec r
    else if !digestOk then (d.setRec { r with next := 0 }).recRefuse 5
    else
      let d := (d.setRec { r with code := 1 }).writeBoot (d.recRecord info.kind prevOk)
      (d.loupeReset 3).restart s

/-- REC_SUBMIT with REC_OFFSET and REC_LEN as they stand.  `sig`, `flashErr`, `digestOk`, `prevOk`: how the signature, the writes, the
digest and the old slot's header come out; `s` is what the start that follows finds.  (DEDUCED, safe: log entry 83.) -/
def Dev.recSubmit (d : Dev) (b sig flashErr digestOk prevOk : Bool) (s : StartIn) : Dev :=
  let r := d.clasp.rec_
  let o := r.offset.toNat
  let n := r.len
  if !d.recLive then d
  else if !r.isOpen then d.recRefuse 8
  else if r.owner != b then d.recRefuse 7
  else if n = 0 || 65536 < n || n % 4 != 0 then d.recRefuse 9
  else if r.next < o then d.recRefuse 4
  else if o + n ≤ r.next then (d.setRec { r with code := 0 }).cinc 15
  else if o < r.next then d.recRefuse 4
  else if r.next = 0 && n < 512 then d.recRefuse 9
  else
    let hdr := if r.next = 0 then d.headerCheck (Memory.read r.buf 0 512) sig else 0
    if hdr != 0 then d.recRefuse (hdr + 1) else d.recStore n flashErr digestOk prevOk s

/-- REC_STATUS.  (DEDUCED, safe: log entry 83.) -/
def Recovery.status (r : Recovery) : Word := BitVec.ofNat 32 (b2n r.owner * 2 ^ 30 + b2n r.isOpen * 2 ^ 29 + r.code)

/-! ## Merged records (R324 to R327, R330) -/

/-- MERGE_WRITEBACK: the write-back at the head of strand `i`'s requests is held for its group; one outside its ring breaks
the protocol (R324, R330). -/
def Dev.mergeWriteback (d : Dev) (i : StrandId) : Dev :=
  match d.clasp.q.get i with
  | .wb _ k _ q a bs :: _ =>
    match (if k < 16 then d.txGroup i k else none) with
    | none => d
    | some g =>
      let m := d.mg g
      let odd := oddOf i
      let held := if odd then m.held1 else m.held0
      let st := d.strand i
      if a < st.ringBase k || st.ringBase k + 32 * st.ringSize k ≤ a then d.fenceTrigger i 11 0x0114
      else if 256 ≤ held.length then
        if m.fullCounted.get false (b2n odd) then d
        else ((d.setMg g { m with fullCounted := m.fullCounted.set false (b2n odd) true }).cinc 8).dflag Reg.CLASP_FLAGS 4
      else
        let held := held ++ [{ qseq := q, addr := a, bytes := bs }]
        let m := { m with fullCounted := m.fullCounted.set false (b2n odd) false }
        (d.setMg g (if odd then { m with held1 := held } else { m with held0 := held })).popReq i
  | _ => d

/-- MERGE_RECORD: the record at the head of strand `i`'s requests reaches its merge group, which decides the TX records of a cycle at its end
(R324). -/
def Dev.mergeRecord (d : Dev) (i : StrandId) : Dev :=
  match d.clasp.q.get i with
  | .record _ cq _ _ ws :: _ =>
    match d.cqGroup i cq with
    | none => d
    | some g =>
      let q := (ws.getD 0 0).toNat
      let rx := bitOf (d.mgCfg g) 30
      if !d.recordOk g i ws then d.fenceTrigger i 11 0x0114
      else
        let d := (d.popReq i).returnHead i cq
        let d := if d.numbered g ws then d.setMg g ((d.mg g).setPrev (oddOf i) q) else d
        if rx then d.mergeRx g (oddOf i) ws
        else d.setMg g { d.mg g with first := (d.mg g).first ++ [{ odd := oddOf i, at_ := d.ns, words := ws }] }
  | _ => d

/-! ## Power management (R313) -/

/-- PM_STATE_CHANGE of a link's function. -/
def Dev.pmChange (d : Dev) (b d3 : Bool) : Dev := if (d.link b).up then d.setLink b { d.link b with d3 := d3 } else d

/-- CLASP_RESTART: the host-port fence is released (R332).  (DEDUCED, safe: log entry 77.) -/
def Dev.claspRestart (d : Dev) : Dev := { d with clasp := { d.clasp with fenced := false, mismatchAt := none } }

/-! ## BAR2 (R318) -/

/-- A refused BAR access is counted. -/
def Dev.badAccess (d : Dev) : Dev := d.cinc 13

/-- The value a read of `n` bytes returns where a region is off (R315). -/
def allOnes (n : Nat) : Nat := 2 ^ (8 * n) - 1

/-- Whether the strand regions serve a host in this mode (R315). -/
def Dev.strandsOn (d : Dev) : Bool := (2 ≤ d.mode && d.mode ≤ 9) || d.mode = 11

/-- Whether a bank's BAR2 enable is set. -/
def Dev.bar2En (d : Dev) (i : StrandId) (k : Nat) : Bool :=
  if k < 32 then d.dbit (Reg.CLASP_BAR2_EN_LO i.val) k else d.dbit (Reg.CLASP_BAR2_EN_HI i.val) (k - 32)

/-- The banks an access of `n` bytes from `a` reaches. -/
def banksOf (a n : Nat) : List Nat := (List.range ((a + n - 1) / bankSize - a / bankSize + 1)).map (a / bankSize + ·)

/-- A host's read of strand SRAM: through BAR2 or the SRAM window (R316, R318, R398). -/
def Dev.hostSramRead (d : Dev) (i : StrandId) (a n : Nat) : Dev :=
  let off := !d.strandsOn || d.phase i = .off || d.phase i = .fenced
  if off || 0x600000 < a + n then d.emit (.readData (allOnes n))
  else if 512 < n then d.badAccess.emit .completerAbort
  else if !(banksOf a n).all (d.bar2En i) then d.badAccess.emit (.readData (allOnes n))
  else
    let r := d.onStrandR i fun st =>
      let x := st.bankRead reqBar2 a n
      ((x.ue, leNum x.bytes), x.st)
    if r.1.1 then r.2.emit .completerAbort else r.2.emit (.readData r.1.2)

/-- A host's write of strand SRAM. -/
def Dev.hostSramWrite (d : Dev) (i : StrandId) (a : Nat) (bs : List Byte) : Dev :=
  let on := d.strandsOn && (d.phase i = .run || d.phase i = .hold)
  if !on || bs.isEmpty || 0x600000 < a + bs.length then d
  else if !(banksOf a bs.length).all (d.bar2En i) then d.badAccess
  else d.onStrand i fun st => (st.bankWrite reqBar2 a bs).st

/-- BAR2_ACCESS on a link: a read of `n` bytes, or a write. -/
def Dev.bar2Read (d : Dev) (b : Bool) (off n : Nat) : Dev :=
  if !d.linkOpen b || n = 0 || 0x10000000 ≤ off then d
  else d.hostSramRead (Fin.ofNat 4 (off / 0x4000000)) (off % 0x4000000) n

def Dev.bar2Write (d : Dev) (b : Bool) (off : Nat) (bs : List Byte) : Dev :=
  if !d.linkOpen b || 0x10000000 ≤ off then d
  else d.hostSramWrite (Fin.ofNat 4 (off / 0x4000000)) (off % 0x4000000) bs

end Sys2Proof.Machine
end

