-- ==== Sys2Proof/Machine/BusOps.lean ====
section
/-! DEFINITION. Accesses of the masters: the host through BAR0 (R314 to R317), a strand's core to its register space (R8), the
Loupe to its address space (R430), and the snapshot commands (R17). -/

namespace Sys2Proof.Machine

/-! ## The Clasp's registers (R335 to R337) -/

/-- Whether strand `odd` of group configuration `c` is live, for MG_STATUS. -/
def Dev.mgLive (d : Dev) (c : Word) (odd : Bool) : Bool :=
  let i := mgStrand c odd
  bitOf c 31 && (!bitOf c 30 || bitOf c (if odd then 28 else 27)) && d.live i

/-- A read of merge group `g`'s page at offset `o` (R337). -/
def Dev.mgPeek (d : Dev) (g o : Nat) : Word :=
  let m := d.mg g
  let c := d.mgCfg g
  match o with
  | 0x20 => BitVec.ofNat 32 (if bitOf c 30 then m.gseq else m.mark)
  | 0x24 => BitVec.ofNat 32 m.accShown
  | 0x28 => 0
  | 0x30 => packW [(d.dfld (mgPage g + 0x30) 7 6, 6), (b2n (d.mgLive c true), 5), (b2n (d.mgLive c false), 4), (b2n m.primary, 3),
      (m.state, 0)]
  | _ => d.drd (mgPage g + o)

/-- A read of a Clasp register on link `b`, at a device offset of 0x100_0000 and upward. -/
def Dev.claspPeek (d : Dev) (b : Bool) (off : Nat) : Word :=
  if off = Reg.CLASP_ID then setBit (d.drd off) 0 b
  else if off = Reg.CLASP_MODE then
    packW ((d.mode, 0) :: (d.base, 4) :: allStrands.map fun i => ((d.phase i).code, 16 + 3 * i.val))
  else if off = Reg.CLASP_IRQ_ARM_LO then BitVec.ofNat 32 (d.link b).arm
  else if off = Reg.CLASP_IRQ_ARM_HI then BitVec.ofNat 32 ((d.link b).arm / 2 ^ 32)
  else if off = Reg.CLASP_SWIN then BitVec.ofNat 32 (d.link b).swin
  else if 0x1001000 ≤ off && off < 0x1001200 then d.mgPeek ((off - 0x1001000) / 0x40) (off % 0x40)
  else if 0x1002000 ≤ off && off < 0x1003000 then snapWord d.clasp.snap (off - 0x1002000)
  else if 0x1008000 ≤ off && off < 0x1008400 then d.msixRead b ((off - 0x1008000) / 4)
  else if off = 0x1008400 then BitVec.ofNat 32 (d.pba b)
  else if off = 0x1008404 then BitVec.ofNat 32 (d.pba b / 2 ^ 32)
  else d.drd off

/-- A write that only stores into a shared Clasp register, by a master of the `who` bit `w`. -/
def Dev.devPlain (d : Dev) (w off : Nat) (v : Word) : Dev :=
  match findRow deviceRows off with
  | none => d
  | some r => if bitN r.who w then d.dwr off (BitVec.ofNat 32 (rowWrite r d.devLock (d.drd off).toNat v.toNat (d.keptClasp off))) else d

/-- The Clasp's snapshot (R335, R339). -/
def Dev.claspSnap (d : Dev) : Dev :=
  let x := d.thisCyc.clasp.snap d.clasp.cnt d.clasp.snap 0 0x1000
  { d.inCyc fun y => { y with clasp := x.1 } with clasp := { d.clasp with cnt := x.2.1, snap := x.2.2 } }

/-- A write in merge group `g`'s page at offset `o`: the PCQ base and MG_DUP_AGE only while EN = 0 (R337). -/
def Dev.mgWrite (d : Dev) (w g o : Nat) (v : Word) : Dev :=
  match o with
  | 0x00 => d.mgCfgWrite g v
  | 0x0C => (d.devPlain w (mgPage g + o) v).pcqFlush g
  | 0x1C => d.mgTailWrite g (fieldOf v 15 0)
  | 0x28 => d.mgAbort g v
  | _ => if (o = 4 || o = 8 || o = 0x34) && bitOf (d.mgCfg g) 31 then d else d.devPlain w (mgPage g + o) v

/-- A write of ACC_TBL_s: the base only while EN = 0; setting EN begins afresh (R322, R336). -/
def Dev.accWrite (d : Dev) (w off : Nat) (v : Word) : Dev :=
  let pg := off / 16 * 16
  let i := (off - 0x1000080) / 16
  let en := d.dbit (pg + 8) 0
  if off % 16 = 8 then
    let c := if !en && bitOf v 0 then { d.clasp with accs := d.clasp.accs.dropIf fun k => k / 20 == i } else d.clasp
    ({ d with clasp := c } : Dev).devPlain w off v
  else if en then d else d.devPlain w off v

/-- A write of a Clasp register on link `b`, by a master of the `who` bit `w`. -/
def Dev.claspWrite (d : Dev) (w : Nat) (b : Bool) (off : Nat) (v : Word) : Dev :=
  if off = Reg.CLASP_CMD then (if bitOf v 0 then d.claspSnap else d)
  else if off = Reg.CLASP_IRQ_ARM_LO then d.irqArm b false v
  else if off = Reg.CLASP_IRQ_ARM_HI then d.irqArm b true v
  else if off = Reg.CLASP_SWIN then d.setLink b { d.link b with swin := fieldOf v 3 0 }
  else if 0x1000080 ≤ off && off < 0x10000C0 then d.accWrite w off v
  else if 0x1001000 ≤ off && off < 0x1001200 then d.mgWrite w ((off - 0x1001000) / 0x40) (off % 0x40) v
  else if 0x1008000 ≤ off && off < 0x1008400 then d.msixWrite b ((off - 0x1008000) / 4) v
  else d.devPlain w off v

/-! ## A strand's register space -/

/-- A read of the supervisor's registers (R47). -/
def Dev.supPeek (d : Dev) (i : StrandId) (off : Nat) : Word :=
  if off = Reg.SUP_STATUS then d.supStatus i
  else if off = Reg.SUP_CTL then (d.supOf i).ctl
  else if off = Reg.SUP_CAUSE then (d.supOf i).cause
  else (d.strand i).peek 0 false off

/-- A read of a strand register, with its side effects. -/
def Dev.strandRead (d : Dev) (m : Nat) (i : StrandId) (off : Nat) : Word × Dev :=
  if off < 0x10000 then (d.supPeek i off, d)
  else
    let bell := d.bell (4 + i.val)
    d.onStrandR i fun st => st.regRead m bell off

/-- A write of a strand register by the core or the Loupe. -/
def Dev.strandWrite (d : Dev) (m : Master) (i : StrandId) (off : Nat) (v : Word) : Dev :=
  if off = Reg.SUP_CTL then d.supCtlWrite m i v
  else if off = Reg.SUP_CAUSE then d.supCauseWrite m i v
  else if off = Reg.CORE_WDOG_KICK then (match m with | .core _ => d.wdogKick i v | _ => d)
  else d.onStrand i fun st => st.regWrite m.code off v

/-! ## The core of a strand -/

/-- A core reads its register space: strand offset `off`, a whole word (R8, R412). -/
def Dev.coreRead (d : Dev) (i : StrandId) (off : Nat) : Word × Dev :=
  if 0xE0000 ≤ off && off < 0xE4000 then
    let c := (off - 0xE0000) / 0x100
    if off % 0x100 = 0x20 then d.lktRead c (4 + i.val) else (d.lktReg c (4 + i.val) (off % 0x100), d)
  else d.strandRead 2 i off

/-- A core writes its register space. -/
def Dev.coreWrite (d : Dev) (i : StrandId) (off : Nat) (v : Word) : Dev :=
  if !(d.phase i = .run || d.phase i = .hold) then d
  else if 0xE0000 ≤ off && off < 0xE4000 then d.lktWrite ((off - 0xE0000) / 0x100) (4 + i.val) (off % 0x100) v
  else d.strandWrite (.core i) i off v

/-! ## The host through BAR0 -/

/-- Whether the mailbox window and the recovery window serve a host in this mode (R315). -/
def Dev.mailboxOn (d : Dev) : Bool := decide (2 ≤ d.mode)
def Dev.recoveryOn (d : Dev) : Bool := d.mode = 1 || d.mode = 11

/-- REQ_STATUS of a link (R452). -/
def Link.reqStatus (x : Link) : Word := packW [(b2n x.busy, 31), (b2n x.done, 30), (b2n x.reject, 29)]

/-- A read in the mailbox window of link `b` (R412, R426, R452). -/
def Dev.mailboxRead (d : Dev) (b : Bool) (o : Nat) : Word × Dev :=
  let id := 1 + b2n b
  if o < 0x4000 then
    (if o % 0x100 = 0x20 then d.lktRead (o / 0x100) id else (d.lktReg (o / 0x100) id (o % 0x100), d))
  else if o = 0x4000 || o = 0x4004 then
    (packW ((List.range 32).map fun k => (b2n ((d.chan (8 * (o - 0x4000) + k)).bell id false), k)), d)
  else if 0x10000 ≤ o && o < 0x20000 then (BitVec.ofNat 32 (leNum (Memory.read (d.link b).reqBuf (o - 0x10000) 4)), d)
  else if o = 0x20004 then ((d.link b).reqStatus, d)
  else (0, d)

/-- A read in the recovery window (R333, R338). -/
def Dev.recoveryPeek (d : Dev) (o : Nat) : Word :=
  let r := d.clasp.rec_
  if o < 0x10000 then BitVec.ofNat 32 (leNum (Memory.read r.buf o 4))
  else match o with
    | 0x10004 => r.offset
    | 0x10008 => BitVec.ofNat 32 r.len
    | 0x1000C => r.status
    | 0x10010 => BitVec.ofNat 32 r.next
    | 0x10014 => BitVec.ofNat 32 r.total
    | _ => 0

/-- Every bit 1: what a region that is off reads (R315). -/
def onesW : Word := 0xFFFFFFFF

/-- A host reads a word of a strand region (R316).  (DEDUCED, unsafe: log entry 131.)  (DEDUCED, unsafe: log entry 166.) -/
def Dev.hostStrandRead (d : Dev) (b : Bool) (i : StrandId) (off : Nat) : Word × Dev :=
  if !d.strandsOn then (onesW, d)
  else if off < 0x1000 then (d.supPeek i off, d)
  else if d.phase i = .off || d.phase i = .fenced then (onesW, d)
  else if 0xE0000 ≤ off && off < 0xE4000 then (0, d)
  else d.strandRead (b2n b) i off

/-- A host reads an aligned word at a device offset (R314, R315). -/
def Dev.hostReadWord (d : Dev) (b : Bool) (addr : Nat) : Word × Dev :=
  match addr / 0x400000 with
  | 4 => (d.claspPeek b addr, d)
  | 5 => if d.mailboxOn then d.mailboxRead b (addr % 0x400000) else (onesW, d)
  | 6 => (if d.recoveryOn then d.recoveryPeek (addr % 0x400000) else onesW, d)
  | k => if k < 4 then d.hostStrandRead b (Fin.ofNat 4 k) (addr % 0x400000) else (0, d)

/-- A tail write of a TX ring that an enabled merge group names is discarded (R323). -/
def Dev.directTail (d : Dev) (i : StrandId) (off : Nat) : Bool :=
  0x41000 ≤ off && off < 0x41400 && off % 0x40 = 0x10 && (d.txGroup i ((off - 0x41000) / 0x40)).isSome

/-- A host writes a word of a strand region (R316).  (DEDUCED, unsafe: log entry 131.) -/
def Dev.hostStrandWrite (d : Dev) (b : Bool) (i : StrandId) (off : Nat) (v : Word) : Dev :=
  if !d.strandsOn || off < 0x10000 || !(d.phase i = .run || d.phase i = .hold) || 0xE0000 ≤ off then d
  else if d.directTail i off then (d.dflag Reg.CLASP_FLAGS 3).cinc 7
  else d.strandWrite (.host b) i off v

/-- A write in the mailbox window; REQ_LEN's submission is a command of its own.  (DEDUCED, safe: log entry 80.) -/
def Dev.mailboxWrite (d : Dev) (b : Bool) (o : Nat) (v : Word) : Dev :=
  let x := d.link b
  if o < 0x4000 then d.lktWrite (o / 0x100) (1 + b2n b) (o % 0x100) v
  else if 0x10000 ≤ o && o < 0x20000 then d.setLink b { x with reqBuf := Memory.write x.reqBuf (o - 0x10000) (leBytes 4 v.toNat) }
  else if o = 0x20004 then d.setLink b { x with reject := x.reject && !bitOf v 29 }
  else d

/-- A write in the recovery window; SUBMIT is a command of its own.  (DEDUCED, safe: log entry 80.) -/
def Dev.recoveryWrite (d : Dev) (b : Bool) (o : Nat) (v : Word) : Dev :=
  let r := d.clasp.rec_
  if o < 0x10000 then d.setRec { r with buf := Memory.write r.buf o (leBytes 4 v.toNat) }
  else match o with
    | 0x10000 => match fieldOf v 1 0 with
      | 1 => d.recOpen b (bitOf v 4)
      | 3 => d.recClose b
      | _ => d
    | 0x10004 => d.setRec { r with offset := v }
    | 0x10008 => let n := fieldOf v 16 0
                 if 1 ≤ n && n ≤ 65536 then d.setRec { r with len := n } else d
    | _ => d

/-- Whether a host's writes of Clasp registers are served (R315). -/
def Dev.claspOn (d : Dev) : Bool := d.mode != 0 && d.mode != 1 && d.mode != 10

/-- A host writes an aligned word at a device offset. -/
def Dev.hostWriteWord (d : Dev) (b : Bool) (addr : Nat) (v : Word) : Dev :=
  match addr / 0x400000 with
  | 4 => if d.claspOn then d.claspWrite 0 b addr v else d
  | 5 => if d.mailboxOn then d.mailboxWrite b (addr % 0x400000) v else d
  | 6 => if d.recoveryOn then d.recoveryWrite b (addr % 0x400000) v else d
  | k => if k < 4 then d.hostStrandWrite b (Fin.ofNat 4 k) (addr % 0x400000) v else d

/-- Whether a device offset lies in a strand's SRAM window, and the core address it shows on a link (R316). -/
def inSramWindow (addr : Nat) : Bool := decide (addr < 0x1000000) && decide (0x100000 ≤ addr % 0x400000)
def Dev.windowAddr (d : Dev) (b : Bool) (addr : Nat) : Nat :=
  addr % 0x400000 - 0x100000 + (if bitN (d.link b).swin (addr / 0x400000) then 0x300000 else 0)

/-- A host reads `n` bytes through BAR0 (R316, R317).  (DEDUCED, unsafe: log entry 74.) -/
def Dev.hostRead (d : Dev) (b : Bool) (addr n : Nat) : Dev :=
  if !d.linkOpen b || n = 0 || 0x2000000 < addr + n then d
  else if inSramWindow addr then d.hostSramRead (Fin.ofNat 4 (addr / 0x400000)) (d.windowAddr b addr) n
  else if addr % 4 + n ≤ 4 then
    let r := d.hostReadWord b (addr / 4 * 4)
    r.2.emit (.readData (r.1.toNat / 2 ^ (8 * (addr % 4)) % 2 ^ (8 * n)))
  else if n = 8 && addr % 8 = 0 then
    let lo := d.hostReadWord b addr
    let hi := lo.2.hostReadWord b (addr + 4)
    hi.2.emit (.readData (hi.1.toNat * 2 ^ 32 + lo.1.toNat))
  else d.badAccess.emit .completerAbort

/-- A host writes `n` bytes through BAR0, the number `v` (R316, R317).  (DEDUCED, unsafe: log entry 74.) -/
def Dev.hostWriteBytes (d : Dev) (b : Bool) (addr n v : Nat) : Dev :=
  if !d.linkOpen b || n = 0 || 0x2000000 < addr + n then d
  else if inSramWindow addr then d.hostSramWrite (Fin.ofNat 4 (addr / 0x400000)) (d.windowAddr b addr) (leBytes n v)
  else if n = 4 && addr % 4 = 0 then d.hostWriteWord b addr (BitVec.ofNat 32 v)
  else if n = 8 && addr % 8 = 0 then
    (d.hostWriteWord b addr (BitVec.ofNat 32 v)).hostWriteWord b (addr + 4) (BitVec.ofNat 32 (v / 2 ^ 32))
  else d.badAccess

/-! ## The Loupe (R430) -/

/-- Whether the Loupe's accesses reach a strand's page: the supervisor page always but in OFF, the rest in LOADING, RUN and HOLD
while the strand is not fenced inward (R32, R47, R430).  (DEDUCED, unsafe: log entry 126.)  (DEDUCED, unsafe: log entry 166.) -/
def Dev.loupeReach (d : Dev) (i : StrandId) (off : Nat) : Bool :=
  match d.phase i with
  | .off => false
  | .fenced => decide (off < 0x1000)
  | _ => decide (off < 0x1000) || !(d.supOf i).fenceIn

/-- A read of the Loupe unit (R451, R452). -/
def Dev.lpPeek (d : Dev) (a : Nat) : Word :=
  let l := d.loupe
  let wear := fun (f : StrandId → Nat) => BitVec.ofNat 32 (f (Fin.ofNat 4 ((a - 0x50080180) / 16)))
  if a = Reg.LP_STATUS then
    packW [(b2n l.safe, 31), (b2n l.timeUnc, 30), (b2n l.svcLink, 29), (l.lastReset, 20), (l.unflushed, 0)]
  else if a = Reg.LP_TIME_NS then BitVec.ofNat 32 (d.loupeNs % 10 ^ 9)
  else if a = Reg.LP_TIME_S then BitVec.ofNat 32 l.latch.1
  else if a = Reg.LP_TIME_SH then BitVec.ofNat 32 l.latch.2
  else if a = Reg.LP_HOP then BitVec.ofNat 32 d.hop
  else if a = Reg.LP_PCYC then BitVec.ofNat 32 l.pcyc
  else if 0x50080180 ≤ a && a < 0x500801C0 then
    match a % 16 with
    | 0 => wear fun i => (l.wear.get i).drift % 2 ^ 20
    | 4 => wear fun i => (l.wear.get i).eqh / 2 ^ 32
    | 8 => wear d.wearU
    | _ => wear d.wearRemain
  else if 0x50080400 ≤ a && a < 0x50080500 then snapWord l.snap (a - 0x50080400)
  else d.lrd a

/-- A read of the Hallmark's control registers (R408). -/
def Dev.hmPeek (d : Dev) (a : Nat) : Word :=
  if a = Reg.HM_STATUS then packW [(b2n d.hm.valid, 31), (b2n d.hm.wiping, 30), (d.hm.enrolGen % 256, 0)]
  else if a = Reg.LC_STATE then BitVec.ofNat 32 d.hm.lc
  else if a = Reg.TAMPER_CAUSE then BitVec.ofNat 32 d.hm.tamper
  else 0

/-- The lowest missing block of a session: 0xFFFF where none is missing, 0 before a header (R481). -/
def Session.gap (s : Session) : Nat :=
  if s.total = 0 then 0 else ((List.range (ceilDiv s.total 1024)).find? fun k => !s.stored.contains k).getD 0xFFFF

/-- A read of the flash and update unit (R480, R481). -/
def Dev.updPeek (d : Dev) (a : Nat) : Word :=
  let s := d.upd.session
  let r := d.upd.boot
  let kind := match s.header with
    | some h => b2n (h.kind = 2)
    | none => 0
  if a = Reg.FLC_STATUS 0 || a = Reg.FLC_STATUS 1 then
    let f := d.flash (decide (a = Reg.FLC_STATUS 1))
    packW [(b2n f.present, 31), (b2n f.fail, 30), (b2n f.octal, 29), (f.sizeLog2 % 256, 0)]
  else if a = Reg.UPD_STATUS then
    packW [(s.state, 29), (b2n ((d.flash false).fail || (d.flash true).fail), 28), (b2n s.upNow, 27), (b2n s.upLost, 26),
      (kind, 25), (s.area % 2, 24)]
  else if a = Reg.BOOT_STATUS then
    packW [(b2n r.trial, 31), (r.tries % 4, 29), (r.active % 2, 28), (b2n r.prev.isSome, 27), ((r.prev.getD 0) % 2, 26),
      (r.cfgCur % 2, 25), (b2n r.cfgPrev.isSome, 24), (d.cfg.fmt % 2 ^ 16, 0)]
  else if a = Reg.UPD_SESSION then BitVec.ofNat 32 s.id
  else if a = Reg.UPD_TOTAL then BitVec.ofNat 32 s.total
  else if a = Reg.UPD_STORED then BitVec.ofNat 32 s.stored.length
  else if a = Reg.UPD_GAP then BitVec.ofNat 32 s.gap
  else if a = Reg.UPD_AT_NS then BitVec.ofNat 32 (s.at_ % 10 ^ 9)
  else if a = Reg.UPD_AT_S then BitVec.ofNat 32 (s.at_ / 10 ^ 9)
  else if a = Reg.UPD_AT_SH then BitVec.ofNat 32 (s.at_ / 10 ^ 9 / 2 ^ 32)
  else if a = Reg.BOOT_GEN then BitVec.ofNat 32 r.gen
  else if 0x71001100 ≤ a && a < 0x71001200 then snapWord d.upd.snap (a - 0x71001100)
  else d.urd a

/-- Bytes the Loupe reads from the memories of its address space, byte by byte; none where the address is no memory.  (DESIGN CHOICE, safe: log entry 15.) -/
def Dev.loupeBytes (d : Dev) (a n : Nat) : Option (List Byte) :=
  if a + n ≤ 0x20000 then some ((List.range n).map fun k => Config.loupeRom (a + k))
  else if 0x10000000 ≤ a && a + n ≤ 0x10200000 then some (Memory.read d.loupe.sram (a - 0x10000000) n)
  else if 0x50000000 ≤ a && a + n ≤ 0x50010000 then some ((List.range n).map fun k => d.hmRead (a - 0x50000000 + k))
  else none

/-- Strand and offset of a Loupe address in the strands' register or SRAM windows (R430). -/
def loupeStrand (a : Nat) : StrandId := Fin.ofNat 4 ((a - 0x60000000) / 0x1000000)
def inLoupeStrand (a : Nat) : Bool := decide (0x60000000 ≤ a) && decide (a < 0x64000000)

/-- The Loupe reads `n` bytes, at most 4 and within one word (R10, R430): registers and strand SRAM beside its own memories.  (DEDUCED, unsafe: log
entry 82.)  (DESIGN CHOICE, safe: log entry 125.) -/
def Dev.loupeReadN (d : Dev) (a n : Nat) : List Byte × Dev :=
  let w := a / 4 * 4
  let part := fun (x : Word × Dev) => ((leBytes n (x.1.toNat / 2 ^ (8 * (a % 4)))), x.2)
  match d.loupeBytes a n with
  | some bs => (bs, d)
  | none =>
    if 0x50010000 ≤ a && a < 0x50020000 then part (d.hmPeek w, d)
    else if 0x50040000 ≤ a && a < 0x50044000 then
      let c := (a - 0x50040000) / 0x100
      part (if w % 0x100 = 0x20 then d.lktRead c 0 else (d.lktReg c 0 (w % 0x100), d))
    else if 0x50044000 ≤ a && a < 0x50044100 then part ((d.chan ((a - 0x50044000) / 4)).bind, d)
    else if 0x50080000 ≤ a && a < 0x50081000 then
      let sec := d.loupeNs / 10 ^ 9
      let l := { d.loupe with latch := (sec % 2 ^ 32, sec / 2 ^ 32 % 2 ^ 16) }
      part (d.lpPeek w, if w = Reg.LP_TIME_NS then { d with loupe := l } else d)
    else if 0x70000000 ≤ a && a < 0x70400000 then part (d.claspPeek false (w - 0x70000000 + 0x1000000), d)
    else if 0x71000000 ≤ a && a < 0x71002000 then part (d.updPeek w, d)
    else if inLoupeStrand a then
      let i := loupeStrand a
      let x := a % 0x1000000
      if x < 0x100000 then
        if !d.loupeReach i x || (0xE0000 ≤ x && x < 0xE4000) then (leBytes n 0, d) else part (d.strandRead 3 i (w % 0x1000000))
      else if 0x800000 ≤ x && x + n ≤ 0x800000 + 0x600000 && d.loupeReach i x then
        d.onStrandR i fun st =>
          let r := st.bankRead reqLoupe (x - 0x800000) n
          (r.bytes, r.st)
      else (leBytes n 0, d)
    else (leBytes n 0, d)

/-- The Loupe reads a whole word. -/
def Dev.loupeRead (d : Dev) (a : Nat) : Word × Dev :=
  let r := d.loupeReadN (a / 4 * 4) 4
  (BitVec.ofNat 32 (leNum r.1), r.2)

/-- A write that only stores into a register of the Loupe unit or the update unit, under the device lock. -/
def Dev.loupePlain (d : Dev) (a : Nat) (v : Word) : Dev :=
  match findRow loupeRows a with
  | none => d
  | some r =>
    if a < 0x71000000 then d.lwr a (BitVec.ofNat 32 (rowWrite r d.devLock (d.lrd a).toNat v.toNat (d.keptLoupe a)))
    else d.uwr a (BitVec.ofNat 32 (rowWrite r d.devLock (d.urd a).toNat v.toNat (d.keptUpd a)))

/-- The snapshots of the Loupe unit and of the update unit (R451, R480). -/
def Dev.loupeSnap (d : Dev) : Dev :=
  let x := d.thisCyc.loupe.snap d.loupe.cnt d.loupe.snap 0 0x1000
  { d.inCyc fun y => { y with loupe := x.1 } with loupe := { d.loupe with cnt := x.2.1, snap := x.2.2 } }
def Dev.updSnap (d : Dev) : Dev :=
  let x := d.thisCyc.upd.snap d.upd.cnt d.upd.snap 0 0x1000
  { d.inCyc fun y => { y with upd := x.1 } with upd := { d.upd with cnt := x.2.1, snap := x.2.2 } }

/-- A write of LKT_BIND_c, RWL under the device lock (R410). -/
def Dev.bindWrite (d : Dev) (c : Nat) (v : Word) : Dev :=
  if d.devLock then d
  else d.setChan c { d.chan c with bind := packW [(fieldOf v 31 30, 30), (fieldOf v 7 0, 0)] }

/-- The Loupe writes a register: a whole word (R408, R426, R430, R451, R480).  (DEDUCED, unsafe: log entry 82.) -/
def Dev.loupeRegWrite (d : Dev) (a : Nat) (v : Word) : Dev :=
  if a = Reg.HM_CMD then (if bitOf v 0 then d.hmWipe else d)
  else if a = Reg.LC_ADVANCE then d.lcAdvance v
  else if a = Reg.TAMPER_CAUSE then d.tamperClear v.toNat
  else if 0x50040000 ≤ a && a < 0x50044000 then d.lktWrite ((a - 0x50040000) / 0x100) 0 (a % 0x100) v
  else if 0x50044000 ≤ a && a < 0x50044100 then d.bindWrite ((a - 0x50044000) / 4) v
  else if a = Reg.LP_CMD then (if bitOf v 0 then d.loupeSnap else d)
  else if a = Reg.UPD_CMD then (if bitOf v 0 then d.updSnap else d)
  else if (0x50080000 ≤ a && a < 0x50081000) || (0x71000000 ≤ a && a < 0x71002000) then d.loupePlain a v
  else if 0x70000000 ≤ a && a < 0x70400000 then d.claspWrite 2 false (a - 0x70000000 + 0x1000000) v
  else if inLoupeStrand a && a % 0x1000000 < 0x100000 then
    let off := a % 0x1000000
    let i := loupeStrand a
    if !d.loupeReach i off || ((d.supOf i).fenceIn) || (0xE0000 ≤ off && off < 0xE4000) then d
    else d.strandWrite .loupe i off v
  else d

/-- The Loupe writes bytes, at most 4 and within one word: memories take any size, registers whole words (R10). -/
def Dev.loupeWriteN (d : Dev) (a : Nat) (bs : List Byte) : Dev :=
  let n := bs.length
  if 0x10000000 ≤ a && a + n ≤ 0x10200000 then
    { d with loupe := { d.loupe with sram := Memory.write d.loupe.sram (a - 0x10000000) bs } }
  else if 0x50000000 ≤ a && a + n ≤ 0x50010000 then d.hmWrite (a - 0x50000000) bs
  else if inLoupeStrand a && 0x800000 ≤ a % 0x1000000 then
    let i := loupeStrand a
    let x := a % 0x1000000 - 0x800000
    if 0x600000 < x + n || !d.loupeReach i 0x100000 then d
    else d.onStrand i fun st => (st.bankWrite reqLoupe x bs).st
  else if n = 4 && a % 4 = 0 then d.loupeRegWrite a (BitVec.ofNat 32 (leNum bs))
  else d

/-- Whether the Loupe is up to make accesses: not in POR or MD0. -/
def Dev.loupeRuns (d : Dev) : Bool := !d.por && d.mode != 0

/-! ## One access by a master -/

/-- Where a register is: in a strand, in a channel page, at a device offset of the Clasp, or at a Loupe address. -/
inductive Place where
  | strand (i : StrandId) (off : Nat)
  | locket (c : Nat) (off : Nat)
  | clasp (off : Nat)
  | loupe (a : Nat)
deriving DecidableEq, Repr

/-- The address at which a master reaches a place, where it reaches it (R8, R314, R412, R430). -/
def Place.addr (p : Place) (m : Master) : Option Nat :=
  match m, p with
  | .host _, .strand i off => if off < 0x100000 then some (0x400000 * i.val + off) else none
  | .host _, .locket c off => some (0x1400000 + 0x100 * c + off)
  | .host _, .clasp off => some off
  | .host _, .loupe _ => none
  | .core j, .strand i off => if i = j then some off else none
  | .core _, .locket c off => some (0xE0000 + 0x100 * c + off)
  | .core _, .clasp _ => none
  | .core _, .loupe _ => none
  | .loupe, .strand i off => if off < 0x100000 then some (0x60000000 + 0x1000000 * i.val + off) else none
  | .loupe, .locket c off => some (0x50040000 + 0x100 * c + off)
  | .loupe, .clasp off => if off < 0x1400000 then some (off - 0x1000000 + 0x70000000) else none
  | .loupe, .loupe a => some a

/-- A master writes `n` bytes at an address of its own map.  (DEDUCED, unsafe: log entry 167.) -/
def Dev.busWrite (d : Dev) (m : Master) (addr n v : Nat) : Dev :=
  match m with
  | .host b => d.hostWriteBytes b addr n v
  | .core i =>
    if addr % 4 = 0 && n = 4 then d.coreWrite i addr (BitVec.ofNat 32 v)
    else if addr % 8 = 0 && n = 8 then
      (d.coreWrite i addr (BitVec.ofNat 32 v)).coreWrite i (addr + 4) (BitVec.ofNat 32 (v / 2 ^ 32))
    else d
  | .loupe =>
    if !d.loupeRuns then d
    else if addr % 8 = 0 && n = 8 then (d.loupeWriteN addr (leBytes 4 v)).loupeWriteN (addr + 4) (leBytes 4 (v / 2 ^ 32))
    else if addr % 4 + n ≤ 4 then d.loupeWriteN addr (leBytes n v) else d

/-- A master reads the word at an address of its own map; the answer is an output. -/
def Dev.busRead (d : Dev) (m : Master) (addr : Nat) : Dev :=
  match m with
  | .host b => d.hostRead b addr 4
  | .core i =>
    if !(d.phase i = .run || d.phase i = .hold) then d
    else
      let r := d.coreRead i (addr / 4 * 4)
      r.2.emit (.readData r.1.toNat)
  | .loupe =>
    if !d.loupeRuns then d
    else
      let r := d.loupeRead addr
      r.2.emit (.readData r.1.toNat)

/-- A master writes the register at a place, where it reaches it. -/
def Dev.placeWrite (d : Dev) (m : Master) (p : Place) (v : Nat) : Dev :=
  match p.addr m with
  | none => d
  | some a => d.busWrite m a 4 v

/-- A master reads the register at a place, where it reaches it. -/
def Dev.placeRead (d : Dev) (m : Master) (p : Place) : Dev :=
  match p.addr m with
  | none => d
  | some a => d.busRead m a

/-! ## Snapshot commands (R17) -/

/-- The register and the value that command a snapshot of a unit of a strand. -/
def StrandUnit.cmd : StrandUnit → Nat × Nat
  | .bead n => (Reg.BEAD_CMD n.val, 0x40)
  | .mac p => (Reg.MAC_CMD p.val, 1)
  | .pt p => (Reg.PT_CMD p.val, 1)
  | .switch => (Reg.SW_CMD, 1)
  | .dma => (Reg.DMA_CMD, 1)
  | .time => (Reg.TIME_CMD, 1)
  | .bangle => (Reg.BNG_CMD, 1)
  | .filigree => (Reg.FLG_CMD, 1)
  | .mapper => (Reg.MAP_CMD, 1)
  | .bank => (Reg.BANK_CMD, 1)
  | .core => (Reg.CORE_CMD, 1)
  | .ledger => (Reg.LEDGER_CMD, 1)

/-- SNAP: a master writes the snapshot bit of a unit's command register. -/
def Dev.snap (d : Dev) (m : Master) (u : SnapUnit) : Dev :=
  match u with
  | .strand i x => d.placeWrite m (.strand i x.cmd.1) x.cmd.2
  | .clasp => d.placeWrite m (.clasp Reg.CLASP_CMD) 1
  | .locket c => d.placeWrite m (.locket c.val Reg.LKT_CMD) 1
  | .loupe => d.placeWrite m (.loupe Reg.LP_CMD) 1
  | .update => d.placeWrite m (.loupe Reg.UPD_CMD) 1

end Sys2Proof.Machine
end

