-- ==== Sys2Proof/Machine/CoreOps.lean ====
section
/-! DEFINITION. The Dridin cores at work: whose core, traps, memory accesses and the write buffer, one instruction, a D16 sequence,
interrupts and the Loupe's debug commands (R362 to R386, R428). -/

namespace Sys2Proof.Machine

/-! ## The core of a strand or of the Loupe pair -/

/-- A strand's core, or the core of the Loupe pair as 4. -/
def coreStrand (c : Fin 5) : StrandId := Fin.ofNat 4 c.val
def Dev.coreOf (d : Dev) (c : Fin 5) : DCore := if c.val < 4 then (d.strand (coreStrand c)).core else d.loupe.core
def Dev.setCore (d : Dev) (c : Fin 5) (k : DCore) : Dev :=
  if c.val < 4 then d.setStrand (coreStrand c) { d.strand (coreStrand c) with core := k }
  else { d with loupe := { d.loupe with core := k } }

/-- Whether a core has its clock: a strand's in RUN and HOLD (R381), the Loupe's outside POR and MD0. -/
def Dev.coreClocked (d : Dev) (c : Fin 5) : Bool :=
  if c.val < 4 then d.phase (coreStrand c) = .run || d.phase (coreStrand c) = .hold else d.loupeRuns

/-- Whether a core executes instructions. -/
def Dev.coreLive (d : Dev) (c : Fin 5) : Bool := d.coreClocked c && (d.coreOf c).state = .running

/-- A counter of a strand's core raised (R386); the Loupe pair has none. -/
def Dev.coreCount (d : Dev) (c : Fin 5) (x : Nat) : Dev :=
  if c.val < 4 then d.setStrand (coreStrand c) ((d.strand (coreStrand c)).inc (Reg.CORE_CNT + 8 * x)) else d

/-! ## Traps (R377) -/

/-- The counter of a trap's cause. -/
def trapCounter (cause : Nat) : Nat := if cause = 1 then 2 else if cause = 7 then 4 else 3

/-- The trap record of a strand's core.  (DEDUCED, unsafe: log entry 88.) -/
def Dev.noteTrap (d : Dev) (c : Fin 5) (cause tpc : Nat) : Dev :=
  if c.val < 4 then
    let st := (d.strand (coreStrand c)).wr Reg.CORE_LAST_TRAP (BitVec.ofNat 32 cause)
    (d.setStrand (coreStrand c) (st.wr Reg.CORE_LAST_TPC (BitVec.ofNat 32 tpc))).coreCount c (trapCounter cause)
  else d

/-- A double trap: the core stops until a reset.  (DEDUCED, unsafe: log entry 88.) -/
def Dev.doubleTrap (d : Dev) (c : Fin 5) (cause tpc : Nat) : Dev :=
  let d := d.setCore c { d.coreOf c with state := .doubleTrap }
  if c.val < 4 then d.onStrand (coreStrand c) fun s => (s.flag Reg.CORE_FLAGS 0).report 0x0F01 .transient [cause, tpc]
  else d.log 0x0F01 .transient 0 [cause, tpc]

/-- A core takes a trap.  (DEDUCED, unsafe: log entry 88.) -/
def Dev.coreTrap (d : Dev) (c : Fin 5) (cause tpc tval : Nat) : Dev :=
  let d := d.noteTrap c cause tpc
  if (d.coreOf c).tm then d.doubleTrap c cause tpc
  else d.setCore c ((d.coreOf c).enter cause tpc tval)

/-! ## Memory accesses (R371, R372) -/

/-- Whether an address lies in a strand core's address space (R371); the Loupe's unlisted addresses read as 0 (R430).  (DESIGN CHOICE, unsafe: log entry 90.) -/
def coreInRange (c : Fin 5) (a : Nat) : Bool :=
  c.val = 4 || decide (a < 0x600000) || (decide (0xF0000000 ≤ a) && decide (a < 0xF0100000))

/-- Whether an address is a register's, for the rule that a load from it waits for the write buffer (R372). -/
def coreRegister (c : Fin 5) (a : Nat) : Bool :=
  if c.val < 4 then decide (0xF0000000 ≤ a)
  else !(decide (a < 0x20000) || (decide (0x10000000 ≤ a) && decide (a < 0x10200000)) || (decide (0x50000000 ≤ a) && decide (a < 0x50010000)))

/-- A core's read past its write buffer: whether an uncorrectable error traps it, the bytes, and the device. -/
def Dev.coreFetch (d : Dev) (c : Fin 5) (a n : Nat) : Bool × List Byte × Dev :=
  if c.val = 4 then (false, d.loupeReadN a n)
  else if coreRegister c a then
    let r := d.coreRead (coreStrand c) ((a - 0xF0000000) / 4 * 4)
    (false, leBytes n (r.1.toNat / 2 ^ (8 * (a % 4))), r.2)
  else
    let r := d.onStrandR (coreStrand c) fun st =>
      let x := st.bankRead reqCore a n
      ((x.ue, x.bytes), x.st)
    (r.1.1, r.1.2, r.2)

/-- A store leaves the write buffer for memory or register space; one of fewer than 32 bits to a register is discarded (R10). -/
def Dev.coreStoreOut (d : Dev) (c : Fin 5) (e : WbEnt) : Dev :=
  if c.val = 4 then d.loupeWriteN e.addr (leBytes e.size e.val)
  else if coreRegister c e.addr then
    (if e.size = 4 then d.coreWrite (coreStrand c) (e.addr - 0xF0000000) (BitVec.ofNat 32 e.val) else d)
  else d.onStrand (coreStrand c) fun st => (st.bankWrite reqCore e.addr (leBytes e.size e.val)).st

/-- WB_DRAIN: the oldest buffered store drains.  (DEDUCED, unsafe: log entry 84.) -/
def Dev.drain (d : Dev) (c : Fin 5) : Dev :=
  match (d.coreOf c).wbuf with
  | [] => d
  | e :: es => (d.setCore c { d.coreOf c with wbuf := es }).coreStoreOut c e

/-- Stores drain while the core stalls, as long as `p` asks for it and the core runs; each counts as a stall (R386).  (DEDUCED, unsafe: log entry 84.) -/
def Dev.drainWhile (d : Dev) (c : Fin 5) (p : List WbEnt → Bool) : Nat → Dev
  | 0 => d
  | n + 1 => if p (d.coreOf c).wbuf && d.coreLive c then ((d.coreCount c 1).drain c).drainWhile c p n else d

/-- Whether a buffered store shares bytes with an access. -/
def WbEnt.meets (e : WbEnt) (a n : Nat) : Bool := decide (e.addr < a + n) && decide (a < e.addr + e.size)

/-- The bytes of an access wholly held by the newest store that meets it. -/
def wbForward (buf : List WbEnt) (a n : Nat) : Option (List Byte) :=
  match buf.reverse.find? fun e => e.meets a n with
  | none => none
  | some e => if e.addr ≤ a && a + n ≤ e.addr + e.size then some (leBytes n (e.val / 2 ^ (8 * (a - e.addr)))) else none

/-- A load of `n` bytes (R372). -/
def Dev.coreLoad (d : Dev) (c : Fin 5) (a n : Nat) : Bool × List Byte × Dev :=
  if coreRegister c a then (d.drainWhile c (fun b => !b.isEmpty) 8).coreFetch c a n
  else match wbForward (d.coreOf c).wbuf a n with
    | some bs => (false, bs, d)
    | none => (d.drainWhile c (fun b => b.any fun e => e.meets a n) 8).coreFetch c a n

/-- The number a load's bytes give, by major: word, halfword, byte; 0x12 and 0x14 sign-extended (R365). -/
def loadValue (maj : Nat) (bs : List Byte) : Word :=
  let v := leNum bs
  match maj with
  | 0x12 => BitVec.ofInt 32 (signedN 16 v)
  | 0x14 => BitVec.ofInt 32 (signedN 8 v)
  | _ => BitVec.ofNat 32 v

/-- Bytes of a load or store by major. -/
def accessSize (maj : Nat) : Nat :=
  match maj with
  | 0x10 => 4
  | 0x11 => 2
  | 0x12 => 2
  | 0x15 => 4
  | 0x16 => 2
  | _ => 1

/-- What stops an access before any effect: the ALIGN or the BUS trap (R371).  (DEDUCED, unsafe: log entry 86.) -/
def accessTrap (c : Fin 5) (a n : Nat) : Option Nat := if a % n != 0 then some 2 else if coreInRange c a then none else some 3

/-- A load instruction (R371). -/
def Dev.loadOp (d : Dev) (c : Fin 5) (maj wd wa : Nat) (m : AMode) : DRes × Dev :=
  let k := d.coreOf c
  let n := accessSize maj
  let x := k.address wa n m
  match accessTrap c x.1 n with
  | some t => (.trap k t x.1, d)
  | none =>
    let r := d.coreLoad c x.1 n
    let k := r.2.2.coreOf c
    if r.1 then (.trap k 3 x.1, r.2.2)
    else
      let k1 := match x.2 with
        | some b => if wa = wd then k else k.setReg wa b
        | none => k
      (k.result k1 wd (loadValue maj r.2.1), r.2.2)

/-- A store instruction (R371, R372). -/
def Dev.storeOp (d : Dev) (c : Fin 5) (maj wd wa : Nat) (m : AMode) : DRes × Dev :=
  let k := d.coreOf c
  let n := accessSize maj
  let x := k.address wa n m
  match accessTrap c x.1 n with
  | some t => (.trap k t x.1, d)
  | none =>
    let e : WbEnt := { addr := x.1, size := n, val := (k.reg wd).toNat % 2 ^ (8 * n) }
    let d := d.drainWhile c (fun b => decide (8 ≤ b.length)) 8
    let k := d.coreOf c
    let k1 := match x.2 with
      | some b => k.setReg wa b
      | none => k
    (.done { k1 with wbuf := k.wbuf ++ [e] }, d)

/-! ## One instruction -/

/-- CORE_ID's number: the strand, or 4 for the Loupe pair (R363).  (DEDUCED, unsafe: log entry 89.) -/
def coreId (c : Fin 5) : Nat := c.val

/-- The lines that may interrupt or wake a core (R378): a strand's pending and enabled lines; for the Loupe pair its Locket
doorbell (R416).  (DEDUCED, unsafe: log entry 91.) -/
def Dev.coreWaits (d : Dev) (c : Fin 5) : Bool :=
  if c.val < 4 then
    let i := coreStrand c
    ((d.strand i).peek 0 (d.bell (4 + i.val)) Reg.CORE_IRQ_PEND &&& (d.strand i).rd Reg.CORE_IRQ_EN) != 0
  else d.bell 0

/-- An operation's result on the core's registers, and the device after its memory accesses. -/
def Dev.coreOp (d : Dev) (c : Fin 5) (o : DOp) : DRes × Dev :=
  match o with
  | .load maj wd wa m => d.loadOp c maj wd wa m
  | .store maj wd wa m => d.storeOp c maj wd wa m
  | o => ((d.coreOf c).exec (coreId c) o, d)

/-- The core goes on at `pc`, one instruction completed.  (DEDUCED, unsafe: log entry 95.) -/
def Dev.retire (d : Dev) (c : Fin 5) (k : DCore) (pc : Nat) : Dev :=
  (d.setCore c { k with pc := pc % 2 ^ 32 }).coreCount c 0

/-- The interrupt taken between instructions: TPC is the next instruction (R377, R378). -/
def Dev.coreIrq (d : Dev) (c : Fin 5) : Dev :=
  let k := d.coreOf c
  if d.coreLive c && k.ie && !k.tm && d.coreWaits c then d.coreTrap c 7 k.pc 0 else d

/-- A WAIT ends: execution goes past it, with the interrupt taken if IE = 1 (R378).  (DEDUCED, unsafe: log entry 94.) -/
def Dev.waitEnd (d : Dev) (c : Fin 5) : Dev :=
  let k := d.coreOf c
  (d.retire c { k with state := .running } (k.pc + 4)).coreIrq c

/-- WAIT.  (DEDUCED, unsafe: log entry 94.) -/
def Dev.waitOp (d : Dev) (c : Fin 5) : Dev :=
  if d.coreWaits c then d.waitEnd c else d.setCore c { d.coreOf c with state := .waiting }

/-- WAIT_WAKE. -/
def Dev.waitWake (d : Dev) (c : Fin 5) : Dev :=
  if d.coreClocked c && (d.coreOf c).state = .waiting && d.coreWaits c then d.waitEnd c else d

/-- The end of an instruction whose word is `w`; a core that a buffered store has reset meanwhile does no more.  (DEDUCED, unsafe: log entry 95.)
(DEDUCED, unsafe: log entry 97.) -/
def Dev.coreEnd (d : Dev) (c : Fin 5) (w : Nat) (r : DRes) : Dev :=
  if !d.coreLive c then d
  else
    let pc := (d.coreOf c).pc
    match r with
    | .done k => d.retire c k (pc + 4)
    | .jump k t => d.retire c k t.toNat
    | .trap k cause tval =>
      if cause = 5 then ((d.setCore c k).coreCount c 0).coreTrap c 5 (pc + 4) tval else (d.setCore c k).coreTrap c cause pc tval
    | .rsvd => d.coreTrap c 1 pc w

/-- The trap of a fetch (R362, R371): an unaligned address, or one outside a strand's SRAM.  (DEDUCED, unsafe: log entry 93.) -/
def fetchTrap (c : Fin 5) (pc : Nat) : Option Nat :=
  if pc % 4 != 0 then some 2 else if c.val < 4 && 0x600000 ≤ pc then some 3 else none

/-- An operation with its guard, as the core executes it: reserved encodings trap whatever the guard (R366, R368).  (DEDUCED, unsafe: log entry 95.) -/
def Dev.coreOne (d : Dev) (c : Fin 5) (g w : Nat) (o : DOp) : Dev :=
  let k := d.coreOf c
  let rteTrap := match o with
    | .sys 1 _ => !k.tm
    | _ => false
  if o.reserved || rteTrap then d.coreTrap c 1 k.pc w
  else if !k.guard g then d.retire c k (k.pc + 4)
  else match o with
    | .sys 2 _ => d.waitOp c
    | .sys 3 _ =>
      let d1 := d.drainWhile c (fun b => !b.isEmpty) 8
      d1.coreEnd c w (.done (d1.coreOf c))
    | o =>
      let r := d.coreOp c o
      r.2.coreEnd c w r.1

/-- The breakpoint that the fetch at the core's pc matches.  (DEDUCED, safe: log entry 100.) -/
def StrandSt.breakHit (st : StrandSt) : Bool :=
  [Reg.CORE_BRK0, Reg.CORE_BRK1].any fun b => st.bit b 0 && st.fld b 31 2 * 4 == st.core.pc

/-- Whether a core stands at a breakpoint: its fetch halts it (R383). -/
def Dev.atBreak (d : Dev) (c : Fin 5) : Bool := decide (c.val < 4) && (d.strand (coreStrand c)).breakHit

/-- The core halts before the instruction at a breakpoint. -/
def Dev.breakHalt (d : Dev) (i : StrandId) : Dev := d.onStrand i fun s => ({ s with core := s.core.halt } : StrandSt).flag Reg.CORE_FLAGS 4

/-- BREAKPOINT_HIT. -/
def Dev.breakpoint (d : Dev) (i : StrandId) : Dev :=
  let st := d.strand i
  if (d.phase i = .run || d.phase i = .hold) && st.core.state = .running && st.breakHit then d.breakHalt i else d

/-- A core executes something at its pc, unless it does not run, the fetch halts at a breakpoint, or the fetch traps.  (DEDUCED, safe: log entry 100.) -/
def Dev.coreAt (d : Dev) (c : Fin 5) (f : Dev → Dev) : Dev :=
  if !d.coreLive c then d
  else if d.atBreak c then d.breakHalt (coreStrand c)
  else match fetchTrap c (d.coreOf c).pc with
    | some t => d.coreTrap c t (d.coreOf c).pc (d.coreOf c).pc
    | none => f d

/-- One D32 instruction with guard `g`. -/
def Dev.coreRun (d : Dev) (c : Fin 5) (g : Fin 16) (o : DOp) : Dev := d.coreAt c fun e => e.coreOne c g.val (o.encode g.val) o

/-! ## Words: the D16 decode table and reserved encodings (R368, R379) -/

/-- The micro-operations `m` and upward of entry `e`, `n` of them left, for the D16 instruction `iw`; `to_` is where a micro-operation
has jumped.  (DEDUCED, unsafe: log entry 97.)  (DEDUCED, unsafe: log entry 98.) -/
def Dev.dtRun (d : Dev) (c : Fin 5) (iw e m : Nat) (to_ : Option Nat) : Nat → Dev
  | 0 =>
    let k := d.coreOf c
    d.retire c { k with w := (k.w.set 0 16 0).set 0 17 0 } (to_.getD (k.pc + 4))
  | n + 1 =>
    let st := d.strand (coreStrand c)
    let w := (st.rd (dtUop e m)).toNat
    let lost := fun (x : Dev) => x.setCore c { x.coreOf c with w := ((x.coreOf c).w.set 0 16 0).set 0 17 0 }
    let pc := (d.coreOf c).pc
    match (DOp.read w).map fun o => o.subst (st.rd (dtUctl e m)).toNat iw with
    | none => (lost d).coreTrap c 1 pc iw
    | some o =>
      if o.reserved then (lost d).coreTrap c 1 pc iw
      else if !(d.coreOf c).guard (w / 2 ^ 28) then d.dtRun c iw e (m + 1) to_ n
      else
        let r := d.coreOp c o
        if !r.2.coreLive c then r.2
        else match r.1 with
          | .done k => (r.2.setCore c k).dtRun c iw e (m + 1) to_ n
          | .jump k t => (r.2.setCore c k).dtRun c iw e (m + 1) (some t.toNat) n
          | .trap k cause tval => (lost (r.2.setCore c k)).coreTrap c cause pc tval
          | .rsvd => (lost r.2).coreTrap c 1 pc iw

/-- The entry of the decode table that maps an instruction word; the Loupe pair has no table (R379, R428). -/
def Dev.dtFind (d : Dev) (c : Fin 5) (iw : Nat) : Option Nat :=
  if c.val < 4 then (d.strand (coreStrand c)).dtEntry (bitsN iw 27 22) else none

/-- A mapped D16 instruction: its guard, then its sequence with U0 and U1 cleared.  (DEDUCED, unsafe: log entry 99.) -/
def Dev.dtOne (d : Dev) (c : Fin 5) (iw e : Nat) : Dev :=
  let k := d.coreOf c
  if !k.guard (iw / 2 ^ 28) then d.retire c k (k.pc + 4)
  else
    let d := (d.setCore c { k with w := (k.w.set 0 16 0).set 0 17 0 }).coreCount c 5
    d.dtRun c iw e 0 none ((d.strand (coreStrand c)).fld (dtHdr e) 2 0 + 1)

/-- D16_SEQUENCE: no effect where no entry maps the word. -/
def Dev.d16 (d : Dev) (c : Fin 5) (iw : Nat) : Dev :=
  d.coreAt c fun d => match d.dtFind c iw with
    | some e => d.dtOne c iw e
    | none => d

/-- Whether a word traps to RSVD where the core stands (R368). -/
def Dev.rsvdWord (d : Dev) (c : Fin 5) (w : Nat) : Bool :=
  (d.dtFind c w).isNone &&
  match DOp.decode w with
  | none => true
  | some (.sys 1 _) => !(d.coreOf c).tm
  | some _ => false

/-- RESERVED_ENCODING: no effect where the word is no reserved encoding.  (DEDUCED, unsafe: log entry 97.) -/
def Dev.reservedEncoding (d : Dev) (c : Fin 5) (w : Nat) : Dev :=
  d.coreAt c fun d => if d.rsvdWord c w then d.coreTrap c 1 (d.coreOf c).pc w else d

/-- The instruction word `w` executed, whatever it is, by a core that runs. -/
def Dev.coreWord (d : Dev) (c : Fin 5) (w : Nat) : Dev :=
  if !d.coreLive c then d
  else match d.dtFind c w with
    | some e => d.dtOne c w e
    | none =>
      match DOp.read w with
      | none => d.coreTrap c 1 (d.coreOf c).pc w
      | some o => d.coreOne c (w / 2 ^ 28) w o

/-- One instruction fetched from memory and executed; the fetch does not see buffered stores (R372), and an uncorrectable error
is the BUS trap (R398). -/
def Dev.coreFetchOne (d : Dev) (c : Fin 5) : Dev :=
  let pc := (d.coreOf c).pc
  match fetchTrap c pc with
  | some t => d.coreTrap c t pc pc
  | none =>
    let r := d.coreFetch c pc 4
    if r.1 then r.2.2.coreTrap c 3 pc pc else r.2.2.coreWord c (leNum r.2.1)

/-! ## Pending results (R374) -/

/-- MUL_RESULT and DIV_RESULT, in the cycle at whose end the result lands. -/
def Dev.mulResult (d : Dev) (c : Fin 5) : Dev :=
  match (d.coreOf c).mul with
  | some (1, _) => if d.coreClocked c then d.setCore c (d.coreOf c).landMul else d
  | _ => d
def Dev.divResult (d : Dev) (c : Fin 5) : Dev :=
  match (d.coreOf c).div with
  | some (1, _) => if d.coreClocked c then d.setCore c (d.coreOf c).landDiv else d
  | _ => d

/-- WB_DRAIN as an event of its own. -/
def Dev.wbDrain (d : Dev) (c : Fin 5) : Dev := if d.coreClocked c then d.drain c else d

/-! ## Debug (R383, R384) -/

/-- CORE_STEP: the Loupe's STEP executes one instruction, at a breakpoint too, then halts (R384). -/
def Dev.coreStep (d : Dev) (i : StrandId) : Dev :=
  let c : Fin 5 := ⟨i.val, by omega⟩
  let k := d.coreOf c
  if !d.loupeRuns || !d.loupeReach i 0xA000C || (d.supOf i).fenceIn || !d.coreClocked c then d
  else if k.state = .running || k.state = .halted then
    let d := (d.setCore c { k with state := .running }).coreFetchOne c
    d.setCore c (d.coreOf c).halt
  else d

/-! ## Rails of the Bead banks (R59, R494) -/

/-- The window a bank's rail lies in: 0 none, 1 that of 1.8 V, 2 that of 3.3 V (R494). -/
def vioWindow (mv : Nat) : Nat :=
  if 1620 ≤ mv && mv ≤ 1980 then 1 else if 2970 ≤ mv && mv ≤ 3630 then 2 else 0

/-- BANK_VIO_CHECK of bank `k`; a mismatch is logged once per load (R59).  (DESIGN CHOICE, unsafe: log entry 24.) -/
def Dev.vioCheck (d : Dev) (i : StrandId) (k : Fin 2) (mv : Nat) : Dev :=
  let st := d.strand i
  (d.setStrand i { st with bp := { st.bp with vio := st.bp.vio.set 0 k.val (vioWindow mv) } }).onActive i fun s => s.vioWatch k.val

end Sys2Proof.Machine
end

