-- ==== Sys2Proof/Machine/Clock.lean ====
section
/-! DEFINITION. Time passing: what a span of strand cycles changes by itself, the words of a Bead program (R86, R90), and the tick
of one cycle (R51, R57, R67, R105, R158, R170, R221, R363, R382). -/

namespace Sys2Proof.Machine

/-! ## Shaped queues (R158) -/

/-- The credit of queue `q` of port `e` after `n` cycles without an event, in 10^-6 bit: it falls while the queue transmits, and after that rises
while it holds a frame.  (DEDUCED, unsafe: log entry 39.) -/
def StrandSt.creditPass (st : StrandSt) (e : Fin 4) (q n : Nat) : Int :=
  let c := st.sw.credit.get 0 (qKey e q)
  let speed := 1000 * speedMbps (st.speedAct e)
  let idle := min (st.fld (Reg.SW_CBS e q) 21 0) speed
  let lo : Int := -(8000000 * st.fld (Reg.SW_CBSLIM e q) 15 0 : Nat)
  let hi : Int := (8000000 * st.fld (Reg.SW_CBSLIM e q) 31 16 : Nat)
  let busy := match (st.port e).tx with
    | some t => if t.queue = q then n else 0
    | none => if (st.port e).lastQ = q then min n ((st.chan e).lastEnd - st.now) else 0
  if !st.gateOpen e q then c
  else
    let c1 := if busy = 0 then c else max lo (c - ((busy * (speed - idle) : Nat) : Int))
    if busy = n then c1
    else if (st.queue e q).isEmpty then min 0 c1
    else max lo (min hi (c1 + (((n - busy) * idle : Nat) : Int)))

/-- Whether queue `q` of port `e` is shaped and its credit runs. -/
def StrandSt.shaped (st : StrandSt) (e : Fin 4) (q : Nat) : Bool := st.bit (Reg.SW_CBS e q) 31 && st.linkUp e

/-- The credits of the shaped queues after `n` cycles without an event. -/
def StrandSt.credits (st : StrandSt) (n : Nat) : Tab Int :=
  ([0, 1, 2, 3] : List (Fin 4)).foldl (fun (t : Tab Int) e =>
    (List.range 8).foldl (fun (t : Tab Int) q => if st.shaped e q then t.set 0 (qKey e q) (st.creditPass e q n) else t) t) st.sw.credit

/-- The cycles at whose end a list gate of port `e` may change while a queue of it is shaped. -/
def StrandSt.gateTimes (st : StrandSt) (e : Fin 4) : List Nat :=
  if !st.bit (Reg.GCL_CTL e) 31 || st.env.hold || !(List.range 8).any (st.shaped e) then []
  else
    let t := st.tNs
    let g := st.gclSt e
    let cyc := st.gclCycle e
    let start := if t < g.base || cyc = 0 then g.base else t - (t - g.base) % cyc
    match ((start :: (gclBounds cyc (st.gclEntries e) 0).map (start + ·)).filter fun b => decide (t < b)).head? with
    | some b => [st.now + (ceilDiv (b * nsUnit - st.t32) st.cycle32.toNat - 1)]
    | none => []

/-- CBS_CREDIT_REACHES_ZERO: where the credit is at least 0, the queue's frame becomes eligible and the port selects anew, as by EGRESS_SELECT (R157, R158). -/
def StrandSt.cbsZero (st : StrandSt) (e : Fin 4) (q : Nat) : StrandSt :=
  if !st.bit (Reg.SW_CBS e q) 31 || (st.queue e q).isEmpty || st.sw.credit.get 0 (qKey e q) < 0 || !st.linkUp e then st
  else st.egressE e .clean

/-! ## A span of cycles -/

/-- Pin changes of earlier engine clocks take effect (R57). -/
def BpPins.settlePins (b : BpPins) : BpPins :=
  { b with next := [], drv := b.next.foldl (fun t c => t.set none c.1 (some c.2)) b.drv }

/-- The same for Bangle's pin actions (R201, R202). -/
def Bangle.settlePins (b : Bangle) : Bangle :=
  { b with pinNext := [], pinDrv := b.pinNext.foldl (fun (t : Tab (Option Bool)) c => t.set none c.1 (some c.2)) b.pinDrv }

/-- The pads as the input synchronizer samples them. -/
def StrandSt.padWord (st : StrandSt) : BitVec 24 := BitVec.ofNat 24 ((List.range 24).map fun p => if st.padLevel 0 p then 2 ^ p else 0).sum

/-- Pins and synchronizer after `n` cycles: an engine clock reads the pads of two cycles before it (R57). -/
def StrandSt.pinPass (st : StrandSt) (n : Nat) : StrandSt :=
  let was := st.padWord
  let st' : StrandSt := { st with now := st.now + n, bp := st.bp.settlePins, bng := st.bng.settlePins }
  let padAt := fun (c : Nat) => if c = st.now then was else ({ st' with now := c } : StrandSt).padWord
  { st' with bp := { st'.bp with sync1 := padAt (st.now + n - 1), sync2 := if n = 1 then st.bp.sync1 else padAt (st.now + n - 2) } }

/-- The counter and the cluster offset after `n` cycles (R170, R221). -/
def StrandSt.timePass (st : StrandSt) (n : Nat) : StrandSt :=
  if !st.timeRunning then st
  else
    let t := ((st.t32 : Int) + n * st.cycle32).toNat % (2 ^ 48 * secUnit)
    let was := ((st.t32 : Int) + (n - 1) * st.cycle32).toNat
    let st := { st with time := { st.time with sec := t / secUnit, sub := t % secUnit, prev := was } }
    if st.flg.ctRate = 0 then st else st.setCt (st.flg.ctOfs + n * st.flg.ctRate) st.flg.ctRate

/-- The core's pending results, cycle counter and watchdog after `n` cycles (R363, R374, R382). -/
def DCore.pass (k : DCore) (n : Nat) : DCore :=
  if k.state = .reset then k
  else { k.results n with cyc := (k.cyc + n) % 2 ^ 64, wdog := if k.state = .halted then k.wdog else k.wdog.map fun t => t - n }

/-- The internal sources that wait, each counted `n` times in BP_CYCLES of its port (R154). -/
def StrandSt.waitPass (st : StrandSt) (n : Nat) : StrandSt :=
  [4, 5, 6, 7, 8, 9].foldl (fun (s : StrandSt) src =>
    if s.sourceWaits src then s.addCnt (Reg.SW_UCNT + 8 * (4 + src)) n else s) st

/-- The strand as it counts in a cycle that lies `n` cycles back. -/
def StrandSt.inPast (st : StrandSt) (n : Nat) (f : StrandSt → StrandSt) : StrandSt :=
  let x := f { st with env := { st.env with ns := st.env.ns - n } }
  { x with env := st.env }

/-- `n` cycles in which no port, channel or time base does anything by itself but count; no engine executes in them.  `left` cycles of the
span remain after them. -/
def StrandSt.advance (st : StrandSt) (n left : Nat) : StrandSt :=
  if n = 0 then st
  else
    let st := { st with sw := { st.sw with credit := st.credits n } }
    let st := st.inPast (n + left) fun s => s.waitPass n
    let st := ({ st.pinPass n with core := st.core.pass n } : StrandSt).timePass n
    st.inPast left fun s => (List.range 16).foldl (fun (s : StrandSt) k => s.enginePass k n) s

/-- The next cycle, from the present one on, that brings something by itself on a port or in the time base. -/
def StrandSt.nextTime (st : StrandSt) : Option Nat :=
  (([0, 1, 2, 3] : List (Fin 4)).flatMap (fun p => st.portTimes p ++ st.gateTimes p) ++ st.timeTimes ++ st.bankTimes ++ (if st.map.trig || st.dma.abort.isSome then [st.now] else [])).foldl
    (fun (m : Option Nat) t => some (match m with | some a => min a t | none => t)) none

/-- What the present cycle brings by itself, after its commands. -/
def StrandSt.cycleEnd (st : StrandSt) : StrandSt := st.portStep.timeEnd.mapEnd.abortEnd.bankEnd

/-- The strand until cycle `target`: from one cycle that brings something to the next.  The first number bounds the steps. -/
def StrandSt.until (st : StrandSt) : Nat → Nat → StrandSt
  | 0, target => st.advance (target - st.now) 0
  | fuel + 1, target =>
    match st.nextTime with
    | none => st.advance (target - st.now) 0
    | some t =>
      if target ≤ max t st.now then st.advance (target - st.now) 0
      else
        let n := t - st.now
        let left := target - st.now - n
        let st := st.advance n left
        ((st.inPast left StrandSt.cycleEnd).advance 1 (left - 1)).until fuel target

/-- A strand with its clock running after `n` cycles; no engine executes in them. -/
def StrandSt.pass (st : StrandSt) (n : Nat) : StrandSt := if n = 0 then st else st.until n (st.now + n)

/-- The time of the device and of the Loupe pair's core after `n` ns, and H_OP (R5, R25, R433).  (DEDUCED, unsafe: log entry 137.) -/
def Dev.timeBy (d : Dev) (n : Nat) : Dev :=
  let k := ({ d with ns := d.ns + n } : Dev).loupeCycles - d.loupeCycles
  let run := d.loupe.counting && allStrands.any fun i => d.phase i = .run
  { d with ns := d.ns + n, loupe := { d.loupe with core := if d.loupeRuns then d.loupe.core.pass k else d.loupe.core,
                                                   hopNs := if run then d.loupe.hopNs + n else d.loupe.hopNs } }

/-- `n` ns pass for the device: the strands in RUN and HOLD count them as cycles, and the Loupe pair its own (R5, R25).  (DESIGN CHOICE, unsafe:
log entry 3.)  (DESIGN CHOICE, unsafe: log entry 9.) -/
def Dev.span (d : Dev) (n : Nat) : Dev :=
  allStrands.foldl (fun (e : Dev) i => e.onActive i fun s => s.pass n) (d.timeBy n)

/-- The same for a gap before a command, whose last cycle is passed by itself: what falls due in the command's cycle falls in it. -/
def Dev.pass (d : Dev) (n : Nat) : Dev :=
  if n = 0 then d else if n = 1 then d.span 1 else (d.span (n - 1)).span 1

/-! ## Engines that run their program -/

/-- What an instruction word does when it executes (R86, R90). -/
def beadBody (n w : Nat) : StrandSt → BeadRes :=
  match bitsN w 23 20 with
  | 0x1 => beadShout n (bitsN w 5 0)
  | 0x2 => beadShin n (bitsN w 5 0)
  | 0x3 => beadPull n (bitsN w 1 0)
  | 0x4 => beadPush n (bitsN w 1 0)
  | 0x5 => beadSet n (bitsN w 12 10) (bitsN w 9 0)
  | 0x6 => beadMov n (bitsN w 12 9) (bitsN w 8 5) (bitsN w 4 3) false
  | 0x7 => beadJmp n (bitsN w 12 8) (bitsN w 5 0)
  | 0x8 => beadWait n (bitN w 12) (bitsN w 11 9) (bitsN w 4 0)
  | 0x9 => beadCmp n (bitsN w 12 11) (bitsN w 10 0) false
  | 0xA => beadCrc n (bitN w 12) (bitsN w 11 10) (bitsN w 9 8)
  | 0xB => beadStamp n (bitsN w 9 8) (bitN w 7) (bitN w 6) (bitsN w 5 4)
  | 0xC => beadEdit n (bitN w 12) (bitsN w 11 10) (bitsN w 9 0)
  | 0xD => beadIrq n
  | 0xE => beadCnt n (bitN w 12) (bitsN w 5 0)
  | 0xF => beadSync n (bitsN w 1 0)
  | _ => fun s => beadNop s

/-- The engine clock of an engine that runs its own program: the word at PC executes, or its fetch fails again (R74, R79, R87).  (DESIGN
CHOICE, unsafe: log entry 1.) -/
def StrandSt.engineClock (st : StrandSt) (n : Nat) : StrandSt :=
  let e := st.eng n
  if !e.due then st
  else if e.bad.get false e.pc then st.fetchFail n
  else
    let w := (e.imem.get 0 e.pc).toNat
    st.beadClock n (bitN w 19) (bitsN w 18 17) (bitsN w 16 13) (beadBody n w)

/-- One cycle of a strand that no command interrupts.  (DESIGN CHOICE, unsafe: log entry 1.) -/
def StrandSt.tick (st : StrandSt) : StrandSt := (List.range 16).foldl (fun s n => s.engineClock n) (st.pass 1)

/-- One cycle of the device on an empty queue: engines run their programs, and a buffered store drains (R51, R372).  (DESIGN CHOICE, unsafe: log entry 1.) -/
def Dev.tick (d : Dev) : Dev :=
  let d := allStrands.foldl (fun (e : Dev) i => e.onActive i StrandSt.tick) (d.timeBy 1)
  (List.range 5).foldl (fun (e : Dev) c => e.wbDrain (Fin.ofNat 5 c)) d

/-! ## What a Bead instruction's command brings -/

/-- The device at the engine clock of an instruction: the board's levels have changed, `gap` cycles have passed, and after them those that
are left to the engine's next clock (R51, R57, R71).  (DESIGN CHOICE, unsafe: log entry 3.)  (DESIGN CHOICE, unsafe: log entry 23.) -/
def Dev.beforeBead (d : Dev) (a : BeadAt) : Dev :=
  let st := d.strand a.st
  let ext := a.board.foldl (fun (t : Tab PadIn) c => t.set .floating c.1.val c.2) st.bp.ext
  let d := (d.setStrand a.st { st with bp := { st.bp with ext := ext } }).pass a.gap
  d.pass ((d.strand a.st).nextExec a.n.val)

/-- The instruction executes at its engine clock, or a cycle later where its fetch had to be repeated; or its fetch fails for good (R71,
R79, R87). -/
def Dev.beadRun (d : Dev) (a : BeadAt) (body : Nat → StrandSt → BeadRes) : Dev :=
  let n := a.n.val
  let run := fun (s : StrandSt) => s.beadClock n a.sse a.ss.val a.dly.val (body n)
  let d := d.beforeBead a
  let e := (d.strand a.st).eng n
  if e.state = .stopped then d
  else if a.par.val = 2 || e.bad.get false e.pc then d.onActive a.st fun s => s.fetchFail n
  else if a.par.val = 1 then ((d.onActive a.st fun s => s.fetchRetry n).pass 1).onActive a.st run
  else d.onActive a.st run

end Sys2Proof.Machine
end

