-- ==== Sys2Proof/Machine/State.lean ====
section
/-! DEFINITION. The state of the model: the device, and the queue of the commands that wait for it. -/

namespace Sys2Proof.Machine

/-- No command of this device stops the model: every one has an effect, be it none.  (DESIGN CHOICE, safe: log entry 168.) -/
inductive Fault where
deriving DecidableEq, Repr

/-- What the model turns away.  (DESIGN CHOICE, safe: log entry 168.) -/
inductive Refusal where
  /-- A command whose meaning has not been written; no arm answers it now. Safe. -/
  | notModelled (mnemonic : String)
deriving DecidableEq, Repr

/-- The commands waiting, first in, first out, and the device.  (DESIGN CHOICE, safe: log entry 6.) -/
structure State where
  pending : List Instr := []
  dev : Dev := {}
deriving DecidableEq, Repr

/-- The device right after power-on reset begins: in POR, mode MD0, every strand OFF (R25, R26, R38, R42).  (DESIGN CHOICE, unsafe: log entry 5.) -/
def State.reset : State := {}

end Sys2Proof.Machine
end

