-- ==== Sys2Proof/Machine/NguOps.lean ====
section
/-! DEFINITION. Ngufotu messages (R441 to R450): the common way of a request, its answer, and what each operation returns. -/

namespace Sys2Proof.Machine

/-! ## The answer (R444, R450) -/

/-- The 32 B header of a response. -/
def ngHeader (txn op status len : Nat) : List Byte :=
  [1, 1, 0, BitVec.ofNat 8 status] ++ beBytes 4 txn ++ beBytes 8 Config.serial.toNat ++ beBytes 2 op ++ beBytes 2 len ++ List.replicate 12 0

/-- The path of a host's request buffer, as the link it belongs to. -/
def hostPath (path : Nat) : Option Bool :=
  match path with
  | 0 => some false
  | 1 => some true
  | _ => none

/-- The strand of a strand path (R448). -/
def strandPath (path : Nat) : Option StrandId := if 16 ≤ path && path < 20 then some (Fin.ofNat 4 path) else none

/-- A message answered: on a host path the response overwrites the request buffer, on a strand path it goes to the exchange bank (R442, R450). -/
def Dev.reply (d : Dev) (path txn op status : Nat) (body : List Byte) : Dev :=
  let bytes := ngHeader txn op status body.length ++ body
  let d := match hostPath path, strandPath path with
    | some b, _ =>
      let x := d.link b
      d.setLink b { x with reqBuf := Memory.write x.reqBuf 0 bytes, busy := false, done := true }
    | _, some i => d.exchangeReply i (some bytes)
    | _, _ => d
  d.emit (.answer op status body)

/-- The Loupe reads a message that it serves: on a strand path from the exchange bank (R442). -/
def Dev.heard (d : Dev) (path : Nat) : Dev :=
  match strandPath path with
  | some i => d.exchangeRead i
  | none => d

/-- A message discarded without a response: a host sees REJECT (R442, R450). -/
def Dev.discardMsg (d : Dev) (path : Nat) : Dev :=
  match hostPath path, strandPath path with
  | some b, _ => d.setLink b { d.link b with busy := false, reject := true }
  | _, some i => d.exchangeReply i none
  | _, _ => d

/-- The response answered and kept: the last 16 (R447).  (DEDUCED, safe: log entry 154.) -/
def Dev.respond (d : Dev) (h : NguHdr) (op status : Nat) (body : List Byte) : Dev :=
  let k : KeptResp := { path := h.path, txn := h.txn, at_ := d.ns, op := op, status := status, body := body }
  let kept := d.loupe.kept ++ [k]
  let d := { d with loupe := { d.loupe with kept := kept.drop (kept.length - 16) } }
  d.reply h.path h.txn op status body

/-- The kept response of a path and TXN, for 10 s (R447). -/
def Dev.keptResp (d : Dev) (h : NguHdr) : Option KeptResp :=
  d.loupe.kept.find? fun k => k.path == h.path && k.txn == h.txn && decide (d.ns < k.at_ + 10 ^ 10)

/-! ## The way of a request (R441, R445 to R448) -/

/-- Whether a message can arrive on a path now; on a strand path it waits in the exchange bank (R429, R441 to R443, R450).  (DEDUCED, safe: log entry 157.) -/
def Dev.nguPath (d : Dev) (path : Nat) : Bool :=
  if d.por || d.mode = 0 then false
  else match hostPath path with
    | some b => d.linkOpen b && d.mailboxOn && (d.link b).busy
    | none =>
      if path = 2 then d.lbit Reg.LP_CFG 20
      else if 16 ≤ path && path < 20 then
        let i : StrandId := Fin.ofNat 4 path
        (d.phase i = .run || d.phase i = .hold) && !(d.supOf i).fenceIn && !d.loupe.safe && d.mode != 1 && d.exchangeWaits i
      else false

/-- Whether the Loupe has served 500 messages in the present second, and the count of one more (R447). -/
def Dev.rateFull (d : Dev) : Bool := d.loupe.msgSec == d.ns / 10 ^ 9 && decide (500 ≤ d.loupe.msgCount)
/-- (DEDUCED, unsafe: log entry 149.) -/
def Dev.countMsg (d : Dev) : Dev :=
  let sec := d.ns / 10 ^ 9
  let n := if d.loupe.msgSec = sec then d.loupe.msgCount + 1 else 1
  ({ d with loupe := { d.loupe with msgSec := sec, msgCount := n } } : Dev).linc 0

/-- Whether the present mode serves an operation (R429, R448). -/
def Dev.nguServed (d : Dev) (op : Nat) : Bool :=
  if d.loupe.safe || d.mode = 1 then op = 1 || op = 2 || op = 5 || op = 0x10B
  else if d.mode = 10 then decide (op < 0x100) || op = 0x107
  else true

/-- Whether the key a request names may sign commands and its signature verifies (R445, R478). -/
def Dev.nguKeyOk (d : Dev) (h : NguHdr) (op : Nat) : Bool :=
  h.good && (h.key = 0xFF ||
    (op < 0x300 && d.mode != 10 && d.hm.valid && decide (h.key < 8) && bitN (d.hm.slots.get 0 h.key) 1))

/-- A failed verification (R445). -/
def Dev.authFail (d : Dev) : Dev := ((d.linc 2).lflag Reg.LP_FLAGS 2).logOnce 0x1207 .transient 0 0 []

/-- Whether the nonce of a request is the current one and has not expired (R445). -/
def Dev.nonceOk (d : Dev) (n : Nat) : Bool :=
  match d.loupe.nonce with
  | some c => c == n && decide (d.ns < d.loupe.nonceAt + 60 * 10 ^ 9)
  | none => false

/-- Whether the length written to REQ_LEN holds the header and, in a signed message, the key and the signature, beside a body of at most 1,216 B
(R444, R452). -/
def Dev.lengthOk (d : Dev) (h : NguHdr) : Bool :=
  match hostPath h.path with
  | none => true
  | some b =>
    let n := (d.link b).reqLen
    let rest := if h.signed then 225 else 32
    decide (rest ≤ n) && decide (n ≤ rest + 1216)

/-- The verdict on a request before its operation: its STATUS, and the device after its verification (R445, R446, R448, R452).  (DESIGN CHOICE, unsafe: log
entry 147.)  (DEDUCED, unsafe: log entry 148.) -/
def Dev.nguGate (d : Dev) (h : NguHdr) (op : Nat) (query : Bool) : Nat × Dev :=
  if !d.lengthOk h then (1, d)
  else if !d.nguServed op then (3, d)
  else if !h.signed then
    if (hostPath h.path).isNone && !query || 0x300 ≤ op then (9, d) else (0, d)
  else if !d.nguKeyOk h op then (4, d.authFail)
  else if !d.nonceOk h.nonce then (5, d)
  else (0, if query then d else { d with loupe := { d.loupe with nonce := none } })

/-- The record of an executed command (R448).  (DEDUCED, unsafe: log entry 150.) -/
def Dev.logCommand (d : Dev) (h : NguHdr) (op : Nat) : Dev :=
  (d.linc 3).log 0x120B .transient 0 [op, h.path, if h.signed then h.key else 0xFFFFFFFF]

/-- What an operation does with a verified request: its STATUS, its body, and the device after it. -/
structure NguOp where
  status : Dev → Nat
  body : Dev → List Byte
  act : Dev → Dev

/-- A request served: discarded at the rate limit, answered again from the kept responses, refused, or carried out.  The answer goes
out before the action's further effects.  (DEDUCED, safe: log entry 81.)  (DEDUCED, unsafe: log entry 149.) -/
def Dev.ngu (d : Dev) (h : NguHdr) (op : Nat) (query : Bool) (x : NguOp) : Dev :=
  if !d.nguPath h.path then d
  else if d.rateFull then (d.linc 1).discardMsg h.path
  else
    let d := (d.heard h.path).countMsg
    match d.keptResp h with
    | some k => d.reply h.path h.txn k.op k.status k.body
    | none =>
      let g := d.nguGate h op query
      let d := g.2
      let s := if g.1 = 0 then x.status d else g.1
      if s = 0 then
        let d1 := d.respond h op 0 (x.body d)
        x.act (if query then d1 else d1.logCommand h op)
      else
        let d := if s = 3 && !query then d.log 0x0130 .transient 0 [op] else d
        d.respond h op s []

/-- A command without a body in its answer. -/
def Dev.nguCmd (d : Dev) (h : NguHdr) (op : Nat) (status : Dev → Nat) (act : Dev → Dev) : Dev :=
  d.ngu h op false { status := status, body := fun _ => [], act := act }

/-- MODE_REFUSED where a condition does not hold. -/
def modeIf (ok : Bool) : Nat := if ok then 0 else 3

/-! ## Messages that no operation takes (R443, R444, R447, R448) -/

/-- A message refused with a status, or answered again where its response is kept (R447). -/
def Dev.refuseMsg (d : Dev) (h : NguHdr) (op status : Nat) : Dev :=
  match d.countMsg.keptResp h with
  | some k => d.countMsg.reply h.path h.txn k.op k.status k.body
  | none => (if status = 4 then d.countMsg.authFail else d.countMsg).respond h op status []

/-- NGUFOTU_MESSAGE.  (DEDUCED, unsafe: log entry 155.) -/
def Dev.nguMessage (d : Dev) (path txn : Nat) (k : MsgKind) : Dev :=
  let h : NguHdr := { path := path, txn := txn }
  if k = .badFrame then (if path = 2 && d.nguPath 2 then d.linc 8 else d)
  else if !d.nguPath path then d
  else if d.rateFull then (d.linc 1).discardMsg path
  else
    let d := d.heard path
    match k with
    | .badOp op => d.refuseMsg h op 2
    | .badFormat op => d.refuseMsg h op 1
    | .badSignature op => d.refuseMsg h op 4
    | .response op => if (hostPath path).isSome then d.refuseMsg h op 1 else d.discardMsg path
    | _ => d.discardMsg path

/-- REQ_LEN_WRITE (R450, R452). -/
def Dev.reqLenWrite (d : Dev) (b : Bool) (len : Nat) : Dev :=
  if !d.linkOpen b || !d.mailboxOn then d
  else
    let x := d.link b
    if x.busy || len < 32 || 1441 < len then d.setLink b { x with reject := true }
    else d.setLink b { x with busy := true, done := false, reqLen := len }

/-- SERVICE_PORT_LINK_CHANGE (R443).  (DEDUCED, safe: log entry 145.) -/
def Dev.svcLink (d : Dev) (up : Bool) : Dev :=
  if d.por || d.mode = 0 then d else { d with loupe := { d.loupe with svcLink := up } }

/-! ## Queries (R448) -/

/-- A word as a message carries it. -/
def wordBE (w : Word) : List Byte := beBytes 4 w.toNat

/-- Loupe time as a message carries it: seconds in 6 bytes, nanoseconds in 4. -/
def Dev.timeBE (d : Dev) : List Byte := beBytes 6 (d.loupeNs / 10 ^ 9) ++ beBytes 4 (d.loupeNs % 10 ^ 9)

/-- (DESIGN CHOICE, safe: log entry 18.)  (DEDUCED, unsafe: log entry 153.) -/
def Dev.identityBody (d : Dev) : List Byte :=
  beBytes 8 Config.serial.toNat ++ wordBE (d.claspPeek false Reg.CLASP_ID) ++ [BitVec.ofNat 8 d.hm.lc, BitVec.ofNat 8 (b2n d.hm.valid)] ++
    (List.range 8).map Config.versions

def Dev.statusBody (d : Dev) : List Byte :=
  wordBE (d.claspPeek false Reg.CLASP_MODE) ++ (allStrands.flatMap fun i => wordBE (d.supStatus i) ++ wordBE (d.supOf i).cause) ++
    wordBE (d.lpPeek Reg.LP_STATUS) ++ wordBE (d.lrd Reg.LP_FLAGS) ++ d.timeBE

/-- `n` words read by the Loupe from an address upward, with the reads' side effects. -/
def Dev.readWords (d : Dev) (a : Nat) : Nat → List Word × Dev
  | 0 => ([], d)
  | n + 1 =>
    let r := d.loupeRead a
    let rest := r.2.readWords (a + 4) n
    (r.1 :: rest.1, rest.2)

/-- STATUS of a READ_REG. -/
def readRegStatus (a n : Nat) : Nat :=
  if n = 0 || 64 < n || a % 4 != 0 then 1 else if a < 0x50020000 && 0x50000000 < a + 4 * n then 8 else 0

/-- STATUS and body of a READ_LOG. -/
def Dev.readLogStatus (d : Dev) (first n : Nat) : Nat :=
  if n = 0 || 32 < n then 1 else if (List.range n).all fun k => (d.findLog (first + k)).isSome then 0 else 7
def Dev.readLogBody (d : Dev) (first n : Nat) : List Byte :=
  (List.range n).flatMap fun k => ((d.findLog (first + k)).map LogRec.bytes).getD []

def Dev.sensorBody (d : Dev) : List Byte :=
  ((List.range 12).flatMap fun j => wordBE (d.lrd (Reg.TEMP j))) ++
    ((List.range 4).flatMap fun s => wordBE (d.lrd (Reg.VCORE s)) ++ wordBE (d.lrd (Reg.VSERDES s)))

def Dev.wearBody (d : Dev) : List Byte :=
  beBytes 4 d.hop ++ beBytes 4 d.loupe.pcyc ++ allStrands.flatMap fun i =>
    beBytes 4 (d.loupe.wear.get i).drift ++ beBytes 4 ((d.loupe.wear.get i).eqh / 2 ^ 32) ++ beBytes 4 (d.wearU i) ++ beBytes 4 (d.wearRemain i)

def Pkg.recordBytes (p : Pkg) : List Byte :=
  beBytes 2 p.id ++ beBytes 2 p.ver ++ beBytes 2 p.role ++ beBytes 2 p.engines ++ beBytes 2 p.banks ++ beBytes 2 p.contexts ++ beBytes 2 p.load ++
    beBytes 4 p.dupDiscard ++ beBytes 4 p.ringDrop

/-- A package's entry with the counters of the package as it runs (R256). -/
def Pkg.counted (p : Pkg) : Option Pkg → Pkg
  | some q => { p with dupDiscard := q.dupDiscard, ringDrop := q.ringDrop }
  | none => p

/-- The load record of a strand (R256).  (DEDUCED, unsafe: log entry 153.)  (DEDUCED, safe: log entry 164.) -/
def Dev.loadBody (d : Dev) (i : StrandId) : List Byte :=
  let r := d.loupe.loads.get i
  let ref_ := match r.refusal with
    | some (c, p, x) => beBytes 2 c ++ beBytes 2 p ++ beBytes 2 x
    | none => List.replicate 6 0
  [BitVec.ofNat 8 r.pkgs.length] ++ (r.pkgs.zipIdx.map fun x => x.1.counted ((d.strand i).pkgs[x.2]?)).flatMap Pkg.recordBytes ++ r.sums.flatMap (beBytes 2) ++ ref_

/-- The counters of a unit as its next snapshot shows them: the first 152, which fit a body (R444, R448).  (DEDUCED, safe: log entry 152.)  (DEDUCED,
unsafe: log entry 153.) -/
def Dev.snapBody (d : Dev) (u : SnapUnit) : List Byte :=
  let show_ := fun (t : Tab Nat) (lo hi : Nat) =>
    (List.range (min 152 ((hi - lo) / 8))).flatMap fun k => beBytes 8 (t.get 0 (lo + 8 * k))
  match u with
  | .strand i x => show_ (d.strand i).cnt x.range.1 x.range.2
  | .clasp => show_ d.clasp.cnt 0 (8 * 16)
  | .locket c => show_ (d.chan c.val).cnt 0 (8 * 6)
  | .loupe => show_ d.loupe.cnt 0 (8 * 9)
  | .update => show_ d.upd.cnt 0 (8 * 12)

end Sys2Proof.Machine
end

