-- ==== Sys2Proof/Machine/UpdOps.lean ====
section
/-! DEFINITION. Relay sessions and the update operations (R466 to R479). -/

namespace Sys2Proof.Machine

/-! ## Paths (R466, R469, R481) -/

/-- The four relay paths, as bit places of UPD_PATHS: UP0, UP1, DOWN0, DOWN1. -/
def pathShift (p : Nat) : Nat :=
  match p with
  | 0 => 24
  | 1 => 16
  | 2 => 8
  | _ => 0

/-- Whether UPD_PATHS configures a path, and whether it can carry a message now (R441). -/
def Dev.pathSet (d : Dev) (p : Nat) : Bool := bitOf (d.urd Reg.UPD_PATHS) (pathShift p + 5)
def Dev.pathOpen (d : Dev) (p : Nat) : Bool :=
  let w := d.urd Reg.UPD_PATHS
  let i : StrandId := Fin.ofNat 4 (fieldOf w (pathShift p + 3) (pathShift p + 2))
  d.pathSet p &&
    (if bitOf w (pathShift p + 4) then d.lbit Reg.LP_CFG 20
     else (d.phase i = .run || d.phase i = .hold) && !(d.supOf i).fenceIn)

/-- Whether relay messages are served (R466). -/
def Dev.relayOn (d : Dev) : Bool := decide (4 ≤ d.mode) && decide (d.mode ≤ 9) && !d.por && !d.loupe.safe

def Dev.setSession (d : Dev) (s : Session) : Dev := { d with upd := { d.upd with session := s } }

/-- The state of a DOWN path, 2 or 3. -/
def Dev.downPath (d : Dev) (p : Nat) : RelayPath := if p = 2 then d.upd.session.down0 else d.upd.session.down1
def Dev.setDown (d : Dev) (p : Nat) (x : RelayPath) : Dev :=
  let s := d.upd.session
  d.setSession (if p = 2 then { s with down0 := x } else { s with down1 := x })

/-- The current upstream path: UP0, or UP1 (R470).  (DEDUCED, unsafe: log entry 162.) -/
def Dev.upPath (d : Dev) : Nat := b2n d.upd.session.upNow

/-! ## Opening a session (R467) -/

/-- A refusal: logged and counted. -/
def Dev.sessRefuse (d : Dev) (result : Nat) : Dev := (d.log 0x1315 .lasting 0 [result]).uinc 10 |>.uflag 2

/-- Whether no flash can take a block. -/
def Dev.noFlash (d : Dev) : Bool := !d.flashes.a.works && !d.flashes.b.works

/-- The UPD_RESULT of an opening before any header. -/
def Dev.openResult (d : Dev) : Nat :=
  if d.upd.boot.trial then 5 else if d.upd.session.state = 4 then 10 else if d.noFlash then 8 else 0

/-- The UPD_RESULT of a header at OFFSET 0 (R459, R467). -/
def Dev.headerResult (d : Dev) (hdr : List Byte) (sig : Bool) : Nat :=
  let v := d.headerCheck hdr sig
  let i := parseHeader hdr
  if v != 0 then v
  else if i.kind = 2 && i.cfgFmt != (d.areaInfo d.upd.boot.active).cfgFmt then 7
  else 0

/-- A session opens without a header; any earlier one is discarded, its requested blocks with it.  (DEDUCED, unsafe: log entry 160.) -/
def Dev.openSession (d : Dev) (id : Nat) : Dev :=
  let old := d.upd.session
  let keep := fun (x : RelayPath) => if d.upd.lastActive = some (x.sess, x.area) then x else { x with marks := [] }
  let s : Session := { id := id, state := 1, upNow := !d.pathSet 0 && d.pathSet 1, storedAt := d.ns, stateAt := d.ns, down0 := keep old.down0, down1 := keep old.down1 }
  (d.setSession s).log 0x1310 .transient 0 []

/-- The session takes its header: its area is erased, and the boot record no longer names what stood there (R467). -/
def Dev.takeHeader (d : Dev) (i : ImgInfo) : Dev :=
  let b := d.upd.boot
  let area := if i.kind = 1 then 1 - b.active % 2 else 3 - b.cfgCur % 2
  let d := if i.kind = 1 then (if b.prev = some area then d.writeBoot { b with prev := none } else d)
           else if b.cfgPrev = some (area - 2) then d.writeBoot { b with cfgPrev := none } else d
  let d := (d.eraseArea area).setInfo area (some i)
  let u := if (d.upd.lastActive.map Prod.snd) = some area then { d.upd with lastActive := none } else d.upd
  let s := { u.session with header := some i, area := area, total := 512 + i.length, stored := [], recent := [], high := 0 }
  { d with upd := { u with session := s } }

/-! ## Storing a block (R468 to R470) -/

/-- How a block's program comes out on one flash: 0 at once, 1 at the second program, 2 and more not at all (R456, R468).  (DEDUCED, unsafe: log entry 163.) -/
def Dev.progBlock (d : Dev) (b : Bool) (prog : Nat) : Dev :=
  if !(d.flash b).works || prog = 0 then d
  else if prog = 1 then (d.uinc 9).log 0x1311 .transient (flashSrc b) []
  else (d.uinc 9).flashFail b

/-- A number put into a rising list. -/
def insertUp (k : Nat) : List Nat → List Nat
  | [] => [k]
  | j :: js => if k < j then k :: j :: js else if k = j then j :: js else j :: insertUp k js

/-- A newly stored block joins the queue of one DOWN path, or is dropped where the queue is full (R469). -/
def Dev.forwardBlock (d : Dev) (p k hop : Nat) (data : List Byte) : Dev :=
  let x := d.downPath p
  if !d.pathSet p then d
  else if 64 ≤ x.queue.length then d.uinc 5
  else d.setDown p { x with queue := x.queue ++ [{ sess := d.upd.session.id, blk := k, hop := some (hop + 1), data := data }] }

/-- Whether a block lies in one of the ranges a request named. -/
def wanted (rs : List (Nat × Nat)) (k : Nat) : Bool := rs.any fun r => decide (r.1 ≤ k) && decide (k < r.1 + r.2)

/-- One more than the highest block stored at least 2 s ago (R470). -/
def Session.oldHigh (s : Session) (ns : Nat) : Nat :=
  s.recent.foldl (fun h r => if r.2 + 2000000000 ≤ ns then max h (r.1 + 1) else h) s.high

/-- A stored block answers an outstanding request and ends UP_LOST (R470). -/
def Dev.noteStored (d : Dev) (k : Nat) : Dev :=
  let s := d.upd.session
  let hit := s.asked != 0 && wanted s.want k
  let d := if hit && s.asked = 2 then d.log 0x1317 .transient 0 [] else d
  let recent := (s.recent.filter fun r => d.ns < r.2 + 2000000000) ++ [(k, d.ns)]
  d.setSession { s with upLost := false, asked := if hit then 0 else s.asked, want := if hit then [] else s.want, storedAt := d.ns,
                        recent := recent, high := s.oldHigh d.ns }

/-- A block of the open session is stored (R468). -/
def Dev.storeBlock (d : Dev) (k hop progA progB : Nat) (data : List Byte) : Dev :=
  let d := (d.progBlock false progA).progBlock true progB
  if d.noFlash then (d.setSession { d.upd.session with state := 0 }).log 0x1312 .lasting 0 []
  else
    let d := (d.storeArea d.upd.session.area (1024 * k) data).uinc 1
    let s := d.upd.session
    let st := insertUp k s.stored
    let d := (d.setSession { s with stored := st, state := if st.length = ceilDiv s.total 1024 then 2 else s.state }).noteStored k
    (d.forwardBlock 2 k hop data).forwardBlock 3 k hop data

/-- A BLOCK of the open session: it may bring the header, it is stored, or it is discarded (R468). -/
def Dev.sessionBlock (d : Dev) (off hop total progA progB : Nat) (data : List Byte) (sig : Bool) : Dev :=
  let k := off / 1024
  let fits := fun (s : Session) => s.header.isSome && decide (off < s.total) && total == s.total && data.length == min 1024 (s.total - off)
  let s := d.upd.session
  if s.header.isSome && s.stored.contains k then d.uinc 2
  else if s.state != 1 then d
  else if s.header.isNone && off = 0 then
    let v := d.headerResult (data.take 512) sig
    let i := parseHeader data
    if v != 0 then d.sessRefuse v
    else if total != 512 + i.length || data.length != min 1024 total then d
    else (d.takeHeader i).storeBlock 0 hop progA progB data
  else if fits s then d.storeBlock k hop progA progB data else d

/-- RELAY_BLOCK: paths 0 and 1 are UP0 and UP1, 4 and 5 the request buffers of link A and B (R466 to R468).  (DEDUCED, unsafe: log entry 156.) -/
def Dev.relayBlock (d : Dev) (path sess off hop total progA progB : Nat) (data : List Byte) (sig : Bool) : Dev :=
  let host := 4 ≤ path && path < 6
  let here := if host then d.nguPath (path - 4) else decide (path < 2) && d.pathOpen path
  if !here then d
  else if d.rateFull then (d.linc 1).discardMsg (if host then path - 4 else 2)
  else if !d.relayOn || 32 ≤ hop || off % 1024 != 0 || data.isEmpty || 1024 < data.length then
    d.discardMsg (if host then path - 4 else 2)
  else
    let d := (d.countMsg).uinc 0
    let d := if host then d.setLink (path = 5) { d.link (path = 5) with busy := false } else d
    let s := d.upd.session
    if s.state != 0 && s.id = sess then d.sessionBlock off hop total progA progB data sig
    else if off != 0 || !bitOf (d.urd Reg.UPD_CFG) 31 || data.length < 512 then d
    else
      let v := if d.openResult != 0 then d.openResult else d.headerResult (data.take 512) sig
      let i := parseHeader data
      if v != 0 then d.sessRefuse v
      else if total != 512 + i.length || data.length != min 1024 total then d
      else ((d.openSession sess).takeHeader i).storeBlock 0 hop progA progB data

/-! ## Requests from downstream (R456, R469) -/

/-- A read of stored content, and the failed range of the active image or configuration rewritten from the good flash (R456). -/
def Dev.readNote (d : Dev) (area outcome : Nat) : Dev :=
  let d := d.readTwice outcome
  if outcome = 1 && d.relayOn && (area = d.upd.boot.active || area = d.upd.boot.cfgCur + 2) then d.log 0x1303 .transient 0 [] else d

/-- Requested blocks of a DOWN path enter its queue while it has room; the first read comes out as `outcome`.  (DEDUCED, unsafe: log entry 158.) -/
def Dev.fillQueue (d : Dev) (p outcome : Nat) : Nat → Dev
  | 0 => d
  | n + 1 =>
    let x := d.downPath p
    match x.marks with
    | [] => d
    | k :: ks =>
      if 64 ≤ x.queue.length then d
      else
        let it : RelayItem := { sess := x.sess, blk := k, hop := none, data := d.readBlock x.area k }
        let q := if 2 ≤ outcome then x.queue else x.queue ++ [it]
        ((d.readNote x.area outcome).setDown p { x with marks := ks, queue := q }).fillQueue p 0 n

/-- RELAY_REQUEST from DOWN0 or DOWN1, paths 2 and 3. -/
def Dev.relayRequest (d : Dev) (p sess outcome : Nat) (ranges : List (Nat × Nat)) : Dev :=
  if !d.relayOn || !(p = 2 || p = 3) || !d.pathOpen p then d
  else if d.rateFull then d.linc 1
  else
    let d := d.countMsg.uinc 7
    let s := d.upd.session
    let own := s.state != 0 && s.id = sess && s.header.isSome
    let last := match d.upd.lastActive with
      | some a => if a.1 = sess then some a.2 else none
      | none => none
    let held := if own then s.stored.filter (wanted ranges)
      else match last with
        | some area => (List.range (ceilDiv (512 + (d.areaInfo area).length) 1024)).filter (wanted ranges)
        | none => []
    let area := if own then s.area else last.getD 0
    if !own && last.isNone then d
    else (d.setDown p { d.downPath p with marks := held, sess := sess, area := area }).fillQueue p outcome held.length

/-- Device time in ns between blocks of one path: RELAY_RATE blocks per second (R469). -/
def Dev.relaySpace (d : Dev) : Nat := 10 ^ 9 / max 1 (fieldOf (d.urd Reg.UPD_CFG) 23 16)

/-- RELAY_QUEUE_SEND: the next block of a DOWN path goes out, no sooner than RELAY_RATE allows, and a requested block takes the freed place.  (DESIGN
CHOICE, safe: log entry 19.) -/
def Dev.queueSend (d : Dev) (p outcome : Nat) : Dev :=
  if !d.relayOn || !(p = 2 || p = 3) || !d.pathOpen p then d
  else
    let x := d.downPath p
    match x.queue with
    | [] => d.fillQueue p outcome 1
    | it :: rest =>
      if d.ns < x.freeAt then d
      else
      let hop := it.hop.getD (Config.answerHop it.sess it.blk).toNat
      let words := [it.sess, 1024 * it.blk, it.data.length, hop] ++ it.data.map BitVec.toNat
      let d := (d.setDown p { x with queue := rest, freeAt := d.ns + d.relaySpace }).emit (.relay 1 p words)
      (d.uinc (if it.hop.isSome then 3 else 4)).fillQueue p outcome 1

/-! ## STATE messages (R469) -/

/-- RELAY_STATE from downstream: forwarded on the current upstream path with HOP + 1. -/
def Dev.relayState (d : Dev) (p sess serial hop state stored total verS verA : Nat) : Dev :=
  if !d.relayOn || !(p = 2 || p = 3) || !d.pathOpen p || 32 ≤ hop then d
  else if d.rateFull then d.linc 1
  else
    let d := d.countMsg
    if d.pathOpen d.upPath then d.emit (.relay 3 d.upPath [sess, serial, hop + 1, state, stored, total, verS, verA]) else d

/-- The device's own STATE message on its current upstream path. -/
def Dev.sendState (d : Dev) : Dev :=
  let s := d.upd.session
  let ver := (s.header.map (·.ver)).getD 0
  if !d.pathOpen d.upPath then d
  else d.emit (.relay 3 d.upPath [s.id, Config.serial.toNat, 0, s.state, s.stored.length, ceilDiv s.total 1024, ver,
                                  (d.areaInfo d.upd.boot.active).ver])

/-- RELAY_STATE_TIMER: 60 s after the last one (R469). -/
def Dev.stateTimer (d : Dev) : Dev :=
  let s := d.upd.session
  if d.relayOn && s.state != 0 && decide (s.stateAt + 60 * 10 ^ 9 ≤ d.ns) then (d.setSession { s with stateAt := d.ns }).sendState else d

/-! ## Requests upstream (R470) -/

/-- The missing ranges of a session below block `n`, rising: first block and count. -/
def missingFrom (stored : List Nat) (n : Nat) : List (Nat × Nat) :=
  ((List.range n).filter fun k => !stored.contains k).foldl (fun rs k =>
    match rs.getLast? with
    | some r => if r.1 + r.2 = k then rs.dropLast ++ [(r.1, r.2 + 1)] else rs ++ [(k, 1)]
    | none => [(k, 1)]) []

/-- The ranges a request names. -/
def Session.ranges (s : Session) : List (Nat × Nat) :=
  if s.header.isNone then [(0, 65535)] else (missingFrom s.stored (ceilDiv s.total 1024)).take 64

/-- A REQUEST on an UP path. -/
def Dev.sendRequest (d : Dev) (p : Nat) (rs : List (Nat × Nat)) : Dev :=
  if d.pathOpen p then (d.uinc 6).emit (.relay 2 p (d.upd.session.id :: rs.length :: rs.flatMap fun r => [r.1, r.2])) else d.uinc 6

/-- Whether a request is due: a block is missing below one stored 2 s ago, or none has been stored for 10 s (R470). -/
def Session.gapDue (s : Session) (ns : Nat) : Bool :=
  ((List.range (s.oldHigh ns)).any fun k => !s.stored.contains k) || decide (s.storedAt + 10 * 10 ^ 9 ≤ ns)

/-- RELAY_GAP_REQUEST (R470). -/
def Dev.gapRequest (d : Dev) : Dev :=
  let s := d.upd.session
  if !d.relayOn || s.state != 1 || s.asked != 0 || s.upLost || s.ranges.isEmpty || !(d.pathSet d.upPath) || !s.gapDue d.ns then d
  else (d.setSession { s with asked := 1, want := s.ranges, askedAt := d.ns }).sendRequest d.upPath s.ranges

/-- RELAY_REQUEST_RETRY, 10 s after the request: it is sent once more, or another upstream path is taken, or UP_LOST is set. -/
def Dev.requestRetry (d : Dev) : Dev :=
  let s := d.upd.session
  if !d.relayOn || s.state != 1 || s.asked = 0 || d.ns < s.askedAt + 10 * 10 ^ 9 then d
  else if s.asked = 1 then (d.setSession { s with asked := 2, askedAt := d.ns }).sendRequest d.upPath s.want
  else
    let d := d.log 0x1318 .lasting 0 []
    if d.pathSet (b2n (!s.upNow)) then d.setSession { s with asked := 0, want := [], upNow := !s.upNow }
    else d.setSession { s with asked := 0, want := [], upLost := true, askedAt := d.ns }

/-- RELAY_UP_LOST_REPEAT: every 60 s the request goes out on every UP path (R470). -/
def Dev.upLostRepeat (d : Dev) : Dev :=
  let s := d.upd.session
  if !d.relayOn || s.state != 1 || !s.upLost || d.ns < s.askedAt + 60 * 10 ^ 9 then d
  else
    let d := d.setSession { s with askedAt := d.ns }
    let d := if d.pathSet 0 then d.sendRequest 0 s.ranges else d
    if d.pathSet 1 then d.sendRequest 1 s.ranges else d

/-! ## Verification (R471) -/

/-- SESSION_VERIFY: for each flash, 0 and 1 the copy's digest is right at the first or second read, 2 it is not. -/
def Dev.sessionVerify (d : Dev) (copyA copyB : Nat) : Dev :=
  let s := d.upd.session
  if s.state != 2 || d.por || d.mode = 0 then d
  else
    let good := fun (b : Bool) (c : Nat) => (d.flash b).works && decide (c < 2)
    let bad := fun (b : Bool) (c : Nat) => (d.flash b).works && decide (2 ≤ c)
    if !good false copyA && !good true copyB then
      let d := d.setSession { s with state := 1, stored := [], asked := 0, want := [], storedAt := d.ns, recent := [], high := 0 }
      (d.uflag 3).log 0x1313 .lasting 0 []
    else
      let d := if bad false copyA then d.log 0x1303 .transient (flashSrc false) [] else d
      let d := if bad true copyB then d.log 0x1303 .transient (flashSrc true) [] else d
      ((d.setSession { s with state := 3 }).log 0x1314 .transient 0 []).sendState

/-! ## Update operations (R472 to R475, R479) -/

/-- An update operation: its UPD_RESULT stands first in the body, and only OK has the effect.  (DEDUCED, unsafe: log entry 150.) -/
def Dev.updOp (d : Dev) (h : NguHdr) (op : Nat) (result : Dev → Nat) (act : Dev → Dev) (refused : Nat → Dev → Dev) : Dev :=
  d.ngu h op false { status := fun _ => 0, body := fun e => [BitVec.ofNat 8 (result e)],
                     act := fun e => if result e = 0 then act e else refused (result e) e }

/-- Whether a command names the session the device holds. -/
def Dev.holdsSession (d : Dev) (id : Nat) : Bool := d.upd.session.state != 0 && d.upd.session.id = id

/-- (DEDUCED, unsafe: log entry 160.) -/
def Dev.updateBegin (d : Dev) (h : NguHdr) (sess : Nat) : Dev :=
  d.updOp h 0x0201 Dev.openResult (fun e => e.openSession sess) fun r e => e.sessRefuse r

def Dev.updateAbort (d : Dev) (h : NguHdr) (sess : Nat) : Dev :=
  d.updOp h 0x0202 (fun e => if e.holdsSession sess then 0 else 3) (fun e => e.setSession { e.upd.session with state := 0, stored := [] })
    fun _ e => e

/-- The UPD_RESULT of ACTIVATE (R472). -/
def Dev.activateResult (d : Dev) (sess at_ : Nat) : Nat :=
  let s := d.upd.session
  if !d.holdsSession sess then 3
  else if d.upd.boot.trial then 5
  else if s.state < 3 then 4
  else if at_ != 0 && d.loupe.timeUnc then 6 else 0

def Dev.activate (d : Dev) (h : NguHdr) (sess at_ : Nat) : Dev :=
  d.updOp h 0x0203 (fun e => e.activateResult sess at_) (fun e => e.setSession { e.upd.session with state := 4, at_ := at_ }) fun _ e => e

/-- (DEDUCED, unsafe: log entry 159.) -/
def Dev.cancel (d : Dev) (h : NguHdr) (sess : Nat) : Dev :=
  d.updOp h 0x0204 (fun e => if !e.holdsSession sess then 3 else if e.upd.session.state = 4 then 0 else 4)
    (fun e => e.setSession { e.upd.session with state := 3 }) fun _ e => e

def Dev.confirmCmd (d : Dev) (h : NguHdr) : Dev :=
  d.updOp h 0x0205 (fun e => if e.upd.boot.trial then 0 else 3) Dev.confirm fun _ e => e

/-- The UPD_RESULT of REVERT: PREV's header passes, by its reader's verdict and the rollback counter (R459, R475).  (DESIGN CHOICE, safe: log entry 161.) -/
def Dev.revertResult (d : Dev) (verdict : Nat) : Nat :=
  match d.upd.boot.prev with
  | none => 9
  | some n =>
    let i := d.areaInfo n
    if verdict = 1 then 1 else if verdict = 2 || i.secver < d.hm.rollback.get 0 i.rbIdx then 2 else 0

def Dev.revert (d : Dev) (h : NguHdr) (verdict : Nat) (s : StartIn) : Dev :=
  d.updOp h 0x0206 (fun e => e.revertResult verdict) (fun e => (e.revertBoot e.upd.boot).t19 s) fun _ e => e

/-! ## Enrolment and life cycle (R401, R404, R478) -/

/-- Where the two signed-always operations are served. -/
def Dev.enrolMode (d : Dev) : Bool := (decide (2 ≤ d.mode) && decide (d.mode ≤ 9)) || d.mode = 11

/-- ENROL. -/
def Dev.enrol (d : Dev) (h : NguHdr) (body : List Byte) : Dev :=
  d.ngu h 0x0300 false
    { status := fun e => if !e.enrolMode then 3 else if e.hm.lc = 3 || e.hm.valid then 8 else if enrolBody body then 0 else 1
      body := fun e => 0 :: freeBytes (fun o => Config.identity ((e.hm.enrolGen + 1) % 256) (0x200 + o)) 97
      act := fun e => ({ e with hm := e.hm.enrolled (enrolEntries body) } : Dev).log 0x1320 .transient 0 [] }

/-- LC_ADVANCE.  (DEDUCED, unsafe: log entry 151.) -/
def Dev.lcAdvanceCmd (d : Dev) (h : NguHdr) (target : Nat) : Dev :=
  d.ngu h 0x0301 false
    { status := fun e => if !e.enrolMode then 3 else if e.hm.lc = 3 then 8 else 0
      body := fun _ => [0]
      act := fun e => e.lcAdvance (BitVec.ofNat 32 (0x5A00 + target % 4)) }

end Sys2Proof.Machine
end

