-- ==== Sys2Proof/Machine/Ops.lean ====
section
/-! DEFINITION. How a command acts on the device, and the operations that several commands share. -/

namespace Sys2Proof.Machine

/-- What follows a command: the Loupe's loss of its time source (R440), what bank errors bring (R345, R399), watchdogs that have run down
(R382), and what the Clasp sends (R319, R321,
R325). -/
def Dev.after (d before : Dev) : Dev := (allStrands.foldl Dev.wdogWatch (allStrands.foldl Dev.bankWatch (d.timeWatch before))).settle

/-- A command's effect: `f` on the device, and what follows it. -/
def State.run (s : State) (f : Dev → Dev) : State := { s with dev := (f s.dev).after s.dev }

/-- The device `dt` ns later, and what the Clasp does with what they brought. -/
def Dev.later (d : Dev) (dt : Nat) : Dev := if dt = 0 then d else (d.pass dt).settle

/-- A command's effect after `dt` ns. -/
def State.runAt (s : State) (dt : Nat) (f : Dev → Dev) : State := s.run fun d => f (d.later dt)

/-- A master writes bit `bit` of SUP_CTL; the fields it does not command keep their values (R43, R47). -/
def Dev.supPoke (d : Dev) (m : Master) (i : StrandId) (bit : Nat) : Dev :=
  d.placeWrite m (.strand i Reg.SUP_CTL) (setField (d.supOf i).ctl 3 0 (2 ^ bit)).toNat

/-- REGISTER_WRITE: a write of CORE_CMD.STEP by the Loupe executes an instruction too (R384). -/
def Dev.masterWrite (d : Dev) (m : Master) (addr n v : Nat) : Dev :=
  let d := d.busWrite m addr n v
  let step := m == .loupe && inLoupeStrand addr && addr % 0x1000000 == Reg.CORE_CMD && n == 4 && bitN v 3 && !bitN v 1
  if step then d.coreStep (loupeStrand addr) else d

/-- EGRESS_SELECT on any egress port: 0 to 3 the E ports, 4 H, 5 C, 6 to 9 the V ports, with what the read of the buffer finds (R146, R157,
R166). -/
def StrandSt.egress (st : StrandSt) (e : Fin 10) (err : BufErr) : StrandSt :=
  if e.val < 4 then st.egressE (Fin.ofNat 4 e.val) err else if e.val < 6 then st.egressHC e.val err else st.egressI e.val err

/-- INTERNAL_ADMIT of a source: the TX rings of H or C commit their items, other sources their waiting frames (R154). -/
def StrandSt.internalAdmit (st : StrandSt) (src : Nat) : StrandSt :=
  if src = 4 || src = 5 then (st.admitInternal src).txCommits src else st.admitInternal src

/-- V_PORT_INGRESS: the V port takes what its engine's RX queue holds (R148). -/
def StrandSt.vIngress (st : StrandSt) (k : Fin 4) : StrandSt :=
  match st.vEngine k.val with
  | none => st
  | some n => st.vRecv k.val n (st.eng n).rxq.length

/-- V_PORT_EGRESS: the V port fills its engine's TX queue (R148). -/
def StrandSt.vEgress (st : StrandSt) (k : Fin 4) : StrandSt :=
  match st.vEngine k.val with
  | none => st
  | some n =>
    let vp := st.sw.vports.get {} k.val
    let r := st.queuePut n vp.toSend
    { r.1 with sw := { r.1.sw with vports := r.1.sw.vports.set {} k.val { r.1.sw.vports.get {} k.val with toSend := r.2 } } }

/-- READBACK_RETURN of a strand or of a merge group (R296, R324). -/
def Dev.readbackReturn (d : Dev) (w : BackOf) : Dev :=
  match w with
  | .strand i => d.onActive i fun s => s.readbackReturn
  | .group g => d.pcqReturn g.val

/-- ACC_REPORT of a table entry or of a merge group (R322). -/
def Dev.accReport (d : Dev) (what : AccOf) : Dev :=
  match what with
  | .ring i r => d.accTable i r.val
  | .group g => d.accGroup g.val

/-- BAR2_ACCESS on link `b` at offset `off` (R317). -/
def Dev.bar2 (d : Dev) (b : Bool) (off : Nat) (acc : HostAcc) : Dev :=
  match acc with
  | .read n => d.bar2Read b off n
  | .write bytes => d.bar2Write b off bytes

end Sys2Proof.Machine
end

