-- ==== Sys2Proof/Machine/BangleFam.lean ====
section
/-! DEFINITION. The Bangle (R188 to R213): the meaning of each command. -/

namespace Sys2Proof.Machine

/-- TRK_OBS_SUBMIT (R192). -/
def execTrkObsSubmit (dt : Nat) (i : StrandId) (t : Fin 4) (v : Word) (s : State) : Host.Outcome State Fault Refusal :=
  .next (s.runAt dt fun d => d.placeWrite (.core i) (.strand i (Reg.TRK_OBS_VAL t.val)) v.toNat)

/-- OBS_QUEUE_TAKE (R192). -/
def execObsQueueTake (dt : Nat) (i : StrandId) (t : Fin 4) (s : State) : Host.Outcome State Fault Refusal :=
  .next (s.runAt dt fun d => d.onActive i fun s => s.obsTake t.val)

/-- OBS_APPLY (R197). -/
def execObsApply (dt : Nat) (i : StrandId) (t : Fin 4) (s : State) : Host.Outcome State Fault Refusal :=
  .next (s.runAt dt fun d => d.onActive i fun s => s.obsStep t.val)

/-- TRK_TIMEOUT (R198). -/
def execTrkTimeout (dt : Nat) (i : StrandId) (t : Fin 4) (s : State) : Host.Outcome State Fault Refusal :=
  .next (s.runAt dt fun d => d.onActive i fun s => s.trkTimeout t.val)

/-- TRK_RESTART (R198). -/
def execTrkRestart (dt : Nat) (m : Master) (i : StrandId) (t : Fin 4) (s : State) : Host.Outcome State Fault Refusal :=
  .next (s.runAt dt fun d => d.placeWrite m (.strand i Reg.BNG_CMD) (2 ^ (4 + t.val)))

/-- TRK_ANGLE_READ (R214). -/
def execTrkAngleRead (dt : Nat) (m : Master) (i : StrandId) (t : Fin 4) (s : State) : Host.Outcome State Fault Refusal :=
  .next (s.runAt dt fun d => d.placeRead m (.strand i (Reg.TRK_ANGLE t.val)))

/-- PREDICTOR_VISIT (R203). -/
def execPredictorVisit (dt : Nat) (i : StrandId) (k : Fin 256) (s : State) : Host.Outcome State Fault Refusal :=
  .next (s.runAt dt fun d => d.onActive i fun s => s.visit k.val)

/-- EVT_FIRE (R204). -/
def execEvtFire (dt : Nat) (i : StrandId) (k : Fin 256) (s : State) : Host.Outcome State Fault Refusal :=
  .next (s.runAt dt fun d => d.onActive i fun s => s.evtFires k.val)

/-- ACTION_DEFERRED (R204). -/
def execActionDeferred (dt : Nat) (i : StrandId) (s : State) : Host.Outcome State Fault Refusal :=
  .next (s.runAt dt fun d => d.onActive i fun s => s.actDeferred)

/-- EVT_ENTRY_WRITE (R207). -/
def execEvtEntryWrite (dt : Nat) (m : Master) (i : StrandId) (k : Fin 256) (v : Word) (s : State) : Host.Outcome State Fault Refusal :=
  .next (s.runAt dt fun d => d.placeWrite m (.strand i (Reg.EVT_W3 k.val)) v.toNat)

end Sys2Proof.Machine
end

