-- ==== Sys2Proof/Machine/BankFam.lean ====
section
/-! DEFINITION. The memory banks (R389 to R399): the meaning of each command. -/

namespace Sys2Proof.Machine

/-- BANK_RELEASE (R393). -/
def execBankRelease (dt : Nat) (m : Master) (i : StrandId) (k : Fin 48) (s : State) : Host.Outcome State Fault Refusal :=
  .next (s.runAt dt fun d => d.placeWrite m (.strand i (Reg.BANK_OWNER k.val)) (0x40000000))

/-- BANK_GRANT (R393). -/
def execBankGrant (dt : Nat) (m : Master) (i : StrandId) (k : Fin 48) (owner : Fin 8) (group : Fin 4) (s : State) : Host.Outcome State Fault Refusal :=
  .next (s.runAt dt fun d =>
    d.placeWrite m (.strand i (Reg.BANK_OWNER k.val)) (0x80000000 + 0x8000000 * owner.val + 0x2000000 * group.val))

/-- RELEASE_GRANT (R393). -/
def execReleaseGrant (dt : Nat) (m : Master) (i : StrandId) (k : Fin 48) (owner : Fin 8) (group : Fin 4) (s : State) : Host.Outcome State Fault Refusal :=
  .next (s.runAt dt fun d =>
    d.placeWrite m (.strand i (Reg.BANK_OWNER k.val)) (0xC0000000 + 0x8000000 * owner.val + 0x2000000 * group.val))

/-- BANK_FREE (R393). -/
def execBankFree (dt : Nat) (i : StrandId) (k : Fin 48) (s : State) : Host.Outcome State Fault Refusal :=
  .next (s.runAt dt fun d => d.onClocked i fun s => s.bankFree k.val)

/-- PWR_WRITE (R396). -/
def execPwrWrite (dt : Nat) (m : Master) (i : StrandId) (k : Fin 48) (pwr : Fin 4) (s : State) : Host.Outcome State Fault Refusal :=
  .next (s.runAt dt fun d => d.placeWrite m (.strand i (Reg.BANK_STATE k.val)) pwr.val)

/-- PWR_CHANGE_DONE (R396). -/
def execPwrChangeDone (dt : Nat) (i : StrandId) (k : Fin 48) (s : State) : Host.Outcome State Fault Refusal :=
  .next (s.runAt dt fun d => d.onClocked i fun s => s.pwrDone k.val)

/-- SCRUB (R398). -/
def execScrub (dt : Nat) (i : StrandId) (k : Fin 50) (w : Fin 16384) (clean : Bool) (s : State) : Host.Outcome State Fault Refusal :=
  .next (s.runAt dt fun d => d.onActive i fun s => s.scrub k.val w.val clean)

/-- PATROL_READ (R398). -/
def execPatrolRead (dt : Nat) (i : StrandId) (found : Option (Nat × Nat)) (s : State) : Host.Outcome State Fault Refusal :=
  .next (s.runAt dt fun d => d.onActive i fun s => s.patrolRead found)

/-- BANK_VIO_CHECK (R494). -/
def execBankVioCheck (dt : Nat) (i : StrandId) (k : Fin 2) (mv : Nat) (s : State) : Host.Outcome State Fault Refusal :=
  .next (s.runAt dt fun d => d.vioCheck i k mv)

end Sys2Proof.Machine
end

