-- ==== Sys2Proof/Machine/BeadCmds.lean ====
section
/-! DEFINITION. The Bead engines: their commands, queues and instructions (R51 to R101): the meaning of each command. -/

namespace Sys2Proof.Machine

/-- START (R72). -/
def execStart (dt : Nat) (m : Master) (i : StrandId) (n : Fin 16) (resume : Bool) (s : State) : Host.Outcome State Fault Refusal :=
  .next (s.runAt dt fun d => d.placeWrite m (.strand i (Reg.BEAD_CMD n.val)) (1 + 8 * b2n resume))

/-- BEAD_STEP (R72). -/
def execBeadStep (dt : Nat) (m : Master) (i : StrandId) (n : Fin 16) (resume : Bool) (s : State) : Host.Outcome State Fault Refusal :=
  .next (s.runAt dt fun d => d.placeWrite m (.strand i (Reg.BEAD_CMD n.val)) (4 + 8 * b2n resume))

/-- STOP (R72). -/
def execStop (dt : Nat) (m : Master) (i : StrandId) (n : Fin 16) (s : State) : Host.Outcome State Fault Refusal :=
  .next (s.runAt dt fun d => d.placeWrite m (.strand i (Reg.BEAD_CMD n.val)) 2)

/-- STOP_ACT (R74). -/
def execStopAct (dt : Nat) (i : StrandId) (n : Fin 16) (s : State) : Host.Outcome State Fault Refusal :=
  .next (s.runAt dt fun d => d.onActive i fun s => if (s.eng n.val).stopPend then s.stopEngine n.val 1 else s)

/-- QFLUSH (R66). -/
def execQflush (dt : Nat) (m : Master) (i : StrandId) (n : Fin 16) (s : State) : Host.Outcome State Fault Refusal :=
  .next (s.runAt dt fun d => d.placeWrite m (.strand i (Reg.BEAD_CMD n.val)) 0x10)

/-- PIN_RELEASE (R56). -/
def execPinRelease (dt : Nat) (m : Master) (i : StrandId) (n : Fin 16) (s : State) : Host.Outcome State Fault Refusal :=
  .next (s.runAt dt fun d => d.placeWrite m (.strand i (Reg.BEAD_CMD n.val)) 0x20)

/-- DIV_RESTART (R52). -/
def execDivRestart (dt : Nat) (m : Master) (i : StrandId) (n : Fin 16) (s : State) : Host.Outcome State Fault Refusal :=
  .next (s.runAt dt fun d => d.placeWrite m (.strand i (Reg.BEAD_CMD n.val)) 0x80)

/-- EVT_SET (R76). -/
def execEvtSet (dt : Nat) (m : Master) (i : StrandId) (n : Fin 16) (mask : Fin 16) (s : State) : Host.Outcome State Fault Refusal :=
  .next (s.runAt dt fun d => d.placeWrite m (.strand i (Reg.BEAD_CMD n.val)) (0x100 * mask.val))

/-- BEAD_TXQ_WRITE (R67). -/
def execBeadTxqWrite (dt : Nat) (m : Master) (i : StrandId) (n : Fin 16) (v : Word) (s : State) : Host.Outcome State Fault Refusal :=
  .next (s.runAt dt fun d => d.placeWrite m (.strand i (Reg.BEAD_TXQ n.val)) v.toNat)

/-- BEAD_RXQ_READ (R67). -/
def execBeadRxqRead (dt : Nat) (m : Master) (i : StrandId) (n : Fin 16) (s : State) : Host.Outcome State Fault Refusal :=
  .next (s.runAt dt fun d => d.placeRead m (.strand i (Reg.BEAD_RXQ n.val)))

/-- BEAD_QCFG_WRITE (R66). -/
def execBeadQcfgWrite (dt : Nat) (m : Master) (i : StrandId) (n : Fin 16) (v : Word) (s : State) : Host.Outcome State Fault Refusal :=
  .next (s.runAt dt fun d => d.placeWrite m (.strand i (Reg.BEAD_QCFG n.val)) v.toNat)

/-- BEAD_IMEM_WRITE (R78). -/
def execBeadImemWrite (dt : Nat) (m : Master) (i : StrandId) (n : Fin 16) (k : Fin 64) (v : BitVec 24) (s : State) : Host.Outcome State Fault Refusal :=
  .next (s.runAt dt fun d => d.placeWrite m (.strand i (Reg.BEAD_IMEM n.val k.val)) v.toNat)

/-- BEAD_DIV_WRITE (R52). -/
def execBeadDivWrite (dt : Nat) (m : Master) (i : StrandId) (n : Fin 16) (v : Word) (s : State) : Host.Outcome State Fault Refusal :=
  .next (s.runAt dt fun d => d.placeWrite m (.strand i (Reg.BEAD_DIV n.val)) v.toNat)

/-- BEAD_CRCCFG_WRITE (R63). -/
def execBeadCrccfgWrite (dt : Nat) (m : Master) (i : StrandId) (n : Fin 16) (v : Word) (s : State) : Host.Outcome State Fault Refusal :=
  .next (s.runAt dt fun d => d.placeWrite m (.strand i (Reg.BEAD_CRCCFG n.val)) v.toNat)

/-- NOP (R91). -/
def execNop (a : BeadAt) (s : State) : Host.Outcome State Fault Refusal :=
  .next (s.run fun d => d.beadRun a fun _ => fun s => beadNop s)

/-- SHOUT (R92). -/
def execShout (a : BeadAt) (bits : Fin 64) (s : State) : Host.Outcome State Fault Refusal :=
  .next (s.run fun d => d.beadRun a fun n => beadShout n bits.val)

/-- SHIN (R93). -/
def execShin (a : BeadAt) (bits : Fin 64) (s : State) : Host.Outcome State Fault Refusal :=
  .next (s.run fun d => d.beadRun a fun n => beadShin n bits.val)

/-- PULL (R50). -/
def execPull (a : BeadAt) (form : Fin 4) (s : State) : Host.Outcome State Fault Refusal :=
  .next (s.run fun d => d.beadRun a fun n => beadPull n form.val)

/-- PUSH (R50). -/
def execPush (a : BeadAt) (form : Fin 4) (s : State) : Host.Outcome State Fault Refusal :=
  .next (s.run fun d => d.beadRun a fun n => beadPush n form.val)

/-- SET (R94). -/
def execSet (a : BeadAt) (dest : Fin 8) (imm : BitVec 10) (s : State) : Host.Outcome State Fault Refusal :=
  .next (s.run fun d => d.beadRun a fun n => beadSet n dest.val imm.toNat)

/-- BEAD_MOV (R95). -/
def execBeadMov (a : BeadAt) (dst : Fin 16) (src : Fin 16) (opn : Fin 4) (lost : Bool) (s : State) : Host.Outcome State Fault Refusal :=
  .next (s.run fun d => d.beadRun a fun n => beadMov n dst.val src.val opn.val lost)

/-- JMP (R96). -/
def execJmp (a : BeadAt) (cond : Fin 32) (target : Fin 64) (s : State) : Host.Outcome State Fault Refusal :=
  .next (s.run fun d => d.beadRun a fun n => beadJmp n cond.val target.val)

/-- BEAD_WAIT (R98). -/
def execBeadWait (a : BeadAt) (pol : Bool) (src : Fin 8) (index : Fin 32) (s : State) : Host.Outcome State Fault Refusal :=
  .next (s.run fun d => d.beadRun a fun n => beadWait n pol src.val index.val)

/-- BEAD_CMP (R99). -/
def execBeadCmp (a : BeadAt) (mode : Fin 4) (imm : BitVec 11) (lost : Bool) (s : State) : Host.Outcome State Fault Refusal :=
  .next (s.run fun d => d.beadRun a fun n => beadCmp n mode.val imm.toNat lost)

/-- CRC (R100). -/
def execCrc (a : BeadAt) (init : Bool) (src : Fin 4) (oct : Fin 4) (s : State) : Host.Outcome State Fault Refusal :=
  .next (s.run fun d => d.beadRun a fun n => beadCrc n init src.val oct.val)

/-- STAMP (R101). -/
def execStamp (a : BeadAt) (adj : Fin 4) (nosec : Bool) (ang : Bool) (trk : Fin 4) (s : State) : Host.Outcome State Fault Refusal :=
  .next (s.run fun d => d.beadRun a fun n => beadStamp n adj.val nosec ang trk.val)

/-- EDIT (R102). -/
def execEdit (a : BeadAt) (offx : Bool) (len : Fin 4) (offset : BitVec 10) (s : State) : Host.Outcome State Fault Refusal :=
  .next (s.run fun d => d.beadRun a fun n => beadEdit n offx len.val offset.toNat)

/-- IRQ (R91). -/
def execIrq (a : BeadAt) (s : State) : Host.Outcome State Fault Refusal :=
  .next (s.run fun d => d.beadRun a fun n => beadIrq n)

/-- CNT (R97). -/
def execCnt (a : BeadAt) (reg : Bool) (target : Fin 64) (s : State) : Host.Outcome State Fault Refusal :=
  .next (s.run fun d => d.beadRun a fun n => beadCnt n reg target.val)

/-- SYNC (R104). -/
def execSync (a : BeadAt) (k : Fin 4) (s : State) : Host.Outcome State Fault Refusal :=
  .next (s.run fun d => d.beadRun a fun n => beadSync n k.val)

end Sys2Proof.Machine
end

