-- ==== Sys2Proof/Machine/ClaspFam.lean ====
section
/-! DEFINITION. The Clasp and the recovery window (R313 to R339): the meaning of each command. -/

namespace Sys2Proof.Machine

/-- MG_TAIL_WRITE (R323). -/
def execMgTailWrite (dt : Nat) (m : Master) (g : Fin 8) (v : BitVec 16) (s : State) : Host.Outcome State Fault Refusal :=
  .next (s.runAt dt fun d => d.placeWrite m (.clasp (Reg.MG_TAIL g.val)) v.toNat)

/-- MERGE_WRITEBACK (R324). -/
def execMergeWriteback (dt : Nat) (i : StrandId) (s : State) : Host.Outcome State Fault Refusal :=
  .next (s.runAt dt fun d => d.mergeWriteback i)

/-- MERGE_RECORD (R324). -/
def execMergeRecord (dt : Nat) (i : StrandId) (s : State) : Host.Outcome State Fault Refusal :=
  .next (s.runAt dt fun d => d.mergeRecord i)

/-- MG_ABORT (R327). -/
def execMgAbort (dt : Nat) (m : Master) (g : Fin 8) (v : Word) (s : State) : Host.Outcome State Fault Refusal :=
  .next (s.runAt dt fun d => d.placeWrite m (.clasp (Reg.MG_ABORT g.val)) v.toNat)

/-- MG_CFG_WRITE (R337). -/
def execMgCfgWrite (dt : Nat) (m : Master) (g : Fin 8) (v : Word) (s : State) : Host.Outcome State Fault Refusal :=
  .next (s.runAt dt fun d => d.placeWrite m (.clasp (Reg.MG_CFG g.val)) v.toNat)

/-- ACC_REPORT (R322). -/
def execAccReport (dt : Nat) (what : AccOf) (s : State) : Host.Outcome State Fault Refusal :=
  .next (s.runAt dt fun d => d.accReport what)

/-- IRQ_ARM (R321). -/
def execIrqArm (dt : Nat) (m : Master) (hi : Bool) (v : Word) (s : State) : Host.Outcome State Fault Refusal :=
  .next (s.runAt dt fun d => d.placeWrite m (.clasp (if hi then Reg.CLASP_IRQ_ARM_HI else Reg.CLASP_IRQ_ARM_LO)) v.toNat)

/-- MSIX_UNMASK (R321). -/
def execMsixUnmask (dt : Nat) (b : Bool) (vec : Fin 64) (s : State) : Host.Outcome State Fault Refusal :=
  .next (s.runAt dt fun d => d.placeWrite (.host b) (.clasp (0x100800C + 16 * vec.val)) 0)

/-- PM_STATE_CHANGE (R313). -/
def execPmStateChange (dt : Nat) (b : Bool) (d3 : Bool) (s : State) : Host.Outcome State Fault Refusal :=
  .next (s.runAt dt fun d => d.pmChange b d3)

/-- BAR2_ACCESS (R318). -/
def execBar2Access (dt : Nat) (b : Bool) (off : Nat) (acc : HostAcc) (s : State) : Host.Outcome State Fault Refusal :=
  .next (s.runAt dt fun d => d.bar2 b off acc)

/-- REC_OPEN (R333). -/
def execRecOpen (dt : Nat) (b : Bool) (resume : Bool) (s : State) : Host.Outcome State Fault Refusal :=
  .next (s.runAt dt fun d => d.recOpen b resume)

/-- REC_SUBMIT (R333). -/
def execRecSubmit (dt : Nat) (b : Bool) (sig : Bool) (flashErr : Bool) (digestOk : Bool) (prevOk : Bool) (start : StartIn) (s : State) : Host.Outcome State Fault Refusal :=
  .next (s.runAt dt fun d => d.recSubmit b sig flashErr digestOk prevOk start)

/-- REC_CLOSE (R333). -/
def execRecClose (dt : Nat) (b : Bool) (s : State) : Host.Outcome State Fault Refusal :=
  .next (s.runAt dt fun d => d.recClose b)

/-- PCIE_LINK_UP (R331). -/
def execPcieLinkUp (dt : Nat) (b : Bool) (s : State) : Host.Outcome State Fault Refusal :=
  .next (s.runAt dt fun d => d.pcieUp b)

/-- POSTED_CREDIT_RETURN (R319). -/
def execPostedCreditReturn (dt : Nat) (b : Bool) (n : Nat) (s : State) : Host.Outcome State Fault Refusal :=
  .next (s.runAt dt fun d => d.creditReturn b n)

end Sys2Proof.Machine
end

