-- ==== Sys2Proof/Machine/CoreAlu.lean ====
section
/-! DEFINITION. D32 arithmetic, logic, moves and shifts (R364 to R366): the meaning of each command. -/

namespace Sys2Proof.Machine

/-- ADD (R365). -/
def execAdd (dt : Nat) (c : Fin 5) (g : Fin 16) (sf : Bool) (wd : Fin 16) (wa : Fin 16) (src : DSrc) (s : State) : Host.Outcome State Fault Refusal :=
  .next (s.runAt dt fun d => d.coreRun c g (.alu 0x00 sf wd.val wa.val src.src))

/-- ADC (R365). -/
def execAdc (dt : Nat) (c : Fin 5) (g : Fin 16) (sf : Bool) (wd : Fin 16) (wa : Fin 16) (src : DSrc) (s : State) : Host.Outcome State Fault Refusal :=
  .next (s.runAt dt fun d => d.coreRun c g (.alu 0x01 sf wd.val wa.val src.src))

/-- SUB (R365). -/
def execSub (dt : Nat) (c : Fin 5) (g : Fin 16) (sf : Bool) (wd : Fin 16) (wa : Fin 16) (src : DSrc) (s : State) : Host.Outcome State Fault Refusal :=
  .next (s.runAt dt fun d => d.coreRun c g (.alu 0x02 sf wd.val wa.val src.src))

/-- SBC (R365). -/
def execSbc (dt : Nat) (c : Fin 5) (g : Fin 16) (sf : Bool) (wd : Fin 16) (wa : Fin 16) (src : DSrc) (s : State) : Host.Outcome State Fault Refusal :=
  .next (s.runAt dt fun d => d.coreRun c g (.alu 0x03 sf wd.val wa.val src.src))

/-- AND (R365). -/
def execAnd (dt : Nat) (c : Fin 5) (g : Fin 16) (sf : Bool) (wd : Fin 16) (wa : Fin 16) (src : DSrc) (s : State) : Host.Outcome State Fault Refusal :=
  .next (s.runAt dt fun d => d.coreRun c g (.alu 0x04 sf wd.val wa.val src.src))

/-- OR (R365). -/
def execOr (dt : Nat) (c : Fin 5) (g : Fin 16) (sf : Bool) (wd : Fin 16) (wa : Fin 16) (src : DSrc) (s : State) : Host.Outcome State Fault Refusal :=
  .next (s.runAt dt fun d => d.coreRun c g (.alu 0x05 sf wd.val wa.val src.src))

/-- XOR (R365). -/
def execXor (dt : Nat) (c : Fin 5) (g : Fin 16) (sf : Bool) (wd : Fin 16) (wa : Fin 16) (src : DSrc) (s : State) : Host.Outcome State Fault Refusal :=
  .next (s.runAt dt fun d => d.coreRun c g (.alu 0x06 sf wd.val wa.val src.src))

/-- ANDN (R365). -/
def execAndn (dt : Nat) (c : Fin 5) (g : Fin 16) (sf : Bool) (wd : Fin 16) (wa : Fin 16) (src : DSrc) (s : State) : Host.Outcome State Fault Refusal :=
  .next (s.runAt dt fun d => d.coreRun c g (.alu 0x07 sf wd.val wa.val src.src))

/-- MOV (R365). -/
def execMov (dt : Nat) (c : Fin 5) (g : Fin 16) (sf : Bool) (wd : Fin 16) (src : DSrc) (s : State) : Host.Outcome State Fault Refusal :=
  .next (s.runAt dt fun d => d.coreRun c g (.alu 0x08 sf wd.val 0 src.src))

/-- MVN (R365). -/
def execMvn (dt : Nat) (c : Fin 5) (g : Fin 16) (sf : Bool) (wd : Fin 16) (src : DSrc) (s : State) : Host.Outcome State Fault Refusal :=
  .next (s.runAt dt fun d => d.coreRun c g (.alu 0x09 sf wd.val 0 src.src))

/-- NEG (R369). -/
def execNeg (dt : Nat) (c : Fin 5) (g : Fin 16) (sf : Bool) (wd : Fin 16) (src : DSrc) (s : State) : Host.Outcome State Fault Refusal :=
  .next (s.runAt dt fun d => d.coreRun c g (.alu 0x0A sf wd.val 0 src.src))

/-- CMP (R365). -/
def execCmp (dt : Nat) (c : Fin 5) (g : Fin 16) (sf : Bool) (wa : Fin 16) (src : DSrc) (s : State) : Host.Outcome State Fault Refusal :=
  .next (s.runAt dt fun d => d.coreRun c g (.alu 0x0B sf 0 wa.val src.src))

/-- TST (R365). -/
def execTst (dt : Nat) (c : Fin 5) (g : Fin 16) (sf : Bool) (wa : Fin 16) (src : DSrc) (s : State) : Host.Outcome State Fault Refusal :=
  .next (s.runAt dt fun d => d.coreRun c g (.alu 0x0C sf 0 wa.val src.src))

/-- MOVW (R365). -/
def execMovw (dt : Nat) (c : Fin 5) (g : Fin 16) (wd : Fin 16) (imm : BitVec 16) (s : State) : Host.Outcome State Fault Refusal :=
  .next (s.runAt dt fun d => d.coreRun c g (.wide 0x0D wd.val imm.toNat))

/-- MOVT (R365). -/
def execMovt (dt : Nat) (c : Fin 5) (g : Fin 16) (wd : Fin 16) (imm : BitVec 16) (s : State) : Host.Outcome State Fault Refusal :=
  .next (s.runAt dt fun d => d.coreRun c g (.wide 0x0E wd.val imm.toNat))

/-- SHF (R370). -/
def execShf (dt : Nat) (c : Fin 5) (g : Fin 16) (sf : Bool) (wd : Fin 16) (wa : Fin 16) (kind : Fin 4) (count : DCnt) (s : State) : Host.Outcome State Fault Refusal :=
  .next (s.runAt dt fun d => d.coreRun c g (.shf sf wd.val wa.val kind.val count.src))

end Sys2Proof.Machine
end

