-- ==== Sys2Proof/Machine/CoreFlow.lean ====
section
/-! DEFINITION. D32 branches, system instructions, traps, debug and the decode table (R362, R363, R367 to R388): the meaning of each command. -/

namespace Sys2Proof.Machine

/-- B (R367). -/
def execB (dt : Nat) (c : Fin 5) (g : Fin 16) (link : Bool) (ofs : BitVec 21) (s : State) : Host.Outcome State Fault Refusal :=
  .next (s.runAt dt fun d => d.coreRun c g (.branch link ofs.toNat))

/-- BR (R367). -/
def execBr (dt : Nat) (c : Fin 5) (g : Fin 16) (link : Bool) (wa : Fin 16) (s : State) : Host.Outcome State Fault Refusal :=
  .next (s.runAt dt fun d => d.coreRun c g (.branchReg link wa.val))

/-- SWI (R377). -/
def execSwi (dt : Nat) (c : Fin 5) (g : Fin 16) (imm : BitVec 14) (s : State) : Host.Outcome State Fault Refusal :=
  .next (s.runAt dt fun d => d.coreRun c g (.sys 0 imm.toNat))

/-- RTE (R377). -/
def execRte (dt : Nat) (c : Fin 5) (g : Fin 16) (imm : BitVec 14) (s : State) : Host.Outcome State Fault Refusal :=
  .next (s.runAt dt fun d => d.coreRun c g (.sys 1 imm.toNat))

/-- WAIT (R378). -/
def execWait (dt : Nat) (c : Fin 5) (g : Fin 16) (imm : BitVec 14) (s : State) : Host.Outcome State Fault Refusal :=
  .next (s.runAt dt fun d => d.coreRun c g (.sys 2 imm.toNat))

/-- WAIT_WAKE (R378). -/
def execWaitWake (dt : Nat) (c : Fin 5) (s : State) : Host.Outcome State Fault Refusal :=
  .next (s.runAt dt fun d => d.waitWake c)

/-- BKPT (R377). -/
def execBkpt (dt : Nat) (c : Fin 5) (g : Fin 16) (imm : BitVec 14) (s : State) : Host.Outcome State Fault Refusal :=
  .next (s.runAt dt fun d => d.coreRun c g (.sys 4 imm.toNat))

/-- MFS (R363). -/
def execMfs (dt : Nat) (c : Fin 5) (g : Fin 16) (wd : Fin 16) (index : BitVec 8) (s : State) : Host.Outcome State Fault Refusal :=
  .next (s.runAt dt fun d => d.coreRun c g (.mfs wd.val index.toNat))

/-- MTS (R363). -/
def execMts (dt : Nat) (c : Fin 5) (g : Fin 16) (wa : Fin 16) (index : BitVec 8) (s : State) : Host.Outcome State Fault Refusal :=
  .next (s.runAt dt fun d => d.coreRun c g (.mts wa.val index.toNat))

/-- D16_SEQUENCE (R379). -/
def execD16Sequence (dt : Nat) (c : Fin 5) (w : Word) (s : State) : Host.Outcome State Fault Refusal :=
  .next (s.runAt dt fun d => d.d16 c w.toNat)

/-- CORE_IRQ_TAKEN (R378). -/
def execCoreIrqTaken (dt : Nat) (c : Fin 5) (s : State) : Host.Outcome State Fault Refusal :=
  .next (s.runAt dt fun d => d.coreIrq c)

/-- WDOG_KICK (R382). -/
def execWdogKick (dt : Nat) (i : StrandId) (v : Word) (s : State) : Host.Outcome State Fault Refusal :=
  .next (s.runAt dt fun d => d.placeWrite (.core i) (.strand i Reg.CORE_WDOG_KICK) v.toNat)

/-- HALT (R383). -/
def execHalt (dt : Nat) (i : StrandId) (s : State) : Host.Outcome State Fault Refusal :=
  .next (s.runAt dt fun d => d.placeWrite .loupe (.strand i Reg.CORE_CMD) 2)

/-- RESUME (R383). -/
def execResume (dt : Nat) (i : StrandId) (s : State) : Host.Outcome State Fault Refusal :=
  .next (s.runAt dt fun d => d.placeWrite .loupe (.strand i Reg.CORE_CMD) 4)

/-- CORE_STEP (R384). -/
def execCoreStep (dt : Nat) (i : StrandId) (s : State) : Host.Outcome State Fault Refusal :=
  .next (s.runAt dt fun d => d.coreStep i)

/-- BREAKPOINT_HIT (R383). -/
def execBreakpointHit (dt : Nat) (i : StrandId) (s : State) : Host.Outcome State Fault Refusal :=
  .next (s.runAt dt fun d => d.breakpoint i)

/-- RESERVED_ENCODING (R368). -/
def execReservedEncoding (dt : Nat) (c : Fin 5) (w : Word) (s : State) : Host.Outcome State Fault Refusal :=
  .next (s.runAt dt fun d => d.reservedEncoding c w.toNat)

end Sys2Proof.Machine
end

