-- ==== Sys2Proof/Machine/CoreMath.lean ====
section
/-! DEFINITION. D32 multiply, divide and decimal (R365, R369, R370): the meaning of each command. -/

namespace Sys2Proof.Machine

/-- MUL (R374). -/
def execMul (dt : Nat) (c : Fin 5) (g : Fin 16) (sf : Bool) (wa : Fin 16) (wb : Fin 16) (s : State) : Host.Outcome State Fault Refusal :=
  .next (s.runAt dt fun d => d.coreRun c g (.mulDiv 0x1D sf wa.val wb.val))

/-- MULS (R374). -/
def execMuls (dt : Nat) (c : Fin 5) (g : Fin 16) (sf : Bool) (wa : Fin 16) (wb : Fin 16) (s : State) : Host.Outcome State Fault Refusal :=
  .next (s.runAt dt fun d => d.coreRun c g (.mulDiv 0x1E sf wa.val wb.val))

/-- MUL_RESULT (R374). -/
def execMulResult (dt : Nat) (c : Fin 5) (s : State) : Host.Outcome State Fault Refusal :=
  .next (s.runAt dt fun d => d.mulResult c)

/-- DIV (R375). -/
def execDiv (dt : Nat) (c : Fin 5) (g : Fin 16) (sf : Bool) (wa : Fin 16) (wb : Fin 16) (s : State) : Host.Outcome State Fault Refusal :=
  .next (s.runAt dt fun d => d.coreRun c g (.mulDiv 0x1F sf wa.val wb.val))

/-- DIVS (R375). -/
def execDivs (dt : Nat) (c : Fin 5) (g : Fin 16) (sf : Bool) (wa : Fin 16) (wb : Fin 16) (s : State) : Host.Outcome State Fault Refusal :=
  .next (s.runAt dt fun d => d.coreRun c g (.mulDiv 0x20 sf wa.val wb.val))

/-- DIV_RESULT (R374). -/
def execDivResult (dt : Nat) (c : Fin 5) (s : State) : Host.Outcome State Fault Refusal :=
  .next (s.runAt dt fun d => d.divResult c)

/-- BADD (R373). -/
def execBadd (dt : Nat) (c : Fin 5) (g : Fin 16) (sf : Bool) (wd : Fin 16) (wa : Fin 16) (wb : Fin 16) (s : State) : Host.Outcome State Fault Refusal :=
  .next (s.runAt dt fun d => d.coreRun c g (.decimal 0x21 sf wd.val wa.val wb.val))

/-- BSUB (R373). -/
def execBsub (dt : Nat) (c : Fin 5) (g : Fin 16) (sf : Bool) (wd : Fin 16) (wa : Fin 16) (wb : Fin 16) (s : State) : Host.Outcome State Fault Refusal :=
  .next (s.runAt dt fun d => d.coreRun c g (.decimal 0x22 sf wd.val wa.val wb.val))

/-- DADJ (R373). -/
def execDadj (dt : Nat) (c : Fin 5) (g : Fin 16) (sf : Bool) (wd : Fin 16) (wa : Fin 16) (s : State) : Host.Outcome State Fault Refusal :=
  .next (s.runAt dt fun d => d.coreRun c g (.decimal 0x23 sf wd.val wa.val 0))

/-- BTOB (R373). -/
def execBtob (dt : Nat) (c : Fin 5) (g : Fin 16) (sf : Bool) (wd : Fin 16) (wa : Fin 16) (s : State) : Host.Outcome State Fault Refusal :=
  .next (s.runAt dt fun d => d.coreRun c g (.decimal 0x24 sf wd.val wa.val 0))

/-- BFROMB (R373). -/
def execBfromb (dt : Nat) (c : Fin 5) (g : Fin 16) (sf : Bool) (wd : Fin 16) (wa : Fin 16) (s : State) : Host.Outcome State Fault Refusal :=
  .next (s.runAt dt fun d => d.coreRun c g (.decimal 0x25 sf wd.val wa.val 0))

end Sys2Proof.Machine
end

