-- ==== Sys2Proof/Machine/CoreMem.lean ====
section
/-! DEFINITION. D32 loads, stores and the write buffer (R371, R372): the meaning of each command. -/

namespace Sys2Proof.Machine

/-- LDW (R371). -/
def execLdw (dt : Nat) (c : Fin 5) (g : Fin 16) (wd : Fin 16) (wa : Fin 16) (mode : DMode) (s : State) : Host.Outcome State Fault Refusal :=
  .next (s.runAt dt fun d => d.coreRun c g (.load 0x10 wd.val wa.val mode.mode))

/-- LDH (R365). -/
def execLdh (dt : Nat) (c : Fin 5) (g : Fin 16) (wd : Fin 16) (wa : Fin 16) (mode : DMode) (s : State) : Host.Outcome State Fault Refusal :=
  .next (s.runAt dt fun d => d.coreRun c g (.load 0x11 wd.val wa.val mode.mode))

/-- LDHS (R365). -/
def execLdhs (dt : Nat) (c : Fin 5) (g : Fin 16) (wd : Fin 16) (wa : Fin 16) (mode : DMode) (s : State) : Host.Outcome State Fault Refusal :=
  .next (s.runAt dt fun d => d.coreRun c g (.load 0x12 wd.val wa.val mode.mode))

/-- LDB (R365). -/
def execLdb (dt : Nat) (c : Fin 5) (g : Fin 16) (wd : Fin 16) (wa : Fin 16) (mode : DMode) (s : State) : Host.Outcome State Fault Refusal :=
  .next (s.runAt dt fun d => d.coreRun c g (.load 0x13 wd.val wa.val mode.mode))

/-- LDBS (R365). -/
def execLdbs (dt : Nat) (c : Fin 5) (g : Fin 16) (wd : Fin 16) (wa : Fin 16) (mode : DMode) (s : State) : Host.Outcome State Fault Refusal :=
  .next (s.runAt dt fun d => d.coreRun c g (.load 0x14 wd.val wa.val mode.mode))

/-- STW (R372). -/
def execStw (dt : Nat) (c : Fin 5) (g : Fin 16) (wd : Fin 16) (wa : Fin 16) (mode : DMode) (s : State) : Host.Outcome State Fault Refusal :=
  .next (s.runAt dt fun d => d.coreRun c g (.store 0x15 wd.val wa.val mode.mode))

/-- STH (R372). -/
def execSth (dt : Nat) (c : Fin 5) (g : Fin 16) (wd : Fin 16) (wa : Fin 16) (mode : DMode) (s : State) : Host.Outcome State Fault Refusal :=
  .next (s.runAt dt fun d => d.coreRun c g (.store 0x16 wd.val wa.val mode.mode))

/-- STB (R372). -/
def execStb (dt : Nat) (c : Fin 5) (g : Fin 16) (wd : Fin 16) (wa : Fin 16) (mode : DMode) (s : State) : Host.Outcome State Fault Refusal :=
  .next (s.runAt dt fun d => d.coreRun c g (.store 0x17 wd.val wa.val mode.mode))

/-- WB_DRAIN (R372). -/
def execWbDrain (dt : Nat) (c : Fin 5) (s : State) : Host.Outcome State Fault Refusal :=
  .next (s.runAt dt fun d => d.wbDrain c)

/-- BARRIER (R372). -/
def execBarrier (dt : Nat) (c : Fin 5) (g : Fin 16) (imm : BitVec 14) (s : State) : Host.Outcome State Fault Refusal :=
  .next (s.runAt dt fun d => d.coreRun c g (.sys 3 imm.toNat))

end Sys2Proof.Machine
end

