-- ==== Sys2Proof/Machine/DmaFam.lean ====
section
/-! DEFINITION. The DMA rings and the command queues (R281 to R312): the meaning of each command. -/

namespace Sys2Proof.Machine

/-- RING_TAIL_WRITE (R282). -/
def execRingTailWrite (dt : Nat) (m : Master) (i : StrandId) (r : Fin 32) (v : BitVec 16) (s : State) : Host.Outcome State Fault Refusal :=
  .next (s.runAt dt fun d => d.placeWrite m (.strand i (ringPage r.val + 0x10)) v.toNat)

/-- OWN_RECHECK (R284). -/
def execOwnRecheck (dt : Nat) (i : StrandId) (r : Fin 32) (words : List Word) (s : State) : Host.Outcome State Fault Refusal :=
  .next (s.runAt dt fun d => d.onActive i fun s => s.ownRecheck r.val words)

/-- TX_ITEM_FETCH (R286). -/
def execTxItemFetch (dt : Nat) (i : StrandId) (r : Fin 16) (s : State) : Host.Outcome State Fault Refusal :=
  .next (s.runAt dt fun d => d.onActive i fun s => s.itemFetch r.val)

/-- HOST_READ_COMPLETION (R304). -/
def execHostReadCompletion (dt : Nat) (i : StrandId) (tag : Nat) (status : Nat) (data : List Byte) (s : State) : Host.Outcome State Fault Refusal :=
  .next (s.runAt dt fun d => d.onActive i fun s => s.readComplete tag status data)

/-- TX_COMMIT (R291). -/
def execTxCommit (dt : Nat) (i : StrandId) (r : Fin 16) (s : State) : Host.Outcome State Fault Refusal :=
  .next (s.runAt dt fun d => d.onActive i fun s => s.txCommit r.val)

/-- RX_RING_DELIVER (R288). -/
def execRxRingDeliver (dt : Nat) (i : StrandId) (r : Fin 16) (s : State) : Host.Outcome State Fault Refusal :=
  .next (s.runAt dt fun d => d.onActive i fun s => s.rxDeliver (16 + r.val))

/-- RX_HOLD_EXPIRY (R298). -/
def execRxHoldExpiry (dt : Nat) (i : StrandId) (r : Fin 16) (s : State) : Host.Outcome State Fault Refusal :=
  .next (s.runAt dt fun d => d.onActive i fun s => s.rxHoldExpiry (16 + r.val))

/-- COMPLETION_WRITE (R295). -/
def execCompletionWrite (dt : Nat) (i : StrandId) (r : Fin 16) (s : State) : Host.Outcome State Fault Refusal :=
  .next (s.runAt dt fun d => d.onActive i fun s => s.completionWrite r.val)

/-- READBACK_RETURN (R296). -/
def execReadbackReturn (dt : Nat) (w : BackOf) (s : State) : Host.Outcome State Fault Refusal :=
  .next (s.runAt dt fun d => d.readbackReturn w)

/-- CQ_HEAD_WRITE (R294). -/
def execCqHeadWrite (dt : Nat) (m : Master) (i : StrandId) (c : Fin 8) (v : Word) (s : State) : Host.Outcome State Fault Refusal :=
  .next (s.runAt dt fun d => d.placeWrite m (.strand i (Reg.CQ_HEAD c.val)) v.toNat)

/-- CQ_ENABLE (R310). -/
def execCqEnable (dt : Nat) (m : Master) (i : StrandId) (c : Fin 8) (s : State) : Host.Outcome State Fault Refusal :=
  .next (s.runAt dt fun d => d.placeWrite m (.strand i (Reg.CQ_CTL c.val)) 1)

/-- CQ_POST (R297). -/
def execCqPost (dt : Nat) (i : StrandId) (v : Word) (s : State) : Host.Outcome State Fault Refusal :=
  .next (s.runAt dt fun d => d.placeWrite (.core i) (.strand i Reg.DMA_CQ_POST) v.toNat)

/-- DMA_ABORT (R302). -/
def execDmaAbort (dt : Nat) (m : Master) (i : StrandId) (v : Word) (s : State) : Host.Outcome State Fault Refusal :=
  .next (s.runAt dt fun d => d.placeWrite m (.strand i Reg.DMA_ABORT) v.toNat)

/-- RING_ENABLE (R307). -/
def execRingEnable (dt : Nat) (m : Master) (i : StrandId) (r : Fin 32) (s : State) : Host.Outcome State Fault Refusal :=
  .next (s.runAt dt fun d => d.placeWrite m (.strand i (ringPage r.val + 0x0C)) 1)

/-- RING_DISABLE (R307). -/
def execRingDisable (dt : Nat) (m : Master) (i : StrandId) (r : Fin 32) (s : State) : Host.Outcome State Fault Refusal :=
  .next (s.runAt dt fun d => d.placeWrite m (.strand i (ringPage r.val + 0x0C)) 0)

/-- IDX_CLEAR (R352). -/
def execIdxClear (dt : Nat) (m : Master) (i : StrandId) (r : Fin 32) (en : Bool) (s : State) : Host.Outcome State Fault Refusal :=
  .next (s.runAt dt fun d => d.placeWrite m (.strand i (ringPage r.val + 0x0C)) (2 + b2n en))

/-- CMD_ACCEPT (R349). -/
def execCmdAccept (dt : Nat) (i : StrandId) (q : Fin 4) (s : State) : Host.Outcome State Fault Refusal :=
  .next (s.runAt dt fun d => d.placeWrite (.core i) (.strand i Reg.CMDACC_GO) (0x10 + q.val))

/-- CMD_START (R349). -/
def execCmdStart (dt : Nat) (i : StrandId) (q : Fin 4) (s : State) : Host.Outcome State Fault Refusal :=
  .next (s.runAt dt fun d => d.placeWrite (.core i) (.strand i Reg.CMDACC_GO) (0x20 + q.val))

end Sys2Proof.Machine
end

