-- ==== Sys2Proof/Machine/FiligreeFam.lean ====
section
/-! DEFINITION. The Filigree (R214 to R249): the meaning of each command. -/

namespace Sys2Proof.Machine

/-- CT_NOW_READ (R221). -/
def execCtNowRead (dt : Nat) (m : Master) (i : StrandId) (s : State) : Host.Outcome State Fault Refusal :=
  .next (s.runAt dt fun d => d.placeRead m (.strand i Reg.CT_NOW_NS))

/-- ROW_START (R230). -/
def execRowStart (dt : Nat) (i : StrandId) (s : State) : Host.Outcome State Fault Refusal :=
  .next (s.runAt dt fun d => d.onActive i fun s => s.rowStart.mapFiligree)

/-- WIN_STAGE (R224). -/
def execWinStage (dt : Nat) (i : StrandId) (k : Fin 128) (s : State) : Host.Outcome State Fault Refusal :=
  .next (s.runAt dt fun d => d.onActive i fun s => (s.winStage k.val).startItems (s.fld (Reg.WIN_W2 k.val) 13 10))

/-- WIN_START (R223). -/
def execWinStart (dt : Nat) (i : StrandId) (k : Fin 128) (s : State) : Host.Outcome State Fault Refusal :=
  .next (s.runAt dt fun d => d.onActive i fun s => s.winOpen k.val)

/-- WIN_ACTION (R225). -/
def execWinAction (dt : Nat) (i : StrandId) (k : Fin 128) (s : State) : Host.Outcome State Fault Refusal :=
  .next (s.runAt dt fun d => d.onActive i fun s => s.winAct k.val)

/-- ALIGN_RX (R230). -/
def execAlignRx (dt : Nat) (i : StrandId) (p : Fin 4) (bytes : List Byte) (s : State) : Host.Outcome State Fault Refusal :=
  .next (s.runAt dt fun d => d.onActive i fun s => s.alignRx p.val bytes (s.flgWhenEnd p.val bytes))

/-- ALIGN_TIMEOUT (R231). -/
def execAlignTimeout (dt : Nat) (i : StrandId) (s : State) : Host.Outcome State Fault Refusal :=
  .next (s.runAt dt fun d => d.onActive i fun s => s.flgAlignTimeout)

/-- RESYNC (R231). -/
def execResync (dt : Nat) (m : Master) (i : StrandId) (s : State) : Host.Outcome State Fault Refusal :=
  .next (s.runAt dt fun d => d.placeWrite m (.strand i Reg.FLG_CMD) 2)

/-- FLG_DATA_RX (R220). -/
def execFlgDataRx (dt : Nat) (i : StrandId) (p : Fin 4) (bytes : List Byte) (s : State) : Host.Outcome State Fault Refusal :=
  .next (s.runAt dt fun d => d.onActive i fun s => s.flgDataRx p.val bytes)

/-- RTT_REQ_SEND (R229). -/
def execRttReqSend (dt : Nat) (i : StrandId) (s : State) : Host.Outcome State Fault Refusal :=
  .next (s.runAt dt fun d => d.onActive i fun s => s.rttReqSend)

/-- RTT_RESP_SEND (R228). -/
def execRttRespSend (dt : Nat) (i : StrandId) (p : Fin 4) (s : State) : Host.Outcome State Fault Refusal :=
  .next (s.runAt dt fun d => d.onActive i fun s => s.rttRespSend p.val)

/-- RTT_MEASURE (R229). -/
def execRttMeasure (dt : Nat) (i : StrandId) (p : Fin 4) (bytes : List Byte) (s : State) : Host.Outcome State Fault Refusal :=
  .next (s.runAt dt fun d => d.onActive i fun s => s.rttMeasure p.val bytes (s.flgWhenEnd p.val bytes))

/-- RTT_ABANDON (R229). -/
def execRttAbandon (dt : Nat) (i : StrandId) (p : Fin 4) (s : State) : Host.Outcome State Fault Refusal :=
  .next (s.runAt dt fun d => d.onActive i fun s => s.rttAbandon p.val)

/-- BEZEL_DECIDE (R233). -/
def execBezelDecide (dt : Nat) (i : StrandId) (p : Fin 4) (bytes : List Byte) (bad : Bool) (s : State) : Host.Outcome State Fault Refusal :=
  .next (s.runAt dt fun d => d.onActive i fun s => s.bezelDecide p.val bytes bad)

/-- BEZEL_CUT (R234). -/
def execBezelCut (dt : Nat) (i : StrandId) (p : Fin 4) (s : State) : Host.Outcome State Fault Refusal :=
  .next (s.runAt dt fun d => d.onActive i fun s => s.bezelCut p.val)

/-- ARB_FORWARD (R235). -/
def execArbForward (dt : Nat) (i : StrandId) (s : State) : Host.Outcome State Fault Refusal :=
  .next (s.runAt dt fun d => d.onActive i fun s => s.arbForward)

/-- UNFENCE (R234). -/
def execUnfence (dt : Nat) (m : Master) (i : StrandId) (p : Fin 4) (s : State) : Host.Outcome State Fault Refusal :=
  .next (s.runAt dt fun d => d.placeWrite m (.strand i Reg.FLG_CMD) (2 ^ (4 + p.val)))

/-- DEV_CLEAR (R236). -/
def execDevClear (dt : Nat) (m : Master) (i : StrandId) (s : State) : Host.Outcome State Fault Refusal :=
  .next (s.runAt dt fun d => d.placeWrite m (.strand i Reg.FLG_CMD) 4)

end Sys2Proof.Machine
end

