-- ==== Sys2Proof/Machine/HallmarkFam.lean ====
section
/-! DEFINITION. Hallmark, life cycle and tamper (R400 to R409): the meaning of each command. -/

namespace Sys2Proof.Machine

/-- HM_WIPE (R403). -/
def execHmWipe (dt : Nat) (s : State) : Host.Outcome State Fault Refusal :=
  .next (s.runAt dt fun d => d.placeWrite .loupe (.loupe Reg.HM_CMD) 1)

/-- LC_ADVANCE_WRITE (R404). -/
def execLcAdvanceWrite (dt : Nat) (v : Word) (s : State) : Host.Outcome State Fault Refusal :=
  .next (s.runAt dt fun d => d.placeWrite .loupe (.loupe Reg.LC_ADVANCE) v.toNat)

/-- TAMPER (R402). -/
def execTamper (dt : Nat) (source : Fin 4) (s : State) : Host.Outcome State Fault Refusal :=
  .next (s.runAt dt fun d => d.tamper source.val)

/-- WIPE_COMPLETE (R403). -/
def execWipeComplete (dt : Nat) (s : State) : Host.Outcome State Fault Refusal :=
  .next (s.runAt dt fun d => d.wipeComplete)

/-- LIFE_CYCLE_FUSES_PROGRAMMED (R404). -/
def execLifeCycleFusesProgrammed (dt : Nat) (s : State) : Host.Outcome State Fault Refusal :=
  .next (s.runAt dt fun d => d.fusesDone)

end Sys2Proof.Machine
end

