-- ==== Sys2Proof/Machine/LocketFam.lean ====
section
/-! DEFINITION. The Lockets (R410 to R427): the meaning of each command. -/

namespace Sys2Proof.Machine

/-- LOCKET_POST (R413). -/
def execLocketPost (dt : Nat) (m : Master) (c : Fin 64) (hi : Word) (s : State) : Host.Outcome State Fault Refusal :=
  .next (s.runAt dt fun d => d.placeWrite m (.locket c.val Reg.TX_HI) hi.toNat)

/-- RX_HI_READ (R415). -/
def execRxHiRead (dt : Nat) (m : Master) (c : Fin 64) (s : State) : Host.Outcome State Fault Refusal :=
  .next (s.runAt dt fun d => d.placeRead m (.locket c.val Reg.RX_HI))

/-- LOCKET_ACK (R415). -/
def execLocketAck (dt : Nat) (m : Master) (c : Fin 64) (s : State) : Host.Outcome State Fault Refusal :=
  .next (s.runAt dt fun d => d.placeWrite m (.locket c.val Reg.RX_ACK) 1)

/-- LOCKET_TIMEOUT (R417). -/
def execLocketTimeout (dt : Nat) (c : Fin 64) (id : Fin 8) (s : State) : Host.Outcome State Fault Refusal :=
  .next (s.runAt dt fun d => d.lktTimeout c.val id.val)

end Sys2Proof.Machine
end

