-- ==== Sys2Proof/Machine/LoupeFam.lean ====
section
/-! DEFINITION. The Loupe: sensors, wear, log and time (R428 to R453): the meaning of each command. -/

namespace Sys2Proof.Machine

/-- TEMP_SAMPLE (R432). -/
def execTempSample (dt : Nat) (readings : List Int) (s : State) : Host.Outcome State Fault Refusal :=
  .next (s.runAt dt fun d => d.tempSample readings)

/-- RAIL_SAMPLE (R431). -/
def execRailSample (dt : Nat) (i : StrandId) (core : Nat) (serdes : Nat) (s : State) : Host.Outcome State Fault Refusal :=
  .next (s.runAt dt fun d => d.railSample i core serdes)

/-- WEAR_MEASURE (R434). -/
def execWearMeasure (dt : Nat) (i : StrandId) (r1 : Nat) (r2 : Nat) (r3 : Nat) (s : State) : Host.Outcome State Fault Refusal :=
  .next (s.runAt dt fun d => d.wearMeasure i r1 r2 r3)

/-- EQH_UPDATE (R434). -/
def execEqhUpdate (dt : Nat) (s : State) : Host.Outcome State Fault Refusal :=
  .next (s.runAt dt fun d => d.eqhUpdate)

/-- WEAR_RECORD_WRITE (R433). -/
def execWearRecordWrite (dt : Nat) (s : State) : Host.Outcome State Fault Refusal :=
  .next (s.runAt dt fun d => d.wearRecordWrite)

/-- LOG_FLUSH (R439). -/
def execLogFlush (dt : Nat) (failA : Nat) (failB : Nat) (s : State) : Host.Outcome State Fault Refusal :=
  .next (s.runAt dt fun d => d.logFlush failA failB)

/-- LOUPE_TIME_COPY (R440). -/
def execLoupeTimeCopy (dt : Nat) (s : State) : Host.Outcome State Fault Refusal :=
  .next (s.runAt dt fun d => d.timeCopy)

/-- TIME_UNC_TIMEOUT (R440). -/
def execTimeUncTimeout (dt : Nat) (s : State) : Host.Outcome State Fault Refusal :=
  .next (s.runAt dt fun d => d.timeUncTimeout)

/-- NONCE_EXPIRY (R445). -/
def execNonceExpiry (dt : Nat) (s : State) : Host.Outcome State Fault Refusal :=
  .next (s.runAt dt fun d => d.nonceExpiry)

/-- REQ_LEN_WRITE (R450). -/
def execReqLenWrite (dt : Nat) (b : Bool) (len : Nat) (s : State) : Host.Outcome State Fault Refusal :=
  .next (s.runAt dt fun d => d.reqLenWrite b len)

/-- NGUFOTU_MESSAGE (R444). -/
def execNgufotuMessage (dt : Nat) (path : Nat) (txn : Nat) (kind : MsgKind) (s : State) : Host.Outcome State Fault Refusal :=
  .next (s.runAt dt fun d => d.nguMessage path txn kind)

/-- SERVICE_PORT_LINK_CHANGE (R443). -/
def execServicePortLinkChange (dt : Nat) (up : Bool) (s : State) : Host.Outcome State Fault Refusal :=
  .next (s.runAt dt fun d => d.svcLink up)

end Sys2Proof.Machine
end

