-- ==== Sys2Proof/Machine/MapperFam.lean ====
section
/-! DEFINITION. The mapper (R264 to R280): the meaning of each command. -/

namespace Sys2Proof.Machine

/-- MAP_RUN (R268). -/
def execMapRun (dt : Nat) (m : Master) (i : StrandId) (s : State) : Host.Outcome State Fault Refusal :=
  .next (s.runAt dt fun d => d.placeWrite m (.strand i Reg.MAP_CMD) 2)

/-- MAP_TIME_TRIGGER (R268). -/
def execMapTimeTrigger (dt : Nat) (i : StrandId) (s : State) : Host.Outcome State Fault Refusal :=
  .next (s.runAt dt fun d => d.onActive i fun s => s.mapTime)

/-- MAP_RUN_DONE (R264). -/
def execMapRunDone (dt : Nat) (i : StrandId) (waits : Nat) (s : State) : Host.Outcome State Fault Refusal :=
  .next (s.runAt dt fun d => d.onActive i fun s => s.mapRunDone waits)

/-- SM_EVENT (R276). -/
def execSmEvent (dt : Nat) (i : StrandId) (c : Nat) (s : State) : Host.Outcome State Fault Refusal :=
  .next (s.runAt dt fun d => d.onActive i fun s => s.smEvent c)

/-- CTX_TIMEOUT (R276). -/
def execCtxTimeout (dt : Nat) (i : StrandId) (c : Nat) (s : State) : Host.Outcome State Fault Refusal :=
  .next (s.runAt dt fun d => d.onActive i fun s => s.ctxTimeout c)

end Sys2Proof.Machine
end

