-- ==== Sys2Proof/Machine/NgufotuFam.lean ====
section
/-! DEFINITION. Ngufotu operations (R441 to R450): the meaning of each command. -/

namespace Sys2Proof.Machine

/-- GET_IDENTITY (R448). -/
def execGetIdentity (h : NguHdr) (s : State) : Host.Outcome State Fault Refusal :=
  .next (s.runAt h.gap fun d => d.ngu h 0x0001 true { status := fun _ => 0, body := fun e => e.identityBody, act := fun e => e })

/-- GET_STATUS (R448). -/
def execGetStatus (h : NguHdr) (s : State) : Host.Outcome State Fault Refusal :=
  .next (s.runAt h.gap fun d => d.ngu h 0x0002 true { status := fun _ => 0, body := fun e => e.statusBody, act := fun e => e })

/-- GET_NONCE (R445). -/
def execGetNonce (h : NguHdr) (s : State) : Host.Outcome State Fault Refusal :=
  .next (s.runAt h.gap fun d =>
    d.ngu h 0x0003 true { status := fun _ => 0, body := fun e => beBytes 4 (Config.nonce e.loupe.nonces).toNat, act := Dev.issueNonce })

/-- READ_REG (R448). -/
def execReadReg (h : NguHdr) (a : Nat) (n : Nat) (s : State) : Host.Outcome State Fault Refusal :=
  .next (s.runAt h.gap fun d =>
    d.ngu h 0x0004 true { status := fun _ => readRegStatus a n, body := fun e => (e.readWords a n).1.flatMap wordBE, act := fun e => (e.readWords a n).2 })

/-- READ_LOG (R448). -/
def execReadLog (h : NguHdr) (first : Nat) (n : Nat) (s : State) : Host.Outcome State Fault Refusal :=
  .next (s.runAt h.gap fun d =>
    d.ngu h 0x0005 true { status := fun e => e.readLogStatus first n, body := fun e => e.readLogBody first n, act := fun e => e })

/-- READ_SENSORS (R448). -/
def execReadSensors (h : NguHdr) (s : State) : Host.Outcome State Fault Refusal :=
  .next (s.runAt h.gap fun d => d.ngu h 0x0006 true { status := fun _ => 0, body := fun e => e.sensorBody, act := fun e => e })

/-- READ_WEAR (R448). -/
def execReadWear (h : NguHdr) (s : State) : Host.Outcome State Fault Refusal :=
  .next (s.runAt h.gap fun d => d.ngu h 0x0007 true { status := fun _ => 0, body := fun e => e.wearBody, act := fun e => e })

/-- READ_LOAD_RECORD (R256). -/
def execReadLoadRecord (h : NguHdr) (i : StrandId) (s : State) : Host.Outcome State Fault Refusal :=
  .next (s.runAt h.gap fun d => d.ngu h 0x0008 true { status := fun _ => 0, body := fun e => e.loadBody i, act := fun e => e })

/-- NGU_SNAP (R448). -/
def execNguSnap (h : NguHdr) (u : SnapUnit) (s : State) : Host.Outcome State Fault Refusal :=
  .next (s.runAt h.gap fun d =>
    d.ngu h 0x0100 false { status := fun _ => 0, body := fun e => e.snapBody u, act := fun e => e.snap .loupe u })

/-- FENCE (R34). (DEDUCED, unsafe: log entry 207.) -/
def execFence (h : NguHdr) (i : StrandId) (s : State) : Host.Outcome State Fault Refusal :=
  .next (s.runAt h.gap fun d =>
    d.nguCmd h 0x0101 (fun e => modeIf (e.phase i != .off && e.phase i != .fenced)) (fun e => e.fenceOut i 12 0x0115))

/-- REJOIN (R36). -/
def execRejoin (h : NguHdr) (i : StrandId) (s : State) : Host.Outcome State Fault Refusal :=
  .next (s.runAt h.gap fun d => d.nguCmd h 0x0102 (fun e => modeIf (e.mode = 8 && e.phase i = .fenced)) (fun e => e.rejoin i))

/-- SAFE_HOLD (R44). -/
def execSafeHold (h : NguHdr) (s : State) : Host.Outcome State Fault Refusal :=
  .next (s.runAt h.gap fun d => d.nguCmd h 0x0103 (fun e => modeIf (e.inBase || e.mode = 8)) (fun e => e.enterHold .safeHold))

/-- RELEASE (R45). -/
def execRelease (h : NguHdr) (s : State) : Host.Outcome State Fault Refusal :=
  .next (s.runAt h.gap fun d => d.nguCmd h 0x0104 (fun e => modeIf e.mayRelease) (Dev.releaseHold))

/-- RESTART (R44). -/
def execRestart (h : NguHdr) (start : StartIn) (s : State) : Host.Outcome State Fault Refusal :=
  .next (s.runAt h.gap fun d => d.nguCmd h 0x0105 (fun e => modeIf e.running) (fun e => e.t19 start))

/-- SHUTDOWN (R44). (DEDUCED, unsafe: log entry 207.) -/
def execShutdown (h : NguHdr) (s : State) : Host.Outcome State Fault Refusal :=
  .next (s.runAt h.gap fun d => d.nguCmd h 0x0106 (fun e => if 2 ≤ h.path then 8 else modeIf e.running) (Dev.shutdown))

/-- RECOVER (R44). -/
def execRecover (h : NguHdr) (s : State) : Host.Outcome State Fault Refusal :=
  .next (s.runAt h.gap fun d => d.nguCmd h 0x0107 (fun e => modeIf (e.mode = 10 && e.hm.lc != 3)) (Dev.recover))

/-- CLASP_RESTART (R332). -/
def execClaspRestart (h : NguHdr) (s : State) : Host.Outcome State Fault Refusal :=
  .next (s.runAt h.gap fun d => d.nguCmd h 0x0108 (fun _ => 0) (Dev.claspRestart))

/-- NGU_STRAND_WARM (R508). -/
def execNguStrandWarm (h : NguHdr) (i : StrandId) (s : State) : Host.Outcome State Fault Refusal :=
  .next (s.runAt h.gap fun d =>
    d.nguCmd h 0x0109 (fun e => modeIf (e.phase i != .off && e.phase i != .fenced)) (fun e => e.loupeWarm i))

/-- NGU_STRAND_COLD (R448). -/
def execNguStrandCold (h : NguHdr) (i : StrandId) (s : State) : Host.Outcome State Fault Refusal :=
  .next (s.runAt h.gap fun d => d.nguCmd h 0x010A (fun _ => 0) (fun e => e.loupeCold i))

/-- NGU_LOUPE_RESET (R448). -/
def execNguLoupeReset (h : NguHdr) (s : State) : Host.Outcome State Fault Refusal :=
  .next (s.runAt h.gap fun d => d.nguCmd h 0x010B (fun _ => 0) (Dev.resetCommand))

/-- SET_TIME (R440).  (DEDUCED, unsafe: log entry 142.) -/
def execSetTime (h : NguHdr) (ns : Nat) (s : State) : Host.Outcome State Fault Refusal :=
  .next (s.runAt h.gap fun d => d.nguCmd h 0x010C (fun _ => 0) (fun e => e.setLoupeTime ns))

end Sys2Proof.Machine
end

