-- ==== Sys2Proof/Machine/PackageFam.lean ====
section
/-! DEFINITION. Package actions (R250 to R263): the meaning of each command. -/

namespace Sys2Proof.Machine

/-- PKG_GET_STATUS (R255). -/
def execPkgGetStatus (dt : Nat) (i : StrandId) (k : Nat) (block : Nat) (s : State) : Host.Outcome State Fault Refusal :=
  .next (s.runAt dt fun d => d.onStrand i fun s => s.pkgGetStatus k block)

/-- GO_OPERATIONAL (R255). -/
def execGoOperational (dt : Nat) (i : StrandId) (k : Nat) (block : Nat) (s : State) : Host.Outcome State Fault Refusal :=
  .next (s.runAt dt fun d => d.onStrand i fun s => s.pkgGo k block true)

/-- GO_STOPPED (R255). -/
def execGoStopped (dt : Nat) (i : StrandId) (k : Nat) (block : Nat) (s : State) : Host.Outcome State Fault Refusal :=
  .next (s.runAt dt fun d => d.onStrand i fun s => s.pkgGo k block false)

/-- READ_CONTEXT (R255). -/
def execReadContext (dt : Nat) (i : StrandId) (k : Nat) (block : Nat) (s : State) : Host.Outcome State Fault Refusal :=
  .next (s.runAt dt fun d => d.onStrand i fun s => s.pkgReadCtx k block)

end Sys2Proof.Machine
end

