-- ==== Sys2Proof/Machine/PortFam.lean ====
section
/-! DEFINITION. The ports: links, MAC and pass-through (R102 to R145): the meaning of each command. -/

namespace Sys2Proof.Machine

/-- LINK_CHANGE (R108). -/
def execLinkChange (dt : Nat) (i : StrandId) (p : Fin 4) (sync link : Bool) (speed : Fin 4) (s : State) : Host.Outcome State Fault Refusal :=
  .next (s.runAt dt fun d => d.onClocked i fun s => s.linkChange p sync link speed.val)

/-- MDIO_START (R110). -/
def execMdioStart (dt : Nat) (m : Master) (i : StrandId) (v : Word) (s : State) : Host.Outcome State Fault Refusal :=
  .next (s.runAt dt fun d => d.placeWrite m (.strand i Reg.MDIO_CMD) v.toNat)

/-- MDIO_DONE (R110). -/
def execMdioDone (dt : Nat) (i : StrandId) (ack : Bool) (data : BitVec 16) (s : State) : Host.Outcome State Fault Refusal :=
  .next (s.runAt dt fun d => d.onClocked i fun s => s.mdioDone ack data.toNat)

/-- AN_RESTART (R107). -/
def execAnRestart (dt : Nat) (m : Master) (i : StrandId) (p : Fin 4) (s : State) : Host.Outcome State Fault Refusal :=
  .next (s.runAt dt fun d => d.placeWrite m (.strand i (Reg.MAC_CMD p.val)) 2)

/-- AN_DONE (R107). -/
def execAnDone (dt : Nat) (i : StrandId) (p : Fin 4) (halfOnly : Bool) (fault : Bool) (s : State) : Host.Outcome State Fault Refusal :=
  .next (s.runAt dt fun d => d.onClocked i fun s => s.anDone p halfOnly fault)

/-- VERIFY_RESTART (R124). -/
def execVerifyRestart (dt : Nat) (m : Master) (i : StrandId) (p : Fin 4) (s : State) : Host.Outcome State Fault Refusal :=
  .next (s.runAt dt fun d => d.placeWrite m (.strand i (Reg.MAC_CMD p.val)) 4)

/-- VERIFY_DONE (R124). -/
def execVerifyDone (dt : Nat) (i : StrandId) (p : Fin 4) (good : Bool) (s : State) : Host.Outcome State Fault Refusal :=
  .next (s.runAt dt fun d => d.onClocked i fun s => s.verifyDone p good)

/-- RX_FRAME (R112). -/
def execRxFrame (dt : Nat) (i : StrandId) (p : Fin 4) (w : RxWire) (s : State) : Host.Outcome State Fault Refusal :=
  .next (s.runAt dt fun d => d.onActive i fun s => s.rxTop p w)

/-- PAUSE_EXPIRY (R123). -/
def execPauseExpiry (dt : Nat) (i : StrandId) (p : Fin 4) (q : Fin 9) (s : State) : Host.Outcome State Fault Refusal :=
  .next (s.runAt dt fun d => d.onActive i fun s => s.pauseExpiry p q.val)

/-- FC_REPEAT (R156). -/
def execFcRepeat (dt : Nat) (i : StrandId) (p : Fin 4) (c : Fin 9) (s : State) : Host.Outcome State Fault Refusal :=
  .next (s.runAt dt fun d => d.onActive i fun s => s.fcRepeat p c.val)

/-- MAC_FLT_W3_WRITE (R119). -/
def execMacFltW3Write (dt : Nat) (m : Master) (i : StrandId) (p : Fin 4) (k : Fin 32) (v : Word) (s : State) : Host.Outcome State Fault Refusal :=
  .next (s.runAt dt fun d => d.placeWrite m (.strand i (Reg.MAC_FLT_W3 p.val k.val)) v.toNat)

/-- PT_FRAME (R130). -/
def execPtFrame (dt : Nat) (i : StrandId) (p : Fin 4) (w : RxWire) (fifo : FifoEnd) (s : State) : Host.Outcome State Fault Refusal :=
  .next (s.runAt dt fun d => d.onActive i fun s => s.ptFrame p w fifo)

end Sys2Proof.Machine
end

