-- ==== Sys2Proof/Machine/ResetCmds.lean ====
section
/-! DEFINITION. Register writes, resets, modes, strand phases and the fence (R11, R17, R25 to R48): the meaning of each command. -/

namespace Sys2Proof.Machine

/-- REGISTER_WRITE (R11). -/
def execRegisterWrite (dt : Nat) (m : Master) (addr : Nat) (size : Nat) (v : Nat) (s : State) : Host.Outcome State Fault Refusal :=
  .next (s.runAt dt fun d => d.masterWrite m addr size v)

/-- SNAP (R17). -/
def execSnap (dt : Nat) (m : Master) (u : SnapUnit) (s : State) : Host.Outcome State Fault Refusal :=
  .next (s.runAt dt fun d => d.snap m u)

/-- POR (R27). -/
def execPor (dt : Nat) (s : State) : Host.Outcome State Fault Refusal :=
  .next (s.runAt dt fun d => d.powerOn)

/-- POR_END (R44). -/
def execPorEnd (dt : Nat) (testEn : Bool) (recoveryN : Bool) (flashA : Option Nat) (flashB : Option Nat) (start : StartIn) (s : State) : Host.Outcome State Fault Refusal :=
  .next (s.runAt dt fun d => d.porEnd testEn recoveryN flashA flashB start)

/-- STRAND_WARM, issued by the Loupe (R27, R32). -/
def execStrandWarm (dt : Nat) (i : StrandId) (s : State) : Host.Outcome State Fault Refusal :=
  .next (s.runAt dt fun d => d.loupeWarm i)

/-- STRAND_COLD (R27). -/
def execStrandCold (dt : Nat) (i : StrandId) (relock : Bool) (s : State) : Host.Outcome State Fault Refusal :=
  .next (s.runAt dt fun d => d.coldBy i relock)

/-- LINK_RESET (R27). -/
def execLinkReset (dt : Nat) (b : Bool) (s : State) : Host.Outcome State Fault Refusal :=
  .next (s.runAt dt fun d => d.linkReset b)

/-- LOUPE_RESET (R27). -/
def execLoupeReset (dt : Nat) (cause : Fin 3) (s : State) : Host.Outcome State Fault Refusal :=
  .next (s.runAt dt fun d => d.loupeResetBy cause)

/-- LOCKSTEP_MISMATCH (R428). -/
def execLockstepMismatch (dt : Nat) (s : State) : Host.Outcome State Fault Refusal :=
  .next (s.runAt dt fun d => d.lockstep)

/-- LOUPE_WDOG_EXPIRY (R428). -/
def execLoupeWdogExpiry (dt : Nat) (s : State) : Host.Outcome State Fault Refusal :=
  .next (s.runAt dt fun d => d.loupeReset 2)

/-- CLASP_INTERNAL_RESET (R332). -/
def execClaspInternalReset (dt : Nat) (s : State) : Host.Outcome State Fault Refusal :=
  .next (s.runAt dt fun d => d.claspReset)

/-- CLASP_SELF_CHECK_DONE (R332). -/
def execClaspSelfCheckDone (dt : Nat) (clean : Bool) (s : State) : Host.Outcome State Fault Refusal :=
  .next (s.runAt dt fun d => d.claspCheck clean)

/-- CLK_FAIL (R26). -/
def execClkFail (dt : Nat) (i : StrandId) (pll : Bool) (s : State) : Host.Outcome State Fault Refusal :=
  .next (s.runAt dt fun d => d.clkFail i pll)

/-- CLK_OK_RETURN (R26). -/
def execClkOkReturn (dt : Nat) (i : StrandId) (s : State) : Host.Outcome State Fault Refusal :=
  .next (s.runAt dt fun d => d.clkReturn i)

/-- SUPPLY_FAIL (R34). -/
def execSupplyFail (dt : Nat) (i : StrandId) (s : State) : Host.Outcome State Fault Refusal :=
  .next (s.runAt dt fun d => d.fenceTrigger i 8 0x0111)

/-- CORE_WDOG_EXPIRY (R30). -/
def execCoreWdogExpiry (dt : Nat) (i : StrandId) (s : State) : Host.Outcome State Fault Refusal :=
  .next (s.runAt dt fun d => d.wdogWatch i)

/-- LOUPE_HEARTBEAT (R31). -/
def execLoupeHeartbeat (dt : Nat) (i : StrandId) (s : State) : Host.Outcome State Fault Refusal :=
  .next (s.runAt dt fun d => d.heartbeat i)

/-- HB_TIMEOUT (R31). -/
def execHbTimeout (dt : Nat) (i : StrandId) (s : State) : Host.Outcome State Fault Refusal :=
  .next (s.runAt dt fun d => d.hbTimeout i)

/-- FENCE_IN_SET (R31). -/
def execFenceInSet (dt : Nat) (i : StrandId) (s : State) : Host.Outcome State Fault Refusal :=
  .next (s.runAt dt fun d => d.placeWrite (.core i) (.strand i Reg.SUP_CTL) 4)

/-- FENCE_IN_RELEASE (R33). -/
def execFenceInRelease (dt : Nat) (i : StrandId) (s : State) : Host.Outcome State Fault Refusal :=
  .next (s.runAt dt fun d => d.placeWrite (.core i) (.strand i Reg.SUP_CTL) 8)

/-- HOLD_ENTER (R42). -/
def execHoldEnter (dt : Nat) (m : Master) (i : StrandId) (s : State) : Host.Outcome State Fault Refusal :=
  .next (s.runAt dt fun d => d.supPoke m i 0)

/-- HOLD_EXIT (R42). -/
def execHoldExit (dt : Nat) (m : Master) (i : StrandId) (s : State) : Host.Outcome State Fault Refusal :=
  .next (s.runAt dt fun d => d.supPoke m i 1)

/-- LOAD_START (R42). -/
def execLoadStart (dt : Nat) (i : StrandId) (tests : List (Fin 16 × Bool)) (s : State) : Host.Outcome State Fault Refusal :=
  .next (s.runAt dt fun d => d.loadStart i tests)

/-- PLL_LOCK_TIMEOUT (R42). -/
def execPllLockTimeout (dt : Nat) (i : StrandId) (s : State) : Host.Outcome State Fault Refusal :=
  .next (s.runAt dt fun d => d.pllTimeout i)

/-- LOAD_COMPLETE (R42). -/
def execLoadComplete (dt : Nat) (i : StrandId) (pkgs : List (List Byte)) (digests : Bool) (s : State) : Host.Outcome State Fault Refusal :=
  .next (s.runAt dt fun d => d.loadComplete i pkgs digests)

/-- LOAD_PHASE_END (R44). -/
def execLoadPhaseEnd (dt : Nat) (s : State) : Host.Outcome State Fault Refusal :=
  .next (s.runAt dt fun d => d.loadPhaseEnd)

/-- MIGRATION (R465). -/
def execMigration (dt : Nat) (ok : Bool) (payload : List Byte) (start : StartIn) (s : State) : Host.Outcome State Fault Refusal :=
  .next (s.runAt dt fun d => d.migration ok payload start)

/-- PAIR_RESYNCHRONIZED (R355). -/
def execPairResynchronized (dt : Nat) (pair : Bool) (s : State) : Host.Outcome State Fault Refusal :=
  .next (s.runAt dt fun d => d.pairSync pair)

/-- WAKE (R491). -/
def execWake (dt : Nat) (start : StartIn) (s : State) : Host.Outcome State Fault Refusal :=
  .next (s.runAt dt fun d => d.wake start)

end Sys2Proof.Machine
end

