-- ==== Sys2Proof/Machine/SwitchFam.lean ====
section
/-! DEFINITION. The switch (R146 to R169): the meaning of each command. -/

namespace Sys2Proof.Machine

/-- FRAME_ELIGIBLE (R147). -/
def execFrameEligible (dt : Nat) (i : StrandId) (e : Fin 10) (q : Fin 8) (s : State) : Host.Outcome State Fault Refusal :=
  .next (s.runAt dt fun d => d.onActive i fun s => s.setQueue e.val q.val (markEligible s.now (s.queue e.val q.val)))

/-- EGRESS_SELECT (R157). -/
def execEgressSelect (dt : Nat) (i : StrandId) (e : Fin 10) (err : BufErr) (s : State) : Host.Outcome State Fault Refusal :=
  .next (s.runAt dt fun d => d.onActive i fun s => s.egress e err)

/-- INTERNAL_ADMIT (R154). -/
def execInternalAdmit (dt : Nat) (i : StrandId) (src : Fin 10) (s : State) : Host.Outcome State Fault Refusal :=
  .next (s.runAt dt fun d => d.onActive i fun s => s.internalAdmit src.val)

/-- V_PORT_INGRESS (R148). -/
def execVPortIngress (dt : Nat) (i : StrandId) (k : Fin 4) (s : State) : Host.Outcome State Fault Refusal :=
  .next (s.runAt dt fun d => d.onActive i fun s => s.vIngress k)

/-- V_PORT_EGRESS (R148). -/
def execVPortEgress (dt : Nat) (i : StrandId) (k : Fin 4) (s : State) : Host.Outcome State Fault Refusal :=
  .next (s.runAt dt fun d => d.onActive i fun s => s.vEgress k)

/-- FDB_WRITE (R150). -/
def execFdbWrite (dt : Nat) (m : Master) (i : StrandId) (index : Fin 2048) (s : State) : Host.Outcome State Fault Refusal :=
  .next (s.runAt dt fun d => d.placeWrite m (.strand i Reg.SW_FDB_CMD) (0x20000000 + index.val))

/-- FDB_READ (R150). -/
def execFdbRead (dt : Nat) (m : Master) (i : StrandId) (index : Fin 2048) (s : State) : Host.Outcome State Fault Refusal :=
  .next (s.runAt dt fun d => d.placeWrite m (.strand i Reg.SW_FDB_CMD) (0x40000000 + index.val))

/-- FDB_CLEAR (R150). -/
def execFdbClear (dt : Nat) (m : Master) (i : StrandId) (index : Fin 2048) (s : State) : Host.Outcome State Fault Refusal :=
  .next (s.runAt dt fun d => d.placeWrite m (.strand i Reg.SW_FDB_CMD) (0x60000000 + index.val))

/-- GCL_ENTRY_ADVANCE (R159). -/
def execGclEntryAdvance (dt : Nat) (i : StrandId) (e : Fin 4) (s : State) : Host.Outcome State Fault Refusal :=
  .next (s.runAt dt fun d => d.onActive i fun s => s.gclAdvance e.val)

/-- SWAP (R161). -/
def execSwap (dt : Nat) (m : Master) (i : StrandId) (e : Fin 4) (gateEn : Bool) (s : State) : Host.Outcome State Fault Refusal :=
  .next (s.runAt dt fun d => d.placeWrite m (.strand i (Reg.GCL_CTL e.val)) (0x10000000 + 0x80000000 * b2n gateEn))

/-- GCL_SWAP_ACT (R161). -/
def execGclSwapAct (dt : Nat) (i : StrandId) (e : Fin 4) (s : State) : Host.Outcome State Fault Refusal :=
  .next (s.runAt dt fun d => d.onActive i fun s => s.gclSwapAct e.val)

/-- CBS_CREDIT_REACHES_ZERO (R158). -/
def execCbsCreditReachesZero (dt : Nat) (i : StrandId) (e : Fin 4) (q : Fin 8) (s : State) : Host.Outcome State Fault Refusal :=
  .next (s.runAt dt fun d => d.onActive i fun s => s.cbsZero e q.val)

end Sys2Proof.Machine
end

