-- ==== Sys2Proof/Machine/TimeFam.lean ====
section
/-! DEFINITION. Strand time (R170 to R187): the meaning of each command. -/

namespace Sys2Proof.Machine

/-- RATE_WRITE (R171). -/
def execRateWrite (dt : Nat) (m : Master) (i : StrandId) (v : Word) (s : State) : Host.Outcome State Fault Refusal :=
  .next (s.runAt dt fun d => d.placeWrite m (.strand i Reg.TIME_RATE) v.toNat)

/-- RATE_INIT_WRITE (R171). -/
def execRateInitWrite (dt : Nat) (m : Master) (i : StrandId) (v : Word) (s : State) : Host.Outcome State Fault Refusal :=
  .next (s.runAt dt fun d => d.placeWrite m (.strand i Reg.TIME_RATE_INIT) v.toNat)

/-- TIME_NOW_READ (R173). -/
def execTimeNowRead (dt : Nat) (m : Master) (i : StrandId) (s : State) : Host.Outcome State Fault Refusal :=
  .next (s.runAt dt fun d => d.placeRead m (.strand i Reg.TIME_NOW_NS))

/-- TIME_STEP (R178). -/
def execTimeStep (dt : Nat) (m : Master) (i : StrandId) (s : State) : Host.Outcome State Fault Refusal :=
  .next (s.runAt dt fun d => d.placeWrite m (.strand i Reg.TIME_CMD) 2)

/-- STEP_ARM (R176). -/
def execStepArm (dt : Nat) (m : Master) (i : StrandId) (s : State) : Host.Outcome State Fault Refusal :=
  .next (s.runAt dt fun d => d.placeWrite m (.strand i Reg.TIME_CMD) 4)

/-- PPS_EDGE (R179). -/
def execPpsEdge (dt : Nat) (i : StrandId) (rising : Bool) (half : Nat) (held : Bool) (s : State) : Host.Outcome State Fault Refusal :=
  .next (s.runAt dt fun d => d.onActive i fun s => s.ppsEdge rising half held)

/-- PPS_LOSS (R180). -/
def execPpsLoss (dt : Nat) (i : StrandId) (s : State) : Host.Outcome State Fault Refusal :=
  .next (s.runAt dt fun d => d.onActive i fun s => s.ppsLoss)

/-- PPS_OUT_PULSE (R184). -/
def execPpsOutPulse (dt : Nat) (i : StrandId) (s : State) : Host.Outcome State Fault Refusal :=
  .next (s.runAt dt fun d => d.onActive i fun s => s.ppsOutPulse)

/-- PPS_OUT_END (R184). -/
def execPpsOutEnd (dt : Nat) (i : StrandId) (s : State) : Host.Outcome State Fault Refusal :=
  .next (s.runAt dt fun d => d.onActive i fun s => s.ppsOutEnd)

end Sys2Proof.Machine
end

