-- ==== Sys2Proof/Machine/UpdateFam.lean ====
section
/-! DEFINITION. Updates and the relay (R454 to R483): the meaning of each command. -/

namespace Sys2Proof.Machine

/-- UPDATE_BEGIN (R467). -/
def execUpdateBegin (h : NguHdr) (sess : Nat) (s : State) : Host.Outcome State Fault Refusal :=
  .next (s.runAt h.gap fun d => d.updateBegin h sess)

/-- UPDATE_ABORT (R479). -/
def execUpdateAbort (h : NguHdr) (sess : Nat) (s : State) : Host.Outcome State Fault Refusal :=
  .next (s.runAt h.gap fun d => d.updateAbort h sess)

/-- ACTIVATE (R472). -/
def execActivate (h : NguHdr) (sess : Nat) (due : Nat) (s : State) : Host.Outcome State Fault Refusal :=
  .next (s.runAt h.gap fun d => d.activate h sess due)

/-- ACTIVATION_DUE (R472). -/
def execActivationDue (dt : Nat) (start : StartIn) (s : State) : Host.Outcome State Fault Refusal :=
  .next (s.runAt dt fun d => d.activationDue start)

/-- CANCEL (R472). -/
def execCancel (h : NguHdr) (sess : Nat) (s : State) : Host.Outcome State Fault Refusal :=
  .next (s.runAt h.gap fun d => d.cancel h sess)

/-- CONFIRM (R474). -/
def execConfirm (h : NguHdr) (s : State) : Host.Outcome State Fault Refusal :=
  .next (s.runAt h.gap fun d => d.confirmCmd h)

/-- TRIAL_CONFIRM_DUE (R473). -/
def execTrialConfirmDue (dt : Nat) (s : State) : Host.Outcome State Fault Refusal :=
  .next (s.runAt dt fun d => d.trialConfirm)

/-- TRIAL_RESTART_DUE (R473). -/
def execTrialRestartDue (dt : Nat) (start : StartIn) (s : State) : Host.Outcome State Fault Refusal :=
  .next (s.runAt dt fun d => d.trialRestart start)

/-- REVERT (R475). -/
def execRevert (h : NguHdr) (verdict : Nat) (start : StartIn) (s : State) : Host.Outcome State Fault Refusal :=
  .next (s.runAt h.gap fun d => d.revert h verdict start)

/-- ENROL (R478). -/
def execEnrol (h : NguHdr) (body : List Byte) (s : State) : Host.Outcome State Fault Refusal :=
  .next (s.runAt h.gap fun d => d.enrol h body)

/-- LC_ADVANCE (R478). -/
def execLcAdvance (h : NguHdr) (target : Nat) (s : State) : Host.Outcome State Fault Refusal :=
  .next (s.runAt h.gap fun d => d.lcAdvanceCmd h target)

/-- RELAY_BLOCK (R468). -/
def execRelayBlock (dt : Nat) (path : Nat) (sess : Nat) (off : Nat) (hop : Nat) (total : Nat) (progA : Nat) (progB : Nat) (data : List Byte) (sig : Bool) (s : State) : Host.Outcome State Fault Refusal :=
  .next (s.runAt dt fun d => d.relayBlock path sess off hop total progA progB data sig)

/-- RELAY_REQUEST (R469). -/
def execRelayRequest (dt : Nat) (path : Nat) (sess : Nat) (outcome : Nat) (ranges : List (Nat × Nat)) (s : State) : Host.Outcome State Fault Refusal :=
  .next (s.runAt dt fun d => d.relayRequest path sess outcome ranges)

/-- RELAY_STATE (R469). -/
def execRelayState (dt : Nat) (path : Nat) (sess : Nat) (serial : Nat) (hop : Nat) (state : Nat) (stored : Nat) (total : Nat) (verS : Nat) (verA : Nat) (s : State) : Host.Outcome State Fault Refusal :=
  .next (s.runAt dt fun d => d.relayState path sess serial hop state stored total verS verA)

/-- RELAY_STATE_TIMER (R469). -/
def execRelayStateTimer (dt : Nat) (s : State) : Host.Outcome State Fault Refusal :=
  .next (s.runAt dt fun d => d.stateTimer)

/-- RELAY_QUEUE_SEND (R469). -/
def execRelayQueueSend (dt : Nat) (path : Nat) (outcome : Nat) (s : State) : Host.Outcome State Fault Refusal :=
  .next (s.runAt dt fun d => d.queueSend path outcome)

/-- RELAY_GAP_REQUEST (R470). -/
def execRelayGapRequest (dt : Nat) (s : State) : Host.Outcome State Fault Refusal :=
  .next (s.runAt dt fun d => d.gapRequest)

/-- RELAY_REQUEST_RETRY (R470). -/
def execRelayRequestRetry (dt : Nat) (s : State) : Host.Outcome State Fault Refusal :=
  .next (s.runAt dt fun d => d.requestRetry)

/-- RELAY_UP_LOST_REPEAT (R470). -/
def execRelayUpLostRepeat (dt : Nat) (s : State) : Host.Outcome State Fault Refusal :=
  .next (s.runAt dt fun d => d.upLostRepeat)

/-- SESSION_VERIFY (R471). -/
def execSessionVerify (dt : Nat) (copyA : Nat) (copyB : Nat) (s : State) : Host.Outcome State Fault Refusal :=
  .next (s.runAt dt fun d => d.sessionVerify copyA copyB)

end Sys2Proof.Machine
end

