-- ==== Sys2Proof/Machine/Dispatch.lean ====
section
/-! DEFINITION. One arm per command: the direct call of its meaning. -/

namespace Sys2Proof.Machine

/-- The effect of a command on everything but the queue.  (DESIGN CHOICE, safe: log entry 168.) -/
def exec (i : Instr) (s : State) : Host.Outcome State Fault Refusal :=
  match i with
  | .registerWrite dt m addr size v => Sys2Proof.Machine.execRegisterWrite dt m addr size v s
  | .snap dt m u => Sys2Proof.Machine.execSnap dt m u s
  | .por dt => Sys2Proof.Machine.execPor dt s
  | .porEnd dt testEn recoveryN flashA flashB start => Sys2Proof.Machine.execPorEnd dt testEn recoveryN flashA flashB start s
  | .strandWarm dt st => Sys2Proof.Machine.execStrandWarm dt st s
  | .strandCold dt st relock => Sys2Proof.Machine.execStrandCold dt st relock s
  | .linkReset dt b => Sys2Proof.Machine.execLinkReset dt b s
  | .loupeReset dt cause => Sys2Proof.Machine.execLoupeReset dt cause s
  | .lockstepMismatch dt => Sys2Proof.Machine.execLockstepMismatch dt s
  | .loupeWdogExpiry dt => Sys2Proof.Machine.execLoupeWdogExpiry dt s
  | .claspInternalReset dt => Sys2Proof.Machine.execClaspInternalReset dt s
  | .claspSelfCheckDone dt clean => Sys2Proof.Machine.execClaspSelfCheckDone dt clean s
  | .clkFail dt st pll => Sys2Proof.Machine.execClkFail dt st pll s
  | .clkOkReturn dt st => Sys2Proof.Machine.execClkOkReturn dt st s
  | .supplyFail dt st => Sys2Proof.Machine.execSupplyFail dt st s
  | .coreWdogExpiry dt st => Sys2Proof.Machine.execCoreWdogExpiry dt st s
  | .loupeHeartbeat dt st => Sys2Proof.Machine.execLoupeHeartbeat dt st s
  | .hbTimeout dt st => Sys2Proof.Machine.execHbTimeout dt st s
  | .fenceInSet dt st => Sys2Proof.Machine.execFenceInSet dt st s
  | .fenceInRelease dt st => Sys2Proof.Machine.execFenceInRelease dt st s
  | .holdEnter dt m st => Sys2Proof.Machine.execHoldEnter dt m st s
  | .holdExit dt m st => Sys2Proof.Machine.execHoldExit dt m st s
  | .loadStart dt st tests => Sys2Proof.Machine.execLoadStart dt st tests s
  | .pllLockTimeout dt st => Sys2Proof.Machine.execPllLockTimeout dt st s
  | .loadComplete dt st pkgs digests => Sys2Proof.Machine.execLoadComplete dt st pkgs digests s
  | .loadPhaseEnd dt => Sys2Proof.Machine.execLoadPhaseEnd dt s
  | .migration dt ok payload start => Sys2Proof.Machine.execMigration dt ok payload start s
  | .pairResynchronized dt pair => Sys2Proof.Machine.execPairResynchronized dt pair s
  | .wake dt start => Sys2Proof.Machine.execWake dt start s
  | .start dt m st n resume => Sys2Proof.Machine.execStart dt m st n resume s
  | .beadStep dt m st n resume => Sys2Proof.Machine.execBeadStep dt m st n resume s
  | .stop dt m st n => Sys2Proof.Machine.execStop dt m st n s
  | .stopAct dt st n => Sys2Proof.Machine.execStopAct dt st n s
  | .qflush dt m st n => Sys2Proof.Machine.execQflush dt m st n s
  | .pinRelease dt m st n => Sys2Proof.Machine.execPinRelease dt m st n s
  | .divRestart dt m st n => Sys2Proof.Machine.execDivRestart dt m st n s
  | .evtSet dt m st n mask => Sys2Proof.Machine.execEvtSet dt m st n mask s
  | .beadTxqWrite dt m st n v => Sys2Proof.Machine.execBeadTxqWrite dt m st n v s
  | .beadRxqRead dt m st n => Sys2Proof.Machine.execBeadRxqRead dt m st n s
  | .beadQcfgWrite dt m st n v => Sys2Proof.Machine.execBeadQcfgWrite dt m st n v s
  | .beadImemWrite dt m st n k v => Sys2Proof.Machine.execBeadImemWrite dt m st n k v s
  | .beadDivWrite dt m st n v => Sys2Proof.Machine.execBeadDivWrite dt m st n v s
  | .beadCrccfgWrite dt m st n v => Sys2Proof.Machine.execBeadCrccfgWrite dt m st n v s
  | .nop a => Sys2Proof.Machine.execNop a s
  | .shout a bits => Sys2Proof.Machine.execShout a bits s
  | .shin a bits => Sys2Proof.Machine.execShin a bits s
  | .pull a form => Sys2Proof.Machine.execPull a form s
  | .push a form => Sys2Proof.Machine.execPush a form s
  | .set a dest imm => Sys2Proof.Machine.execSet a dest imm s
  | .beadMov a dst src opn lost => Sys2Proof.Machine.execBeadMov a dst src opn lost s
  | .jmp a cond target => Sys2Proof.Machine.execJmp a cond target s
  | .beadWait a pol src index => Sys2Proof.Machine.execBeadWait a pol src index s
  | .beadCmp a mode imm lost => Sys2Proof.Machine.execBeadCmp a mode imm lost s
  | .crc a init src oct => Sys2Proof.Machine.execCrc a init src oct s
  | .stamp a adj nosec ang trk => Sys2Proof.Machine.execStamp a adj nosec ang trk s
  | .edit a offx len offset => Sys2Proof.Machine.execEdit a offx len offset s
  | .irq a => Sys2Proof.Machine.execIrq a s
  | .cnt a reg target => Sys2Proof.Machine.execCnt a reg target s
  | .sync a k => Sys2Proof.Machine.execSync a k s
  | .linkChange dt st p sync link speed => Sys2Proof.Machine.execLinkChange dt st p sync link speed s
  | .mdioStart dt m st v => Sys2Proof.Machine.execMdioStart dt m st v s
  | .mdioDone dt st ack data => Sys2Proof.Machine.execMdioDone dt st ack data s
  | .anRestart dt m st p => Sys2Proof.Machine.execAnRestart dt m st p s
  | .anDone dt st p halfOnly fault => Sys2Proof.Machine.execAnDone dt st p halfOnly fault s
  | .verifyRestart dt m st p => Sys2Proof.Machine.execVerifyRestart dt m st p s
  | .verifyDone dt st p good => Sys2Proof.Machine.execVerifyDone dt st p good s
  | .rxFrame dt st p w => Sys2Proof.Machine.execRxFrame dt st p w s
  | .pauseExpiry dt st p q => Sys2Proof.Machine.execPauseExpiry dt st p q s
  | .fcRepeat dt st p c => Sys2Proof.Machine.execFcRepeat dt st p c s
  | .macFltW3Write dt m st p k v => Sys2Proof.Machine.execMacFltW3Write dt m st p k v s
  | .ptFrame dt st p w fifo => Sys2Proof.Machine.execPtFrame dt st p w fifo s
  | .frameEligible dt st e q => Sys2Proof.Machine.execFrameEligible dt st e q s
  | .egressSelect dt st e err => Sys2Proof.Machine.execEgressSelect dt st e err s
  | .internalAdmit dt st src => Sys2Proof.Machine.execInternalAdmit dt st src s
  | .vPortIngress dt st k => Sys2Proof.Machine.execVPortIngress dt st k s
  | .vPortEgress dt st k => Sys2Proof.Machine.execVPortEgress dt st k s
  | .fdbWrite dt m st index => Sys2Proof.Machine.execFdbWrite dt m st index s
  | .fdbRead dt m st index => Sys2Proof.Machine.execFdbRead dt m st index s
  | .fdbClear dt m st index => Sys2Proof.Machine.execFdbClear dt m st index s
  | .gclEntryAdvance dt st e => Sys2Proof.Machine.execGclEntryAdvance dt st e s
  | .swap dt m st e gateEn => Sys2Proof.Machine.execSwap dt m st e gateEn s
  | .gclSwapAct dt st e => Sys2Proof.Machine.execGclSwapAct dt st e s
  | .rateWrite dt m st v => Sys2Proof.Machine.execRateWrite dt m st v s
  | .rateInitWrite dt m st v => Sys2Proof.Machine.execRateInitWrite dt m st v s
  | .timeNowRead dt m st => Sys2Proof.Machine.execTimeNowRead dt m st s
  | .timeStep dt m st => Sys2Proof.Machine.execTimeStep dt m st s
  | .stepArm dt m st => Sys2Proof.Machine.execStepArm dt m st s
  | .ppsEdge dt st rising half held => Sys2Proof.Machine.execPpsEdge dt st rising half held s
  | .ppsLoss dt st => Sys2Proof.Machine.execPpsLoss dt st s
  | .ppsOutPulse dt st => Sys2Proof.Machine.execPpsOutPulse dt st s
  | .ppsOutEnd dt st => Sys2Proof.Machine.execPpsOutEnd dt st s
  | .trkObsSubmit dt st t v => Sys2Proof.Machine.execTrkObsSubmit dt st t v s
  | .obsQueueTake dt st t => Sys2Proof.Machine.execObsQueueTake dt st t s
  | .obsApply dt st t => Sys2Proof.Machine.execObsApply dt st t s
  | .trkTimeout dt st t => Sys2Proof.Machine.execTrkTimeout dt st t s
  | .trkRestart dt m st t => Sys2Proof.Machine.execTrkRestart dt m st t s
  | .trkAngleRead dt m st t => Sys2Proof.Machine.execTrkAngleRead dt m st t s
  | .predictorVisit dt st k => Sys2Proof.Machine.execPredictorVisit dt st k s
  | .evtFire dt st k => Sys2Proof.Machine.execEvtFire dt st k s
  | .actionDeferred dt st => Sys2Proof.Machine.execActionDeferred dt st s
  | .evtEntryWrite dt m st k v => Sys2Proof.Machine.execEvtEntryWrite dt m st k v s
  | .ctNowRead dt m st => Sys2Proof.Machine.execCtNowRead dt m st s
  | .rowStart dt st => Sys2Proof.Machine.execRowStart dt st s
  | .winStage dt st k => Sys2Proof.Machine.execWinStage dt st k s
  | .winStart dt st k => Sys2Proof.Machine.execWinStart dt st k s
  | .winAction dt st k => Sys2Proof.Machine.execWinAction dt st k s
  | .alignRx dt st p bytes => Sys2Proof.Machine.execAlignRx dt st p bytes s
  | .alignTimeout dt st => Sys2Proof.Machine.execAlignTimeout dt st s
  | .resync dt m st => Sys2Proof.Machine.execResync dt m st s
  | .flgDataRx dt st p bytes => Sys2Proof.Machine.execFlgDataRx dt st p bytes s
  | .rttReqSend dt st => Sys2Proof.Machine.execRttReqSend dt st s
  | .rttRespSend dt st p => Sys2Proof.Machine.execRttRespSend dt st p s
  | .rttMeasure dt st p bytes => Sys2Proof.Machine.execRttMeasure dt st p bytes s
  | .rttAbandon dt st p => Sys2Proof.Machine.execRttAbandon dt st p s
  | .bezelDecide dt st p bytes bad => Sys2Proof.Machine.execBezelDecide dt st p bytes bad s
  | .bezelCut dt st p => Sys2Proof.Machine.execBezelCut dt st p s
  | .arbForward dt st => Sys2Proof.Machine.execArbForward dt st s
  | .unfence dt m st p => Sys2Proof.Machine.execUnfence dt m st p s
  | .devClear dt m st => Sys2Proof.Machine.execDevClear dt m st s
  | .pkgGetStatus dt st k block => Sys2Proof.Machine.execPkgGetStatus dt st k block s
  | .goOperational dt st k block => Sys2Proof.Machine.execGoOperational dt st k block s
  | .goStopped dt st k block => Sys2Proof.Machine.execGoStopped dt st k block s
  | .readContext dt st k block => Sys2Proof.Machine.execReadContext dt st k block s
  | .mapRun dt m st => Sys2Proof.Machine.execMapRun dt m st s
  | .mapTimeTrigger dt st => Sys2Proof.Machine.execMapTimeTrigger dt st s
  | .mapRunDone dt st waits => Sys2Proof.Machine.execMapRunDone dt st waits s
  | .smEvent dt st c => Sys2Proof.Machine.execSmEvent dt st c s
  | .ctxTimeout dt st c => Sys2Proof.Machine.execCtxTimeout dt st c s
  | .ringTailWrite dt m st r v => Sys2Proof.Machine.execRingTailWrite dt m st r v s
  | .ownRecheck dt st r words => Sys2Proof.Machine.execOwnRecheck dt st r words s
  | .txItemFetch dt st r => Sys2Proof.Machine.execTxItemFetch dt st r s
  | .hostReadCompletion dt st tag status data => Sys2Proof.Machine.execHostReadCompletion dt st tag status data s
  | .txCommit dt st r => Sys2Proof.Machine.execTxCommit dt st r s
  | .rxRingDeliver dt st r => Sys2Proof.Machine.execRxRingDeliver dt st r s
  | .rxHoldExpiry dt st r => Sys2Proof.Machine.execRxHoldExpiry dt st r s
  | .completionWrite dt st r => Sys2Proof.Machine.execCompletionWrite dt st r s
  | .readbackReturn dt st => Sys2Proof.Machine.execReadbackReturn dt st s
  | .cqHeadWrite dt m st c v => Sys2Proof.Machine.execCqHeadWrite dt m st c v s
  | .cqEnable dt m st c => Sys2Proof.Machine.execCqEnable dt m st c s
  | .cqPost dt st v => Sys2Proof.Machine.execCqPost dt st v s
  | .dmaAbort dt m st v => Sys2Proof.Machine.execDmaAbort dt m st v s
  | .ringEnable dt m st r => Sys2Proof.Machine.execRingEnable dt m st r s
  | .ringDisable dt m st r => Sys2Proof.Machine.execRingDisable dt m st r s
  | .idxClear dt m st r en => Sys2Proof.Machine.execIdxClear dt m st r en s
  | .cmdAccept dt st q => Sys2Proof.Machine.execCmdAccept dt st q s
  | .cmdStart dt st q => Sys2Proof.Machine.execCmdStart dt st q s
  | .mgTailWrite dt m g v => Sys2Proof.Machine.execMgTailWrite dt m g v s
  | .mergeWriteback dt st => Sys2Proof.Machine.execMergeWriteback dt st s
  | .mergeRecord dt st => Sys2Proof.Machine.execMergeRecord dt st s
  | .mgAbort dt m g v => Sys2Proof.Machine.execMgAbort dt m g v s
  | .mgCfgWrite dt m g v => Sys2Proof.Machine.execMgCfgWrite dt m g v s
  | .accReport dt what => Sys2Proof.Machine.execAccReport dt what s
  | .irqArm dt m hi v => Sys2Proof.Machine.execIrqArm dt m hi v s
  | .msixUnmask dt b vec => Sys2Proof.Machine.execMsixUnmask dt b vec s
  | .pmStateChange dt b d3 => Sys2Proof.Machine.execPmStateChange dt b d3 s
  | .bar2Access dt b off acc => Sys2Proof.Machine.execBar2Access dt b off acc s
  | .recOpen dt b resume => Sys2Proof.Machine.execRecOpen dt b resume s
  | .recSubmit dt b sig flashErr digestOk prevOk start => Sys2Proof.Machine.execRecSubmit dt b sig flashErr digestOk prevOk start s
  | .recClose dt b => Sys2Proof.Machine.execRecClose dt b s
  | .add dt c g sf wd wa src => Sys2Proof.Machine.execAdd dt c g sf wd wa src s
  | .adc dt c g sf wd wa src => Sys2Proof.Machine.execAdc dt c g sf wd wa src s
  | .sub dt c g sf wd wa src => Sys2Proof.Machine.execSub dt c g sf wd wa src s
  | .sbc dt c g sf wd wa src => Sys2Proof.Machine.execSbc dt c g sf wd wa src s
  | .and dt c g sf wd wa src => Sys2Proof.Machine.execAnd dt c g sf wd wa src s
  | .or dt c g sf wd wa src => Sys2Proof.Machine.execOr dt c g sf wd wa src s
  | .xor dt c g sf wd wa src => Sys2Proof.Machine.execXor dt c g sf wd wa src s
  | .andn dt c g sf wd wa src => Sys2Proof.Machine.execAndn dt c g sf wd wa src s
  | .mov dt c g sf wd src => Sys2Proof.Machine.execMov dt c g sf wd src s
  | .mvn dt c g sf wd src => Sys2Proof.Machine.execMvn dt c g sf wd src s
  | .neg dt c g sf wd src => Sys2Proof.Machine.execNeg dt c g sf wd src s
  | .cmp dt c g sf wa src => Sys2Proof.Machine.execCmp dt c g sf wa src s
  | .tst dt c g sf wa src => Sys2Proof.Machine.execTst dt c g sf wa src s
  | .movw dt c g wd imm => Sys2Proof.Machine.execMovw dt c g wd imm s
  | .movt dt c g wd imm => Sys2Proof.Machine.execMovt dt c g wd imm s
  | .shf dt c g sf wd wa kind count => Sys2Proof.Machine.execShf dt c g sf wd wa kind count s
  | .ldw dt c g wd wa mode => Sys2Proof.Machine.execLdw dt c g wd wa mode s
  | .ldh dt c g wd wa mode => Sys2Proof.Machine.execLdh dt c g wd wa mode s
  | .ldhs dt c g wd wa mode => Sys2Proof.Machine.execLdhs dt c g wd wa mode s
  | .ldb dt c g wd wa mode => Sys2Proof.Machine.execLdb dt c g wd wa mode s
  | .ldbs dt c g wd wa mode => Sys2Proof.Machine.execLdbs dt c g wd wa mode s
  | .stw dt c g wd wa mode => Sys2Proof.Machine.execStw dt c g wd wa mode s
  | .sth dt c g wd wa mode => Sys2Proof.Machine.execSth dt c g wd wa mode s
  | .stb dt c g wd wa mode => Sys2Proof.Machine.execStb dt c g wd wa mode s
  | .wbDrain dt c => Sys2Proof.Machine.execWbDrain dt c s
  | .b dt c g link ofs => Sys2Proof.Machine.execB dt c g link ofs s
  | .br dt c g link wa => Sys2Proof.Machine.execBr dt c g link wa s
  | .swi dt c g imm => Sys2Proof.Machine.execSwi dt c g imm s
  | .rte dt c g imm => Sys2Proof.Machine.execRte dt c g imm s
  | .wait dt c g imm => Sys2Proof.Machine.execWait dt c g imm s
  | .waitWake dt c => Sys2Proof.Machine.execWaitWake dt c s
  | .barrier dt c g imm => Sys2Proof.Machine.execBarrier dt c g imm s
  | .bkpt dt c g imm => Sys2Proof.Machine.execBkpt dt c g imm s
  | .mfs dt c g wd index => Sys2Proof.Machine.execMfs dt c g wd index s
  | .mts dt c g wa index => Sys2Proof.Machine.execMts dt c g wa index s
  | .mul dt c g sf wa wb => Sys2Proof.Machine.execMul dt c g sf wa wb s
  | .muls dt c g sf wa wb => Sys2Proof.Machine.execMuls dt c g sf wa wb s
  | .mulResult dt c => Sys2Proof.Machine.execMulResult dt c s
  | .div dt c g sf wa wb => Sys2Proof.Machine.execDiv dt c g sf wa wb s
  | .divs dt c g sf wa wb => Sys2Proof.Machine.execDivs dt c g sf wa wb s
  | .divResult dt c => Sys2Proof.Machine.execDivResult dt c s
  | .badd dt c g sf wd wa wb => Sys2Proof.Machine.execBadd dt c g sf wd wa wb s
  | .bsub dt c g sf wd wa wb => Sys2Proof.Machine.execBsub dt c g sf wd wa wb s
  | .dadj dt c g sf wd wa => Sys2Proof.Machine.execDadj dt c g sf wd wa s
  | .btob dt c g sf wd wa => Sys2Proof.Machine.execBtob dt c g sf wd wa s
  | .bfromb dt c g sf wd wa => Sys2Proof.Machine.execBfromb dt c g sf wd wa s
  | .d16Sequence dt c w => Sys2Proof.Machine.execD16Sequence dt c w s
  | .coreIrqTaken dt c => Sys2Proof.Machine.execCoreIrqTaken dt c s
  | .wdogKick dt st v => Sys2Proof.Machine.execWdogKick dt st v s
  | .halt dt st => Sys2Proof.Machine.execHalt dt st s
  | .resume dt st => Sys2Proof.Machine.execResume dt st s
  | .coreStep dt st => Sys2Proof.Machine.execCoreStep dt st s
  | .breakpointHit dt st => Sys2Proof.Machine.execBreakpointHit dt st s
  | .bankRelease dt m st k => Sys2Proof.Machine.execBankRelease dt m st k s
  | .bankGrant dt m st k owner group => Sys2Proof.Machine.execBankGrant dt m st k owner group s
  | .releaseGrant dt m st k owner group => Sys2Proof.Machine.execReleaseGrant dt m st k owner group s
  | .bankFree dt st k => Sys2Proof.Machine.execBankFree dt st k s
  | .pwrWrite dt m st k pwr => Sys2Proof.Machine.execPwrWrite dt m st k pwr s
  | .pwrChangeDone dt st k => Sys2Proof.Machine.execPwrChangeDone dt st k s
  | .scrub dt st k w clean => Sys2Proof.Machine.execScrub dt st k w clean s
  | .patrolRead dt st found => Sys2Proof.Machine.execPatrolRead dt st found s
  | .hmWipe dt => Sys2Proof.Machine.execHmWipe dt s
  | .lcAdvanceWrite dt v => Sys2Proof.Machine.execLcAdvanceWrite dt v s
  | .tamper dt source => Sys2Proof.Machine.execTamper dt source s
  | .locketPost dt m c hi => Sys2Proof.Machine.execLocketPost dt m c hi s
  | .rxHiRead dt m c => Sys2Proof.Machine.execRxHiRead dt m c s
  | .locketAck dt m c => Sys2Proof.Machine.execLocketAck dt m c s
  | .locketTimeout dt c id => Sys2Proof.Machine.execLocketTimeout dt c id s
  | .tempSample dt readings => Sys2Proof.Machine.execTempSample dt readings s
  | .railSample dt st core serdes => Sys2Proof.Machine.execRailSample dt st core serdes s
  | .wearMeasure dt st r1 r2 r3 => Sys2Proof.Machine.execWearMeasure dt st r1 r2 r3 s
  | .eqhUpdate dt => Sys2Proof.Machine.execEqhUpdate dt s
  | .wearRecordWrite dt => Sys2Proof.Machine.execWearRecordWrite dt s
  | .logFlush dt failA failB => Sys2Proof.Machine.execLogFlush dt failA failB s
  | .loupeTimeCopy dt => Sys2Proof.Machine.execLoupeTimeCopy dt s
  | .timeUncTimeout dt => Sys2Proof.Machine.execTimeUncTimeout dt s
  | .nonceExpiry dt => Sys2Proof.Machine.execNonceExpiry dt s
  | .reqLenWrite dt b len => Sys2Proof.Machine.execReqLenWrite dt b len s
  | .getIdentity h => Sys2Proof.Machine.execGetIdentity h s
  | .getStatus h => Sys2Proof.Machine.execGetStatus h s
  | .getNonce h => Sys2Proof.Machine.execGetNonce h s
  | .readReg h a n => Sys2Proof.Machine.execReadReg h a n s
  | .readLog h first n => Sys2Proof.Machine.execReadLog h first n s
  | .readSensors h => Sys2Proof.Machine.execReadSensors h s
  | .readWear h => Sys2Proof.Machine.execReadWear h s
  | .readLoadRecord h st => Sys2Proof.Machine.execReadLoadRecord h st s
  | .nguSnap h u => Sys2Proof.Machine.execNguSnap h u s
  | .fence h st => Sys2Proof.Machine.execFence h st s
  | .rejoin h st => Sys2Proof.Machine.execRejoin h st s
  | .safeHold h => Sys2Proof.Machine.execSafeHold h s
  | .release h => Sys2Proof.Machine.execRelease h s
  | .restart h start => Sys2Proof.Machine.execRestart h start s
  | .shutdown h => Sys2Proof.Machine.execShutdown h s
  | .recover h => Sys2Proof.Machine.execRecover h s
  | .claspRestart h => Sys2Proof.Machine.execClaspRestart h s
  | .nguStrandWarm h st => Sys2Proof.Machine.execNguStrandWarm h st s
  | .nguStrandCold h st => Sys2Proof.Machine.execNguStrandCold h st s
  | .nguLoupeReset h => Sys2Proof.Machine.execNguLoupeReset h s
  | .setTime h ns => Sys2Proof.Machine.execSetTime h ns s
  | .updateBegin h sess => Sys2Proof.Machine.execUpdateBegin h sess s
  | .updateAbort h sess => Sys2Proof.Machine.execUpdateAbort h sess s
  | .activate h sess due => Sys2Proof.Machine.execActivate h sess due s
  | .activationDue dt start => Sys2Proof.Machine.execActivationDue dt start s
  | .cancel h sess => Sys2Proof.Machine.execCancel h sess s
  | .confirm h => Sys2Proof.Machine.execConfirm h s
  | .trialConfirmDue dt => Sys2Proof.Machine.execTrialConfirmDue dt s
  | .trialRestartDue dt start => Sys2Proof.Machine.execTrialRestartDue dt start s
  | .revert h verdict start => Sys2Proof.Machine.execRevert h verdict start s
  | .enrol h body => Sys2Proof.Machine.execEnrol h body s
  | .lcAdvance h target => Sys2Proof.Machine.execLcAdvance h target s
  | .relayBlock dt path sess off hop total progA progB data sig => Sys2Proof.Machine.execRelayBlock dt path sess off hop total progA progB data sig s
  | .relayRequest dt path sess outcome ranges => Sys2Proof.Machine.execRelayRequest dt path sess outcome ranges s
  | .relayState dt path sess serial hop state stored total verS verA => Sys2Proof.Machine.execRelayState dt path sess serial hop state stored total verS verA s
  | .relayStateTimer dt => Sys2Proof.Machine.execRelayStateTimer dt s
  | .relayQueueSend dt path outcome => Sys2Proof.Machine.execRelayQueueSend dt path outcome s
  | .relayGapRequest dt => Sys2Proof.Machine.execRelayGapRequest dt s
  | .relayRequestRetry dt => Sys2Proof.Machine.execRelayRequestRetry dt s
  | .relayUpLostRepeat dt => Sys2Proof.Machine.execRelayUpLostRepeat dt s
  | .sessionVerify dt copyA copyB => Sys2Proof.Machine.execSessionVerify dt copyA copyB s
  | .bankVioCheck dt st k mv => Sys2Proof.Machine.execBankVioCheck dt st k mv s
  | .pcieLinkUp dt b => Sys2Proof.Machine.execPcieLinkUp dt b s
  | .postedCreditReturn dt b n => Sys2Proof.Machine.execPostedCreditReturn dt b n s
  | .cbsCreditReachesZero dt st e q => Sys2Proof.Machine.execCbsCreditReachesZero dt st e q s
  | .reservedEncoding dt c w => Sys2Proof.Machine.execReservedEncoding dt c w s
  | .ngufotuMessage dt path txn kind => Sys2Proof.Machine.execNgufotuMessage dt path txn kind s
  | .servicePortLinkChange dt up => Sys2Proof.Machine.execServicePortLinkChange dt up s
  | .wipeComplete dt => Sys2Proof.Machine.execWipeComplete dt s
  | .lifeCycleFusesProgrammed dt => Sys2Proof.Machine.execLifeCycleFusesProgrammed dt s

end Sys2Proof.Machine
end

