-- ==== Sys2Proof/Machine/Step.lean ====
section
/-! DEFINITION. One step: the command at the front of the queue, or one strand clock cycle when none waits. -/

namespace Sys2Proof.Machine

/-- The front command's effect with the queue's rest; on an empty queue one cycle passes (DESIGN CHOICE).  (DESIGN CHOICE, unsafe: log entry 1.)
(DESIGN CHOICE, safe: log entry 6.) -/
def step (s : State) : Host.Outcome State Fault Refusal :=
  match s.pending with
  | [] => .next (s.run Dev.tick)
  | c :: rest => exec c { s with pending := rest }

/-- The command that a word spells put at the front of the queue; no word spells one.  (DESIGN CHOICE, safe: log entry 2.) -/
def State.withFetchWord (s : State) (nbits w : Nat) : State :=
  match decodeTableWord nbits w with
  | none => s
  | some c => { s with pending := c :: s.pending }

end Sys2Proof.Machine
end

