-- ==== Sys2Proof/Safety.lean ====
section
/-! DEFINITION. The terms that claims about the device use: safe steps, what a command leaves behind, who reaches a strand's
registers, and what one strand's commands keep of the rest. -/

namespace Sys2Proof

open Machine

/-- A step of this device always answers a next state: no command faults and none is turned away. -/
def Safe (s : State) : Prop := ∃ t, step s = .next t

/-- The command completes: it answers a next state, with the queue as it was.  Its device is the one that the command's own effect leaves, which has
property `P`, after what the device does by itself at the end of every command (`Dev.after`). -/
def Ends (c : Instr) (s : State) (P : Dev → Prop) : Prop := ∃ e, exec c s = .next { s with dev := e.after s.dev } ∧ P e

/-- Nothing waits in the device for the end of a command: no mark of a bank, no watchdog run down, no timeout or purge of a Locket, no request
in an exchange bank, no record in a merge group (R322, R382, R399, R417, R442). -/
def Still (d : Dev) : Prop :=
  (∀ i, (d.strand i).banks.marked = false ∧ (d.strand i).banks.ledgerUe = false ∧ (d.strand i).banks.exch = none ∧
    (d.strand i).core.wdog ≠ some 0 ∧ d.exchangeFind i = none) ∧
  (∀ c j, ((d.chan c).side j).due = none ∧ ((d.chan c).side j).purgeAt = none) ∧
  (∀ g < 8, (d.mg g).first = [] ∧ (d.mg g).out = [] ∧ (d.mg g).abort = none)

/-- A strand's logic is clocked: RUN or HOLD (R41). -/
abbrev Active (d : Dev) (i : StrandId) : Prop := d.phase i = .run ∨ d.phase i = .hold

/-- A write by master `m` reaches the registers of strand `i` beyond its supervisor page (R20, R32, R315, R316). -/
abbrev Reaches (d : Dev) (m : Master) (i : StrandId) : Prop :=
  match m with
  | .core j => j = i ∧ Active d i
  | .host b => d.linkOpen b = true ∧ d.strandsOn = true ∧ Active d i
  | .loupe => d.loupeRuns = true ∧ Active d i ∧ (d.supOf i).fenceIn = false

/-- The other strands are as they were (R22). -/
def OthersKept (d e : Dev) (i : StrandId) : Prop := ∀ j, j ≠ i → e.strand j = d.strand j ∧ e.supOf j = d.supOf j

/-- The device beside its strands' logic, the Clasp, the log and the update session is as it was. -/
def DeviceKept (d e : Dev) : Prop :=
  e.mode = d.mode ∧ e.base = d.base ∧ e.por = d.por ∧ e.devLock = d.devLock ∧ e.cfg = d.cfg ∧ e.holdBy = d.holdBy ∧
  e.sup = d.sup ∧ e.lkt = d.lkt ∧ e.epochs = d.epochs ∧ e.hm = d.hm ∧ e.flashes = d.flashes

/-- What a command carried out inside strand `i` keeps: the rest of the device and the other strands (R22). -/
def StrandFrame (d e : Dev) (i : StrandId) : Prop := DeviceKept d e ∧ ∀ j, j ≠ i → e.strand j = d.strand j

/-! ## What stays within a strand -/

/-- The parts of a strand's state; what the strand remembers of the present cycle (`cyc`), which the next cycle forgets, is no part. -/
inductive Part where
  | now | regs | cnt | snap | bead | bp | ports | pt | sw | time | bng | flg | dma | ledger | map | pkgs | machines | core | banks
deriving DecidableEq, Repr

/-- All of them. -/
def Part.all : List Part :=
  [.now, .regs, .cnt, .snap, .bead, .bp, .ports, .pt, .sw, .time, .bng, .flg, .dma, .ledger, .map, .pkgs, .machines, .core, .banks]

/-- A part is in `y` as in `x`; requests on their way to the Clasp are no part. -/
def Part.same (x y : StrandSt) : Part → Prop
  | .now => y.now = x.now
  | .regs => y.regs = x.regs
  | .cnt => y.cnt = x.cnt
  | .snap => y.snap = x.snap
  | .bead => y.bead = x.bead
  | .bp => y.bp = x.bp
  | .ports => y.ports = x.ports
  | .pt => y.pt = x.pt
  | .sw => y.sw = x.sw
  | .time => y.time = x.time
  | .bng => y.bng = x.bng
  | .flg => y.flg = x.flg
  | .dma => { y.dma with reqs := [] } = { x.dma with reqs := [] }
  | .ledger => y.ledger = x.ledger
  | .map => y.map = x.map
  | .pkgs => y.pkgs = x.pkgs
  | .machines => y.machines = x.machines
  | .core => y.core = x.core
  | .banks => y.banks = x.banks

/-- Every part but those listed is as it was. -/
def Keeps (x y : StrandSt) (but : List Part) : Prop := ∀ p ∈ Part.all, p ∉ but → p.same x y

/-- A command changed at most the listed parts of strand `i`, and of the rest of the device only what every command may. -/
def Only (d e : Dev) (i : StrandId) (but : List Part) : Prop := StrandFrame d e i ∧ Keeps (d.strand i) (e.strand i) but

/-- Every entry of a table but those at the listed keys is as it was. -/
def TabBut {α : Type} (dflt : α) (t u : Tab α) (keys : List Nat) : Prop := ∀ k, k ∉ keys → u.get dflt k = t.get dflt k

/-- Every byte of a memory outside `n` bytes from `a` reads as it did. -/
def MemBut (x y : Memory) (a n : Nat) : Prop := ∀ k, k < a ∨ a + n ≤ k → Memory.get y k = Memory.get x k

/-- Every register but those listed is as it was. -/
def RegsBut (x y : StrandSt) (offs : List Nat) : Prop := ∀ off, off ∉ offs → y.rd off = x.rd off

/-- Every counter but those listed is as it was. -/
def CntsBut (x y : StrandSt) (offs : List Nat) : Prop := ∀ off, off ∉ offs → y.counter off = x.counter off

/-- Every Bead engine but `n` is as it was. -/
def EngsBut (x y : StrandSt) (n : Nat) : Prop := ∀ k, k ≠ n → y.eng k = x.eng k

/-- One counter grew by one, saturating, and no other changed (R16). -/
def Counted (x y : StrandSt) (off : Nat) : Prop := y.counter off = min counterMax (x.counter off + 1) ∧ CntsBut x y [off]

/-- One bit of one register was set, and no other register changed. -/
def Flagged (x y : StrandSt) (off bit : Nat) : Prop := y.rd off = setBit (x.rd off) bit true ∧ RegsBut x y [off]

/-- What a snapshot-and-clear command leaves of the live counters `c` and the snapshots `p` of the unit whose counters lie from `lo` below `hi`: a
counter is copied as it stood before the events that the record `k` of the present cycle holds, and then counts these alone; a second command of the
cycle, and what lies outside the unit, changes nothing (R17). -/
def SnapTaken (k : Cycle) (c p c' p' : Tab Nat) (lo hi : Nat) : Prop :=
  ∀ off,
    if lo ≤ off ∧ off < hi ∧ lo ∉ k.snaps then
      match tabFind k.cnt.cells off with
      | none => p'.get 0 off = c.get 0 off ∧ c'.get 0 off = 0
      | some x => (c.get 0 off ≠ 0 → p'.get 0 off = x.1) ∧ c'.get 0 off = min counterMax x.2
    else p'.get 0 off = p.get 0 off ∧ c'.get 0 off = c.get 0 off

/-- The registers from `lo` below `hi` hold their reset values. -/
def RegsReset (x : StrandSt) (lo hi : Nat) : Prop := ∀ off, lo ≤ off → off < hi → x.rd off = strandReset off

/-- The log ring holds a record of this code (R438). -/
def LogHas (d : Dev) (code : Nat) : Prop := ∃ r ∈ d.loupe.log, r.code = code

/-- The device has sent `o` since `d`. -/
def Sent (d e : Dev) (o : Out) : Prop := o ∈ e.out.drop d.out.length

/-! ## What stays in the device beside its strands -/

/-- The parts of the device; what it remembers of the present cycle (`cyc`) is no part. -/
inductive DPart where
  | ns | mode | cfg | sup | strands | lkt | epochs | loupe | hm | flashes | upd
deriving DecidableEq, Repr

/-- All of them. -/
def DPart.all : List DPart := [.ns, .mode, .cfg, .sup, .strands, .lkt, .epochs, .loupe, .hm, .flashes, .upd]

/-- A part is in `e` as in `d`. -/
def DPart.same (d e : Dev) : DPart → Prop
  | .ns => e.ns = d.ns
  | .mode => e.mode = d.mode ∧ e.base = d.base ∧ e.por = d.por ∧ e.devLock = d.devLock ∧ e.holdBy = d.holdBy ∧ e.holdFrom = d.holdFrom ∧
      e.sleptAt = d.sleptAt
  | .cfg => e.cfg = d.cfg
  | .sup => e.sup = d.sup
  | .strands => e.strands = d.strands
  | .lkt => e.lkt = d.lkt
  | .epochs => e.epochs = d.epochs
  | .loupe => e.loupe = d.loupe
  | .hm => e.hm = d.hm
  | .flashes => e.flashes = d.flashes
  | .upd => e.upd = d.upd

/-- Every part of the device but those listed is as it was; the Clasp and the outputs may change. -/
def DevKeeps (d e : Dev) (but : List DPart) : Prop := ∀ p ∈ DPart.all, p ∉ but → p.same d e

/-- Every Locket channel but `c` is as it was. -/
def ChansBut (d e : Dev) (c : Nat) : Prop := ∀ k, k ≠ c → e.chan k = d.chan k

/-- The Locket identity of a master (R409). -/
def Machine.Master.ident (m : Master) : Nat :=
  match m with
  | .host b => 1 + b2n b
  | .core i => 4 + i.val
  | .loupe => 0

/-- Master `m` reaches channel `c` and is its side `j`; the Loupe is not cut from it by a fence inward (R412, R424). -/
abbrev AtChannel (d : Dev) (m : Master) (c : Nat) (j : Bool) : Prop :=
  (d.chan c).sideOf m.ident = some j ∧
  match m with
  | .host b => d.linkOpen b = true ∧ d.mailboxOn = true
  | .core i => Active d i
  | .loupe => d.loupeRuns = true ∧ d.lktCut (d.chan c) = false

/-- Channel `c` has side `j` as `y`, the other side as `z`, and counted one event in each counter of `k`; nothing else of it and no other channel
changed. -/
def ChanIs (d e : Dev) (c : Nat) (j : Bool) (y z : LktSide) (k : List Nat) : Prop :=
  ChansBut d e c ∧ (e.chan c).bind = (d.chan c).bind ∧ (e.chan c).snap = (d.chan c).snap ∧ (e.chan c).side j = y ∧ (e.chan c).side (!j) = z ∧
  TabBut 0 (d.chan c).cnt (e.chan c).cnt (k.map (8 * ·)) ∧ ∀ n ∈ k, (e.chan c).cnt.get 0 (8 * n) = min counterMax ((d.chan c).cnt.get 0 (8 * n) + 1)

/-- Nothing waits at the Clasp: no strand's request, no merged record. -/
abbrev Quiet (d : Dev) : Prop := d.clasp.q = Quad.all [] ∧ ∀ g < 8, (d.mg g).out = []

/-- A write by master `m` reaches the Clasp's registers, as those of link `b` (R314, R315, R430). -/
abbrev AtClasp (d : Dev) (m : Master) (b : Bool) : Prop :=
  match m with
  | .host c => c = b ∧ d.linkOpen c = true ∧ d.claspOn = true
  | .loupe => b = false ∧ d.loupeRuns = true
  | .core _ => False

/-- Every shared Clasp register but those listed is as it was. -/
def ClaspBut (d e : Dev) (offs : List Nat) : Prop := ∀ off, off ∉ offs → e.drd off = d.drd off

/-- Every merge group but `g` is as it was. -/
def GroupsBut (d e : Dev) (g : Nat) : Prop := ∀ h, h ≠ g → e.mg h = d.mg h

/-- The strands but those listed are as they were. -/
def StrandsBut (d e : Dev) (l : List StrandId) : Prop := ∀ j, j ∉ l → e.strand j = d.strand j

/-- The device `dt` ns later, with no command in between. -/
def later (s : State) (dt : Nat) : Dev := s.dev.later dt

/-- A strand as its units see it while a command is carried out: with what they see of the device. -/
def view (d : Dev) (i : StrandId) : StrandSt := { d.strand i with env := d.envOf i }

/-- No requester has reached a bank of strand `i` yet in the present cycle (R388, R390). -/
abbrev Idle (d : Dev) (i : StrandId) : Prop := (view d i).thisCyc.ports = [] ∧ (view d i).thisCyc.wrs = []

/-- A block of SRAM that the core owns: within one bank that is ON, with no word in error, and no bank reached in the present cycle. -/
abbrev CoreBlock (d : Dev) (i : StrandId) (a n : Nat) : Prop :=
  let x := d.strand i
  Idle d i ∧ Memory.wf x.banks.mem = true ∧ x.banks.ecc = {} ∧ a % bankSize + n ≤ bankSize ∧ bankNo a < 48 ∧ x.bankPwr (bankNo a) = 0 ∧
  x.bankHo (bankNo a) = 0 ∧ x.bankOwner (bankNo a) = 1

/-- A block of SRAM that the host owns through BAR2: within one bank that is ON and enabled for it, with no word in error, and no bank reached in
the present cycle (R318). -/
abbrev HostBlock (d : Dev) (i : StrandId) (a n : Nat) : Prop :=
  let x := d.strand i
  Idle d i ∧ Memory.wf x.banks.mem = true ∧ x.banks.ecc = {} ∧ 0 < n ∧ a % bankSize + n ≤ bankSize ∧ bankNo a < 48 ∧ x.bankPwr (bankNo a) = 0 ∧
  x.bankHo (bankNo a) = 0 ∧ x.bankOwner (bankNo a) = 2 ∧ d.bar2En i (bankNo a) = true

/-- No engine of strand `i` has been started in the present cycle (R56, R75). -/
abbrev NoStarts (d : Dev) (i : StrandId) : Prop := (view d i).thisCyc.begun = {}

/-- BEAD_FLAGS of engine `n` when its queues are emptied: THR is set where the TX level so falls to the threshold (R69). -/
def thrFlag (x : StrandSt) (n : Nat) : Word :=
  if !x.txThr n && decide (x.txThresh n ≤ x.txDepth n) then setBit (x.rd (Reg.BEAD_FLAGS n)) 9 true else x.rd (Reg.BEAD_FLAGS n)

/-! ## One Bead instruction -/

/-- An instruction may execute at the present engine clock: its engine is started, has not been told to stop, and no word of it at PC has failed
its parity check for good. -/
abbrev AtClock (d : Dev) (a : BeadAt) : Prop :=
  let x := (d.strand a.st).eng a.n
  Active d a.st ∧ x.state ≠ .stopped ∧ x.stopPend = false ∧ x.stepping = 0 ∧ x.bad.get false x.pc = false

/-- Engine `n` at an engine clock that it has taken. -/
def clocked (x : StrandSt) (n : Nat) : Engine := { x.eng n with due := false }

/-- An engine that has completed an instruction: it goes on at `pc` after `dly` delay clocks (R70, R87). -/
def retired (x : Engine) (pc dly : Nat) : Engine :=
  { x with state := .running, pc := pc, dly := dly, stamp := none, sync := .idle, stepping := 0,
           stallCause := if x.state = .stalled then 0 else x.stallCause }

/-- The next instruction's address (R90). -/
def nextPc (x : Engine) : Nat := (x.pc + 1) % 64

/-- The levels an instruction's side-set gives its pins (R55, R88). -/
def sidePins (x : StrandSt) (a : BeadAt) : List (Nat × Bool) :=
  (if x.sideEn a.n && a.sse then [(x.sideBase a.n, bitN a.ss 0), (x.sideBase a.n + 1, bitN a.ss 1)] else []).filter (·.1 < 24)

/-- The levels that driving the low `k` bits of `v` gives the pins of an engine's physical output group, its side-set pins left out (R53, R55, R92). -/
def groupPins (x : StrandSt) (n k v : Nat) : List (Nat × Bool) :=
  if x.outKind n then []
  else ((List.range (min k (x.outCnt n))).map fun j => (x.outBase n + j, bitN v j)).filter fun c =>
    c.1 < 24 && !(x.sideEn n && decide (x.sideBase n ≤ c.1 ∧ c.1 ≤ x.sideBase n + 1))

/-- Instruction `c` of engine `a.n` completes there: the engine is then `y`, it has counted one instruction, the pins `pins` and its
side-set change in the next cycle, `Q` holds of the strand, and beside the parts `but` nothing else changes. -/
def Completes (c : Instr) (s : State) (a : BeadAt) (y : Engine) (pins : List (Nat × Bool)) (but : List Part)
    (Q : StrandSt → StrandSt → Prop) : Prop :=
  Ends c s fun e =>
    let d := s.dev.beforeBead a
    Only d e a.st (.bead :: .bp :: .cnt :: but) ∧ EngsBut (d.strand a.st) (e.strand a.st) a.n ∧
    (e.strand a.st).eng a.n = y ∧ Counted (d.strand a.st) (e.strand a.st) (Reg.BEAD_CNT a.n + 8) ∧
    (e.strand a.st).bp = { (d.strand a.st).bp with next := (d.strand a.st).bp.next ++ pins ++ sidePins (d.strand a.st) a } ∧
    Q (d.strand a.st) (e.strand a.st)

/-- An instruction that cannot complete yet: the engine is then `y`, and counts no instruction (R70). -/
def Blocks (c : Instr) (s : State) (a : BeadAt) (y : Engine) (but : List Part) (Q : StrandSt → StrandSt → Prop) : Prop :=
  Ends c s fun e =>
    let d := s.dev.beforeBead a
    Only d e a.st (.bead :: but) ∧ EngsBut (d.strand a.st) (e.strand a.st) a.n ∧ (e.strand a.st).eng a.n = y ∧
    Q (d.strand a.st) (e.strand a.st)

/-! ## Ngufotu requests -/

/-- A request arrives on a path that can bring it, within the rate limit, in its format, and is no repetition (R441, R444, R447). -/
abbrev Arrives (d : Dev) (h : NguHdr) : Prop := d.nguPath h.path = true ∧ d.rateFull = false ∧ d.keptResp h = none ∧ d.lengthOk h = true

/-- Operation `op` is served and the request may command it: a query or a host's command without signature, or any with a key that may sign it and the
current nonce (R429, R445, R446). -/
abbrev Permits (d : Dev) (h : NguHdr) (op : Nat) (query : Bool) : Prop :=
  d.nguServed op = true ∧
  ((h.signed = false ∧ op < 0x300 ∧ (query = true ∨ h.path < 2)) ∨
   (h.signed = true ∧ d.nguKeyOk h op = true ∧ d.nonceOk h.nonce = true))

/-- The request has been answered: the answer went out, on a host path it stands in the request buffer, and on a strand path it is ready for the
exchange bank (R442, R450). -/
def Answered (d e : Dev) (h : NguHdr) (op status : Nat) (body : List Byte) : Prop :=
  let bytes := ngHeader h.txn op status body.length ++ body
  Sent d e (.answer op status body) ∧
  (∀ b, h.path = b2n b → (e.link b).busy = false ∧ (e.link b).done = true ∧ (e.link b).reqBuf = Memory.write (d.link b).reqBuf 0 bytes) ∧
  ∀ i ∈ strandPath h.path, ∀ x ∈ (d.strand i).banks.exch, (e.strand i).banks.exch = some { x with resp := some bytes }

/-- The device, but for the Loupe's own state and the request buffers, once the Loupe has read a request and has its answer: on a strand path the exchange bank has been
read and the answer waits for it; otherwise nothing has changed (R442). -/
def told (d : Dev) (h : NguHdr) (op status : Nat) (body : List Byte) : Dev :=
  match strandPath h.path with
  | some i => (d.heard h.path).exchangeReply i (some (ngHeader h.txn op status body.length ++ body))
  | none => d

/-- The same once the Loupe has discarded it: on a strand path its notice is acknowledged (R442). -/
def dropped (d : Dev) (path : Nat) : Dev :=
  match strandPath path with
  | some i => d.exchangeReply i none
  | none => d

/-- A strand without its request in an exchange bank. -/
def noExch (x : StrandSt) : StrandSt := { x with banks := { x.banks with exch := none } }

/-! ## One D32 instruction -/

/-- A core fetches the instruction at its pc: it runs, no breakpoint halts it there, and the fetch does not trap (R362, R371, R383). -/
abbrev Fetches (d : Dev) (c : Fin 5) : Prop := d.coreLive c = true ∧ d.atBreak c = false ∧ fetchTrap c (d.coreOf c).pc = none

/-- A core executes at its pc under guard `g`: it fetches the instruction, and the guard holds (R366). -/
abbrev AtCore (d : Dev) (c : Fin 5) (g : Nat) : Prop := Fetches d c ∧ (d.coreOf c).guard g = true

/-- An operation on the core's registers alone: no load, no store, no SYS instruction. -/
def Machine.DOp.plain (o : DOp) : Bool :=
  match o with
  | .load _ _ _ _ => false
  | .store _ _ _ _ => false
  | .sys _ _ => false
  | _ => true

/-- The address of the next instruction (R362). -/
def Machine.DCore.nextPc (k : DCore) : Nat := (k.pc + 4) % 2 ^ 32

/-- Core `c` is then `y`; beside its counters nothing else changes: no memory, no register of the strand, no other strand. -/
def CoreIs (d e : Dev) (c : Fin 5) (y : DCore) : Prop :=
  e.coreOf c = y ∧
  (c.val < 4 → Only d e (coreStrand c) [.core, .cnt] ∧ e.loupe = d.loupe) ∧
  (c.val = 4 → DevKeeps d e [.loupe] ∧ e.loupe = { d.loupe with core := y })

/-- Core `c` completes an instruction and is then `y`: a strand's core counts it, and no other counter changes (R386). -/
def CoreDone (d e : Dev) (c : Fin 5) (y : DCore) : Prop :=
  CoreIs d e c y ∧ (c.val < 4 → Counted (d.strand (coreStrand c)) (e.strand (coreStrand c)) Reg.CORE_CNT)

/-- Core `c`, whose registers are `k`, takes a trap: the vector at VBASE + 0x20 × cause, FLAGS and IE saved, TM set, IE cleared, and a
strand's record of its last trap; in a trap it stops as a double trap that is flagged and logged (R377, R385). -/
def Trapped (d e : Dev) (c : Fin 5) (k : DCore) (cause tpc tval : Nat) : Prop :=
  let y : DCore :=
    if k.tm then { k with state := .doubleTrap }
    else { k with tflags := BitVec.ofNat 32 (b2n k.ie * 2 ^ 31 + k.flags.toNat), tpc := BitVec.ofNat 32 tpc, tcause := BitVec.ofNat 32 cause,
                  tval := BitVec.ofNat 32 tval, tm := true, ie := false, pc := (k.vbase.toNat + 0x20 * cause) % 2 ^ 32 }
  e.coreOf c = y ∧ (k.tm = true → LogHas e 0x0F01) ∧
  (c.val < 4 → Only d e (coreStrand c) [.core, .cnt, .regs] ∧
    RegsBut (d.strand (coreStrand c)) (e.strand (coreStrand c)) [Reg.CORE_LAST_TRAP, Reg.CORE_LAST_TPC, Reg.CORE_FLAGS] ∧
    (e.strand (coreStrand c)).rd Reg.CORE_LAST_TRAP = BitVec.ofNat 32 cause ∧
    (e.strand (coreStrand c)).rd Reg.CORE_LAST_TPC = BitVec.ofNat 32 tpc ∧
    (k.tm = true → (e.strand (coreStrand c)).bit Reg.CORE_FLAGS 0 = true)) ∧
  (c.val = 4 → DevKeeps d e [.loupe])

/-- A result `v` reaches Wd of core `c`, whose other registers are then `k`: in W15 it is the jump's target, and an unaligned one takes
the ALIGN trap of the core as it was, `k0` (R362). -/
def Lands (d e : Dev) (c : Fin 5) (k0 k : DCore) (wd : Nat) (v : Word) : Prop :=
  if wd ≠ 15 then CoreDone d e c { k with w := k.w.set 0 wd v, pc := k0.nextPc }
  else if v.toNat % 4 = 0 then CoreDone d e c { k with pc := v.toNat }
  else Trapped d e c k0 2 k0.pc v.toNat

/-! ## D32 words -/

/-- A source of a format A or SH word within its field: a register, or an immediate below `n`. -/
def Machine.Src.wf (x : Src) (n : Nat) : Prop :=
  match x with
  | .reg r => r < 16
  | .imm v => v < n

/-- An addressing mode within its fields. -/
def Machine.AMode.wf (m : AMode) : Prop :=
  match m with
  | .disp d => d < 2 ^ 12
  | .postInc => True
  | .preDec => True
  | .index wi sh => wi < 16 ∧ sh < 4

/-- An operation whose major, registers and values lie in the fields of its format (R364, R365). -/
def Machine.DOp.wf (o : DOp) : Prop :=
  match o with
  | .alu maj _ wd wa x => maj ≤ 0x0C ∧ wd < 16 ∧ wa < 16 ∧ x.wf (2 ^ 12) ∧ (0x08 ≤ maj → maj ≤ 0x0A → wa = 0) ∧ (0x0B ≤ maj → wd = 0)
  | .wide maj wd imm => (maj = 0x0D ∨ maj = 0x0E) ∧ wd < 16 ∧ imm < 2 ^ 16
  | .shf _ wd wa kind cnt => wd < 16 ∧ wa < 16 ∧ kind < 4 ∧ cnt.wf (2 ^ 8)
  | .load maj wd wa m => 0x10 ≤ maj ∧ maj ≤ 0x14 ∧ wd < 16 ∧ wa < 16 ∧ m.wf
  | .store maj wd wa m => 0x15 ≤ maj ∧ maj ≤ 0x17 ∧ wd < 16 ∧ wa < 16 ∧ m.wf
  | .branch _ ofs => ofs < 2 ^ 21
  | .branchReg _ wa => wa < 16
  | .sys fn imm => fn < 16 ∧ imm < 2 ^ 14
  | .mfs wd idx => wd < 16 ∧ idx < 2 ^ 8
  | .mts wa idx => wa < 16 ∧ idx < 2 ^ 8
  | .mulDiv maj _ wa wb => 0x1D ≤ maj ∧ maj ≤ 0x20 ∧ wa < 16 ∧ wb < 16
  | .decimal maj _ wd wa wb => 0x21 ≤ maj ∧ maj ≤ 0x25 ∧ wd < 16 ∧ wa < 16 ∧ wb < 16 ∧ (0x23 ≤ maj → wb = 0)

/-! ## The memories -/

/-- Every memory has its canonical form: each strand's SRAM, the Loupe SRAM, the Hallmark, the request buffers and the recovery buffer. -/
def Canonical (d : Dev) : Prop :=
  (∀ i, Memory.wf (d.strand i).banks.mem = true) ∧ Memory.wf d.loupe.sram = true ∧ Memory.wf d.hm.mem = true ∧
  (∀ b, Memory.wf (d.link b).reqBuf = true) ∧ Memory.wf d.clasp.rec_.buf = true

/-! ## The device mode -/

/-- What the device mode keeps (R38, R40, R44, R45): a legal mode, MD0 in POR; a base mode is the recorded one; the device lock is set from the base modes to MD9;
MD9 has a cause, and was entered from the base mode, from MD8, or at the end of the load phase. -/
def Legal (d : Dev) : Prop :=
  d.mode ≤ 11 ∧ (d.base = 0 ∨ (4 ≤ d.base ∧ d.base ≤ 7)) ∧ (d.por = true → d.mode = 0) ∧ (4 ≤ d.mode → d.mode ≤ 7 → d.mode = d.base) ∧
  (4 ≤ d.mode → d.mode ≤ 9 → d.devLock = true) ∧
  (d.mode = 9 → d.holdBy = some .degradedStart ∨ (d.holdBy ≠ none ∧ (d.holdFrom = 8 ∨ (4 ≤ d.holdFrom ∧ d.holdFrom = d.base))))

end Sys2Proof
end

