-- ==== Sys2Proof/Certificates/Slice0/Obligations.lean ====
section
/-! DEFINITION. What is claimed of the model. -/

section

open Sys2Proof Sys2Proof.Machine

/-! ## Steps -/

/-- A step with command `c` at the front of the queue is `exec c` on the state with the queue's rest, and a step on an empty queue lets one cycle
pass.  Every command answers a next state: its effect on the device, and what the device then does by itself, which where nothing waits for it is no
more than the Loupe's mark of its time (`Dev.timeWatch`) and what the Clasp sends. -/
def Obligations.StepRunsFront : Prop :=
  (∀ (c : Instr) (rest : List Instr) (d : Dev), step { pending := c :: rest, dev := d } = exec c { pending := rest, dev := d }) ∧
  (∀ d : Dev, step { pending := [], dev := d } = .next { pending := [], dev := d.tick.after d }) ∧
  (∀ (c : Instr) (s : State), Ends c s fun _ => True) ∧
  ∀ d b : Dev, Still d → DevKeeps d (d.after b) [.loupe] ∧ (d.after b).loupe = (d.timeWatch b).loupe


/-! ## Bead engines: commands -/

/-- START and STEP of a STOPPED engine that is not marked UNAVAIL and whose claims meet no other claim, in a cycle in which no engine has started
before (R52, R56, R63, R72): the engine runs from ENTRY with its divider restarted; RESUME keeps the shift counters and the CRC accumulator, which
START without it clears and loads; every pin of its output group and side-set is the engine's; nothing else changes.  In a state other than
STOPPED, or marked UNAVAIL, the command only sets CMD_REJECT; against another engine's claim the engine stays STOPPED with STOP_CAUSE and flag
PIN_CONFLICT (R56, R72, R81). -/
def Obligations.BeadStart : Prop :=
  ∀ (s : State) (dt : Nat) (m : Master) (i : StrandId) (n : Fin 16) (r : Bool), Reaches (later s dt) m i → NoStarts (later s dt) i →
    let st := view (later s dt) i
    let x := st.eng n
    let y : Engine := { x with state := .running, pc := st.fld (Reg.BEAD_CTL n) 5 0, left := 2, acc := 0, dly := 0, due := false,
                               stopPend := false, stallCause := 0, sync := .idle, stamp := none, stepping := 0,
                               osrCnt := if r then x.osrCnt else 0, isrCnt := if r then x.isrCnt else 0,
                               crc := if r then x.crc else BitVec.ofNat 32 (st.crcEntry n).init }
    (x.state = .stopped → x.unavail = false → st.claimConflict n = false →
      Ends (.start dt m i n r) s (fun d => Only (later s dt) d i [.bead, .bp] ∧ EngsBut st (d.strand i) n ∧
        (d.strand i).eng n = y ∧ ∀ p ∈ st.claimPins n, (d.strand i).bp.own.get none p = some n.val) ∧
      Ends (.beadStep dt m i n r) s (fun d => Only (later s dt) d i [.bead, .bp] ∧ EngsBut st (d.strand i) n ∧
        (d.strand i).eng n = { y with stepping := 1 } ∧ ∀ p ∈ st.claimPins n, (d.strand i).bp.own.get none p = some n.val)) ∧
    (x.state ≠ .stopped ∨ x.unavail = true →
      Ends (.start dt m i n r) s (fun d => Only (later s dt) d i [.regs] ∧ Flagged st (d.strand i) (Reg.BEAD_FLAGS n) 2) ∧
      Ends (.beadStep dt m i n r) s (fun d => Only (later s dt) d i [.regs] ∧ Flagged st (d.strand i) (Reg.BEAD_FLAGS n) 2)) ∧
    (x.state = .stopped → x.unavail = false → st.claimConflict n = true →
      Ends (.start dt m i n r) s (fun d => Only (later s dt) d i [.regs, .bead] ∧ EngsBut st (d.strand i) n ∧
        (d.strand i).eng n = { x with stopCause := 3 } ∧ Flagged st (d.strand i) (Reg.BEAD_FLAGS n) 5) ∧
      Ends (.beadStep dt m i n r) s (fun d => Only (later s dt) d i [.regs, .bead] ∧ EngsBut st (d.strand i) n ∧
        (d.strand i).eng n = { x with stopCause := 3 } ∧ Flagged st (d.strand i) (Reg.BEAD_FLAGS n) 5))

/-- STOP sets STOP_PENDING on an engine that is not STOPPED and does nothing to one that is, in a cycle in which no engine has started (R72); at
the engine clock that follows, the engine stops with cause COMMAND and keeps its registers, PC, queues and claims (R74).  BEAD_CMD.EVT_SET sets
exactly the named EVT bits of an engine that watches none of them (R76). -/
def Obligations.BeadStopAndEvents : Prop :=
  ∀ (s : State) (m : Master) (i : StrandId) (n : Fin 16) (mask : Fin 16) (dt : Nat),
    (Reaches (later s dt) m i → NoStarts (later s dt) i →
      let x := ((later s dt).strand i).eng n
      Ends (.stop dt m i n) s (fun d => Only (later s dt) d i [.bead] ∧ EngsBut ((later s dt).strand i) (d.strand i) n ∧
        (d.strand i).eng n = if x.state = .stopped then x else { x with stopPend := true })) ∧
    (Active (later s dt) i → (((later s dt).strand i).eng n).stopPend = true →
      Ends (.stopAct dt i n) s (fun d => Only (later s dt) d i [.bead] ∧ EngsBut ((later s dt).strand i) (d.strand i) n ∧
        (d.strand i).eng n = { ((later s dt).strand i).eng n with
          state := .stopped, stopCause := 1, stopPend := false, dly := 0, due := false, stepping := 0, sync := .idle, stamp := none })) ∧
    (Reaches (later s dt) m i → (((later s dt).strand i).eng n).sync = .idle →
      Ends (.evtSet dt m i n mask) s (fun d => Only (later s dt) d i [.regs] ∧ RegsBut ((later s dt).strand i) (d.strand i) [Reg.BEAD_EVT n] ∧
        (d.strand i).rd (Reg.BEAD_EVT n) = ((later s dt).strand i).rd (Reg.BEAD_EVT n) ||| BitVec.ofNat 32 mask))

/-- Commands of an engine in a cycle in which no engine has started.  STOPPED: QFLUSH empties its queues, and sets THR where the TX level so falls
to the threshold (R66, R69); PIN_RELEASE ends its pin and lane claims (R56); a write of an instruction word stores it, and it fails no longer (R78,
R79).  In another state each only sets its flag (R66, R72, R78).  DIV_RESTART puts the next engine clock 2 cycles later in any state (R52). -/
def Obligations.BeadStoppedCommands : Prop :=
  ∀ (s : State) (dt : Nat) (m : Master) (i : StrandId) (n : Fin 16) (k : Fin 64) (v : BitVec 24), Reaches (later s dt) m i →
    NoStarts (later s dt) i →
    let st := (later s dt).strand i
    let x := st.eng n
    (x.state = .stopped →
      Ends (.qflush dt m i n) s (fun d => Only (later s dt) d i [.bead, .regs] ∧ EngsBut st (d.strand i) n ∧
        (d.strand i).eng n = { x with txq := [], rxq := [] } ∧ RegsBut st (d.strand i) [Reg.BEAD_FLAGS n] ∧
        (d.strand i).rd (Reg.BEAD_FLAGS n) = thrFlag st n) ∧
      Ends (.pinRelease dt m i n) s (fun d => Only (later s dt) d i [.bp] ∧
        (∀ p < 24, (d.strand i).bp.own.get none p =
          if ((later s dt).strand i).bp.own.get none p = some n.val then none else ((later s dt).strand i).bp.own.get none p) ∧
        (∀ p < 4, (d.strand i).bp.lane.get none p =
          if ((later s dt).strand i).bp.lane.get none p = some n.val then none else ((later s dt).strand i).bp.lane.get none p)) ∧
      Ends (.beadImemWrite dt m i n k v) s (fun d => Only (later s dt) d i [.bead] ∧ EngsBut ((later s dt).strand i) (d.strand i) n ∧
        (d.strand i).eng n = { x with imem := x.imem.set 0 k v, bad := x.bad.set false k false } ∧ ((d.strand i).eng n).imem.get 0 k = v)) ∧
    (x.state ≠ .stopped →
      Ends (.qflush dt m i n) s (fun d => Only (later s dt) d i [.regs] ∧ Flagged ((later s dt).strand i) (d.strand i) (Reg.BEAD_FLAGS n) 2) ∧
      Ends (.pinRelease dt m i n) s (fun d => Only (later s dt) d i [.regs] ∧ Flagged ((later s dt).strand i) (d.strand i) (Reg.BEAD_FLAGS n) 2) ∧
      Ends (.beadImemWrite dt m i n k v) s (fun d => Only (later s dt) d i [.regs] ∧ Flagged ((later s dt).strand i) (d.strand i) (Reg.BEAD_FLAGS n) 0)) ∧
    Ends (.divRestart dt m i n) s (fun d => Only (later s dt) d i [.bead] ∧ EngsBut ((later s dt).strand i) (d.strand i) n ∧
      (d.strand i).eng n = { x with left := 2, acc := 0 })

/-- A write of BEAD_TXQ appends the word where the engine has a TX queue that no V port uses and that is not full, where it can be taken
from two cycles later; a write to a full queue is discarded, sets TXQ_OVF and counts in TXQ_DROPS (R67).  A read of BEAD_RXQ returns and
removes the oldest entry of a queue that is the master's, and returns 0 from an empty one, setting RXQ_UNF; the entry of a PUSH is there from the
next cycle (R67). -/
def Obligations.BeadQueueAccess : Prop :=
  ∀ (s : State) (dt : Nat) (m : Master) (i : StrandId) (n : Fin 16) (v : Word) (q : QEnt) (rest : List QEnt), Reaches (later s dt) m i →
    let st := (later s dt).strand i
    let x := st.eng n
    (st.txDepth n ≠ 0 → st.vBound n = false →
      (x.txq.length < st.txDepth n →
        Ends (.beadTxqWrite dt m i n v) s (fun d => Only (later s dt) d i [.bead] ∧ EngsBut st (d.strand i) n ∧
          (d.strand i).eng n = { x with txq := x.txq ++ [{ word := v, ready := st.now + 2 }] })) ∧
      (st.txDepth n ≤ x.txq.length →
        Ends (.beadTxqWrite dt m i n v) s (fun d => Only (later s dt) d i [.regs, .cnt] ∧ Flagged st (d.strand i) (Reg.BEAD_FLAGS n) 3 ∧
          Counted st (d.strand i) (Reg.BEAD_CNT n + 32)))) ∧
    (st.rxDepth n ≠ 0 → st.vBound n = false → st.trkBound n = false →
      (x.rxq = q :: rest → q.ready ≤ st.now →
        Ends (.beadRxqRead dt m i n) s (fun d => Only (later s dt) d i [.bead] ∧ EngsBut st (d.strand i) n ∧
          (d.strand i).eng n = { x with rxq := rest } ∧ Sent (later s dt) d (.readData q.word.toNat))) ∧
      (x.rxq = [] ∨ (x.rxq = q :: rest ∧ st.now < q.ready) →
        Ends (.beadRxqRead dt m i n) s (fun d => Only (later s dt) d i [.regs] ∧ Flagged st (d.strand i) (Reg.BEAD_FLAGS n) 4 ∧
          Sent (later s dt) d (.readData 0))))

/-- A write of BEAD_QCFG that makes and ends no chain, with the engine STOPPED, takes effect and discards the engine's queue entries; with the
engine in another state it sets CFG_BUSY alone (R66).  A write of BEAD_CRCCFG to a STOPPED engine selects a table entry and loads its initial value (R62, R63), else it sets
CFG_BUSY alone (R78).  A write of BEAD_DIV stores the divider and leaves the running interval and its fraction alone (R52). -/
def Obligations.BeadConfiguration : Prop :=
  ∀ (s : State) (dt : Nat) (m : Master) (i : StrandId) (n : Fin 16) (v : Word), Reaches (later s dt) m i →
    let st := (later s dt).strand i
    let x := st.eng n
    (st.chainOdd n = false → fieldOf v 1 0 ≠ 3 → bitOf v 16 = false → st.chained n = false → x.state = .stopped →
      Ends (.beadQcfgWrite dt m i n v) s (fun d => Only (later s dt) d i [.bead, .regs] ∧ EngsBut st (d.strand i) n ∧
        (d.strand i).eng n = { x with txq := [], rxq := [] } ∧ RegsBut st (d.strand i) [Reg.BEAD_QCFG n, Reg.BEAD_FLAGS n] ∧
        (d.strand i).rd (Reg.BEAD_FLAGS n) = thrFlag st n ∧
        (d.strand i).fld (Reg.BEAD_QCFG n) 1 0 = fieldOf v 1 0 ∧ (d.strand i).fld (Reg.BEAD_QCFG n) 7 2 = fieldOf v 7 2 ∧
        (d.strand i).fld (Reg.BEAD_QCFG n) 13 8 = fieldOf v 13 8)) ∧
    (st.chainOdd n = false → x.state ≠ .stopped →
      Ends (.beadQcfgWrite dt m i n v) s (fun d => Only (later s dt) d i [.regs] ∧ Flagged st (d.strand i) (Reg.BEAD_FLAGS n) 1)) ∧
    (x.state = .stopped →
      Ends (.beadCrccfgWrite dt m i n v) s (fun d => Only (later s dt) d i [.bead, .regs] ∧ EngsBut st (d.strand i) n ∧
        (d.strand i).eng n = { x with crc := BitVec.ofNat 32 ((d.strand i).crcEntry n).init } ∧
        RegsBut st (d.strand i) [Reg.BEAD_CRCCFG n] ∧ (d.strand i).fld (Reg.BEAD_CRCCFG n) 2 0 = fieldOf v 2 0)) ∧
    (x.state ≠ .stopped →
      Ends (.beadCrccfgWrite dt m i n v) s (fun d => Only (later s dt) d i [.regs] ∧ Flagged st (d.strand i) (Reg.BEAD_FLAGS n) 1)) ∧
    Ends (.beadDivWrite dt m i n v) s (fun d => Only (later s dt) d i [.regs] ∧ RegsBut st (d.strand i) [Reg.BEAD_DIV n] ∧
      (d.strand i).fld (Reg.BEAD_DIV n) 23 0 = fieldOf v 23 0)

/-! ## Bead engines: instructions -/

/-- NOP, IRQ, CNT and JMP at an engine clock (R87, R89, R91, R96, R97): each completes and counts one instruction; NOP changes only PC and
its side-set; IRQ sets its flag; CNT decrements X or Y with 0 going to 0xFFFF and jumps unless the result is 0; JMP goes to ADDR when its
condition holds, and with a reserved condition acts as NOP.  An instruction word that fails its parity check twice, or has done so since it was last
written, stops the engine with cause IMEM_PARITY before any effect and puts its pins in their safe state; one that is clean at the refetch executes
a cycle later; both are counted in PARITY_RETRIES and flagged (R79). -/
def Obligations.BeadFlow : Prop :=
  ∀ (s : State) (a : BeadAt) (reg : Bool) (t : Fin 64) (c : Fin 32),
    let d := s.dev.beforeBead a
    let st := view d a.st
    let x := clocked st a.n
    let v := (if reg then x.y else x.x) - 1
    (AtClock d a → a.par.val = 0 →
      Completes (.nop a) s a (retired x (nextPc x) a.dly) [] [] (fun _ _ => True) ∧
      Completes (.irq a) s a (retired x (nextPc x) a.dly) [] [.regs] (fun p q => Flagged p q (Reg.BEAD_FLAGS a.n) 10) ∧
      Completes (.cnt a reg t) s a
        (retired (if reg then { x with y := v } else { x with x := v }) (if v = 0 then nextPc x else t) a.dly) [] [] (fun _ _ => True) ∧
      (c.val ≠ 15 → c.val ≤ 23 →
        Completes (.jmp a c t) s a (retired x (if jmpHolds a.n c st then t else nextPc x) a.dly) [] [] (fun _ _ => True)) ∧
      (c.val = 15 ∨ 24 ≤ c.val → Completes (.jmp a c t) s a (retired x (nextPc x) a.dly) [] [] (fun _ _ => True))) ∧
    (let counted (e : Dev) : Prop :=
       Flagged st (e.strand a.st) (Reg.BEAD_FLAGS a.n) 7 ∧ Counted st (e.strand a.st) (Reg.BEAD_CNT a.n + 40) ∧ EngsBut st (e.strand a.st) a.n
     (AtClock d a → a.par.val = 1 →
       let e1 := d.onActive a.st fun p => p.fetchRetry a.n
       Only d e1 a.st [.bead, .cnt, .regs] ∧ counted e1 ∧ (e1.strand a.st).eng a.n = x ∧
         (AtClock (e1.pass 1) a →
           let y := clocked ((e1.pass 1).strand a.st) a.n
           Ends (.nop a) s fun e => Only (e1.pass 1) e a.st [.bead, .bp, .cnt] ∧ (e.strand a.st).eng a.n = retired y (nextPc y) a.dly)) ∧
     (Active d a.st → x.state ≠ .stopped → a.par.val = 2 ∨ x.bad.get false x.pc = true →
       Ends (.nop a) s fun e => Only d e a.st [.bead, .bp, .cnt, .regs] ∧ counted e ∧
         (e.strand a.st).eng a.n = { x with state := .stopped, stopCause := 5, stopPend := false, dly := 0, stepping := 0,
                                            sync := .idle, stamp := none, bad := x.bad.set false x.pc true } ∧
         (∀ p < 24, st.bp.own.get none p = some a.n.val → (e.strand a.st).bp.drv.get none p = none)))

/-- SHOUT and SHIN (R92, R93): SHOUT takes N bits from the end of OSR that OSR_DIR names, adds N to OSR_CNT up to 32, remembers them for CRC
and drives them onto the physical group; SHIN shifts the N bits of the input group into ISR at the end that ISR_DIR names.  N above 32, or 0,
makes either a NOP (R89). -/
def Obligations.BeadShift : Prop :=
  ∀ (s : State) (a : BeadAt) (k : Fin 64), AtClock (s.dev.beforeBead a) a → a.par.val = 0 →
    let st := view (s.dev.beforeBead a) a.st
    let x := clocked st a.n
    let w : Word := BitVec.ofNat 32 (st.inWord a.n k)
    (1 ≤ k.val → k.val ≤ 32 →
      Completes (.shout a k) s a
        (retired { x with osr := if st.osrDir a.n then x.osr <<< k.val else x.osr >>> k.val, osrCnt := min 32 (x.osrCnt + k),
                          outV := (shoutValue (st.osrDir a.n) x.osr k, k) } (nextPc x) a.dly)
        (groupPins st a.n k (shoutValue (st.osrDir a.n) x.osr k)) [] (fun _ _ => True) ∧
      Completes (.shin a k) s a
        (retired { x with isr := if st.isrDir a.n then (x.isr <<< k.val) ||| w else (x.isr >>> k.val) ||| (w <<< (32 - k.val)),
                          isrCnt := min 32 (x.isrCnt + k), inV := (st.inWord a.n k, k),
                          lane := if st.inKind a.n then { x.lane with valid := false } else x.lane } (nextPc x) a.dly)
        [] [] (fun _ _ => True)) ∧
    (k.val = 0 ∨ 33 ≤ k.val →
      Completes (.shout a k) s a (retired x (nextPc x) a.dly) [] [] (fun _ _ => True) ∧
      Completes (.shin a k) s a (retired x (nextPc x) a.dly) [] [] (fun _ _ => True))

/-- PULL and PUSH (R50, R67, R70): a PULL whose TX queue holds a word that may be taken loads OSR and OSR_CNT in its form and takes the word; a
PUSH with room appends the word its form makes of ISR and clears ISR; with an empty or a full queue the engine goes to STALLED with its cause,
sets STALL and counts the stall, with PC unchanged.  In a direction without a queue they stop the engine with cause QUEUE_CFG, PC at the instruction, and set
QCFG (R64, R74).  The reserved form is a NOP (R89). -/
def Obligations.BeadQueueInstructions : Prop :=
  ∀ (s : State) (a : BeadAt) (f : Fin 4) (q : QEnt) (rest : List QEnt), AtClock (s.dev.beforeBead a) a → a.par.val = 0 →
    let st := view (s.dev.beforeBead a) a.st
    let x := clocked st a.n
    let y : Engine := { x with state := .stopped, stopCause := 4, stopPend := false, dly := 0, stepping := 0, sync := .idle, stamp := none }
    (f.val = 3 → Completes (.pull a f) s a (retired x (nextPc x) a.dly) [] [] (fun _ _ => True) ∧
      Completes (.push a f) s a (retired x (nextPc x) a.dly) [] [] (fun _ _ => True)) ∧
    (f.val ≠ 3 → st.txDepth a.n = 0 → Blocks (.pull a f) s a y [.regs] (fun p r => Flagged p r (Reg.BEAD_FLAGS a.n) 6)) ∧
    (f.val ≠ 3 → st.rxDepth a.n = 0 → Blocks (.push a f) s a y [.regs] (fun p r => Flagged p r (Reg.BEAD_FLAGS a.n) 6)) ∧
    (f.val ≠ 3 → st.txDepth a.n ≠ 0 → x.txq = q :: rest → q.ready ≤ st.now →
      Completes (.pull a f) s a
        (retired { x with osr := (pullLoad (st.osrDir a.n) f q.word).1, osrCnt := (pullLoad (st.osrDir a.n) f q.word).2, txq := rest }
          (nextPc x) a.dly) [] [.regs] (fun p r => RegsBut p r [Reg.BEAD_FLAGS a.n])) ∧
    (f.val ≠ 3 → st.rxDepth a.n ≠ 0 → x.rxq.length < st.rxDepth a.n →
      Completes (.push a f) s a
        (retired { x with rxq := x.rxq ++ [{ word := pushWord (st.isrDir a.n) f x.isr x.isrCnt, ready := st.now + 1 }],
                          isr := 0, isrCnt := 0 } (nextPc x) a.dly) [] [.regs] (fun p r => RegsBut p r [Reg.BEAD_FLAGS a.n])) ∧
    (f.val ≠ 3 → st.txDepth a.n ≠ 0 → x.txq = [] → x.state = .running →
      Blocks (.pull a f) s a { x with state := .stalled, stallCause := 1 } [.regs, .cnt]
        (fun p r => Flagged p r (Reg.BEAD_FLAGS a.n) 12 ∧ Counted p r (Reg.BEAD_CNT a.n + 16))) ∧
    (f.val ≠ 3 → st.rxDepth a.n ≠ 0 → st.rxDepth a.n ≤ x.rxq.length → x.state = .running →
      Blocks (.push a f) s a { x with state := .stalled, stallCause := 2 } [.regs, .cnt]
        (fun p r => Flagged p r (Reg.BEAD_FLAGS a.n) 12 ∧ Counted p r (Reg.BEAD_CNT a.n + 24)))

/-- SET writes its immediate to pins, X, Y, the high six bits of X or Y, or a shift counter; a counter above 32 and destination 7 make it a
NOP (R89, R94).  MOV copies its source, after OPN over the source's width, to its destination: a write of OSR or ISR clears its counter, X and Y take the low
16 bits, a write of CMP that meets a master's of the same cycle is kept and sets CMP_LOST, and reserved operands make it a NOP (R61, R89, R95). -/
def Obligations.BeadSetAndMoves : Prop :=
  ∀ (s : State) (a : BeadAt) (imm : BitVec 10) (src : Fin 16) (o : Fin 4) (dst : Fin 16) (lost : Bool), AtClock (s.dev.beforeBead a) a → a.par.val = 0 →
    let st := view (s.dev.beforeBead a) a.st
    let x := clocked st a.n
    let done (c : Fin 8) (y : Engine) (pins : List (Nat × Bool)) : Prop :=
      Completes (.set a c imm) s a (retired y (nextPc x) a.dly) pins [] (fun _ _ => True)
    done 0 x (groupPins st a.n 10 imm.toNat) ∧
    done 1 { x with x := imm.setWidth 16 } [] ∧
    done 2 { x with y := imm.setWidth 16 } [] ∧
    done 3 { x with x := imm.setWidth 6 ++ x.x.setWidth 10 } [] ∧
    done 4 { x with y := imm.setWidth 6 ++ x.y.setWidth 10 } [] ∧
    (imm.toNat ≤ 32 → done 5 { x with osrCnt := imm.toNat } [] ∧ done 6 { x with isrCnt := imm.toNat } []) ∧
    (33 ≤ imm.toNat → done 5 x [] ∧ done 6 x []) ∧
    done 7 x [] ∧
    (let v := movOp o (movSource a.n src st).2 (movSource a.n src st).1
     let moved (d : Fin 16) (y : Engine) (pins : List (Nat × Bool)) : Prop :=
       Completes (.beadMov a d src o lost) s a (retired y (nextPc x) a.dly) pins [] (fun _ _ => True)
     (src.val ≤ 7 →
       moved 0 { x with osr := BitVec.ofNat 32 v, osrCnt := 0 } [] ∧
       moved 1 { x with isr := BitVec.ofNat 32 v, isrCnt := 0 } [] ∧
       moved 2 { x with x := BitVec.ofNat 16 v } [] ∧
       moved 3 { x with y := BitVec.ofNat 16 v } [] ∧
       Completes (.beadMov a 4 src o lost) s a (retired { x with cmp := BitVec.ofNat 32 v } (nextPc x) a.dly) [] [.regs]
         (fun p q => if (lost || st.thisCyc.cmpM.contains a.n.val) = true then Flagged p q (Reg.BEAD_FLAGS a.n) 11 else RegsBut p q []) ∧
       moved 5 x (groupPins st a.n 32 v) ∧
       moved 6 { x with crc := BitVec.ofNat 32 (v % 2 ^ (st.crcEntry a.n).width) } []) ∧
     (8 ≤ src.val ∨ 7 ≤ dst.val → moved dst x []))

/-- CMP adds to the compare value, modulo 10^9 where the source is the nanoseconds and the value below 10^9 and modulo 2^32 otherwise, or selects
its source; in a cycle in which a master writes what it changes, it sets CMP_LOST too (R61, R99); CRC feeds the accumulator, by octets only where the entry is the checksum, and leaves the shift registers alone (R100). -/
def Obligations.BeadCompareAndCrc : Prop :=
  ∀ (s : State) (a : BeadAt) (imm : BitVec 11) (init : Bool) (o : Fin 4), AtClock (s.dev.beforeBead a) a → a.par.val = 0 →
    let st := view (s.dev.beforeBead a) a.st
    let x := clocked st a.n
    let c := st.crcEntry a.n
    let a0 := if init then c.init else x.crc.toNat % 2 ^ c.width
    let done (c : Instr) (y : Engine) : Prop := Completes c s a (retired y (nextPc x) a.dly) [] [] (fun _ _ => True)
    let sum (old add : Nat) : Word :=
      BitVec.ofNat 32 (if st.cmpSrc a.n = 2 ∧ old < 10 ^ 9 then (old + add) % 10 ^ 9 else (old + add) % 2 ^ 32)
    let old := (st.cmpUnit a.n).cmp.toNat
    (st.thisCyc.cmpM.contains a.n.val = false →
      done (.beadCmp a 0 imm false) { x with cmp := sum old imm.toNat } ∧
      done (.beadCmp a 1 imm false) { x with cmp := sum old x.x.toNat } ∧
      done (.beadCmp a 2 imm false) { x with cmp := sum (st.cmpValue a.n) imm.toNat }) ∧
    Completes (.beadCmp a 0 imm true) s a (retired { x with cmp := sum old imm.toNat } (nextPc x) a.dly) [] [.regs]
      (fun p q => Flagged p q (Reg.BEAD_FLAGS a.n) 11) ∧
    (imm.toNat % 8 = 7 → done (.beadCmp a 3 imm false) x) ∧
    (imm.toNat % 8 ≠ 7 → st.thisCyc.srcM.contains a.n.val = false →
      Completes (.beadCmp a 3 imm false) s a (retired x (nextPc x) a.dly) [] [.regs]
        (fun p q => q.rd (Reg.BEAD_CMPCFG a.n) = setField (p.rd (Reg.BEAD_CMPCFG a.n)) 2 0 (imm.toNat % 8) ∧
          RegsBut p q [Reg.BEAD_CMPCFG a.n])) ∧
    (let ones := st.fld (Reg.BEAD_CRCCFG a.n) 2 0 == 4
     let bits (v : Nat × Nat) : Nat := if ones then a0 else ((List.range v.2).map (bitN v.1)).foldl c.feedBit a0
     done (.crc a init 0 o) { x with crc := BitVec.ofNat 32 (bits x.outV) } ∧
     done (.crc a init 1 o) { x with crc := BitVec.ofNat 32 (bits x.inV) } ∧
     done (.crc a init 2 o)
       { x with crc := BitVec.ofNat 32 (((List.range (o + 1)).map (regOctet (st.osrDir a.n) x.osr)).foldl (c.feedOctet ones) a0) } ∧
     done (.crc a init 3 o)
       { x with crc := BitVec.ofNat 32 (((List.range (o + 1)).map (regOctet (st.isrDir a.n) x.isr)).foldl (c.feedOctet ones) a0) })

/-- WAIT and SYNC (R70, R76, R98, R104): a WAIT whose pin, compare result, queue threshold or IRQ flag equals POL completes and otherwise the engine is WAITING with PC
unchanged, with reserved operands a NOP (R89); a WAIT on an EVT bit that is 1 since before the cycle consumes it and completes.  SYNC on an EVT bit that is 1
consumes it, restarts the divider and waits; the next engine clock completes it.  A set of the bit in the cycle in which it is consumed leaves it 1
(R76). -/
def Obligations.BeadWaits : Prop :=
  ∀ (s : State) (a : BeadAt) (pol : Bool) (k : Fin 32) (e : Fin 4), AtClock (s.dev.beforeBead a) a → a.par.val = 0 →
    let st := view (s.dev.beforeBead a) a.st
    let x := clocked st a.n
    let evt := Reg.BEAD_EVT a.n
    let test (src : Fin 8) (c : Bool) : Prop :=
      (c = pol → Completes (.beadWait a pol src k) s a (retired x (nextPc x) a.dly) [] [] (fun _ _ => True)) ∧
      (c ≠ pol → Blocks (.beadWait a pol src k) s a { x with state := .waiting } [] (fun _ _ => True))
    let nop (c : Instr) : Prop := Completes c s a (retired x (nextPc x) a.dly) [] [] (fun _ _ => True)
    (k.val = 0 → test 4 (st.txThr a.n)) ∧ (k.val = 1 → test 4 (st.rxThr a.n)) ∧ (2 ≤ k.val → nop (.beadWait a pol 4 k)) ∧
    nop (.beadWait a false 3 k) ∧ nop (.beadWait a pol 6 k) ∧ nop (.beadWait a pol 7 k) ∧
    test 0 (waitPin a.n k st) ∧ test 1 (st.cmpEq a.n) ∧ test 2 (st.cmpReached a.n) ∧ test 5 (st.bit (Reg.BEAD_FLAGS a.n) 10) ∧
    (st.evt a.n (k % 4) = true →
      Completes (.beadWait a true 3 k) s a (retired x (nextPc x) a.dly) [] [.regs]
        (fun p q => q.rd evt = setBit (p.rd evt) (k % 4) (bitN (st.kept evt) (k % 4)) ∧ RegsBut p q [evt])) ∧
    (st.evt a.n (k % 4) = false → Blocks (.beadWait a true 3 k) s a { x with state := .waiting } [] (fun _ _ => True)) ∧
    (x.sync ≠ .hit → st.evt a.n e = true ∨ st.bit evt e = true →
      Blocks (.sync a e) s a { x with state := .waiting, sync := .hit, left := 2, acc := 0 } [.regs]
        (fun p q => q.rd evt = setBit (p.rd evt) e (st.evt a.n e && bitN (st.kept evt) e) ∧ RegsBut p q [evt])) ∧
    (x.sync ≠ .hit → st.evt a.n e = false → st.bit evt e = false →
      Blocks (.sync a e) s a { x with state := .waiting, sync := .watching e } [] (fun _ _ => True)) ∧
    (x.sync = .hit → Completes (.sync a e) s a (retired x (nextPc x) a.dly) [] [] (fun _ _ => True))

/-- STAMP appends the captured time words, and the angle where asked, to an RX queue with room for them, and stalls with the words kept on a queue without
(R101).  EDIT takes LEN + 1 octets from OSR for the engine's virtual TX lane and adds their bits to OSR_CNT, but where X asks for the correction on a
lane with TC_ACT = 1, which takes none; on a physical group it is a NOP (R102, R103, R141). -/
def Obligations.BeadStampAndEdit : Prop :=
  ∀ (s : State) (a : BeadAt) (adj : Fin 4) (nosec ang : Bool) (trk : Fin 4) (len : Fin 4) (ofs : BitVec 10),
    AtClock (s.dev.beforeBead a) a → a.par.val = 0 →
    let st := view (s.dev.beforeBead a) a.st
    let x := clocked st a.n
    let edits (offx : Bool) (y : Engine) : Prop := Ends (.edit a offx len ofs) s fun e =>
      Only (s.dev.beforeBead a) e a.st [.bead, .bp, .cnt, .regs, .pt] ∧ EngsBut (s.dev.beforeBead a |>.strand a.st) (e.strand a.st) a.n ∧
      (e.strand a.st).eng a.n = retired y (nextPc x) a.dly
    let ws := stampWords a.n adj nosec ang trk st
    let k := 8 * (len.val + 1)
    let shifted : Engine := { x with osr := if st.osrDir a.n then x.osr <<< k else x.osr >>> k, osrCnt := min 32 (x.osrCnt + k) }
    let st0 : Engine := { x with state := .stopped, stopCause := 4, stopPend := false, dly := 0, stepping := 0, sync := .idle, stamp := none }
    (adj.val = 3 → Completes (.stamp a adj nosec ang trk) s a (retired x (nextPc x) a.dly) [] [] (fun _ _ => True)) ∧
    (adj.val ≠ 3 →
      (st.rxDepth a.n = 0 → Blocks (.stamp a adj nosec ang trk) s a st0 [.regs] (fun p r => Flagged p r (Reg.BEAD_FLAGS a.n) 6)) ∧
      (st.rxDepth a.n ≠ 0 → x.stamp = none → x.rxq.length + ws.length ≤ st.rxDepth a.n →
        Completes (.stamp a adj nosec ang trk) s a
          (retired { x with rxq := x.rxq ++ ws.map fun w => { word := w, ready := st.now + 1 } } (nextPc x) a.dly) [] [.regs]
          (fun p r => RegsBut p r [Reg.BEAD_FLAGS a.n])) ∧
      (st.rxDepth a.n ≠ 0 → x.stamp = none → st.rxDepth a.n < x.rxq.length + ws.length → x.state = .running →
        Blocks (.stamp a adj nosec ang trk) s a { x with state := .stalled, stallCause := 2, stamp := some ws } [.regs, .cnt]
          (fun p r => Flagged p r (Reg.BEAD_FLAGS a.n) 12 ∧ Counted p r (Reg.BEAD_CNT a.n + 24)))) ∧
    (st.outKind a.n = false →
      Completes (.edit a false len ofs) s a (retired x (nextPc x) a.dly) [] [] (fun _ _ => True) ∧
      Completes (.edit a true len ofs) s a (retired x (nextPc x) a.dly) [] [] (fun _ _ => True)) ∧
    (st.outKind a.n = true →
      let tc := st.bit (Reg.PT_STATUS (st.outLane a.n)) 4
      edits false shifted ∧ (bitN x.x.toNat 15 = false ∨ tc = false → edits true shifted) ∧
      (bitN x.x.toNat 15 = true → tc = true → edits true x))

/-! ## Register writes and snapshots -/

/-- Writes by any master that reaches the strand's registers: a whole word into BEAD_CMP_MASK is stored and changes nothing else (R11, R20); half
a word there changes nothing (R10); a word into BP_PAD of a locked strand changes no register, and nothing else (R13).  A write of any size at any
address answers a next state. -/
def Obligations.RegisterWrites : Prop :=
  ∀ (s : State) (dt : Nat) (m : Master) (i : StrandId) (n : Fin 16) (p : Fin 24) (v : Word) (a b : Nat),
    (Reaches (later s dt) m i →
      (Place.strand i (Reg.BEAD_CMP_MASK n)).addr m = some a → (Place.strand i (Reg.BP_PAD p)).addr m = some b →
      Ends (.registerWrite dt m a 4 v.toNat) s (fun d => Only (later s dt) d i [.regs] ∧
        RegsBut ((later s dt).strand i) (d.strand i) [Reg.BEAD_CMP_MASK n] ∧ (d.strand i).rd (Reg.BEAD_CMP_MASK n) = v) ∧
      Ends (.registerWrite dt m a 2 v.toNat) s (fun d => Only (later s dt) d i []) ∧
      (((later s dt).supOf i).lock = true →
        Ends (.registerWrite dt m b 4 v.toNat) s (fun d => Only (later s dt) d i [.regs] ∧ RegsBut ((later s dt).strand i) (d.strand i) []))) ∧
    ∀ size value, Ends (.registerWrite dt m a size value) s fun _ => True

/-- A unit's snapshot-and-clear command copies its live counters into its snapshot registers and zeroes them; an event of the same cycle counts in the
new interval, a second command of the cycle changes nothing, and nothing else changes (R17): each unit of a strand by a master that reaches it, the ledger
by no host; the Clasp; a Locket channel by either side; the Loupe and the update unit by the Loupe. -/
def Obligations.Snapshots : Prop :=
  ∀ (s : State) (dt : Nat) (m : Master) (i : StrandId) (u : StrandUnit) (c : Fin 64) (b : Bool) (j : Bool),
    let d := later s dt
    (Reaches d m i → (u = .ledger → ∀ b, m ≠ .host b) →
      Ends (.snap dt m (.strand i u)) s (fun e => Only d e i [.cnt, .snap] ∧
        SnapTaken (view d i).thisCyc.c (d.strand i).cnt (d.strand i).snap (e.strand i).cnt (e.strand i).snap u.range.1 u.range.2)) ∧
    (AtClasp d m b →
      Ends (.snap dt m .clasp) s (fun e => DevKeeps d e [] ∧ SnapTaken d.thisCyc.clasp d.clasp.cnt d.clasp.snap e.clasp.cnt e.clasp.snap 0 0x1000)) ∧
    (AtChannel d m c j →
      Ends (.snap dt m (.locket c)) s (fun e => DevKeeps d e [.lkt] ∧ ChansBut d e c ∧
        { e.chan c with cnt := {}, snap := {}, cyc := {} } = { d.chan c with cnt := {}, snap := {}, cyc := {} } ∧
        SnapTaken (d.thisCyc.lkt.get {} c) (d.chan c).cnt (d.chan c).snap (e.chan c).cnt (e.chan c).snap 0 0x100)) ∧
    (d.loupeRuns = true →
      Ends (.snap dt .loupe .loupe) s (fun e => DevKeeps d e [.loupe] ∧
        { e.loupe with cnt := {}, snap := {} } = { d.loupe with cnt := {}, snap := {} } ∧
        SnapTaken d.thisCyc.loupe d.loupe.cnt d.loupe.snap e.loupe.cnt e.loupe.snap 0 0x1000) ∧
      Ends (.snap dt .loupe .update) s (fun e => DevKeeps d e [.upd] ∧
        { e.upd with cnt := {}, snap := {} } = { d.upd with cnt := {}, snap := {} } ∧
        SnapTaken d.thisCyc.upd d.upd.cnt d.upd.snap e.upd.cnt e.upd.snap 0 0x1000))

/-! ## Power-on, start and resets -/

/-- POR (R27): MD0 with no base mode and no device lock; channels, epochs, the Clasp and the log ring empty; every supervisor, and every strand but for
the levels the board gives its pins, at the model's values after reset; the Hallmark, but for a life cycle step under way, and the boot records and blocks of the
flashes kept.  POR_END of a device whose strands are OFF takes the first transition whose condition holds (R44, R46, R402): MD11 with TEST_EN in a life cycle
that allows it; MD10 on a tamper latch, or without a valid identity in a life cycle that needs one; MD1 with RECOVERY_N low, or without a flash that
answers; otherwise MD1, MD2 or MD3. -/
def Obligations.PowerOn : Prop :=
  ∀ (s : State) (dt : Nat) (te rn : Bool) (fa fb : Option Nat) (st : StartIn),
    let d := later s dt
    Ends (.por dt) s (fun e => e.por = true ∧ e.mode = 0 ∧ e.base = 0 ∧ e.devLock = false ∧ e.lkt = {} ∧ e.epochs = {} ∧ e.clasp = {} ∧
      e.loupe.log = [] ∧ (∀ i, e.supOf i = { hbAt := d.ns } ∧ e.strand i = { bp := { ext := (d.strand i).bp.ext, vio := (d.strand i).bp.vio } }) ∧
      e.hm = { d.hm with lcNext := none } ∧ e.flashes.a.boot = d.flashes.a.boot ∧ e.flashes.b.boot = d.flashes.b.boot ∧
      e.flashes.a.blocks = d.flashes.a.blocks ∧ e.flashes.b.blocks = d.flashes.b.blocks) ∧
    (d.por = true → (∀ i, d.phase i = .off) →
      let lc := d.hm.lc
      let noId := !d.hm.valid || d.hm.badId || st.hmErr
      let goes (p : Nat → Prop) : Prop := Ends (.porEnd dt te rn fa fb st) s fun e => p e.mode ∧ e.por = false ∧ e.hm.lc = lc ∧ e.sup = d.sup
      if te = true ∧ (lc = 0 ∨ lc = 2) then goes (· = 11)
      else if d.hm.tamper ≠ 0 then goes (· = 10)
      else if (lc = 1 ∨ lc = 2) ∧ noId = true then goes (· = 10)
      else if rn = false ∨ (fa = none ∧ fb = none) then goes (· = 1)
      else Ends (.porEnd dt te rn fa fb st) s fun e => (e.mode = 1 ∨ e.mode = 2 ∨ e.mode = 3) ∧ e.por = false)

/-- STRAND_WARM in LOADING, RUN and HOLD returns a strand that is not fenced inward to LOADING: core, engines, time base, switch, Bangle, Filigree, DMA and
the registers of strand offsets 0x1_0000 to 0x8_FFFF at their reset values, its lock open, its SRAM lost, its ledger, UNAVAIL marks, fence causes and
retention banks kept; in OFF and FENCED, and fenced inward, it is ignored (R27, R32, R508).  STRAND_COLD, by the Loupe or by a PLL that locks again in a running strand,
clears the ledger and invalidates the retention banks too and leaves the strand OFF with its outward fence released; by the Loupe it is ignored in a strand fenced inward (R27, R32), and
it is ignored in POR (R29) and in a cycle with a fence of the strand (R43).  It takes the place of a STRAND_WARM of its cycle (R29).  Neither touches another strand (R22). -/
def Obligations.StrandResets : Prop :=
  ∀ (s : State) (dt : Nat) (i : StrandId) (relock : Bool),
    let d := later s dt
    let fresh (e : Dev) (x : StrandSt) : Prop :=
      OthersKept d e i ∧ e.mode = d.mode ∧ (e.supOf i).lock = false ∧ (e.strand i).core = {} ∧ (e.strand i).time = {} ∧
      (e.strand i).sw = {} ∧ (e.strand i).bng = {} ∧ (e.strand i).flg = {} ∧ (e.strand i).dma = {} ∧ (e.strand i).banks.mem = [] ∧
      (∀ n < 16, (e.strand i).eng n = { unavail := (x.eng n).unavail }) ∧ RegsReset (e.strand i) 0x10000 0x90000
    let may : Prop := if relock then Active d i ∧ (d.supOf i).pllLock = false else (d.supOf i).fenceIn = false
    let acts : Prop := may ∧ d.por = false ∧ i.val ∉ d.thisCyc.fenced
    let first := (d.thisCyc.before.get none i).getD (d.supOf i, d.strand i, 0)
    (d.phase i ≠ .off → d.phase i ≠ .fenced → (d.supOf i).fenceIn = false →
      Ends (.strandWarm dt i) s fun e => fresh e (d.strand i) ∧ e.phase i = .loading ∧ (e.supOf i).lastReset = 1 ∧
        (e.strand i).ledger = (d.strand i).ledger ∧ (e.supOf i).retValid = (d.supOf i).retValid ∧ (e.supOf i).cause = (d.supOf i).cause) ∧
    (d.phase i = .off ∨ d.phase i = .fenced ∨ (d.supOf i).fenceIn = true → Ends (.strandWarm dt i) s fun e => DevKeeps d e []) ∧
    (acts → Ends (.strandCold dt i relock) s fun e => fresh e first.2.1 ∧ e.phase i = .off ∧ (e.supOf i).lastReset = 2 ∧
      (e.supOf i).retValid = false ∧ (e.strand i).ledger = Ledger.cleared ∧ (e.supOf i).fenceOut = false ∧
      (e.supOf i).fenceIn = first.1.fenceIn ∧ (e.supOf i).cause = first.1.cause) ∧
    (¬acts → Ends (.strandCold dt i relock) s fun e => DevKeeps d e [])

/-- LINK_RESET takes one link down with its MSI-X table and credits at their reset values, raises that host's epoch and leaves modes, supervisors
and the Hallmark alone (R27, R331).  A Clasp internal reset takes both links down, raises both hosts' epochs and starts the self-check; a second mismatch
within 1 s fences the host port instead.  The self-check ends 50 µs after the mismatch at the earliest: a clean end clears CHECKING, any other fences the host port (R332). -/
def Obligations.LinkAndClaspResets : Prop :=
  ∀ (s : State) (dt : Nat) (b clean : Bool),
    let d := later s dt
    let but : List DPart := [.strands, .lkt, .epochs, .loupe, .upd]
    let since (n : Nat) : Bool := match d.clasp.mismatchAt with
      | some t => decide (d.ns < t + n)
      | none => false
    Ends (.linkReset dt b) s (fun e => DevKeeps d e but ∧ (e.link b).up = false ∧ (e.link b).msix = {} ∧ (e.link b).credits = 0 ∧
      (e.link (!b)).up = (d.link (!b)).up ∧ e.epochs.get 0 (1 + b2n b) = (d.epochs.get 0 (1 + b2n b) + 1) % 256) ∧
    Ends (.claspInternalReset dt) s (fun e => DevKeeps d e but ∧ (e.link false).up = false ∧ (e.link true).up = false ∧
      e.clasp.fenced = (since (10 ^ 9) || d.clasp.fenced) ∧ e.clasp.checking = !e.clasp.fenced ∧ e.clasp.mismatchAt = some d.ns ∧
      e.epochs.get 0 1 = (d.epochs.get 0 1 + 1) % 256 ∧ e.epochs.get 0 2 = (d.epochs.get 0 2 + 1) % 256) ∧
    (d.clasp.checking = true → since 50000 = false →
      Ends (.claspSelfCheckDone dt clean) s fun e => DevKeeps d e [.loupe, .upd] ∧ e.clasp.checking = false ∧
        e.clasp.fenced = (d.clasp.fenced || !clean)) ∧
    (d.clasp.checking = false ∨ since 50000 = true → Ends (.claspSelfCheckDone dt clean) s fun e => DevKeeps d e [] ∧ e.clasp = d.clasp)

/-- Each cause of LOUPE_RESET, outside POR, MD0, MD2 and MD3, empties the Loupe's SRAM and kept answers, drops the nonce, records the cause, and leaves
the strands as they were but for a request in an exchange bank, whose response is lost (R27, R37, R428, R442).  A lockstep mismatch first fences inward every RUN or
HOLD strand that has FENCE_IN_AUTO (R31). -/
def Obligations.LoupeResets : Prop :=
  ∀ (s : State) (dt : Nat) (c : Fin 3),
    let d := later s dt
    let but : List DPart := [.flashes, .strands, .loupe, .upd, .lkt, .epochs]
    let cleared (e : Dev) (k : Nat) : Prop :=
      e.loupe.sram = [] ∧ e.loupe.kept = [] ∧ e.loupe.nonce = none ∧ e.loupe.lastReset = k ∧ ∀ i, noExch (e.strand i) = noExch (d.strand i)
    d.por = false → d.mode ≠ 0 → d.mode ≠ 2 → d.mode ≠ 3 →
    Ends (.loupeReset dt c) s (fun e => DevKeeps d e but ∧ cleared e (c + 1)) ∧
    Ends (.loupeWdogExpiry dt) s (fun e => DevKeeps d e but ∧ cleared e 2) ∧
    Ends (.lockstepMismatch dt) s (fun e => DevKeeps d e (.sup :: but) ∧ cleared e 1 ∧
      ∀ i, e.supOf i = if bitOf (d.supOf i).ctl 4 && (d.phase i = .run || d.phase i = .hold) then
          { d.supOf i with fenceIn := true, cause := setBit (d.supOf i).cause 1 true }
        else d.supOf i)

/-! ## Fences and HOLD -/

/-- A supply failure, a clock failure and a second watchdog expiry within 10 s, each where the policy enables its trigger, and a PLL that is not
locked 1 ms after the entry to LOADING, fence the strand outward: FENCED with its cause bit, no inward fence, its SRAM lost, and the log told where the device does not
enter MD9.  The first two act on a strand in LOADING, RUN or HOLD; one that a reset of the same cycle took out of these is fenced as it stood before (R43).  No
other strand leaves its state but for RUN to HOLD where the device goes to MD9; a base mode becomes MD8, or MD9 when the whole essential set is FENCED (R34, R35, R42, R44,
R46).  Without the trigger a supply failure changes nothing, and a clock failure only clears CLK_OK, and PLL_LOCK where the PLL lost lock (R26, R34). -/
def Obligations.OutwardFence : Prop :=
  ∀ (s : State) (dt : Nat) (i : StrandId) (pll : Bool),
    let d := later s dt
    let gone (bit : Nat) (e : Dev) : Prop :=
      e.phase i = .fenced ∧ (e.supOf i).fenceOut = true ∧ (e.supOf i).fenceIn = false ∧ bitOf (e.supOf i).cause bit = true ∧
      (e.strand i).banks.mem = [] ∧ (∀ j, j ≠ i → e.phase j = d.phase j ∨ (d.phase j = .run ∧ e.phase j = .hold ∧ e.mode = 9)) ∧
      e.mode = if e.essentialFenced && (d.inBase || d.mode == 8) then 9 else if d.inBase then 8 else d.mode
    let logged (code : Nat) (e : Dev) : Prop := e.mode ≠ 9 → LogHas e code
    let was := match d.thisCyc.before.get none i with
      | some x => x.1.phase
      | none => d.phase i
    let wdog : Prop := (d.strand i).core.wdog = some 0 ∧ (d.strand i).fld Reg.CORE_WDOG 15 0 ≠ 0 ∧ (d.strand i).core.state ≠ .reset ∧
      (d.strand i).core.state ≠ .halted
    (d.phase i ≠ .fenced → was ≠ .off → was ≠ .fenced →
      (bitN d.cfg.policy 8 = true → Ends (.supplyFail dt i) s fun e => gone 8 e ∧ logged 0x0111 e) ∧
      (bitN d.cfg.policy 7 = true → Ends (.clkFail dt i pll) s fun e => gone 7 e ∧ (e.supOf i).clkOk = false ∧ logged 0x0110 e)) ∧
    (bitN d.cfg.policy 8 = false ∨ d.phase i = .fenced → Ends (.supplyFail dt i) s fun e => DevKeeps d e []) ∧
    (bitN d.cfg.policy 7 = false ∨ d.phase i = .fenced → Ends (.clkFail dt i pll) s fun e => DevKeeps d e [.sup] ∧ OthersKept d e i ∧
      e.supOf i = { d.supOf i with clkOk := false, pllLock := (d.supOf i).pllLock && !pll }) ∧
    (d.phase i = .loading → (d.supOf i).pllLock = false → (d.supOf i).loadAt + 10 ^ 6 ≤ d.ns →
      Ends (.pllLockTimeout dt i) s fun e => gone 7 e ∧ logged 0x0110 e) ∧
    (d.phase i ≠ .loading ∨ (d.supOf i).pllLock = true ∨ d.ns < (d.supOf i).loadAt + 10 ^ 6 →
      Ends (.pllLockTimeout dt i) s fun e => DevKeeps d e []) ∧
    (Active d i → was = d.phase i → wdog → bitN d.cfg.policy 9 = true → (∃ t ∈ (d.supOf i).wdogAt, d.ns < t + 10 ^ 10) →
      Ends (.coreWdogExpiry dt i) s fun e => gone 9 e)

/-- A watchdog that has run down with no expiry in the 10 s before performs STRAND_WARM, releases an inward fence and starts the 10 s; one within them
whose fence the policy does not enable is logged while the Loupe firmware runs and counts anew (R30).  CLK_OK_RETURN sets CLK_OK and releases no fence (R26). -/
def Obligations.WatchdogAndClock : Prop :=
  ∀ (s : State) (dt : Nat) (i : StrandId),
    let d := later s dt
    let k := (d.strand i).core
    let t := (d.strand i).fld Reg.CORE_WDOG 15 0
    (Active d i → k.wdog = some 0 → t ≠ 0 → k.state ≠ .reset → k.state ≠ .halted →
      ((∀ a ∈ (d.supOf i).wdogAt, a + 10 ^ 10 ≤ d.ns) →
        Ends (.coreWdogExpiry dt i) s fun e => OthersKept d e i ∧ e.mode = d.mode ∧ e.phase i = .loading ∧ (e.supOf i).lastReset = 1 ∧
          (e.supOf i).wdogAt = some d.ns ∧ (e.supOf i).fenceIn = false ∧ (e.strand i).ledger = (d.strand i).ledger) ∧
      ((∃ a ∈ (d.supOf i).wdogAt, d.ns < a + 10 ^ 10) → bitN d.cfg.policy 9 = false →
        Ends (.coreWdogExpiry dt i) s fun e => Only d e i [.core] ∧ (e.strand i).core = { k with wdog := some (t * 100000) } ∧
          (d.loupe.firmware = true → LogHas e 0x0112))) ∧
    (d.por = false →
      Ends (.clkOkReturn dt i) s fun e => DevKeeps d e [.sup] ∧ OthersKept d e i ∧ e.supOf i = { d.supOf i with clkOk := true })

/-- The inward fence: FENCE_IN_SET by the strand's core, and a heartbeat absent for longer than HB_TIMEOUT with FENCE_IN_AUTO, set it with their cause bits;
FENCE_IN_RELEASE by the core ends it and keeps the causes; a heartbeat reaches the supervisor while the Loupe firmware runs outside LOUPE_SAFE
(R31, R33). -/
def Obligations.InwardFence : Prop :=
  ∀ (s : State) (dt : Nat) (i : StrandId),
    let d := later s dt
    let x := d.supOf i
    (Active d i →
      Ends (.fenceInSet dt i) s (fun e => DevKeeps d e [.sup] ∧ OthersKept d e i ∧
        e.supOf i = { x with fenceIn := true, cause := setBit x.cause 2 true }) ∧
      Ends (.fenceInRelease dt i) s (fun e => DevKeeps d e [.sup, .loupe, .upd] ∧ OthersKept d e i ∧ e.supOf i = { x with fenceIn := false })) ∧
    (Active d i → bitOf x.ctl 4 = true → fieldOf x.ctl 23 8 ≠ 0 → x.hbAt + fieldOf x.ctl 23 8 * 100000 < d.ns →
      Ends (.hbTimeout dt i) s fun e => DevKeeps d e [.sup] ∧ OthersKept d e i ∧
        e.supOf i = { x with fenceIn := true, cause := setBit x.cause 0 true }) ∧
    (d.loupe.firmware = true → d.loupe.safe = false →
      Ends (.loupeHeartbeat dt i) s fun e => DevKeeps d e [.sup] ∧ OthersKept d e i ∧ e.supOf i = { x with hbAt := d.ns } ∧ Sent d e (.heartbeat i))

/-- HOLD_ENTER by the strand's core or the Loupe takes a strand in RUN to HOLD in MD4 to MD9 and MD11, and changes no state or mode elsewhere (R38, R42, R43).
HOLD_EXIT takes it from HOLD to RUN, but in MD9; no other strand's state or logic changes, and the mode changes only from MD8 to the base mode, where the strand was in
HOLD, every configured strand is then in RUN and, in MD5 and MD6, the pairs are in step (R42, R44). -/
def Obligations.HoldAndRun : Prop :=
  ∀ (s : State) (dt : Nat) (m : Master) (i : StrandId), Reaches (later s dt) m i → (∀ b, m ≠ .host b) →
    let d := later s dt
    let may := (decide (4 ≤ d.mode) && decide (d.mode ≤ 9)) || d.mode == 11
    let back (e : Dev) : Bool := d.mode == 8 && d.phase i = .hold && !d.configured.isEmpty && (d.configured.all fun j => e.phase j = .run) &&
      (!(d.base == 5 || d.base == 6) || (d.inStep false && d.inStep true))
    Ends (.holdEnter dt m i) s (fun e => DevKeeps d e [.sup, .strands, .loupe, .upd] ∧ OthersKept d e i ∧ (e.supOf i).lock = (d.supOf i).lock ∧
      e.phase i = if may then .hold else d.phase i) ∧
    Ends (.holdExit dt m i) s (fun e => DevKeeps d e [.mode, .sup, .strands, .loupe, .upd] ∧ (e.supOf i).lock = (d.supOf i).lock ∧
      (∀ j, j ≠ i → e.phase j = d.phase j ∧ e.strand j = d.strand j) ∧ e.phase i = (if d.mode = 9 then d.phase i else .run) ∧
      e.mode = if back e then d.base else d.mode)

/-! ## The load phase -/

/-- LOAD_START, by the Loupe firmware for a configured strand that is not fenced inward: from OFF, in the load phase or after REJOIN, to LOADING, and in a LOADING
whose engines have not been tested yet without a change of state, it marks the engines that failed twice (R42, R81).  A load of a strand that LOAD_COMPLETE finds in LOADING
with packages that are admitted and that the image in the active slot carries, with digests that match and no inward fence, ends in RUN, or HOLD in MD9, with the lock set and the
core running; any other ends FENCED with LOAD_FAIL (R42, R246, R458). -/
def Obligations.Loading : Prop :=
  ∀ (s : State) (dt : Nat) (i : StrandId) (tests : List (Fin 16 × Bool)) (pkgs : List (List Byte)) (digests : Bool),
    let d := later s dt
    let tested (e : Dev) : Prop := OthersKept d e i ∧ e.mode = d.mode ∧ e.phase i = .loading ∧ (e.supOf i).tested = true ∧
      ∀ n : Fin 16, ((e.strand i).eng n).unavail = (((d.strand i).eng n).unavail || tests.contains (n, false))
    let good := digests && !(d.supOf i).fenceIn && pkgs.all (d.fwCarries d.upd.boot.active)
    (d.loupe.firmware = true → bitN d.cfg.strands i = true → (d.supOf i).fenceIn = false →
      (d.phase i = .off → d.mode = 2 ∨ d.mode = 3 ∨ (d.mode = 8 ∧ (d.supOf i).rejoin = true) → Ends (.loadStart dt i tests) s tested) ∧
      (d.phase i = .loading → (d.supOf i).tested = false → Ends (.loadStart dt i tests) s tested)) ∧
    (d.phase i = .loading → bitN d.cfg.strands i = true →
      (d.loadRefusal i pkgs = none → good = true → (d.supOf i).rejoin = false →
        Ends (.loadComplete dt i pkgs digests) s fun e => (∀ j, j ≠ i → e.phase j = d.phase j ∧ e.strand j = d.strand j) ∧
          e.phase i = (if d.mode = 9 then .hold else .run) ∧ (e.supOf i).lock = true ∧ (e.supOf i).retValid = true ∧
          (e.strand i).core.state = .running ∧ (d.mode ≠ 8 → e.mode = d.mode)) ∧
      (d.loadRefusal i pkgs ≠ none ∨ good = false →
        Ends (.loadComplete dt i pkgs digests) s fun e => e.phase i = .fenced ∧ bitOf (e.supOf i).cause 13 = true ∧
          (∀ j, j ≠ i → e.phase j = d.phase j ∨ (d.phase j = .run ∧ e.phase j = .hold ∧ e.mode = 9))))

/-- The end of the load phase, every configured strand in RUN or FENCED: with none FENCED and a configuration that can be used the device enters its base mode with the device lock set
(T7), from MD3 only by MIGRATION; with one FENCED, one in RUN and a configuration that allows a degraded start it enters MD8 (T8), otherwise MD9 with every RUN strand in HOLD (T9) (R44).
MIGRATION whose routine and read-back pass makes the new configuration copy the current one and enters the base mode, and is logged where no channel is bound; otherwise the load phase
starts again (R465).  PAIR_RESYNCHRONIZED returns to the base mode when every configured strand runs and the pairs are in step (T12).  WAKE, 1 µs after the entry to MD0 at the earliest,
leaves it for MD10 without a valid identity in a life cycle that needs one, else for MD1 or the load phase (T2, T5, R491). -/
def Obligations.LoadPhase : Prop :=
  ∀ (s : State) (dt : Nat) (ok : Bool) (payload : List Byte) (st : StartIn) (pair : Bool),
    let d := later s dt
    let fenced := !d.cfg.ok || d.configured.any fun i => d.phase i = .fenced
    let part := d.cfg.ok && d.cfg.degraded && d.configured.any fun i => d.phase i = .run
    let new := 1 - d.upd.boot.cfgCur % 2
    let good := ok && d.fwMigrates d.upd.boot.active && (d.migrated payload).cfgForm new && d.configured.all fun i => d.phase i = .run
    (d.loadsEnded = true →
      (d.mode = 2 → fenced = false → Ends (.loadPhaseEnd dt) s fun e => e.mode = d.base ∧ e.devLock = true ∧ e.sup = d.sup) ∧
      (d.mode = 3 → fenced = false → Ends (.loadPhaseEnd dt) s fun e => DevKeeps d e []) ∧
      (d.mode = 2 ∨ d.mode = 3 → fenced = true → part = true →
        Ends (.loadPhaseEnd dt) s fun e => e.mode = 8 ∧ e.devLock = true ∧ e.sup = d.sup) ∧
      (d.mode = 2 ∨ d.mode = 3 → fenced = true → part = false →
        Ends (.loadPhaseEnd dt) s fun e => e.mode = 9 ∧ e.devLock = true ∧ e.holdBy = some .degradedStart ∧
          ∀ i, e.phase i = if d.phase i = .run then .hold else d.phase i)) ∧
    (d.mode = 3 →
      (good = true →
        Ends (.migration dt ok payload st) s fun e => e.mode = d.base ∧ e.upd.boot.cfgCur = new ∧
          e.upd.boot.cfgPrev = some d.upd.boot.cfgCur ∧ (d.lkt = {} → LogHas e 0x1309)) ∧
      (good = false → Ends (.migration dt ok payload st) s fun e => e.mode = 1 ∨ e.mode = 2 ∨ e.mode = 3)) ∧
    (d.mode = 8 → d.base = 5 ∨ d.base = 6 → (∀ i ∈ d.configured, d.phase i = .run) → d.configured ≠ [] → d.inStep false = true →
      d.inStep true = true → d.phase (if pair then 2 else 0) = .run → d.phase (if pair then 3 else 1) = .run →
      Ends (.pairResynchronized dt pair) s fun e => e.mode = d.base ∧ (∀ i, (e.supOf i).rejoin = false ∧ e.phase i = d.phase i)) ∧
    (d.por = false → d.mode = 0 → d.sleptAt + 1000 ≤ d.ns →
      Ends (.wake dt st) s fun e =>
        if (d.hm.lc = 1 ∨ d.hm.lc = 2) ∧ (!d.hm.valid || d.hm.badId || st.hmErr) = true then e.mode = 10 ∧ ∀ i, (e.supOf i).lastReset = 3
        else e.mode = 1 ∨ e.mode = 2 ∨ e.mode = 3)


/-! ## Ports and pass-through -/

/-- A change of what the PHY shows gives the port the LINK_UP and SPEED_ACT of its mode (R107), with LINK_CHANGE where LINK_UP changes; a fall counts in
LINK_DOWNS, leaves no frame in reception, in transmission or in transit (R108), and turns a port group's map to its live members (R165).  MDIO_START runs
one frame at a time and a second one sets REJECT; its end, 64 MDC periods after its start or 32 without the preamble, clears BUSY, with NO_ACK and 0xFFFF where a read is not acknowledged (R110).  A restart of
auto-negotiation clears AN_DONE, and its end sets AN_DONE, but not where the partner offers half duplex only, and its fault bit; the link follows (R107).  The
commands of verification change PREEMPT_ACT and VERIFY_FAIL, with code 0x0402 (R124).  The write of word 3 puts a filter rule's held words in
effect with it, but for the reserved ACTION (R119). -/
def Obligations.PortManagement : Prop :=
  ∀ (s : State) (dt : Nat) (m : Master) (i : StrandId) (p : Fin 4) (sync link b c : Bool) (speed : Fin 4) (v : Word) (data : BitVec 16) (k : Fin 32),
    let d := later s dt
    let x := d.strand i
    let st := Reg.MAC_STATUS p
    let phy := (x.setPort p { x.port p with phyLink := link, phySpeed := speed }).putBit st 1 sync
    let all : List Part := [.regs, .cnt, .ports, .pt, .sw]
    let as (e : Dev) (w : Bool × Nat) : Prop := (e.strand i).linkUp p = w.1 ∧ (e.strand i).speedAct p = w.2
    let stays (z : StrandSt) : Prop := x.linkUp p = (z.linkWant p).1 ∧ x.speedAct p = (z.linkWant p).2
    let clocked : Prop := Active d i ∨ d.phase i = .loading
    let mdioEnd := (x.port 0).mdioAt + (if x.bit Reg.MDIO_CFG 8 then 32 else 64) * (2 * (x.fld Reg.MDIO_CFG 7 0 + 1))
    (clocked →
      Ends (.linkChange dt i p sync link speed) s fun e =>
        let z := e.strand i
        Only d e i all ∧ as e (phy.linkWant p) ∧ z.bit st 1 = sync ∧
        (x.linkUp p ≠ z.linkUp p → z.bit (Reg.MAC_FLAGS p) 0 = true) ∧
        (x.linkUp p = true → z.linkUp p = false →
          (z.port p).rx = none ∧ (z.port p).tx = none ∧ (z.port p).txHeld = none ∧ (z.chan p).frames = [] ∧ (z.port p).pause = {} ∧
          (∀ g < 2, bitN (x.fld (Reg.SW_GRP_MEM g) 3 0) p = true → (∃ a : Fin 4, a ≠ p ∧ bitN (x.fld (Reg.SW_GRP_MEM g) 3 0) a = true ∧ x.linkUp a = true) →
            ∀ j < 16, z.fld (Reg.SW_GRP_MAP g) (2 * j + 1) (2 * j) ≠ p.val) ∧
          z.counter (Reg.MAC_CNT p + 8 * 18) = min counterMax (x.counter (Reg.MAC_CNT p + 8 * 18) + 1))) ∧
    (Reaches d m i →
      (bitOf (x.rd Reg.MDIO_STAT) 31 = false →
        Ends (.mdioStart dt m i v) s fun e =>
          let w := (e.strand i).rd Reg.MDIO_CMD
          Only d e i [.regs, .ports] ∧ (e.strand i).ports = (x.setPort 0 { x.port 0 with mdioAt := d.ns }).ports ∧
          RegsBut x (e.strand i) [Reg.MDIO_CMD, Reg.MDIO_STAT] ∧
          (e.strand i).rd Reg.MDIO_STAT = setBit (x.rd Reg.MDIO_STAT) 31 true ∧ Sent d e (.mdio w) ∧
          bitOf w 31 = bitOf v 31 ∧ fieldOf w 25 21 = fieldOf v 25 21 ∧ fieldOf w 20 16 = fieldOf v 20 16 ∧ fieldOf w 15 0 = fieldOf v 15 0) ∧
      (bitOf (x.rd Reg.MDIO_STAT) 31 = true →
        Ends (.mdioStart dt m i v) s fun e => Only d e i [.regs] ∧ Flagged x (e.strand i) Reg.MDIO_STAT 29) ∧
      (x.anRuns p = true →
        let z := x.putBit st 3 false
        Ends (.anRestart dt m i p) s fun e => Only d e i all ∧ (e.strand i).bit st 3 = false ∧ as e (z.linkWant p) ∧
          (stays z → Only d e i [.regs] ∧ RegsBut x (e.strand i) [st] ∧ (e.strand i).rd st = z.rd st)) ∧
      (x.preemptPort p = true → bitOf (x.rd (Reg.MAC_PREEMPT p)) 2 = false →
        Ends (.verifyRestart dt m i p) s fun e => Only d e i [.regs] ∧ RegsBut x (e.strand i) [st] ∧
          (e.strand i).rd st = setBit (x.rd st) 7 false) ∧
      Ends (.macFltW3Write dt m i p k v) s fun e => Only d e i [.regs, .ports] ∧
        RegsBut x (e.strand i) [Reg.MAC_FLT_W0 p k, Reg.MAC_FLT_W1 p k, Reg.MAC_FLT_W2 p k, Reg.MAC_FLT_W3 p k] ∧
        (e.strand i).rd (Reg.MAC_FLT_W0 p k) = (x.port p).held.get (x.rd (Reg.MAC_FLT_W0 p k)) (4 * k) ∧
        (e.strand i).rd (Reg.MAC_FLT_W1 p k) = (x.port p).held.get (x.rd (Reg.MAC_FLT_W1 p k)) (4 * k + 1) ∧
        (e.strand i).rd (Reg.MAC_FLT_W2 p k) = (x.port p).held.get (x.rd (Reg.MAC_FLT_W2 p k)) (4 * k + 2) ∧
        (e.strand i).rd (Reg.MAC_FLT_W3 p k) = (if fieldOf v 25 24 = 3 then
          setField (v &&& 0xFF070000#32) 25 24 (x.fld (Reg.MAC_FLT_W3 p k) 25 24) else v &&& 0xFF070000#32) ∧
        (∀ q, q ≠ p → (e.strand i).port q = x.port q)) ∧
    (clocked → bitOf (x.rd Reg.MDIO_STAT) 31 = true → d.ns < mdioEnd → Ends (.mdioDone dt i b data) s fun e => DevKeeps d e []) ∧
    (clocked → bitOf (x.rd Reg.MDIO_STAT) 31 = true → mdioEnd ≤ d.ns →
      Ends (.mdioDone dt i b data) s fun e => Only d e i [.regs] ∧ RegsBut x (e.strand i) [Reg.MDIO_STAT] ∧
        (e.strand i).bit Reg.MDIO_STAT 31 = false ∧
        (2 ≤ x.fld Reg.MDIO_CMD 30 29 →
          (e.strand i).bit Reg.MDIO_STAT 30 = !b ∧ (e.strand i).fld Reg.MDIO_STAT 15 0 = if b then data.toNat else 0xFFFF)) ∧
    (clocked → x.anRuns p = true →
      let z := (x.putBit st 3 (!b)).putBit st 2 c
      Ends (.anDone dt i p b c) s fun e => Only d e i all ∧ as e (z.linkWant p) ∧ (e.strand i).bit st 2 = c ∧
        (x.linkUp p = false ∨ (e.strand i).linkUp p = true → (e.strand i).bit st 3 = !b) ∧
        (stays z → Only d e i [.regs] ∧ RegsBut x (e.strand i) [st])) ∧
    (clocked → x.preemptPort p = true → bitOf (x.rd (Reg.MAC_PREEMPT p)) 2 = false → x.linkUp p = true →
      Ends (.verifyDone dt i p b) s fun e => Only d e i [.regs] ∧
        RegsBut x (e.strand i) (if b then [st] else [st, Reg.MAC_FLAGS p]) ∧ (e.strand i).bit st 7 = b ∧
        (b = false → (e.strand i).bit (Reg.MAC_FLAGS p) 5 = true ∧ LogHas e 0x0402))

/-- RX_FRAME starts the reception of a frame on an enabled port that receives none, bound for the switch unless the port is the lane's alone or the frame is a
PAUSE or PFC frame (R109, R120, R123); otherwise it has no effect.  In the cycle of its last byte (`StrandSt.rxStep`) a frame with a bad FCS counts in
RX_FCS_ERR alone and reaches no queue (R112, R114); a good one for the lane only counts in RX_FRAMES_OK (R112); a PAUSE frame sets the port's pause to its quanta from
then and reaches no queue (R123).  A fragment sequence that cannot be put together counts in RX_ASSY_ERR (R125).  A pause is over when it has run out, not before (R123).
A flow-control frame is repeated where the count stays at XON and QUANTA has passed since the last (R156).  A frame for an ACTIVE channel is in transit from then on, to leave
after L_b, or later behind what precedes it; one that PT_TX or a speed mismatch keeps off the port counts in PT_DISCARD (R130, R133 to R135). -/
def Obligations.PortFrames : Prop :=
  ∀ (s : State) (dt : Nat) (i : StrandId) (p a : Fin 4) (w : RxWire) (q : Fin 9) (r : MacRx) (fifo : FifoEnd),
    let d := later s dt
    let y := view d i
    let cnt := Reg.MAC_CNT p
    let good (w : RxWire) : Prop := w.symErr = false ∧ w.linkLost = false ∧ 64 ≤ w.bytes.length + 4 ∧ w.bytes.length + 4 ≤ y.maxLen p
    let enabled : Prop := bitOf (y.rd (Reg.MAC_CTL p)) 0 = true ∧ y.linkUp p = true ∧ (y.port p).rx = none
    let plus (z : StrandSt) (k n : Nat) : Prop := z.counter (cnt + 8 * k) = min counterMax (y.counter (cnt + 8 * k) + n)
    let but (z : StrandSt) (l : List Nat) : Prop := ∀ k < 19, k ∉ l → z.counter (cnt + 8 * k) = y.counter (cnt + 8 * k)
    Active d i →
      (¬enabled → Ends (.rxFrame dt i p w) s fun e => Only d e i []) ∧
      (enabled → w.frags = 1 → w.assyErr = false → y.isFlgFrame p w.bytes = false →
        Ends (.rxFrame dt i p w) s fun e => let z := e.strand i
          Only d e i [.regs, .cnt, .ports] ∧ RegsBut y z [Reg.MAC_FLAGS p] ∧ CntsBut y z [cnt + 8 * 11] ∧ (∀ b, b ≠ p → z.port b = y.port b) ∧
          ∃ x ∈ (z.port p).rx, x.wire = w ∧ x.start = y.now ∧ x.stop = byteCycle (y.speedAct p) y.now (w.bytes.length + 3) ∧
            x.bound = (y.ptRx p != 1 && !macControlFrame w.bytes) ∧ x.refused = (x.bound && (y.reserve p).isNone)) ∧
      (enabled → y.preemptPort p = true → w.assyErr = true →
        Ends (.rxFrame dt i p w) s fun e => Only d e i [.cnt] ∧ plus (e.strand i) 8 1 ∧ plus (e.strand i) 11 (w.frags - 1) ∧
          CntsBut y (e.strand i) [cnt + 8 * 8, cnt + 8 * 11]) ∧
      ((y.port p).rx = some r → r.flg = false → r.rule.isSome = true ∨ r.bound = false ∨ r.refused = true → r.stop ≤ y.now → good r.wire →
        let z := y.rxStep p
        let len := r.wire.bytes.length + 4
        let unheard : Prop := (z.port p).rx = none ∧ z.sw.queues = y.sw.queues ∧ z.sw.frames = y.sw.frames
        (r.wire.fcsBad = true → y.ptRx p ≠ 1 → y.bit Reg.SW_MIRROR 11 = false →
          unheard ∧ plus z 2 1 ∧ but z [2] ∧ z.bit (Reg.MAC_FLAGS p) 1 = true) ∧
        (r.wire.fcsBad = false → y.ptRx p = 1 → macControlFrame r.wire.bytes = false → unheard ∧ plus z 0 1 ∧ plus z 1 len ∧ but z [0, 1]) ∧
        (r.wire.fcsBad = false → be16 r.wire.bytes 12 = 0x8808 → be16 r.wire.bytes 14 = 1 → y.bit (Reg.MAC_CTL p) 17 = true →
          unheard ∧ plus z 0 1 ∧ plus z 1 len ∧ plus z 7 1 ∧ but z [0, 1, 7] ∧
          (z.port p).pause.get 0 8 = if be16 r.wire.bytes 16 = 0 then 0 else y.now + bytesCycles (y.speedAct p) (64 * be16 r.wire.bytes 16))) ∧
      Ends (.pauseExpiry dt i p q) s (fun e => let t := ((e.strand i).port p).pause
        Only d e i [.ports] ∧ (∀ b, b ≠ p → (e.strand i).port b = y.port b) ∧ TabBut 0 (y.port p).pause t [q.val] ∧
        t.get 0 q = if y.now < (y.port p).pause.get 0 q then (y.port p).pause.get 0 q else 0) ∧
      (let k := if y.fcMode p = 1 then 8 else q.val
       let due : Prop := (y.port p).fcAt.get 0 k + bytesCycles (y.speedAct p) (32 * y.fld (Reg.SW_FCQ p) 15 0) ≤ y.now
       (¬due → Ends (.fcRepeat dt i p q) s fun e => Only d e i []) ∧
       (due → y.fcMode p ≠ 0 → y.bit (Reg.SW_IN_STAT p) (if y.fcMode p = 1 then 24 else 24 + q.val) = true → d.phase i = .run → y.linkUp p = true →
         y.fld (Reg.SW_FC p) 13 0 ≤ y.fcCount p q → y.txFree p = true → (y.port p).tx = none → (y.port p).fc = {} →
         Ends (.fcRepeat dt i p q) s fun e => Only d e i [.cnt, .ports] ∧ Counted y (e.strand i) (Reg.SW_UCNT + 8 * (4 + p.val)) ∧
           ∃ c ∈ ((e.strand i).port p).tx, c.queue = 8 ∧ c.start = y.now + 1 ∧ c.wire = y.fcFrame p k (y.fld (Reg.SW_FCQ p) 15 0))) ∧
      (y.chanSource p = some a.val → y.ptRx a = 1 ∨ y.ptRx a = 2 → y.linkUp a = true → bitOf (y.rd (Reg.MAC_CTL a)) 0 = true →
        macControlFrame w.bytes = false →
        (y.ptTx p = 0 ∨ (y.linkUp p = true ∧ y.speedAct a ≠ y.speedAct p) →
          Ends (.ptFrame dt i p w fifo) s fun e => Only d e i [.regs, .cnt] ∧ Counted y (e.strand i) (Reg.PT_CNT p + 80)) ∧
        (let fill := max 12 (ceilDiv (y.maxLen a * tByte10 (y.speedAct a)) 50000)
         let nominal := y.now + (38 + y.editExt p + (fill - 12))
         let out := y.laneOut p nominal
         y.ptTx p = 1 ∨ y.ptTx p = 2 → y.linkUp p = true → y.speedAct a = y.speedAct p → d.phase i = .run → bitOf (y.rd (Reg.MAC_CTL p)) 1 = true →
         w.bytes.length + 4 ≤ y.maxLen a → out = nominal →
         Ends (.ptFrame dt i p w fifo) s fun e =>
           let z := e.strand i
           Only d e i [.regs, .pt] ∧ RegsBut y z [Reg.PT_STATUS p] ∧ z.fld (Reg.PT_STATUS p) 23 16 = fill % 256 ∧
           (z.chan p).edits = [] ∧ (∀ b, b ≠ p → z.chan b = y.chan b) ∧
           ∃ f ∈ (z.chan p).frames.getLast?, (z.chan p).frames = (y.chan p).frames ++ [f] ∧ f.bytes = w.bytes ∧ f.start = y.now ∧ f.out = nominal ∧ f.lost = w.linkLost ∧
             f.edits = (y.chan p).edits.map (fun t => { edit := t }) ∧ f.bad = (w.fcsBad || w.symErr || decide (w.bytes.length + 4 < 64))))

/-! ## Switch -/

/-- A stored frame becomes eligible 24 cycles after it was written, not before (R147).  On an idle E port the highest-numbered eligible queue's head starts and is
counted (R157); where its cell cannot be read it is sent up to the lost byte with an inverted FCS, with BUF_UE (R166).  On a V port that has written the frame before, the head of
the highest non-empty queue leaves, counted, as header and data words; a V port that has not, or whose engine has no TX queue, takes none (R148, R157).  A frame
of an internal source enters every destination's queue when all can take it and waits unharmed otherwise (R154).  A V port turns header and data
words of its engine into a waiting frame, discards a bad header alone, and writes its words to the engine's TX queue (R148). -/
def Obligations.SwitchFrames : Prop :=
  ∀ (s : State) (dt : Nat) (i : StrandId) (o : Fin 10) (q : Fin 8) (p k : Fin 4) (u v : List SwRef) (r : SwRef) (wire : List Byte) (w : SwWait)
    (n : Nat) (h : QEnt) (data : List QEnt) (lost : Nat) (bad : Bool),
    let d := later s dt
    let y := view d i
    let c := Reg.SW_QCNT
    let left (e : Dev) (port octets : Nat) (also : List Nat) : Prop :=
      (e.strand i).queue port q = v ∧ TabBut [] y.sw.queues (e.strand i).sw.queues [qKey port q] ∧
      (e.strand i).counter (c port q) = min counterMax (y.counter (c port q) + 1) ∧
      (e.strand i).counter (c port q + 8) = min counterMax (y.counter (c port q + 8) + octets) ∧
      CntsBut y (e.strand i) (c port q :: (c port q + 8) :: also)
    Active d i →
      (y.queue o q = u ++ r :: v → (∀ t ∈ u, t.eligible = true) → r.eligible = false →
        Ends (.frameEligible dt i o q) s fun e => Only d e i [.sw] ∧
          (e.strand i).queue o q = u ++ { r with eligible := decide (r.written + 24 ≤ y.now) } :: v ∧
          TabBut [] y.sw.queues (e.strand i).sw.queues [qKey o q] ∧ (e.strand i).sw.frames = y.sw.frames) ∧
      (d.phase i = .run → (y.port p).tx = none → (y.port p).txHeld = none → (y.port p).fc = {} → y.linkUp p = true → y.txFree p = true →
        (∀ j < 8, ∀ b ∈ y.headBytes p j, b.2.length + 4 ≤ y.maxLen p) → (∀ j < 8, q.val < j → y.queue p j = []) →
        y.queue p q = r :: v → y.headBytes p q = some (r, wire) → y.qReady p q = true → y.bit (Reg.GCL_CTL p) 31 = false →
        y.flgHolds p (y.frameCycles p wire.length) = false →
        let starts (e : Dev) (P : TxCur → Bool) : Prop := (∀ j, j ≠ p → (e.strand i).port j = y.port j) ∧
          ∃ t ∈ ((e.strand i).port p).tx, t.wire = wire ∧ t.queue = q.val ∧ t.start = y.now ∧ P t
        Ends (.egressSelect dt i (p.castLE (by decide)) .clean) s (fun e => Only d e i [.cnt, .ports, .sw] ∧ left e p (wire.length + 4) [] ∧
          (e.strand i).sw.frames = y.sw.frames ∧
          starts e fun t => t.upto = wire.length ∧ t.stop = y.now + bytesCycles (y.speedAct p) (8 + wire.length + 4) ∧ t.inv = r.inv) ∧
        (lost < wire.length →
          Ends (.egressSelect dt i (p.castLE (by decide)) (.lost lost bad)) s fun e => Only d e i [.regs, .cnt, .ports, .sw] ∧
            RegsBut y (e.strand i) [Reg.SW_FLAGS] ∧ (e.strand i).bit Reg.SW_FLAGS 2 = true ∧ left e p (wire.length + 4) [Reg.SW_UCNT + 16] ∧
            (e.strand i).counter (Reg.SW_UCNT + 16) = min counterMax (y.counter (Reg.SW_UCNT + 16) + 1) ∧
            starts e fun t => t.upto = lost ∧ t.inv = true ∧ t.broke = true)) ∧
      (y.vEngine k = some n → y.txDepth n ≠ 0 → (y.sw.vports.get {} k).toSend = [] →
        y.queue (6 + k) q = r :: v → r.eligible = true → (∀ j < 8, q.val < j → y.queue (6 + k) j = []) →
        let f := (y.sw.frames.get {} r.fid).frame.deliveredBy r .clean
        Ends (.egressSelect dt i (k.natAdd 6) .clean) s fun e => Only d e i [.regs, .cnt, .sw] ∧ RegsBut y (e.strand i) [Reg.SW_FLAGS] ∧
          left e (6 + k) f.bytes.length [] ∧ ((e.strand i).sw.vports.get {} k).toSend = vHeader f :: vWords f.bytes) ∧
      (y.vEngine k = none ∨ (∃ j, y.vEngine k = some j ∧ (y.txDepth j = 0 ∨ (y.sw.vports.get {} k).toSend ≠ [])) →
        Ends (.egressSelect dt i (k.natAdd 6) .clean) s fun e => Only d e i []) ∧
      (o ≠ 4 → o ≠ 5 → y.sw.waiting = [w] → w.src = o.val → w.frame.info.cls < 8 →
        let t := y.destinations w.mask w.frame
        (t.2.admissible t.1 w.frame = true → t.2.mirrored t.1 w.frame = false →
          Ends (.internalAdmit dt i o) s fun e => Only d e i [.cnt, .sw] ∧ (e.strand i).sw.waiting = [] ∧
            ∀ port < 10, ∀ j < 8, if bitN t.1 port ∧ j = w.frame.info.cls then
                ∃ b ∈ (e.strand i).sw.queues.get [] (qKey port j), b.eligible = false ∧ b.written = y.now ∧
                  ((e.strand i).sw.frames.get {} b.fid).frame = w.frame ∧ (e.strand i).queue port j = y.queue port j ++ [b]
              else (e.strand i).queue port j = y.queue port j) ∧
        (t.2.admissible t.1 w.frame = false →
          Ends (.internalAdmit dt i o) s fun e => Only d e i [])) ∧
      (y.vEngine k = some n → (y.eng n).rxq = h :: data → (∀ t ∈ h :: data, t.ready ≤ y.now) → y.rxDepth n ≠ 0 →
        (y.sw.vports.get {} k).hdr = none →
        let l := fieldOf h.word 13 0
        (14 ≤ l → l ≤ 9212 → fieldOf h.word 18 14 = 0 → data.length = ceilDiv l 4 →
          Ends (.vPortIngress dt i k) s fun e => Only d e i [.bead, .sw] ∧ EngsBut y (e.strand i) n ∧ ((e.strand i).eng n).rxq = [] ∧
            ∃ f ∈ (e.strand i).sw.waiting.getLast?, (e.strand i).sw.waiting = y.sw.waiting ++ [f] ∧ f.src = 6 + k ∧
              f.mask = fieldOf h.word 31 22 ∧ f.frame.info.cls = fieldOf h.word 21 19 ∧
              f.frame.bytes = (data.flatMap fun x => leBytes 4 x.word.toNat).take l) ∧
        (l < 14 ∨ 9212 < l ∨ fieldOf h.word 18 14 ≠ 0 → data = [] →
          Ends (.vPortIngress dt i k) s fun e => Only d e i [.bead, .cnt] ∧ EngsBut y (e.strand i) n ∧ ((e.strand i).eng n).rxq = [] ∧
            Counted y (e.strand i) (Reg.SW_UCNT + 8 * 16))) ∧
      (y.vEngine k = some n → (y.eng n).txq.length + (y.sw.vports.get {} k).toSend.length ≤ y.txDepth n →
        Ends (.vPortEgress dt i k) s fun e => Only d e i [.bead, .sw] ∧ EngsBut y (e.strand i) n ∧
          ((e.strand i).eng n).txq.map (·.word) = (y.eng n).txq.map (·.word) ++ (y.sw.vports.get {} k).toSend ∧
          ((e.strand i).sw.vports.get {} k).toSend = [])

/-- FDB_WRITE copies the three data registers into the entry, FDB_READ the entry into them, FDB_CLEAR empties the table (R150).  The gate list's position follows
the time outside HOLD (R159, R162).  SWAP arms the inactive list, with its cycle time, for the first NEXT_BASE + m × NEXT_CYCLE at or after the end of the current cycle of a
running list, or sets GCL_BUSY while one is pending; from that time on, not before, GCL_SWAP_ACT clears SWAP_PEND and flips ACTIVE (R161).  A shaped queue whose
credit is at least 0 has its port select as EGRESS_SELECT does, and one below 0 waits (R157, R158). -/
def Obligations.SwitchTables : Prop :=
  ∀ (s : State) (dt : Nat) (m : Master) (i : StrandId) (n : Fin 2048) (o : Fin 4) (q : Fin 8) (b : Bool),
    let d := later s dt
    let x := d.strand i
    let cmd (z : StrandSt) : Prop := z.fld Reg.SW_FDB_CMD 10 0 = n.val
    let ctl := Reg.GCL_CTL o
    (Reaches d m i →
      Ends (.fdbWrite dt m i n) s (fun e => Only d e i [.regs, .sw] ∧ RegsBut x (e.strand i) [Reg.SW_FDB_CMD] ∧ cmd (e.strand i) ∧
        (e.strand i).fdbAt n = ⟨x.rd Reg.SW_FDB_D0, x.rd Reg.SW_FDB_D1, x.rd Reg.SW_FDB_D2⟩ ∧
        TabBut {} x.sw.fdb (e.strand i).sw.fdb [n.val] ∧ (e.strand i).sw.queues = x.sw.queues) ∧
      Ends (.fdbRead dt m i n) s (fun e => Only d e i [.regs] ∧ cmd (e.strand i) ∧
        RegsBut x (e.strand i) [Reg.SW_FDB_CMD, Reg.SW_FDB_D0, Reg.SW_FDB_D1, Reg.SW_FDB_D2] ∧
        x.fdbAt n = ⟨(e.strand i).rd Reg.SW_FDB_D0, (e.strand i).rd Reg.SW_FDB_D1, (e.strand i).rd Reg.SW_FDB_D2⟩) ∧
      Ends (.fdbClear dt m i n) s (fun e => Only d e i [.regs, .sw] ∧ RegsBut x (e.strand i) [Reg.SW_FDB_CMD] ∧ cmd (e.strand i) ∧
        (e.strand i).sw = { x.sw with fdb := {} }) ∧
      (bitOf (x.rd ctl) 29 = true →
        Ends (.swap dt m i o b) s fun e => Only d e i [.regs] ∧ RegsBut x (e.strand i) [ctl, Reg.SW_FLAGS] ∧
          (e.strand i).rd ctl = setBit (x.rd ctl) 31 b ∧ (e.strand i).bit Reg.SW_FLAGS 4 = true) ∧
      (bitOf (x.rd ctl) 29 = false → 0 < x.fld (Reg.GCL_NEXT_CYCLE o) 29 0 →
        Ends (.swap dt m i o b) s fun e => Only d e i [.regs, .sw] ∧ RegsBut x (e.strand i) [ctl] ∧
          (e.strand i).rd ctl = setBit (setBit (x.rd ctl) 31 b) 29 true ∧
          (let g := (e.strand i).gclSt o
           let c := x.fld (Reg.GCL_NEXT_CYCLE o) 29 0
           let t0 := (x.gclSt o).base
           let due := if x.gclLen o = 0 ∨ x.tNs < t0 ∨ x.gclCycle o = 0 then x.tNs
             else t0 + ((x.tNs - t0) / x.gclCycle o + 1) * x.gclCycle o
           g = { x.gclSt o with swapAt := g.swapAt, swapCycle := c } ∧
           due ≤ g.swapAt ∧ x.gclNextBase o ≤ g.swapAt ∧ (g.swapAt - x.gclNextBase o) % c = 0 ∧
           (g.swapAt = x.gclNextBase o ∨ g.swapAt < due + c)))) ∧
    (Active d i →
      Ends (.gclEntryAdvance dt i o) s (fun e => Only d e i [.sw] ∧ TabBut {} x.sw.gcl (e.strand i).sw.gcl [o.val] ∧
        (e.strand i).gclSt o = if d.phase i = .hold then x.gclSt o
          else { x.gclSt o with entry := (x.gclAt o x.tNs).1, gates := (x.gclAt o x.tNs).2 }) ∧
      (if bitOf (x.rd ctl) 29 = true ∧ (x.gclSt o).swapAt ≤ x.tNs then
        Ends (.gclSwapAct dt i o) s fun e => Only d e i [.regs, .sw] ∧ RegsBut x (e.strand i) [ctl, Reg.GCL_CUR_CYCLE o] ∧
          (e.strand i).rd ctl = setBit (setBit (x.rd ctl) 29 false) 30 (!bitOf (x.rd ctl) 30) ∧
          (e.strand i).gclCycle o = (x.gclSt o).swapCycle % 2 ^ 30 ∧ ((e.strand i).gclSt o).base = (x.gclSt o).swapAt
      else Ends (.gclSwapAct dt i o) s fun e => Only d e i []) ∧
      (bitOf (x.rd (Reg.SW_CBS o q)) 31 = true → x.queue o q ≠ [] → x.linkUp o = true →
        if x.sw.credit.get 0 (qKey o q) < 0 then Ends (.cbsCreditReachesZero dt i o q) s fun e => Only d e i []
        else Ends (.cbsCreditReachesZero dt i o q) s fun e => Ends (.egressSelect dt i (o.castLE (by decide)) .clean) s (· = e)))

/-! ## Strand time -/

/-- A RATE write is kept until the cycle ends, but for one of a master that goes before it, and before the time base runs it has no effect (R171, R172); at the end of the
cycle (`StrandSt.timeEnd`) RATE takes the kept value, clamped to ±2,147,483, as a servo sample, and a clamp is told by flag, counter and code 0x0704 (R171, R182).  RATE_INIT is clamped in the same way and locked (R171).  TIME_NOW_NS reads NS and latches SEC and
FRAC for its master (R173).  STEP acts two cycles later: a permitted one adds its offset and is counted, any other changes no time and sets its flag (R175, R178).  ARM sets STEP_ARMED as of the next cycle and is logged
(R176).  An edge of the polarity in use that did not hold is invalid; the first good one is the reference, one a second later is valid and aligns the counter where a step by it is permitted (R179 to R181); two seconds without one set HOLDOVER, not
less (R180).  The output pulse rises at its target and falls when its width has run out (R184). -/
def Obligations.StrandTime : Prop :=
  ∀ (s : State) (dt : Nat) (m : Master) (i : StrandId) (v : Word) (half k : Nat) (rising : Bool),
    let d := later s dt
    let x := d.strand i
    let c := Reg.TIME_CNT
    let st := Reg.TIME_STATUS
    let quiet (t : TimeBase) : Prop := t.rateBy = none ∧ t.align = none ∧ t.steps = [] ∧ t.arm = false
    let still : Prop := quiet x.time ∧ x.bng.shifts = []
    let r := signedN 32 v.toNat
    let kept : Word := if 2147483 < r then 2147483#32 else if r < -2147483 then -2147483#32 else v
    let clamped : Prop := 2147483 < r ∨ r < -2147483
    let who : Nat := match m with
      | .host b => b2n b
      | .core _ => 2
      | .loupe => 3
    let te : Int := (x.t16 : Int) - (half * 32768 : Nat) - 4 * 65536 - signedN 32 (x.rd Reg.PPS_IN_CORR).toNat
    let tm := (te % ((2 ^ 48 * sec16 : Nat) : Int)).toNat
    let stamps : List Nat := [Reg.PPS_IN_TS_NS, Reg.PPS_IN_TS_S, Reg.PPS_IN_TS_SH]
    let edge : TimeBase := { x.time with ppsRef := some te, refAfterStep := true, ppsUnc := x.tsUncertain }
    let tol : Int := (x.fld Reg.TIME_CTL 31 22 * 1000 * 65536 : Nat)
    (Reaches d m i →
      (if x.bit st 5 = true ∧ (∀ w ∈ x.time.rateBy, rateRank who ≤ rateRank w.1) then
        Ends (.rateWrite dt m i v) s fun e => Only d e i [.time] ∧ (e.strand i).time = { x.time with rateBy := some (who, v) } ∧
          (still → let z := (e.strand i).timeEnd
            z.rd Reg.TIME_RATE = kept ∧ z.fld st 7 6 = min 2 (x.fld st 7 6 + 1) ∧ z.time = x.time ∧
            RegsBut x z (if clamped then [Reg.TIME_RATE, st, Reg.TIME_FLAGS] else [Reg.TIME_RATE, st]) ∧
            CntsBut x z (if clamped then [c + 8 * 7, c + 8 * 6] else [c + 8 * 7]) ∧
            z.counter (c + 8 * 7) = min counterMax (x.counter (c + 8 * 7) + 1) ∧
            (clamped → z.bit Reg.TIME_FLAGS 5 = true ∧ z.counter (c + 8 * 6) = min counterMax (x.counter (c + 8 * 6) + 1) ∧
              ∃ p ∈ z.reports, p.code = 0x0704))
      else Ends (.rateWrite dt m i v) s fun e => Only d e i []) ∧
      ((d.supOf i).lock = false →
        Ends (.rateInitWrite dt m i v) s fun e => Only d e i [.regs, .cnt] ∧ (e.strand i).rd Reg.TIME_RATE_INIT = kept ∧
          (x.bit st 5 = false → (e.strand i).rd Reg.TIME_RATE = kept) ∧
          RegsBut x (e.strand i) ([Reg.TIME_RATE_INIT] ++ (if x.bit st 5 then [] else [Reg.TIME_RATE]) ++ if clamped then [Reg.TIME_FLAGS] else [])) ∧
      ((d.supOf i).lock = true → Ends (.rateInitWrite dt m i v) s fun e => Only d e i []) ∧
      Ends (.timeNowRead dt m i) s (fun e =>
        let t := (e.strand i).time
        Only d e i [.time] ∧ Sent d e (.readData x.ns) ∧ t = { x.time with latch := t.latch } ∧
        t.latch.get (0, 0) who = (x.time.sec, x.frac) ∧ TabBut (0, 0) x.time.latch t.latch [who]) ∧
      Ends (.timeStep dt m i) s (fun e => Only d e i [.time] ∧ (e.strand i).time = { x.time with steps := x.time.steps ++ [x.now + 2] }) ∧
      (x.bit st 2 = false → x.time.arm = false →
        Ends (.stepArm dt m i) s fun e => Only d e i [.cnt, .time] ∧ Counted x (e.strand i) (c + 8 * 2) ∧ LogHas e 0x0702 ∧
          (e.strand i).time = { x.time with arm := true } ∧
          (still → let z := (e.strand i).timeEnd
            Flagged x z st 2 ∧ z.time = x.time))) ∧
    (quiet { x.time with steps := [] } → x.bng.shifts = [] → x.time.steps = [k] → k ≤ x.now →
      let z := x.timeEnd
      let new : Int := (x.t32 : Int) + signedN 32 (x.rd Reg.STEP_S).toNat * secUnit +
        ((x.fld Reg.STEP_NS 29 0 * nsUnit + x.fld Reg.STEP_FRAC 15 0 * 2 ^ 16 : Nat) : Int)
      (x.bit st 5 = true → x.mayStep false = true → x.bit Reg.STEP_SH 31 = false → x.fld Reg.STEP_NS 29 0 < 10 ^ 9 → 0 ≤ new →
        z.t32 = new.toNat % (2 ^ 48 * secUnit) ∧ z.bit Reg.TIME_FLAGS 0 = true ∧ z.fld st 31 24 = (x.fld st 31 24 + 1) % 256 ∧
        z.bit st 2 = false ∧ z.counter c = min counterMax (x.counter c + 1) ∧ z.time.steps = []) ∧
      (x.mayStep false = false ∨ 10 ^ 9 ≤ x.fld Reg.STEP_NS 29 0 →
        Flagged x z Reg.TIME_FLAGS 1 ∧ Counted x z (c + 8) ∧ z.time = { x.time with steps := [] })) ∧
    (Active d i → x.bit st 5 = true →
      (x.bit Reg.TIME_CTL 6 = false ∨ x.bit Reg.TIME_CTL 7 = rising → Ends (.ppsEdge dt i rising half true) s fun e => Only d e i []) ∧
      (x.bit Reg.TIME_CTL 6 = true → x.bit Reg.TIME_CTL 7 ≠ rising →
        Ends (.ppsEdge dt i rising half false) s (fun e => Only d e i [.regs, .cnt] ∧ Flagged x (e.strand i) Reg.TIME_FLAGS 2 ∧
          Counted x (e.strand i) (c + 8 * 4)) ∧
        (x.time.ppsRef = none →
          Ends (.ppsEdge dt i rising half true) s fun e => Only d e i [.regs, .time] ∧ RegsBut x (e.strand i) stamps ∧
            (e.strand i).time = edge ∧
            ((e.strand i).rd Reg.PPS_IN_TS_NS).toNat = nsOf16 tm % 2 ^ 32 ∧ ((e.strand i).rd Reg.PPS_IN_TS_S).toNat = secOf16 tm % 2 ^ 32) ∧
        (∀ ref ∈ x.time.ppsRef, te - ref ≤ sec16 + tol → (sec16 : Int) - tol ≤ te - ref →
          let go := x.mayStep true && x.time.align.isNone
          Ends (.ppsEdge dt i rising half true) s fun e => Only d e i [.regs, .cnt, .time] ∧
            RegsBut x (e.strand i) (stamps ++ [Reg.TIME_FLAGS, st, Reg.PPS_ERR, Reg.PPS_SEC_SH]) ∧ Counted x (e.strand i) (c + 8 * 3) ∧
            (e.strand i).bit Reg.TIME_FLAGS 4 = true ∧ (e.strand i).bit st 4 = false ∧
            (e.strand i).time = { edge with ppsValid := some te,
                                            align := if go then some ((x.t32 : Int) + (x.ppsSecond te * (sec16 : Int) - te) * (2 ^ 16 : Nat))
                                                     else x.time.align })) ∧
      (if ∃ w ∈ x.time.ppsValid, w + 2 * (sec16 : Int) ≤ x.t16 then
        Ends (.ppsLoss dt i) s fun e => Only d e i [.regs, .cnt, .time] ∧ RegsBut x (e.strand i) [Reg.TIME_FLAGS, st] ∧
          (e.strand i).bit Reg.TIME_FLAGS 3 = true ∧ (e.strand i).rd st = setBit (x.rd st) 4 true ∧ Counted x (e.strand i) (c + 8 * 5) ∧
          (e.strand i).time = { x.time with ppsRef := none, ppsValid := none } ∧ LogHas e 0x0703
      else Ends (.ppsLoss dt i) s fun e => Only d e i []) ∧
      (if x.bit Reg.TIME_CTL 3 = true ∧ (x.bit Reg.TIME_CTL 4 = false ∨ x.tsUncertain = false) ∧ x.ppsTarget = true then
        Ends (.ppsOutPulse dt i) s fun e => Only d e i [.time] ∧ Sent d e (.ppsOut (!x.bit Reg.TIME_CTL 5)) ∧
          (e.strand i).time = { x.time with ppsOut := true, ppsEnd := x.now + x.fld Reg.PPS_OUT_W 29 0 }
      else Ends (.ppsOutPulse dt i) s fun e => Only d e i [])) ∧
    (Active d i →
      if x.time.ppsOut = true ∧ x.time.ppsEnd ≤ x.now then
        Ends (.ppsOutEnd dt i) s fun e => Only d e i [.time] ∧ (e.strand i).time = { x.time with ppsOut := false } ∧
          Sent d e (.ppsOut (x.bit Reg.TIME_CTL 5))
      else Ends (.ppsOutEnd dt i) s fun e => Only d e i [])

/-! ## Bangle -/

/-- Observations reach a tracker's FIFO from the core or in groups of three from its engine's RX queue, and are refused when it is full (R192, R194).  The loop
rejects one with its first cause (R194), takes the angle of the first of a warm-up as it stands, and counts an implausible one as a miss (R197); it takes one in 8 cycles
(R195).  TIMEOUT, once more than TRK_TIMEOUT has passed since the last observation, and RESTART take a VALID
tracker to WARMUP with their cause, told by flag, counter and code 0x0801, and realign its entries (R198, R205).  TRK_ANGLE reads the angle and latches rate and turns
(R199, R214). -/
def Obligations.BangleTrackers : Prop :=
  ∀ (s : State) (dt : Nat) (m : Master) (i : StrandId) (t : Fin 4) (v : Word) (a b c : QEnt) (rest : List QEnt) (o : Obs) (obs : List Obs) (k : Nat),
    let x := (later s dt).strand i
    let d := later s dt
    let y := d.strand i
    let cnt (j : Nat) := Reg.BNG_CNT + 8 * (4 * t.val + j)
    let stat := Reg.TRK_STATUS t
    let eng (z : StrandSt) := z.fld (Reg.TRK_CFG t) 27 24
    let others (z w : StrandSt) : Prop := TabBut {} z.bng.trk w.bng.trk [t.val]
    let leaves (z w : StrandSt) (cause : Nat) : Prop :=
      others z w ∧ RegsBut z w [stat, Reg.BNG_FLAGS] ∧ Counted z w (cnt 3) ∧ w.bit Reg.BNG_FLAGS 0 = true ∧ w.fld stat 6 4 = cause ∧
      w.trk t = { z.trk t with state := .warmup, agree := 0 } ∧
      ∀ j : Fin 256, (z.evtTrk j ≠ t.val → w.ent j = z.ent j) ∧
        (z.evtTrk j = t.val → (z.ent j).state ≠ .idle → w.ent j = { z.ent j with realign := true })
    (Active (later s dt) i → (x.trk t).state ≠ .off → x.bit (Reg.TRK_CFG t) 29 = false →
      ((x.trk t).fifo.length < 4 →
        Ends (.trkObsSubmit dt i t v) s fun e => Only (later s dt) e i [.bng] ∧ others x (e.strand i) ∧
          (e.strand i).trk t = { x.trk t with fifo := (x.trk t).fifo ++ [⟨(x.trk t).obsNs, (x.trk t).obsS, v, 0⟩] }) ∧
      (4 ≤ (x.trk t).fifo.length →
        Ends (.trkObsSubmit dt i t v) s fun e => Only (later s dt) e i [.regs, .cnt] ∧ RegsBut x (e.strand i) [stat] ∧
          (e.strand i).fld stat 10 8 = 6 ∧ Counted x (e.strand i) (cnt 2))) ∧
    (Active d i → (y.trk t).state ≠ .off →
      (y.bit (Reg.TRK_CFG t) 29 = true → (y.trk t).fifo.length < 4 → (y.trk t).part = [] → (y.eng (eng y)).rxq = a :: b :: c :: rest →
          a.ready ≤ y.now → b.ready ≤ y.now → c.ready ≤ y.now →
        Ends (.obsQueueTake dt i t) s fun e => Only d e i [.bng, .bead] ∧ others y (e.strand i) ∧ EngsBut y (e.strand i) (eng y) ∧
          ((e.strand i).eng (eng y)).rxq = rest ∧
          (e.strand i).trk t = { y.trk t with fifo := (y.trk t).fifo ++ [⟨a.word, b.word, c.word, a.adj⟩] }) ∧
      ((∃ n ∈ y.bng.loopAt, y.now < n + 8) → Ends (.obsApply dt i t) s fun e => Only d e i []) ∧
      ((y.trk t).fifo = o :: obs → (∀ n ∈ y.bng.loopAt, n + 8 ≤ y.now) →
        (y.obsReject t o ≠ 0 →
          Ends (.obsApply dt i t) s fun e => Only d e i [.regs, .cnt, .bng] ∧ RegsBut y (e.strand i) [stat] ∧ others y (e.strand i) ∧
            (e.strand i).fld stat 10 8 = y.obsReject t o % 8 ∧ Counted y (e.strand i) (cnt 2) ∧
            (e.strand i).trk t = { y.trk t with fifo := obs }) ∧
        (y.obsReject t o = 0 → (y.trk t).state = .warmup → (y.trk t).agree = 0 →
          Ends (.obsApply dt i t) s fun e => Only d e i [.regs, .cnt, .bng] ∧ RegsBut y (e.strand i) [stat, Reg.TRK_LAST_E t] ∧
            others y (e.strand i) ∧ Counted y (e.strand i) (cnt 0) ∧ ((e.strand i).trk t).state = .warmup ∧
            ((e.strand i).trk t).agree = 1 ∧ ((e.strand i).trk t).tref = y.obsTime o ∧ ((e.strand i).trk t).omega = (y.trk t).omega ∧
            wrapN 32 ((e.strand i).trk t).theta = y.obsAngle t o) ∧
        (y.obsReject t o = 0 → (y.trk t).state = .valid → (y.gain t (y.trk t).omega).plaus = 0 →
          (y.trk t).misses + 1 < y.fld (Reg.TRK_CFG t) 15 8 →
          wrapN 32 ((y.trk t).at32 (y.obsTime o)) ≠ y.obsAngle t o →
          Ends (.obsApply dt i t) s fun e => Only d e i [.regs, .cnt, .bng] ∧ RegsBut y (e.strand i) [Reg.TRK_LAST_E t] ∧
            others y (e.strand i) ∧ Counted y (e.strand i) (cnt 1) ∧
            (e.strand i).trk t = { y.trk t with fifo := obs, misses := (y.trk t).misses + 1 })) ∧
      (if (y.trk t).state = .valid ∧ (y.trk t).tref + (y.fld (Reg.TRK_TIMEOUT t) 15 0 * 10 ^ 6 * nsUnit : Nat) < y.t32 then
        Ends (.trkTimeout dt i t) s fun e => Only d e i [.regs, .cnt, .bng] ∧ leaves y (e.strand i) 2 ∧ LogHas e 0x0801
      else Ends (.trkTimeout dt i t) s fun e => Only d e i [])) ∧
    (Reaches (later s dt) m i →
      ((x.trk t).state = .valid →
        Ends (.trkRestart dt m i t) s fun e => Only (later s dt) e i [.regs, .cnt, .bng] ∧ leaves x (e.strand i) 4 ∧ LogHas e 0x0801) ∧
      ((x.trk t).state = .warmup →
        Ends (.trkRestart dt m i t) s fun e => Only (later s dt) e i [.bng] ∧ others x (e.strand i) ∧ (e.strand i).trk t = { x.trk t with agree := 0 }) ∧
      (k = (match m with
          | .host b => b2n b
          | .core _ => 2
          | .loupe => 3) →
        Ends (.trkAngleRead dt m i t) s fun e =>
          let l := (e.strand i).bng.latch
          Only (later s dt) e i [.bng] ∧ Sent (later s dt) e (.readData ((x.trk t).angle x.t32)) ∧ (e.strand i).bng = { x.bng with latch := l } ∧
          TabBut (0, 0, 0) x.bng.latch l [4 * k + t] ∧ (l.get (0, 0, 0) (4 * k + t)).1.toNat = wrapN 32 (x.trk t).omega))

/-- A visit commits an entry whose fire time lies in the next 2,000 ns, leaves one that lies further off pending, and drops or fires at once one that has passed (R203).  From its
time on, not before, a committed entry performs its action (with no entry of lower index to fire before it) and a ONCE entry disables itself; in HOLD it only counts (R201, R204, R211).  A deferred action is performed later and its
cycles of waiting counted (R204).  The write of word 3 puts a whole entry in effect, or is refused where the rule or the state forbids it; of a committed entry whose time has not come it
cancels the commitment (R207). -/
def Obligations.BangleEvents : Prop :=
  ∀ (s : State) (dt : Nat) (m : Master) (i : StrandId) (k : Fin 256) (v : Word) (ang : Int) (j c : Nat) (rest : List (Nat × Nat × Nat)),
    let x := (later s dt).strand i
    let d := later s dt
    let y := view d i
    let t := y.trk (y.evtTrk k)
    let ev := y.ent k
    let cnt (n : Nat) := Reg.BNG_CNT + 8 * n
    let now : Int := y.t32
    let fire := t.fireTime ang t.omega (y.fld (Reg.EVT_W1 k) 23 0)
    let others (z w : StrandSt) : Prop := TabBut {} z.bng.ent w.bng.ent [k.val]
    let act := y.fld (Reg.EVT_W2 k) 31 28
    let arg := y.fld (Reg.EVT_W2 k) 27 16
    let held (n : Nat) (off : Nat) : Word := x.bng.held.get (x.rd off) (4 * k + n)
    (Active d i → y.timeRunning = true →
      (y.thisCyc.evt0.get none k = none → ev.state = .pending → t.state = .valid → t.omega ≠ 0 → ev.realign = false → ev.next = some (ang, j) → ev.sign = some (signOf t.omega) →
        y.fld (Reg.EVT_W2 k) 11 10 ≠ 2 →
        let seen : EvtEnt := { ev with held := false, tf := fire }
        (now + 2000 * nsUnit < fire →
          Ends (.predictorVisit dt i k) s fun e => Only d e i [.bng] ∧ others y (e.strand i) ∧ (e.strand i).ent k = seen) ∧
        (now < fire → fire ≤ now + 2000 * nsUnit →
          Ends (.predictorVisit dt i k) s fun e => Only d e i [.bng] ∧ others y (e.strand i) ∧
            (e.strand i).ent k = { seen with state := .committed, nom := false }) ∧
        (fire ≤ now → y.bit (Reg.EVT_W2 k) 14 = false →
          Ends (.predictorVisit dt i k) s fun e => Only d e i [.regs, .cnt, .bng] ∧ others y (e.strand i) ∧
            Flagged y (e.strand i) Reg.BNG_FLAGS 1 ∧ Counted y (e.strand i) (cnt 17) ∧
            (e.strand i).ent k = { seen with state := .committed, tf := now + nsUnit, nom := false }) ∧
        (fire ≤ now → y.bit (Reg.EVT_W2 k) 14 = true → y.fld (Reg.EVT_W2 k) 11 10 = 0 →
          Ends (.predictorVisit dt i k) s fun e => Only d e i [.regs, .cnt, .bng] ∧ others y (e.strand i) ∧
            RegsBut y (e.strand i) [Reg.EVT_W3 k] ∧ Counted y (e.strand i) (cnt 18) ∧ ((e.strand i).ent k).state = .idle ∧
            (e.strand i).bit (Reg.EVT_W3 k) 31 = false)) ∧
      (now < ev.tf → Ends (.evtFire dt i k) s fun e => Only d e i []) ∧
      (ev.state = .committed → ev.tf ≤ now → y.fld (Reg.EVT_W2 k) 11 10 = 0 → y.evtLower k = [] →
        let done (e : Dev) : Prop := others y (e.strand i) ∧ ((e.strand i).ent k).state = .idle ∧ (e.strand i).bit (Reg.EVT_W3 k) 31 = false
        (d.phase i = .hold →
          Ends (.evtFire dt i k) s fun e => Only d e i [.regs, .cnt, .bng] ∧ done e ∧ RegsBut y (e.strand i) [Reg.EVT_W3 k] ∧
            Counted y (e.strand i) (cnt 21)) ∧
        (d.phase i = .run → y.bng.waiting = [] → y.actFree = true → ev.nom = false → act = 6 → arg < 64 → arg % 32 < 24 →
          y.bit Reg.BNG_PINMASK (arg % 32) = true →
          Ends (.evtFire dt i k) s fun e => Only d e i [.regs, .cnt, .bng] ∧ done e ∧
            RegsBut y (e.strand i) [Reg.EVT_W3 k, Reg.BNG_PINLVL] ∧ Counted y (e.strand i) (cnt 16) ∧
            (e.strand i).rd Reg.BNG_PINLVL = setBit (y.rd Reg.BNG_PINLVL) (arg % 32) (bitN arg 5))) ∧
      (d.phase i = .run → y.bng.waiting = (c, 6, j) :: rest → y.actFree = true → j < 64 → j % 32 < 24 → y.bit Reg.BNG_PINMASK (j % 32) = true →
        Ends (.actionDeferred dt i) s fun e => Only d e i [.regs, .cnt, .bng] ∧ (e.strand i).bng.waiting = rest ∧
          RegsBut y (e.strand i) [Reg.BNG_PINLVL] ∧ CntsBut y (e.strand i) [cnt 25] ∧
          (e.strand i).counter (cnt 25) = min counterMax (y.counter (cnt 25) + (y.now - c)) ∧
          (e.strand i).rd Reg.BNG_PINLVL = setBit (y.rd Reg.BNG_PINLVL) (j % 32) (bitN j 5))) ∧
    (Reaches (later s dt) m i →
      let w2 := held 2 (Reg.EVT_W2 k)
      let on := x.bit (Reg.EVT_W3 k) 31
      let bad : Prop := (2 ≤ fieldOf w2 11 10 ∧ fieldOf w2 9 0 = 0) ∨ fieldOf w2 13 12 = 3
      let words (e : Dev) : Prop :=
        Only (later s dt) e i [.regs, .bng, .cnt] ∧ others x (e.strand i) ∧
        RegsBut x (e.strand i) [Reg.EVT_W0 k, Reg.EVT_W1 k, Reg.EVT_W2 k, Reg.EVT_W3 k] ∧
        (e.strand i).rd (Reg.EVT_W0 k) = held 0 (Reg.EVT_W0 k) ∧ (e.strand i).rd (Reg.EVT_W1 k) = held 1 (Reg.EVT_W1 k) ∧
        (e.strand i).rd (Reg.EVT_W2 k) = w2 ∧ (e.strand i).rd (Reg.EVT_W3 k) = v &&& 0xE0000000#32
      (bitOf v 31 = true → ¬bad → on = false →
        Ends (.evtEntryWrite dt m i k v) s fun e => words e ∧ CntsBut x (e.strand i) [] ∧
          (e.strand i).ent k = { state := .pending, realign := true }) ∧
      (bitOf v 31 = true → bad ∨ on = true →
        Ends (.evtEntryWrite dt m i k v) s fun e => Only (later s dt) e i [.regs, .bng] ∧ Flagged x (e.strand i) Reg.BNG_FLAGS 3 ∧
          (e.strand i).bng.ent = x.bng.ent) ∧
      (bitOf v 31 = false → (x.ent k).state ≠ .committed ∨ (x.t32 : Int) < (x.ent k).tf →
        Ends (.evtEntryWrite dt m i k v) s fun e => words e ∧ (e.strand i).ent k = {} ∧
          ((x.ent k).state = .committed → Counted x (e.strand i) (cnt 23))))


/-! ## Filigree -/

/-- CT_NOW_NS reads cluster time and latches the rest for its master (R221).  At the start of a basic cycle not yet taken a node other than position 0 applies its
slew within its limit, and the records of the cycle are empty (R222, R230).  A window with TX_EN asks its TX ring for a frame near its start (R224); SYNC at position 0 sends the ALIGN, DATA the frame staged
in time or counts a skip, and ACT_EN sets its EVT bit (R223 to R225).  The first ALIGN taken in COLD moves the offset by e and leads to SYNCING (R230); one at position 0 sets MASTER_CONFLICT;
ALIGN_LOSS matrix periods without one, not less, and RESYNC lose alignment with their cause (R231).  A node counts a bad header and discards a duplicate (R218, R220). -/
def Obligations.FiligreeNode : Prop :=
  ∀ (s : State) (dt : Nat) (m : Master) (i : StrandId) (k : Fin 128) (p : Fin 4) (bs pl : List Byte) (qseq : Nat) (ts : Bool) (since : Int),
    let d := later s dt
    let y := view d i
    let c := Reg.FLG_CNT
    let f := Reg.FLG_FLAGS
    let master : Prop := y.flgRole = 1 ∧ y.flgPos = 0
    let who : Nat := match m with
      | .host b => b2n b
      | .core _ => 2
      | .loupe => 3
    let ct := y.ct32 / (2 ^ 16 : Nat)
    let lost (z w : StrandSt) (cause : Nat) : Prop :=
      RegsBut z w [Reg.FLG_STATUS, f] ∧ Counted z w (c + 8 * 13) ∧ w.bit f 3 = true ∧ w.flgState = 1 ∧ w.fld Reg.FLG_STATUS 6 4 = cause
    let ring := y.fld (Reg.WIN_W2 k) 13 10
    let a := y.fld Reg.FLG_CTL 13 12
    let alone : Prop := y.flgRole = 1 ∧ y.fld Reg.FLG_CTL 15 14 = a ∧ y.flgSpeedOk a = true ∧ d.phase i = .run
    let next := (y.flg.seq + 1) % 65536
    let opened : Option (Int × Nat) := some (y.cycleOf ct, k.val)
    let goes (e : Dev) (bs : List Byte) : Prop := let z := e.strand i
      ∃ g ∈ (z.chan (Fin.ofNat 4 a)).frames.getLast?, (z.chan (Fin.ofNat 4 a)).frames = (y.chan (Fin.ofNat 4 a)).frames ++ [g] ∧
        g.bytes = bs ∧ g.flg = 2 ∧ g.bad = false ∧ g.out = y.laneOut (Fin.ofNat 4 a) y.now
    let tw := y.flgWhenEnd p bs
    let e0 : Int := (flgTimeOf bs 30 : Int) + beNum ((bs.drop 40).take 8) + (y.rd (Reg.LINK_DELAY p)).toNat - tw.ct
    (Reaches d m i →
      Ends (.ctNowRead dt m i) s (fun e =>
        let t := (y.ct32 % ((2 ^ 48 * secUnit : Nat) : Int)).toNat
        let l := (e.strand i).flg.latch
        Only d e i [.flg] ∧ Sent d e (.readData (t % secUnit / nsUnit)) ∧ (e.strand i).flg = { y.flg with latch := l } ∧
        l.get (0, 0) who = (t / secUnit, t / 2 ^ 16 % 2 ^ 16) ∧ TabBut (0, 0) y.flg.latch l [who]) ∧
      (2 ≤ y.flgState → ¬master →
        Ends (.resync dt m i) s fun e => Only d e i [.regs, .cnt] ∧ lost y (e.strand i) 3 ∧ LogHas e 0x0901)) ∧
    (Active d i → y.flgState ≠ 0 →
      (y.fld Reg.MAP_CTL 31 30 ≠ 3 →
        if y.flg.cycle = some (y.cycleOf ct) then Ends (.rowStart dt i) s fun e => Only d e i []
        else Ends (.rowStart dt i) s fun e =>
          let z := e.strand i
          let lim : Int := (y.fld Reg.FLG_SLEW 15 0 * 65536 : Nat)
          let step := max (-lim) (min lim y.flg.slew)
          Only d e i [.regs, .flg] ∧ z.flg.cycle = some (y.cycleOf ct) ∧ z.flg.seen = [] ∧ z.flg.taken = [] ∧
          (¬master → z.flg.ctOfs = y.flg.ctOfs + step * 65536 ∧ z.flg.slew = y.flg.slew - step) ∧
          (master → z.flg.ctOfs = y.flg.ctOfs ∧ z.flg.slew = y.flg.slew)) ∧
      (y.winMine k = true → y.winNear k 5000 = true → y.fld (Reg.TX_RING_CFG ring) 31 30 = 1 → (y.ring ring).items = [] →
        Ends (.winStage dt i k) s fun e => Only d e i [.dma] ∧ (e.strand i).ring ring = { y.ring ring with asked := true }) ∧
      (y.winOpens k = true → alone →
        (y.winKind k = 2 → master →
          Ends (.winStart dt i k) s fun e => Only d e i [.cnt, .flg, .pt] ∧ (e.strand i).flg = { y.flg with seq := next, opened := opened } ∧
            Counted y (e.strand i) c ∧
            goes e (y.flgBuild 1 (y.winPrio k) 0 y.flgRow k next (flgTime (y.ctOf16 (y.ownStamp a)).toNat ++ beBytes 8 0))) ∧
        (y.winKind k = 0 → y.winMine k = true → y.flg.staged.get none ring = some (pl, qseq, ts, since) → pl.length + 34 ≤ y.maxLen a →
          y.offOf since ≤ ((y.winStart k : Int) - 200) * 65536 ∨ y.cycleOf since < y.cycleOf ct →
          Ends (.winStart dt i k) s fun e => Only d e i [.cnt, .flg, .sw, .pt] ∧ Counted y (e.strand i) (c + 8 * 5) ∧
            (e.strand i).flg = { y.flg with seq := next, opened := opened, staged := (e.strand i).flg.staged } ∧
            (e.strand i).flg.staged.get none ring = none ∧ TabBut none y.flg.staged (e.strand i).flg.staged [ring] ∧
            (e.strand i).sw = { y.sw with notes := y.sw.notes ++
              [{ ring := ring, qseq := qseq, ts := if ts then some ((y.ownStamp a).toNat, y.tsFlags) else none }] } ∧
            goes e (y.flgBuild 0 (y.winPrio k) 0 y.flgRow k next pl)) ∧
        (y.winKind k ≤ 1 → y.winMine k = true → y.flg.staged.get none ring = none →
          Ends (.winStart dt i k) s fun e => Only d e i [.cnt, .regs, .flg] ∧ Counted y (e.strand i) (c + 8 * 6) ∧
            (e.strand i).flg = { y.flg with opened := opened } ∧ Flagged y (e.strand i) f 2)) ∧
      (y.winOpens k = false → Ends (.winStart dt i k) s fun e => Only d e i []) ∧
      (y.winValid k = true → y.bit (Reg.WIN_W2 k) 8 = true → y.winNear k (y.fld (Reg.WIN_W3 k) 23 0) = true →
        (y.eng (y.fld (Reg.WIN_W2 k) 7 4)).sync = .idle →
        Ends (.winAction dt i k) s fun e => Only d e i [.regs] ∧
          Flagged y (e.strand i) (Reg.BEAD_EVT (y.fld (Reg.WIN_W2 k) 7 4)) (y.fld (Reg.WIN_W2 k) 3 2)) ∧
      (master →
        Ends (.alignRx dt i p bs) s fun e => Only d e i [.regs, .flg] ∧ Flagged y (e.strand i) f 7 ∧
          (y.flg.conflictLogged = false → LogHas e 0x0905)) ∧
      (¬master → y.flgState = 1 → y.alignTaken p bs tw = true →
        Ends (.alignRx dt i p bs) s fun e => Only d e i [.regs, .cnt, .flg] ∧ Counted y (e.strand i) (c + 8) ∧
          (e.strand i).flg = { y.flg with ctOfs := y.flg.ctOfs + e0 * 65536, ctRate := 0, good := 0, bad := 0, rLast := tw.r, alignAt := ct } ∧
          (e.strand i).flgState = 2) ∧
      (¬master → 2 ≤ y.flgState →
        if y.flg.alignAt + (y.fld Reg.FLG_ALIGN 27 20 * y.nRows * y.bcLen * 65536 : Nat) ≤ ct then
          Ends (.alignTimeout dt i) s fun e => Only d e i [.regs, .cnt] ∧ lost y (e.strand i) 1 ∧ LogHas e 0x0901
        else Ends (.alignTimeout dt i) s fun e => Only d e i []) ∧
      (y.flgRole = 1 →
        (flgHdrOk bs = false → Ends (.flgDataRx dt i p bs) s fun e => Only d e i [.cnt] ∧ Counted y (e.strand i) (c + 8 * 12)) ∧
        (flgHdrOk bs = true → y.flgSpeedOk p = true → y.flgLine = false →
          (y.flgPorts.length = 2 → (flgSrc bs, flgSeq bs) ∈ y.flg.seen →
            Ends (.flgDataRx dt i p bs) s fun e => Only d e i [.cnt] ∧ Counted y (e.strand i) (c + 8 * 7)) ∧
          ((flgSrc bs, flgSeq bs) ∉ y.flg.seen →
            Ends (.flgDataRx dt i p bs) s fun e => Only d e i [.regs, .cnt, .flg, .sw] ∧
              (e.strand i).flg = { y.flg with seen := (flgSrc bs, flgSeq bs) :: y.flg.seen } ∧
              (e.strand i).sw = (y.flgDeliver p bs tw).sw))))

/-- A request for the cable delay goes out on the Filigree port every 1 ms in COLD and SYNCING, a response 2,000 ns after the request, with the times of arrival and sending, the first measurement sets LINK_DELAY and
MEASURED, and a request with no response for 100 µs, not less, is abandoned (R228, R229).  The coupler counts the frames of a fenced port, judges one outside every window a violation, forwards one that is in order to its other port, and
cuts the copy of one that is still arriving at the end of its window (R233, R234).  It forwards held frames of an ARBITRATING window once that has ended (R235).  UNFENCE and DEV_CLEAR end a fence and the records (R234, R236). -/
def Obligations.FiligreeCoupler : Prop :=
  ∀ (s : State) (dt : Nat) (m : Master) (i : StrandId) (p o : Fin 4) (bs : List Byte) (q : Nat) (t : Int) (owed : List (Nat × Nat × Int)) (k : Nat)
    (h : BzFrame) (g : PtCur) (bad : Bool),
    let d := later s dt
    let y := view d i
    let c := Reg.FLG_CNT
    let next := (y.flg.seq + 1) % 65536
    let stat := Reg.PORT_STAT p
    let goes (e : Dev) (n : Fin 4) (own nominal : Nat) (bs : List Byte) (bad : Bool) : Prop := let z := e.strand i
      ∃ g ∈ (z.chan n).frames.getLast?, (z.chan n).frames = (y.chan n).frames ++ [g] ∧ g.bytes = bs ∧ g.flg = own ∧ g.bad = bad ∧
        g.out = y.laneOut n nominal
    let violates (e : Dev) (cause src : Nat) : Prop :=
      Only d e i [.regs, .cnt, .flg, .pt] ∧ RegsBut y (e.strand i) [stat, Reg.LAST_VIOL p] ∧ Counted y (e.strand i) (c + 8 * (18 + p.val)) ∧
      (e.strand i).rd (Reg.LAST_VIOL p) = BitVec.ofNat 32 (src * 65536 + cause)
    let tame : Prop := y.flg.hist.get [] p = [] ∧ 1 < y.fld Reg.BZ_CFG 15 8
    let fits (h : BzFrame) (slack : Nat) (n : Nat) : Prop :=
      y.ct32 / (2 ^ 16 : Nat) + (n * 65536 : Nat) ≤ h.cycle + ((y.winStart h.win + y.winLen h.win + slack) * 65536 : Nat)
    let tw := y.flgWhenEnd p bs
    let age := byteCycle (y.speedAct p) 0 18
    let t18 := y.flgWhen p age
    let s18 := y.launchTime p t18
    (Active d i → y.flgState ≠ 0 →
      (y.flgState ≠ 3 → y.flgPorts = [p.val] → y.flgSpeedOk p = true → d.phase i = .run →
        if ∀ r ∈ y.flg.reqAt, r + 1000000 * 65536 ≤ y.t16 ∨ (y.t16 : Int) < r then
          Ends (.rttReqSend dt i) s fun e => Only d e i [.flg, .pt] ∧
            (e.strand i).flg = { y.flg with seq := next, req := (e.strand i).flg.req, reqAt := some (y.t16 : Int) } ∧
            (e.strand i).flg.req.get none p = some (next, y.ownStamp p) ∧ TabBut none y.flg.req (e.strand i).flg.req [p.val] ∧
            goes e p 2 y.now (y.flgBuild 2 0 0 0 0 next []) false
        else Ends (.rttReqSend dt i) s fun e => Only d e i []) ∧
      (y.flg.owed = (p.val, q, t) :: owed → y.flgSpeedOk p = true → d.phase i = .run →
        if t + 2000 * 65536 ≤ y.t16 then
          Ends (.rttRespSend dt i p) s fun e => Only d e i [.flg, .pt] ∧ (e.strand i).flg = { y.flg with seq := next, owed := owed } ∧
            goes e p 2 y.now (y.flgBuild 3 0 0 0 0 next (flgTime t.toNat ++ flgTime (y.ownStamp p).toNat ++ beBytes 2 q)) false
        else Ends (.rttRespSend dt i p) s fun e => Only d e i []) ∧
      (y.flg.req.get none p = some (be16 bs 50, t) → y.bit stat 30 = false →
        Ends (.rttMeasure dt i p bs) s fun e => Only d e i [.regs, .cnt, .flg] ∧ RegsBut y (e.strand i) [stat, Reg.LINK_DELAY p] ∧
          (e.strand i).rd stat = setBit (y.rd stat) 30 true ∧ Counted y (e.strand i) (c + 8 * 3) ∧
          (e.strand i).flg.req.get none p = none ∧ TabBut none y.flg.req (e.strand i).flg.req [p.val] ∧
          ((e.strand i).rd (Reg.LINK_DELAY p)).toNat = wrapN 32 (((tw.r - t) - ((flgTimeOf bs 40 : Int) - flgTimeOf bs 30)) / 2)) ∧
      Ends (.rttAbandon dt i p) s (fun e => Only d e i [.flg] ∧ (e.strand i).flg = { y.flg with req := (e.strand i).flg.req } ∧
        TabBut none y.flg.req (e.strand i).flg.req [p.val] ∧
        (e.strand i).flg.req.get none p = (y.flg.req.get none p).filter fun r => (y.t16 : Int) < r.2 + 100000 * 65536) ∧
      (y.flgRole = 2 → y.flgPort p = true → y.flgSpeedOk p = true →
        (y.bit stat 31 = true → flgHdrOk bs = false →
          Ends (.bezelDecide dt i p bs bad) s fun e => Only d e i [.cnt, .flg] ∧ Counted y (e.strand i) (c + 8 * (22 + p.val))) ∧
        (y.bit stat 31 = true → flgHdrOk bs = true → flgType bs = 2 →
          Ends (.bezelDecide dt i p bs false) s fun e => Only d e i [.cnt, .flg] ∧ Counted y (e.strand i) (c + 8 * (22 + p.val)) ∧
            (e.strand i).flg.owed = y.flg.owed ++ [(p.val, flgSeq bs, t18.r)]) ∧
        (y.bit stat 31 = false → y.flgState = 3 →
          (tame → flgHdrOk bs = false → Ends (.bezelDecide dt i p bs bad) s fun e => violates e 1 0x3F) ∧
          (tame → flgHdrOk bs = true → flgType bs = 0 → 63 < flgSrc bs → y.winAt s18 = none →
            Ends (.bezelDecide dt i p bs bad) s fun e => violates e 2 0x3F) ∧
          (flgHdrOk bs = true → flgType bs = 2 →
            Ends (.bezelDecide dt i p bs false) s fun e => Only d e i [.flg] ∧
              (e.strand i).flg.owed = y.flg.owed ++ [(p.val, flgSeq bs, t18.r)]) ∧
          (let nominal := max y.now (y.flgNominal p (y.now - age))
           flgHdrOk bs = true → flgType bs = 0 → y.winAt s18 = some k → y.winKind k = 0 →
            flgSrc bs = y.winOwner k → y.fld (Reg.BZ_NODE_PORT (y.winOwner k / 16)) (2 * (y.winOwner k % 16) + 1) (2 * (y.winOwner k % 16)) = p.val →
            flgRowF bs = y.rowOf s18 → flgWinF bs = k → (p.val, k) ∉ y.flg.taken → y.bit Reg.FLG_CTL 11 = false →
            y.flgPorts.filter (· != p.val) = [o.val] → y.flgSpeedOk o = true → y.laneOut o nominal = nominal → d.phase i = .run →
            Ends (.bezelDecide dt i p bs bad) s fun e => Only d e i [.regs, .cnt, .flg, .pt] ∧ Counted y (e.strand i) (c + 8 * (14 + p.val)) ∧
              (e.strand i).flg.taken = (p.val, k) :: y.flg.taken ∧ goes e o 1 nominal bs bad))) ∧
      (y.flg.arriving.get none p = some h →
        (y.now < h.stop → h.cycle + ((y.winStart h.win + y.winLen h.win + y.flgGuard) * 65536 : Nat) ≤
            y.ct32 / (2 ^ 16 : Nat) - ((y.rd (Reg.LINK_DELAY p)).toNat : Nat) →
          y.winKind h.win ≠ 1 → tame → (y.port p).rx = none → (y.chan o).frames = [g] → g.flg = 1 → g.src = p.val → g.edits = [] → 0 < y.ptSent g →
          (∀ n, n ≠ o → (y.chan n).frames = []) →
          Ends (.bezelCut dt i p) s fun e => violates e 7 (min 0x3F (flgSrc h.frame.bytes)) ∧ (e.strand i).flg.arriving.get none p = none ∧
            ((e.strand i).chan o).frames = [] ∧ Sent d e (.frame o (g.bytes.take (y.ptSent g)) true)) ∧
        (h.stop ≤ y.now → Ends (.bezelCut dt i p) s fun e => Only d e i [])) ∧
      (y.flgRole = 2 → d.phase i = .run → y.arbOrder = [(p.val, h)] →
        (let nominal := y.now + bytesCycles (y.speedAct p) 8
         y.arbReady [(p.val, h)] = true → h.stop ≤ y.now → flgType h.frame.bytes = 0 → y.flgPorts.filter (· != p.val) = [o.val] →
         y.flgSpeedOk o = true → y.laneOut o nominal = nominal →
         fits h (y.flgGuard + y.flgSlack) (bytesCycles (y.speedAct p) (12 + h.frame.bytes.length)) →
         Ends (.arbForward dt i) s fun e => Only d e i [.flg, .pt] ∧ (e.strand i).flg = { y.flg with arb := (e.strand i).flg.arb } ∧
           (e.strand i).flg.arb.get none p = none ∧ TabBut none y.flg.arb (e.strand i).flg.arb [p.val] ∧
           goes e o 1 nominal h.frame.bytes false) ∧
        (y.arbReady [(p.val, h)] = false → Ends (.arbForward dt i) s fun e => Only d e i []))) ∧
    (Reaches d m i →
      (y.bit stat 31 = true →
        Ends (.unfence dt m i p) s fun e => Only d e i [.regs] ∧ RegsBut y (e.strand i) [stat] ∧
          (e.strand i).rd stat = setField (setBit (y.rd stat) 31 false) 23 16 0 ∧ LogHas e 0x0906) ∧
      Ends (.devClear dt m i) s (fun e => Only d e i [.regs] ∧ RegsReset (e.strand i) 0x72000 0x72400 ∧
        RegsBut y (e.strand i) ((List.range 256).map fun j => 0x72000 + 4 * j)))

/-! ## Mapper, state machines and packages -/

/-- MAP_RUN and the time trigger at its target, not before, trigger the mapper; two triggers of one cycle act as one (R263, R268).  As the cycle passes (`StrandSt.mapEnd`) the first trigger starts
a run of the IN section alone in the next cycle; a later one swaps FRONT and BACK, counts the swap and starts a whole run; one that finds a run in progress is an
overrun and swaps nothing (R263).  RUN with another trigger source is rejected (R268).  A run ends when its T_run, at least
40 + ⌈NDESC / 2⌉ cycles and those it lost to conflicts, has passed, not before: it clears its status bits, sets MAP_RUN_SEQ to its number and counts (R264, R269). -/
def Obligations.MapperRuns : Prop :=
  ∀ (s : State) (dt : Nat) (m : Master) (i : StrandId) (num waits : Nat) (inOnly : Bool),
    let d := later s dt
    let y := view d i
    let st := Reg.MAP_STATUS
    let f := Reg.MAP_FLAGS
    let acts (c : Instr) : Prop :=
      let n := seqNext (y.rd Reg.MAP_RUN_SEQ).toNat
      let run (inOnly : Bool) : Mapper := { y.map with run := some (n, inOnly), runAt := y.now + 1, any := true, trig := false }
      y.map.refused = false →
      Ends c s fun e => Only d e i [.map] ∧ (e.strand i).map = { y.map with trig := true } ∧
        (let z := (view e i).mapEnd
         (y.map.run ≠ none → Flagged y z f 1 ∧ Counted y z (Reg.MAP_CNT + 8) ∧ z.map = { y.map with trig := false }) ∧
         (y.map.run = none → y.map.any = false →
           RegsBut y z [st] ∧ z.rd st = setBit (setBit (y.rd st) 0 true) 1 true ∧ z.map = run true) ∧
         (y.map.run = none → y.map.any = true →
           z.front = !y.front ∧ z.bit f 0 = true ∧ z.fld st 31 16 = (y.fld st 31 16 + 1) % 65536 ∧ z.bit st 0 = true ∧ z.bit st 3 = true ∧
           RegsBut y z (st :: f :: (List.range 256).map Reg.BANK_OWNER) ∧ z.map = run false))
    (Reaches d m i → y.fld Reg.MAP_CTL 31 30 = 0 → acts (.mapRun dt m i)) ∧
    (Reaches d m i → y.fld Reg.MAP_CTL 31 30 ≠ 0 →
      Ends (.mapRun dt m i) s fun e => Only d e i [.regs] ∧ Flagged y (e.strand i) f 4) ∧
    (Active d i → y.fld Reg.MAP_CTL 31 30 = 1 → y.timeRunning = true → y.mapTarget = true → acts (.mapTimeTrigger dt i)) ∧
    (Active d i → y.mapTarget = false → Ends (.mapTimeTrigger dt i) s fun e => Only d e i []) ∧
    (Active d i → y.map.run = some (num, inOnly) → y.bit Reg.MAP_CTL 23 = false →
      let t := (y.mapProcess num inOnly).1
      if y.now < y.map.runAt + (t + waits) then Ends (.mapRunDone dt i waits) s fun e => Only d e i []
      else Ends (.mapRunDone dt i waits) s fun e =>
        let z := e.strand i
        Only d e i [.regs, .cnt, .map, .banks] ∧ z.map.run = none ∧ z.bit st 0 = false ∧ z.bit st 1 = false ∧
        z.rd Reg.MAP_RUN_SEQ = BitVec.ofNat 32 num ∧ z.counter Reg.MAP_CNT = min counterMax (y.counter Reg.MAP_CNT + 1) ∧
        40 + ceilDiv (y.fld Reg.MAP_NDESC 18 0) 2 ≤ t ∧ z.rd Reg.MAP_LAST_CYCLES = BitVec.ofNat 32 (t + waits) ∧
        (y.fld Reg.MAP_NDESC 18 0 = 0 → y.fld Reg.MAP_NOUT 18 0 = 0 → z.banks = y.banks ∧ t = 40))

/-- The common service takes a context's lowest pending event: an entry of its machine for state and event gives the next state and its action, none, or no machine at all, leaves the state and counts an
unexpected event; a TIMEOUT of a context that has been silent long enough makes event 1 pending (R276).  A package answers its commands in their block with STATUS 0 and DONE: its status, the start and stop of its
operation, the 512 bytes of a context; a block for another package or of another opcode gets STATUS 1 or 2, and HOLD refuses the start and stop with 5 (R255, R257). -/
def Obligations.StateMachinesAndPackages : Prop :=
  ∀ (s : State) (dt : Nat) (i : StrandId) (c ev k a : Nat) (on : Bool) (p : Pkg),
    let d := later s dt
    let y := d.strand i
    let at_ := y.ctxAddr c
    let ctl := y.ctxWord c 0
    let loaded := y.machines.get none (bitsN ctl 23 16)
    let tbl := loaded.getD 0
    let slot := tbl + 16 + 4 * (32 * bitsN ctl 15 8 + ev)
    let ent := y.memWord slot
    let x := (later s dt).strand i
    let go : Instr := if on then .goOperational dt i k a else .goStopped dt i k a
    let done (e : Dev) (status : Nat) : Prop := Memory.read (e.strand i).banks.mem (a + 10) 2 = [BitVec.ofNat 8 status, 1#8]
    (Active d i → c < y.nCtx → bitN ctl 31 = true → Memory.wf y.banks.mem = true → Idle d i →
      (lowestBit (y.ctxWord c 4) = some ev → loaded = none →
        Ends (.smEvent dt i c) s fun e => Only d e i [.banks] ∧ (e.strand i).ctxWord c 4 = putBitN (y.ctxWord c 4) ev false ∧
          (e.strand i).ctxWord c 0 = ctl ∧ (e.strand i).ctxWord c 28 = (y.ctxWord c 28 + 1) % 2 ^ 32) ∧
      (lowestBit (y.ctxWord c 4) = some ev → ev ≠ 7 → loaded ≠ none → slot + 4 ≤ at_ ∨ at_ + 8 ≤ slot → tbl + 4 ≤ at_ ∨ at_ + 8 ≤ tbl →
        ((byteAt (Memory.read y.banks.mem tbl 16) 3).toNat ≥ ev → bitN ent 0 = true →
          Ends (.smEvent dt i c) s fun e => Only d e i [.banks] ∧ MemBut y.banks.mem (e.strand i).banks.mem at_ 8 ∧
            (e.strand i).ctxWord c 4 = putBitN (y.ctxWord c 4) ev false ∧ (e.strand i).ctxWord c 0 = putN ctl 15 8 (bitsN ent 31 24) ∧
            (bitsN ent 23 16 ≠ 0 → Sent d e (.action c (bitsN ent 23 16) (bitsN ent 15 8)))) ∧
        ((byteAt (Memory.read y.banks.mem tbl 16) 3).toNat < ev ∨ bitN ent 0 = false →
          Ends (.smEvent dt i c) s fun e => Only d e i [.banks] ∧ (e.strand i).ctxWord c 4 = putBitN (y.ctxWord c 4) ev false ∧
            (e.strand i).ctxWord c 0 = ctl ∧ (e.strand i).ctxWord c 28 = (y.ctxWord c 28 + 1) % 2 ^ 32)) ∧
      (y.ctxWord c 44 ≠ 0 → y.ctxSilent c = true →
        Ends (.ctxTimeout dt i c) s fun e => Only d e i [.banks] ∧ MemBut y.banks.mem (e.strand i).banks.mem (at_ + 4) 4 ∧
          (e.strand i).ctxWord c 4 = putBitN (y.ctxWord c 4) 1 true)) ∧
    (Active (later s dt) i → x.pkgs[k]? = some p → CoreBlock (later s dt) i a 532 →
      (x.memWord a % 2 ^ 16 = p.id →
        (x.memWord a / 2 ^ 16 = 1 →
          Ends (.pkgGetStatus dt i k a) s fun e => Only (later s dt) e i [.banks] ∧ done e 0 ∧
            MemBut x.banks.mem (e.strand i).banks.mem (a + 10) 18 ∧
            Memory.read (e.strand i).banks.mem (a + 16) 12 =
              leBytes 4 (p.role + 256 * b2n p.operational) ++ leBytes 4 p.dupDiscard ++ leBytes 4 p.ringDrop) ∧
        (x.memWord a / 2 ^ 16 = (if on then 2 else 3) → (later s dt).phase i = .run →
          Ends go s fun e => Only (later s dt) e i [.banks, .pkgs] ∧ done e 0 ∧ MemBut x.banks.mem (e.strand i).banks.mem (a + 10) 2 ∧
            (e.strand i).pkgs = x.pkgs.set k { p with operational := on }) ∧
        (x.memWord a / 2 ^ 16 = (if on then 2 else 3) → (later s dt).phase i = .hold →
          Ends go s fun e => Only (later s dt) e i [.banks] ∧ done e 5) ∧
        (x.memWord a / 2 ^ 16 = 4 → x.memWord (a + 16) < x.nCtx →
          Ends (.readContext dt i k a) s fun e => Only (later s dt) e i [.banks] ∧ done e 0 ∧
            MemBut x.banks.mem (e.strand i).banks.mem (a + 10) 522 ∧
            Memory.read (e.strand i).banks.mem (a + 20) 512 = Memory.read x.banks.mem (x.ctxAddr (x.memWord (a + 16))) 512) ∧
        (x.memWord a / 2 ^ 16 ≠ 1 → (later s dt).phase i = .run →
          Ends (.pkgGetStatus dt i k a) s fun e => Only (later s dt) e i [.banks] ∧ done e 2)) ∧
      (x.memWord a % 2 ^ 16 ≠ p.id → Ends (.pkgGetStatus dt i k a) s fun e => Only (later s dt) e i [.banks] ∧ done e 1))


/-! ## DMA rings, completion queues and acceptance -/

/-- A doorbell within SIZE that takes no descriptor back moves TAIL, has the engine read the new descriptors of a running ring in host memory, and lets a HOLDING ring go on that so owns its next
descriptor; any other sets TAIL_ERR (R282, R283, R298).  EN = 1 starts a ring whose configuration is in order, replaying what the ledger still owes (R307, R351), and is refused with CFG_ERR
otherwise; EN = 0 stops a ring without an item under way at once and drops what has not committed, and lets started items of a running ring go on (R307).  IDX_CLEAR zeroes the indices of a stopped ring
only (R309).  CQ_HEAD and EN act on a queue's indices (R294, R310).  DMA_ABORT takes one request at a time, and sets ABORT_REJECT for another; as the cycle passes (`StrandSt.abortEnd`) a request for a descriptor
of a TX ring ends the item that has not committed with status ABORTED, and has the result ALREADY_COMPLETE or NOT_OWNED otherwise (R302). -/
def Obligations.RingControls : Prop :=
  ∀ (s : State) (dt : Nat) (m : Master) (i : StrandId) (r : Fin 32) (c : Fin 8) (v : BitVec 16) (w : Word) (it : Item), Reaches (later s dt) m i →
    let d := later s dt
    let x := d.strand i
    let k := r.val
    let pg := ringPage k
    let h := x.ringHead k
    let others (e : Dev) : Prop := TabBut {} x.dma.rings (e.strand i).dma.rings [k]
    let n := fieldOf w 15 0
    let result (z : StrandSt) (code count : Nat) : Prop := z.dma.abort = none ∧ RegsBut x z [Reg.DMA_ABORT_RES] ∧
      z.rd Reg.DMA_ABORT_RES = BitVec.ofNat 32 (2 ^ 31 + code * 2 ^ 16 + count)
    (v.toNat < x.ringSize k → x.ringOwned k ≤ x.ringDist k v.toNat →
      (x.ringState k ≠ 2 → x.ringLoc k = true ∨ x.ringState k = 0 ∨ x.ringState k = 3 →
        Ends (.ringTailWrite dt m i r v) s fun e => Only d e i [.regs] ∧ RegsBut x (e.strand i) [pg + 0x10] ∧ (e.strand i).ringTail k = v.toNat) ∧
      (x.ringState k = 2 → x.ringLoc k = true → x.holdDue k = false →
        Ends (.ringTailWrite dt m i r v) s fun e => Only d e i [.regs] ∧ RegsBut x (e.strand i) [pg + 0x10, pg + 0x18] ∧
          (e.strand i).ringTail k = v.toNat ∧ (e.strand i).ringState k = if (e.strand i).owns k (x.rxNext k) then 1 else 2) ∧
      (x.ringLoc k = false → x.ringState k = 1 → x.ring k = { next := h } → x.ringTail k = h → h < x.ringSize k → x.dma.reads = [] →
        x.dma.waitReads = [] → v.toNat = (h + 1) % x.ringSize k → 2 ≤ x.ringSize k →
        Ends (.ringTailWrite dt m i r v) s fun e => Only d e i [.regs, .dma] ∧ RegsBut x (e.strand i) [pg + 0x10] ∧
          (e.strand i).ringTail k = v.toNat ∧
          (e.strand i).dma.reads = [{ tag := x.dma.nextTag, link := x.ringLink k, addr := x.descAddr k h, len := 32, what := .desc k h }])) ∧
    (x.ringSize k ≤ v.toNat ∨ x.ringDist k v.toNat < x.ringOwned k →
      Ends (.ringTailWrite dt m i r v) s fun e => Only d e i [.regs] ∧ Flagged x (e.strand i) (pg + 0x1C) 1) ∧
    (x.ringEn k = false →
      (x.ringCfgOk k = true → x.ringState k ≠ 1 → 16 ≤ k ∨ (x.led k).valid = false → x.ringLoc k = true →
        Ends (.ringEnable dt m i r) s fun e => Only d e i [.regs, .dma] ∧ others e ∧ RegsBut x (e.strand i) [pg + 0xC, pg + 0x18] ∧
          (e.strand i).ringEn k = true ∧ (e.strand i).ringState k = 1 ∧ ((e.strand i).ring k).next = h) ∧
      (x.ringCfgOk k = true → x.ringState k ≠ 1 → k < 16 → (x.led k).valid = true → x.ringLoc k = true →
        Ends (.ringEnable dt m i r) s fun e => Only d e i [.regs, .cnt, .dma, .banks, .bead] ∧ others e ∧ (e.strand i).ringEn k = true ∧
          ((e.strand i).ring k).replay = ((x.stored k).filter fun t => newer t.qseq (x.led k).sta).length) ∧
      (x.ringCfgOk k = true → x.ringState k = 1 →
        Ends (.ringEnable dt m i r) s fun e => Only d e i [.regs] ∧ Flagged x (e.strand i) (pg + 0xC) 0) ∧
      (x.ringCfgOk k = false →
        Ends (.ringEnable dt m i r) s fun e => Only d e i [.regs] ∧ Flagged x (e.strand i) Reg.DMA_FLAGS 5 ∧ LogHas e 0x0C05)) ∧
    (x.ringEn k = true → (x.ring k).rx = none →
      (x.ringState k = 1 → x.started k = true →
        Ends (.ringDisable dt m i r) s fun e => Only d e i [.regs] ∧ RegsBut x (e.strand i) [pg + 0xC] ∧ (e.strand i).ringEn k = false) ∧
      (x.ringState k ≠ 1 ∨ x.started k = false →
        Ends (.ringDisable dt m i r) s fun e => Only d e i [.regs, .dma] ∧ others e ∧ RegsBut x (e.strand i) [pg + 0xC, pg + 0x18] ∧
          (e.strand i).ringEn k = false ∧ (e.strand i).ringState k = 0 ∧
          ((e.strand i).ring k).items = (x.ring k).items.filter fun t => t.step == .committed || t.ended)) ∧
    (x.ringState k = 0 → x.ringEn k = false →
      Ends (.idxClear dt m i r false) s fun e => Only d e i [.regs, .dma, .ledger] ∧ others e ∧
        RegsBut x (e.strand i) [pg + 0x10, pg + 0x14] ∧ (e.strand i).ringHead k = 0 ∧ (e.strand i).ringTail k = 0 ∧
        (k < 16 → (x.led k).valid = true → (e.strand i).led k = { x.led k with anchored := false })) ∧
    (x.ringState k ≠ 0 → x.ringEn k = true →
      Ends (.idxClear dt m i r true) s fun e => Only d e i [.regs] ∧ Flagged x (e.strand i) (pg + 0x1C) 1) ∧
    (x.dma.recs = [] →
      Ends (.cqHeadWrite dt m i c w) s (fun e => Only d e i [.regs] ∧ RegsBut x (e.strand i) [cqPage c + 0x10] ∧
        (e.strand i).cqHead c = fieldOf w 16 0) ∧
      (x.cqEn c = false →
        Ends (.cqEnable dt m i c) s fun e => Only d e i [.regs] ∧ RegsBut x (e.strand i) [cqPage c + 0xC, cqPage c + 0x10, cqPage c + 0x14] ∧
          (e.strand i).cqEn c = true ∧ (e.strand i).cqHead c = 0 ∧ (e.strand i).cqTail c = 0)) ∧
    (x.dma.abort ≠ none → Ends (.dmaAbort dt m i w) s fun e => Only d e i [.regs] ∧ Flagged x (e.strand i) Reg.DMA_FLAGS 6) ∧
    (x.dma.abort = none →
      Ends (.dmaAbort dt m i w) s fun e => Only d e i [.regs, .dma] ∧ (e.strand i).dma.rings = x.dma.rings ∧ (e.strand i).dma.abort = some w ∧
        RegsBut x (e.strand i) [Reg.DMA_ABORT_RES] ∧ (e.strand i).rd Reg.DMA_ABORT_RES = setBit (x.rd Reg.DMA_ABORT_RES) 31 false ∧
        (let z := (view e i).abortEnd
         bitOf w 24 = false ∧ bitOf w 25 = false ∧ fieldOf w 23 20 = k ∧ x.sw.notes = [] →
          ((x.ring k).items = [it] ∧ it.dup = false ∧ x.owns k n = true ∧ (n + x.ringSize k - it.idx % x.ringSize k) % x.ringSize k < it.n →
            (it.step ≠ .committed ∧ it.ended = false →
              result z 0 1 ∧ TabBut {} x.dma.rings z.dma.rings [k] ∧ (z.ring k).items = [{ it with ended := true, status := 2 }]) ∧
            (it.step = .committed → result z 1 0 ∧ z.dma.rings = x.dma.rings ∧ Counted x z (Reg.DMA_CNT + 8 * 9))) ∧
          ((x.ring k).items = [] ∧ x.owns k n = false → result z 2 0 ∧ z.dma.rings = x.dma.rings)))

/-- A descriptor read with OWN = 0 is read again after 1 µs, not before: the second read goes on with OWN = 1 and ends in FAULT with OWN = 0 (R284).  An item with the next QSEQ is accepted: mark,
anchor and store take it (R344); one already accepted is passed over as a duplicate and a gap is a fault (R346).  Data and descriptors reach the engine as their reads complete, an error is ADDR_ERR
(R304, R306).  An item whose data is whole
commits to the Filigree controller or the switch (R291, R292), and its completion advances HEAD and CMP and hands a record to the writer behind a read-back (R287, R293, R295,
R296). -/
def Obligations.TxItems : Prop :=
  ∀ (s : State) (dt : Nat) (i : StrandId) (r : Fin 32) (t : Fin 16) (n tag off q : Nat) (words : List Word) (data : List Byte) (it : Item) (rd : HostRead),
    let d := later s dt
    let y := view d i
    let k := t.val
    let g := y.ring k
    let others (e : Dev) (key : Nat) : Prop := TabBut {} y.dma.rings (e.strand i).dma.rings [key]
    let led (e : Dev) : LedEnt := (e.strand i).led k
    Active d i →
      ((y.ring r).own = some n → y.ringLoc r = false → y.now < (y.ring r).ownAt → Ends (.ownRecheck dt i r words) s fun e => Only d e i []) ∧
      ((y.ring r).own = some n → y.ringLoc r = false → (y.ring r).ownAt ≤ y.now →
        (dOwn words = true →
          Ends (.ownRecheck dt i r words) s fun e => Only d e i [.regs, .cnt, .dma] ∧ others e r ∧ Flagged y (e.strand i) Reg.DMA_FLAGS 1 ∧
            Counted y (e.strand i) (Reg.DMA_CNT + 8 * 7) ∧ ((e.strand i).ring r).own = none ∧
            ((e.strand i).ring r).fetched.get [] n = words ∧ LogHas e 0x0C01) ∧
        (dOwn words = false →
          Ends (.ownRecheck dt i r words) s fun e => Only d e i [.regs, .dma] ∧ others e r ∧
            RegsBut y (e.strand i) [Reg.DMA_FLAGS, ringPage r + 0x1C, ringPage r + 0x18] ∧ (e.strand i).ringState r = 3 ∧
            (e.strand i).bit (ringPage r + 0x1C) 0 = true ∧ (e.strand i).bit Reg.DMA_FLAGS 0 = true ∧ LogHas e 0x0C02)) ∧
      (y.ringState k = 1 → y.ringEn k = true → y.cqHolds k = false → g.replay = 0 → y.ringLoc k = false → y.ringMode k = 1 → g.asked = false → g.aborts = [] → g.own = none →
        g.next < y.ringSize k → tabFind g.fetched.cells g.next = some words → dFirst words = true → dLast words = true → y.owns k g.next = true →
        (y.led k).valid = true → y.itemOk k [words] = true →
        let q' := dQseq words
        let acc := (y.led k).acc
        (q' = seqNext acc → y.storedCount k < 64 →
          Ends (.txItemFetch dt i t) s fun e => Only d e i [.cnt, .dma, .ledger] ∧ others e k ∧
            led e = { y.led k with acc := q', anchored := true, next := (g.next + 1) % y.ringSize k } ∧
            (e.strand i).stored k = y.stored k ++ [⟨q', g.next, [words]⟩] ∧
            ((e.strand i).ring k).next = (g.next + 1) % y.ringSize k ∧
            ((e.strand i).ring k).items = g.items ++ [{ qseq := q', idx := g.next, n := 1, descs := [words], len := dLen words }]) ∧
        (q' ≠ seqNext acc → newer q' acc = true →
          Ends (.txItemFetch dt i t) s fun e => Only d e i [.regs, .cnt] ∧ (e.strand i).ringState k = 3 ∧
            RegsBut y (e.strand i) [Reg.DMA_FLAGS, Reg.LEDGER_FLAGS, ringPage k + 0x1C, ringPage k + 0x18] ∧
            (e.strand i).bit Reg.LEDGER_FLAGS 1 = true ∧ Counted y (e.strand i) (Reg.LEDGER_CNT + 8) ∧ LogHas e 0x0E02) ∧
        (q' ≠ seqNext acc → newer q' acc = false → g.items = [] →
          Ends (.txItemFetch dt i t) s fun e => Only d e i [.regs, .cnt, .dma] ∧ others e k ∧ (e.strand i).bit Reg.LEDGER_FLAGS 0 = true ∧
            (e.strand i).counter Reg.LEDGER_CNT = min counterMax (y.counter Reg.LEDGER_CNT + 1) ∧
            (e.strand i).ringHead k = (g.next + 1) % y.ringSize k % 65536 ∧ ((e.strand i).ring k).items = [])) ∧
      (y.dma.reads = [rd] → y.dma.waitReads = [] → rd.tag = tag →
        (rd.what = .data k q off → g.items = [it] → it.qseq = q → it.dup = false →
          (Ends (.hostReadCompletion dt i tag 0 data) s fun e => Only d e i [.dma] ∧ others e k ∧ (e.strand i).dma.reads = [] ∧
            ((e.strand i).ring k).items = [{ it with got := it.got.set [] off (data.take rd.len), missing := it.missing - 1 }]) ∧
          (it.step = .reading → it.ended = false →
            Ends (.hostReadCompletion dt i tag 1 data) s fun e => Only d e i [.regs, .cnt, .dma] ∧ others e k ∧
              (e.strand i).bit (ringPage k + 0x1C) 2 = true ∧ Counted y (e.strand i) (Reg.DMA_CNT + 8 * 12) ∧
              ((e.strand i).ring k).items = [{ it with ended := true, status := 8 }])) ∧
        (rd.what = .desc r n → y.owns r n = true → y.ringState r = 1 →
          Ends (.hostReadCompletion dt i tag 0 data) s fun e => Only d e i [.dma] ∧ others e r ∧ (e.strand i).dma.reads = [] ∧
            (dOwn (wordsOf 8 data) = true → ((e.strand i).ring r).fetched.get [] n = wordsOf 8 data) ∧
            (dOwn (wordsOf 8 data) = false → (e.strand i).ring r = { y.ring r with own := some n, ownAt := y.now + 1000 }))) ∧
      (g.items = [it] → it.step = .reading → it.missing = 0 → it.ended = false → it.dup = false → it.replay = false →
        k ∉ y.env.standby →
        let sta : LedEnt := { y.led k with sta := seqMax (y.led k).sta it.qseq }
        (y.ringMode k = 1 →
          Ends (.txCommit dt i t) s fun e => Only d e i [.dma, .ledger, .flg] ∧ others e k ∧ led e = sta ∧
            ((e.strand i).ring k).items = [{ it with step := .committed, ended := false }] ∧
            (e.strand i).flg.staged.get none k = some (it.got.cells.flatMap (·.2), it.qseq, bitOf (dWord (it.descs.headD []) 3) 28,
              y.ct32 / (2 ^ 16 : Nat))) ∧
        (y.ringMode k ≠ 1 →
          let f := y.txFrame k it
          let o := f.2.2.destinations f.2.1 f.1
          o.2.admissible o.1 f.1 = true → o.2.mirrored o.1 f.1 = false → (o.2.enqueue o.1 f.1).2.1 = true →
          Ends (.txCommit dt i t) s fun e => Only d e i [.cnt, .dma, .ledger, .sw] ∧ others e k ∧ led e = sta ∧
            (e.strand i).sw = (o.2.enqueue o.1 f.1).2.2.sw ∧
            ((e.strand i).ring k).items =
              [{ it with step := .committed, ended := !bitOf (dWord (it.descs.headD []) 3) 28 }])) ∧
      (g.items = [it] → it.ended = true → it.dup = false → it.noWb = false → it.noRec = false → it.replay = false → it.status = 0 →
        y.sw.notes = [] → y.ringLoc k = false → y.cqLoc (y.ringCq k) = false → y.dma.recs = [] → y.dma.reads = [] → 0 < it.n →
        Ends (.completionWrite dt i t) s fun e => Only d e i [.regs, .cnt, .dma, .ledger] ∧ others e k ∧ ((e.strand i).ring k).items = [] ∧
          (e.strand i).ringHead k = (it.idx + it.n) % y.ringSize k % 65536 ∧
          led e = { y.led k with cmp := seqMax (y.led k).cmp it.qseq, sta := seqMax (y.led k).sta it.qseq } ∧
          (e.strand i).counter Reg.DMA_CNT = min counterMax (y.counter Reg.DMA_CNT + 1) ∧
          (e.strand i).dma.recs = [{ key := k, cq := y.ringCq k, tag := some y.dma.nextTag, words :=
            [BitVec.ofNat 32 it.qseq, BitVec.ofNat 32 (recWord1 0 k ((it.idx + it.n - 1) % y.ringSize k)), BitVec.ofNat 32 (recWord2 it.len it.n 0), 0] }])

/-- A frame for an RX ring whose descriptor holds it whole is written there, advances HEAD and takes the next record number (R288); a held frame whose time has run out, not before, is discarded with
status 1 and counted (R298).  A read-back that returns lets the record it covers be written at CQ_TAIL (R294, R296).  The core posts records of KIND 3 (R297), and accepts and starts commands with the
results of R349. -/
def Obligations.RecordsAndCommands : Prop :=
  ∀ (s : State) (dt : Nat) (i : StrandId) (t : Fin 16) (c : Fin 4) (v : Word) (o : Nat × Nat × Frame) (dsc : List Word) (cur : RxCur) (rec_ : CqRec) (rd : HostRead),
    let d := later s dt
    let y := view d i
    let x := (later s dt).strand i
    let k := 16 + t.val
    let g := y.ring k
    let h := y.ringHead k
    let q := seqNext (y.led k).cmp
    let plain : Prop := y.ringLoc k = false ∧ y.cqLoc (y.ringCq k) = false ∧ y.ringEn k = true ∧ y.dma.recs = [] ∧ y.dma.reads = [] ∧ y.dma.waitReads = []
    let record (len n last status : Nat) : CqRec :=
      { key := k, cq := y.ringCq k, tag := some y.dma.nextTag,
        words := [BitVec.ofNat 32 q, BitVec.ofNat 32 (recWord1 1 t last), BitVec.ofNat 32 (recWord2 len n status), 0] }
    let issued (e : Dev) : Prop := (e.strand i).led k = { y.led k with valid := true, sta := q, cmp := q }
    let res (e : Dev) (code : Nat) : Prop := (e.strand i).rd Reg.CMDACC_RES = BitVec.ofNat 32 (2 ^ 31 + code)
    let qs := (x.rd Reg.CMDACC_QSEQ).toNat
    let note := (x.rd Reg.CMDACC_NOTICE_HI).toNat * 2 ^ 32 + (x.rd Reg.CMDACC_NOTICE_LO).toNat
    let l := x.led (33 + c)
    let cq := fieldOf v 26 24
    let p := (x.rd Reg.DMA_CQ_POST_Q).toNat
    (Active d i →
      (plain → y.ringState k = 1 → g.rx = none → g.aborts = [] → g.own = none → y.sw.toDma = [o] → y.rxKey o.1 o.2.1 = k → h < y.ringSize k →
        y.owns k h = true → tabFind g.fetched.cells h = some dsc → 256 ≤ dLen dsc → dLen dsc ≤ 16320 → dLen dsc % 64 = 0 →
        o.2.2.bytes.length ≤ dLen dsc → o.2.2.bytes ≠ [] → rxStatus o.2.2.info = 0 →
        Ends (.rxRingDeliver dt i t) s fun e => Only d e i [.regs, .cnt, .dma, .ledger, .sw] ∧ (e.strand i).sw = { y.sw with toDma := [] } ∧
          ((e.strand i).ring k).rx = none ∧ (e.strand i).ringHead k = (h + 1) % y.ringSize k % 65536 ∧ issued e ∧
          (e.strand i).dma.recs = [record o.2.2.bytes.length 1 h 0]) ∧
      (y.holdDue k = false → Ends (.rxHoldExpiry dt i t) s fun e => Only d e i []) ∧
      (plain → y.holdDue k = true → g.rx = some cur → cur.used ≠ [] →
        Ends (.rxHoldExpiry dt i t) s fun e => Only d e i [.regs, .cnt, .dma, .ledger] ∧ (e.strand i).ringState k = 1 ∧
          ((e.strand i).ring k).rx = none ∧ (e.strand i).bit Reg.DMA_FLAGS 3 = true ∧ issued e ∧
          (e.strand i).counter (Reg.DMA_CNT + 8 * 2) = min counterMax (y.counter (Reg.DMA_CNT + 8 * 2) + 1) ∧
          (e.strand i).dma.recs = [record 0 cur.used.length (((cur.used.getLast?).map (·.1)).getD 0) 1]) ∧
      (y.dma.reads = [rd] → rd.what = .back → y.dma.waitReads = [] → y.dma.recs = [rec_] → rec_.tag = some rd.tag → rec_.cq < 8 →
        y.cqEn rec_.cq = true → y.cqLoc rec_.cq = false →
        (y.cqFull rec_.cq = false → rec_.key < 16 →
          Ends (.readbackReturn dt (.strand i)) s fun e => Only d e i [.regs, .dma] ∧ RegsBut y (e.strand i) [cqPage rec_.cq + 0x14] ∧
            (e.strand i).dma.reads = [] ∧ (e.strand i).dma.recs = [] ∧
            (e.strand i).cqTail rec_.cq = lapNext (y.cqSize rec_.cq) (y.cqTail rec_.cq) % 2 ^ 17) ∧
        (y.cqFull rec_.cq = true → rec_.waited = false →
          Ends (.readbackReturn dt (.strand i)) s fun e => Only d e i [.regs, .cnt, .dma] ∧ Flagged y (e.strand i) Reg.DMA_FLAGS 4 ∧
            Counted y (e.strand i) (Reg.DMA_CNT + 8 * 6) ∧ (e.strand i).dma.recs = [{ rec_ with tag := none, waited := true }]))) ∧
    (Active (later s dt) i →
      ((∀ j < 4, x.cmdQueue j ≠ some cq) → x.dma.recs = [] → x.cqLoc cq = true → x.cqEn cq = true → x.cqFull cq = false →
        let addr := x.cqBase cq + 16 * (x.cqTail cq % 2 ^ 16)
        CoreBlock (later s dt) i addr 16 →
        Ends (.cqPost dt i v) s fun e => Only (later s dt) e i [.regs, .dma, .banks] ∧ RegsBut x (e.strand i) [cqPage cq + 0x14] ∧
          (e.strand i).dma.recs = [] ∧ MemBut x.banks.mem (e.strand i).banks.mem addr 16 ∧
          Memory.read (e.strand i).banks.mem addr 16 = wordBytes
            [BitVec.ofNat 32 p, setBit (BitVec.ofNat 32 (recWord1 3 (Config.postedRing cq) (fieldOf v 15 0))) 31 (decide (x.cqTail cq / 2 ^ 16 = 0)),
             BitVec.ofNat 32 (recWord2 0 0 (fieldOf v 23 16)), 0]) ∧
      (x.cmdQueue c = some cq → (∀ j < 4, j ≠ c.val → x.cmdQueue j ≠ some cq) → p ≠ seqNext l.cmp →
        Ends (.cqPost dt i v) s fun e => Only (later s dt) e i [.regs] ∧ Flagged x (e.strand i) Reg.LEDGER_FLAGS 3) ∧
      (x.cmdQueue c = none → Ends (.cmdAccept dt i c) s fun e => Only (later s dt) e i [.regs] ∧ RegsBut x (e.strand i) [Reg.CMDACC_RES] ∧ res e 4) ∧
      (x.cmdQueue c ≠ none →
        (qs = seqNext l.acc → (x.notices c).length < 16 →
          Ends (.cmdAccept dt i c) s fun e => Only (later s dt) e i [.regs, .ledger] ∧ RegsBut x (e.strand i) [Reg.CMDACC_RES] ∧ res e 0 ∧
            (e.strand i).led (33 + c) = { l with valid := true, acc := qs } ∧ (e.strand i).notices c = x.notices c ++ [(qs, note)]) ∧
        (qs = seqNext l.acc → 16 ≤ (x.notices c).length →
          Ends (.cmdAccept dt i c) s fun e => Only (later s dt) e i [.regs] ∧ RegsBut x (e.strand i) [Reg.CMDACC_RES] ∧ res e 3) ∧
        (qs ≠ seqNext l.acc → newer qs l.acc = true →
          Ends (.cmdAccept dt i c) s fun e => Only (later s dt) e i [.regs] ∧ RegsBut x (e.strand i) [Reg.CMDACC_RES, Reg.LEDGER_FLAGS] ∧ res e 2) ∧
        (qs ≠ seqNext l.acc → newer qs l.acc = false →
          Ends (.cmdAccept dt i c) s fun e => Only (later s dt) e i [.regs, .cnt] ∧ Counted x (e.strand i) (Reg.LEDGER_CNT + 8 * 5) ∧ res e 1)) ∧
      (qs = seqNext l.sta → newer qs l.acc = false →
        Ends (.cmdStart dt i c) s fun e => Only (later s dt) e i [.regs, .ledger] ∧ RegsBut x (e.strand i) [Reg.CMDACC_RES] ∧ res e 0 ∧
          (e.strand i).led (33 + c) = { l with sta := qs }) ∧
      (qs ≠ seqNext l.sta →
        Ends (.cmdStart dt i c) s fun e => Only (later s dt) e i [.regs] ∧ RegsBut x (e.strand i) [Reg.CMDACC_RES, Reg.LEDGER_FLAGS] ∧ res e 2 ∧
          (e.strand i).bit Reg.LEDGER_FLAGS 3 = true))


/-! ## Clasp -/

/-- A write-back at the head of a strand's requests that lies in its ring is held for its TX group, and one that finds 256 held waits there and is counted once (R324); one outside the ring fences the strand,
as its policy says (R330).  A record at the head moves its queue's head on: one that keeps the protocol reaches its TX group, which decides it when the cycle has passed (`Dev.mergeRun`): the next item is
delivered at the mark with its write-backs ahead of it, one at or below the mark is suppressed and counted; an RX record passes with its RED fields unread when its group has one strand (R324 to R326).  A
read-back that returns lets the record it covers be written (R324).  A report of ACCEPTED goes out when the mark is newer (R322).  A link that trains starts with 128 credits, and returned credits never
exceed them (R319, R331). -/
def Obligations.ClaspRequests : Prop :=
  ∀ (s : State) (dt : Nat) (i : StrandId) (g : Nat) (b : Bool) (k x q a cq key n : Nat) (bs : List Byte) (ws : List Word) (rest : List HostReq)
    (v : Nat) (ring : Fin 20) (gr : Fin 8) (p : PcqRec),
    let d := later s dt
    let m := d.mg g
    let c := d.mgCfg g
    let odd := oddOf i
    let w := (ws.getD 0 0).toNat
    let inRing : Prop := (d.strand i).ringBase k ≤ a ∧ a < (d.strand i).ringBase k + 32 * (d.strand i).ringSize k
    let held (y : MGroup) : List HeldWb := if odd then y.held1 else y.held0
    let keeps (e : Dev) : Prop := DevKeeps d e [.loupe]
    let moved (e : Dev) (but : List DPart) : Prop := DevKeeps d e (.strands :: .loupe :: but) ∧ StrandsBut d e [i] ∧ GroupsBut d e g ∧
      (e.strand i).cqHead cq = lapNext ((d.strand i).cqSize cq) ((d.strand i).cqHead cq) % 2 ^ 17
    let source := if fieldOf (ws.getD 2 0) 7 0 = 2 then none else some (mgStrand c odd, 16 + fieldOf (ws.getD 1 0) 27 24)
    let fences (e : Dev) : Prop := e.phase i = .fenced ∧ bitOf (e.supOf i).cause 11 = true
    let next (e : Dev) : Dev := ({ e with ns := e.ns + 1 } : Dev).mergeRun g 1
    let tbl := 0x1000080 + 0x10 * i.val
    let lk := d.dbit (tbl + 8) 1
    let gc := d.mgCfg gr
    (d.clasp.q.get i = .wb b k x q a bs :: rest → k < 16 → d.txGroup i k = some g →
      (inRing → (held m).length < 256 → Ends (.mergeWriteback dt i) s fun e => keeps e ∧ GroupsBut d e g ∧ held (e.mg g) = held m ++ [⟨q, a, bs⟩] ∧
        e.clasp.q.get i = rest) ∧
      (inRing → 256 ≤ (held m).length → m.fullCounted.get false (b2n odd) = false →
        Ends (.mergeWriteback dt i) s fun e => keeps e ∧ held (e.mg g) = held m ∧ e.clasp.q.get i = d.clasp.q.get i ∧ e.dbit Reg.CLASP_FLAGS 4 = true ∧
          e.clasp.cnt.get 0 64 = min counterMax (d.clasp.cnt.get 0 64 + 1)) ∧
      (¬inRing → d.phase i = .run → d.thisCyc.before.get none i = none → bitN d.cfg.policy 11 = true → Ends (.mergeWriteback dt i) s fences)) ∧
    (d.clasp.q.get i = .record b cq key a ws :: rest → d.cqGroup i cq = some g →
      (bitOf c 30 = false → d.recordOk g i ws = true → m.first = [] →
        Ends (.mergeRecord dt i) s fun e => moved e [] ∧
          e.mg g = { m.setPrev odd w with first := [{ odd := odd, at_ := d.ns, words := ws }] } ∧
          (d.base ≠ 6 ∧ m.split.contains w = false ∧ w = seqNext m.mark ∧ newer w m.mark = true ∧ m.state = 1 →
            moved (next e) [.ns] ∧ ((next e).mg g).mark = w ∧ ((next e).mg g).first = [] ∧
            ((next e).mg g).held0 = m.held0.filter (fun h => h.qseq != w) ∧ ((next e).mg g).held1 = m.held1.filter (fun h => h.qseq != w) ∧
            ((next e).mg g).out =
              m.out ++ [{ words := mergedWords ws odd false, pre := (held m).filter (fun h => h.qseq == w), ready := false }]) ∧
          (newer w m.mark = false →
            moved (next e) [.ns] ∧ ((next e).mg g).mark = m.mark ∧ ((next e).mg g).first = [] ∧ ((next e).mg g).out = m.out ∧
            held ((next e).mg g) = (held m).filter (fun h => h.qseq != w) ∧
            (next e).clasp.cnt.get 0 8 = min counterMax (d.clasp.cnt.get 0 8 + 1))) ∧
      (d.recordOk g i ws = false → d.phase i = .run → d.thisCyc.before.get none i = none → bitN d.cfg.policy 11 = true → Ends (.mergeRecord dt i) s fences) ∧
      (bitOf c 30 = true → d.recordOk g i ws = true → bitOf c 27 = true ∧ bitOf c 28 = false → bitOf c 25 = false → m.state = 1 →
        Ends (.mergeRecord dt i) s fun e => moved e [] ∧
          (e.mg g).out = m.out ++ [{ words := mergedWords ws odd false, ready := true, source := source }])) ∧
    ((d.mg gr).out = [p] → p.back ≠ 0 → p.ready = false →
      Ends (.readbackReturn dt (.group gr)) s fun e => DevKeeps d e [] ∧ GroupsBut d e gr ∧ e.mg gr = { d.mg gr with out := [{ p with ready := true }] }) ∧
    (d.dbit (tbl + 8) 0 = true → d.linkOpen lk = true → (d.link lk).credits ≠ 0 → d.txGroup i ring = none →
      (ring.val < 16 → (d.strand i).ringLoc ring = false) → d.accMark i ring = some v →
      let old := d.clasp.accs.get none (20 * i.val + ring)
      (old = none ∨ (∃ o ∈ old, newer v o = true) →
        Ends (.accReport dt (.ring i ring)) s fun e => keeps e ∧ TabBut none d.clasp.accs e.clasp.accs [20 * i.val + ring] ∧
          e.clasp.accs.get none (20 * i.val + ring) = some v ∧
          Sent d e (.hostWrite lk ((d.drd (tbl + 4)).toNat * 2 ^ 32 + d.dfld tbl 31 6 * 64 + 4 * ring) (leBytes 4 v))) ∧
      ((∃ o ∈ old, newer v o = false) → Ends (.accReport dt (.ring i ring)) s fun e => keeps e ∧ e.clasp.accs = d.clasp.accs)) ∧
    (bitOf gc 31 = true → bitOf gc 30 = false → (d.mg gr).state = 1 → d.linkOpen (bitOf gc 24) = true → (d.link (bitOf gc 24)).credits ≠ 0 →
      d.groupMark gr = some v → (d.mg gr).acc = none ∨ (∃ o ∈ (d.mg gr).acc, newer v o = true) →
      Ends (.accReport dt (.group gr)) s fun e => keeps e ∧ GroupsBut d e gr ∧ e.mg gr = { d.mg gr with acc := some v, accShown := v } ∧
        Sent d e (.hostWrite (bitOf gc 24) ((d.drd (mgPage gr + 0x18)).toNat * 2 ^ 32 + d.dfld (mgPage gr + 0x14) 31 2 * 4) (leBytes 4 v))) ∧
    (d.clasp.fenced = false → d.clasp.checking = false → d.mode ≠ 0 → (d.link b).up = false →
      Ends (.pcieLinkUp dt b) s fun e => keeps e ∧ (e.link b).up = true ∧ (e.link b).credits = 128) ∧
    (d.clasp.fenced = true ∨ d.clasp.checking = true ∨ d.mode = 0 →
      Ends (.pcieLinkUp dt b) s fun e => keeps e ∧ (e.link b).up = (d.link b).up) ∧
    ((d.link b).up = true →
      Ends (.postedCreditReturn dt b n) s fun e => keeps e ∧ (e.link b).credits = min 128 ((d.link b).credits + n)) ∧
    ((d.link b).up = false → Ends (.postedCreditReturn dt b n) s fun e => keeps e ∧ (e.link b).credits = (d.link b).credits)

/-- A tail write to a TX group reaches the same ring of each of its live strands (R323).  An abort through the group goes to each of its live strands, one at a time, and when the strands asked
have answered (`Dev.mgAbortDone`) their answers make one result (R327).  EN = 1 in MG_CFG starts a stopped group that keeps the rules with its queue empty, and is refused where it breaks them; EN = 0 stops a
running group whose rings are STOPPED, and is refused otherwise (R331, R337).  IRQ_ARM arms vectors, and an unmasked vector whose condition holds sends its message as the command ends
(`Dev.sendVectors`, R321).  A change of power state is the link's own (R313).  BAR2 reaches the SRAM that the host owns and is enabled for (R318). -/
def Obligations.ClaspControls : Prop :=
  ∀ (s : State) (dt : Nat) (m : Master) (b hi d3 : Bool) (g : Fin 8) (tail : BitVec 16) (v : Word) (vec : Fin 64) (i : StrandId) (off n : Nat) (bs : List Byte) (asked : List Bool),
    let d := later s dt
    let c := d.mgCfg g
    let pg := mgPage g
    let even := mgStrand c false
    let odd := mgStrand c true
    let r := fieldOf c 11 8
    let pair : List StrandId := [even, odd].filter fun j => d.live j
    let refused (e : Dev) : Prop := DevKeeps d e [.loupe, .upd] ∧ GroupsBut d e g ∧ e.mgCfg g = c ∧ (e.mg g).state = (d.mg g).state ∧
      e.dbit (pg + 0x30) 7 = true ∧ LogHas e 0x0D06
    let masks (word : Word) : Prop := fieldOf word 21 19 = 0 ∧ fieldOf word 7 5 = 0 ∧ 4 ≤ fieldOf word 4 0 ∧ fieldOf word 4 0 ≤ 16
    let a := off % 0x4000000
    (AtClasp d m b →
      (bitOf c 31 = false ∨ bitOf c 30 = true →
        Ends (.mgTailWrite dt m g tail) s fun e => DevKeeps d e [] ∧ ClaspBut d e [pg + 0x1C] ∧ e.dfld (pg + 0x1C) 15 0 = tail.toNat) ∧
      (bitOf c 31 = true → bitOf c 30 = false →
        (∀ j ∈ pair, (d.strand j).ringState r ≠ 2 ∧ tail.toNat < (d.strand j).ringSize r ∧ (d.strand j).ringOwned r ≤ (d.strand j).ringDist r tail.toNat) →
        Ends (.mgTailWrite dt m g tail) s fun e => DevKeeps d e [.strands] ∧ StrandsBut d e pair ∧ e.dfld (pg + 0x1C) 15 0 = tail.toNat ∧
          ∀ j ∈ pair, (e.strand j).ringTail r = tail.toNat) ∧
      (bitOf c 31 = true → bitOf c 30 = false → (d.mg g).abort = none →
        Ends (.mgAbort dt m g v) s fun e => DevKeeps d e [.strands] ∧ StrandsBut d e pair ∧ GroupsBut d e g ∧ ClaspBut d e [pg + 0x2C] ∧
          e.drd (pg + 0x2C) = 0 ∧ (e.mg g).abort = some ([false, true].filter fun o => d.live (mgStrand c o)) ∧
          ∀ j ∈ pair, (d.strand j).dma.abort = none →
            (e.strand j).dma.abort = some (BitVec.ofNat 32 (b2n (bitOf v 16) * 2 ^ 25 + r * 2 ^ 20 + fieldOf v 15 0))) ∧
      (bitOf c 31 = true → bitOf c 30 = false → (d.mg g).abort ≠ none →
        Ends (.mgAbort dt m g v) s fun e => DevKeeps d e [] ∧ GroupsBut d e g ∧ e.mg g = d.mg g ∧ ClaspBut d e [pg + 0x30] ∧ e.dbit (pg + 0x30) 6 = true) ∧
      (bitOf c 31 = false → bitOf v 31 = true → masks v →
        (d.mgRules g v = true →
          Ends (.mgCfgWrite dt m g v) s fun e => DevKeeps d e [] ∧ GroupsBut d e g ∧ ClaspBut d e [pg, pg + 0xC, pg + 0x10] ∧ e.mgCfg g = v ∧
            (e.mg g).state = 1 ∧ (e.mg g).primary = bitOf v 26 ∧ e.pcqHead g = 0 ∧ e.pcqTail g = 0) ∧
        (d.mgRules g v = false → Ends (.mgCfgWrite dt m g v) s refused)) ∧
      (bitOf c 31 = true → bitOf v 31 = false →
        (d.mgStopped c = true →
          Ends (.mgCfgWrite dt m g v) s fun e => DevKeeps d e [] ∧ GroupsBut d e g ∧ ClaspBut d e [pg] ∧ e.mgCfg g = setBit c 31 false ∧
            (e.mg g).state = 0 ∧ (e.mg g).held0 = [] ∧ (e.mg g).held1 = [] ∧ (e.mg g).out = [] ∧ (e.mg g).first = []) ∧
        (d.mgStopped c = false → Ends (.mgCfgWrite dt m g v) s refused)) ∧
      (Ends (.irqArm dt m hi v) s fun e => DevKeeps d e [] ∧ ClaspBut d e [] ∧
        (e.link b).arm = (d.link b).arm ||| v.toNat * 2 ^ (if hi then 32 else 0))) ∧
    ((d.mg g).abort = some asked →
      let res := (asked.filter fun o => d.live (mgStrand c o)).map fun o => (d.strand (mgStrand c o)).rd Reg.DMA_ABORT_RES
      let codes := res.map fun y => fieldOf y 17 16
      ((res.all fun y => bitOf y 31) = true →
        ((d.mgAbortDone g).mg g).abort = none ∧ bitOf ((d.mgAbortDone g).drd (pg + 0x2C)) 31 = true ∧
        (d.mgAbortDone g).dfld (pg + 0x2C) 17 16 = if codes.contains 1 then 1 else if codes.contains 0 then 0 else 2) ∧
      ((res.all fun y => bitOf y 31) = false → d.mgAbortDone g = d)) ∧
    (AtClasp d (.host b) b →
      Ends (.msixUnmask dt b vec) s fun e => DevKeeps d e [] ∧ ClaspBut d e [] ∧ (e.link b).masked vec = false ∧
        (vec.val < 59 → bitN (d.link b).arm vec = true → d.vecCond b vec = true → Sent d (e.sendVectors b) (.msix b vec))) ∧
    ((d.link b).up = true → Ends (.pmStateChange dt b d3) s fun e => DevKeeps d e [] ∧ (e.link b).up = true ∧ (e.link b).d3 = d3) ∧
    (d.linkOpen b = true → d.strandsOn = true → off / 0x4000000 = i.val →
      (Active d i → HostBlock d i a n → n ≤ 512 →
        Ends (.bar2Access dt b off (.read n)) s fun e => Only d e i [] ∧
          Sent d e (.readData (leNum (Memory.read (d.strand i).banks.mem a n)))) ∧
      (Active d i → HostBlock d i a bs.length →
        Ends (.bar2Access dt b off (.write bs)) s fun e => Only d e i [.banks] ∧ MemBut (d.strand i).banks.mem (e.strand i).banks.mem a bs.length ∧
          Memory.read (e.strand i).banks.mem a bs.length = bs) ∧
      (d.phase i = .off ∨ d.phase i = .fenced → 0 < n →
        Ends (.bar2Access dt b off (.read n)) s (fun e => DevKeeps d e [] ∧ Sent d e (.readData (2 ^ (8 * n) - 1))) ∧
        Ends (.bar2Access dt b off (.write bs)) s fun e => DevKeeps d e []))

/-- The recovery window of MD1 and MD11 belongs to the host that opens it (R333, R338).  A submission is refused with its code (R334): without an open window, by the other host, of a length that is not a multiple of 4, past the next
offset; one already stored is taken again and counted; the next block is stored and moves the next offset on, and an image that ends with a wrong digest begins again (R333, R334). -/
def Obligations.RecoveryWindow : Prop :=
  ∀ (s : State) (dt : Nat) (b resume sig flashErr digestOk prevOk : Bool) (st : StartIn), (later s dt).mode = 1 ∨ (later s dt).mode = 11 →
    let d := later s dt
    let r := d.clasp.rec_
    let o := r.offset.toNat
    let submit : Instr := .recSubmit dt b sig flashErr digestOk prevOk st
    let refuses (c : Instr) (code : Nat) : Prop := Ends c s fun e => DevKeeps d e [.loupe, .upd] ∧ e.clasp.rec_ = { r with code := code } ∧ LogHas e 0x0D10
    (r.isOpen = false ∨ r.owner = b →
      Ends (.recOpen dt b resume) s fun e => DevKeeps d e [] ∧
        e.clasp.rec_ = if resume then { r with isOpen := true, owner := b, code := 0 }
          else { r with isOpen := true, owner := b, code := 0, next := 0, total := 0, image := [] }) ∧
    (r.isOpen = true → r.owner ≠ b → refuses (.recOpen dt b resume) 7 ∧ refuses (.recClose dt b) 8 ∧ refuses submit 7) ∧
    (r.isOpen = true → r.owner = b → Ends (.recClose dt b) s fun e => DevKeeps d e [] ∧ e.clasp.rec_ = { r with isOpen := false, code := 0 }) ∧
    (r.isOpen = false → refuses (.recClose dt b) 8 ∧ refuses submit 8) ∧
    (r.isOpen = true → r.owner = b →
      (r.len % 4 ≠ 0 ∨ r.len = 0 → refuses submit 9) ∧
      (r.len ≠ 0 → r.len ≤ 65536 → r.len % 4 = 0 →
        (r.next < o → refuses submit 4) ∧
        (o + r.len ≤ r.next → Ends submit s fun e => DevKeeps d e [] ∧ e.clasp.rec_ = { r with code := 0 } ∧
          e.clasp.cnt.get 0 120 = min counterMax (d.clasp.cnt.get 0 120 + 1)) ∧
        (o = r.next → r.next ≠ 0 →
          (flashErr = true → refuses submit 6) ∧
          (flashErr = false → o + r.len ≠ r.total →
            Ends submit s fun e => DevKeeps d e [.flashes] ∧ e.clasp.rec_ = { r with next := o + r.len, kind := (d.areaInfo (d.recArea r.kind)).kind, code := 0 } ∧
              e.clasp.cnt.get 0 112 = min counterMax (d.clasp.cnt.get 0 112 + 1)) ∧
          (flashErr = false → o + r.len = r.total → digestOk = false →
            Ends submit s fun e => DevKeeps d e [.flashes, .loupe, .upd] ∧ e.clasp.rec_.next = 0 ∧ e.clasp.rec_.code = 5 ∧ LogHas e 0x0D10))))

/-! ## Dridin cores -/

/-- The D32 arithmetic, logic, moves and shifts write their result to Wd, W15 as a jump, and with S = 1 the flags of R369; CMP and TST write flags only (R365, R369,
R370). -/
def Obligations.CoreArithmetic : Prop :=
  ∀ (s : State) (dt : Nat) (c : Fin 5) (g wd wa : Fin 16) (sf : Bool) (src : DSrc) (kind : Fin 4) (cnt : DCnt) (imm : BitVec 16), AtCore (later s dt) c g →
    let k := (later s dt).coreOf c
    let a := k.reg wa
    let b := k.src src.src
    let n := (k.src cnt.src).toNat % 256
    let logic (r : Word) : DCore := { k with n := r.msb, z := r == 0 }
    let beyond (i : Int) : Bool := decide (i < -(2 ^ 31) ∨ 2 ^ 31 ≤ i)
    let sum (carry : Bool) : DCore :=
      { logic (a + b + BitVec.ofNat 32 (b2n carry)) with c := decide (2 ^ 32 ≤ a.toNat + b.toNat + b2n carry),
                                                          v := beyond (a.toInt + b.toInt + b2n carry), nc := (adder a b carry).nc }
    let diff (x : Word) (borrow : Bool) : DCore :=
      { logic (x - b - BitVec.ofNat 32 (b2n borrow)) with c := decide (b.toNat + b2n borrow ≤ x.toNat),
                                                           v := beyond (x.toInt - b.toInt - b2n borrow) }
    let pick (y : DCore) : DCore := if sf then y else k
    let shifted : Word × Bool :=
      if n = 0 then (a, k.c)
      else match kind with
        | 0 => (a <<< n, decide (n ≤ 32) && a.getLsbD (32 - n))
        | 1 => (a >>> n, decide (n ≤ 32) && a.getLsbD (n - 1))
        | 2 => (a.sshiftRight n, if n < 32 then a.getLsbD (n - 1) else a.msb)
        | 3 => (a.rotateRight (n % 32), (a.rotateRight (n % 32)).msb)
    (∀ i < 8, bitN (adder a b k.c).nc i = decide (2 ^ (4 * i + 4) ≤ a.toNat % 2 ^ (4 * i + 4) + b.toNat % 2 ^ (4 * i + 4) + b2n k.c)) ∧
    (∀ p ∈ ([(.add dt c g sf wd wa src, pick (sum false), a + b), (.adc dt c g sf wd wa src, pick (sum k.c), a + b + BitVec.ofNat 32 (b2n k.c)),
          (.sub dt c g sf wd wa src, pick (diff a false), a - b), (.sbc dt c g sf wd wa src, pick (diff a (!k.c)), a - b - BitVec.ofNat 32 (b2n (!k.c))),
          (.and dt c g sf wd wa src, pick (logic (a &&& b)), a &&& b), (.or dt c g sf wd wa src, pick (logic (a ||| b)), a ||| b),
          (.xor dt c g sf wd wa src, pick (logic (a ^^^ b)), a ^^^ b), (.andn dt c g sf wd wa src, pick (logic (a &&& ~~~b)), a &&& ~~~b),
          (.mov dt c g sf wd src, pick (logic b), b), (.mvn dt c g sf wd src, pick (logic (~~~b)), ~~~b), (.neg dt c g sf wd src, pick (diff 0 false), -b),
          (.movw dt c g wd imm, k, imm.setWidth 32),
          (.movt dt c g wd imm, k, imm ++ (k.reg wd).setWidth 16),
          (.shf dt c g sf wd wa kind cnt, pick { logic shifted.1 with c := shifted.2 }, shifted.1)] : List (Instr × DCore × Word)),
      Ends p.1 s fun e => Lands (later s dt) e c k p.2.1 wd p.2.2) ∧
    Ends (.cmp dt c g sf wa src) s (fun e => CoreDone (later s dt) e c { diff a false with pc := k.nextPc }) ∧
    Ends (.tst dt c g sf wa src) s (fun e => CoreDone (later s dt) e c { logic (a &&& b) with pc := k.nextPc })

/-- A multiplication leaves its result pending for 3 cycles and a division for 18; with the last of them, not before, it lands in MH:ML, or in QT and RM (R374).  A division by zero sets DZ and, with
TRAPDZ, traps at issue (R375).
The decimal instructions work on eight BCD digits, and an invalid operand sets V and keeps Wd (R373). -/
def Obligations.CoreMultiplyAndDecimal : Prop :=
  ∀ (s : State) (dt : Nat) (c : Fin 5) (g wd wa wb : Fin 16) (sf : Bool) (x y n : Nat) (q r : Word),
    let k := (later s dt).coreOf c
    let a := k.reg wa
    let b := k.reg wb
    let on (z : DCore) : DCore := { z with pc := k.nextPc }
    let digits (w : Word) : Prop := ∀ i < 8, fieldOf w (4 * i + 3) (4 * i) ≤ 9
    let dec (w : Word) (n : Nat) : Prop := ∀ i < 8, fieldOf w (4 * i + 3) (4 * i) = n / 10 ^ i % 10
    (AtCore (later s dt) c g →
      Ends (.mul dt c g sf wa wb) s (fun e => CoreDone (later s dt) e c (on { k with mul := some (3, a.toNat * b.toNat) })) ∧
      Ends (.muls dt c g sf wa wb) s (fun e => CoreDone (later s dt) e c (on { k with mul := some (3, (a.signExtend 64 * b.signExtend 64).toNat) })) ∧
      (b ≠ 0 →
        Ends (.div dt c g sf wa wb) s (fun e => CoreDone (later s dt) e c (on { k with v := false, div := some (18, a / b, a % b) })) ∧
        Ends (.divs dt c g sf wa wb) s fun e => CoreDone (later s dt) e c
          (on { k with v := a == BitVec.intMin 32 && b == BitVec.allOnes 32, div := some (18, a.sdiv b, a.srem b) })) ∧
      (b = 0 → k.trapdz = false →
        Ends (.div dt c g sf wa wb) s (fun e => CoreDone (later s dt) e c (on { k with v := false, dz := true, div := some (18, BitVec.allOnes 32, a) })) ∧
        Ends (.divs dt c g sf wa wb) s fun e => CoreDone (later s dt) e c
          (on { k with v := false, dz := true, div := some (18, if a.msb then 0x80000000 else 0x7FFFFFFF, a) })) ∧
      (b = 0 → k.trapdz = true → ∀ i ∈ [Instr.div dt c g sf wa wb, .divs dt c g sf wa wb],
        Ends i s fun e => Trapped (later s dt) e c { k with dz := true } 4 k.pc a.toNat) ∧
      (bcdNum a = some x → bcdNum b = some y →
        (n = x + y + b2n k.d → dec r n →
          Ends (.badd dt c g sf wd wa wb) s fun e => Lands (later s dt) e c k { k with z := r == 0, v := false, d := decide (99999999 < n) } wd r) ∧
        (n + y + b2n k.d = x + 10 ^ 8 → dec r n →
          Ends (.bsub dt c g sf wd wa wb) s fun e => Lands (later s dt) e c k { k with z := r == 0, v := false, d := decide (x < y + b2n k.d) } wd r) ∧
        Ends (.btob dt c g sf wd wa) s (fun e => Lands (later s dt) e c k { k with z := x == 0, v := false } wd (BitVec.ofNat 32 x))) ∧
      (digits a ↔ bcdNum a ≠ none) ∧ (bcdNum a = some x → dec a x ∧ x < 10 ^ 8) ∧
      (bcdNum a = none ∨ bcdNum b = none → ∀ i ∈ [Instr.badd dt c g sf wd wa wb, .bsub dt c g sf wd wa wb],
        Ends i s fun e => CoreDone (later s dt) e c (on { k with v := true })) ∧
      (bcdNum a = none → Ends (.btob dt c g sf wd wa) s fun e => CoreDone (later s dt) e c (on { k with v := true })) ∧
      (a.toNat ≤ 99999999 → dec r a.toNat →
        Ends (.bfromb dt c g sf wd wa) s fun e => Lands (later s dt) e c k { k with z := r == 0, v := false } wd r) ∧
      (99999999 < a.toNat → Ends (.bfromb dt c g sf wd wa) s fun e => CoreDone (later s dt) e c (on { k with v := true })) ∧
      Ends (.dadj dt c g sf wd wa) s (fun e => let r := decAdjust a k.c k.nc
        Lands (later s dt) e c k { k with z := r.1 == 0, d := r.2 } wd r.1)) ∧
    ((later s dt).coreClocked c = true →
      (k.mul = some (1, x) → Ends (.mulResult dt c) s fun e =>
        CoreIs (later s dt) e c { k with mul := none, ml := BitVec.ofNat 32 x, mh := BitVec.ofNat 32 (x / 2 ^ 32) }) ∧
      (k.mul = some (n, x) → n ≠ 1 → Ends (.mulResult dt c) s fun e => CoreIs (later s dt) e c k) ∧
      (k.div = some (1, q, r) → Ends (.divResult dt c) s fun e => CoreIs (later s dt) e c { k with div := none, qt := q, rm := r }) ∧
      (k.div = some (n, q, r) → n ≠ 1 → Ends (.divResult dt c) s fun e => CoreIs (later s dt) e c k)) ∧
    (n < 3 → { k with mul := some (3, x), div := none }.results n = { k with mul := some (3 - n, x), div := none }) ∧
    (n < 18 → { k with mul := none, div := some (18, q, r) }.results n = { k with mul := none, div := some (18 - n, q, r) })

/-- A load from SRAM gives the bytes there, from the write buffer where its newest store holds them all; a load of register space reads the register once the
buffer is empty (R371, R372).  A store enters the buffer; a full buffer drains its oldest store first (R372).  Drained stores reach SRAM or, whole words only, register space
(R10, R372); BARRIER empties the buffer.  An unaligned address takes the ALIGN trap, one outside the map the BUS trap, a base update of W15 the RSVD trap (R368, R371). -/
def Obligations.CoreMemory : Prop :=
  ∀ (s : State) (dt : Nat) (c : Fin 5) (g wd wa : Fin 16) (m : DMode) (imm : BitVec 14) (bs : List Byte) (f : WbEnt) (rest : List WbEnt) (off : Nat) (n : Fin 16),
    let d := later s dt
    let k := d.coreOf c
    let i := coreStrand c
    let x := d.strand i
    let at_ (size : Nat) : Nat := (k.address wa size m.mode).1
    let base (size : Nat) : DCore := match m with
      | .postInc => { k with w := k.w.set 0 wa (k.reg wa + BitVec.ofNat 32 size) }
      | .preDec => { k with w := k.w.set 0 wa (k.reg wa - BitVec.ofNat 32 size) }
      | _ => k
    let bad : Prop := wa = 15 ∧ (m = .postInc ∨ m = .preDec)
    let word (l : List Byte) : Word := BitVec.ofNat 32 (leNum l)
    let loads : List (Instr × Nat × (List Byte → Word)) :=
      [(.ldw dt c g wd wa m, 4, word), (.ldh dt c g wd wa m, 2, word), (.ldb dt c g wd wa m, 1, word),
       (.ldhs dt c g wd wa m, 2, fun l => ((word l).setWidth 16).signExtend 32), (.ldbs dt c g wd wa m, 1, fun l => ((word l).setWidth 8).signExtend 32)]
    let stores : List (Instr × Nat) := [(.stw dt c g wd wa m, 4), (.sth dt c g wd wa m, 2), (.stb dt c g wd wa m, 1)]
    let drained (e : Dev) : Prop := MemBut x.banks.mem (e.strand i).banks.mem f.addr f.size ∧
      Memory.read (e.strand i).banks.mem f.addr f.size = leBytes f.size f.val
    let oldest : Prop := k.wbuf = f :: rest ∧ c.val < 4 ∧ f.addr < 0x600000 ∧ CoreBlock d i f.addr f.size
    (AtCore d c g → ¬ bad →
      (∀ p ∈ loads, at_ p.2.1 % p.2.1 = 0 →
        let y : DCore := if wa = wd then k else base p.2.1
        (c.val < 4 → at_ p.2.1 < 0x600000 → CoreBlock d i (at_ p.2.1) p.2.1 →
          (k.wbuf.all fun e => !e.meets (at_ p.2.1) p.2.1) = true →
          Ends p.1 s fun e => Lands d e c k y wd (p.2.2 (Memory.read x.banks.mem (at_ p.2.1) p.2.1))) ∧
        (c.val < 4 → at_ p.2.1 < 0x600000 → wbForward k.wbuf (at_ p.2.1) p.2.1 = some bs →
          Ends p.1 s fun e => Lands d e c k y wd (p.2.2 bs)) ∧
        (c.val < 4 → at_ p.2.1 = 0xF0000000 + Reg.BEAD_CMP_MASK n → k.wbuf = [] →
          Ends p.1 s fun e => Lands d e c k y wd (p.2.2 (leBytes p.2.1 (x.rd (Reg.BEAD_CMP_MASK n)).toNat))) ∧
        (c.val < 4 → 0x600000 ≤ at_ p.2.1 → at_ p.2.1 < 0xF0000000 ∨ 0xF0100000 ≤ at_ p.2.1 →
          Ends p.1 s fun e => Trapped d e c k 3 k.pc (at_ p.2.1)) ∧
        (c.val = 4 → 0x10000000 ≤ at_ p.2.1 → at_ p.2.1 + 4 ≤ 0x10200000 → k.wbuf = [] →
          Ends p.1 s fun e => Lands d e c k y wd (p.2.2 (Memory.read d.loupe.sram (at_ p.2.1 - 0x10000000) p.2.1)))) ∧
      (∀ p ∈ loads, at_ p.2.1 % p.2.1 ≠ 0 → Ends p.1 s fun e => Trapped d e c k 2 k.pc (at_ p.2.1)) ∧
      (∀ p ∈ stores, at_ p.2 % p.2 ≠ 0 → Ends p.1 s fun e => Trapped d e c k 2 k.pc (at_ p.2)) ∧
      (∀ p ∈ stores, at_ p.2 % p.2 = 0 →
        let new : WbEnt := ⟨at_ p.2, p.2, (k.reg wd).toNat % 2 ^ (8 * p.2)⟩
        (c.val < 4 → 0x600000 ≤ at_ p.2 → at_ p.2 < 0xF0000000 ∨ 0xF0100000 ≤ at_ p.2 →
          Ends p.1 s fun e => Trapped d e c k 3 k.pc (at_ p.2)) ∧
        (coreInRange c (at_ p.2) = true →
          (k.wbuf.length < 8 → Ends p.1 s fun e => CoreDone d e c { base p.2 with wbuf := k.wbuf ++ [new], pc := k.nextPc }) ∧
          (k.wbuf.length = 8 → oldest → Ends p.1 s fun e => Only d e i [.core, .cnt, .banks] ∧ drained e ∧
            e.coreOf c = { base p.2 with wbuf := rest ++ [new], pc := k.nextPc } ∧
            (e.strand i).counter (Reg.CORE_CNT + 8) = min counterMax (x.counter (Reg.CORE_CNT + 8) + 1))))) ∧
    (AtCore d c g →
      (k.wbuf = [] → Ends (.barrier dt c g imm) s fun e => CoreDone d e c { k with pc := k.nextPc }) ∧
      (oldest → rest = [] → Ends (.barrier dt c g imm) s fun e => Only d e i [.core, .cnt, .banks] ∧ drained e ∧
        e.coreOf c = { k with wbuf := [], pc := k.nextPc })) ∧
    (Fetches d c → bad →
      ∀ p ∈ ([(.ldw dt c g wd wa m, .load 0x10 wd wa m.mode), (.ldh dt c g wd wa m, .load 0x11 wd wa m.mode), (.ldhs dt c g wd wa m, .load 0x12 wd wa m.mode),
          (.ldb dt c g wd wa m, .load 0x13 wd wa m.mode), (.ldbs dt c g wd wa m, .load 0x14 wd wa m.mode), (.stw dt c g wd wa m, .store 0x15 wd wa m.mode),
          (.sth dt c g wd wa m, .store 0x16 wd wa m.mode), (.stb dt c g wd wa m, .store 0x17 wd wa m.mode)] : List (Instr × DOp)),
        Ends p.1 s fun e => Trapped d e c k 1 k.pc (p.2.encode g)) ∧
    (d.coreClocked c = true →
      (oldest → Ends (.wbDrain dt c) s fun e => Only d e i [.core, .banks] ∧ drained e ∧ e.coreOf c = { k with wbuf := rest }) ∧
      (k.wbuf = ⟨off, 4, f.val⟩ :: rest → c.val < 4 → off = 0xF0000000 + Reg.BEAD_CMP_MASK n →
        Ends (.wbDrain dt c) s fun e => Only d e i [.core, .regs] ∧ RegsBut x (e.strand i) [Reg.BEAD_CMP_MASK n] ∧
          (e.strand i).rd (Reg.BEAD_CMP_MASK n) = BitVec.ofNat 32 f.val ∧ e.coreOf c = { k with wbuf := rest }) ∧
      (k.wbuf = ⟨off, 2, f.val⟩ :: rest → c.val < 4 → 0xF0000000 ≤ off →
        Ends (.wbDrain dt c) s fun e => CoreIs d e c { k with wbuf := rest }))

/-- An instruction whose guard does not hold only moves on (R366), and one at a breakpoint halts the core (R383).  Branches jump and link (R367); SWI, BKPT, a reserved encoding and an interrupt take their traps, RTE returns
from one and is reserved outside it (R368, R377, R378).  WAIT goes on at once or sleeps until a line is pending (R378).  MFS and MTS reach every special register (R363).  A mapped
D16 instruction runs its micro-operations in place (R379). -/
def Obligations.CoreFlow : Prop :=
  ∀ (s : State) (dt : Nat) (c : Fin 5) (g wd wa : Fin 16) (l : Bool) (ofs : BitVec 21) (imm : BitVec 14) (idx : BitVec 8) (word : Word) (e1 : Nat) (o : DOp) (y : DCore)
    (src : DSrc) (sf : Bool),
    let d := later s dt
    let k := d.coreOf c
    let on (z : DCore) : DCore := { z with pc := k.nextPc }
    let w := word.toNat
    let linked : DCore := if l then { k with w := k.w.set 0 14 (BitVec.ofNat 32 (k.pc + 4)) } else k
    let specials : List (Nat × Word × DCore) :=
      [(0, k.ml, k), (1, k.mh, k), (2, k.qt, k), (3, k.rm, k), (4, k.flags, k),
       (5, BitVec.ofNat 32 (b2n k.tm * 4 + b2n k.ie * 2 + b2n k.trapdz), k), (6, k.tpc, k), (7, k.tflags, k), (8, k.tcause, k), (9, k.tval, k),
       (10, k.vbase, k), (11, BitVec.ofNat 32 k.cyc, { k with cycHi := BitVec.ofNat 32 (k.cyc / 2 ^ 32) }), (12, k.cycHi, k),
       (13, BitVec.ofNat 32 (0x0D320100 + c), k)]
    let v := k.reg wa
    let flagged (x : Word) : DCore := { k with dz := bitOf x 16, nc := fieldOf x 15 8, d := bitOf x 4, n := bitOf x 3, z := bitOf x 2, c := bitOf x 1, v := bitOf x 0 }
    let written : List (Nat × DCore) :=
      [(0, { k with ml := v }), (1, { k with mh := v }), (2, { k with qt := v }), (3, { k with rm := v }), (4, flagged v),
       (5, { k with ie := bitOf v 1, trapdz := bitOf v 0 }), (6, { k with tpc := v }), (8, { k with tcause := BitVec.ofNat 32 (fieldOf v 3 0) }),
       (9, { k with tval := v }), (10, { k with vbase := BitVec.ofNat 32 (fieldOf v 31 10 * 1024) }), (11, k), (12, k), (13, k)]
    let woken (z : DCore) (e : Dev) : Prop :=
      if k.ie && !k.tm then Trapped d e c { z with state := .running, pc := k.nextPc } 7 k.nextPc 0 else CoreDone d e c { z with state := .running, pc := k.nextPc }
    let u (z : DCore) : DCore := { z with w := (z.w.set 0 16 0).set 0 17 0 }
    let seq : Prop := d.dtFind c w = some e1 ∧ (d.strand (coreStrand c)).fld (dtHdr e1) 2 0 = 0
    let uop := ((d.strand (coreStrand c)).rd (dtUop e1 0)).toNat
    (AtCore d c g →
      Ends (.b dt c g l ofs) s (fun e => CoreDone d e c { linked with pc := (BitVec.ofNat 32 k.pc + ofs.signExtend 32 * 4).toNat }) ∧
      (v.toNat % 4 = 0 → Ends (.br dt c g l wa) s fun e => CoreDone d e c { linked with pc := v.toNat }) ∧
      (v.toNat % 4 ≠ 0 → Ends (.br dt c g l wa) s fun e => Trapped d e c k 2 k.pc v.toNat) ∧
      Ends (.swi dt c g imm) s (fun e => Trapped d e c k 5 (k.pc + 4) imm.toNat) ∧
      Ends (.bkpt dt c g imm) s (fun e => Trapped d e c k 6 k.pc k.pc) ∧
      (k.tm = true → Ends (.rte dt c g imm) s fun e =>
        CoreDone d e c { flagged k.tflags with ie := bitOf k.tflags 31, tm := false, pc := k.tpc.toNat }) ∧
      (d.coreWaits c = true → Ends (.wait dt c g imm) s (woken k)) ∧
      (d.coreWaits c = false → Ends (.wait dt c g imm) s fun e => CoreIs d e c { k with state := .waiting }) ∧
      (∀ p ∈ specials, Ends (.mfs dt c g wd (BitVec.ofNat 8 p.1)) s fun e => Lands d e c k p.2.2 wd p.2.1) ∧
      (∀ p ∈ written, Ends (.mts dt c g wa (BitVec.ofNat 8 p.1)) s fun e => CoreDone d e c (on p.2)) ∧
      Ends (.mts dt c g wa 7) s (fun e => (e.coreOf c).pc = k.nextPc ∧ bitOf (e.coreOf c).tflags 31 = bitOf v 31 ∧
        fieldOf (e.coreOf c).tflags 4 0 = fieldOf v 4 0 ∧ fieldOf (e.coreOf c).tflags 15 8 = fieldOf v 15 8)) ∧
    (Fetches d c →
      (k.guard g = false →
        ∀ i ∈ ([.add dt c g sf wd wa src, .shf dt c g sf wd wa 0 (.imm 1), .movw dt c g wd 5, .ldw dt c g wd wa (.disp 0), .stw dt c g wd wa (.disp 0), .b dt c g l ofs, .br dt c g l wa,
            .swi dt c g imm, .wait dt c g imm, .barrier dt c g imm, .bkpt dt c g imm, .mfs dt c g wd 0, .mts dt c g wa 0, .mul dt c g sf wd wa, .div dt c g sf wd wa,
            .badd dt c g sf wd wa wa, .dadj dt c g sf wd wa] : List Instr),
          Ends i s fun e => CoreDone d e c (on k)) ∧
      (k.tm = false → Ends (.rte dt c g imm) s fun e => Trapped d e c k 1 k.pc ((DOp.sys 1 imm.toNat).encode g)) ∧
      (13 < idx.toNat →
        Ends (.mfs dt c g wd idx) s (fun e => Trapped d e c k 1 k.pc ((DOp.mfs wd idx.toNat).encode g)) ∧
        Ends (.mts dt c g wa idx) s (fun e => Trapped d e c k 1 k.pc ((DOp.mts wa idx.toNat).encode g))) ∧
      (d.rsvdWord c w = true → Ends (.reservedEncoding dt c word) s fun e => Trapped d e c k 1 k.pc w) ∧
      (0x26 ≤ bitsN w 27 22 → d.dtFind c w = none → d.rsvdWord c w = true) ∧
      (seq → k.guard (w / 2 ^ 28) = true → (DOp.read uop).map (·.subst ((d.strand (coreStrand c)).rd (dtUctl e1 0)).toNat w) = some o →
        o.reserved = false → o.plain = true → (u k).guard (uop / 2 ^ 28) = true → (u k).exec c o = .done y →
        Ends (.d16Sequence dt c word) s fun e => e.coreOf c = on (u y) ∧ Only d e (coreStrand c) [.core, .cnt] ∧
          (e.strand (coreStrand c)).counter (Reg.CORE_CNT + 40) = min counterMax ((d.strand (coreStrand c)).counter (Reg.CORE_CNT + 40) + 1)) ∧
      (seq → k.guard (w / 2 ^ 28) = false → Ends (.d16Sequence dt c word) s fun e => CoreDone d e c (on k))) ∧
    (d.coreLive c = true → d.atBreak c = true →
      Ends (.movw dt c g wd 5) s fun e => Only d e (coreStrand c) [.core, .regs] ∧ e.coreOf c = { k with state := .halted } ∧
        Flagged (d.strand (coreStrand c)) (e.strand (coreStrand c)) Reg.CORE_FLAGS 4) ∧
    (d.coreLive c = true → k.ie = true → k.tm = false → d.coreWaits c = true → Ends (.coreIrqTaken dt c) s fun e => Trapped d e c k 7 k.pc 0) ∧
    (d.coreClocked c = true → k.state = .waiting → d.coreWaits c = true → Ends (.waitWake dt c) s (woken k))

/-- The kick 0xA5 restarts a watchdog that is enabled, and another value while it is off is flagged (R382).  HALT, RESUME and STEP by the Loupe act on a strand's core that it reaches, and a
breakpoint halts the core before the instruction it names (R383, R384). -/
def Obligations.CoreControl : Prop :=
  ∀ (s : State) (dt : Nat) (i : StrandId) (v : Word) (w : Nat) (o : DOp) (y : DCore),
    let d := later s dt
    let x := d.strand i
    let k := x.core
    let t := x.fld Reg.CORE_WDOG 15 0
    let core (e : Dev) (z : DCore) : Prop := Only d e i [.core] ∧ (e.strand i).core = z
    (Active d i → fieldOf v 7 0 = 0xA5 →
      (t ≠ 0 → Ends (.wdogKick dt i v) s fun e => Only d e i [.core, .cnt] ∧ (e.strand i).core = { k with wdog := some (t * 100000) } ∧
        Counted x (e.strand i) (Reg.CORE_CNT + 48)) ∧
      (t = 0 → Ends (.wdogKick dt i v) s fun e => Only d e i [])) ∧
    (Active d i → fieldOf v 7 0 ≠ 0xA5 → t = 0 → Ends (.wdogKick dt i v) s fun e => Only d e i [.regs] ∧ Flagged x (e.strand i) Reg.CORE_FLAGS 3) ∧
    (Reaches d .loupe i →
      (k.state = .running ∨ k.state = .waiting → Ends (.halt dt i) s fun e => core e { k with state := .halted }) ∧
      (k.state = .halted → Ends (.resume dt i) s fun e => core e { k with state := .running }) ∧
      (k.state = .running ∨ k.state = .halted → k.pc % 4 = 0 → k.pc < 0x600000 → CoreBlock d i k.pc 4 → w = leNum (Memory.read x.banks.mem k.pc 4) →
        d.dtFind (Fin.ofNat 5 i) w = none → DOp.read w = some o → o.reserved = false → k.guard (w / 2 ^ 28) = true →
        o.plain = true →
        ({ k with state := .running } : DCore).exec i o = .done y →
        Ends (.coreStep dt i) s fun e => Only d e i [.core, .cnt] ∧ (e.strand i).core = { y with state := .halted, pc := k.nextPc })) ∧
    (Active d i → k.state = .running →
      (x.breakHit = true → Ends (.breakpointHit dt i) s fun e => Only d e i [.core, .regs] ∧ (e.strand i).core = { k with state := .halted } ∧
        Flagged x (e.strand i) Reg.CORE_FLAGS 4) ∧
      (x.breakHit = false → Ends (.breakpointHit dt i) s fun e => Only d e i [])) ∧
    (x.breakHit = true ↔ (x.bit Reg.CORE_BRK0 0 = true ∧ x.fld Reg.CORE_BRK0 31 2 * 4 = k.pc) ∨ (x.bit Reg.CORE_BRK1 0 = true ∧ x.fld Reg.CORE_BRK1 31 2 * 4 = k.pc))

/-! ## Memory banks and the Hallmark -/

/-- RELEASE hands a bank over and a GRANT names its next owner; what these rules forbid sets HANDOVER_ERR, where the core and the Loupe write a bank in one cycle the core's write acts, and host writes
are discarded (R389, R393, R394).  The bank is FREE when its last access has completed, in a later cycle than the release and 3 cycles after it at the latest (`StrandSt.bankEnd`), and the owner a grant
names takes it one cycle after (R393).  A power change is in progress until it is done, not before its cycles have passed, and OFF loses the contents of that bank alone (R396, R397).  A scrub cures a word or
marks its bank LASTING; the patrol reads one word index of every bank that is ON when its interval has passed, not before; an uncorrectable error in a retention bank fences the strand, as its policy says
(R398, R345).  The check of a rail records its window (R494). -/
def Obligations.Banks : Prop :=
  ∀ (s : State) (dt mv a : Nat) (m : Master) (i : StrandId) (k : Fin 48) (own : Fin 8) (group : Fin 4) (pwr : Fin 4) (w : Fin 16384) (req : Nat)
    (hostB : Bool) (bank : Fin 2) (hand : Bool × Word × (Nat × Nat) × Option Nat),
    let d := later s dt
    let x := view d i
    let o := Reg.BANK_OWNER k
    let b := Reg.BANK_STATE k
    let k' : Fin 50 := k.castLE (by decide)
    let named : Prop := own ≠ 0 ∧ own ≠ 7 ∧ (d.phase i = .loading ∨ (own ≠ 3 ∧ own ≠ 4))
    let reaches (n : Master) : Prop := Reaches d n i ∨
      (n = .loupe ∧ d.loupeRuns = true ∧ d.phase i = .loading ∧ (d.supOf i).fenceIn = false)
    let err (c : Instr) : Prop := Ends c s fun e => Only d e i [.regs] ∧ Flagged x (e.strand i) Reg.BANK_FLAGS 2
    let leaving : Machine.Banks := { x.banks with relAt := x.banks.relAt.set 0 k d.ns, leaving := k :: x.banks.leaving }
    let granted (y : Machine.Banks) : Machine.Banks := { y with pendTo := y.pendTo.set (0, 0) k (own.val, group.val) }
    let quiet : Prop := x.banks.leaving = [] ∧ x.banks.taking = []
    let taken (z : StrandSt) : Prop := z.bankOwner k = own ∧ z.bankHo k = 0 ∧ z.bit o 15 = false ∧ (own = 4 → z.fld o 4 3 = group)
    let free (z : StrandSt) : Prop := z.bankOwner k = 0 ∧ z.bankHo k = 2
    let p := x.banks.pwrAt.get (0, 0, 0) k
    (reaches m → (∀ l, m ≠ .host l) → x.thisCyc.hand.get none k = none →
      (x.imageBank k = false →
        (x.bankHo k = 0 →
          Ends (.bankRelease dt m i k) s (fun e => Only d e i [.regs, .banks] ∧ RegsBut x (e.strand i) [o] ∧ (e.strand i).bankHo k = 1 ∧
            (e.strand i).bankOwner k = x.bankOwner k ∧ (e.strand i).banks = leaving) ∧
          err (.bankGrant dt m i k own group) ∧
          (named → Ends (.releaseGrant dt m i k own group) s fun e => Only d e i [.regs, .banks] ∧ RegsBut x (e.strand i) [o] ∧
            (e.strand i).bankHo k = 1 ∧ (e.strand i).bankOwner k = x.bankOwner k ∧ (e.strand i).bit o 15 = true ∧
            (e.strand i).banks = granted leaving) ∧
          (¬ named → err (.releaseGrant dt m i k own group))) ∧
        (x.bankHo k ≠ 0 →
          err (.bankRelease dt m i k) ∧ err (.releaseGrant dt m i k own group) ∧
          (x.bit o 15 = false → named → Ends (.bankGrant dt m i k own group) s fun e => Only d e i [.regs, .banks] ∧ RegsBut x (e.strand i) [o] ∧
            (e.strand i).bankHo k = x.bankHo k ∧ (e.strand i).bankOwner k = x.bankOwner k ∧ (e.strand i).bit o 15 = true ∧
            (e.strand i).banks = granted { x.banks with taking := if x.bankHo k = 2 then k :: x.banks.taking else x.banks.taking } ∧
            (quiet → x.bankHo k = 2 → RegsBut x (view e i).bankEnd [o] ∧ taken (view e i).bankEnd)) ∧
          (x.bit o 15 = true ∨ ¬ named → err (.bankGrant dt m i k own group)))) ∧
      (x.imageBank k = true → err (.bankRelease dt m i k) ∧ err (.bankGrant dt m i k own group) ∧ err (.releaseGrant dt m i k own group))) ∧
    (reaches .loupe → x.thisCyc.hand.get none k = some hand → hand.1 = true → err (.bankRelease dt .loupe i k)) ∧
    (reaches m → (∀ l, m ≠ .host l) → x.thisCyc.hand.get none (64 + k) = none →
      (pwr.val ≤ 2 → x.bit b 5 = false → x.bankPwr k ≠ pwr.val → x.banks.pwrTo.get none k ≠ some pwr.val →
        Ends (.pwrWrite dt m i k pwr) s fun e => Only d e i [.regs, .banks] ∧ RegsBut x (e.strand i) [b] ∧ (e.strand i).fld b 1 0 = pwr.val ∧
          (e.strand i).bankPwr k = 3 ∧ (e.strand i).banks =
            { x.banks with pwrTo := x.banks.pwrTo.set none k (some pwr.val), pwrAt := x.banks.pwrAt.set (0, 0, 0) k (d.ns, x.bankPwr k, x.pwrWas k) }) ∧
      (pwr.val = 3 ∨ x.bit b 5 = true → Ends (.pwrWrite dt m i k pwr) s fun e => Only d e i [])) ∧
    (Reaches d (.host hostB) i →
      ∀ c ∈ ([.bankRelease dt (.host hostB) i k, .bankGrant dt (.host hostB) i k own group, .releaseGrant dt (.host hostB) i k own group,
          .pwrWrite dt (.host hostB) i k pwr] : List Instr), Ends c s fun e => Only d e i []) ∧
    (Active d i ∨ d.phase i = .loading →
      (x.bankHo k = 1 → x.banks.relAt.get 0 k < d.ns →
        (x.bit o 15 = false → Ends (.bankFree dt i k) s fun e => Only d e i [.regs, .banks] ∧ RegsBut x (e.strand i) [o] ∧ free (e.strand i)) ∧
        (x.bit o 15 = true → x.banks.pendTo.get (0, 0) k = (own.val, group.val) →
          Ends (.bankFree dt i k) s fun e => Only d e i [.regs, .banks] ∧ RegsBut x (e.strand i) [o] ∧
            if d.phase i = .loading then taken (e.strand i)
            else free (e.strand i) ∧ (x.banks.leaving = [k.val] → x.banks.taking = [] → taken (view e i).bankEnd))) ∧
      (x.bankHo k ≠ 1 ∨ d.ns ≤ x.banks.relAt.get 0 k → Ends (.bankFree dt i k) s fun e => Only d e i []) ∧
      (x.banks.pwrTo.get none k = some pwr.val → d.ns < p.1 + pwrCycles p.2.2 pwr → Ends (.pwrChangeDone dt i k) s fun e => Only d e i []) ∧
      (x.banks.pwrTo.get none k = some pwr.val → p.1 + pwrCycles p.2.2 pwr ≤ d.ns →
        Ends (.pwrChangeDone dt i k) s fun e => Only d e i [.regs, .banks] ∧ RegsBut x (e.strand i) [b] ∧ (e.strand i).bankPwr k = pwr ∧
          (e.strand i).banks.pwrTo.get none k = none ∧
          Memory.get (e.strand i).banks.mem a = if pwr = 2 ∧ bankNo a = k then 0 else Memory.get x.banks.mem a)) ∧
    (x.banks.leaving = [k.val] → x.banks.taking = [] →
      (x.banks.relAt.get 0 k + 2 ≤ d.ns → free x.bankEnd ∧ RegsBut x x.bankEnd [o]) ∧
      (d.ns < x.banks.relAt.get 0 k + 2 → x.bankEnd.banks = x.banks ∧ RegsBut x x.bankEnd [])) ∧
    (Active d i →
      (x.banks.scrubs = [(k.val, w.val, req)] →
        (Ends (.scrub dt i k' w true) s fun e => Only d e i [.regs, .cnt, .banks] ∧ RegsBut x (e.strand i) [Reg.BANK_LAST_ERR] ∧
          Counted x (e.strand i) Reg.BANK_CNT ∧ (e.strand i).banks = { x.banks with scrubs := [], ecc := x.banks.ecc.set 0 (16384 * k + w) 0 }) ∧
        (Ends (.scrub dt i k' w false) s fun e => Only d e i [.regs, .cnt, .banks] ∧ RegsBut x (e.strand i) [b, Reg.BANK_LAST_ERR, Reg.BANK_FLAGS] ∧
          (e.strand i).bit b 4 = true ∧ (e.strand i).bit Reg.BANK_FLAGS 5 = true ∧ (e.strand i).bit Reg.BANK_FLAGS 3 = true ∧
          (e.strand i).banks = { x.banks with scrubs := [], marked := true } ∧ Counted x (e.strand i) (Reg.BANK_CNT + 8) ∧ LogHas e 0x1002)) ∧
      (let every := 64 * x.fld Reg.BANK_CTL 31 16
       (every = 0 ∨ x.now < x.banks.patrolAt + every → Ends (.patrolRead dt i none) s fun e => Only d e i []) ∧
       (every ≠ 0 → x.banks.patrolAt + every ≤ x.now → x.banks.ecc = {} →
        Ends (.patrolRead dt i none) s (fun e => Only d e i [.banks] ∧
          (e.strand i).banks = { x.banks with patrol := (x.banks.patrol + 1) % 16384, patrolAt := x.now }) ∧
        (x.bankPwr k = 0 → x.banks.scrubs = [] → x.banks.patrol < 16384 →
          Ends (.patrolRead dt i (some (k.val, 1))) s (fun e => Only d e i [.banks] ∧
            (e.strand i).banks.scrubs = [(k.val, x.banks.patrol, reqPatrol)]) ∧
          Ends (.patrolRead dt i (some (k.val, 2))) s fun e => Only d e i [.regs, .cnt, .banks] ∧ (e.strand i).bit b 4 = true ∧
            (e.strand i).bit Reg.BANK_FLAGS 4 = true ∧ Counted x (e.strand i) (Reg.BANK_CNT + 24) ∧ LogHas e 0x1003))) ∧
      Ends (.patrolRead dt i (some (48, 2))) s fun e => Only d e i [.regs, .cnt, .banks] ∧ (e.strand i).banks.ledgerUe = true ∧
        Counted x (e.strand i) (Reg.BANK_CNT + 24) ∧ LogHas e 0x1003 ∧
        (d.phase i = .run → d.thisCyc.before.get none i = none → x.banks.marked = false → bitN d.cfg.policy 10 = true →
          (e.bankWatch i).phase i = .fenced ∧ bitOf ((e.bankWatch i).supOf i).cause 10 = true)) ∧
    Ends (.bankVioCheck dt i bank mv) s (fun e => StrandFrame d e i ∧
      (e.strand i).bp.vio.get 0 bank = if 1620 ≤ mv ∧ mv ≤ 1980 then 1 else if 2970 ≤ mv ∧ mv ≤ 3630 then 2 else 0)

/-- A wipe clears VALID at once and leaves the region zero when it completes, 20.5 µs after its start at the earliest (R403).  A tamper source latches its cause, VGLITCH from 1 ms after PORST_N has risen (R490); outside MD11 the Hallmark is wiped, every strand is
OFF and the mode is MD10 (R402, T16).  The life cycle advances one state only, with the key: first the wipe, then the fuses, 2 ms after it at the earliest (R404). -/
def Obligations.Hallmarks : Prop :=
  ∀ (s : State) (dt : Nat) (source : Fin 4) (v : Word) (t : Nat),
    let d := later s dt
    let keyed : Prop := fieldOf v 15 8 = 0x5A ∧ fieldOf v 1 0 = d.hm.lc + 1
    let shut (e : Dev) : Prop := (∀ i, e.phase i = .off) ∧ e.mode = 10 ∧ e.devLock = false ∧ e.holdBy = none
    (d.loupeRuns = true →
      Ends (.hmWipe dt) s (fun e => DevKeeps d e [.hm] ∧ e.hm = { d.hm with valid := false, wiping := true, wipeAt := d.ns }) ∧
      (keyed → d.mode ≠ 10 → d.mode ≠ 11 →
        Ends (.lcAdvanceWrite dt v) s fun e => shut e ∧ (d.lkt = {} → LogHas e 0x1011) ∧
          e.hm = { d.hm with valid := false, wiping := true, wipeAt := d.ns, lcNext := some (fieldOf v 1 0) }) ∧
      (keyed → d.mode = 10 ∨ d.mode = 11 →
        Ends (.lcAdvanceWrite dt v) s fun e => DevKeeps d e [.hm, .loupe, .upd] ∧
          e.hm = { d.hm with valid := false, wiping := true, wipeAt := d.ns, lcNext := some (fieldOf v 1 0) }) ∧
      (¬ keyed → Ends (.lcAdvanceWrite dt v) s fun e => DevKeeps d e [])) ∧
    (d.por = false → (source = 1 → d.hm.roseAt + 1000000 ≤ d.ns) →
      (d.mode ≠ 10 → d.mode ≠ 11 → Ends (.tamper dt source) s fun e => shut e ∧ (d.lkt = {} → LogHas e 0x1010) ∧
        e.hm = { d.hm with valid := false, wiping := true, wipeAt := d.ns, tamper := putBitN d.hm.tamper source true }) ∧
      (d.mode = 11 → Ends (.tamper dt source) s fun e => DevKeeps d e [.hm, .loupe, .upd] ∧ LogHas e 0x1010 ∧
        e.hm = { d.hm with tamper := putBitN d.hm.tamper source true })) ∧
    (source = 1 → d.por = true ∨ d.ns < d.hm.roseAt + 1000000 → Ends (.tamper dt source) s fun e => DevKeeps d e []) ∧
    (d.hm.wiping = true → d.hm.wipeAt + 20500 ≤ d.ns →
      Ends (.wipeComplete dt) s fun e => DevKeeps d e [.hm] ∧ e.hm.mem = [] ∧ e.hm.valid = false ∧ e.hm.wiping = false ∧ e.hm.wipedAt = d.ns ∧
        e.hm.slots = {} ∧ e.hm.lc = d.hm.lc ∧ e.hm.rollback = d.hm.rollback ∧ e.hm.tamper = d.hm.tamper) ∧
    (d.hm.wiping = false ∨ d.ns < d.hm.wipeAt + 20500 → Ends (.wipeComplete dt) s fun e => DevKeeps d e []) ∧
    (d.hm.lcNext = some t → d.hm.wiping = false → d.hm.wipedAt + 2000000 ≤ d.ns →
      Ends (.lifeCycleFusesProgrammed dt) s fun e => DevKeeps d e [.hm] ∧ e.hm = { d.hm with lc := t, lcNext := none }) ∧
    (d.hm.lcNext = none ∨ d.hm.wiping = true ∨ d.ns < d.hm.wipedAt + 2000000 →
      Ends (.lifeCycleFusesProgrammed dt) s fun e => DevKeeps d e [])

/-! ## Lockets -/

/-- A post joins the receiver's queue with the sender's epoch, and marked where a reset of the receiver falls into its cycle; a full queue refuses it with FULL, a second waited post is refused with
BUSY, a waited post takes its time and its TX_TIMEOUT, and crossing waits set CROSSED on both sides and end the junior's (R413, R414, R417, R418, R421).  A read of RX_HI marks the oldest notice READ;
where no crossing and no refused post of the same cycle waits for it, an ACK releases it and ends its sender's wait ACKED; an ACK of an empty queue sets ACK_ERR (R415).  A timeout of a wait, TX_TIMEOUT
after its post at the earliest, ends it as the cycle passes, counts it, is logged unless the once-log holds it back, and leaves the notice queued, waited for no more (R417).  A fence inward cuts the Loupe off: its posts set CUT, its
reads show an empty queue, and its ACK sets ACK_ERR (R424). -/
def Obligations.Lockets : Prop :=
  ∀ (s : State) (dt : Nat) (m : Master) (c : Fin 64) (id : Fin 8) (j : Bool) (hi : Word) (n : Notice) (rest : List Notice),
    let d := later s dt
    let x := d.chan c
    let y := x.side j
    let z := x.side (!j)
    let wait := bitOf hi 24
    let posted : Notice := { ptr := fieldOf hi 15 0 * 2 ^ 32 + y.txLo.toNat, tag := fieldOf hi 23 16, epoch := d.epochs.get 0 m.ident, waited := wait,
                             pendReset := d.thisCyc.idents.contains (x.ident (!j)) }
    let z1 : LktSide := { z with rx := z.rx ++ [posted] }
    let flag (w : LktSide) (b : Nat) : LktSide := { w with flags := setBit w.flags b true }
    let waits (w : LktSide) : LktSide := { w with wait := 1, waitAt := d.ns, waitUs := y.timeout, due := none, again := false }
    let ended (w : LktSide) (code : Nat) : LktSide := { w with wait := code, due := none, flags := setBit w.flags 0 true }
    let count := if j then 1 else 0
    let goes (i : Instr) (y z : LktSide) (k : List Nat) : Prop := Ends i s fun e => DevKeeps d e [.lkt] ∧ ChanIs d e c j y z k
    (AtChannel d m c j →
      (wait = true → y.wait = 1 → goes (.locketPost dt m c hi) (flag y 3) z []) ∧
      (wait = false ∨ y.wait ≠ 1 →
        (4 ≤ z.rx.length → goes (.locketPost dt m c hi) (flag y 2) z [4]) ∧
        (z.rx.length < 4 →
          (wait = false → goes (.locketPost dt m c hi) y z1 [count]) ∧
          (wait = true → z.wait ≠ 1 → goes (.locketPost dt m c hi) (waits y) z1 [count]) ∧
          (wait = true → z.wait = 1 → j = true → goes (.locketPost dt m c hi) (ended (flag (waits y) 1) 4) (flag z1 1) [1, 3]) ∧
          (wait = true → z.wait = 1 → j = false → goes (.locketPost dt m c hi) (flag (waits y) 1) (ended (flag z1 1) 4) [0, 3]))) ∧
      (y.rx = n :: rest →
        Ends (.rxHiRead dt m c) s (fun e => DevKeeps d e [.lkt] ∧ ChanIs d e c j { y with rx := { n with read := true } :: rest } z [] ∧
          Sent d e (.readData (n.epoch % 256 * 2 ^ 24 + n.tag % 256 * 2 ^ 16 + n.ptr / 2 ^ 32 % 2 ^ 16))) ∧
        (d.thisCyc.crossed.get none c = none → d.thisCyc.refused.get none (2 * c + b2n (!j)) = none →
          (n.waited = true → z.wait = 1 → goes (.locketAck dt m c) { y with rx := rest } (ended z 2) []) ∧
          (n.waited = false ∨ z.wait ≠ 1 → goes (.locketAck dt m c) { y with rx := rest } z []))) ∧
      (y.rx = [] → Ends (.rxHiRead dt m c) s (fun e => DevKeeps d e [] ∧ Sent d e (.readData 0)) ∧ goes (.locketAck dt m c) (flag y 4) z [])) ∧
    (d.loupeRuns = true → x.sideOf 0 = some j → d.lktCut x = true →
      goes (.locketPost dt .loupe c hi) (flag y 6) z [] ∧ goes (.locketAck dt .loupe c) (flag y 4) z [] ∧
      Ends (.rxHiRead dt .loupe c) s fun e => DevKeeps d e [] ∧ Sent d e (.readData 0)) ∧
    (x.sideOf id = some j →
      (y.wait = 1 → y.waitAt + 1000 * y.waitUs ≤ d.ns →
        Ends (.locketTimeout dt c id) s fun e => DevKeeps d e [.lkt] ∧ ChanIs d e c j { y with due := some d.ns } z [] ∧
          (id ≠ 0 →
            let b : Dev := { e with ns := e.ns + 1 }
            let f := b.lktTimeEnd c j
            DevKeeps b f [.lkt, .loupe, .upd] ∧ ChanIs b f c j (ended y 3) { z with rx := z.rx.map fun n => { n with waited := false } } [2] ∧
            (d.loupe.once = {} → LogHas f 0x1102))) ∧
      (y.wait ≠ 1 ∨ d.ns < y.waitAt + 1000 * y.waitUs → Ends (.locketTimeout dt c id) s fun e => DevKeeps d e []))

/-! ## The Loupe -/

/-- While the Loupe is awake: TEMP_SAMPLE, 1 ms after the sample before it at the earliest, shows the twelve readings, and a sensor with two samples in a row above TEMP_LIMIT raises the sensor
trigger: from a base mode or MD8 the device goes to MD9 and its RUN strands to HOLD; since when all read 5 °C or more below the limit is kept (R431, R432, R44).  RAIL_SAMPLE shows a strand's rails, every 10 µs (R431).  WEAR_MEASURE, once per
24 h, takes the mean of two readings that agree within 100 ppm, or marks the monitor failed where no two of three do; EQH_UPDATE, once a minute, adds AF / 60 h at the minute's highest reading (R434); a usage of 1 or more is
marked WEAR_OUT (R435).  A sample before its time, or while the Loupe is not awake, changes nothing.  H_OP counts the time in which a strand runs, once it counts at all, and WEAR_RECORD_WRITE writes the record of the next generation to each flash that works (R433). -/
def Obligations.SensorsAndWear : Prop :=
  ∀ (s : State) (dt core serdes r1 r2 r3 : Nat) (i : StrandId) (ts : List Int),
    let d := later s dt
    let near (a b : Nat) : Prop := a ≤ b + 100 ∧ b ≤ a + 100
    let limit : Int := 16 * (fieldOf (d.lrd Reg.LP_CFG) 31 24 : Int)
    let hot (j : Fin 12) : Nat := if limit < ts.getD j 0 then min 2 (d.loupe.hot.get 0 j + 1) else 0
    let w := d.loupe.wear.get i
    let worn (e : Dev) : Prop := (e.usage i).den ≤ (e.usage i).num → (e.loupe.wear.get i).out = true
    let due (last : Option Nat) (span : Nat) : Prop := ∀ t ∈ last, t + span ≤ d.ns
    let wear := Instr.wearMeasure dt i r1 r2 r3
    let none' (c : Instr) : Prop := Ends c s fun e => DevKeeps d e []
    (d.loupeAwake = true →
      (ts.length = 12 → due d.loupe.tempAt (10 ^ 6) → Ends (.tempSample dt ts) s fun e =>
        (∀ j : Fin 12, e.lrd (Reg.TEMP j) = BitVec.ofInt 32 (ts.getD j 0 % 2 ^ 16) ∧ e.loupe.hot.get 0 j = hot j) ∧ e.loupe.tempAt = some d.ns ∧
        e.loupe.coolAt = (if ts.all (fun t => decide (t ≤ limit - 80)) then some (d.loupe.coolAt.getD d.ns) else none) ∧
        (if (∃ j, hot j = 2) ∧ (d.inBase = true ∨ d.mode = 8) then
          e.mode = 9 ∧ e.holdBy = some .sensor ∧ e.holdFrom = d.mode ∧ ∀ i, e.phase i = if d.phase i = .run then .hold else d.phase i
        else DevKeeps d e [.loupe, .upd])) ∧
      (due (d.loupe.railAt.get i) (10 ^ 4) → Ends (.railSample dt i core serdes) s fun e => DevKeeps d e [.loupe] ∧
        e.lrd (Reg.VCORE i) = BitVec.ofNat 32 (core % 4096) ∧ e.lrd (Reg.VSERDES i) = BitVec.ofNat 32 (serdes % 4096) ∧
        e.loupe.railAt = d.loupe.railAt.set i (some d.ns)) ∧
      (due (d.loupe.measuredAt.get i) (86400 * 10 ^ 9) →
        (near r1 r2 → Ends wear s fun e => DevKeeps d e [.loupe, .upd] ∧ worn e ∧ e.loupe.measuredAt = d.loupe.measuredAt.set i (some d.ns) ∧
          (e.loupe.wear.get i).drift = (r1 + r2) / 2 % 2 ^ 20 ∧ (e.loupe.wear.get i).eqh = w.eqh ∧ ∀ j, j ≠ i → e.loupe.wear.get j = d.loupe.wear.get j) ∧
        (¬ near r1 r2 → near r1 r3 ∨ near r2 r3 → Ends wear s fun e => DevKeeps d e [.loupe, .upd] ∧ worn e ∧
          (e.loupe.wear.get i).drift = ((if r1 ≤ r3 + 100 ∧ r3 ≤ r1 + 100 then r1 else r2) + r3) / 2 % 2 ^ 20) ∧
        (¬ near r1 r2 → ¬ near r1 r3 → ¬ near r2 r3 → Ends wear s fun e => DevKeeps d e [.loupe, .upd] ∧ LogHas e 0x1212 ∧
          e.lbit Reg.LP_FLAGS 4 = true ∧ e.loupe.wear.get i = { w with monFail := true })) ∧
      (due d.loupe.eqhAt (60 * 10 ^ 9) → Ends (.eqhUpdate dt) s fun e => DevKeeps d e [.loupe, .upd] ∧ (∀ t ∈ d.loupe.peak.get i, worn e) ∧
        e.loupe.hopNs = d.loupe.hopNs ∧ e.loupe.eqhAt = some d.ns ∧
        ∀ j, e.loupe.peak.get j = none ∧ (e.loupe.wear.get j).drift = (d.loupe.wear.get j).drift ∧
          (e.loupe.wear.get j).eqh = (d.loupe.wear.get j).eqh + (match d.loupe.peak.get j with
            | some t => agingFactor t / 60
            | none => 0))) ∧
    (d.loupeAwake = false → ∀ c ∈ ([.tempSample dt ts, .railSample dt i core serdes, wear, .eqhUpdate dt] : List Instr), none' c) ∧
    (ts.length ≠ 12 ∨ ¬ due d.loupe.tempAt (10 ^ 6) → none' (.tempSample dt ts)) ∧
    (¬ due (d.loupe.railAt.get i) (10 ^ 4) → none' (.railSample dt i core serdes)) ∧
    (¬ due (d.loupe.measuredAt.get i) (86400 * 10 ^ 9) → none' wear) ∧
    (¬ due d.loupe.eqhAt (60 * 10 ^ 9) → none' (.eqhUpdate dt)) ∧
    d.loupe.hopNs = s.dev.loupe.hopNs + (if s.dev.loupe.counting = true ∧ ∃ j, s.dev.phase j = .run then dt else 0) ∧
    (d.por = false →
      let gen (b : Bool) : Nat := (((d.flash b).wear).map (·.gen)).getD 0
      Ends (.wearRecordWrite dt) s fun e => DevKeeps d e [.loupe, .flashes] ∧ ∀ b,
        e.flash b = if (d.flash b).works then
          { d.flash b with wear := some { gen := max (gen false) (gen true) + 1, hopNs := d.loupe.hopNs, pcyc := d.loupe.pcyc, wear := d.loupe.wear,
                                          banks := e.loupe.wearBanks, logNum := (d.loupe.nextNum + 2 ^ 32 - 1) % 2 ^ 32 } }
        else d.flash b)

/-- LOG_FLUSH appends the waiting records to each flash that takes the log; a second failed write stops the log of that flash alone; with nothing waiting, or no flash that takes the log, it changes nothing (R439).
LOUPE_TIME_COPY, once per second while the Loupe is awake, takes the source strand's time while that time is certain and no fence inward hides it, and else changes nothing; TIME_UNC returns after 3,600 s without a copy, not before (R32, R440).
A nonce expires after 60 s, not before (R445).  The service port follows its link (R443). -/
def Obligations.LogTimeAndNonce : Prop :=
  ∀ (s : State) (dt failA failB : Nat) (up : Bool),
    let d := later s dt
    let src : StrandId := Fin.ofNat 4 (fieldOf (d.lrd Reg.LP_CFG) 23 22)
    let copies : Prop := d.loupeAwake = true ∧ d.timeSourceOk = true ∧ (d.supOf src).fenceIn = false ∧ ∀ t ∈ d.loupe.copyAt, t + 10 ^ 9 ≤ d.ns
    (d.por = false → d.loupe.unflushed ≠ 0 → (∃ b, (d.flash b).logs = true) →
      Ends (.logFlush dt failA failB) s fun e => DevKeeps d e [.loupe, .flashes] ∧
        (∀ b, e.flash b =
          if (d.flash b).logs = false then d.flash b
          else if 2 ≤ (if b then failB else failA) then { d.flash b with logStop := true }
          else { d.flash b with log := logAppend (d.flash b).log (d.loupe.log.drop (d.loupe.log.length - d.loupe.unflushed)) }) ∧
        (failA = 0 → failB = 0 → d.loupe.lostPend = false → e.loupe.unflushed = 0 ∧ e.loupe.log = d.loupe.log) ∧
        ((d.flash false).logs = true → 2 ≤ failA → LogHas e 0x1209 ∧ e.lbit Reg.LP_FLAGS 1 = true)) ∧
    (d.por = true ∨ d.loupe.unflushed = 0 ∨ (∀ b, (d.flash b).logs = false) → Ends (.logFlush dt failA failB) s fun e => DevKeeps d e []) ∧
    (copies → Ends (.loupeTimeCopy dt) s fun e => DevKeeps d e [.loupe] ∧ e.loupeNs = (d.strand src).tNs ∧ e.loupe.timeUnc = false ∧
      e.loupe.timeAt = d.ns ∧ e.loupe.copyAt = some d.ns) ∧
    (¬ copies → Ends (.loupeTimeCopy dt) s fun e => DevKeeps d e []) ∧
    (d.loupe.timeAt + 3600 * 10 ^ 9 ≤ d.ns →
      Ends (.timeUncTimeout dt) s fun e => DevKeeps d e [.loupe] ∧ e.loupe = { d.loupe with timeUnc := true }) ∧
    (d.ns < d.loupe.timeAt + 3600 * 10 ^ 9 → Ends (.timeUncTimeout dt) s fun e => DevKeeps d e []) ∧
    (d.loupe.nonceAt + 60 * 10 ^ 9 ≤ d.ns →
      Ends (.nonceExpiry dt) s fun e => DevKeeps d e [.loupe] ∧ e.loupe = { d.loupe with nonce := none }) ∧
    (d.ns < d.loupe.nonceAt + 60 * 10 ^ 9 → Ends (.nonceExpiry dt) s fun e => DevKeeps d e []) ∧
    (d.por = false → d.mode ≠ 0 → Ends (.servicePortLinkChange dt up) s fun e => DevKeeps d e [.loupe] ∧ e.loupe = { d.loupe with svcLink := up }) ∧
    (d.por = true ∨ d.mode = 0 → Ends (.servicePortLinkChange dt up) s fun e => DevKeeps d e [])

/-! ## Ngufotu -/

/-- Each query answers with its body and changes nothing else but what its reads do (R448, R256); GET_NONCE issues the next nonce (R445).  Any operation is answered BAD_FORMAT where the length a host gave does not fit the message,
MODE_REFUSED where the mode does not serve it, AUTH_REQUIRED, SIGNATURE and NONCE where its signature does not permit it, without its effect (R429, R444, R445, R446); a repeated request gets its kept response, and one
above 500 in a second is discarded (R447).  A message that no operation takes is answered or discarded (R444, R448), and REQ_LEN submits a host's request or sets REJECT (R450).  On a strand path the request is read from its exchange bank; a
response that is ready takes the bank from the core, is written at the request's address, returns the bank, and ends with the acknowledgement of the notice (R442). -/
def Obligations.NgufotuQueries : Prop :=
  ∀ (s : State) (dt : Nat) (h : NguHdr) (i : StrandId) (a n len path txn op : Nat) (b : Bool) (start : StartIn) (u : SnapUnit) (k : KeptResp) (body : List Byte)
    (x : Exchange),
    let d := later s h.gap
    let r := d.heard h.path
    let query (c : Instr) (op : Nat) (body : List Byte) : Prop := Permits d h op true → Ends c s fun e => DevKeeps (told d h op 0 body) e [.loupe] ∧
      Answered d e h op 0 body ∧ e.loupe.log = r.loupe.log ∧
      e.loupe.kept.getLast? = some { path := h.path, txn := h.txn, at_ := d.ns, op := op, status := 0, body := body }
    let all : List (Instr × Nat × Bool) := [(.getIdentity h, 1, true), (.getStatus h, 2, true), (.getNonce h, 3, true), (.readReg h a n, 4, true), (.readLog h a n, 5, true),
      (.readSensors h, 6, true), (.readWear h, 7, true), (.readLoadRecord h i, 8, true), (.nguSnap h u, 0x100, false), (.fence h i, 0x101, false), (.rejoin h i, 0x102, false),
      (.safeHold h, 0x103, false), (.release h, 0x104, false), (.restart h start, 0x105, false), (.shutdown h, 0x106, false), (.recover h, 0x107, false),
      (.claspRestart h, 0x108, false), (.nguStrandWarm h i, 0x109, false), (.nguStrandCold h i, 0x10A, false), (.nguLoupeReset h, 0x10B, false), (.setTime h n, 0x10C, false),
      (.updateBegin h n, 0x201, false), (.updateAbort h n, 0x202, false), (.activate h n a, 0x203, false), (.cancel h n, 0x204, false), (.confirm h, 0x205, false),
      (.revert h n start, 0x206, false), (.enrol h body, 0x300, false), (.lcAdvance h n, 0x301, false)]
    (Arrives d h →
      query (.getIdentity h) 1 r.identityBody ∧ query (.getStatus h) 2 r.statusBody ∧ query (.readSensors h) 6 r.sensorBody ∧
      query (.readWear h) 7 r.wearBody ∧ query (.readLoadRecord h i) 8 (r.loadBody i) ∧
      (0 < n → n ≤ 32 → (∀ j < n, (r.findLog (a + j)).isSome = true) → query (.readLog h a n) 5 (r.readLogBody a n)) ∧
      (Permits d h 3 true →
        let body := beBytes 4 (Config.nonce d.loupe.nonces).toNat
        Ends (.getNonce h) s fun e => DevKeeps (told d h 3 0 body) e [.loupe] ∧ Answered d e h 3 0 body ∧
          e.loupe.nonce = some (Config.nonce d.loupe.nonces).toNat ∧ e.loupe.nonceAt = d.ns ∧ e.loupe.nonces = d.loupe.nonces + 1) ∧
      (Permits d h 4 true → 0 < n → n ≤ 64 → a % 4 = 0 → 0x50020000 ≤ a ∨ a + 4 * n ≤ 0x50000000 →
        Ends (.readReg h a n) s fun e => DevKeeps d e [.loupe, .lkt, .strands, .upd] ∧ Sent d e (.answer 4 0 ((r.countMsg.readWords a n).1.flatMap wordBE))) ∧
      (∀ p ∈ all,
        let stop (status : Nat) : Prop := Ends p.1 s fun e => DevKeeps (told d h p.2.1 status []) e [.loupe] ∧ Answered d e h p.2.1 status []
        (d.nguServed p.2.1 = false → stop 3) ∧
        (d.nguServed p.2.1 = true →
          (h.signed = false → 0x300 ≤ p.2.1 ∨ (p.2.2 = false ∧ 2 ≤ h.path) → stop 9) ∧
          (h.signed = true → d.nguKeyOk h p.2.1 = false → stop 4) ∧
          (h.signed = true → d.nguKeyOk h p.2.1 = true → d.nonceOk h.nonce = false → stop 5)))) ∧
    (∀ p ∈ all,
      (d.nguPath h.path = false → Ends p.1 s fun e => DevKeeps d e []) ∧
      (d.nguPath h.path = true → d.rateFull = true → Ends p.1 s fun e => DevKeeps (dropped d h.path) e [.loupe] ∧
        ∀ b, h.path = b2n b → (e.link b).busy = false ∧ (e.link b).reject = true) ∧
      (d.nguPath h.path = true → d.rateFull = false →
        (d.keptResp h = some k → Ends p.1 s fun e => DevKeeps (told d h k.op k.status k.body) e [.loupe] ∧ Answered d e h k.op k.status k.body) ∧
        (d.keptResp h = none → d.lengthOk h = false →
          Ends p.1 s fun e => DevKeeps (told d h p.2.1 1 []) e [.loupe] ∧ Answered d e h p.2.1 1 []))) ∧
    (let g : NguHdr := { path := path, txn := txn }
     let bad (c : Instr) (status : Nat) : Prop :=
      (d.keptResp g = none → Ends c s fun e => DevKeeps (told d g op status []) e [.loupe] ∧ Answered d e g op status []) ∧
      (d.keptResp g = some k → Ends c s fun e => DevKeeps (told d g k.op k.status k.body) e [.loupe] ∧ Answered d e g k.op k.status k.body)
     let gone (c : Instr) : Prop := Ends c s fun e => DevKeeps (dropped (d.heard path) path) e [.loupe] ∧
      ∀ b, path = b2n b → (e.link b).busy = false ∧ (e.link b).reject = true
     (d.nguPath path = true → d.rateFull = false →
      bad (.ngufotuMessage h.gap path txn (.badOp op)) 2 ∧ bad (.ngufotuMessage h.gap path txn (.badFormat op)) 1 ∧
      bad (.ngufotuMessage h.gap path txn (.badSignature op)) 4 ∧ gone (.ngufotuMessage h.gap path txn .wrongTarget) ∧
      (path < 2 → bad (.ngufotuMessage h.gap path txn (.response op)) 1) ∧ (2 ≤ path → gone (.ngufotuMessage h.gap path txn (.response op)))) ∧
     Ends (.ngufotuMessage h.gap 2 txn .badFrame) s fun e =>
      if d.nguPath 2 then DevKeeps d e [.loupe] ∧ e.loupe.cnt.get 0 64 = min counterMax (d.loupe.cnt.get 0 64 + 1) else DevKeeps d e []) ∧
    (let d := later s dt
     let y := d.link b
     (d.linkOpen b = true → d.mailboxOn = true →
      (y.busy = false → 32 ≤ len → len ≤ 1441 → Ends (.reqLenWrite dt b len) s fun e => DevKeeps d e [] ∧
        (e.link b).busy = true ∧ (e.link b).done = false ∧ (e.link b).reqLen = len ∧ (e.link b).reqBuf = y.reqBuf) ∧
      (y.busy = true ∨ len < 32 ∨ 1441 < len → Ends (.reqLenWrite dt b len) s fun e => DevKeeps d e [] ∧
        (e.link b).reject = true ∧ (e.link b).busy = y.busy ∧ (e.link b).reqLen = y.reqLen)) ∧
     (d.linkOpen b = false ∨ d.mailboxOn = false → Ends (.reqLenWrite dt b len) s fun e => DevKeeps d e [])) ∧
    ((d.strand i).banks.exch = some x → x.resp = some body → (d.supOf i).fenceIn = false → (d.strand i).bankHo x.bank = 0 → x.bank < 48 →
      Idle d i → (view d i).thisCyc.hand.get none x.bank = none →
      let e := d.exchangeMove i
      let y := e.strand i
      (x.back = false → (d.strand i).bankOwner x.bank = 1 → (view d i).imageBank x.bank = false →
        Only d e i [.regs, .banks] ∧ y.bankHo x.bank = 1 ∧ y.bit (Reg.BANK_OWNER x.bank) 15 = true ∧ y.banks.pendTo.get (0, 0) x.bank = (6, 0) ∧ y.banks.exch = some x) ∧
      (x.back = false → (d.strand i).bankOwner x.bank = 6 → (d.strand i).bankPwr x.bank = 0 → Memory.wf (d.strand i).banks.mem = true →
        bankNo x.addr = x.bank → x.addr % bankSize + body.length ≤ bankSize → (d.strand i).banks.ecc = {} →
        StrandFrame d e i ∧ Memory.read y.banks.mem x.addr body.length = body ∧ MemBut (d.strand i).banks.mem y.banks.mem x.addr body.length ∧
        y.bankHo x.bank = 1 ∧ y.banks.pendTo.get (0, 0) x.bank = (1, 0) ∧ y.banks.exch = some { x with back := true }) ∧
      (x.back = true → (d.strand i).bankOwner x.bank = 1 → DevKeeps ((d.lktAck x.chan 0).setExchange i none) e []))

/-- The commands of Ngufotu: each answers OK and has its effect where its condition on the mode or the strand holds, and answers MODE_REFUSED without it where it does not (R34, R36, R44, R45, R332,
R440, R448, R508); a STRAND_WARM or STRAND_COLD of a strand fenced inward, and a STRAND_COLD in a cycle with a fence of the strand, are answered and do nothing (R32, R43); SHUTDOWN is refused on a path that is no host's (R448).  A signed command uses up its nonce (R445). -/
def Obligations.NgufotuCommands : Prop :=
  ∀ (s : State) (h : NguHdr) (i : StrandId) (ns : Nat) (start : StartIn) (u : StrandUnit) (v : SnapUnit),
    let d := later s h.gap
    let r := d.heard h.path
    let q (op : Nat) : Dev := told d h op 0 []
    let ok (c : Instr) (op : Nat) (P : Dev → Prop) : Prop := Permits d h op false →
      Ends c s fun e => Sent d e (.answer op 0 []) ∧ (h.signed = true → e.loupe.nonce = none) ∧ P e
    let no (c : Instr) (op status : Nat) : Prop := Permits d h op false → Ends c s fun e => Answered d e h op status [] ∧ DevKeeps (told d h op status []) e [.loupe]
    let fresh (op : Nat) (e : Dev) : Prop := OthersKept (q op) e i ∧ e.mode = d.mode ∧ (e.supOf i).lock = false ∧ (e.strand i).core = {} ∧ (e.strand i).dma = {} ∧
      (e.strand i).banks.mem = []
    let running : Prop := (4 ≤ d.mode ∧ d.mode ≤ 9)
    let stays : Prop := (d.supOf i).fenceIn = true ∨ i.val ∈ d.thisCyc.fenced
    let back (e : Dev) : Bool := d.returnMode == 8 && !d.configured.isEmpty && (d.configured.all fun j => e.phase j = .run) &&
      (!(d.base == 5 || d.base == 6) || (d.inStep false && d.inStep true))
    Arrives d h →
    (Permits d h 0x100 false →
      Ends (.nguSnap h v) s (fun e => Sent d e (.answer 0x100 0 (r.countMsg.snapBody v))) ∧
      Ends (.nguSnap h .clasp) s (fun e => DevKeeps (told d h 0x100 0 (r.snapBody .clasp)) e [.loupe] ∧ Answered d e h 0x100 0 (r.snapBody .clasp) ∧
        SnapTaken r.thisCyc.clasp r.clasp.cnt r.clasp.snap e.clasp.cnt e.clasp.snap 0 0x1000) ∧
      (Reaches d .loupe i →
        let q := told d h 0x100 0 (r.snapBody (.strand i u))
        Ends (.nguSnap h (.strand i u)) s fun e => DevKeeps q e [.loupe, .strands, .upd] ∧ OthersKept q e i ∧ Answered d e h 0x100 0 (r.snapBody (.strand i u)) ∧
          SnapTaken (view q i).thisCyc.c (q.strand i).cnt (q.strand i).snap (e.strand i).cnt (e.strand i).snap u.range.1 u.range.2)) ∧
    (d.phase i ≠ .off → d.phase i ≠ .fenced →
      (d.thisCyc.before.get none i = none →
        ok (.fence h i) 0x101 fun e => e.phase i = .fenced ∧ (e.supOf i).fenceOut = true ∧ bitOf (e.supOf i).cause 12 = true ∧ (e.strand i).banks.mem = [] ∧
          (∀ j, j ≠ i → e.phase j = d.phase j ∨ (d.phase j = .run ∧ e.phase j = .hold ∧ e.mode = 9))) ∧
      ((d.supOf i).fenceIn = false →
        ok (.nguStrandWarm h i) 0x109 fun e => fresh 0x109 e ∧ e.phase i = .loading ∧ (e.supOf i).lastReset = 1 ∧ (e.strand i).ledger = (d.strand i).ledger) ∧
      ((d.supOf i).fenceIn = true → ok (.nguStrandWarm h i) 0x109 fun e => DevKeeps (q 0x109) e [.loupe])) ∧
    (d.phase i = .off ∨ d.phase i = .fenced → no (.fence h i) 0x101 3 ∧ no (.nguStrandWarm h i) 0x109 3) ∧
    (¬ stays → ok (.nguStrandCold h i) 0x10A fun e => fresh 0x10A e ∧ e.phase i = .off ∧ (e.supOf i).lastReset = 2 ∧ (e.strand i).ledger = Ledger.cleared) ∧
    (stays → ok (.nguStrandCold h i) 0x10A fun e => DevKeeps (q 0x10A) e [.loupe]) ∧
    (d.mode = 8 → d.phase i = .fenced → i.val ∉ d.thisCyc.fenced → ok (.rejoin h i) 0x102 fun e => fresh 0x102 e ∧ e.phase i = .off ∧ (e.supOf i).rejoin = true) ∧
    (d.mode ≠ 8 ∨ d.phase i ≠ .fenced → no (.rejoin h i) 0x102 3) ∧
    (4 ≤ d.mode → d.mode ≤ 8 → ok (.safeHold h) 0x103 fun e => e.mode = 9 ∧ e.holdBy = some .safeHold ∧ e.holdFrom = d.mode ∧
      ∀ j, e.phase j = if d.phase j = .run then .hold else d.phase j) ∧
    (d.mode < 4 ∨ 8 < d.mode → no (.safeHold h) 0x103 3) ∧
    (d.mode = 9 → d.base ≠ 0 → d.triggerGone = true → (∃ j ∈ d.configured, d.phase j ≠ .fenced) →
      ok (.release h) 0x104 fun e => e.mode = (if back e then d.base else d.returnMode) ∧ e.holdBy = none ∧
        ∀ j, e.phase j = if d.phase j = .hold then .run else d.phase j) ∧
    (d.mode ≠ 9 ∨ d.base = 0 ∨ d.triggerGone = false ∨ (∀ j ∈ d.configured, d.phase j = .fenced) → no (.release h) 0x104 3) ∧
    (running →
      ok (.restart h start) 0x105 (fun e => (e.mode = 1 ∨ e.mode = 2 ∨ e.mode = 3) ∧ e.loupe.sram = [] ∧ e.loupe.kept = [] ∧ e.loupe.lastReset = 3 ∧
        ∀ j, (e.phase j ≠ .run ∨ (d.supOf j).fenceIn = true) ∧
          (e.mode ≠ 1 → e.cfg.ok = false ∨ bitN e.cfg.strands j = true → (e.strand j).ledger = (d.strand j).ledger)) ∧
      (h.path < 2 → ok (.shutdown h) 0x106 fun e => e.mode = 0 ∧ e.devLock = false ∧ e.holdBy = none ∧ (e.link false).up = false ∧ (e.link true).up = false ∧
        ∀ j, e.phase j = .off ∧ (e.strand j).ledger = (d.strand j).ledger)) ∧
    (¬ running → no (.restart h start) 0x105 3 ∧ (h.path < 2 → no (.shutdown h) 0x106 3)) ∧
    (2 ≤ h.path → no (.shutdown h) 0x106 8) ∧
    (d.mode = 10 → d.hm.lc ≠ 3 → ok (.recover h) 0x107 fun e => e.mode = 1 ∧ e.loupe.firmware = false ∧
      ((∀ j, d.phase j = .off) → e.sup = d.sup ∧ e.strands = (q 0x107).strands)) ∧
    (d.mode ≠ 10 ∨ d.hm.lc = 3 → no (.recover h) 0x107 3) ∧
    ok (.claspRestart h) 0x108 (fun e => DevKeeps (q 0x108) e [.loupe] ∧ e.clasp.fenced = false ∧ LogHas e 0x120B) ∧
    ok (.nguLoupeReset h) 0x10B (fun e => e.loupe.sram = [] ∧ e.loupe.kept = [] ∧ e.loupe.nonce = none ∧ e.loupe.lastReset = 3 ∧
      (d.mode ≠ 2 → d.mode ≠ 3 → e.sup = d.sup ∧ e.mode = d.mode ∧ ∀ j, noExch (e.strand j) = noExch ((q 0x10B).strand j))) ∧
    ok (.setTime h ns) 0x10C (fun e => DevKeeps (q 0x10C) e [.loupe] ∧ e.loupeNs = ns ∧ LogHas e 0x120B)

/-! ## Updates and the relay -/

/-- UPDATE_BEGIN opens a session without a header or is refused and logged (R467); UPDATE_ABORT closes it (R479); ACTIVATE arms a COMPLETE session and CANCEL returns it, each with its UPD_RESULT where it cannot
(R472, R479).  CONFIRM, or a trial that has held for T_CONFIRM, writes a CONFIRMED boot record and advances the rollback counter (R473, R474); REVERT applies revert() to the record, and in a base mode, MD8 or MD9 restarts (R475).  An activation whose time has come writes the record of the
session's slot or copy in TRIAL, and from these modes restarts, the image tried once where it passes (R472, R458); a failed trial restarts from them 1 s after the failure (R473); before its time each of the three does nothing.  A strand that the new configuration names keeps its ledger in such a restart, unless it ends in MD1 (R353).  ENROL fills an empty Hallmark, LC_ADVANCE answers and then advances (R478). -/
def Obligations.UpdateOperations : Prop :=
  ∀ (s : State) (h : NguHdr) (dt sess due verdict target p : Nat) (start : StartIn) (body : List Byte),
    let d := later s h.gap
    let b := d.upd.boot
    let x := d.upd.session
    let holds : Bool := decide (x.state ≠ 0 ∧ x.id = sess)
    let up (e : Dev) : Prop := e.mode = 1 ∨ e.mode = 2 ∨ e.mode = 3
    let runs (d : Dev) : Prop := 4 ≤ d.mode ∧ d.mode ≤ 9
    let ok (c : Instr) (op : Nat) (P : Dev → Prop) : Prop := Permits d h op false → Ends c s fun e => Sent d e (.answer op 0 [0]) ∧ P e
    let no (c : Instr) (op r : Nat) : Prop := Permits d h op false → Ends c s fun e => Answered d e h op 0 [BitVec.ofNat 8 r] ∧ DevKeeps (told d h op 0 [BitVec.ofNat 8 r]) e [.loupe]
    let q (op : Nat) : Dev := told d h op 0 [0]
    let opens : Nat := if b.trial then 5 else if x.state = 4 then 10 else if (d.flash false).works || (d.flash true).works then 0 else 8
    let arms : Nat := if !holds then 3 else if b.trial then 5 else if x.state < 3 then 4 else if due ≠ 0 ∧ d.loupe.timeUnc = true then 6 else 0
    let sealed (d e : Dev) : Prop := e.upd.boot = { d.upd.boot with trial := false, tries := 0, gen := e.upd.boot.gen } ∧ e.upd.trial = false ∧ LogHas e 0x1307 ∧
      (∀ f, (d.flash f).works = true → (e.flash f).boot = some e.upd.boot) ∧
      let i := d.areaInfo d.upd.boot.active
      e.hm.rollback.get 0 i.rbIdx = max (d.hm.rollback.get 0 i.rbIdx) i.secver
    (Arrives d h →
      (opens = 0 → ok (.updateBegin h sess) 0x201 fun e => DevKeeps (q 0x201) e [.loupe, .upd] ∧ LogHas e 0x1310 ∧ e.upd.boot = b ∧
        e.upd.session.id = sess ∧ e.upd.session.state = 1 ∧ e.upd.session.header = none ∧ e.upd.session.stored = []) ∧
      (opens ≠ 0 → Permits d h 0x201 false → Ends (.updateBegin h sess) s fun e => Answered d e h 0x201 0 [BitVec.ofNat 8 opens] ∧ DevKeeps (told d h 0x201 0 [BitVec.ofNat 8 opens]) e [.loupe, .upd] ∧
        LogHas e 0x1315 ∧ e.upd.session = x ∧ bitOf (e.urd Reg.UPD_FLAGS) 2 = true) ∧
      (holds = true → ok (.updateAbort h sess) 0x202 fun e => DevKeeps (q 0x202) e [.loupe, .upd] ∧ e.upd.session = { x with state := 0, stored := [] }) ∧
      (holds = false → no (.updateAbort h sess) 0x202 3) ∧
      (arms = 0 → ok (.activate h sess due) 0x203 fun e => DevKeeps (q 0x203) e [.loupe, .upd] ∧ e.upd.session = { x with state := 4, at_ := due } ∧ e.upd.boot = b) ∧
      (arms ≠ 0 → no (.activate h sess due) 0x203 arms) ∧
      (holds = true → x.state = 4 → ok (.cancel h sess) 0x204 fun e => DevKeeps (q 0x204) e [.loupe, .upd] ∧ e.upd.session = { x with state := 3 }) ∧
      (holds = true → x.state ≠ 4 → no (.cancel h sess) 0x204 4) ∧
      (holds = false → no (.cancel h sess) 0x204 3) ∧
      (b.trial = true → ok (.confirm h) 0x205 fun e => DevKeeps (q 0x205) e [.loupe, .upd, .flashes, .hm] ∧ sealed d e) ∧
      (b.trial = false → no (.confirm h) 0x205 3) ∧
      (b.prev = none → no (.revert h verdict start) 0x206 9) ∧
      (b.prev = some p → verdict ≠ 1 → verdict ≠ 2 → d.hm.rollback.get 0 (d.areaInfo p).rbIdx ≤ (d.areaInfo p).secver →
        ok (.revert h verdict start) 0x206 fun e => (runs d → up e) ∧ ∀ f, (d.flash f).works = true →
          (e.flash f).boot = some { b with active := p, prev := none, trial := false, tries := 0, cfgCur := b.cfgPrev.getD b.cfgCur, cfgPrev := none,
                                            gen := (((e.flash f).boot).map (·.gen)).getD 0 }) ∧
      (b.prev = some p → verdict = 2 ∨ (verdict ≠ 1 ∧ (d.areaInfo p).secver < d.hm.rollback.get 0 (d.areaInfo p).rbIdx) → no (.revert h verdict start) 0x206 2) ∧
      (b.prev = some p → verdict = 1 → no (.revert h verdict start) 0x206 1) ∧
      (Permits d h 0x300 false → (2 ≤ d.mode ∧ d.mode ≤ 9) ∨ d.mode = 11 →
        (d.hm.lc ≠ 3 → d.hm.valid = false → enrolBody body = true → Ends (.enrol h body) s fun e => (h.path < 16 → DevKeeps d e [.loupe, .hm]) ∧ LogHas e 0x1320 ∧
          e.hm.valid = true ∧ e.hm.enrolGen = (d.hm.enrolGen + 1) % 256 ∧ e.hm.lc = d.hm.lc ∧
          ∀ k < body.length / 52, e.hm.slots.get 0 k = leNum ((body.drop (52 * k + 48)).take 4)) ∧
        (d.hm.lc = 3 ∨ d.hm.valid = true → Ends (.enrol h body) s fun e => Answered d e h 0x300 8 [] ∧ DevKeeps (told d h 0x300 8 []) e [.loupe]) ∧
        (d.hm.lc ≠ 3 → d.hm.valid = false → enrolBody body = false → Ends (.enrol h body) s fun e => Answered d e h 0x300 1 [] ∧ DevKeeps (told d h 0x300 1 []) e [.loupe])) ∧
      (Permits d h 0x301 false → (2 ≤ d.mode ∧ d.mode ≤ 9) ∨ d.mode = 11 →
        (d.hm.lc ≠ 3 → target % 4 = d.hm.lc + 1 → Ends (.lcAdvance h target) s fun e => Sent d e (.answer 0x301 0 [0]) ∧
          e.hm = { d.hm with valid := false, wiping := true, wipeAt := d.ns, lcNext := some (target % 4) } ∧ (d.mode ≠ 11 → e.mode = 10 ∧ ∀ i, e.phase i = .off) ∧ (d.mode = 11 → e.mode = 11)) ∧
        (d.hm.lc ≠ 3 → target % 4 ≠ d.hm.lc + 1 → Ends (.lcAdvance h target) s fun e => Sent d e (.answer 0x301 0 [0]) ∧ DevKeeps (q 0x301) e [.loupe]) ∧
        (d.hm.lc = 3 → Ends (.lcAdvance h target) s fun e => Answered d e h 0x301 8 [] ∧ DevKeeps (told d h 0x301 8 []) e [.loupe]))) ∧
    (let d := later s dt
     let b := d.upd.boot
     let x := d.upd.session
     let r : BootRec := if x.area < 2 then { b with active := x.area, prev := some b.active, trial := true, tries := 0, cfgPrev := none }
       else { b with prev := some b.active, cfgPrev := some b.cfgCur, cfgCur := x.area - 2, trial := true, tries := 0 }
     let kept (e : Dev) : Prop := ∀ i : StrandId, e.mode ≠ 1 → e.cfg.ok = false ∨ bitN e.cfg.strands i = true → (e.strand i).ledger = (d.strand i).ledger
     (x.state = 4 → x.at_ ≤ d.loupeNs →
       (¬ runs d → Ends (.activationDue dt start) s fun e => DevKeeps d e [.loupe, .upd, .flashes] ∧ LogHas e 0x1308 ∧ e.upd.session = { x with state := 3 } ∧
         e.upd.boot = { r with gen := e.upd.boot.gen } ∧ e.upd.lastActive = some (x.id, x.area)) ∧
       (runs d → Ends (.activationDue dt start) s fun e => up e ∧ kept e ∧ e.upd.lastActive = some (x.id, x.area)) ∧
       (runs d → (∃ f, (d.flash f).works = true) → d.slotOk start r.active = true → Ends (.activationDue dt start) s fun e => (e.mode = 2 ∨ e.mode = 3) ∧
         e.upd.session = { x with state := 3 } ∧ e.upd.boot = { r with tries := 1, gen := e.upd.boot.gen })) ∧
     (x.state ≠ 4 ∨ d.loupeNs < x.at_ → Ends (.activationDue dt start) s fun e => DevKeeps d e []) ∧
     (let held : Prop := d.upd.trialAt + fieldOf (d.urd Reg.UPD_CFG) 15 0 * 10 ^ 9 ≤ d.ns
      (d.upd.trial = true → b.trial = true → held → Ends (.trialConfirmDue dt) s fun e => DevKeeps d e [.loupe, .upd, .flashes, .hm] ∧ sealed d e) ∧
      (d.upd.trial = false ∨ b.trial = false ∨ ¬ held → Ends (.trialConfirmDue dt) s fun e => DevKeeps d e [])) ∧
     (d.upd.failed = true → d.upd.trialAt + 10 ^ 9 ≤ d.ns →
       Ends (.trialRestartDue dt start) s fun e => (runs d → up e ∧ kept e) ∧ (¬ runs d → DevKeeps d e [.upd] ∧ e.upd = { d.upd with failed := false })) ∧
     (d.upd.failed = false ∨ d.ns < d.upd.trialAt + 10 ^ 9 → Ends (.trialRestartDue dt start) s fun e => DevKeeps d e []))

/-- A relay BLOCK of the open session is stored in both flashes and queued on the DOWN paths, and the last one starts verification; one already stored counts as duplicate (R468, R469); a BLOCK at OFFSET 0 of a new session may open it with its
header (R467).  Requested blocks enter a DOWN path's queue in rising order while it has room, and leave it one by one, RELAY_RATE in a second (R469).  STATE of a downstream device goes upstream with HOP + 1, and the device's own every 60 s (R469).  Missing ranges are requested once a gap is 2 s or the silence
10 s old, repeated once 10 s later, then the other UP path or UP_LOST, under which every 60 s the request goes out on each UP path (R470).  A right copy of the image makes the session COMPLETE, no right copy empties it (R471).  A timer before its time, or without its
condition, does nothing. -/
def Obligations.Relay : Prop :=
  ∀ (s : State) (dt sess off hop total outcome serial state stored verS verA copyA copyB : Nat) (path p : Nat) (data : List Byte) (sig : Bool) (ranges : List (Nat × Nat)) (i : ImgInfo)
    (it : RelayItem) (rest : List RelayItem),
    let d := later s dt
    let x := d.upd.session
    let k := off / 1024
    let host : Prop := path = 4 ∨ path = 5
    let arrives : Prop := ((host ∧ d.nguPath (path - 4) = true) ∨ (path < 2 ∧ d.pathOpen path = true)) ∧ d.rateFull = false
    let passes : Prop := d.relayOn = true ∧ hop < 32 ∧ off % 1024 = 0 ∧ data ≠ [] ∧ data.length ≤ 1024
    let block (P : Dev → Prop) : Prop := Ends (.relayBlock dt path sess off hop total 0 0 data sig) s P
    let down : Prop := d.relayOn = true ∧ (p = 2 ∨ p = 3) ∧ d.pathOpen p = true
    let y := d.downPath p
    let item (area k : Nat) : RelayItem := { sess := sess, blk := k, hop := none, data := d.readBlock area k }
    let sent (queue : List RelayItem) (marks : List Nat) : RelayPath :=
      { y with queue := queue, marks := marks, freeAt := d.ns + 10 ^ 9 / max 1 (fieldOf (d.urd Reg.UPD_CFG) 23 16) }
    let alive : Prop := (d.flash false).works = true ∨ (d.flash true).works = true
    let put (f : Flash) (area : Nat) : Flash := if f.works then { f with blocks := storeBytes f.blocks area (1024 * k) data (data.length / 1024 + 2) } else f
    (arrives →
      (¬ passes → block fun e => DevKeeps d e [.loupe]) ∧
      (passes → x.state ≠ 0 → x.id = sess → x.header = some i →
        (k ∈ x.stored → block fun e => DevKeeps d e [.loupe, .upd] ∧ e.upd.session = x ∧ e.upd.cnt.get 0 16 = min counterMax (d.upd.cnt.get 0 16 + 1)) ∧
        (k ∉ x.stored → x.state ≠ 1 ∨ x.total ≤ off ∨ total ≠ x.total ∨ data.length ≠ min 1024 (x.total - off) →
          block fun e => DevKeeps d e [.loupe, .upd] ∧ e.upd.session = x) ∧
        (k ∉ x.stored → x.state = 1 → off < x.total → total = x.total → data.length = min 1024 (x.total - off) → alive →
          block fun e => DevKeeps d e [.loupe, .upd, .flashes] ∧ e.flashes.a = put d.flashes.a x.area ∧ e.flashes.b = put d.flashes.b x.area ∧
            e.upd.session.stored = insertUp k x.stored ∧ e.upd.session.upLost = false ∧ e.upd.session.header = some i ∧
            e.upd.session.state = (if (insertUp k x.stored).length = (x.total + 1023) / 1024 then 2 else 1) ∧
            ∀ q ∈ [2, 3], e.downPath q = if d.pathSet q = true ∧ (d.downPath q).queue.length < 64 then
                { d.downPath q with queue := (d.downPath q).queue ++ [{ sess := sess, blk := k, hop := some (hop + 1), data := data }] }
              else d.downPath q)) ∧
      (passes → x.state = 0 ∨ x.id ≠ sess → off = 0 → bitOf (d.urd Reg.UPD_CFG) 31 = true → 512 ≤ data.length →
        let v := if d.openResult ≠ 0 then d.openResult else d.headerResult (data.take 512) sig
        let j := parseHeader data
        (v ≠ 0 → block fun e => DevKeeps d e [.loupe, .upd] ∧ LogHas e 0x1315 ∧ e.upd.session = x ∧ bitOf (e.urd Reg.UPD_FLAGS) 2 = true) ∧
        (v = 0 → total = 512 + j.length → data.length = min 1024 total → block fun e => DevKeeps d e [.loupe, .upd, .flashes] ∧ LogHas e 0x1310 ∧
          e.upd.session.id = sess ∧ e.upd.session.header = some j ∧ e.upd.session.stored = [0] ∧ e.upd.session.total = total ∧
          e.upd.session.state = (if total ≤ 1024 then 2 else 1)))) ∧
    (down →
      (d.rateFull = false → outcome = 0 → x.state ≠ 0 → x.id = sess → x.header = some i →
        Ends (.relayRequest dt p sess outcome ranges) s fun e => DevKeeps d e [.loupe, .upd] ∧
          let held := x.stored.filter fun k => ranges.any fun r => decide (r.1 ≤ k ∧ k < r.1 + r.2)
          e.downPath p = { y with queue := y.queue ++ (held.take (64 - y.queue.length)).map (item x.area), marks := held.drop (64 - y.queue.length),
                                  sess := sess, area := x.area }) ∧
      (d.rateFull = false → x.state = 0 ∨ x.id ≠ sess → d.upd.lastActive = none →
        Ends (.relayRequest dt p sess outcome ranges) s fun e => DevKeeps d e [.loupe, .upd] ∧ e.upd.session = x) ∧
      (y.queue = it :: rest → y.marks = [] → y.freeAt ≤ d.ns → Ends (.relayQueueSend dt p outcome) s fun e => DevKeeps d e [.loupe, .upd] ∧ e.downPath p = sent rest [] ∧
        (∀ hop ∈ it.hop, Sent d e (.relay 1 p ([it.sess, 1024 * it.blk, it.data.length, hop] ++ it.data.map BitVec.toNat)))) ∧
      (y.queue = it :: rest → y.queue.length ≤ 64 → y.marks = k :: y.marks.tail → y.freeAt ≤ d.ns → outcome = 0 → y.sess = sess →
        Ends (.relayQueueSend dt p outcome) s fun e => DevKeeps d e [.loupe, .upd] ∧ e.downPath p = sent (rest ++ [item y.area k]) y.marks.tail) ∧
      ((y.queue = [] ∧ y.marks = []) ∨ (y.queue ≠ [] ∧ d.ns < y.freeAt) → Ends (.relayQueueSend dt p outcome) s fun e => DevKeeps d e []) ∧
      (hop < 32 → d.rateFull = false → d.pathOpen d.upPath = true → Ends (.relayState dt p sess serial hop state stored total verS verA) s fun e =>
        DevKeeps d e [.loupe] ∧ Sent d e (.relay 3 d.upPath [sess, serial, hop + 1, state, stored, total, verS, verA]))) ∧
    (let timer : Prop := d.relayOn = true ∧ x.state ≠ 0 ∧ x.stateAt + 60 * 10 ^ 9 ≤ d.ns
     (timer → Ends (.relayStateTimer dt) s fun e => DevKeeps d e [.loupe, .upd] ∧ e.upd.session = { x with stateAt := d.ns } ∧ (d.pathOpen d.upPath = true →
      Sent d e (.relay 3 d.upPath [x.id, Config.serial.toNat, 0, x.state, x.stored.length, (x.total + 1023) / 1024, (x.header.map (·.ver)).getD 0, (d.areaInfo d.upd.boot.active).ver]))) ∧
     (¬ timer → Ends (.relayStateTimer dt) s fun e => DevKeeps d e [])) ∧
    (let open_ : Prop := d.relayOn = true ∧ x.state = 1
     let ask (q : Nat) (rs : List (Nat × Nat)) (e : Dev) : Prop := d.pathOpen q = true → Sent d e (.relay 2 q (x.id :: rs.length :: rs.flatMap fun r => [r.1, r.2]))
     let gap : Prop := open_ ∧ x.asked = 0 ∧ x.upLost = false ∧ x.ranges ≠ [] ∧ d.pathSet d.upPath = true ∧ x.gapDue d.ns = true
     let retry : Prop := open_ ∧ x.askedAt + 10 * 10 ^ 9 ≤ d.ns
     let again : Prop := open_ ∧ x.upLost = true ∧ x.askedAt + 60 * 10 ^ 9 ≤ d.ns
     (gap → Ends (.relayGapRequest dt) s fun e => DevKeeps d e [.loupe, .upd] ∧
        e.upd.session = { x with asked := 1, want := x.ranges, askedAt := d.ns } ∧ ask d.upPath x.ranges e) ∧
     (¬ gap → Ends (.relayGapRequest dt) s fun e => DevKeeps d e []) ∧
     (retry → x.asked = 1 → Ends (.relayRequestRetry dt) s fun e => DevKeeps d e [.loupe, .upd] ∧
        e.upd.session = { x with asked := 2, askedAt := d.ns } ∧ ask d.upPath x.want e) ∧
     (retry → 2 ≤ x.asked → Ends (.relayRequestRetry dt) s fun e => DevKeeps d e [.loupe, .upd] ∧ LogHas e 0x1318 ∧
        e.upd.session = if d.pathSet (1 - d.upPath) then { x with asked := 0, want := [], upNow := !x.upNow }
          else { x with asked := 0, want := [], upLost := true, askedAt := d.ns }) ∧
     (¬ retry ∨ x.asked = 0 → Ends (.relayRequestRetry dt) s fun e => DevKeeps d e []) ∧
     (again → Ends (.relayUpLostRepeat dt) s fun e => DevKeeps d e [.loupe, .upd] ∧ e.upd.session = { x with askedAt := d.ns } ∧
        (d.pathSet 0 = true → ask 0 x.ranges e) ∧ (d.pathSet 1 = true → ask 1 x.ranges e)) ∧
     (¬ again → Ends (.relayUpLostRepeat dt) s fun e => DevKeeps d e [])) ∧
    (let whole : Prop := x.state = 2 ∧ d.por = false ∧ d.mode ≠ 0
     let right : Prop := ((d.flash false).works = true ∧ copyA < 2) ∨ ((d.flash true).works = true ∧ copyB < 2)
     (whole → right → Ends (.sessionVerify dt copyA copyB) s fun e => DevKeeps d e [.loupe, .upd] ∧ LogHas e 0x1314 ∧ e.upd.session = { x with state := 3 }) ∧
     (whole → ¬ right → Ends (.sessionVerify dt copyA copyB) s fun e => DevKeeps d e [.loupe, .upd] ∧ LogHas e 0x1313 ∧ bitOf (e.urd Reg.UPD_FLAGS) 3 = true ∧
        e.upd.session = { x with state := 1, stored := [], asked := 0, want := [], storedAt := d.ns, recent := [], high := 0 }) ∧
     (¬ whole → Ends (.sessionVerify dt copyA copyB) s fun e => DevKeeps d e []))

/-! ## The whole machine -/

/-- D32 words and operations agree: the word of an operation within its fields reads back as that operation with its guard, and a word that reads as an operation is that operation's
word (R364, R365, R368). -/
def Obligations.CoreEncoding : Prop :=
  (∀ (g : Nat) (o : DOp), g < 16 → o.wf → o.encode g < 2 ^ 32 ∧ o.encode g / 2 ^ 28 = g ∧ DOp.read (o.encode g) = some o) ∧
  (∀ (w : Nat) (o : DOp), w < 2 ^ 32 → DOp.read w = some o → o.wf ∧ o.encode (w / 2 ^ 28) = w)

/-- Every step keeps the mode legal, from every state with a legal mode (R38, R40, R44, R45). -/
def Obligations.ModeStaysLegal : Prop :=
  ∀ (s t : State), Legal s.dev → step s = .next t → Legal t.dev

/-- Every step keeps every memory's canonical form, from every state in which all have it: addresses strictly rising, no entry equal to what an unlisted byte
reads as.  The form is the model's (log entry 4); what is stored and cleared is the rules' (R20, R314, R387, R397, R400, R403, R430). -/
def Obligations.MemoriesStayCanonical : Prop :=
  ∀ (s t : State), Canonical s.dev → step s = .next t → Canonical t.dev

/-- After reset the queue is empty, the mode is MD0 in POR and legal, every strand is OFF with its registers at their reset values and nothing in its memories, no merge group runs, no Locket is
bound and the log is empty (R25, R27, R38, R42). -/
def Obligations.ResetState : Prop :=
  let d := State.reset.dev
  State.reset.pending = [] ∧ d.mode = 0 ∧ d.por = true ∧ d.devLock = false ∧ Legal d ∧ d.lkt = {} ∧ d.epochs = {} ∧ d.loupe.log = [] ∧ d.loupe.timeUnc = true ∧
  d.clasp.groups = {} ∧ (∀ off, d.drd off = deviceReset off ∧ d.lrd off = loupeReset off) ∧ Canonical d ∧
  ∀ i, d.phase i = .off ∧ (d.supOf i).fenceIn = false ∧ (d.supOf i).fenceOut = false ∧ (∀ off, (d.strand i).rd off = strandReset off) ∧
    (d.strand i).banks.mem = [] ∧ (∀ n, ((d.strand i).eng n).state = .stopped)

end
end

