-- ==== Sys2Proof/Laws/State.lean ====
section
/-! SUPPORT. What the plain updates of the device and of a strand leave alone, field by field, and the reads of tables and groups
after their writes. -/

namespace Sys2Proof.Machine

/-! ## Groups -/

@[simp] theorem Quad.get_set_same {α : Type} (q : Quad α) (i : Fin 4) (a : α) : (q.set i a).get i = a := by
  fin_cases i <;> rfl

@[simp] theorem Quad.get_set_ne {α : Type} (q : Quad α) {i j : Fin 4} (a : α) (h : j ≠ i) : (q.set i a).get j = q.get j := by
  fin_cases i <;> fin_cases j <;> first | rfl | exact absurd rfl h

@[simp] theorem Duo.get_set_same {α : Type} (q : Duo α) (b : Bool) (x : α) : (q.set b x).get b = x := by cases b <;> rfl

@[simp] theorem Duo.get_set_ne {α : Type} (q : Duo α) {b c : Bool} (x : α) (h : c ≠ b) : (q.set b x).get c = q.get c := by
  cases b <;> cases c <;> first | rfl | exact absurd rfl h

/-! ## Tables -/

theorem tabFind_erase_same {α : Type} (l : List (Nat × α)) (k : Nat) : tabFind (tabErase l k) k = none := by
  induction l with
  | nil => rfl
  | cons c l ih => obtain ⟨j, a⟩ := c; by_cases h : j = k <;> simp [tabErase, tabFind, h, ih]

theorem tabFind_erase_ne {α : Type} (l : List (Nat × α)) {k j : Nat} (h : j ≠ k) : tabFind (tabErase l k) j = tabFind l j := by
  induction l with
  | nil => rfl
  | cons c l ih =>
    obtain ⟨i, a⟩ := c
    by_cases hi : i = k
    · subst hi; simp [tabErase, tabFind, ih, Ne.symm h]
    · simp [tabErase, tabFind, hi, ih]

theorem tabFind_insert_same {α : Type} (l : List (Nat × α)) (k : Nat) (v : α) (h : tabFind l k = none) :
    tabFind (tabInsert k v l) k = some v := by
  induction l with
  | nil => simp [tabInsert, tabFind]
  | cons c l ih =>
    obtain ⟨i, a⟩ := c
    by_cases hi : i = k
    · simp [tabFind, hi] at h
    · by_cases hk : k < i
      · simp [tabInsert, hk, tabFind]
      · simp [tabFind, hi] at h; simp [tabInsert, hk, tabFind, hi, ih h]

theorem tabFind_insert_ne {α : Type} (l : List (Nat × α)) {k j : Nat} (v : α) (h : j ≠ k) :
    tabFind (tabInsert k v l) j = tabFind l j := by
  induction l with
  | nil => simp [tabInsert, tabFind, Ne.symm h]
  | cons c l ih =>
    obtain ⟨i, a⟩ := c
    by_cases hk : k < i
    · simp [tabInsert, hk, tabFind, Ne.symm h]
    · by_cases hi : i = j
      · subst hi; simp [tabInsert, hk, tabFind]
      · simp [tabInsert, hk, tabFind, hi, ih]

@[simp] theorem Tab.get_set_same {α : Type} [DecidableEq α] (t : Tab α) (d : α) (k : Nat) (v : α) : (t.set d k v).get d k = v := by
  by_cases h : v = d
  · simp [Tab.set, Tab.get, h, tabFind_erase_same]
  · simp [Tab.set, Tab.get, h, tabFind_insert_same _ _ _ (tabFind_erase_same _ _)]

@[simp] theorem Tab.get_set_ne {α : Type} [DecidableEq α] (t : Tab α) (d : α) {k j : Nat} (v : α) (h : j ≠ k) :
    (t.set d k v).get d j = t.get d j := by
  by_cases hv : v = d
  · simp [Tab.set, Tab.get, hv, tabFind_erase_ne _ h]
  · simp [Tab.set, Tab.get, hv, tabFind_insert_ne _ _ h, tabFind_erase_ne _ h]

/-! ## The device -/

@[simp] theorem Dev.setSup_ns (d : Dev) (i : StrandId) (x : SupSt) : (d.setSup i x).ns = d.ns := rfl
@[simp] theorem Dev.setSup_mode (d : Dev) (i : StrandId) (x : SupSt) : (d.setSup i x).mode = d.mode := rfl
@[simp] theorem Dev.setSup_base (d : Dev) (i : StrandId) (x : SupSt) : (d.setSup i x).base = d.base := rfl
@[simp] theorem Dev.setSup_por (d : Dev) (i : StrandId) (x : SupSt) : (d.setSup i x).por = d.por := rfl
@[simp] theorem Dev.setSup_devLock (d : Dev) (i : StrandId) (x : SupSt) : (d.setSup i x).devLock = d.devLock := rfl
@[simp] theorem Dev.setSup_cfg (d : Dev) (i : StrandId) (x : SupSt) : (d.setSup i x).cfg = d.cfg := rfl
@[simp] theorem Dev.setSup_holdBy (d : Dev) (i : StrandId) (x : SupSt) : (d.setSup i x).holdBy = d.holdBy := rfl
@[simp] theorem Dev.setSup_holdFrom (d : Dev) (i : StrandId) (x : SupSt) : (d.setSup i x).holdFrom = d.holdFrom := rfl
@[simp] theorem Dev.setSup_sleptAt (d : Dev) (i : StrandId) (x : SupSt) : (d.setSup i x).sleptAt = d.sleptAt := rfl
@[simp] theorem Dev.setSup_strands (d : Dev) (i : StrandId) (x : SupSt) : (d.setSup i x).strands = d.strands := rfl
@[simp] theorem Dev.setSup_clasp (d : Dev) (i : StrandId) (x : SupSt) : (d.setSup i x).clasp = d.clasp := rfl
@[simp] theorem Dev.setSup_lkt (d : Dev) (i : StrandId) (x : SupSt) : (d.setSup i x).lkt = d.lkt := rfl
@[simp] theorem Dev.setSup_epochs (d : Dev) (i : StrandId) (x : SupSt) : (d.setSup i x).epochs = d.epochs := rfl
@[simp] theorem Dev.setSup_loupe (d : Dev) (i : StrandId) (x : SupSt) : (d.setSup i x).loupe = d.loupe := rfl
@[simp] theorem Dev.setSup_hm (d : Dev) (i : StrandId) (x : SupSt) : (d.setSup i x).hm = d.hm := rfl
@[simp] theorem Dev.setSup_flashes (d : Dev) (i : StrandId) (x : SupSt) : (d.setSup i x).flashes = d.flashes := rfl
@[simp] theorem Dev.setSup_upd (d : Dev) (i : StrandId) (x : SupSt) : (d.setSup i x).upd = d.upd := rfl
@[simp] theorem Dev.setSup_cyc (d : Dev) (i : StrandId) (x : SupSt) : (d.setSup i x).cyc = d.cyc := rfl
@[simp] theorem Dev.setSup_out (d : Dev) (i : StrandId) (x : SupSt) : (d.setSup i x).out = d.out := rfl

@[simp] theorem Dev.setStrand_ns (d : Dev) (i : StrandId) (x : StrandSt) : (d.setStrand i x).ns = d.ns := rfl
@[simp] theorem Dev.setStrand_mode (d : Dev) (i : StrandId) (x : StrandSt) : (d.setStrand i x).mode = d.mode := rfl
@[simp] theorem Dev.setStrand_base (d : Dev) (i : StrandId) (x : StrandSt) : (d.setStrand i x).base = d.base := rfl
@[simp] theorem Dev.setStrand_por (d : Dev) (i : StrandId) (x : StrandSt) : (d.setStrand i x).por = d.por := rfl
@[simp] theorem Dev.setStrand_devLock (d : Dev) (i : StrandId) (x : StrandSt) : (d.setStrand i x).devLock = d.devLock := rfl
@[simp] theorem Dev.setStrand_cfg (d : Dev) (i : StrandId) (x : StrandSt) : (d.setStrand i x).cfg = d.cfg := rfl
@[simp] theorem Dev.setStrand_holdBy (d : Dev) (i : StrandId) (x : StrandSt) : (d.setStrand i x).holdBy = d.holdBy := rfl
@[simp] theorem Dev.setStrand_holdFrom (d : Dev) (i : StrandId) (x : StrandSt) : (d.setStrand i x).holdFrom = d.holdFrom := rfl
@[simp] theorem Dev.setStrand_sleptAt (d : Dev) (i : StrandId) (x : StrandSt) : (d.setStrand i x).sleptAt = d.sleptAt := rfl
@[simp] theorem Dev.setStrand_sup (d : Dev) (i : StrandId) (x : StrandSt) : (d.setStrand i x).sup = d.sup := rfl
@[simp] theorem Dev.setStrand_clasp (d : Dev) (i : StrandId) (x : StrandSt) : (d.setStrand i x).clasp = d.clasp := rfl
@[simp] theorem Dev.setStrand_lkt (d : Dev) (i : StrandId) (x : StrandSt) : (d.setStrand i x).lkt = d.lkt := rfl
@[simp] theorem Dev.setStrand_epochs (d : Dev) (i : StrandId) (x : StrandSt) : (d.setStrand i x).epochs = d.epochs := rfl
@[simp] theorem Dev.setStrand_loupe (d : Dev) (i : StrandId) (x : StrandSt) : (d.setStrand i x).loupe = d.loupe := rfl
@[simp] theorem Dev.setStrand_hm (d : Dev) (i : StrandId) (x : StrandSt) : (d.setStrand i x).hm = d.hm := rfl
@[simp] theorem Dev.setStrand_flashes (d : Dev) (i : StrandId) (x : StrandSt) : (d.setStrand i x).flashes = d.flashes := rfl
@[simp] theorem Dev.setStrand_upd (d : Dev) (i : StrandId) (x : StrandSt) : (d.setStrand i x).upd = d.upd := rfl
@[simp] theorem Dev.setStrand_cyc (d : Dev) (i : StrandId) (x : StrandSt) : (d.setStrand i x).cyc = d.cyc := rfl
@[simp] theorem Dev.setStrand_out (d : Dev) (i : StrandId) (x : StrandSt) : (d.setStrand i x).out = d.out := rfl

@[simp] theorem Dev.emit_ns (d : Dev) (o : Out) : (d.emit o).ns = d.ns := rfl
@[simp] theorem Dev.emit_mode (d : Dev) (o : Out) : (d.emit o).mode = d.mode := rfl
@[simp] theorem Dev.emit_base (d : Dev) (o : Out) : (d.emit o).base = d.base := rfl
@[simp] theorem Dev.emit_por (d : Dev) (o : Out) : (d.emit o).por = d.por := rfl
@[simp] theorem Dev.emit_devLock (d : Dev) (o : Out) : (d.emit o).devLock = d.devLock := rfl
@[simp] theorem Dev.emit_cfg (d : Dev) (o : Out) : (d.emit o).cfg = d.cfg := rfl
@[simp] theorem Dev.emit_holdBy (d : Dev) (o : Out) : (d.emit o).holdBy = d.holdBy := rfl
@[simp] theorem Dev.emit_holdFrom (d : Dev) (o : Out) : (d.emit o).holdFrom = d.holdFrom := rfl
@[simp] theorem Dev.emit_sleptAt (d : Dev) (o : Out) : (d.emit o).sleptAt = d.sleptAt := rfl
@[simp] theorem Dev.emit_sup (d : Dev) (o : Out) : (d.emit o).sup = d.sup := rfl
@[simp] theorem Dev.emit_strands (d : Dev) (o : Out) : (d.emit o).strands = d.strands := rfl
@[simp] theorem Dev.emit_clasp (d : Dev) (o : Out) : (d.emit o).clasp = d.clasp := rfl
@[simp] theorem Dev.emit_lkt (d : Dev) (o : Out) : (d.emit o).lkt = d.lkt := rfl
@[simp] theorem Dev.emit_epochs (d : Dev) (o : Out) : (d.emit o).epochs = d.epochs := rfl
@[simp] theorem Dev.emit_loupe (d : Dev) (o : Out) : (d.emit o).loupe = d.loupe := rfl
@[simp] theorem Dev.emit_hm (d : Dev) (o : Out) : (d.emit o).hm = d.hm := rfl
@[simp] theorem Dev.emit_flashes (d : Dev) (o : Out) : (d.emit o).flashes = d.flashes := rfl
@[simp] theorem Dev.emit_upd (d : Dev) (o : Out) : (d.emit o).upd = d.upd := rfl
@[simp] theorem Dev.emit_cyc (d : Dev) (o : Out) : (d.emit o).cyc = d.cyc := rfl

@[simp] theorem Dev.dwr_ns (d : Dev) (a : Nat) (v : Word) : (d.dwr a v).ns = d.ns := rfl
@[simp] theorem Dev.dwr_mode (d : Dev) (a : Nat) (v : Word) : (d.dwr a v).mode = d.mode := rfl
@[simp] theorem Dev.dwr_base (d : Dev) (a : Nat) (v : Word) : (d.dwr a v).base = d.base := rfl
@[simp] theorem Dev.dwr_por (d : Dev) (a : Nat) (v : Word) : (d.dwr a v).por = d.por := rfl
@[simp] theorem Dev.dwr_devLock (d : Dev) (a : Nat) (v : Word) : (d.dwr a v).devLock = d.devLock := rfl
@[simp] theorem Dev.dwr_cfg (d : Dev) (a : Nat) (v : Word) : (d.dwr a v).cfg = d.cfg := rfl
@[simp] theorem Dev.dwr_holdBy (d : Dev) (a : Nat) (v : Word) : (d.dwr a v).holdBy = d.holdBy := rfl
@[simp] theorem Dev.dwr_holdFrom (d : Dev) (a : Nat) (v : Word) : (d.dwr a v).holdFrom = d.holdFrom := rfl
@[simp] theorem Dev.dwr_sleptAt (d : Dev) (a : Nat) (v : Word) : (d.dwr a v).sleptAt = d.sleptAt := rfl
@[simp] theorem Dev.dwr_sup (d : Dev) (a : Nat) (v : Word) : (d.dwr a v).sup = d.sup := rfl
@[simp] theorem Dev.dwr_strands (d : Dev) (a : Nat) (v : Word) : (d.dwr a v).strands = d.strands := rfl
@[simp] theorem Dev.dwr_lkt (d : Dev) (a : Nat) (v : Word) : (d.dwr a v).lkt = d.lkt := rfl
@[simp] theorem Dev.dwr_epochs (d : Dev) (a : Nat) (v : Word) : (d.dwr a v).epochs = d.epochs := rfl
@[simp] theorem Dev.dwr_loupe (d : Dev) (a : Nat) (v : Word) : (d.dwr a v).loupe = d.loupe := rfl
@[simp] theorem Dev.dwr_hm (d : Dev) (a : Nat) (v : Word) : (d.dwr a v).hm = d.hm := rfl
@[simp] theorem Dev.dwr_flashes (d : Dev) (a : Nat) (v : Word) : (d.dwr a v).flashes = d.flashes := rfl
@[simp] theorem Dev.dwr_upd (d : Dev) (a : Nat) (v : Word) : (d.dwr a v).upd = d.upd := rfl
@[simp] theorem Dev.dwr_cyc (d : Dev) (a : Nat) (v : Word) : (d.dwr a v).cyc = d.cyc := rfl
@[simp] theorem Dev.dwr_out (d : Dev) (a : Nat) (v : Word) : (d.dwr a v).out = d.out := rfl

@[simp] theorem Dev.cinc_ns (d : Dev) (x : Nat) : (d.cinc x).ns = d.ns := rfl
@[simp] theorem Dev.cinc_mode (d : Dev) (x : Nat) : (d.cinc x).mode = d.mode := rfl
@[simp] theorem Dev.cinc_base (d : Dev) (x : Nat) : (d.cinc x).base = d.base := rfl
@[simp] theorem Dev.cinc_por (d : Dev) (x : Nat) : (d.cinc x).por = d.por := rfl
@[simp] theorem Dev.cinc_devLock (d : Dev) (x : Nat) : (d.cinc x).devLock = d.devLock := rfl
@[simp] theorem Dev.cinc_cfg (d : Dev) (x : Nat) : (d.cinc x).cfg = d.cfg := rfl
@[simp] theorem Dev.cinc_holdBy (d : Dev) (x : Nat) : (d.cinc x).holdBy = d.holdBy := rfl
@[simp] theorem Dev.cinc_holdFrom (d : Dev) (x : Nat) : (d.cinc x).holdFrom = d.holdFrom := rfl
@[simp] theorem Dev.cinc_sleptAt (d : Dev) (x : Nat) : (d.cinc x).sleptAt = d.sleptAt := rfl
@[simp] theorem Dev.cinc_sup (d : Dev) (x : Nat) : (d.cinc x).sup = d.sup := rfl
@[simp] theorem Dev.cinc_strands (d : Dev) (x : Nat) : (d.cinc x).strands = d.strands := rfl
@[simp] theorem Dev.cinc_lkt (d : Dev) (x : Nat) : (d.cinc x).lkt = d.lkt := rfl
@[simp] theorem Dev.cinc_epochs (d : Dev) (x : Nat) : (d.cinc x).epochs = d.epochs := rfl
@[simp] theorem Dev.cinc_loupe (d : Dev) (x : Nat) : (d.cinc x).loupe = d.loupe := rfl
@[simp] theorem Dev.cinc_hm (d : Dev) (x : Nat) : (d.cinc x).hm = d.hm := rfl
@[simp] theorem Dev.cinc_flashes (d : Dev) (x : Nat) : (d.cinc x).flashes = d.flashes := rfl
@[simp] theorem Dev.cinc_upd (d : Dev) (x : Nat) : (d.cinc x).upd = d.upd := rfl
@[simp] theorem Dev.cinc_out (d : Dev) (x : Nat) : (d.cinc x).out = d.out := rfl

@[simp] theorem Dev.lwr_ns (d : Dev) (a : Nat) (v : Word) : (d.lwr a v).ns = d.ns := rfl
@[simp] theorem Dev.lwr_mode (d : Dev) (a : Nat) (v : Word) : (d.lwr a v).mode = d.mode := rfl
@[simp] theorem Dev.lwr_base (d : Dev) (a : Nat) (v : Word) : (d.lwr a v).base = d.base := rfl
@[simp] theorem Dev.lwr_por (d : Dev) (a : Nat) (v : Word) : (d.lwr a v).por = d.por := rfl
@[simp] theorem Dev.lwr_devLock (d : Dev) (a : Nat) (v : Word) : (d.lwr a v).devLock = d.devLock := rfl
@[simp] theorem Dev.lwr_cfg (d : Dev) (a : Nat) (v : Word) : (d.lwr a v).cfg = d.cfg := rfl
@[simp] theorem Dev.lwr_holdBy (d : Dev) (a : Nat) (v : Word) : (d.lwr a v).holdBy = d.holdBy := rfl
@[simp] theorem Dev.lwr_holdFrom (d : Dev) (a : Nat) (v : Word) : (d.lwr a v).holdFrom = d.holdFrom := rfl
@[simp] theorem Dev.lwr_sleptAt (d : Dev) (a : Nat) (v : Word) : (d.lwr a v).sleptAt = d.sleptAt := rfl
@[simp] theorem Dev.lwr_sup (d : Dev) (a : Nat) (v : Word) : (d.lwr a v).sup = d.sup := rfl
@[simp] theorem Dev.lwr_strands (d : Dev) (a : Nat) (v : Word) : (d.lwr a v).strands = d.strands := rfl
@[simp] theorem Dev.lwr_clasp (d : Dev) (a : Nat) (v : Word) : (d.lwr a v).clasp = d.clasp := rfl
@[simp] theorem Dev.lwr_lkt (d : Dev) (a : Nat) (v : Word) : (d.lwr a v).lkt = d.lkt := rfl
@[simp] theorem Dev.lwr_epochs (d : Dev) (a : Nat) (v : Word) : (d.lwr a v).epochs = d.epochs := rfl
@[simp] theorem Dev.lwr_hm (d : Dev) (a : Nat) (v : Word) : (d.lwr a v).hm = d.hm := rfl
@[simp] theorem Dev.lwr_flashes (d : Dev) (a : Nat) (v : Word) : (d.lwr a v).flashes = d.flashes := rfl
@[simp] theorem Dev.lwr_upd (d : Dev) (a : Nat) (v : Word) : (d.lwr a v).upd = d.upd := rfl
@[simp] theorem Dev.lwr_cyc (d : Dev) (a : Nat) (v : Word) : (d.lwr a v).cyc = d.cyc := rfl
@[simp] theorem Dev.lwr_out (d : Dev) (a : Nat) (v : Word) : (d.lwr a v).out = d.out := rfl

@[simp] theorem Dev.linc_ns (d : Dev) (x : Nat) : (d.linc x).ns = d.ns := rfl
@[simp] theorem Dev.linc_mode (d : Dev) (x : Nat) : (d.linc x).mode = d.mode := rfl
@[simp] theorem Dev.linc_base (d : Dev) (x : Nat) : (d.linc x).base = d.base := rfl
@[simp] theorem Dev.linc_por (d : Dev) (x : Nat) : (d.linc x).por = d.por := rfl
@[simp] theorem Dev.linc_devLock (d : Dev) (x : Nat) : (d.linc x).devLock = d.devLock := rfl
@[simp] theorem Dev.linc_cfg (d : Dev) (x : Nat) : (d.linc x).cfg = d.cfg := rfl
@[simp] theorem Dev.linc_holdBy (d : Dev) (x : Nat) : (d.linc x).holdBy = d.holdBy := rfl
@[simp] theorem Dev.linc_holdFrom (d : Dev) (x : Nat) : (d.linc x).holdFrom = d.holdFrom := rfl
@[simp] theorem Dev.linc_sleptAt (d : Dev) (x : Nat) : (d.linc x).sleptAt = d.sleptAt := rfl
@[simp] theorem Dev.linc_sup (d : Dev) (x : Nat) : (d.linc x).sup = d.sup := rfl
@[simp] theorem Dev.linc_strands (d : Dev) (x : Nat) : (d.linc x).strands = d.strands := rfl
@[simp] theorem Dev.linc_clasp (d : Dev) (x : Nat) : (d.linc x).clasp = d.clasp := rfl
@[simp] theorem Dev.linc_lkt (d : Dev) (x : Nat) : (d.linc x).lkt = d.lkt := rfl
@[simp] theorem Dev.linc_epochs (d : Dev) (x : Nat) : (d.linc x).epochs = d.epochs := rfl
@[simp] theorem Dev.linc_hm (d : Dev) (x : Nat) : (d.linc x).hm = d.hm := rfl
@[simp] theorem Dev.linc_flashes (d : Dev) (x : Nat) : (d.linc x).flashes = d.flashes := rfl
@[simp] theorem Dev.linc_upd (d : Dev) (x : Nat) : (d.linc x).upd = d.upd := rfl
@[simp] theorem Dev.linc_out (d : Dev) (x : Nat) : (d.linc x).out = d.out := rfl

@[simp] theorem Dev.uwr_ns (d : Dev) (a : Nat) (v : Word) : (d.uwr a v).ns = d.ns := rfl
@[simp] theorem Dev.uwr_mode (d : Dev) (a : Nat) (v : Word) : (d.uwr a v).mode = d.mode := rfl
@[simp] theorem Dev.uwr_base (d : Dev) (a : Nat) (v : Word) : (d.uwr a v).base = d.base := rfl
@[simp] theorem Dev.uwr_por (d : Dev) (a : Nat) (v : Word) : (d.uwr a v).por = d.por := rfl
@[simp] theorem Dev.uwr_devLock (d : Dev) (a : Nat) (v : Word) : (d.uwr a v).devLock = d.devLock := rfl
@[simp] theorem Dev.uwr_cfg (d : Dev) (a : Nat) (v : Word) : (d.uwr a v).cfg = d.cfg := rfl
@[simp] theorem Dev.uwr_holdBy (d : Dev) (a : Nat) (v : Word) : (d.uwr a v).holdBy = d.holdBy := rfl
@[simp] theorem Dev.uwr_holdFrom (d : Dev) (a : Nat) (v : Word) : (d.uwr a v).holdFrom = d.holdFrom := rfl
@[simp] theorem Dev.uwr_sleptAt (d : Dev) (a : Nat) (v : Word) : (d.uwr a v).sleptAt = d.sleptAt := rfl
@[simp] theorem Dev.uwr_sup (d : Dev) (a : Nat) (v : Word) : (d.uwr a v).sup = d.sup := rfl
@[simp] theorem Dev.uwr_strands (d : Dev) (a : Nat) (v : Word) : (d.uwr a v).strands = d.strands := rfl
@[simp] theorem Dev.uwr_clasp (d : Dev) (a : Nat) (v : Word) : (d.uwr a v).clasp = d.clasp := rfl
@[simp] theorem Dev.uwr_lkt (d : Dev) (a : Nat) (v : Word) : (d.uwr a v).lkt = d.lkt := rfl
@[simp] theorem Dev.uwr_epochs (d : Dev) (a : Nat) (v : Word) : (d.uwr a v).epochs = d.epochs := rfl
@[simp] theorem Dev.uwr_loupe (d : Dev) (a : Nat) (v : Word) : (d.uwr a v).loupe = d.loupe := rfl
@[simp] theorem Dev.uwr_hm (d : Dev) (a : Nat) (v : Word) : (d.uwr a v).hm = d.hm := rfl
@[simp] theorem Dev.uwr_flashes (d : Dev) (a : Nat) (v : Word) : (d.uwr a v).flashes = d.flashes := rfl
@[simp] theorem Dev.uwr_cyc (d : Dev) (a : Nat) (v : Word) : (d.uwr a v).cyc = d.cyc := rfl
@[simp] theorem Dev.uwr_out (d : Dev) (a : Nat) (v : Word) : (d.uwr a v).out = d.out := rfl

@[simp] theorem Dev.uinc_ns (d : Dev) (x : Nat) : (d.uinc x).ns = d.ns := rfl
@[simp] theorem Dev.uinc_mode (d : Dev) (x : Nat) : (d.uinc x).mode = d.mode := rfl
@[simp] theorem Dev.uinc_base (d : Dev) (x : Nat) : (d.uinc x).base = d.base := rfl
@[simp] theorem Dev.uinc_por (d : Dev) (x : Nat) : (d.uinc x).por = d.por := rfl
@[simp] theorem Dev.uinc_devLock (d : Dev) (x : Nat) : (d.uinc x).devLock = d.devLock := rfl
@[simp] theorem Dev.uinc_cfg (d : Dev) (x : Nat) : (d.uinc x).cfg = d.cfg := rfl
@[simp] theorem Dev.uinc_holdBy (d : Dev) (x : Nat) : (d.uinc x).holdBy = d.holdBy := rfl
@[simp] theorem Dev.uinc_holdFrom (d : Dev) (x : Nat) : (d.uinc x).holdFrom = d.holdFrom := rfl
@[simp] theorem Dev.uinc_sleptAt (d : Dev) (x : Nat) : (d.uinc x).sleptAt = d.sleptAt := rfl
@[simp] theorem Dev.uinc_sup (d : Dev) (x : Nat) : (d.uinc x).sup = d.sup := rfl
@[simp] theorem Dev.uinc_strands (d : Dev) (x : Nat) : (d.uinc x).strands = d.strands := rfl
@[simp] theorem Dev.uinc_clasp (d : Dev) (x : Nat) : (d.uinc x).clasp = d.clasp := rfl
@[simp] theorem Dev.uinc_lkt (d : Dev) (x : Nat) : (d.uinc x).lkt = d.lkt := rfl
@[simp] theorem Dev.uinc_epochs (d : Dev) (x : Nat) : (d.uinc x).epochs = d.epochs := rfl
@[simp] theorem Dev.uinc_loupe (d : Dev) (x : Nat) : (d.uinc x).loupe = d.loupe := rfl
@[simp] theorem Dev.uinc_hm (d : Dev) (x : Nat) : (d.uinc x).hm = d.hm := rfl
@[simp] theorem Dev.uinc_flashes (d : Dev) (x : Nat) : (d.uinc x).flashes = d.flashes := rfl
@[simp] theorem Dev.uinc_out (d : Dev) (x : Nat) : (d.uinc x).out = d.out := rfl

@[simp] theorem Dev.lflag_ns (d : Dev) (a k : Nat) : (d.lflag a k).ns = d.ns := rfl
@[simp] theorem Dev.lflag_mode (d : Dev) (a k : Nat) : (d.lflag a k).mode = d.mode := rfl
@[simp] theorem Dev.lflag_base (d : Dev) (a k : Nat) : (d.lflag a k).base = d.base := rfl
@[simp] theorem Dev.lflag_por (d : Dev) (a k : Nat) : (d.lflag a k).por = d.por := rfl
@[simp] theorem Dev.lflag_devLock (d : Dev) (a k : Nat) : (d.lflag a k).devLock = d.devLock := rfl
@[simp] theorem Dev.lflag_cfg (d : Dev) (a k : Nat) : (d.lflag a k).cfg = d.cfg := rfl
@[simp] theorem Dev.lflag_holdBy (d : Dev) (a k : Nat) : (d.lflag a k).holdBy = d.holdBy := rfl
@[simp] theorem Dev.lflag_holdFrom (d : Dev) (a k : Nat) : (d.lflag a k).holdFrom = d.holdFrom := rfl
@[simp] theorem Dev.lflag_sleptAt (d : Dev) (a k : Nat) : (d.lflag a k).sleptAt = d.sleptAt := rfl
@[simp] theorem Dev.lflag_sup (d : Dev) (a k : Nat) : (d.lflag a k).sup = d.sup := rfl
@[simp] theorem Dev.lflag_strands (d : Dev) (a k : Nat) : (d.lflag a k).strands = d.strands := rfl
@[simp] theorem Dev.lflag_clasp (d : Dev) (a k : Nat) : (d.lflag a k).clasp = d.clasp := rfl
@[simp] theorem Dev.lflag_lkt (d : Dev) (a k : Nat) : (d.lflag a k).lkt = d.lkt := rfl
@[simp] theorem Dev.lflag_epochs (d : Dev) (a k : Nat) : (d.lflag a k).epochs = d.epochs := rfl
@[simp] theorem Dev.lflag_hm (d : Dev) (a k : Nat) : (d.lflag a k).hm = d.hm := rfl
@[simp] theorem Dev.lflag_flashes (d : Dev) (a k : Nat) : (d.lflag a k).flashes = d.flashes := rfl
@[simp] theorem Dev.lflag_upd (d : Dev) (a k : Nat) : (d.lflag a k).upd = d.upd := rfl
@[simp] theorem Dev.lflag_out (d : Dev) (a k : Nat) : (d.lflag a k).out = d.out := rfl

@[simp] theorem Dev.dflag_ns (d : Dev) (a k : Nat) : (d.dflag a k).ns = d.ns := rfl
@[simp] theorem Dev.dflag_mode (d : Dev) (a k : Nat) : (d.dflag a k).mode = d.mode := rfl
@[simp] theorem Dev.dflag_base (d : Dev) (a k : Nat) : (d.dflag a k).base = d.base := rfl
@[simp] theorem Dev.dflag_por (d : Dev) (a k : Nat) : (d.dflag a k).por = d.por := rfl
@[simp] theorem Dev.dflag_devLock (d : Dev) (a k : Nat) : (d.dflag a k).devLock = d.devLock := rfl
@[simp] theorem Dev.dflag_cfg (d : Dev) (a k : Nat) : (d.dflag a k).cfg = d.cfg := rfl
@[simp] theorem Dev.dflag_holdBy (d : Dev) (a k : Nat) : (d.dflag a k).holdBy = d.holdBy := rfl
@[simp] theorem Dev.dflag_holdFrom (d : Dev) (a k : Nat) : (d.dflag a k).holdFrom = d.holdFrom := rfl
@[simp] theorem Dev.dflag_sleptAt (d : Dev) (a k : Nat) : (d.dflag a k).sleptAt = d.sleptAt := rfl
@[simp] theorem Dev.dflag_sup (d : Dev) (a k : Nat) : (d.dflag a k).sup = d.sup := rfl
@[simp] theorem Dev.dflag_strands (d : Dev) (a k : Nat) : (d.dflag a k).strands = d.strands := rfl
@[simp] theorem Dev.dflag_lkt (d : Dev) (a k : Nat) : (d.dflag a k).lkt = d.lkt := rfl
@[simp] theorem Dev.dflag_epochs (d : Dev) (a k : Nat) : (d.dflag a k).epochs = d.epochs := rfl
@[simp] theorem Dev.dflag_loupe (d : Dev) (a k : Nat) : (d.dflag a k).loupe = d.loupe := rfl
@[simp] theorem Dev.dflag_hm (d : Dev) (a k : Nat) : (d.dflag a k).hm = d.hm := rfl
@[simp] theorem Dev.dflag_flashes (d : Dev) (a k : Nat) : (d.dflag a k).flashes = d.flashes := rfl
@[simp] theorem Dev.dflag_upd (d : Dev) (a k : Nat) : (d.dflag a k).upd = d.upd := rfl
@[simp] theorem Dev.dflag_out (d : Dev) (a k : Nat) : (d.dflag a k).out = d.out := rfl

@[simp] theorem Dev.uflag_ns (d : Dev) (k : Nat) : (d.uflag k).ns = d.ns := rfl
@[simp] theorem Dev.uflag_mode (d : Dev) (k : Nat) : (d.uflag k).mode = d.mode := rfl
@[simp] theorem Dev.uflag_base (d : Dev) (k : Nat) : (d.uflag k).base = d.base := rfl
@[simp] theorem Dev.uflag_por (d : Dev) (k : Nat) : (d.uflag k).por = d.por := rfl
@[simp] theorem Dev.uflag_devLock (d : Dev) (k : Nat) : (d.uflag k).devLock = d.devLock := rfl
@[simp] theorem Dev.uflag_cfg (d : Dev) (k : Nat) : (d.uflag k).cfg = d.cfg := rfl
@[simp] theorem Dev.uflag_holdBy (d : Dev) (k : Nat) : (d.uflag k).holdBy = d.holdBy := rfl
@[simp] theorem Dev.uflag_holdFrom (d : Dev) (k : Nat) : (d.uflag k).holdFrom = d.holdFrom := rfl
@[simp] theorem Dev.uflag_sleptAt (d : Dev) (k : Nat) : (d.uflag k).sleptAt = d.sleptAt := rfl
@[simp] theorem Dev.uflag_sup (d : Dev) (k : Nat) : (d.uflag k).sup = d.sup := rfl
@[simp] theorem Dev.uflag_strands (d : Dev) (k : Nat) : (d.uflag k).strands = d.strands := rfl
@[simp] theorem Dev.uflag_clasp (d : Dev) (k : Nat) : (d.uflag k).clasp = d.clasp := rfl
@[simp] theorem Dev.uflag_lkt (d : Dev) (k : Nat) : (d.uflag k).lkt = d.lkt := rfl
@[simp] theorem Dev.uflag_epochs (d : Dev) (k : Nat) : (d.uflag k).epochs = d.epochs := rfl
@[simp] theorem Dev.uflag_loupe (d : Dev) (k : Nat) : (d.uflag k).loupe = d.loupe := rfl
@[simp] theorem Dev.uflag_hm (d : Dev) (k : Nat) : (d.uflag k).hm = d.hm := rfl
@[simp] theorem Dev.uflag_flashes (d : Dev) (k : Nat) : (d.uflag k).flashes = d.flashes := rfl
@[simp] theorem Dev.uflag_out (d : Dev) (k : Nat) : (d.uflag k).out = d.out := rfl

@[simp] theorem Dev.setChan_ns (d : Dev) (c : Nat) (x : Chan) : (d.setChan c x).ns = d.ns := rfl
@[simp] theorem Dev.setChan_mode (d : Dev) (c : Nat) (x : Chan) : (d.setChan c x).mode = d.mode := rfl
@[simp] theorem Dev.setChan_base (d : Dev) (c : Nat) (x : Chan) : (d.setChan c x).base = d.base := rfl
@[simp] theorem Dev.setChan_por (d : Dev) (c : Nat) (x : Chan) : (d.setChan c x).por = d.por := rfl
@[simp] theorem Dev.setChan_devLock (d : Dev) (c : Nat) (x : Chan) : (d.setChan c x).devLock = d.devLock := rfl
@[simp] theorem Dev.setChan_cfg (d : Dev) (c : Nat) (x : Chan) : (d.setChan c x).cfg = d.cfg := rfl
@[simp] theorem Dev.setChan_holdBy (d : Dev) (c : Nat) (x : Chan) : (d.setChan c x).holdBy = d.holdBy := rfl
@[simp] theorem Dev.setChan_holdFrom (d : Dev) (c : Nat) (x : Chan) : (d.setChan c x).holdFrom = d.holdFrom := rfl
@[simp] theorem Dev.setChan_sleptAt (d : Dev) (c : Nat) (x : Chan) : (d.setChan c x).sleptAt = d.sleptAt := rfl
@[simp] theorem Dev.setChan_sup (d : Dev) (c : Nat) (x : Chan) : (d.setChan c x).sup = d.sup := rfl
@[simp] theorem Dev.setChan_strands (d : Dev) (c : Nat) (x : Chan) : (d.setChan c x).strands = d.strands := rfl
@[simp] theorem Dev.setChan_clasp (d : Dev) (c : Nat) (x : Chan) : (d.setChan c x).clasp = d.clasp := rfl
@[simp] theorem Dev.setChan_epochs (d : Dev) (c : Nat) (x : Chan) : (d.setChan c x).epochs = d.epochs := rfl
@[simp] theorem Dev.setChan_loupe (d : Dev) (c : Nat) (x : Chan) : (d.setChan c x).loupe = d.loupe := rfl
@[simp] theorem Dev.setChan_hm (d : Dev) (c : Nat) (x : Chan) : (d.setChan c x).hm = d.hm := rfl
@[simp] theorem Dev.setChan_flashes (d : Dev) (c : Nat) (x : Chan) : (d.setChan c x).flashes = d.flashes := rfl
@[simp] theorem Dev.setChan_upd (d : Dev) (c : Nat) (x : Chan) : (d.setChan c x).upd = d.upd := rfl
@[simp] theorem Dev.setChan_cyc (d : Dev) (c : Nat) (x : Chan) : (d.setChan c x).cyc = d.cyc := rfl
@[simp] theorem Dev.setChan_out (d : Dev) (c : Nat) (x : Chan) : (d.setChan c x).out = d.out := rfl

@[simp] theorem Dev.setMg_ns (d : Dev) (g : Nat) (x : MGroup) : (d.setMg g x).ns = d.ns := rfl
@[simp] theorem Dev.setMg_mode (d : Dev) (g : Nat) (x : MGroup) : (d.setMg g x).mode = d.mode := rfl
@[simp] theorem Dev.setMg_base (d : Dev) (g : Nat) (x : MGroup) : (d.setMg g x).base = d.base := rfl
@[simp] theorem Dev.setMg_por (d : Dev) (g : Nat) (x : MGroup) : (d.setMg g x).por = d.por := rfl
@[simp] theorem Dev.setMg_devLock (d : Dev) (g : Nat) (x : MGroup) : (d.setMg g x).devLock = d.devLock := rfl
@[simp] theorem Dev.setMg_cfg (d : Dev) (g : Nat) (x : MGroup) : (d.setMg g x).cfg = d.cfg := rfl
@[simp] theorem Dev.setMg_holdBy (d : Dev) (g : Nat) (x : MGroup) : (d.setMg g x).holdBy = d.holdBy := rfl
@[simp] theorem Dev.setMg_holdFrom (d : Dev) (g : Nat) (x : MGroup) : (d.setMg g x).holdFrom = d.holdFrom := rfl
@[simp] theorem Dev.setMg_sleptAt (d : Dev) (g : Nat) (x : MGroup) : (d.setMg g x).sleptAt = d.sleptAt := rfl
@[simp] theorem Dev.setMg_sup (d : Dev) (g : Nat) (x : MGroup) : (d.setMg g x).sup = d.sup := rfl
@[simp] theorem Dev.setMg_strands (d : Dev) (g : Nat) (x : MGroup) : (d.setMg g x).strands = d.strands := rfl
@[simp] theorem Dev.setMg_lkt (d : Dev) (g : Nat) (x : MGroup) : (d.setMg g x).lkt = d.lkt := rfl
@[simp] theorem Dev.setMg_epochs (d : Dev) (g : Nat) (x : MGroup) : (d.setMg g x).epochs = d.epochs := rfl
@[simp] theorem Dev.setMg_loupe (d : Dev) (g : Nat) (x : MGroup) : (d.setMg g x).loupe = d.loupe := rfl
@[simp] theorem Dev.setMg_hm (d : Dev) (g : Nat) (x : MGroup) : (d.setMg g x).hm = d.hm := rfl
@[simp] theorem Dev.setMg_flashes (d : Dev) (g : Nat) (x : MGroup) : (d.setMg g x).flashes = d.flashes := rfl
@[simp] theorem Dev.setMg_upd (d : Dev) (g : Nat) (x : MGroup) : (d.setMg g x).upd = d.upd := rfl
@[simp] theorem Dev.setMg_cyc (d : Dev) (g : Nat) (x : MGroup) : (d.setMg g x).cyc = d.cyc := rfl
@[simp] theorem Dev.setMg_out (d : Dev) (g : Nat) (x : MGroup) : (d.setMg g x).out = d.out := rfl

@[simp] theorem Dev.setLink_ns (d : Dev) (b : Bool) (x : Link) : (d.setLink b x).ns = d.ns := rfl
@[simp] theorem Dev.setLink_mode (d : Dev) (b : Bool) (x : Link) : (d.setLink b x).mode = d.mode := rfl
@[simp] theorem Dev.setLink_base (d : Dev) (b : Bool) (x : Link) : (d.setLink b x).base = d.base := rfl
@[simp] theorem Dev.setLink_por (d : Dev) (b : Bool) (x : Link) : (d.setLink b x).por = d.por := rfl
@[simp] theorem Dev.setLink_devLock (d : Dev) (b : Bool) (x : Link) : (d.setLink b x).devLock = d.devLock := rfl
@[simp] theorem Dev.setLink_cfg (d : Dev) (b : Bool) (x : Link) : (d.setLink b x).cfg = d.cfg := rfl
@[simp] theorem Dev.setLink_holdBy (d : Dev) (b : Bool) (x : Link) : (d.setLink b x).holdBy = d.holdBy := rfl
@[simp] theorem Dev.setLink_holdFrom (d : Dev) (b : Bool) (x : Link) : (d.setLink b x).holdFrom = d.holdFrom := rfl
@[simp] theorem Dev.setLink_sleptAt (d : Dev) (b : Bool) (x : Link) : (d.setLink b x).sleptAt = d.sleptAt := rfl
@[simp] theorem Dev.setLink_sup (d : Dev) (b : Bool) (x : Link) : (d.setLink b x).sup = d.sup := rfl
@[simp] theorem Dev.setLink_strands (d : Dev) (b : Bool) (x : Link) : (d.setLink b x).strands = d.strands := rfl
@[simp] theorem Dev.setLink_lkt (d : Dev) (b : Bool) (x : Link) : (d.setLink b x).lkt = d.lkt := rfl
@[simp] theorem Dev.setLink_epochs (d : Dev) (b : Bool) (x : Link) : (d.setLink b x).epochs = d.epochs := rfl
@[simp] theorem Dev.setLink_loupe (d : Dev) (b : Bool) (x : Link) : (d.setLink b x).loupe = d.loupe := rfl
@[simp] theorem Dev.setLink_hm (d : Dev) (b : Bool) (x : Link) : (d.setLink b x).hm = d.hm := rfl
@[simp] theorem Dev.setLink_flashes (d : Dev) (b : Bool) (x : Link) : (d.setLink b x).flashes = d.flashes := rfl
@[simp] theorem Dev.setLink_upd (d : Dev) (b : Bool) (x : Link) : (d.setLink b x).upd = d.upd := rfl
@[simp] theorem Dev.setLink_cyc (d : Dev) (b : Bool) (x : Link) : (d.setLink b x).cyc = d.cyc := rfl
@[simp] theorem Dev.setLink_out (d : Dev) (b : Bool) (x : Link) : (d.setLink b x).out = d.out := rfl

/-! ## A strand -/

@[simp] theorem StrandSt.wr_env (st : StrandSt) (a : Nat) (v : Word) : (st.wr a v).env = st.env := rfl
@[simp] theorem StrandSt.wr_now (st : StrandSt) (a : Nat) (v : Word) : (st.wr a v).now = st.now := rfl
@[simp] theorem StrandSt.wr_cnt (st : StrandSt) (a : Nat) (v : Word) : (st.wr a v).cnt = st.cnt := rfl
@[simp] theorem StrandSt.wr_snap (st : StrandSt) (a : Nat) (v : Word) : (st.wr a v).snap = st.snap := rfl
@[simp] theorem StrandSt.wr_bead (st : StrandSt) (a : Nat) (v : Word) : (st.wr a v).bead = st.bead := rfl
@[simp] theorem StrandSt.wr_bp (st : StrandSt) (a : Nat) (v : Word) : (st.wr a v).bp = st.bp := rfl
@[simp] theorem StrandSt.wr_ports (st : StrandSt) (a : Nat) (v : Word) : (st.wr a v).ports = st.ports := rfl
@[simp] theorem StrandSt.wr_pt (st : StrandSt) (a : Nat) (v : Word) : (st.wr a v).pt = st.pt := rfl
@[simp] theorem StrandSt.wr_sw (st : StrandSt) (a : Nat) (v : Word) : (st.wr a v).sw = st.sw := rfl
@[simp] theorem StrandSt.wr_time (st : StrandSt) (a : Nat) (v : Word) : (st.wr a v).time = st.time := rfl
@[simp] theorem StrandSt.wr_bng (st : StrandSt) (a : Nat) (v : Word) : (st.wr a v).bng = st.bng := rfl
@[simp] theorem StrandSt.wr_flg (st : StrandSt) (a : Nat) (v : Word) : (st.wr a v).flg = st.flg := rfl
@[simp] theorem StrandSt.wr_dma (st : StrandSt) (a : Nat) (v : Word) : (st.wr a v).dma = st.dma := rfl
@[simp] theorem StrandSt.wr_ledger (st : StrandSt) (a : Nat) (v : Word) : (st.wr a v).ledger = st.ledger := rfl
@[simp] theorem StrandSt.wr_map (st : StrandSt) (a : Nat) (v : Word) : (st.wr a v).map = st.map := rfl
@[simp] theorem StrandSt.wr_pkgs (st : StrandSt) (a : Nat) (v : Word) : (st.wr a v).pkgs = st.pkgs := rfl
@[simp] theorem StrandSt.wr_machines (st : StrandSt) (a : Nat) (v : Word) : (st.wr a v).machines = st.machines := rfl
@[simp] theorem StrandSt.wr_core (st : StrandSt) (a : Nat) (v : Word) : (st.wr a v).core = st.core := rfl
@[simp] theorem StrandSt.wr_banks (st : StrandSt) (a : Nat) (v : Word) : (st.wr a v).banks = st.banks := rfl
@[simp] theorem StrandSt.wr_cyc (st : StrandSt) (a : Nat) (v : Word) : (st.wr a v).cyc = st.cyc := rfl
@[simp] theorem StrandSt.wr_reports (st : StrandSt) (a : Nat) (v : Word) : (st.wr a v).reports = st.reports := rfl
@[simp] theorem StrandSt.wr_outs (st : StrandSt) (a : Nat) (v : Word) : (st.wr a v).outs = st.outs := rfl

@[simp] theorem StrandSt.put_env (st : StrandSt) (a h l v : Nat) : (st.put a h l v).env = st.env := rfl
@[simp] theorem StrandSt.put_now (st : StrandSt) (a h l v : Nat) : (st.put a h l v).now = st.now := rfl
@[simp] theorem StrandSt.put_cnt (st : StrandSt) (a h l v : Nat) : (st.put a h l v).cnt = st.cnt := rfl
@[simp] theorem StrandSt.put_snap (st : StrandSt) (a h l v : Nat) : (st.put a h l v).snap = st.snap := rfl
@[simp] theorem StrandSt.put_bead (st : StrandSt) (a h l v : Nat) : (st.put a h l v).bead = st.bead := rfl
@[simp] theorem StrandSt.put_bp (st : StrandSt) (a h l v : Nat) : (st.put a h l v).bp = st.bp := rfl
@[simp] theorem StrandSt.put_ports (st : StrandSt) (a h l v : Nat) : (st.put a h l v).ports = st.ports := rfl
@[simp] theorem StrandSt.put_pt (st : StrandSt) (a h l v : Nat) : (st.put a h l v).pt = st.pt := rfl
@[simp] theorem StrandSt.put_sw (st : StrandSt) (a h l v : Nat) : (st.put a h l v).sw = st.sw := rfl
@[simp] theorem StrandSt.put_time (st : StrandSt) (a h l v : Nat) : (st.put a h l v).time = st.time := rfl
@[simp] theorem StrandSt.put_bng (st : StrandSt) (a h l v : Nat) : (st.put a h l v).bng = st.bng := rfl
@[simp] theorem StrandSt.put_flg (st : StrandSt) (a h l v : Nat) : (st.put a h l v).flg = st.flg := rfl
@[simp] theorem StrandSt.put_dma (st : StrandSt) (a h l v : Nat) : (st.put a h l v).dma = st.dma := rfl
@[simp] theorem StrandSt.put_ledger (st : StrandSt) (a h l v : Nat) : (st.put a h l v).ledger = st.ledger := rfl
@[simp] theorem StrandSt.put_map (st : StrandSt) (a h l v : Nat) : (st.put a h l v).map = st.map := rfl
@[simp] theorem StrandSt.put_pkgs (st : StrandSt) (a h l v : Nat) : (st.put a h l v).pkgs = st.pkgs := rfl
@[simp] theorem StrandSt.put_machines (st : StrandSt) (a h l v : Nat) : (st.put a h l v).machines = st.machines := rfl
@[simp] theorem StrandSt.put_core (st : StrandSt) (a h l v : Nat) : (st.put a h l v).core = st.core := rfl
@[simp] theorem StrandSt.put_banks (st : StrandSt) (a h l v : Nat) : (st.put a h l v).banks = st.banks := rfl
@[simp] theorem StrandSt.put_cyc (st : StrandSt) (a h l v : Nat) : (st.put a h l v).cyc = st.cyc := rfl
@[simp] theorem StrandSt.put_reports (st : StrandSt) (a h l v : Nat) : (st.put a h l v).reports = st.reports := rfl
@[simp] theorem StrandSt.put_outs (st : StrandSt) (a h l v : Nat) : (st.put a h l v).outs = st.outs := rfl

@[simp] theorem StrandSt.putBit_env (st : StrandSt) (a k : Nat) (b : Bool) : (st.putBit a k b).env = st.env := rfl
@[simp] theorem StrandSt.putBit_now (st : StrandSt) (a k : Nat) (b : Bool) : (st.putBit a k b).now = st.now := rfl
@[simp] theorem StrandSt.putBit_cnt (st : StrandSt) (a k : Nat) (b : Bool) : (st.putBit a k b).cnt = st.cnt := rfl
@[simp] theorem StrandSt.putBit_snap (st : StrandSt) (a k : Nat) (b : Bool) : (st.putBit a k b).snap = st.snap := rfl
@[simp] theorem StrandSt.putBit_bead (st : StrandSt) (a k : Nat) (b : Bool) : (st.putBit a k b).bead = st.bead := rfl
@[simp] theorem StrandSt.putBit_bp (st : StrandSt) (a k : Nat) (b : Bool) : (st.putBit a k b).bp = st.bp := rfl
@[simp] theorem StrandSt.putBit_ports (st : StrandSt) (a k : Nat) (b : Bool) : (st.putBit a k b).ports = st.ports := rfl
@[simp] theorem StrandSt.putBit_pt (st : StrandSt) (a k : Nat) (b : Bool) : (st.putBit a k b).pt = st.pt := rfl
@[simp] theorem StrandSt.putBit_sw (st : StrandSt) (a k : Nat) (b : Bool) : (st.putBit a k b).sw = st.sw := rfl
@[simp] theorem StrandSt.putBit_time (st : StrandSt) (a k : Nat) (b : Bool) : (st.putBit a k b).time = st.time := rfl
@[simp] theorem StrandSt.putBit_bng (st : StrandSt) (a k : Nat) (b : Bool) : (st.putBit a k b).bng = st.bng := rfl
@[simp] theorem StrandSt.putBit_flg (st : StrandSt) (a k : Nat) (b : Bool) : (st.putBit a k b).flg = st.flg := rfl
@[simp] theorem StrandSt.putBit_dma (st : StrandSt) (a k : Nat) (b : Bool) : (st.putBit a k b).dma = st.dma := rfl
@[simp] theorem StrandSt.putBit_ledger (st : StrandSt) (a k : Nat) (b : Bool) : (st.putBit a k b).ledger = st.ledger := rfl
@[simp] theorem StrandSt.putBit_map (st : StrandSt) (a k : Nat) (b : Bool) : (st.putBit a k b).map = st.map := rfl
@[simp] theorem StrandSt.putBit_pkgs (st : StrandSt) (a k : Nat) (b : Bool) : (st.putBit a k b).pkgs = st.pkgs := rfl
@[simp] theorem StrandSt.putBit_machines (st : StrandSt) (a k : Nat) (b : Bool) : (st.putBit a k b).machines = st.machines := rfl
@[simp] theorem StrandSt.putBit_core (st : StrandSt) (a k : Nat) (b : Bool) : (st.putBit a k b).core = st.core := rfl
@[simp] theorem StrandSt.putBit_banks (st : StrandSt) (a k : Nat) (b : Bool) : (st.putBit a k b).banks = st.banks := rfl
@[simp] theorem StrandSt.putBit_cyc (st : StrandSt) (a k : Nat) (b : Bool) : (st.putBit a k b).cyc = st.cyc := rfl
@[simp] theorem StrandSt.putBit_reports (st : StrandSt) (a k : Nat) (b : Bool) : (st.putBit a k b).reports = st.reports := rfl
@[simp] theorem StrandSt.putBit_outs (st : StrandSt) (a k : Nat) (b : Bool) : (st.putBit a k b).outs = st.outs := rfl

@[simp] theorem StrandSt.flag_env (st : StrandSt) (a k : Nat) : (st.flag a k).env = st.env := rfl
@[simp] theorem StrandSt.flag_now (st : StrandSt) (a k : Nat) : (st.flag a k).now = st.now := rfl
@[simp] theorem StrandSt.flag_cnt (st : StrandSt) (a k : Nat) : (st.flag a k).cnt = st.cnt := rfl
@[simp] theorem StrandSt.flag_snap (st : StrandSt) (a k : Nat) : (st.flag a k).snap = st.snap := rfl
@[simp] theorem StrandSt.flag_bead (st : StrandSt) (a k : Nat) : (st.flag a k).bead = st.bead := rfl
@[simp] theorem StrandSt.flag_bp (st : StrandSt) (a k : Nat) : (st.flag a k).bp = st.bp := rfl
@[simp] theorem StrandSt.flag_ports (st : StrandSt) (a k : Nat) : (st.flag a k).ports = st.ports := rfl
@[simp] theorem StrandSt.flag_pt (st : StrandSt) (a k : Nat) : (st.flag a k).pt = st.pt := rfl
@[simp] theorem StrandSt.flag_sw (st : StrandSt) (a k : Nat) : (st.flag a k).sw = st.sw := rfl
@[simp] theorem StrandSt.flag_time (st : StrandSt) (a k : Nat) : (st.flag a k).time = st.time := rfl
@[simp] theorem StrandSt.flag_bng (st : StrandSt) (a k : Nat) : (st.flag a k).bng = st.bng := rfl
@[simp] theorem StrandSt.flag_flg (st : StrandSt) (a k : Nat) : (st.flag a k).flg = st.flg := rfl
@[simp] theorem StrandSt.flag_dma (st : StrandSt) (a k : Nat) : (st.flag a k).dma = st.dma := rfl
@[simp] theorem StrandSt.flag_ledger (st : StrandSt) (a k : Nat) : (st.flag a k).ledger = st.ledger := rfl
@[simp] theorem StrandSt.flag_map (st : StrandSt) (a k : Nat) : (st.flag a k).map = st.map := rfl
@[simp] theorem StrandSt.flag_pkgs (st : StrandSt) (a k : Nat) : (st.flag a k).pkgs = st.pkgs := rfl
@[simp] theorem StrandSt.flag_machines (st : StrandSt) (a k : Nat) : (st.flag a k).machines = st.machines := rfl
@[simp] theorem StrandSt.flag_core (st : StrandSt) (a k : Nat) : (st.flag a k).core = st.core := rfl
@[simp] theorem StrandSt.flag_banks (st : StrandSt) (a k : Nat) : (st.flag a k).banks = st.banks := rfl
@[simp] theorem StrandSt.flag_reports (st : StrandSt) (a k : Nat) : (st.flag a k).reports = st.reports := rfl
@[simp] theorem StrandSt.flag_outs (st : StrandSt) (a k : Nat) : (st.flag a k).outs = st.outs := rfl

@[simp] theorem StrandSt.addCnt_env (st : StrandSt) (a n : Nat) : (st.addCnt a n).env = st.env := rfl
@[simp] theorem StrandSt.addCnt_now (st : StrandSt) (a n : Nat) : (st.addCnt a n).now = st.now := rfl
@[simp] theorem StrandSt.addCnt_regs (st : StrandSt) (a n : Nat) : (st.addCnt a n).regs = st.regs := rfl
@[simp] theorem StrandSt.addCnt_snap (st : StrandSt) (a n : Nat) : (st.addCnt a n).snap = st.snap := rfl
@[simp] theorem StrandSt.addCnt_bead (st : StrandSt) (a n : Nat) : (st.addCnt a n).bead = st.bead := rfl
@[simp] theorem StrandSt.addCnt_bp (st : StrandSt) (a n : Nat) : (st.addCnt a n).bp = st.bp := rfl
@[simp] theorem StrandSt.addCnt_ports (st : StrandSt) (a n : Nat) : (st.addCnt a n).ports = st.ports := rfl
@[simp] theorem StrandSt.addCnt_pt (st : StrandSt) (a n : Nat) : (st.addCnt a n).pt = st.pt := rfl
@[simp] theorem StrandSt.addCnt_sw (st : StrandSt) (a n : Nat) : (st.addCnt a n).sw = st.sw := rfl
@[simp] theorem StrandSt.addCnt_time (st : StrandSt) (a n : Nat) : (st.addCnt a n).time = st.time := rfl
@[simp] theorem StrandSt.addCnt_bng (st : StrandSt) (a n : Nat) : (st.addCnt a n).bng = st.bng := rfl
@[simp] theorem StrandSt.addCnt_flg (st : StrandSt) (a n : Nat) : (st.addCnt a n).flg = st.flg := rfl
@[simp] theorem StrandSt.addCnt_dma (st : StrandSt) (a n : Nat) : (st.addCnt a n).dma = st.dma := rfl
@[simp] theorem StrandSt.addCnt_ledger (st : StrandSt) (a n : Nat) : (st.addCnt a n).ledger = st.ledger := rfl
@[simp] theorem StrandSt.addCnt_map (st : StrandSt) (a n : Nat) : (st.addCnt a n).map = st.map := rfl
@[simp] theorem StrandSt.addCnt_pkgs (st : StrandSt) (a n : Nat) : (st.addCnt a n).pkgs = st.pkgs := rfl
@[simp] theorem StrandSt.addCnt_machines (st : StrandSt) (a n : Nat) : (st.addCnt a n).machines = st.machines := rfl
@[simp] theorem StrandSt.addCnt_core (st : StrandSt) (a n : Nat) : (st.addCnt a n).core = st.core := rfl
@[simp] theorem StrandSt.addCnt_banks (st : StrandSt) (a n : Nat) : (st.addCnt a n).banks = st.banks := rfl
@[simp] theorem StrandSt.addCnt_reports (st : StrandSt) (a n : Nat) : (st.addCnt a n).reports = st.reports := rfl
@[simp] theorem StrandSt.addCnt_outs (st : StrandSt) (a n : Nat) : (st.addCnt a n).outs = st.outs := rfl

@[simp] theorem StrandSt.inc_env (st : StrandSt) (a : Nat) : (st.inc a).env = st.env := rfl
@[simp] theorem StrandSt.inc_now (st : StrandSt) (a : Nat) : (st.inc a).now = st.now := rfl
@[simp] theorem StrandSt.inc_regs (st : StrandSt) (a : Nat) : (st.inc a).regs = st.regs := rfl
@[simp] theorem StrandSt.inc_snap (st : StrandSt) (a : Nat) : (st.inc a).snap = st.snap := rfl
@[simp] theorem StrandSt.inc_bead (st : StrandSt) (a : Nat) : (st.inc a).bead = st.bead := rfl
@[simp] theorem StrandSt.inc_bp (st : StrandSt) (a : Nat) : (st.inc a).bp = st.bp := rfl
@[simp] theorem StrandSt.inc_ports (st : StrandSt) (a : Nat) : (st.inc a).ports = st.ports := rfl
@[simp] theorem StrandSt.inc_pt (st : StrandSt) (a : Nat) : (st.inc a).pt = st.pt := rfl
@[simp] theorem StrandSt.inc_sw (st : StrandSt) (a : Nat) : (st.inc a).sw = st.sw := rfl
@[simp] theorem StrandSt.inc_time (st : StrandSt) (a : Nat) : (st.inc a).time = st.time := rfl
@[simp] theorem StrandSt.inc_bng (st : StrandSt) (a : Nat) : (st.inc a).bng = st.bng := rfl
@[simp] theorem StrandSt.inc_flg (st : StrandSt) (a : Nat) : (st.inc a).flg = st.flg := rfl
@[simp] theorem StrandSt.inc_dma (st : StrandSt) (a : Nat) : (st.inc a).dma = st.dma := rfl
@[simp] theorem StrandSt.inc_ledger (st : StrandSt) (a : Nat) : (st.inc a).ledger = st.ledger := rfl
@[simp] theorem StrandSt.inc_map (st : StrandSt) (a : Nat) : (st.inc a).map = st.map := rfl
@[simp] theorem StrandSt.inc_pkgs (st : StrandSt) (a : Nat) : (st.inc a).pkgs = st.pkgs := rfl
@[simp] theorem StrandSt.inc_machines (st : StrandSt) (a : Nat) : (st.inc a).machines = st.machines := rfl
@[simp] theorem StrandSt.inc_core (st : StrandSt) (a : Nat) : (st.inc a).core = st.core := rfl
@[simp] theorem StrandSt.inc_banks (st : StrandSt) (a : Nat) : (st.inc a).banks = st.banks := rfl
@[simp] theorem StrandSt.inc_reports (st : StrandSt) (a : Nat) : (st.inc a).reports = st.reports := rfl
@[simp] theorem StrandSt.inc_outs (st : StrandSt) (a : Nat) : (st.inc a).outs = st.outs := rfl

@[simp] theorem StrandSt.snapRange_env (st : StrandSt) (lo hi : Nat) : (st.snapRange lo hi).env = st.env := rfl
@[simp] theorem StrandSt.snapRange_now (st : StrandSt) (lo hi : Nat) : (st.snapRange lo hi).now = st.now := rfl
@[simp] theorem StrandSt.snapRange_regs (st : StrandSt) (lo hi : Nat) : (st.snapRange lo hi).regs = st.regs := rfl
@[simp] theorem StrandSt.snapRange_bead (st : StrandSt) (lo hi : Nat) : (st.snapRange lo hi).bead = st.bead := rfl
@[simp] theorem StrandSt.snapRange_bp (st : StrandSt) (lo hi : Nat) : (st.snapRange lo hi).bp = st.bp := rfl
@[simp] theorem StrandSt.snapRange_ports (st : StrandSt) (lo hi : Nat) : (st.snapRange lo hi).ports = st.ports := rfl
@[simp] theorem StrandSt.snapRange_pt (st : StrandSt) (lo hi : Nat) : (st.snapRange lo hi).pt = st.pt := rfl
@[simp] theorem StrandSt.snapRange_sw (st : StrandSt) (lo hi : Nat) : (st.snapRange lo hi).sw = st.sw := rfl
@[simp] theorem StrandSt.snapRange_time (st : StrandSt) (lo hi : Nat) : (st.snapRange lo hi).time = st.time := rfl
@[simp] theorem StrandSt.snapRange_bng (st : StrandSt) (lo hi : Nat) : (st.snapRange lo hi).bng = st.bng := rfl
@[simp] theorem StrandSt.snapRange_flg (st : StrandSt) (lo hi : Nat) : (st.snapRange lo hi).flg = st.flg := rfl
@[simp] theorem StrandSt.snapRange_dma (st : StrandSt) (lo hi : Nat) : (st.snapRange lo hi).dma = st.dma := rfl
@[simp] theorem StrandSt.snapRange_ledger (st : StrandSt) (lo hi : Nat) : (st.snapRange lo hi).ledger = st.ledger := rfl
@[simp] theorem StrandSt.snapRange_map (st : StrandSt) (lo hi : Nat) : (st.snapRange lo hi).map = st.map := rfl
@[simp] theorem StrandSt.snapRange_pkgs (st : StrandSt) (lo hi : Nat) : (st.snapRange lo hi).pkgs = st.pkgs := rfl
@[simp] theorem StrandSt.snapRange_machines (st : StrandSt) (lo hi : Nat) : (st.snapRange lo hi).machines = st.machines := rfl
@[simp] theorem StrandSt.snapRange_core (st : StrandSt) (lo hi : Nat) : (st.snapRange lo hi).core = st.core := rfl
@[simp] theorem StrandSt.snapRange_banks (st : StrandSt) (lo hi : Nat) : (st.snapRange lo hi).banks = st.banks := rfl
@[simp] theorem StrandSt.snapRange_reports (st : StrandSt) (lo hi : Nat) : (st.snapRange lo hi).reports = st.reports := rfl
@[simp] theorem StrandSt.snapRange_outs (st : StrandSt) (lo hi : Nat) : (st.snapRange lo hi).outs = st.outs := rfl

@[simp] theorem StrandSt.report_env (st : StrandSt) (c : Nat) (k : FClass) (a : List Nat) : (st.report c k a).env = st.env := rfl
@[simp] theorem StrandSt.report_now (st : StrandSt) (c : Nat) (k : FClass) (a : List Nat) : (st.report c k a).now = st.now := rfl
@[simp] theorem StrandSt.report_regs (st : StrandSt) (c : Nat) (k : FClass) (a : List Nat) : (st.report c k a).regs = st.regs := rfl
@[simp] theorem StrandSt.report_cnt (st : StrandSt) (c : Nat) (k : FClass) (a : List Nat) : (st.report c k a).cnt = st.cnt := rfl
@[simp] theorem StrandSt.report_snap (st : StrandSt) (c : Nat) (k : FClass) (a : List Nat) : (st.report c k a).snap = st.snap := rfl
@[simp] theorem StrandSt.report_bead (st : StrandSt) (c : Nat) (k : FClass) (a : List Nat) : (st.report c k a).bead = st.bead := rfl
@[simp] theorem StrandSt.report_bp (st : StrandSt) (c : Nat) (k : FClass) (a : List Nat) : (st.report c k a).bp = st.bp := rfl
@[simp] theorem StrandSt.report_ports (st : StrandSt) (c : Nat) (k : FClass) (a : List Nat) : (st.report c k a).ports = st.ports := rfl
@[simp] theorem StrandSt.report_pt (st : StrandSt) (c : Nat) (k : FClass) (a : List Nat) : (st.report c k a).pt = st.pt := rfl
@[simp] theorem StrandSt.report_sw (st : StrandSt) (c : Nat) (k : FClass) (a : List Nat) : (st.report c k a).sw = st.sw := rfl
@[simp] theorem StrandSt.report_time (st : StrandSt) (c : Nat) (k : FClass) (a : List Nat) : (st.report c k a).time = st.time := rfl
@[simp] theorem StrandSt.report_bng (st : StrandSt) (c : Nat) (k : FClass) (a : List Nat) : (st.report c k a).bng = st.bng := rfl
@[simp] theorem StrandSt.report_flg (st : StrandSt) (c : Nat) (k : FClass) (a : List Nat) : (st.report c k a).flg = st.flg := rfl
@[simp] theorem StrandSt.report_dma (st : StrandSt) (c : Nat) (k : FClass) (a : List Nat) : (st.report c k a).dma = st.dma := rfl
@[simp] theorem StrandSt.report_ledger (st : StrandSt) (c : Nat) (k : FClass) (a : List Nat) : (st.report c k a).ledger = st.ledger := rfl
@[simp] theorem StrandSt.report_map (st : StrandSt) (c : Nat) (k : FClass) (a : List Nat) : (st.report c k a).map = st.map := rfl
@[simp] theorem StrandSt.report_pkgs (st : StrandSt) (c : Nat) (k : FClass) (a : List Nat) : (st.report c k a).pkgs = st.pkgs := rfl
@[simp] theorem StrandSt.report_machines (st : StrandSt) (c : Nat) (k : FClass) (a : List Nat) : (st.report c k a).machines = st.machines := rfl
@[simp] theorem StrandSt.report_core (st : StrandSt) (c : Nat) (k : FClass) (a : List Nat) : (st.report c k a).core = st.core := rfl
@[simp] theorem StrandSt.report_banks (st : StrandSt) (c : Nat) (k : FClass) (a : List Nat) : (st.report c k a).banks = st.banks := rfl
@[simp] theorem StrandSt.report_cyc (st : StrandSt) (c : Nat) (k : FClass) (a : List Nat) : (st.report c k a).cyc = st.cyc := rfl
@[simp] theorem StrandSt.report_outs (st : StrandSt) (c : Nat) (k : FClass) (a : List Nat) : (st.report c k a).outs = st.outs := rfl

@[simp] theorem StrandSt.reportOnce_env (st : StrandSt) (c : Nat) (k : FClass) (y : Nat) (a : List Nat) : (st.reportOnce c k y a).env = st.env := rfl
@[simp] theorem StrandSt.reportOnce_now (st : StrandSt) (c : Nat) (k : FClass) (y : Nat) (a : List Nat) : (st.reportOnce c k y a).now = st.now := rfl
@[simp] theorem StrandSt.reportOnce_regs (st : StrandSt) (c : Nat) (k : FClass) (y : Nat) (a : List Nat) : (st.reportOnce c k y a).regs = st.regs := rfl
@[simp] theorem StrandSt.reportOnce_cnt (st : StrandSt) (c : Nat) (k : FClass) (y : Nat) (a : List Nat) : (st.reportOnce c k y a).cnt = st.cnt := rfl
@[simp] theorem StrandSt.reportOnce_snap (st : StrandSt) (c : Nat) (k : FClass) (y : Nat) (a : List Nat) : (st.reportOnce c k y a).snap = st.snap := rfl
@[simp] theorem StrandSt.reportOnce_bead (st : StrandSt) (c : Nat) (k : FClass) (y : Nat) (a : List Nat) : (st.reportOnce c k y a).bead = st.bead := rfl
@[simp] theorem StrandSt.reportOnce_bp (st : StrandSt) (c : Nat) (k : FClass) (y : Nat) (a : List Nat) : (st.reportOnce c k y a).bp = st.bp := rfl
@[simp] theorem StrandSt.reportOnce_ports (st : StrandSt) (c : Nat) (k : FClass) (y : Nat) (a : List Nat) : (st.reportOnce c k y a).ports = st.ports := rfl
@[simp] theorem StrandSt.reportOnce_pt (st : StrandSt) (c : Nat) (k : FClass) (y : Nat) (a : List Nat) : (st.reportOnce c k y a).pt = st.pt := rfl
@[simp] theorem StrandSt.reportOnce_sw (st : StrandSt) (c : Nat) (k : FClass) (y : Nat) (a : List Nat) : (st.reportOnce c k y a).sw = st.sw := rfl
@[simp] theorem StrandSt.reportOnce_time (st : StrandSt) (c : Nat) (k : FClass) (y : Nat) (a : List Nat) : (st.reportOnce c k y a).time = st.time := rfl
@[simp] theorem StrandSt.reportOnce_bng (st : StrandSt) (c : Nat) (k : FClass) (y : Nat) (a : List Nat) : (st.reportOnce c k y a).bng = st.bng := rfl
@[simp] theorem StrandSt.reportOnce_flg (st : StrandSt) (c : Nat) (k : FClass) (y : Nat) (a : List Nat) : (st.reportOnce c k y a).flg = st.flg := rfl
@[simp] theorem StrandSt.reportOnce_dma (st : StrandSt) (c : Nat) (k : FClass) (y : Nat) (a : List Nat) : (st.reportOnce c k y a).dma = st.dma := rfl
@[simp] theorem StrandSt.reportOnce_ledger (st : StrandSt) (c : Nat) (k : FClass) (y : Nat) (a : List Nat) : (st.reportOnce c k y a).ledger = st.ledger := rfl
@[simp] theorem StrandSt.reportOnce_map (st : StrandSt) (c : Nat) (k : FClass) (y : Nat) (a : List Nat) : (st.reportOnce c k y a).map = st.map := rfl
@[simp] theorem StrandSt.reportOnce_pkgs (st : StrandSt) (c : Nat) (k : FClass) (y : Nat) (a : List Nat) : (st.reportOnce c k y a).pkgs = st.pkgs := rfl
@[simp] theorem StrandSt.reportOnce_machines (st : StrandSt) (c : Nat) (k : FClass) (y : Nat) (a : List Nat) : (st.reportOnce c k y a).machines = st.machines := rfl
@[simp] theorem StrandSt.reportOnce_core (st : StrandSt) (c : Nat) (k : FClass) (y : Nat) (a : List Nat) : (st.reportOnce c k y a).core = st.core := rfl
@[simp] theorem StrandSt.reportOnce_banks (st : StrandSt) (c : Nat) (k : FClass) (y : Nat) (a : List Nat) : (st.reportOnce c k y a).banks = st.banks := rfl
@[simp] theorem StrandSt.reportOnce_cyc (st : StrandSt) (c : Nat) (k : FClass) (y : Nat) (a : List Nat) : (st.reportOnce c k y a).cyc = st.cyc := rfl
@[simp] theorem StrandSt.reportOnce_outs (st : StrandSt) (c : Nat) (k : FClass) (y : Nat) (a : List Nat) : (st.reportOnce c k y a).outs = st.outs := rfl

@[simp] theorem StrandSt.emit_env (st : StrandSt) (o : Out) : (st.emit o).env = st.env := rfl
@[simp] theorem StrandSt.emit_now (st : StrandSt) (o : Out) : (st.emit o).now = st.now := rfl
@[simp] theorem StrandSt.emit_regs (st : StrandSt) (o : Out) : (st.emit o).regs = st.regs := rfl
@[simp] theorem StrandSt.emit_cnt (st : StrandSt) (o : Out) : (st.emit o).cnt = st.cnt := rfl
@[simp] theorem StrandSt.emit_snap (st : StrandSt) (o : Out) : (st.emit o).snap = st.snap := rfl
@[simp] theorem StrandSt.emit_bead (st : StrandSt) (o : Out) : (st.emit o).bead = st.bead := rfl
@[simp] theorem StrandSt.emit_bp (st : StrandSt) (o : Out) : (st.emit o).bp = st.bp := rfl
@[simp] theorem StrandSt.emit_ports (st : StrandSt) (o : Out) : (st.emit o).ports = st.ports := rfl
@[simp] theorem StrandSt.emit_pt (st : StrandSt) (o : Out) : (st.emit o).pt = st.pt := rfl
@[simp] theorem StrandSt.emit_sw (st : StrandSt) (o : Out) : (st.emit o).sw = st.sw := rfl
@[simp] theorem StrandSt.emit_time (st : StrandSt) (o : Out) : (st.emit o).time = st.time := rfl
@[simp] theorem StrandSt.emit_bng (st : StrandSt) (o : Out) : (st.emit o).bng = st.bng := rfl
@[simp] theorem StrandSt.emit_flg (st : StrandSt) (o : Out) : (st.emit o).flg = st.flg := rfl
@[simp] theorem StrandSt.emit_dma (st : StrandSt) (o : Out) : (st.emit o).dma = st.dma := rfl
@[simp] theorem StrandSt.emit_ledger (st : StrandSt) (o : Out) : (st.emit o).ledger = st.ledger := rfl
@[simp] theorem StrandSt.emit_map (st : StrandSt) (o : Out) : (st.emit o).map = st.map := rfl
@[simp] theorem StrandSt.emit_pkgs (st : StrandSt) (o : Out) : (st.emit o).pkgs = st.pkgs := rfl
@[simp] theorem StrandSt.emit_machines (st : StrandSt) (o : Out) : (st.emit o).machines = st.machines := rfl
@[simp] theorem StrandSt.emit_core (st : StrandSt) (o : Out) : (st.emit o).core = st.core := rfl
@[simp] theorem StrandSt.emit_banks (st : StrandSt) (o : Out) : (st.emit o).banks = st.banks := rfl
@[simp] theorem StrandSt.emit_cyc (st : StrandSt) (o : Out) : (st.emit o).cyc = st.cyc := rfl
@[simp] theorem StrandSt.emit_reports (st : StrandSt) (o : Out) : (st.emit o).reports = st.reports := rfl

@[simp] theorem StrandSt.setEng_env (st : StrandSt) (n : Nat) (e : Engine) : (st.setEng n e).env = st.env := rfl
@[simp] theorem StrandSt.setEng_now (st : StrandSt) (n : Nat) (e : Engine) : (st.setEng n e).now = st.now := rfl
@[simp] theorem StrandSt.setEng_regs (st : StrandSt) (n : Nat) (e : Engine) : (st.setEng n e).regs = st.regs := rfl
@[simp] theorem StrandSt.setEng_cnt (st : StrandSt) (n : Nat) (e : Engine) : (st.setEng n e).cnt = st.cnt := rfl
@[simp] theorem StrandSt.setEng_snap (st : StrandSt) (n : Nat) (e : Engine) : (st.setEng n e).snap = st.snap := rfl
@[simp] theorem StrandSt.setEng_bp (st : StrandSt) (n : Nat) (e : Engine) : (st.setEng n e).bp = st.bp := rfl
@[simp] theorem StrandSt.setEng_ports (st : StrandSt) (n : Nat) (e : Engine) : (st.setEng n e).ports = st.ports := rfl
@[simp] theorem StrandSt.setEng_pt (st : StrandSt) (n : Nat) (e : Engine) : (st.setEng n e).pt = st.pt := rfl
@[simp] theorem StrandSt.setEng_sw (st : StrandSt) (n : Nat) (e : Engine) : (st.setEng n e).sw = st.sw := rfl
@[simp] theorem StrandSt.setEng_time (st : StrandSt) (n : Nat) (e : Engine) : (st.setEng n e).time = st.time := rfl
@[simp] theorem StrandSt.setEng_bng (st : StrandSt) (n : Nat) (e : Engine) : (st.setEng n e).bng = st.bng := rfl
@[simp] theorem StrandSt.setEng_flg (st : StrandSt) (n : Nat) (e : Engine) : (st.setEng n e).flg = st.flg := rfl
@[simp] theorem StrandSt.setEng_dma (st : StrandSt) (n : Nat) (e : Engine) : (st.setEng n e).dma = st.dma := rfl
@[simp] theorem StrandSt.setEng_ledger (st : StrandSt) (n : Nat) (e : Engine) : (st.setEng n e).ledger = st.ledger := rfl
@[simp] theorem StrandSt.setEng_map (st : StrandSt) (n : Nat) (e : Engine) : (st.setEng n e).map = st.map := rfl
@[simp] theorem StrandSt.setEng_pkgs (st : StrandSt) (n : Nat) (e : Engine) : (st.setEng n e).pkgs = st.pkgs := rfl
@[simp] theorem StrandSt.setEng_machines (st : StrandSt) (n : Nat) (e : Engine) : (st.setEng n e).machines = st.machines := rfl
@[simp] theorem StrandSt.setEng_core (st : StrandSt) (n : Nat) (e : Engine) : (st.setEng n e).core = st.core := rfl
@[simp] theorem StrandSt.setEng_banks (st : StrandSt) (n : Nat) (e : Engine) : (st.setEng n e).banks = st.banks := rfl
@[simp] theorem StrandSt.setEng_cyc (st : StrandSt) (n : Nat) (e : Engine) : (st.setEng n e).cyc = st.cyc := rfl
@[simp] theorem StrandSt.setEng_reports (st : StrandSt) (n : Nat) (e : Engine) : (st.setEng n e).reports = st.reports := rfl
@[simp] theorem StrandSt.setEng_outs (st : StrandSt) (n : Nat) (e : Engine) : (st.setEng n e).outs = st.outs := rfl

@[simp] theorem StrandSt.updEng_env (st : StrandSt) (n : Nat) (f : Engine → Engine) : (st.updEng n f).env = st.env := rfl
@[simp] theorem StrandSt.updEng_now (st : StrandSt) (n : Nat) (f : Engine → Engine) : (st.updEng n f).now = st.now := rfl
@[simp] theorem StrandSt.updEng_regs (st : StrandSt) (n : Nat) (f : Engine → Engine) : (st.updEng n f).regs = st.regs := rfl
@[simp] theorem StrandSt.updEng_cnt (st : StrandSt) (n : Nat) (f : Engine → Engine) : (st.updEng n f).cnt = st.cnt := rfl
@[simp] theorem StrandSt.updEng_snap (st : StrandSt) (n : Nat) (f : Engine → Engine) : (st.updEng n f).snap = st.snap := rfl
@[simp] theorem StrandSt.updEng_bp (st : StrandSt) (n : Nat) (f : Engine → Engine) : (st.updEng n f).bp = st.bp := rfl
@[simp] theorem StrandSt.updEng_ports (st : StrandSt) (n : Nat) (f : Engine → Engine) : (st.updEng n f).ports = st.ports := rfl
@[simp] theorem StrandSt.updEng_pt (st : StrandSt) (n : Nat) (f : Engine → Engine) : (st.updEng n f).pt = st.pt := rfl
@[simp] theorem StrandSt.updEng_sw (st : StrandSt) (n : Nat) (f : Engine → Engine) : (st.updEng n f).sw = st.sw := rfl
@[simp] theorem StrandSt.updEng_time (st : StrandSt) (n : Nat) (f : Engine → Engine) : (st.updEng n f).time = st.time := rfl
@[simp] theorem StrandSt.updEng_bng (st : StrandSt) (n : Nat) (f : Engine → Engine) : (st.updEng n f).bng = st.bng := rfl
@[simp] theorem StrandSt.updEng_flg (st : StrandSt) (n : Nat) (f : Engine → Engine) : (st.updEng n f).flg = st.flg := rfl
@[simp] theorem StrandSt.updEng_dma (st : StrandSt) (n : Nat) (f : Engine → Engine) : (st.updEng n f).dma = st.dma := rfl
@[simp] theorem StrandSt.updEng_ledger (st : StrandSt) (n : Nat) (f : Engine → Engine) : (st.updEng n f).ledger = st.ledger := rfl
@[simp] theorem StrandSt.updEng_map (st : StrandSt) (n : Nat) (f : Engine → Engine) : (st.updEng n f).map = st.map := rfl
@[simp] theorem StrandSt.updEng_pkgs (st : StrandSt) (n : Nat) (f : Engine → Engine) : (st.updEng n f).pkgs = st.pkgs := rfl
@[simp] theorem StrandSt.updEng_machines (st : StrandSt) (n : Nat) (f : Engine → Engine) : (st.updEng n f).machines = st.machines := rfl
@[simp] theorem StrandSt.updEng_core (st : StrandSt) (n : Nat) (f : Engine → Engine) : (st.updEng n f).core = st.core := rfl
@[simp] theorem StrandSt.updEng_banks (st : StrandSt) (n : Nat) (f : Engine → Engine) : (st.updEng n f).banks = st.banks := rfl
@[simp] theorem StrandSt.updEng_cyc (st : StrandSt) (n : Nat) (f : Engine → Engine) : (st.updEng n f).cyc = st.cyc := rfl
@[simp] theorem StrandSt.updEng_reports (st : StrandSt) (n : Nat) (f : Engine → Engine) : (st.updEng n f).reports = st.reports := rfl
@[simp] theorem StrandSt.updEng_outs (st : StrandSt) (n : Nat) (f : Engine → Engine) : (st.updEng n f).outs = st.outs := rfl

@[simp] theorem StrandSt.memWrite_env (st : StrandSt) (a : Nat) (b : List Byte) : (st.memWrite a b).env = st.env := rfl
@[simp] theorem StrandSt.memWrite_now (st : StrandSt) (a : Nat) (b : List Byte) : (st.memWrite a b).now = st.now := rfl
@[simp] theorem StrandSt.memWrite_regs (st : StrandSt) (a : Nat) (b : List Byte) : (st.memWrite a b).regs = st.regs := rfl
@[simp] theorem StrandSt.memWrite_cnt (st : StrandSt) (a : Nat) (b : List Byte) : (st.memWrite a b).cnt = st.cnt := rfl
@[simp] theorem StrandSt.memWrite_snap (st : StrandSt) (a : Nat) (b : List Byte) : (st.memWrite a b).snap = st.snap := rfl
@[simp] theorem StrandSt.memWrite_bead (st : StrandSt) (a : Nat) (b : List Byte) : (st.memWrite a b).bead = st.bead := rfl
@[simp] theorem StrandSt.memWrite_bp (st : StrandSt) (a : Nat) (b : List Byte) : (st.memWrite a b).bp = st.bp := rfl
@[simp] theorem StrandSt.memWrite_ports (st : StrandSt) (a : Nat) (b : List Byte) : (st.memWrite a b).ports = st.ports := rfl
@[simp] theorem StrandSt.memWrite_pt (st : StrandSt) (a : Nat) (b : List Byte) : (st.memWrite a b).pt = st.pt := rfl
@[simp] theorem StrandSt.memWrite_sw (st : StrandSt) (a : Nat) (b : List Byte) : (st.memWrite a b).sw = st.sw := rfl
@[simp] theorem StrandSt.memWrite_time (st : StrandSt) (a : Nat) (b : List Byte) : (st.memWrite a b).time = st.time := rfl
@[simp] theorem StrandSt.memWrite_bng (st : StrandSt) (a : Nat) (b : List Byte) : (st.memWrite a b).bng = st.bng := rfl
@[simp] theorem StrandSt.memWrite_flg (st : StrandSt) (a : Nat) (b : List Byte) : (st.memWrite a b).flg = st.flg := rfl
@[simp] theorem StrandSt.memWrite_dma (st : StrandSt) (a : Nat) (b : List Byte) : (st.memWrite a b).dma = st.dma := rfl
@[simp] theorem StrandSt.memWrite_ledger (st : StrandSt) (a : Nat) (b : List Byte) : (st.memWrite a b).ledger = st.ledger := rfl
@[simp] theorem StrandSt.memWrite_map (st : StrandSt) (a : Nat) (b : List Byte) : (st.memWrite a b).map = st.map := rfl
@[simp] theorem StrandSt.memWrite_pkgs (st : StrandSt) (a : Nat) (b : List Byte) : (st.memWrite a b).pkgs = st.pkgs := rfl
@[simp] theorem StrandSt.memWrite_machines (st : StrandSt) (a : Nat) (b : List Byte) : (st.memWrite a b).machines = st.machines := rfl
@[simp] theorem StrandSt.memWrite_core (st : StrandSt) (a : Nat) (b : List Byte) : (st.memWrite a b).core = st.core := rfl
@[simp] theorem StrandSt.memWrite_cyc (st : StrandSt) (a : Nat) (b : List Byte) : (st.memWrite a b).cyc = st.cyc := rfl
@[simp] theorem StrandSt.memWrite_reports (st : StrandSt) (a : Nat) (b : List Byte) : (st.memWrite a b).reports = st.reports := rfl
@[simp] theorem StrandSt.memWrite_outs (st : StrandSt) (a : Nat) (b : List Byte) : (st.memWrite a b).outs = st.outs := rfl

@[simp] theorem StrandSt.setPort_env (st : StrandSt) (p : Fin 4) (q : Port) : (st.setPort p q).env = st.env := rfl
@[simp] theorem StrandSt.setPort_now (st : StrandSt) (p : Fin 4) (q : Port) : (st.setPort p q).now = st.now := rfl
@[simp] theorem StrandSt.setPort_regs (st : StrandSt) (p : Fin 4) (q : Port) : (st.setPort p q).regs = st.regs := rfl
@[simp] theorem StrandSt.setPort_cnt (st : StrandSt) (p : Fin 4) (q : Port) : (st.setPort p q).cnt = st.cnt := rfl
@[simp] theorem StrandSt.setPort_snap (st : StrandSt) (p : Fin 4) (q : Port) : (st.setPort p q).snap = st.snap := rfl
@[simp] theorem StrandSt.setPort_bead (st : StrandSt) (p : Fin 4) (q : Port) : (st.setPort p q).bead = st.bead := rfl
@[simp] theorem StrandSt.setPort_bp (st : StrandSt) (p : Fin 4) (q : Port) : (st.setPort p q).bp = st.bp := rfl
@[simp] theorem StrandSt.setPort_pt (st : StrandSt) (p : Fin 4) (q : Port) : (st.setPort p q).pt = st.pt := rfl
@[simp] theorem StrandSt.setPort_sw (st : StrandSt) (p : Fin 4) (q : Port) : (st.setPort p q).sw = st.sw := rfl
@[simp] theorem StrandSt.setPort_time (st : StrandSt) (p : Fin 4) (q : Port) : (st.setPort p q).time = st.time := rfl
@[simp] theorem StrandSt.setPort_bng (st : StrandSt) (p : Fin 4) (q : Port) : (st.setPort p q).bng = st.bng := rfl
@[simp] theorem StrandSt.setPort_flg (st : StrandSt) (p : Fin 4) (q : Port) : (st.setPort p q).flg = st.flg := rfl
@[simp] theorem StrandSt.setPort_dma (st : StrandSt) (p : Fin 4) (q : Port) : (st.setPort p q).dma = st.dma := rfl
@[simp] theorem StrandSt.setPort_ledger (st : StrandSt) (p : Fin 4) (q : Port) : (st.setPort p q).ledger = st.ledger := rfl
@[simp] theorem StrandSt.setPort_map (st : StrandSt) (p : Fin 4) (q : Port) : (st.setPort p q).map = st.map := rfl
@[simp] theorem StrandSt.setPort_pkgs (st : StrandSt) (p : Fin 4) (q : Port) : (st.setPort p q).pkgs = st.pkgs := rfl
@[simp] theorem StrandSt.setPort_machines (st : StrandSt) (p : Fin 4) (q : Port) : (st.setPort p q).machines = st.machines := rfl
@[simp] theorem StrandSt.setPort_core (st : StrandSt) (p : Fin 4) (q : Port) : (st.setPort p q).core = st.core := rfl
@[simp] theorem StrandSt.setPort_banks (st : StrandSt) (p : Fin 4) (q : Port) : (st.setPort p q).banks = st.banks := rfl
@[simp] theorem StrandSt.setPort_cyc (st : StrandSt) (p : Fin 4) (q : Port) : (st.setPort p q).cyc = st.cyc := rfl
@[simp] theorem StrandSt.setPort_reports (st : StrandSt) (p : Fin 4) (q : Port) : (st.setPort p q).reports = st.reports := rfl
@[simp] theorem StrandSt.setPort_outs (st : StrandSt) (p : Fin 4) (q : Port) : (st.setPort p q).outs = st.outs := rfl

@[simp] theorem StrandSt.setChan_env (st : StrandSt) (p : Fin 4) (c : PtChan) : (st.setChan p c).env = st.env := rfl
@[simp] theorem StrandSt.setChan_now (st : StrandSt) (p : Fin 4) (c : PtChan) : (st.setChan p c).now = st.now := rfl
@[simp] theorem StrandSt.setChan_regs (st : StrandSt) (p : Fin 4) (c : PtChan) : (st.setChan p c).regs = st.regs := rfl
@[simp] theorem StrandSt.setChan_cnt (st : StrandSt) (p : Fin 4) (c : PtChan) : (st.setChan p c).cnt = st.cnt := rfl
@[simp] theorem StrandSt.setChan_snap (st : StrandSt) (p : Fin 4) (c : PtChan) : (st.setChan p c).snap = st.snap := rfl
@[simp] theorem StrandSt.setChan_bead (st : StrandSt) (p : Fin 4) (c : PtChan) : (st.setChan p c).bead = st.bead := rfl
@[simp] theorem StrandSt.setChan_bp (st : StrandSt) (p : Fin 4) (c : PtChan) : (st.setChan p c).bp = st.bp := rfl
@[simp] theorem StrandSt.setChan_ports (st : StrandSt) (p : Fin 4) (c : PtChan) : (st.setChan p c).ports = st.ports := rfl
@[simp] theorem StrandSt.setChan_sw (st : StrandSt) (p : Fin 4) (c : PtChan) : (st.setChan p c).sw = st.sw := rfl
@[simp] theorem StrandSt.setChan_time (st : StrandSt) (p : Fin 4) (c : PtChan) : (st.setChan p c).time = st.time := rfl
@[simp] theorem StrandSt.setChan_bng (st : StrandSt) (p : Fin 4) (c : PtChan) : (st.setChan p c).bng = st.bng := rfl
@[simp] theorem StrandSt.setChan_flg (st : StrandSt) (p : Fin 4) (c : PtChan) : (st.setChan p c).flg = st.flg := rfl
@[simp] theorem StrandSt.setChan_dma (st : StrandSt) (p : Fin 4) (c : PtChan) : (st.setChan p c).dma = st.dma := rfl
@[simp] theorem StrandSt.setChan_ledger (st : StrandSt) (p : Fin 4) (c : PtChan) : (st.setChan p c).ledger = st.ledger := rfl
@[simp] theorem StrandSt.setChan_map (st : StrandSt) (p : Fin 4) (c : PtChan) : (st.setChan p c).map = st.map := rfl
@[simp] theorem StrandSt.setChan_pkgs (st : StrandSt) (p : Fin 4) (c : PtChan) : (st.setChan p c).pkgs = st.pkgs := rfl
@[simp] theorem StrandSt.setChan_machines (st : StrandSt) (p : Fin 4) (c : PtChan) : (st.setChan p c).machines = st.machines := rfl
@[simp] theorem StrandSt.setChan_core (st : StrandSt) (p : Fin 4) (c : PtChan) : (st.setChan p c).core = st.core := rfl
@[simp] theorem StrandSt.setChan_banks (st : StrandSt) (p : Fin 4) (c : PtChan) : (st.setChan p c).banks = st.banks := rfl
@[simp] theorem StrandSt.setChan_cyc (st : StrandSt) (p : Fin 4) (c : PtChan) : (st.setChan p c).cyc = st.cyc := rfl
@[simp] theorem StrandSt.setChan_reports (st : StrandSt) (p : Fin 4) (c : PtChan) : (st.setChan p c).reports = st.reports := rfl
@[simp] theorem StrandSt.setChan_outs (st : StrandSt) (p : Fin 4) (c : PtChan) : (st.setChan p c).outs = st.outs := rfl

@[simp] theorem StrandSt.setTrk_env (st : StrandSt) (k : Nat) (t : Tracker) : (st.setTrk k t).env = st.env := rfl
@[simp] theorem StrandSt.setTrk_now (st : StrandSt) (k : Nat) (t : Tracker) : (st.setTrk k t).now = st.now := rfl
@[simp] theorem StrandSt.setTrk_regs (st : StrandSt) (k : Nat) (t : Tracker) : (st.setTrk k t).regs = st.regs := rfl
@[simp] theorem StrandSt.setTrk_cnt (st : StrandSt) (k : Nat) (t : Tracker) : (st.setTrk k t).cnt = st.cnt := rfl
@[simp] theorem StrandSt.setTrk_snap (st : StrandSt) (k : Nat) (t : Tracker) : (st.setTrk k t).snap = st.snap := rfl
@[simp] theorem StrandSt.setTrk_bead (st : StrandSt) (k : Nat) (t : Tracker) : (st.setTrk k t).bead = st.bead := rfl
@[simp] theorem StrandSt.setTrk_bp (st : StrandSt) (k : Nat) (t : Tracker) : (st.setTrk k t).bp = st.bp := rfl
@[simp] theorem StrandSt.setTrk_ports (st : StrandSt) (k : Nat) (t : Tracker) : (st.setTrk k t).ports = st.ports := rfl
@[simp] theorem StrandSt.setTrk_pt (st : StrandSt) (k : Nat) (t : Tracker) : (st.setTrk k t).pt = st.pt := rfl
@[simp] theorem StrandSt.setTrk_sw (st : StrandSt) (k : Nat) (t : Tracker) : (st.setTrk k t).sw = st.sw := rfl
@[simp] theorem StrandSt.setTrk_time (st : StrandSt) (k : Nat) (t : Tracker) : (st.setTrk k t).time = st.time := rfl
@[simp] theorem StrandSt.setTrk_flg (st : StrandSt) (k : Nat) (t : Tracker) : (st.setTrk k t).flg = st.flg := rfl
@[simp] theorem StrandSt.setTrk_dma (st : StrandSt) (k : Nat) (t : Tracker) : (st.setTrk k t).dma = st.dma := rfl
@[simp] theorem StrandSt.setTrk_ledger (st : StrandSt) (k : Nat) (t : Tracker) : (st.setTrk k t).ledger = st.ledger := rfl
@[simp] theorem StrandSt.setTrk_map (st : StrandSt) (k : Nat) (t : Tracker) : (st.setTrk k t).map = st.map := rfl
@[simp] theorem StrandSt.setTrk_pkgs (st : StrandSt) (k : Nat) (t : Tracker) : (st.setTrk k t).pkgs = st.pkgs := rfl
@[simp] theorem StrandSt.setTrk_machines (st : StrandSt) (k : Nat) (t : Tracker) : (st.setTrk k t).machines = st.machines := rfl
@[simp] theorem StrandSt.setTrk_core (st : StrandSt) (k : Nat) (t : Tracker) : (st.setTrk k t).core = st.core := rfl
@[simp] theorem StrandSt.setTrk_banks (st : StrandSt) (k : Nat) (t : Tracker) : (st.setTrk k t).banks = st.banks := rfl
@[simp] theorem StrandSt.setTrk_cyc (st : StrandSt) (k : Nat) (t : Tracker) : (st.setTrk k t).cyc = st.cyc := rfl
@[simp] theorem StrandSt.setTrk_reports (st : StrandSt) (k : Nat) (t : Tracker) : (st.setTrk k t).reports = st.reports := rfl
@[simp] theorem StrandSt.setTrk_outs (st : StrandSt) (k : Nat) (t : Tracker) : (st.setTrk k t).outs = st.outs := rfl

/-! ## Reads after writes -/

@[simp] theorem StrandSt.rd_wr_same (st : StrandSt) (a : Nat) (v : Word) : (st.wr a v).rd a = v := by
  simp [StrandSt.rd, StrandSt.wr]

@[simp] theorem StrandSt.eng_setEng_same (st : StrandSt) (n : Nat) (e : Engine) : (st.setEng n e).eng n = e := by
  simp [StrandSt.eng, StrandSt.setEng]

@[simp] theorem StrandSt.eng_setEng_ne (st : StrandSt) {n k : Nat} (e : Engine) (h : k ≠ n) : (st.setEng n e).eng k = st.eng k := by
  simp [StrandSt.eng, StrandSt.setEng, h]

@[simp] theorem StrandSt.port_setPort_same (st : StrandSt) (p : Fin 4) (q : Port) : (st.setPort p q).port p = q := by
  simp [StrandSt.port, StrandSt.setPort]

@[simp] theorem Dev.supOf_setSup_same (d : Dev) (i : StrandId) (x : SupSt) : (d.setSup i x).supOf i = x := by
  simp [Dev.supOf, Dev.setSup]

@[simp] theorem Dev.supOf_setSup_ne (d : Dev) {i j : StrandId} (x : SupSt) (h : j ≠ i) : (d.setSup i x).supOf j = d.supOf j := by
  simp [Dev.supOf, Dev.setSup, h]

@[simp] theorem Dev.strand_setStrand_same (d : Dev) (i : StrandId) (x : StrandSt) : (d.setStrand i x).strand i = x := by
  simp [Dev.strand, Dev.setStrand]

@[simp] theorem Dev.strand_setStrand_ne (d : Dev) {i j : StrandId} (x : StrandSt) (h : j ≠ i) :
    (d.setStrand i x).strand j = d.strand j := by
  simp [Dev.strand, Dev.setStrand, h]

end Sys2Proof.Machine
end

