-- ==== Sys2Proof/Laws/Run.lean ====
section
/-! SUPPORT. Everything that a log record, the end of a command and a strand's command can do, each said once. -/

namespace Sys2Proof.Machine

/-! ## Log records: only the Loupe, a failed trial's marks and the record of the cycle -/

theorem Dev.linc_eq (d : Dev) (x : Nat) : ∃ l z, d.linc x = { d with loupe := l, cyc := z } := ⟨_, _, rfl⟩

theorem Dev.lflag_eq (d : Dev) (a k : Nat) : ∃ l z, d.lflag a k = { d with loupe := l, cyc := z } := ⟨_, _, rfl⟩

theorem Dev.uinc_eq (d : Dev) (x : Nat) : ∃ u z, d.uinc x = { d with upd := u, cyc := z } := ⟨_, _, rfl⟩

theorem Dev.uflag_eq (d : Dev) (k : Nat) : ∃ u z, d.uflag k = { d with upd := u, cyc := z } := ⟨_, _, rfl⟩

theorem Dev.pushLog_eq (d : Dev) (c : Nat) (k : FClass) (s : Nat) (a : List Nat) (b : Bool) :
    ∃ l z, d.pushLog c k s a b = { d with loupe := l, cyc := z } := by
  unfold Dev.pushLog
  dsimp only
  generalize ({ d.loupe with log := _, nextNum := _, unflushed := _, lostPend := _ } : Loupe) = x
  obtain ⟨l, z, h⟩ := Dev.linc_eq { d with loupe := x } 4
  rw [h]
  split
  · obtain ⟨l', z', h'⟩ := Dev.linc_eq { d with loupe := l, cyc := z } 5
    rw [h']
    exact Dev.lflag_eq _ _ _
  · exact ⟨l, z, rfl⟩

theorem Dev.trialFail_eq (d : Dev) : ∃ l u z, d.trialFail = { d with loupe := l, upd := u, cyc := z } := by
  unfold Dev.trialFail
  split
  · exact ⟨d.loupe, d.upd, d.cyc, rfl⟩
  · generalize ({ d.upd with trial := _, failed := _, trialAt := _ } : Update) = x
    obtain ⟨u, z, h⟩ := Dev.uflag_eq { d with upd := x } 4
    obtain ⟨u', z', h'⟩ := Dev.uinc_eq { d with upd := u, cyc := z } 11
    obtain ⟨l, z'', h''⟩ := Dev.pushLog_eq { d with upd := u', cyc := z' } 0x130C .lasting 0 [] false
    exact ⟨l, u', z'', by rw [h, h', h'']⟩

theorem Dev.logRec_eq (d : Dev) (c : Nat) (k : FClass) (s : Nat) (a : List Nat) (b : Bool) :
    ∃ l u z, d.logRec c k s a b = { d with loupe := l, upd := u, cyc := z } := by
  obtain ⟨l, z, h⟩ := d.pushLog_eq c k s a b
  unfold Dev.logRec
  rw [h]; dsimp only
  split
  · obtain ⟨l', u, z', h'⟩ := Dev.trialFail_eq { d with loupe := l, cyc := z }
    exact ⟨l', u, z', h'⟩
  · exact ⟨l, d.upd, z, rfl⟩

/-- A record changes the Loupe and the record of the cycle, and a FATAL one may fail a trial; nothing else. -/
theorem Dev.log_eq (d : Dev) (c : Nat) (k : FClass) (s : Nat) (a : List Nat) :
    ∃ l u z, d.log c k s a = { d with loupe := l, upd := u, cyc := z } := d.logRec_eq c k s a false

theorem Dev.logOnce_eq (d : Dev) (c : Nat) (k : FClass) (s y : Nat) (a : List Nat) :
    ∃ l u z, d.logOnce c k s y a = { d with loupe := l, upd := u, cyc := z } := by
  unfold Dev.logOnce
  dsimp only
  split
  · exact ⟨_, d.upd, _, rfl⟩
  · exact Dev.logRec_eq _ _ _ _ _ _

theorem Dev.takeReport_eq (d : Dev) (i : StrandId) (r : Report) : ∃ l u z, d.takeReport i r = { d with loupe := l, upd := u, cyc := z } := by
  unfold Dev.takeReport
  split
  · exact d.log_eq _ _ _ _
  · exact d.logOnce_eq _ _ _ _ _

theorem Dev.reports_eq (rs : List Report) (d : Dev) (i : StrandId) :
    ∃ l u z, rs.foldl (fun e r => e.takeReport i r) d = { d with loupe := l, upd := u, cyc := z } := by
  induction rs generalizing d with
  | nil => exact ⟨d.loupe, d.upd, d.cyc, rfl⟩
  | cons r rs ih =>
    obtain ⟨l, u, z, h⟩ := d.takeReport_eq i r
    obtain ⟨l', u', z', h'⟩ := ih { d with loupe := l, upd := u, cyc := z }
    exact ⟨l', u', z', by rw [List.foldl_cons, h, h']⟩

@[simp] theorem Dev.log_ns (d : Dev) (c : Nat) (k : FClass) (s : Nat) (a : List Nat) : (d.log c k s a).ns = d.ns := by
  obtain ⟨l, u, z, h⟩ := d.log_eq c k s a; rw [h]

@[simp] theorem Dev.log_mode (d : Dev) (c : Nat) (k : FClass) (s : Nat) (a : List Nat) : (d.log c k s a).mode = d.mode := by
  obtain ⟨l, u, z, h⟩ := d.log_eq c k s a; rw [h]

@[simp] theorem Dev.log_base (d : Dev) (c : Nat) (k : FClass) (s : Nat) (a : List Nat) : (d.log c k s a).base = d.base := by
  obtain ⟨l, u, z, h⟩ := d.log_eq c k s a; rw [h]

@[simp] theorem Dev.log_por (d : Dev) (c : Nat) (k : FClass) (s : Nat) (a : List Nat) : (d.log c k s a).por = d.por := by
  obtain ⟨l, u, z, h⟩ := d.log_eq c k s a; rw [h]

@[simp] theorem Dev.log_devLock (d : Dev) (c : Nat) (k : FClass) (s : Nat) (a : List Nat) : (d.log c k s a).devLock = d.devLock := by
  obtain ⟨l, u, z, h⟩ := d.log_eq c k s a; rw [h]

@[simp] theorem Dev.log_cfg (d : Dev) (c : Nat) (k : FClass) (s : Nat) (a : List Nat) : (d.log c k s a).cfg = d.cfg := by
  obtain ⟨l, u, z, h⟩ := d.log_eq c k s a; rw [h]

@[simp] theorem Dev.log_holdBy (d : Dev) (c : Nat) (k : FClass) (s : Nat) (a : List Nat) : (d.log c k s a).holdBy = d.holdBy := by
  obtain ⟨l, u, z, h⟩ := d.log_eq c k s a; rw [h]

@[simp] theorem Dev.log_holdFrom (d : Dev) (c : Nat) (k : FClass) (s : Nat) (a : List Nat) : (d.log c k s a).holdFrom = d.holdFrom := by
  obtain ⟨l, u, z, h⟩ := d.log_eq c k s a; rw [h]

@[simp] theorem Dev.log_sleptAt (d : Dev) (c : Nat) (k : FClass) (s : Nat) (a : List Nat) : (d.log c k s a).sleptAt = d.sleptAt := by
  obtain ⟨l, u, z, h⟩ := d.log_eq c k s a; rw [h]

@[simp] theorem Dev.log_sup (d : Dev) (c : Nat) (k : FClass) (s : Nat) (a : List Nat) : (d.log c k s a).sup = d.sup := by
  obtain ⟨l, u, z, h⟩ := d.log_eq c k s a; rw [h]

@[simp] theorem Dev.log_strands (d : Dev) (c : Nat) (k : FClass) (s : Nat) (a : List Nat) : (d.log c k s a).strands = d.strands := by
  obtain ⟨l, u, z, h⟩ := d.log_eq c k s a; rw [h]

@[simp] theorem Dev.log_clasp (d : Dev) (c : Nat) (k : FClass) (s : Nat) (a : List Nat) : (d.log c k s a).clasp = d.clasp := by
  obtain ⟨l, u, z, h⟩ := d.log_eq c k s a; rw [h]

@[simp] theorem Dev.log_lkt (d : Dev) (c : Nat) (k : FClass) (s : Nat) (a : List Nat) : (d.log c k s a).lkt = d.lkt := by
  obtain ⟨l, u, z, h⟩ := d.log_eq c k s a; rw [h]

@[simp] theorem Dev.log_epochs (d : Dev) (c : Nat) (k : FClass) (s : Nat) (a : List Nat) : (d.log c k s a).epochs = d.epochs := by
  obtain ⟨l, u, z, h⟩ := d.log_eq c k s a; rw [h]

@[simp] theorem Dev.log_hm (d : Dev) (c : Nat) (k : FClass) (s : Nat) (a : List Nat) : (d.log c k s a).hm = d.hm := by
  obtain ⟨l, u, z, h⟩ := d.log_eq c k s a; rw [h]

@[simp] theorem Dev.log_flashes (d : Dev) (c : Nat) (k : FClass) (s : Nat) (a : List Nat) : (d.log c k s a).flashes = d.flashes := by
  obtain ⟨l, u, z, h⟩ := d.log_eq c k s a; rw [h]

@[simp] theorem Dev.log_out (d : Dev) (c : Nat) (k : FClass) (s : Nat) (a : List Nat) : (d.log c k s a).out = d.out := by
  obtain ⟨l, u, z, h⟩ := d.log_eq c k s a; rw [h]

@[simp] theorem Dev.logOnce_ns (d : Dev) (c : Nat) (k : FClass) (s y : Nat) (a : List Nat) : (d.logOnce c k s y a).ns = d.ns := by
  obtain ⟨l, u, z, h⟩ := d.logOnce_eq c k s y a; rw [h]

@[simp] theorem Dev.logOnce_mode (d : Dev) (c : Nat) (k : FClass) (s y : Nat) (a : List Nat) : (d.logOnce c k s y a).mode = d.mode := by
  obtain ⟨l, u, z, h⟩ := d.logOnce_eq c k s y a; rw [h]

@[simp] theorem Dev.logOnce_base (d : Dev) (c : Nat) (k : FClass) (s y : Nat) (a : List Nat) : (d.logOnce c k s y a).base = d.base := by
  obtain ⟨l, u, z, h⟩ := d.logOnce_eq c k s y a; rw [h]

@[simp] theorem Dev.logOnce_por (d : Dev) (c : Nat) (k : FClass) (s y : Nat) (a : List Nat) : (d.logOnce c k s y a).por = d.por := by
  obtain ⟨l, u, z, h⟩ := d.logOnce_eq c k s y a; rw [h]

@[simp] theorem Dev.logOnce_devLock (d : Dev) (c : Nat) (k : FClass) (s y : Nat) (a : List Nat) : (d.logOnce c k s y a).devLock = d.devLock := by
  obtain ⟨l, u, z, h⟩ := d.logOnce_eq c k s y a; rw [h]

@[simp] theorem Dev.logOnce_cfg (d : Dev) (c : Nat) (k : FClass) (s y : Nat) (a : List Nat) : (d.logOnce c k s y a).cfg = d.cfg := by
  obtain ⟨l, u, z, h⟩ := d.logOnce_eq c k s y a; rw [h]

@[simp] theorem Dev.logOnce_holdBy (d : Dev) (c : Nat) (k : FClass) (s y : Nat) (a : List Nat) : (d.logOnce c k s y a).holdBy = d.holdBy := by
  obtain ⟨l, u, z, h⟩ := d.logOnce_eq c k s y a; rw [h]

@[simp] theorem Dev.logOnce_holdFrom (d : Dev) (c : Nat) (k : FClass) (s y : Nat) (a : List Nat) : (d.logOnce c k s y a).holdFrom = d.holdFrom := by
  obtain ⟨l, u, z, h⟩ := d.logOnce_eq c k s y a; rw [h]

@[simp] theorem Dev.logOnce_sleptAt (d : Dev) (c : Nat) (k : FClass) (s y : Nat) (a : List Nat) : (d.logOnce c k s y a).sleptAt = d.sleptAt := by
  obtain ⟨l, u, z, h⟩ := d.logOnce_eq c k s y a; rw [h]

@[simp] theorem Dev.logOnce_sup (d : Dev) (c : Nat) (k : FClass) (s y : Nat) (a : List Nat) : (d.logOnce c k s y a).sup = d.sup := by
  obtain ⟨l, u, z, h⟩ := d.logOnce_eq c k s y a; rw [h]

@[simp] theorem Dev.logOnce_strands (d : Dev) (c : Nat) (k : FClass) (s y : Nat) (a : List Nat) : (d.logOnce c k s y a).strands = d.strands := by
  obtain ⟨l, u, z, h⟩ := d.logOnce_eq c k s y a; rw [h]

@[simp] theorem Dev.logOnce_clasp (d : Dev) (c : Nat) (k : FClass) (s y : Nat) (a : List Nat) : (d.logOnce c k s y a).clasp = d.clasp := by
  obtain ⟨l, u, z, h⟩ := d.logOnce_eq c k s y a; rw [h]

@[simp] theorem Dev.logOnce_lkt (d : Dev) (c : Nat) (k : FClass) (s y : Nat) (a : List Nat) : (d.logOnce c k s y a).lkt = d.lkt := by
  obtain ⟨l, u, z, h⟩ := d.logOnce_eq c k s y a; rw [h]

@[simp] theorem Dev.logOnce_epochs (d : Dev) (c : Nat) (k : FClass) (s y : Nat) (a : List Nat) : (d.logOnce c k s y a).epochs = d.epochs := by
  obtain ⟨l, u, z, h⟩ := d.logOnce_eq c k s y a; rw [h]

@[simp] theorem Dev.logOnce_hm (d : Dev) (c : Nat) (k : FClass) (s y : Nat) (a : List Nat) : (d.logOnce c k s y a).hm = d.hm := by
  obtain ⟨l, u, z, h⟩ := d.logOnce_eq c k s y a; rw [h]

@[simp] theorem Dev.logOnce_flashes (d : Dev) (c : Nat) (k : FClass) (s y : Nat) (a : List Nat) : (d.logOnce c k s y a).flashes = d.flashes := by
  obtain ⟨l, u, z, h⟩ := d.logOnce_eq c k s y a; rw [h]

@[simp] theorem Dev.logOnce_out (d : Dev) (c : Nat) (k : FClass) (s y : Nat) (a : List Nat) : (d.logOnce c k s y a).out = d.out := by
  obtain ⟨l, u, z, h⟩ := d.logOnce_eq c k s y a; rw [h]

@[simp] theorem Dev.trialFail_ns (d : Dev) : d.trialFail.ns = d.ns := by
  obtain ⟨l, u, z, h⟩ := d.trialFail_eq; rw [h]

@[simp] theorem Dev.trialFail_mode (d : Dev) : d.trialFail.mode = d.mode := by
  obtain ⟨l, u, z, h⟩ := d.trialFail_eq; rw [h]

@[simp] theorem Dev.trialFail_base (d : Dev) : d.trialFail.base = d.base := by
  obtain ⟨l, u, z, h⟩ := d.trialFail_eq; rw [h]

@[simp] theorem Dev.trialFail_por (d : Dev) : d.trialFail.por = d.por := by
  obtain ⟨l, u, z, h⟩ := d.trialFail_eq; rw [h]

@[simp] theorem Dev.trialFail_devLock (d : Dev) : d.trialFail.devLock = d.devLock := by
  obtain ⟨l, u, z, h⟩ := d.trialFail_eq; rw [h]

@[simp] theorem Dev.trialFail_cfg (d : Dev) : d.trialFail.cfg = d.cfg := by
  obtain ⟨l, u, z, h⟩ := d.trialFail_eq; rw [h]

@[simp] theorem Dev.trialFail_holdBy (d : Dev) : d.trialFail.holdBy = d.holdBy := by
  obtain ⟨l, u, z, h⟩ := d.trialFail_eq; rw [h]

@[simp] theorem Dev.trialFail_holdFrom (d : Dev) : d.trialFail.holdFrom = d.holdFrom := by
  obtain ⟨l, u, z, h⟩ := d.trialFail_eq; rw [h]

@[simp] theorem Dev.trialFail_sleptAt (d : Dev) : d.trialFail.sleptAt = d.sleptAt := by
  obtain ⟨l, u, z, h⟩ := d.trialFail_eq; rw [h]

@[simp] theorem Dev.trialFail_sup (d : Dev) : d.trialFail.sup = d.sup := by
  obtain ⟨l, u, z, h⟩ := d.trialFail_eq; rw [h]

@[simp] theorem Dev.trialFail_strands (d : Dev) : d.trialFail.strands = d.strands := by
  obtain ⟨l, u, z, h⟩ := d.trialFail_eq; rw [h]

@[simp] theorem Dev.trialFail_clasp (d : Dev) : d.trialFail.clasp = d.clasp := by
  obtain ⟨l, u, z, h⟩ := d.trialFail_eq; rw [h]

@[simp] theorem Dev.trialFail_lkt (d : Dev) : d.trialFail.lkt = d.lkt := by
  obtain ⟨l, u, z, h⟩ := d.trialFail_eq; rw [h]

@[simp] theorem Dev.trialFail_epochs (d : Dev) : d.trialFail.epochs = d.epochs := by
  obtain ⟨l, u, z, h⟩ := d.trialFail_eq; rw [h]

@[simp] theorem Dev.trialFail_hm (d : Dev) : d.trialFail.hm = d.hm := by
  obtain ⟨l, u, z, h⟩ := d.trialFail_eq; rw [h]

@[simp] theorem Dev.trialFail_flashes (d : Dev) : d.trialFail.flashes = d.flashes := by
  obtain ⟨l, u, z, h⟩ := d.trialFail_eq; rw [h]

@[simp] theorem Dev.trialFail_out (d : Dev) : d.trialFail.out = d.out := by
  obtain ⟨l, u, z, h⟩ := d.trialFail_eq; rw [h]

/-! ## What follows a command: the Clasp's requests and messages, and TIME_UNC -/

/-- What a send of the Clasp can do. -/
def Dev.ClaspOnly (d e : Dev) : Prop := ∃ c o z, e = { d with clasp := c, out := d.out ++ o, cyc := z }

theorem Dev.ClaspOnly.same (d : Dev) (c : Clasp) : d.ClaspOnly { d with clasp := c } := ⟨c, [], d.cyc, by simp⟩

theorem Dev.ClaspOnly.refl (d : Dev) : d.ClaspOnly d := .same d d.clasp

theorem Dev.ClaspOnly.trans {d e f : Dev} (h : d.ClaspOnly e) (g : e.ClaspOnly f) : d.ClaspOnly f := by
  obtain ⟨c, o, z, rfl⟩ := h
  obtain ⟨c', o', z', rfl⟩ := g
  exact ⟨c', o ++ o', z', by simp⟩

theorem Dev.hostWrite_clasp (d : Dev) (b : Bool) (a : Nat) (bs : List Byte) : d.ClaspOnly (d.hostWrite b a bs) := ⟨_, _, _, rfl⟩

theorem Dev.setMg_clasp (d : Dev) (g : Nat) (m : MGroup) : d.ClaspOnly (d.setMg g m) := .same _ _

theorem Dev.dput_clasp (d : Dev) (o h l v : Nat) : d.ClaspOnly (d.dput o h l v) := .same _ _

theorem Dev.cinc_clasp (d : Dev) (x : Nat) : d.ClaspOnly (d.cinc x) := ⟨_, [], _, by rw [List.append_nil]; rfl⟩

theorem Dev.dflag_clasp (d : Dev) (o i : Nat) : d.ClaspOnly (d.dflag o i) := ⟨_, [], _, by rw [List.append_nil]; rfl⟩

theorem Dev.noteRx_clasp (d : Dev) (i : StrandId) (r : HostReq) : d.ClaspOnly (d.noteRx i r) := by
  unfold Dev.noteRx
  split
  · split
    · exact .same _ _
    · exact .refl d
  · split
    · dsimp only
      split
      · exact .refl d
      · exact .same _ _
    · exact .refl d
  · exact .refl d

theorem Dev.sendReq_clasp (d : Dev) (i : StrandId) (r : HostReq) : d.ClaspOnly (d.sendReq i r) := by
  unfold Dev.sendReq
  refine (d.noteRx_clasp i r).trans ?_
  split <;> exact ⟨_, _, _, rfl⟩

theorem Dev.pumpTurn_clasp (l : List StrandId) (d : Dev) : d.ClaspOnly (d.pumpTurn l).2 := by
  induction l with
  | nil => exact .refl d
  | cons i l ih =>
    unfold Dev.pumpTurn
    split
    · exact ih
    · dsimp only
      split
      · exact ih
      · exact (Dev.ClaspOnly.same d _).trans (Dev.sendReq_clasp _ _ _)
      · exact Dev.ClaspOnly.same d _

theorem Dev.pumpN_clasp (n : Nat) (d : Dev) : d.ClaspOnly (d.pumpN n) := by
  induction n generalizing d with
  | zero => exact .refl d
  | succ n ih =>
    unfold Dev.pumpN
    dsimp only
    split
    · exact (d.pumpTurn_clasp _).trans (ih _)
    · exact .refl d

/-- What the strands have asked of the host changes only the Clasp and the outputs as it goes out (R319). -/
theorem Dev.pump_clasp (d : Dev) : d.ClaspOnly d.pump := d.pumpN_clasp _ |> fun h => h

theorem Dev.writeHeld_clasp (b : Bool) (ws : List HeldWb) (d : Dev) : d.ClaspOnly (d.writeHeld b ws).2 := by
  induction ws generalizing d with
  | nil => exact .refl d
  | cons w ws ih =>
    unfold Dev.writeHeld
    split
    · exact .refl d
    · exact (Dev.hostWrite_clasp _ _ _ _).trans (ih _)

theorem Dev.sendVectors_clasp (b : Bool) (d : Dev) : d.ClaspOnly (d.sendVectors b) := by
  unfold Dev.sendVectors
  split
  · exact .refl d
  · rename_i h
    clear h
    generalize List.range 59 = l
    induction l generalizing d with
    | nil => exact .refl d
    | cons v l ih =>
      rw [List.foldl_cons]
      refine Dev.ClaspOnly.trans ?_ (ih _)
      dsimp only
      split
      · split
        · exact ⟨_, _, _, rfl⟩
        · exact ⟨_, _, d.cyc, rfl⟩
      · exact .refl d

/-- A merge group in which nothing waits does nothing by itself (R322 to R327). -/
theorem Dev.mgSettle_quiet (d : Dev) (g : Nat) (h1 : (d.mg g).first = []) (h2 : (d.mg g).out = []) (h3 : (d.mg g).abort = none) :
    d.mgSettle g = d := by
  have h4 : d.mergeRun g 0 = d := rfl
  unfold Dev.mgSettle
  split
  · rfl
  · dsimp only
    rw [h1, List.length_nil, h4]
    have h5 : d.mgAbortDone g = d := by unfold Dev.mgAbortDone; rw [h3]
    have h6 : d.pcqFlush g = d := by unfold Dev.pcqFlush; rw [h2]; rfl
    split <;> simp [h5, h6]


theorem Dev.timeWatch_eq (d e : Dev) : ∃ b, d.timeWatch e = { d with loupe := { d.loupe with timeUnc := b } } := by
  unfold Dev.timeWatch
  split
  · exact ⟨true, rfl⟩
  · exact ⟨d.loupe.timeUnc, rfl⟩

@[simp] theorem Dev.timeWatch_ns (d e : Dev) : (d.timeWatch e).ns = d.ns := by
  obtain ⟨b, h⟩ := d.timeWatch_eq e; rw [h]

@[simp] theorem Dev.timeWatch_mode (d e : Dev) : (d.timeWatch e).mode = d.mode := by
  obtain ⟨b, h⟩ := d.timeWatch_eq e; rw [h]

@[simp] theorem Dev.timeWatch_base (d e : Dev) : (d.timeWatch e).base = d.base := by
  obtain ⟨b, h⟩ := d.timeWatch_eq e; rw [h]

@[simp] theorem Dev.timeWatch_por (d e : Dev) : (d.timeWatch e).por = d.por := by
  obtain ⟨b, h⟩ := d.timeWatch_eq e; rw [h]

@[simp] theorem Dev.timeWatch_devLock (d e : Dev) : (d.timeWatch e).devLock = d.devLock := by
  obtain ⟨b, h⟩ := d.timeWatch_eq e; rw [h]

@[simp] theorem Dev.timeWatch_cfg (d e : Dev) : (d.timeWatch e).cfg = d.cfg := by
  obtain ⟨b, h⟩ := d.timeWatch_eq e; rw [h]

@[simp] theorem Dev.timeWatch_holdBy (d e : Dev) : (d.timeWatch e).holdBy = d.holdBy := by
  obtain ⟨b, h⟩ := d.timeWatch_eq e; rw [h]

@[simp] theorem Dev.timeWatch_holdFrom (d e : Dev) : (d.timeWatch e).holdFrom = d.holdFrom := by
  obtain ⟨b, h⟩ := d.timeWatch_eq e; rw [h]

@[simp] theorem Dev.timeWatch_sleptAt (d e : Dev) : (d.timeWatch e).sleptAt = d.sleptAt := by
  obtain ⟨b, h⟩ := d.timeWatch_eq e; rw [h]

@[simp] theorem Dev.timeWatch_sup (d e : Dev) : (d.timeWatch e).sup = d.sup := by
  obtain ⟨b, h⟩ := d.timeWatch_eq e; rw [h]

@[simp] theorem Dev.timeWatch_strands (d e : Dev) : (d.timeWatch e).strands = d.strands := by
  obtain ⟨b, h⟩ := d.timeWatch_eq e; rw [h]

@[simp] theorem Dev.timeWatch_lkt (d e : Dev) : (d.timeWatch e).lkt = d.lkt := by
  obtain ⟨b, h⟩ := d.timeWatch_eq e; rw [h]

@[simp] theorem Dev.timeWatch_epochs (d e : Dev) : (d.timeWatch e).epochs = d.epochs := by
  obtain ⟨b, h⟩ := d.timeWatch_eq e; rw [h]

@[simp] theorem Dev.timeWatch_hm (d e : Dev) : (d.timeWatch e).hm = d.hm := by
  obtain ⟨b, h⟩ := d.timeWatch_eq e; rw [h]

@[simp] theorem Dev.timeWatch_flashes (d e : Dev) : (d.timeWatch e).flashes = d.flashes := by
  obtain ⟨b, h⟩ := d.timeWatch_eq e; rw [h]

@[simp] theorem Dev.timeWatch_upd (d e : Dev) : (d.timeWatch e).upd = d.upd := by
  obtain ⟨b, h⟩ := d.timeWatch_eq e; rw [h]

@[simp] theorem Dev.timeWatch_clasp (d e : Dev) : (d.timeWatch e).clasp = d.clasp := by
  obtain ⟨b, h⟩ := d.timeWatch_eq e; rw [h]

@[simp] theorem Dev.timeWatch_out (d e : Dev) : (d.timeWatch e).out = d.out := by
  obtain ⟨b, h⟩ := d.timeWatch_eq e; rw [h]

@[simp] theorem State.run_pending (s : State) (f : Dev → Dev) : (s.run f).pending = s.pending := by unfold State.run; rfl

theorem State.runAt_eq (s : State) (dt : Nat) (f : Dev → Dev) :
    s.runAt dt f = { s with dev := (f (s.dev.later dt)).after s.dev } := by unfold State.runAt State.run; rfl

/-! ## A strand's command -/

/-- A strand as a command leaves it: its reports, outputs and requests taken out. -/
def StrandSt.clean (x : StrandSt) : StrandSt := { x with env := {}, reports := [], outs := [], dma := { x.dma with reqs := [] } }

/-- A strand's command changes that strand, the Clasp's requests, the outputs and the log. -/
theorem Dev.absorb_eq (d : Dev) (i : StrandId) (x : StrandSt) :
    ∃ c l u o z,
    d.absorb i x = { d with strands := d.strands.set i x.clean, clasp := c, loupe := l, upd := u, out := o, cyc := z } := by
  unfold Dev.absorb
  obtain ⟨l, u, z, h⟩ := Dev.reports_eq x.reports { d with strands := d.strands.set i x.clean, clasp := _, out := _ } i
  exact ⟨_, l, u, _, z, h⟩

/-- The outputs of a strand's command follow those before it. -/
theorem Dev.absorb_out (d : Dev) (i : StrandId) (x : StrandSt) : (d.absorb i x).out = d.out ++ x.outs := by
  unfold Dev.absorb
  obtain ⟨l, u, z, h⟩ := Dev.reports_eq x.reports { d with strands := d.strands.set i x.clean, clasp := _, out := d.out ++ x.outs } i
  exact congrArg Dev.out h

@[simp] theorem Dev.absorb_ns (d : Dev) (i : StrandId) (x : StrandSt) : (d.absorb i x).ns = d.ns := by
  obtain ⟨c, l, u, o, z, h⟩ := d.absorb_eq i x; rw [h]

@[simp] theorem Dev.onStrand_ns (d : Dev) (i : StrandId) (g : StrandSt → StrandSt) : (d.onStrand i g).ns = d.ns := by
  simp [Dev.onStrand]

@[simp] theorem Dev.onActive_ns (d : Dev) (i : StrandId) (g : StrandSt → StrandSt) : (d.onActive i g).ns = d.ns := by
  unfold Dev.onActive; split <;> simp

@[simp] theorem Dev.absorb_mode (d : Dev) (i : StrandId) (x : StrandSt) : (d.absorb i x).mode = d.mode := by
  obtain ⟨c, l, u, o, z, h⟩ := d.absorb_eq i x; rw [h]

@[simp] theorem Dev.onStrand_mode (d : Dev) (i : StrandId) (g : StrandSt → StrandSt) : (d.onStrand i g).mode = d.mode := by
  simp [Dev.onStrand]

@[simp] theorem Dev.onActive_mode (d : Dev) (i : StrandId) (g : StrandSt → StrandSt) : (d.onActive i g).mode = d.mode := by
  unfold Dev.onActive; split <;> simp

@[simp] theorem Dev.absorb_base (d : Dev) (i : StrandId) (x : StrandSt) : (d.absorb i x).base = d.base := by
  obtain ⟨c, l, u, o, z, h⟩ := d.absorb_eq i x; rw [h]

@[simp] theorem Dev.onStrand_base (d : Dev) (i : StrandId) (g : StrandSt → StrandSt) : (d.onStrand i g).base = d.base := by
  simp [Dev.onStrand]

@[simp] theorem Dev.onActive_base (d : Dev) (i : StrandId) (g : StrandSt → StrandSt) : (d.onActive i g).base = d.base := by
  unfold Dev.onActive; split <;> simp

@[simp] theorem Dev.absorb_por (d : Dev) (i : StrandId) (x : StrandSt) : (d.absorb i x).por = d.por := by
  obtain ⟨c, l, u, o, z, h⟩ := d.absorb_eq i x; rw [h]

@[simp] theorem Dev.onStrand_por (d : Dev) (i : StrandId) (g : StrandSt → StrandSt) : (d.onStrand i g).por = d.por := by
  simp [Dev.onStrand]

@[simp] theorem Dev.onActive_por (d : Dev) (i : StrandId) (g : StrandSt → StrandSt) : (d.onActive i g).por = d.por := by
  unfold Dev.onActive; split <;> simp

@[simp] theorem Dev.absorb_devLock (d : Dev) (i : StrandId) (x : StrandSt) : (d.absorb i x).devLock = d.devLock := by
  obtain ⟨c, l, u, o, z, h⟩ := d.absorb_eq i x; rw [h]

@[simp] theorem Dev.onStrand_devLock (d : Dev) (i : StrandId) (g : StrandSt → StrandSt) : (d.onStrand i g).devLock = d.devLock := by
  simp [Dev.onStrand]

@[simp] theorem Dev.onActive_devLock (d : Dev) (i : StrandId) (g : StrandSt → StrandSt) : (d.onActive i g).devLock = d.devLock := by
  unfold Dev.onActive; split <;> simp

@[simp] theorem Dev.absorb_cfg (d : Dev) (i : StrandId) (x : StrandSt) : (d.absorb i x).cfg = d.cfg := by
  obtain ⟨c, l, u, o, z, h⟩ := d.absorb_eq i x; rw [h]

@[simp] theorem Dev.onStrand_cfg (d : Dev) (i : StrandId) (g : StrandSt → StrandSt) : (d.onStrand i g).cfg = d.cfg := by
  simp [Dev.onStrand]

@[simp] theorem Dev.onActive_cfg (d : Dev) (i : StrandId) (g : StrandSt → StrandSt) : (d.onActive i g).cfg = d.cfg := by
  unfold Dev.onActive; split <;> simp

@[simp] theorem Dev.absorb_holdBy (d : Dev) (i : StrandId) (x : StrandSt) : (d.absorb i x).holdBy = d.holdBy := by
  obtain ⟨c, l, u, o, z, h⟩ := d.absorb_eq i x; rw [h]

@[simp] theorem Dev.onStrand_holdBy (d : Dev) (i : StrandId) (g : StrandSt → StrandSt) : (d.onStrand i g).holdBy = d.holdBy := by
  simp [Dev.onStrand]

@[simp] theorem Dev.onActive_holdBy (d : Dev) (i : StrandId) (g : StrandSt → StrandSt) : (d.onActive i g).holdBy = d.holdBy := by
  unfold Dev.onActive; split <;> simp

@[simp] theorem Dev.absorb_holdFrom (d : Dev) (i : StrandId) (x : StrandSt) : (d.absorb i x).holdFrom = d.holdFrom := by
  obtain ⟨c, l, u, o, z, h⟩ := d.absorb_eq i x; rw [h]

@[simp] theorem Dev.onStrand_holdFrom (d : Dev) (i : StrandId) (g : StrandSt → StrandSt) : (d.onStrand i g).holdFrom = d.holdFrom := by
  simp [Dev.onStrand]

@[simp] theorem Dev.onActive_holdFrom (d : Dev) (i : StrandId) (g : StrandSt → StrandSt) : (d.onActive i g).holdFrom = d.holdFrom := by
  unfold Dev.onActive; split <;> simp

@[simp] theorem Dev.absorb_sleptAt (d : Dev) (i : StrandId) (x : StrandSt) : (d.absorb i x).sleptAt = d.sleptAt := by
  obtain ⟨c, l, u, o, z, h⟩ := d.absorb_eq i x; rw [h]

@[simp] theorem Dev.onStrand_sleptAt (d : Dev) (i : StrandId) (g : StrandSt → StrandSt) : (d.onStrand i g).sleptAt = d.sleptAt := by
  simp [Dev.onStrand]

@[simp] theorem Dev.onActive_sleptAt (d : Dev) (i : StrandId) (g : StrandSt → StrandSt) : (d.onActive i g).sleptAt = d.sleptAt := by
  unfold Dev.onActive; split <;> simp

@[simp] theorem Dev.absorb_sup (d : Dev) (i : StrandId) (x : StrandSt) : (d.absorb i x).sup = d.sup := by
  obtain ⟨c, l, u, o, z, h⟩ := d.absorb_eq i x; rw [h]

@[simp] theorem Dev.onStrand_sup (d : Dev) (i : StrandId) (g : StrandSt → StrandSt) : (d.onStrand i g).sup = d.sup := by
  simp [Dev.onStrand]

@[simp] theorem Dev.onActive_sup (d : Dev) (i : StrandId) (g : StrandSt → StrandSt) : (d.onActive i g).sup = d.sup := by
  unfold Dev.onActive; split <;> simp

@[simp] theorem Dev.absorb_lkt (d : Dev) (i : StrandId) (x : StrandSt) : (d.absorb i x).lkt = d.lkt := by
  obtain ⟨c, l, u, o, z, h⟩ := d.absorb_eq i x; rw [h]

@[simp] theorem Dev.onStrand_lkt (d : Dev) (i : StrandId) (g : StrandSt → StrandSt) : (d.onStrand i g).lkt = d.lkt := by
  simp [Dev.onStrand]

@[simp] theorem Dev.onActive_lkt (d : Dev) (i : StrandId) (g : StrandSt → StrandSt) : (d.onActive i g).lkt = d.lkt := by
  unfold Dev.onActive; split <;> simp

@[simp] theorem Dev.absorb_epochs (d : Dev) (i : StrandId) (x : StrandSt) : (d.absorb i x).epochs = d.epochs := by
  obtain ⟨c, l, u, o, z, h⟩ := d.absorb_eq i x; rw [h]

@[simp] theorem Dev.onStrand_epochs (d : Dev) (i : StrandId) (g : StrandSt → StrandSt) : (d.onStrand i g).epochs = d.epochs := by
  simp [Dev.onStrand]

@[simp] theorem Dev.onActive_epochs (d : Dev) (i : StrandId) (g : StrandSt → StrandSt) : (d.onActive i g).epochs = d.epochs := by
  unfold Dev.onActive; split <;> simp

@[simp] theorem Dev.absorb_hm (d : Dev) (i : StrandId) (x : StrandSt) : (d.absorb i x).hm = d.hm := by
  obtain ⟨c, l, u, o, z, h⟩ := d.absorb_eq i x; rw [h]

@[simp] theorem Dev.onStrand_hm (d : Dev) (i : StrandId) (g : StrandSt → StrandSt) : (d.onStrand i g).hm = d.hm := by
  simp [Dev.onStrand]

@[simp] theorem Dev.onActive_hm (d : Dev) (i : StrandId) (g : StrandSt → StrandSt) : (d.onActive i g).hm = d.hm := by
  unfold Dev.onActive; split <;> simp

@[simp] theorem Dev.absorb_flashes (d : Dev) (i : StrandId) (x : StrandSt) : (d.absorb i x).flashes = d.flashes := by
  obtain ⟨c, l, u, o, z, h⟩ := d.absorb_eq i x; rw [h]

@[simp] theorem Dev.onStrand_flashes (d : Dev) (i : StrandId) (g : StrandSt → StrandSt) : (d.onStrand i g).flashes = d.flashes := by
  simp [Dev.onStrand]

@[simp] theorem Dev.onActive_flashes (d : Dev) (i : StrandId) (g : StrandSt → StrandSt) : (d.onActive i g).flashes = d.flashes := by
  unfold Dev.onActive; split <;> simp

@[simp] theorem Dev.absorb_strand_same (d : Dev) (i : StrandId) (x : StrandSt) : (d.absorb i x).strand i = x.clean := by
  obtain ⟨c, l, u, o, z, h⟩ := d.absorb_eq i x; simp [h, Dev.strand]

theorem Dev.absorb_strand_ne (d : Dev) {i j : StrandId} (x : StrandSt) (hj : j ≠ i) : (d.absorb i x).strand j = d.strand j := by
  obtain ⟨c, l, u, o, z, h⟩ := d.absorb_eq i x; simp [h, Dev.strand, hj]

@[simp] theorem Dev.onStrand_strand_same (d : Dev) (i : StrandId) (g : StrandSt → StrandSt) :
    (d.onStrand i g).strand i = (g { d.strand i with env := d.envOf i }).clean := by simp [Dev.onStrand]

theorem Dev.onStrand_strand_ne (d : Dev) {i j : StrandId} (g : StrandSt → StrandSt) (hj : j ≠ i) :
    (d.onStrand i g).strand j = d.strand j := d.absorb_strand_ne _ hj

/-- A strand's command in RUN or HOLD, whole. -/
theorem Dev.onActive_eq (d : Dev) (i : StrandId) (g : StrandSt → StrandSt) (h : Active d i) : d.onActive i g = d.onStrand i g := by
  unfold Dev.onActive
  rcases h with h | h <;> simp [h]

/-- A strand's command keeps the other strands and the device beside the strands (R22). -/
theorem Dev.onStrand_frame (d : Dev) (i : StrandId) (g : StrandSt → StrandSt) : StrandFrame d (d.onStrand i g) i :=
  ⟨by simp [DeviceKept], fun _ hj => d.onStrand_strand_ne g hj⟩

theorem StrandFrame.refl (d : Dev) (i : StrandId) : StrandFrame d d i := ⟨by simp [DeviceKept], fun _ _ => rfl⟩

/-- A command that is carried out inside an active strand, from the end: what it leaves. -/
theorem ends_onStrand {c : Instr} {s : State} {dt : Nat} {i : StrandId} {g : StrandSt → StrandSt} {P : Dev → Prop}
    (h : exec c s = .next (s.runAt dt fun d => d.onStrand i g)) (hP : P ((s.dev.later dt).onStrand i g)) : Ends c s P :=
  ⟨_, h, hP⟩

end Sys2Proof.Machine
end

