-- ==== Sys2Proof/Laws/Bus.lean ====
section
/-! SUPPORT. A master's write of a strand register, from its address to the register (R8, R20, R314, R430). -/

namespace Sys2Proof.Machine

theorem leNum_leBytes4 (v : Nat) (h : v < 2 ^ 32) : leNum (leBytes 4 v) = v := by
  simp only [leBytes, leNum, BitVec.toNat_ofNat]
  omega

/-- A write of a word register beyond the supervisor page, the Locket pages and the watchdog's kick. -/
def PlainPlace (off : Nat) : Prop := 0x10000 ≤ off ∧ off < 0xE0000 ∧ off % 4 = 0 ∧ off ≠ Reg.CORE_WDOG_KICK

theorem strandWrite_plain (d : Dev) (m : Master) (i : StrandId) (off : Nat) (v : Word) (h : PlainPlace off) :
    d.strandWrite m i off v = d.onStrand i fun st => st.regWrite m.code off v := by
  obtain ⟨h1, -, -, h4⟩ := h
  have h5 : off ≠ Reg.SUP_CTL := by simp only [Reg.SUP_CTL]; omega
  have h6 : off ≠ Reg.SUP_CAUSE := by simp only [Reg.SUP_CAUSE]; omega
  simp [Dev.strandWrite, h4, h5, h6]

theorem busWrite_core (d : Dev) (i : StrandId) (off v : Nat) (ha : Active d i) (h : PlainPlace off) :
    d.placeWrite (.core i) (.strand i off) v = d.onStrand i fun st => st.regWrite 2 off (BitVec.ofNat 32 v) := by
  have hp := h
  obtain ⟨h1, h2, h3, h4⟩ := h
  have ha' : (decide (d.phase i = .run) || decide (d.phase i = .hold)) = true := by
    rcases ha with ha | ha <;> simp [ha]
  have hw : ¬ (0xE0000 ≤ off) := by omega
  simp [Dev.placeWrite, Place.addr, Dev.busWrite, Dev.coreWrite, h3, ha', hw, strandWrite_plain _ _ _ _ _ hp, Master.code]

theorem busWrite_host (d : Dev) (b : Bool) (i : StrandId) (off v : Nat) (hl : d.linkOpen b = true) (hs : d.strandsOn = true)
    (ha : Active d i) (h : PlainPlace off) (ht : d.directTail i off = false) :
    d.placeWrite (.host b) (.strand i off) v =
      d.onStrand i fun st => st.regWrite (Master.host b).code off (BitVec.ofNat 32 v) := by
  have hp := h
  obtain ⟨h1, h2, h3, h4⟩ := h
  have ha' : (decide (d.phase i = .run) || decide (d.phase i = .hold)) = true := by
    rcases ha with ha | ha <;> simp [ha]
  have hi := i.isLt
  have q : (0x400000 * i.val + off) / 0x400000 = i.val := by omega
  have r : (0x400000 * i.val + off) % 0x400000 = off := by omega
  have r4 : (0x400000 * i.val + off) % 4 = 0 := by omega
  have hw : ¬ (0x2000000 < 0x400000 * i.val + off + 4) := by omega
  have hn : inSramWindow (0x400000 * i.val + off) = false := by
    simp only [inSramWindow, r]; simp; omega
  have hb : off < 0x100000 := by omega
  have hc : ¬ (off < 0x10000) := by omega
  have he : ¬ (0xE0000 ≤ off) := by omega
  have hf : Fin.ofNat 4 i.val = i := by ext; simp [Fin.ofNat]
  have key : d.hostWriteWord b (0x400000 * i.val + off) (BitVec.ofNat 32 v) =
      d.onStrand i fun st => st.regWrite (Master.host b).code off (BitVec.ofNat 32 v) := by
    unfold Dev.hostWriteWord
    rw [q, r]
    have fin : d.hostStrandWrite b i off (BitVec.ofNat 32 v) =
        d.onStrand i fun st => st.regWrite (Master.host b).code off (BitVec.ofNat 32 v) := by
      simp [Dev.hostStrandWrite, hs, hc, ha', he, ht, strandWrite_plain _ _ _ _ _ hp]
    split
    · omega
    · omega
    · omega
    · rw [if_pos hi, hf]; exact fin
  simp [Dev.placeWrite, Place.addr, hb, Dev.busWrite, Dev.hostWriteBytes, hl, hw, hn, r4, key]

theorem busWrite_loupe (d : Dev) (i : StrandId) (off v : Nat) (hl : d.loupeRuns = true)
    (ha : Active d i) (hf : (d.supOf i).fenceIn = false) (h : PlainPlace off) (hv : v < 2 ^ 32) :
    d.placeWrite .loupe (.strand i off) v = d.onStrand i fun st => st.regWrite 3 off (BitVec.ofNat 32 v) := by
  have hp := h
  obtain ⟨h1, h2, h3, h4⟩ := h
  have hi := i.isLt
  have hb : off < 0x100000 := by omega
  have hr : d.loupeReach i off = true := by
    unfold Dev.loupeReach
    rcases ha with ha | ha <;> simp [ha, hf]
  have hA : ∀ a, a = 0x60000000 + 0x1000000 * i.val + off → d.loupeRegWrite a (BitVec.ofNat 32 v) =
      d.onStrand i fun st => st.regWrite 3 off (BitVec.ofNat 32 v) := by
    intro a e
    have e1 : a ≠ Reg.HM_CMD := by simp only [Reg.HM_CMD]; omega
    have e2 : a ≠ Reg.LC_ADVANCE := by simp only [Reg.LC_ADVANCE]; omega
    have e3 : a ≠ Reg.TAMPER_CAUSE := by simp only [Reg.TAMPER_CAUSE]; omega
    have e4 : a ≠ Reg.LP_CMD := by simp only [Reg.LP_CMD]; omega
    have e5 : a ≠ Reg.UPD_CMD := by simp only [Reg.UPD_CMD]; omega
    have c1 : ¬ (a < 0x50044000) := by omega
    have c2 : ¬ (a < 0x50044100) := by omega
    have c3 : ¬ (a < 0x50081000) := by omega
    have c4 : ¬ (0x71000000 ≤ a) := by omega
    have c5 : ¬ (0x70000000 ≤ a) := by omega
    have c6 : inLoupeStrand a = true := by simp [inLoupeStrand]; omega
    have c7 : a % 0x1000000 = off := by omega
    have c8 : loupeStrand a = i := by
      ext; simp only [loupeStrand, Fin.ofNat]
      have : (a - 0x60000000) / 0x1000000 = i.val := by omega
      rw [this]; omega
    have c9 : ¬ (0xE0000 ≤ off) := by omega
    simp [Dev.loupeRegWrite, e1, e2, e3, e4, e5, c1, c2, c3, c4, c5, c6, c7, hb, c8, hr, hf, c9,
      strandWrite_plain _ _ _ _ _ hp, Master.code]
  have q4 : (0x60000000 + 0x1000000 * i.val + off) % 4 = 0 := by omega
  have q5 : ¬ (0x60000000 + 0x1000000 * i.val + off + 4 ≤ 0x10200000) := by omega
  have q6 : ¬ (0x60000000 + 0x1000000 * i.val + off + 4 ≤ 0x50010000) := by omega
  have q7 : ¬ (0x800000 ≤ (0x60000000 + 0x1000000 * i.val + off) % 0x1000000) := by omega
  have hn : (leBytes 4 v).length = 4 := rfl
  simp [Dev.placeWrite, Place.addr, hb, Dev.busWrite, hl, Dev.loupeWriteN, hn, q4, q5, q6, q7, leNum_leBytes4 v hv, hA _ rfl]

/-- A master's write reaches a strand's register: it is the register's own write. -/
theorem placeWrite_strand (d : Dev) (m : Master) (i : StrandId) (off v : Nat) (hr : Reaches d m i) (h : PlainPlace off)
    (hv : v < 2 ^ 32) (ht : d.directTail i off = false) :
    d.placeWrite m (.strand i off) v = d.onStrand i fun st => st.regWrite m.code off (BitVec.ofNat 32 v) := by
  cases m with
  | host b => exact busWrite_host d b i off v hr.1 hr.2.1 hr.2.2 h ht
  | core j => obtain ⟨rfl, ha⟩ := hr; exact busWrite_core d j off v ha h
  | loupe => exact busWrite_loupe d i off v hr.1 hr.2.1 hr.2.2 h hv

end Sys2Proof.Machine
end

