-- ==== Sys2Proof/Laws/Mem.lean ====
section
/-! SUPPORT. Memory: every operation keeps the canonical form; what a write and a clear leave at each address. -/

namespace Sys2Proof.Machine

/-! ## The canonical form -/

theorem Memory.above_mono (m : Memory) (j k : Nat) (h : m.above k = true) (hj : j ≤ k) : m.above j = true := by
  cases m with
  | nil => rfl
  | cons c m =>
    obtain ⟨a, b⟩ := c
    simp only [Memory.above, Bool.and_eq_true, decide_eq_true_eq] at h ⊢
    exact ⟨⟨by omega, h.1.2⟩, h.2⟩

theorem Memory.wf_of_above (m : Memory) (k : Nat) (h : m.above k = true) : m.wf = true := by
  cases m with
  | nil => rfl
  | cons c m =>
    obtain ⟨a, b⟩ := c
    simp only [Memory.above, Memory.wf, Bool.and_eq_true] at h ⊢
    exact ⟨h.1.2, h.2⟩

theorem Memory.above_drop1 (m : Memory) (j k : Nat) (h : m.above k = true) : (m.drop1 j).above k = true := by
  induction m generalizing k with
  | nil => rfl
  | cons c m ih =>
    obtain ⟨a, b⟩ := c
    simp only [Memory.above, Bool.and_eq_true, decide_eq_true_eq] at h
    unfold Memory.drop1
    split
    · exact Memory.above_mono m k a h.2 (by omega)
    · split
      · simp only [Memory.above, Bool.and_eq_true, decide_eq_true_eq]; exact h
      · simp only [Memory.above, Bool.and_eq_true, decide_eq_true_eq]; exact ⟨h.1, ih a h.2⟩

theorem Memory.above_put1 (m : Memory) (j k : Nat) (v : Byte) (h : m.above k = true) (hj : k < j) (hv : v ≠ memDefault) :
    (m.put1 j v).above k = true := by
  have hv' : (v != memDefault) = true := by simp [bne_iff_ne, hv]
  induction m generalizing k with
  | nil => simp [Memory.put1, Memory.above, hj, hv']
  | cons c m ih =>
    obtain ⟨a, b⟩ := c
    simp only [Memory.above, Bool.and_eq_true, decide_eq_true_eq] at h
    unfold Memory.put1
    split
    · rename_i hlt
      simp only [Memory.above, Bool.and_eq_true, decide_eq_true_eq]
      exact ⟨⟨hj, hv'⟩, ⟨hlt, h.1.2⟩, h.2⟩
    · split
      · rename_i heq
        subst heq
        simp only [Memory.above, Bool.and_eq_true, decide_eq_true_eq]
        exact ⟨⟨hj, hv'⟩, h.2⟩
      · simp only [Memory.above, Bool.and_eq_true, decide_eq_true_eq]
        exact ⟨h.1, ih a h.2 (by omega)⟩

/-- Writing one byte keeps the canonical form. -/
theorem Memory.wf_set (m : Memory) (k : Nat) (v : Byte) (h : m.wf = true) : (m.set k v).wf = true := by
  unfold Memory.set
  cases m with
  | nil =>
    split
    · rfl
    · rename_i hv; simp [Memory.put1, Memory.wf, Memory.above, hv]
  | cons c m =>
    obtain ⟨a, b⟩ := c
    simp only [Memory.wf, Bool.and_eq_true] at h
    split
    · unfold Memory.drop1
      split
      · exact Memory.wf_of_above m a h.2
      · split
        · simp only [Memory.wf, Bool.and_eq_true]; exact h
        · simp only [Memory.wf, Bool.and_eq_true]; exact ⟨h.1, Memory.above_drop1 m k a h.2⟩
    · rename_i hv
      have hv' : (v != memDefault) = true := by simp [bne_iff_ne, hv]
      unfold Memory.put1
      split
      · rename_i hlt
        simp only [Memory.wf, Memory.above, Bool.and_eq_true, decide_eq_true_eq]; exact ⟨hv', ⟨hlt, h.1⟩, h.2⟩
      · split
        · rename_i heq
          subst heq
          simp only [Memory.wf, Bool.and_eq_true]; exact ⟨hv', h.2⟩
        · simp only [Memory.wf, Bool.and_eq_true]; exact ⟨h.1, Memory.above_put1 m k a v h.2 (by omega) hv⟩

/-- Writing a list of bytes keeps the canonical form. -/
theorem Memory.wf_write (bs : List Byte) (m : Memory) (k : Nat) (h : m.wf = true) : (m.write k bs).wf = true := by
  induction bs generalizing m k with
  | nil => exact h
  | cons b bs ih => exact ih _ _ (Memory.wf_set m k b h)

theorem Memory.above_clear (m : Memory) (lo hi k : Nat) (h : m.above k = true) : (m.clear lo hi).above k = true := by
  induction m generalizing k with
  | nil => rfl
  | cons c m ih =>
    obtain ⟨a, b⟩ := c
    simp only [Memory.above, Bool.and_eq_true, decide_eq_true_eq] at h
    unfold Memory.clear at ih ⊢
    rw [List.filter_cons]
    split
    · simp only [Memory.above, Bool.and_eq_true, decide_eq_true_eq]; exact ⟨h.1, ih a h.2⟩
    · exact Memory.above_mono _ k a (ih a h.2) (by omega)

/-- Clearing a range keeps the canonical form. -/
theorem Memory.wf_clear (m : Memory) (lo hi : Nat) (h : m.wf = true) : (m.clear lo hi).wf = true := by
  cases m with
  | nil => rfl
  | cons c m =>
    obtain ⟨a, b⟩ := c
    simp only [Memory.wf, Bool.and_eq_true] at h
    have h2 := Memory.above_clear m lo hi a h.2
    unfold Memory.clear at h2 ⊢
    rw [List.filter_cons]
    split
    · simp only [Memory.wf, Bool.and_eq_true]; exact ⟨h.1, h2⟩
    · exact Memory.wf_of_above _ a h2

/-! ## What each address reads -/

theorem Memory.get_above (m : Memory) (j k : Nat) (h : m.above k = true) (hj : j ≤ k) : m.get j = memDefault := by
  induction m generalizing k with
  | nil => rfl
  | cons c m ih =>
    obtain ⟨a, b⟩ := c
    simp only [Memory.above, Bool.and_eq_true, decide_eq_true_eq] at h
    unfold Memory.get
    rw [if_neg (by omega)]
    exact ih a h.2 (by omega)

theorem Memory.get_drop1_same (m : Memory) (k : Nat) (h : m.wf = true) : (m.drop1 k).get k = memDefault := by
  induction m with
  | nil => rfl
  | cons c m ih =>
    obtain ⟨a, b⟩ := c
    simp only [Memory.wf, Bool.and_eq_true] at h
    unfold Memory.drop1
    split
    · rename_i e; subst e; exact Memory.get_above m a a h.2 (Nat.le_refl _)
    · rename_i ne
      split
      · rename_i hlt
        unfold Memory.get
        rw [if_neg ne]
        exact Memory.get_above m k a h.2 (by omega)
      · unfold Memory.get
        rw [if_neg ne]
        exact ih (Memory.wf_of_above m a h.2)

theorem Memory.get_drop1_other (m : Memory) (j k : Nat) (hj : j ≠ k) : (m.drop1 k).get j = m.get j := by
  induction m with
  | nil => rfl
  | cons c m ih =>
    obtain ⟨a, b⟩ := c
    unfold Memory.drop1
    split
    · rename_i e
      conv_rhs => unfold Memory.get
      rw [if_neg (by omega)]
    · split
      · rfl
      · unfold Memory.get
        split
        · rfl
        · exact ih

theorem Memory.get_put1 (m : Memory) (j k : Nat) (v : Byte) : (m.put1 k v).get j = if j = k then v else m.get j := by
  induction m with
  | nil => simp only [Memory.put1, Memory.get]; split <;> split <;> first | rfl | omega
  | cons c m ih =>
    obtain ⟨a, b⟩ := c
    unfold Memory.put1
    split
    · conv_lhs => unfold Memory.get
      split <;> split <;> first | rfl | omega
    · split
      · conv_lhs => unfold Memory.get
        conv_rhs => unfold Memory.get
        split <;> split <;> (try split) <;> first | rfl | omega
      · conv_lhs => unfold Memory.get
        rw [ih]
        conv_rhs => unfold Memory.get
        split <;> split <;> first | rfl | omega

/-- A byte reads as it was written. -/
theorem Memory.get_set_same (m : Memory) (k : Nat) (v : Byte) (h : m.wf = true) : (m.set k v).get k = v := by
  unfold Memory.set
  split
  · rename_i e; rw [Memory.get_drop1_same m k h, e]
  · rw [Memory.get_put1, if_pos rfl]

/-- Writing one byte leaves every other as it was. -/
theorem Memory.get_set_other (m : Memory) (j k : Nat) (v : Byte) (hj : j ≠ k) : (m.set k v).get j = m.get j := by
  unfold Memory.set
  split
  · exact Memory.get_drop1_other m j k hj
  · rw [Memory.get_put1, if_neg hj]

/-- Writing bytes leaves every address outside them as it was. -/
theorem Memory.get_write_outside (bs : List Byte) (m : Memory) (j k : Nat) (hj : j < k ∨ k + bs.length ≤ j) :
    (m.write k bs).get j = m.get j := by
  induction bs generalizing m k with
  | nil => rfl
  | cons b bs ih =>
    simp only [List.length_cons] at hj
    unfold Memory.write
    rw [ih _ _ (by omega), Memory.get_set_other _ _ _ _ (by omega)]

/-- The bytes written read back. -/
theorem Memory.read_write_same (bs : List Byte) (m : Memory) (k : Nat) (h : m.wf = true) : (m.write k bs).read k bs.length = bs := by
  induction bs generalizing m k with
  | nil => rfl
  | cons b bs ih =>
    simp only [List.length_cons, Memory.read, Memory.write]
    rw [Memory.get_write_outside _ _ _ _ (by omega), Memory.get_set_same _ _ _ h, ih _ _ (Memory.wf_set m k b h)]

/-- A cleared range reads as 0; the rest is as it was. -/
theorem Memory.get_clear (m : Memory) (lo hi j : Nat) :
    (m.clear lo hi).get j = if lo ≤ j ∧ j < hi then memDefault else m.get j := by
  induction m with
  | nil => simp [Memory.clear, Memory.get]
  | cons c m ih =>
    obtain ⟨a, b⟩ := c
    unfold Memory.clear at ih ⊢
    rw [List.filter_cons]
    split
    · rename_i hk
      simp only [Bool.not_eq_true', Bool.and_eq_false_iff, decide_eq_false_iff_not] at hk
      conv_lhs => unfold Memory.get
      rw [ih]
      conv_rhs => unfold Memory.get
      split <;> split <;> first | rfl | omega
    · rename_i hk
      simp only [Bool.not_eq_true', Bool.and_eq_false_iff, decide_eq_false_iff_not, not_or, not_not] at hk
      rw [ih]
      conv_rhs => unfold Memory.get
      split <;> (try split) <;> first | rfl | omega

end Sys2Proof.Machine
end

