-- ==== Sys2Proof/Laws/RegRows.lean ====
section
/-! SUPPORT. Which operation a write of each command register of a strand is. -/

namespace Sys2Proof.Machine

variable (st : StrandSt) (m : Nat) (v : Word)

/-! ## Bead engines -/

theorem regWrite_BEAD_CMD (n : Fin 16) : st.regWrite m (Reg.BEAD_CMD n) v = st.beadCmd n v.toNat := by fin_cases n <;> rfl
theorem regWrite_BEAD_TXQ (n : Fin 16) : st.regWrite m (Reg.BEAD_TXQ n) v = st.txqWrite n v := by fin_cases n <;> rfl
theorem regWrite_BEAD_QCFG (n : Fin 16) : st.regWrite m (Reg.BEAD_QCFG n) v = st.qcfgWrite n v := by fin_cases n <;> rfl
theorem regWrite_BEAD_IMEM (n : Fin 16) (k : Fin 64) : st.regWrite m (Reg.BEAD_IMEM n k) v = st.imemWrite n k v := by
  have e : Reg.BEAD_IMEM n k / 0x10000 = 1 := by have := n.isLt; have := k.isLt; simp only [Reg.BEAD_IMEM]; omega
  have e2 : ¬ (Reg.BEAD_IMEM n k < 0x10900 ∧ 0x10800 ≤ Reg.BEAD_IMEM n k) := by
    have := n.isLt; have := k.isLt; simp only [Reg.BEAD_IMEM]; omega
  have e3 : Reg.BEAD_IMEM n k % 0x10000 / 0x1000 = n := by have := n.isLt; have := k.isLt; simp only [Reg.BEAD_IMEM]; omega
  have e4 : Reg.BEAD_IMEM n k % 0x1000 = 0x100 + 4 * k := by have := n.isLt; have := k.isLt; simp only [Reg.BEAD_IMEM]; omega
  have e5 : 0x100 + 4 * k.val < 0x200 := by have := k.isLt; omega
  unfold StrandSt.regWrite
  rw [e]
  have e2' : (decide (0x10800 ≤ Reg.BEAD_IMEM n k) && decide (Reg.BEAD_IMEM n k < 0x10900)) = false := by
    simp only [Bool.and_eq_false_iff, decide_eq_false_iff_not]; omega
  simp only [e2', e3, e4]
  simp [StrandSt.beadWrite, e5]
theorem regWrite_BEAD_DIV (n : Fin 16) : st.regWrite m (Reg.BEAD_DIV n) v = st.plainWrite m (Reg.BEAD_DIV n) v := by
  fin_cases n <;> rfl
theorem regWrite_BEAD_CRCCFG (n : Fin 16) : st.regWrite m (Reg.BEAD_CRCCFG n) v = st.beadStopped m n 0x4C v := by
  fin_cases n <;> rfl

/-! ## Ports and switch -/

theorem regWrite_MDIO_CMD : st.regWrite m Reg.MDIO_CMD v = st.mdioStart v := rfl
theorem regWrite_MAC_CMD (p : Fin 4) : st.regWrite m (Reg.MAC_CMD p) v = st.macCmd p v := by fin_cases p <;> rfl
theorem regWrite_MAC_FLT_W3 (p : Fin 4) (k : Fin 32) : st.regWrite m (Reg.MAC_FLT_W3 p k) v = st.fltWrite p k v := by
  fin_cases p <;> fin_cases k <;> rfl
theorem regWrite_SW_FDB_CMD : st.regWrite m Reg.SW_FDB_CMD v = st.fdbCmd v := rfl
theorem regWrite_GCL_CTL (e : Fin 4) : st.regWrite m (Reg.GCL_CTL e) v = st.gclCtlWrite e v := by fin_cases e <;> rfl

/-! ## Time, Bangle, Filigree, mapper -/

theorem regWrite_TIME_CMD : st.regWrite m Reg.TIME_CMD v = st.timeCmd m v := rfl
theorem regWrite_TIME_RATE : st.regWrite m Reg.TIME_RATE v = st.rateWrite m v := rfl
theorem regWrite_TIME_RATE_INIT : st.regWrite m Reg.TIME_RATE_INIT v = st.rateInitWrite v := rfl
theorem regWrite_BNG_CMD : st.regWrite m Reg.BNG_CMD v = st.bngCmd v := rfl
theorem regWrite_TRK_OBS_VAL (t : Fin 4) :
    st.regWrite 2 (Reg.TRK_OBS_VAL t) v = if st.bit (Reg.TRK_CFG t) 29 then st else st.obsSubmit t v := by fin_cases t <;> rfl
theorem regWrite_EVT_W3 (k : Fin 256) :
    st.regWrite m (Reg.EVT_W3 k) v = (if bitOf v 31 then st else st.evtFires k).evtWrite k v := by
  have h := k.isLt
  have e : Reg.EVT_W3 k / 0x10000 = 6 := by simp only [Reg.EVT_W3]; omega
  unfold StrandSt.regWrite
  rw [e]
  have e1 : Reg.EVT_W3 k ≠ Reg.BNG_CMD := by simp only [Reg.EVT_W3, Reg.BNG_CMD]; omega
  have e2 : 0x61000 ≤ Reg.EVT_W3 k := by simp only [Reg.EVT_W3]; omega
  have e3 : Reg.EVT_W3 k < 0x62000 := by simp only [Reg.EVT_W3]; omega
  have e4 : Reg.EVT_W3 k % 16 / 4 = 3 := by simp only [Reg.EVT_W3]; omega
  have e5 : (Reg.EVT_W3 k - 0x61000) / 16 = k := by simp only [Reg.EVT_W3]; omega
  simp [StrandSt.bngWrite, e1, e2, e3, e4, e5]
theorem regWrite_FLG_CMD : st.regWrite m Reg.FLG_CMD v = st.flgCmd v := rfl
theorem regWrite_MAP_CMD : st.regWrite m Reg.MAP_CMD v = st.mapCmd v := rfl

/-! ## DMA -/

theorem regWrite_ringTail (r : Fin 32) : st.regWrite m (ringPage r + 0x10) v = st.tailWrite r (fieldOf v 15 0) := by
  fin_cases r <;> rfl
theorem regWrite_ringCtl (r : Fin 32) : st.regWrite m (ringPage r + 0x0C) v = st.ringCtl r v := by fin_cases r <;> rfl
theorem regWrite_CQ_HEAD (c : Fin 8) : st.regWrite m (Reg.CQ_HEAD c) v = st.cqHeadWrite c v := by fin_cases c <;> rfl
theorem regWrite_CQ_CTL (c : Fin 8) :
    st.regWrite m (Reg.CQ_CTL c) v = if bitOf v 0 then st.cqEnable c else st.putBit (Reg.CQ_CTL c) 0 false := by
  fin_cases c <;> rfl
theorem regWrite_DMA_ABORT : st.regWrite m Reg.DMA_ABORT v = st.dmaAbort v := rfl
theorem regWrite_DMA_CQ_POST : st.regWrite 2 Reg.DMA_CQ_POST v = st.cqPost v := rfl

/-! ## Core and banks -/

theorem regWrite_CORE_CMD : st.regWrite m Reg.CORE_CMD v = st.coreCmd m v := rfl
theorem regWrite_BANK_OWNER (k : Fin 48) : st.regWrite m (Reg.BANK_OWNER k) v = st.bankOwnerWrite m k v := by fin_cases k <;> rfl
theorem regWrite_BANK_STATE (k : Fin 48) : st.regWrite m (Reg.BANK_STATE k) v = st.pwrWrite m k (fieldOf v 1 0) := by
  fin_cases k <;> rfl
theorem regWrite_CMDACC_GO : st.regWrite 2 Reg.CMDACC_GO v = (match fieldOf v 5 4 with
    | 1 => st.cmdAccept (fieldOf v 1 0)
    | 2 => st.cmdStart' (fieldOf v 1 0)
    | _ => st) := rfl

end Sys2Proof.Machine
end

