-- ==== Sys2Proof/WellFormed.lean ====
section
/-! DEFINITION. Which operands a command can have: what the widths of the spec's fields and the shape of what arrives admit. -/

namespace Sys2Proof

namespace Machine

/-- What a start finds: a base mode and masks of the widths the configuration gives them (R464), reads of three outcomes (R456). -/
def StartIn.wf (x : StartIn) : Bool :=
  x.cfg.base < 12 && x.cfg.essential < 16 && x.cfg.strands < 16 && x.cfg.policy < 2 ^ 16 && x.cfg.fmt < 256 &&
    x.read0 < 3 && x.read1 < 3 && x.readCfg < 3

/-- The paths of a Ngufotu message: the request buffers, the service port, the strand paths (R441). -/
def pathOk (p : Nat) : Bool := p < 3 || (16 ≤ p && p < 20)

/-- A Ngufotu header's fields (R444, R445). -/
def NguHdr.wf (h : NguHdr) : Bool := pathOk h.path && h.txn < 2 ^ 32 && h.key < 256 && h.nonce < 2 ^ 32

/-- A frame as it arrives: a byte and a fragment at least (R111, R115). -/
def RxWire.wf (w : RxWire) : Bool := 1 ≤ w.bytes.length && 1 ≤ w.frags

/-- A BAR2 access stays within the window (R317). -/
def HostAcc.wf (x : HostAcc) (off : Nat) : Bool :=
  match x with
  | .read n => 0 < n && off + n ≤ 0x10000000
  | .write bytes => !bytes.isEmpty && off + bytes.length ≤ 0x10000000

end Machine

open Machine

/-- Whether a command's operands are ones it can have.  (DESIGN CHOICE, safe: log entry 169.) -/
def Instr.wf (c : Instr) : Bool :=
  match c with
  | .registerWrite _ _ _ size v => (size = 1 || size = 2 || size = 4 || size = 8) && v < 2 ^ (8 * size)
  | .snap _ _ _ => true
  | .por _ => true
  | .porEnd _ _ _ flashA flashB boot => flashA.all (· < 256) && flashB.all (· < 256) && boot.wf
  | .strandWarm _ _ => true
  | .strandCold _ _ _ => true
  | .linkReset _ _ => true
  | .loupeReset _ _ => true
  | .lockstepMismatch _ => true
  | .loupeWdogExpiry _ => true
  | .claspInternalReset _ => true
  | .claspSelfCheckDone _ _ => true
  | .clkFail _ _ _ => true
  | .clkOkReturn _ _ => true
  | .supplyFail _ _ => true
  | .coreWdogExpiry _ _ => true
  | .loupeHeartbeat _ _ => true
  | .hbTimeout _ _ => true
  | .fenceInSet _ _ => true
  | .fenceInRelease _ _ => true
  | .holdEnter _ _ _ => true
  | .holdExit _ _ _ => true
  | .loadStart _ _ tests => (tests.map (·.1)).Nodup
  | .pllLockTimeout _ _ => true
  | .loadComplete _ _ pkgs _ => pkgs.length ≤ 16
  | .loadPhaseEnd _ => true
  | .migration _ _ payload boot => boot.wf && decide (payload.length ≤ 1048064)
  | .pairResynchronized _ _ => true
  | .wake _ boot => boot.wf
  | .start _ _ _ _ _ => true
  | .beadStep _ _ _ _ _ => true
  | .stop _ _ _ _ => true
  | .stopAct _ _ _ => true
  | .qflush _ _ _ _ => true
  | .pinRelease _ _ _ _ => true
  | .divRestart _ _ _ _ => true
  | .evtSet _ _ _ _ _ => true
  | .beadTxqWrite _ _ _ _ _ => true
  | .beadRxqRead _ _ _ _ => true
  | .beadQcfgWrite _ _ _ _ _ => true
  | .beadImemWrite _ _ _ _ _ _ => true
  | .beadDivWrite _ _ _ _ _ => true
  | .beadCrccfgWrite _ _ _ _ _ => true
  | .nop _ => true
  | .shout _ _ => true
  | .shin _ _ => true
  | .pull _ _ => true
  | .push _ _ => true
  | .set _ _ _ => true
  | .beadMov _ _ _ _ _ => true
  | .jmp _ _ _ => true
  | .beadWait _ _ _ _ => true
  | .beadCmp _ _ _ _ => true
  | .crc _ _ _ _ => true
  | .stamp _ _ _ _ _ => true
  | .edit _ _ _ _ => true
  | .irq _ => true
  | .cnt _ _ _ => true
  | .sync _ _ => true
  | .linkChange _ _ _ _ _ _ => true
  | .mdioStart _ _ _ _ => true
  | .mdioDone _ _ _ _ => true
  | .anRestart _ _ _ _ => true
  | .anDone _ _ _ _ _ => true
  | .verifyRestart _ _ _ _ => true
  | .verifyDone _ _ _ _ => true
  | .rxFrame _ _ _ w => w.wf
  | .pauseExpiry _ _ _ _ => true
  | .fcRepeat _ _ _ _ => true
  | .macFltW3Write _ _ _ _ _ _ => true
  | .ptFrame _ _ _ w _ => w.wf
  | .frameEligible _ _ _ _ => true
  | .egressSelect _ _ _ _ => true
  | .internalAdmit _ _ _ => true
  | .vPortIngress _ _ _ => true
  | .vPortEgress _ _ _ => true
  | .fdbWrite _ _ _ _ => true
  | .fdbRead _ _ _ _ => true
  | .fdbClear _ _ _ _ => true
  | .gclEntryAdvance _ _ _ => true
  | .swap _ _ _ _ _ => true
  | .gclSwapAct _ _ _ => true
  | .rateWrite _ _ _ _ => true
  | .rateInitWrite _ _ _ _ => true
  | .timeNowRead _ _ _ => true
  | .timeStep _ _ _ => true
  | .stepArm _ _ _ => true
  | .ppsEdge _ _ _ _ _ => true
  | .ppsLoss _ _ => true
  | .ppsOutPulse _ _ => true
  | .ppsOutEnd _ _ => true
  | .trkObsSubmit _ _ _ _ => true
  | .obsQueueTake _ _ _ => true
  | .obsApply _ _ _ => true
  | .trkTimeout _ _ _ => true
  | .trkRestart _ _ _ _ => true
  | .trkAngleRead _ _ _ _ => true
  | .predictorVisit _ _ _ => true
  | .evtFire _ _ _ => true
  | .actionDeferred _ _ => true
  | .evtEntryWrite _ _ _ _ _ => true
  | .ctNowRead _ _ _ => true
  | .rowStart _ _ => true
  | .winStage _ _ _ => true
  | .winStart _ _ _ => true
  | .winAction _ _ _ => true
  | .alignRx _ _ _ _ => true
  | .alignTimeout _ _ => true
  | .resync _ _ _ => true
  | .flgDataRx _ _ _ _ => true
  | .rttReqSend _ _ => true
  | .rttRespSend _ _ _ => true
  | .rttMeasure _ _ _ _ => true
  | .rttAbandon _ _ _ => true
  | .bezelDecide _ _ _ _ _ => true
  | .bezelCut _ _ _ => true
  | .arbForward _ _ => true
  | .unfence _ _ _ _ => true
  | .devClear _ _ _ => true
  | .pkgGetStatus _ _ k block => k < 16 && block % 4 = 0 && block < 0x600000
  | .goOperational _ _ k block => k < 16 && block % 4 = 0 && block < 0x600000
  | .goStopped _ _ k block => k < 16 && block % 4 = 0 && block < 0x600000
  | .readContext _ _ k block => k < 16 && block % 4 = 0 && block < 0x600000
  | .mapRun _ _ _ => true
  | .mapTimeTrigger _ _ => true
  | .mapRunDone _ _ waits => decide (waits < 2 ^ 32)
  | .smEvent _ _ _ => true
  | .ctxTimeout _ _ _ => true
  | .ringTailWrite _ _ _ _ _ => true
  | .ownRecheck _ _ _ words => words.length = 8
  | .txItemFetch _ _ _ => true
  | .hostReadCompletion _ _ tag status _ => tag < 128 && status < 3
  | .txCommit _ _ _ => true
  | .rxRingDeliver _ _ _ => true
  | .rxHoldExpiry _ _ _ => true
  | .completionWrite _ _ _ => true
  | .readbackReturn _ _ => true
  | .cqHeadWrite _ _ _ _ _ => true
  | .cqEnable _ _ _ _ => true
  | .cqPost _ _ _ => true
  | .dmaAbort _ _ _ _ => true
  | .ringEnable _ _ _ _ => true
  | .ringDisable _ _ _ _ => true
  | .idxClear _ _ _ _ _ => true
  | .cmdAccept _ _ _ => true
  | .cmdStart _ _ _ => true
  | .mgTailWrite _ _ _ _ => true
  | .mergeWriteback _ _ => true
  | .mergeRecord _ _ => true
  | .mgAbort _ _ _ _ => true
  | .mgCfgWrite _ _ _ _ => true
  | .accReport _ _ => true
  | .irqArm _ _ _ _ => true
  | .msixUnmask _ _ _ => true
  | .pmStateChange _ _ _ => true
  | .bar2Access _ _ off acc => off < 0x10000000 && acc.wf off
  | .recOpen _ _ _ => true
  | .recSubmit _ _ _ _ _ _ boot => boot.wf
  | .recClose _ _ => true
  | .add _ _ _ _ _ _ _ => true
  | .adc _ _ _ _ _ _ _ => true
  | .sub _ _ _ _ _ _ _ => true
  | .sbc _ _ _ _ _ _ _ => true
  | .and _ _ _ _ _ _ _ => true
  | .or _ _ _ _ _ _ _ => true
  | .xor _ _ _ _ _ _ _ => true
  | .andn _ _ _ _ _ _ _ => true
  | .mov _ _ _ _ _ _ => true
  | .mvn _ _ _ _ _ _ => true
  | .neg _ _ _ _ _ _ => true
  | .cmp _ _ _ _ _ _ => true
  | .tst _ _ _ _ _ _ => true
  | .movw _ _ _ _ _ => true
  | .movt _ _ _ _ _ => true
  | .shf _ _ _ _ _ _ _ _ => true
  | .ldw _ _ _ _ _ _ => true
  | .ldh _ _ _ _ _ _ => true
  | .ldhs _ _ _ _ _ _ => true
  | .ldb _ _ _ _ _ _ => true
  | .ldbs _ _ _ _ _ _ => true
  | .stw _ _ _ _ _ _ => true
  | .sth _ _ _ _ _ _ => true
  | .stb _ _ _ _ _ _ => true
  | .wbDrain _ _ => true
  | .b _ _ _ _ _ => true
  | .br _ _ _ _ _ => true
  | .swi _ _ _ _ => true
  | .rte _ _ _ _ => true
  | .wait _ _ _ _ => true
  | .waitWake _ _ => true
  | .barrier _ _ _ _ => true
  | .bkpt _ _ _ _ => true
  | .mfs _ _ _ _ _ => true
  | .mts _ _ _ _ _ => true
  | .mul _ _ _ _ _ _ => true
  | .muls _ _ _ _ _ _ => true
  | .mulResult _ _ => true
  | .div _ _ _ _ _ _ => true
  | .divs _ _ _ _ _ _ => true
  | .divResult _ _ => true
  | .badd _ _ _ _ _ _ _ => true
  | .bsub _ _ _ _ _ _ _ => true
  | .dadj _ _ _ _ _ _ => true
  | .btob _ _ _ _ _ _ => true
  | .bfromb _ _ _ _ _ _ => true
  | .d16Sequence _ _ _ => true
  | .coreIrqTaken _ _ => true
  | .wdogKick _ _ _ => true
  | .halt _ _ => true
  | .resume _ _ => true
  | .coreStep _ _ => true
  | .breakpointHit _ _ => true
  | .bankRelease _ _ _ _ => true
  | .bankGrant _ _ _ _ _ _ => true
  | .releaseGrant _ _ _ _ _ _ => true
  | .bankFree _ _ _ => true
  | .pwrWrite _ _ _ _ _ => true
  | .pwrChangeDone _ _ _ => true
  | .scrub _ _ _ _ _ => true
  | .patrolRead _ _ found => found.all fun x => x.1 < 50 && (x.2 = 1 || x.2 = 2)
  | .hmWipe _ => true
  | .lcAdvanceWrite _ _ => true
  | .tamper _ _ => true
  | .locketPost _ _ _ _ => true
  | .rxHiRead _ _ _ => true
  | .locketAck _ _ _ => true
  | .locketTimeout _ _ _ => true
  | .tempSample _ readings => readings.length = 12 && readings.all fun t => decide (-32768 ≤ t) && decide (t < 32768)
  | .railSample _ _ core serdes => core < 4096 && serdes < 4096
  | .wearMeasure _ _ r1 r2 r3 => r1 < 2 ^ 20 && r2 < 2 ^ 20 && r3 < 2 ^ 20
  | .eqhUpdate _ => true
  | .wearRecordWrite _ => true
  | .logFlush _ failA failB => failA < 3 && failB < 3
  | .loupeTimeCopy _ => true
  | .timeUncTimeout _ => true
  | .nonceExpiry _ => true
  | .reqLenWrite _ _ len => len < 2 ^ 32
  | .getIdentity h => h.wf
  | .getStatus h => h.wf
  | .getNonce h => h.wf
  | .readReg h a n => h.wf && a < 2 ^ 32 && n < 2 ^ 16
  | .readLog h first n => h.wf && first < 2 ^ 32 && n < 2 ^ 16
  | .readSensors h => h.wf
  | .readWear h => h.wf
  | .readLoadRecord h _ => h.wf
  | .nguSnap h _ => h.wf
  | .fence h _ => h.wf
  | .rejoin h _ => h.wf
  | .safeHold h => h.wf
  | .release h => h.wf
  | .restart h boot => h.wf && boot.wf
  | .shutdown h => h.wf
  | .recover h => h.wf
  | .claspRestart h => h.wf
  | .nguStrandWarm h _ => h.wf
  | .nguStrandCold h _ => h.wf
  | .nguLoupeReset h => h.wf
  | .setTime h ns => h.wf && ns < 2 ^ 48 * 10 ^ 9
  | .updateBegin h sess => h.wf && sess < 2 ^ 32
  | .updateAbort h sess => h.wf && sess < 2 ^ 32
  | .activate h sess due => h.wf && sess < 2 ^ 32 && due < 2 ^ 48 * 10 ^ 9
  | .activationDue _ boot => boot.wf
  | .cancel h sess => h.wf && sess < 2 ^ 32
  | .confirm h => h.wf
  | .trialConfirmDue _ => true
  | .trialRestartDue _ boot => boot.wf
  | .revert h verdict boot => h.wf && verdict < 3 && boot.wf
  | .enrol h body => h.wf && body.length ≤ 1408
  | .lcAdvance h target => h.wf && target < 4
  | .relayBlock _ path sess off hop total progA progB data _ =>
    (path < 2 || path = 4 || path = 5) && sess < 2 ^ 32 && off < 2 ^ 32 && hop < 256 && total < 2 ^ 32 && progA < 3 && progB < 3 && data.length ≤ 1024
  | .relayRequest _ path sess outcome ranges =>
    (path = 2 || path = 3) && sess < 2 ^ 32 && outcome < 3 && 1 ≤ ranges.length && ranges.length ≤ 64 && ranges.all fun r => r.1 < 2 ^ 16 && r.2 < 2 ^ 16
  | .relayState _ path sess serial hop state stored total _ _ =>
    (path = 2 || path = 3) && sess < 2 ^ 32 && serial < 2 ^ 64 && hop < 256 && state < 256 && stored < 2 ^ 32 && total < 2 ^ 32
  | .relayStateTimer _ => true
  | .relayQueueSend _ path outcome => (path = 2 || path = 3) && outcome < 3
  | .relayGapRequest _ => true
  | .relayRequestRetry _ => true
  | .relayUpLostRepeat _ => true
  | .sessionVerify _ copyA copyB => copyA < 3 && copyB < 3
  | .bankVioCheck _ _ _ mv => mv < 2 ^ 16
  | .pcieLinkUp _ _ => true
  | .postedCreditReturn _ _ n => 0 < n && n ≤ 128
  | .cbsCreditReachesZero _ _ _ _ => true
  | .reservedEncoding _ _ _ => true
  | .ngufotuMessage _ path txn _ => pathOk path && txn < 2 ^ 32
  | .servicePortLinkChange _ _ => true
  | .wipeComplete _ => true
  | .lifeCycleFusesProgrammed _ => true

end Sys2Proof
end

