-- ==== Sys2Proof/Tests/Slice0.lean ====
section
/-! SUPPORT. The model's own tests.  First, for each check of WellFormed a term it refuses; then small tests whose expected results come
from the spec's own text; then, for each statement of Certificates/Slice0/Obligations.lean that has hypotheses, concrete states and operands
that meet them (`wit_<the statement>`: one part for each way through the statement's cases).  A command whose constructor stands past the
244th of Instr appears in theorems only: compiled code cannot build it. -/

namespace Sys2Proof.Tests

set_option Elab.async false
set_option linter.unusedVariables false

open Machine

/-- A device in MD4 with its four strands in RUN and both links up. -/
def dev : Dev :=
  { mode := 4, base := 4, por := false, devLock := true, cfg := { strands := 15 },
    sup := Quad.all { phase := .run, lock := true, pllLock := true, clkOk := true, retValid := true },
    clasp := { links := ⟨{ up := true, credits := 128 }, { up := true, credits := 128 }⟩ },
    loupe := { firmware := true } }

/-- The same with strand 0 changed. -/
def with0 (f : StrandSt → StrandSt) : State := { dev := dev.setStrand 0 (f (dev.strand 0)) }

def s0 : State := { dev := dev }


/-! ## Ill-formed terms: each check of WellFormed refuses one -/

/-- A well-formed header, and one that fails each check of a header. -/
def hdr : NguHdr := { path := 0, txn := 1 }

theorem test_header_ok : hdr.wf = true := by decide
theorem test_ill_header : ({ hdr with path := 3 } : NguHdr).wf = false ∧ ({ hdr with txn := 2 ^ 32 } : NguHdr).wf = false ∧
    ({ hdr with key := 256 } : NguHdr).wf = false ∧ ({ hdr with nonce := 2 ^ 32 } : NguHdr).wf = false := by decide
theorem test_ill_start : (Instr.wake 0 { cfg := { base := 12 } }).wf = false ∧ (Instr.porEnd 0 false false none none { cfg := { essential := 16 } }).wf = false ∧
    (Instr.migration 0 true [] { cfg := { strands := 16 } }).wf = false ∧ (Instr.activationDue 0 { cfg := { policy := 65536 } }).wf = false ∧
    (Instr.trialRestartDue 0 { cfg := { fmt := 256 } }).wf = false := by decide
theorem test_ill_porEnd : (Instr.porEnd 0 false false (some 256) none {}).wf = false ∧ (Instr.porEnd 0 false false none (some 256) {}).wf = false := by decide
theorem test_ill_registerWrite : (Instr.registerWrite 0 .loupe 0 3 0).wf = false ∧ (Instr.registerWrite 0 .loupe 0 1 256).wf = false := by decide
theorem test_ill_loadStart : (Instr.loadStart 0 0 [(3, true), (3, false)]).wf = false := by decide
theorem test_ill_loadComplete : (Instr.loadComplete 0 0 (List.replicate 17 []) true).wf = false := by decide
theorem test_ill_frames : (Instr.rxFrame 0 0 0 { bytes := [], fcsBad := false, symErr := false, linkLost := false, frags := 1, assyErr := false }).wf = false ∧
    (Instr.ptFrame 0 0 0 { bytes := [0], fcsBad := false, symErr := false, linkLost := false, frags := 0, assyErr := false } .none).wf = false := by decide
theorem test_ill_mapRunDone : (Instr.mapRunDone 0 0 (2 ^ 32)).wf = false := by decide
theorem test_ill_migration_payload : (Instr.migration 0 true (List.replicate (1024 * 1024) 0) {}).wf = false := by
  unfold Instr.wf; dsimp only; rw [List.length_replicate]; decide
theorem test_ill_package : (Instr.pkgGetStatus 0 0 16 0).wf = false ∧ (Instr.goOperational 0 0 0 2).wf = false ∧ (Instr.goStopped 0 0 0 0x600000).wf = false ∧
    (Instr.readContext 0 0 16 0).wf = false := by decide
theorem test_ill_ownRecheck : (Instr.ownRecheck 0 0 0 [1, 2]).wf = false := by decide
theorem test_ill_hostReadCompletion : (Instr.hostReadCompletion 0 0 128 0 []).wf = false ∧ (Instr.hostReadCompletion 0 0 0 3 []).wf = false := by decide
theorem test_ill_bar2Access : (Instr.bar2Access 0 false 0x10000000 (.read 1)).wf = false ∧ (Instr.bar2Access 0 false 0xFFFFFFF (.read 2)).wf = false ∧
    (Instr.bar2Access 0 false 0 (.read 0)).wf = false ∧ (Instr.bar2Access 0 false 0 (.write [])).wf = false ∧
    (Instr.bar2Access 0 false 0xFFFFFFF (.write [1, 2])).wf = false := by decide
theorem test_ill_recSubmit : (Instr.recSubmit 0 false true false true true { cfg := { base := 12 } }).wf = false := by decide
theorem test_ill_patrolRead : (Instr.patrolRead 0 0 (some (50, 1))).wf = false ∧ (Instr.patrolRead 0 0 (some (0, 3))).wf = false := by decide
theorem test_ill_samples : (Instr.tempSample 0 [1]).wf = false ∧ (Instr.tempSample 0 (List.replicate 12 32768)).wf = false ∧
    (Instr.tempSample 0 (List.replicate 12 (-32769))).wf = false ∧ (Instr.railSample 0 0 4096 0).wf = false ∧ (Instr.railSample 0 0 0 4096).wf = false ∧
    (Instr.wearMeasure 0 0 (2 ^ 20) 0 0).wf = false ∧ (Instr.wearMeasure 0 0 0 (2 ^ 20) 0).wf = false ∧ (Instr.wearMeasure 0 0 0 0 (2 ^ 20)).wf = false := by decide
theorem test_ill_logFlush : (Instr.logFlush 0 3 0).wf = false ∧ (Instr.logFlush 0 0 3).wf = false := by decide
theorem test_ill_reqLenWrite : (Instr.reqLenWrite 0 false (2 ^ 32)).wf = false := by decide
theorem test_ill_reads : (Instr.readReg hdr (2 ^ 32) 1).wf = false ∧ (Instr.readReg hdr 0 (2 ^ 16)).wf = false ∧ (Instr.readLog hdr (2 ^ 32) 1).wf = false ∧
    (Instr.readLog hdr 0 (2 ^ 16)).wf = false ∧ (Instr.getNonce { hdr with path := 20 }).wf = false := by decide
theorem test_ill_setTime : (Instr.setTime hdr (2 ^ 48 * 10 ^ 9)).wf = false := by decide
theorem test_ill_sessions : (Instr.updateBegin hdr (2 ^ 32)).wf = false ∧ (Instr.updateAbort hdr (2 ^ 32)).wf = false ∧
    (Instr.activate hdr (2 ^ 32) 0).wf = false ∧ (Instr.activate hdr 0 (2 ^ 48 * 10 ^ 9)).wf = false ∧ (Instr.cancel hdr (2 ^ 32)).wf = false := by decide
theorem test_ill_revert : (Instr.revert hdr 3 {}).wf = false := by decide
theorem test_ill_enrol : (Instr.enrol hdr (List.replicate 1409 0)).wf = false := by decide +kernel
theorem test_ill_lcAdvance : (Instr.lcAdvance hdr 4).wf = false := by decide
theorem test_ill_relayBlock : (Instr.relayBlock 0 2 0 0 0 0 0 0 [] true).wf = false ∧ (Instr.relayBlock 0 0 (2 ^ 32) 0 0 0 0 0 [] true).wf = false ∧
    (Instr.relayBlock 0 0 0 (2 ^ 32) 0 0 0 0 [] true).wf = false ∧ (Instr.relayBlock 0 0 0 0 256 0 0 0 [] true).wf = false ∧
    (Instr.relayBlock 0 0 0 0 0 (2 ^ 32) 0 0 [] true).wf = false ∧ (Instr.relayBlock 0 0 0 0 0 0 3 0 [] true).wf = false ∧
    (Instr.relayBlock 0 0 0 0 0 0 0 3 [] true).wf = false := by decide
theorem test_ill_relayBlock_data : (Instr.relayBlock 0 0 0 0 0 0 0 0 (List.replicate 1025 0) true).wf = false := by decide +kernel
theorem test_ill_relayRequest : (Instr.relayRequest 0 0 0 0 [(0, 1)]).wf = false ∧ (Instr.relayRequest 0 2 (2 ^ 32) 0 [(0, 1)]).wf = false ∧
    (Instr.relayRequest 0 2 0 3 [(0, 1)]).wf = false ∧ (Instr.relayRequest 0 2 0 0 [(65536, 0)]).wf = false ∧
    (Instr.relayRequest 0 2 0 0 []).wf = false ∧ (Instr.relayRequest 0 2 0 0 (List.replicate 65 (0, 1))).wf = false := by decide
theorem test_ill_relayState : (Instr.relayState 0 0 0 0 0 0 0 0 0 0).wf = false ∧ (Instr.relayState 0 2 (2 ^ 32) 0 0 0 0 0 0 0).wf = false ∧
    (Instr.relayState 0 2 0 (2 ^ 64) 0 0 0 0 0 0).wf = false ∧
    (Instr.relayState 0 2 0 0 256 0 0 0 0 0).wf = false ∧ (Instr.relayState 0 2 0 0 0 256 0 0 0 0).wf = false ∧
    (Instr.relayState 0 2 0 0 0 0 (2 ^ 32) 0 0 0).wf = false ∧ (Instr.relayState 0 2 0 0 0 0 0 (2 ^ 32) 0 0).wf = false := by decide
theorem test_ill_relayQueueSend : (Instr.relayQueueSend 0 0 0).wf = false ∧ (Instr.relayQueueSend 0 2 3).wf = false := by decide
theorem test_ill_restart : (Instr.restart hdr { cfg := { base := 12 } }).wf = false ∧ (Instr.restart hdr { read0 := 3 }).wf = false ∧
    (Instr.restart hdr { read1 := 3 }).wf = false ∧ (Instr.restart hdr { readCfg := 3 }).wf = false := by decide
theorem test_ill_sessionVerify : (Instr.sessionVerify 0 3 0).wf = false ∧ (Instr.sessionVerify 0 0 3).wf = false := by decide
theorem test_ill_bankVioCheck : (Instr.bankVioCheck 0 0 0 65536).wf = false := by decide
theorem test_ill_postedCreditReturn : (Instr.postedCreditReturn 0 false 0).wf = false ∧ (Instr.postedCreditReturn 0 false 129).wf = false := by decide
theorem test_ill_ngufotuMessage : (Instr.ngufotuMessage 0 3 0 .wrongTarget).wf = false ∧ (Instr.ngufotuMessage 0 0 (2 ^ 32) .wrongTarget).wf = false := by decide

/-! ## The spec's own examples -/

/-- The device after a command. -/
def after (c : Instr) (s : State) : Dev :=
  match exec c s with
  | .next t => t.dev
  | _ => {}

/-- Core 0 at work, with the given word registers. -/
def core0 (f : DCore → DCore) : State := with0 fun x => { x with core := f { x.core with state := .running, pc := 0x100 } }

/-- Chapter 15, after R378: the word of MUL W3, W4 with G = 0xE. -/
theorem test_mul_word : (DOp.mulDiv 0x1D false 3 4).encode 14 = 0xE740C400 ∧ DOp.read 0xE740C400 = some (.mulDiv 0x1D false 3 4) := by decide +kernel

/-- The same table's words of MFS W5, ML, of MFS W9, QT and of DIVS W7, W8. -/
theorem test_mfs_divs_words : DOp.read 0xE6D40000 = some (.mfs 5 0) ∧ DOp.read 0xE6E40002 = some (.mfs 9 2) ∧
    DOp.read 0xE801C800 = some (.mulDiv 0x20 false 7 8) := by decide +kernel

/-- The same table: 100,000 × 50,000 leaves ML as it was until the product lands; MH is then 1 and ML 0x2A05_F200. -/
theorem test_mul_latency :
    let s := core0 fun k => { k with w := ⟨[(3, 100000), (4, 50000)]⟩, ml := 7 }
    let d := after (.mul 0 0 14 false 3 4) s
    let e := after (.mulResult 100 0) { dev := d }
    (d.strand 0).core.ml = 7 ∧ (e.strand 0).core.ml = 0x2A05F200 ∧ (e.strand 0).core.mh = 1 := by decide +kernel

/-- The same table: 0x8000_0000 / 0xFFFF_FFFF sets V and leaves 0x8000_0000 and 0. -/
theorem test_divs_corner :
    let d := after (.divs 0 0 14 false 7 8) (core0 fun k => { k with w := ⟨[(7, 0x80000000), (8, 0xFFFFFFFF)]⟩ })
    let e := after (.divResult 100 0) { dev := d }
    (d.strand 0).core.v = true ∧ (e.strand 0).core.qt = 0x80000000 ∧ (e.strand 0).core.rm = 0 := by decide +kernel

/-- Chapter 15, after R377: ADD with S = 1 of 0x55 and 0x55 gives 0xAA with NC = 0 and C = 0. -/
theorem test_add_decimal :
    let x := ((after (.add 0 0 14 true 3 1 (.reg 2)) (core0 fun k => { k with w := ⟨[(1, 0x55), (2, 0x55)]⟩, nc := 9, c := true })).strand 0).core
    x.reg 3 = 0xAA ∧ x.nc = 0 ∧ x.c = false := by decide +kernel

/-- DADJ of that sum gives 0x110 with D = 0. -/
theorem test_dadj :
    let x := ((after (.dadj 0 0 14 true 3 3) (core0 fun k => { k with w := ⟨[(3, 0xAA)]⟩, d := true })).strand 0).core
    x.reg 3 = 0x110 ∧ x.d = false := by decide +kernel

/-- BSUB of 5 − 7 with D = 0 gives 0x9999_9998 with D = 1. -/
theorem test_bsub :
    let x := ((after (.bsub 0 0 14 true 3 1 2) (core0 fun k => { k with w := ⟨[(1, 5), (2, 7)]⟩ })).strand 0).core
    x.reg 3 = 0x99999998 ∧ x.d = true := by decide +kernel

/-- Chapter 3, after R98: with CMP_SRC = 2 and CMP = 999,999,500, CMP MODE 0 with IMM = 800 leaves CMP = 300. -/
theorem test_cmp_wraps :
    let s := with0 fun x => (x.wr (Reg.BEAD_CMPCFG 3) 2).updEng 3 fun e => { e with state := .running, cmp := 999999500 }
    (((after (.beadCmp ⟨0, 3, 0, [], false, 0, 0, 0⟩ 0 800 false) s).strand 0).eng 3).cmp = 300 := by decide +kernel

/-- R62, R63, entry 0: the check value that the algorithm CRC-32 is published with (IEEE 802.3; from outside the spec), over the digits 1 to 9. -/
theorem test_crc32 : crc32 [0x31, 0x32, 0x33, 0x34, 0x35, 0x36, 0x37, 0x38, 0x39] = 0xCBF43926 := by decide +kernel

/-- Chapter 18, after R435: U_2 = 0x3D77 and R_2 = 110,975 h. -/
theorem test_usage :
    let w : Wear := { eqh := 52000 * 2 ^ 32, drift := 8400 }
    let d : Dev := { loupe := { hopNs := 35064 * (3600 * 10 ^ 9), pcyc := 600, wear := (Quad.all {}).set 2 w } }
    d.wearU 2 = 0x3D77 ∧ d.wearRemain 2 = 110975 := by decide +kernel

/-- On an empty queue a step lets one strand cycle pass (log entry 1). -/
theorem test_idle_step : ∃ t, step s0 = .next t ∧ (t.dev.strand 1).now = 1 ∧ t.pending = [] := ⟨_, rfl, by decide +kernel, rfl⟩

/-- A command waits behind the one at the front. -/
theorem test_fifo :
    ∃ t, step { dev := dev, pending := [.evtSet 0 .loupe 0 3 5, .fdbClear 0 (.core 0) 0 1] } = .next t ∧ t.pending = [.fdbClear 0 (.core 0) 0 1] ∧
      (t.dev.strand 0).rd (Reg.BEAD_EVT 3) = 5 := ⟨_, rfl, rfl, by decide +kernel⟩

/-- R25: one command from reset: the end of POR with both flashes absent. -/
theorem test_reset_porEnd : (after (.porEnd 0 false false none none {}) State.reset).por = false := by decide +kernel

/-! ## Witnesses written by hand -/

/-- An operation within its fields, and a word that reads as an operation. -/
theorem wit_CoreEncoding :
    (∃ (g : Nat) (o : DOp), g < 16 ∧ o.wf) ∧ ∃ (w : Nat) (o : DOp), w < 2 ^ 32 ∧ DOp.read w = some o :=
  ⟨⟨15, .branch true 0x1FFFFF, by decide, by unfold DOp.wf; decide⟩, 0xE740C400, .mulDiv 0x1D false 3 4, by decide, by decide +kernel⟩

/-- The states before and after an idle step from a legal mode. -/
theorem wit_ModeStaysLegal : ∃ s t : State, Legal s.dev ∧ step s = .next t :=
  ⟨s0, s0.run Dev.tick, ⟨by decide, by decide, by decide, by decide, by decide, by decide⟩, rfl⟩

/-- The states before and after an idle step, with a byte stored in a strand's memory. -/
theorem wit_MemoriesStayCanonical : ∃ s t : State, Canonical s.dev ∧ (s.dev.strand 0).banks.mem ≠ [] ∧ step s = .next t :=
  ⟨with0 fun x => { x with banks := { x.banks with mem := Memory.write x.banks.mem 5 [7] } }, _,
    ⟨by decide +kernel, by decide +kernel, by decide +kernel, by decide +kernel, by decide +kernel⟩, by decide +kernel, rfl⟩

/-! ## States for the witnesses -/

namespace Bead
def a0 : BeadAt := ⟨0, 3, 5, [(2, .high), (4, .low), (5, .low)], true, 2, 4, 0⟩
def a1 : BeadAt := { a0 with gap := 0 }
def sB (f : Engine → Engine) (g : StrandSt → StrandSt := id) : State :=
  with0 fun x => g (((x.wr (Reg.BEAD_PINCFG 3) 0x04212C44).wr (Reg.BEAD_CTL 3) 0x2015).updEng 3 f)
def run (e : Engine) : Engine := { e with state := .running, pc := 63, x := 5, y := 1, osr := 0x12345678, isr := 0xABCDEF01, isrCnt := 12, osrCnt := 30, cmp := 7 }
def ents : List QEnt := (List.range 8).map fun j => ⟨BitVec.ofNat 32 (j+77), 0, 0⟩
end Bead

namespace Modes
def dd (f : Dev → Dev) : State := { dev := f dev }
def sup0 (f : SupSt → SupSt) : Dev → Dev := fun d => d.updSup 0 f
def sCnt := with0 fun x => (((x.addCnt 0x400 5).addCnt (Reg.BEAD_CNT 3 + 8) 9).addCnt 0x42008 7).addCnt (Reg.MAC_CNT 2 + 16) 6
def sCl := { dev := ((({ sCnt.dev with lkt := { cells := [(3, {bind := 0x80000040, cnt := { cells := [(8,3)] }})]} } : Dev).cinc 3).linc 4).uinc 5 : State }
def porS (f : Hallmark → Hallmark) : State := { dev := { (State.reset.dev) with hm := f {} } }
def pol : Dev → Dev := fun d => {d with cfg := {d.cfg with policy := 0xFFFF, essential := 1}}
def offS (m : Nat) : State := dd fun d => { d with mode := m, devLock := false, sup := Quad.all {} }
def migFlash : Flash := { present := true, boot := some {}, blocks := ({} : Tab (List Byte)).set [] 0 (List.replicate 512 0 ++ [1,0,0,0] ++ List.replicate 12 0 ++ [2]) }
end Modes

namespace Net
def bs (n : Nat) : List Byte := (List.range n).map fun k => BitVec.ofNat 8 (k*7+3)
def okw (b : List Byte) : RxWire := ⟨b, false, false, false, 1, false, 0⟩
def up (x : StrandSt) : StrandSt := [0,1,2,3].foldl (fun x p => ((x.wr (Reg.MAC_CTL p) 0x1B).wr (Reg.MAC_STATUS p) 0x203)) x
def ctl (p : Nat) (v : Word) (x : StrandSt) : StrandSt := x.wr (Reg.MAC_CTL p) v
def txc : TxCur := { frame := {bytes := bs 64}, queue := 0, start := 0, stop := 600, wire := bs 64, upto := 64 }
def w6 : RxWire := okw (bs 60)
def fcs : RxWire := {okw (bs 70) with fcsBad := true}
def pauseF : List Byte := beBytes 6 0x0180C2000001 ++ beBytes 6 1 ++ beBytes 2 0x8808 ++ beBytes 2 1 ++ beBytes 2 9 ++ List.replicate 42 0
def rxw (w : RxWire) (b : Bool) : MacRx := { wire := w, stop := 6, decides := 6, bound := b, own := 3, shared := 4, rule := if b then some (0,2) else none }
def pl (f : StrandSt → StrandSt := id) : State := with0 fun x => f {(ctl 1 0x101B (ctl 2 0x401B (up x))).wr (Reg.BEAD_PINCFG 5) 0x201 with bp := {x.bp with lane := ⟨[(2, some 5)]⟩}}
def rr : SwRef := { fid := 7, cells := 1, eligible := true, written := 0 }
def nel : SwRef := {rr with eligible := false}
def swf : SwFrame := {frame := {bytes := bs 70, info := {src := 3}}, refs := 1, shared := 1, cells := [11]}
def withSw (f : Switch → Switch) (x : StrandSt) : StrandSt := {x with sw := f x.sw}
def base (e q : Nat) (l : List SwRef) : State := with0 fun x => withSw (fun w => {w with frames := ⟨[(7,swf)]⟩, queues := ⟨[(8*e+q, l)]⟩}) (up x)
def ww : SwWait := ⟨7, 0x28, {bytes := bs 60, info := {src := 7, cls := 2}}⟩
def bigw : SwWait := ⟨7, 0x28, {bytes := bs 600, info := {src := 7, cls := 2}}⟩
def vb (e q : Nat) (l : List SwRef) (ts : List Word := []) : State := with0 fun x => withSw (fun w => {w with frames := ⟨[(7,swf)]⟩, queues := ⟨[(8*e+q, l)]⟩, vports := ⟨[(3,{toSend := ts})]⟩}) ((up x).wr Reg.SW_VCFG 0x81234)
def wt (w : SwWait) (f : StrandSt → StrandSt := id) : State := with0 fun x => withSw (fun y => {y with waiting := [w]}) (f x)
def vq (l : List QEnt) (f : Engine → Engine := id) : State := with0 fun x => (x.wr Reg.SW_VCFG 0x81234 |>.updEng 1 fun e => f {e with rxq := l})
def g (c : Word) (n : Nat := 0) (cr : List (Nat × Int) := [(16,-5),(18,-7)]) : State := with0 fun x => withSw (fun w => {w with fdb := ⟨[(4,⟨1,2,3⟩),(6,⟨4,5,6⟩)]⟩, gcl := ⟨[(2,{swapAt := n, swapCycle := 70})]⟩, credit := ⟨cr⟩, queues := ⟨[(18,[rr])]⟩}) ((up x).wr (Reg.GCL_CTL 2) c |>.wr Reg.SW_FDB_D0 77 |>.wr (Reg.GCL_NEXT_CYCLE 2) 50 |>.wr (Reg.SW_CBS 2 2) 0x80000000 |>.wr (Reg.SW_CBSLIM 2 2) 0xFFFFFFFF |>.setPort 2 {tx := some txc})
end Net

namespace Clock
def tb (f : StrandSt → StrandSt) : State := with0 fun x => f ((x.wr Reg.TIME_STATUS 0x24).wr Reg.STEP_NS 5)
def trk (t : Tracker) (f : StrandSt → StrandSt := id) : State := with0 fun x => f {x with bng := {trk := ⟨[(1,{t with theta := 77}),(2,t)]⟩, ent := ⟨[(3,{state := .pending}),(4,{state := .committed}),(6,{})]⟩}, time := {sec := 5, sub := 400}} |>.wr (Reg.EVT_W3 4) 0xC0000000
def tt : Tracker := {state := .warmup, obsNs := 5, obsS := 6}
def evs (e : EvtEnt) (w2 : Word) (f : StrandSt → StrandSt := id) : State := with0 fun x => f ({x with bng := {trk := ⟨[(2,{state := .valid, omega := 100000*4294967296/1000, theta := 5})]⟩, ent := ⟨[(3,{state := .pending}),(4,e),(6,{})]⟩, held := ⟨[(16,55),(18,0x60000401)]⟩}, time := {sec := 5, sub := 400}} |>.wr (Reg.EVT_W3 4) 0xC0000000 |>.wr Reg.TIME_STATUS 0x20 |>.wr (Reg.EVT_W2 4) w2 |>.wr Reg.BNG_PINMASK 0xFF)
def pe : EvtEnt := {state := .pending, next := some (88,0), sign := some 1}
def wt : List (Nat × Nat × Nat) := [(0, 6, 0x23),(1,2,3)]
def tfl (st : TrkState) (f : StrandSt → StrandSt := id) : State := trk {tt with state := st, omega := 500000, tref := secUnit, fifo := [⟨0,5,3,0⟩,⟨1,2,3,0⟩]} fun x => f {(x.wr (Reg.TRK_MAXAGE 2) 0xFFFFFF).wr (Reg.TRK_CFG 2) 0x83000500 |>.wr (Reg.TRK_STEP_AU 2) 0xF0000001 with time := {sec := 5, sub := 400}}
end Clock

namespace Ring
def hd (ty src row win seq : Nat) (n : Nat := 40) : List Byte := List.replicate 12 0 ++ beBytes 2 0x88B6 ++ [BitVec.ofNat 8 (16+ty), 0, BitVec.ofNat 8 src, BitVec.ofNat 8 row, BitVec.ofNat 8 win, 0] ++ beBytes 2 seq ++ beBytes 2 0 ++ List.replicate n 0
def fl (ctl : Word) (stat : Nat) (f : StrandSt → StrandSt := id) : State := with0 fun x => f (([0,1,2,3].foldl (fun (x : StrandSt) p => ((x.wr (Reg.MAC_CTL p) 0x1B).wr (Reg.MAC_STATUS p) 0x201)) x).wr Reg.FLG_CTL ctl |>.wr Reg.FLG_STATUS (BitVec.ofNat 32 stat) |>.wr Reg.FLG_MATRIX 0x0000F424 |>.wr (Reg.TX_RING_CFG 3) 0x40000000 |> fun x => {x with flg := {x.flg with ctOfs := 900, slew := 777777, seen := [(4,5)], taken := [(1,2)]}, time := {sec := 5, sub := 400}})
def win (k : Nat) (start len kind owner extra : Nat) (x : StrandSt) : StrandSt := ((x.wr (Reg.WIN_W0 k) (BitVec.ofNat 32 start)).wr (Reg.WIN_W1 k) (BitVec.ofNat 32 len)).wr (Reg.WIN_W2 k) (BitVec.ofNat 32 (kind * 2^30 + owner * 2^24 + extra)) |>.wr (Reg.WIN_W3 k) 0x80000000
def M := 0x40040000 + 2*0x4000+2*0x1000  -- master pos0 port 2
def N5 := 0x40540000 + 2*0x4000+2*0x1000
def stg (x : StrandSt) : StrandSt := {x with flg := {x.flg with staged := ⟨[(3, some ([1,2,3],6,true,0))]⟩}}
def B := 0x80060000
def flq (g : Filigree → Filigree) (f : StrandSt → StrandSt := id) := fl B 3 fun x => f {x with flg := g x.flg}
def hh : BzFrame := { win := 7, start := 0, stop := 900, cycle := 5000001000*65536, frame := ⟨hd 0 4 0 7 5, {}⟩ }
def gg : PtCur := { src := 2, bytes := hd 0 4 0 7 5, code := 2, start := 0, out := 0, flg := 1, launched := true }
def h2 : BzFrame := {hh with cycle := 4999000000*65536}
def h3 : BzFrame := {hh with cycle := 4999940000*65536, stop := 3}
end Ring

namespace Image
def mp (ctl : Nat) (f : Mapper → Mapper := id) (g : StrandSt → StrandSt := id) : State := with0 fun x => g ({x.wr Reg.MAP_CTL (BitVec.ofNat 32 ctl) with map := f x.map} |>.wr Reg.TIME_STATUS 0x20 |>.wr Reg.MAP_IMG 0x050302)
def wrm (l : List (Nat × Nat)) (x : StrandSt) : StrandSt := l.foldl (fun x p => x.memPut p.1 p.2) x
def ctx (l : List (Nat × Nat)) (f : StrandSt → StrandSt := id) := with0 fun x => f (wrm l ({x with machines := ⟨[(3, some 0x40000)]⟩}.wr Reg.MAP_CTX 0x00020001))
def pk : Pkg := { id := 9, ver := 0, role := 3, engines := 0, banks := 0, contexts := 0, load := 0, dupDiscard := 4, ringDrop := 5 }
def pst (a : Nat) (own : Nat := 1) := ctx [(0x20200, 0x80030200),(0x60000, a), (0x60010,1)] fun x => {x.wr (Reg.BANK_OWNER 3) (BitVec.ofNat 32 own) with pkgs := [pk]}
end Image

namespace Rings
def P (k : Nat) : Nat := 0x41000 + 0x40*k
def rg (k : Nat) (cfg ctl tail head stt : Nat) (x : StrandSt) : StrandSt := ((((x.wr (P k) 0x10000).wr (P k+8) (BitVec.ofNat 32 cfg)).wr (P k+0xC) (BitVec.ofNat 32 ctl)).wr (P k+0x10) (BitVec.ofNat 32 tail)).wr (P k+0x14) (BitVec.ofNat 32 head) |>.wr (P k+0x18) (BitVec.ofNat 32 stt)
def ex (f : StrandSt → StrandSt) : State := with0 fun x => f {x with dma := {x.dma with redSeq := ⟨[(3,4)]⟩}}
def it0 : Item := {qseq := 5, idx := 1, n := 1, descs := [[0,0,64,0xE0000000,5,0,0,0]], len := 64}
def setR (k : Nat) (g : Ring) (x : StrandSt) : StrandSt := x.setRing k g
def ds (own : Bool) (q : Nat) : List Word := [0x1000,0,64,if own then 0xE0000000 else 0x60000000,BitVec.ofNat 32 q,0,0,0]
def rd0 (w : ReadWhat) : HostRead := {tag := 9, link := false, addr := 0x1000, len := 64, what := w}
def led (k : Nat) (e : LedEnt) (x : StrandSt) : StrandSt := x.setLed k e
def reads (l : List HostRead) (x : StrandSt) : StrandSt := {x with dma := {x.dma with reads := l}}
def ff (q : Nat) := ex fun x => led 2 {valid := true, acc := 4, sta := 4, cmp := 4} (setR 2 {next := 1, fetched := ⟨[(1, ds true q)]⟩} (rg 2 0x40000004 1 3 1 1 x))
def itr : Item := {it0 with step := .reading, missing := 1}
def itc : Item := {it0 with step := .reading, missing := 0, got := ⟨[(0, List.replicate 6 0xFF ++ List.replicate 60 1)]⟩}
def iteX : Item := {itc with ended := true, step := .committed}
def rx (g : Ring) (stt : Nat) (f : StrandSt → StrandSt := id) := ex fun x => f (led 18 {valid := true, acc := 4, sta := 4, cmp := 4} (setR 18 g (rg 18 0x4 1 3 1 stt x)))
def fr : Frame := ⟨List.replicate 100 7, {}⟩
def dsr : List Word := [0x1000,0,1024,0x80000000,0,0,0,0]
def cur : RxCur := {frame := fr, queue := 0, used := [(1,dsr,100)], done := 100}
def rec0 : CqRec := {key := 2, cq := 3, words := [5,6,7,0], tag := some 9}
def cq (c size ctl head tail : Nat) (loc : Bool) (x : StrandSt) : StrandSt := ((((x.wr (cqPage c) (if loc then 0x20000 else 0x80000)).wr (cqPage c + 8) (BitVec.ofNat 32 (size + if loc then 0x20000 else 0))).wr (cqPage c+0xC) (BitVec.ofNat 32 ctl)).wr (cqPage c+0x10) (BitVec.ofNat 32 head)).wr (cqPage c+0x14) (BitVec.ofNat 32 tail)
def rec1 (f : StrandSt → StrandSt) := ex fun x => f (reads [rd0 .back] {x with dma := {x.dma with recs := [rec0]}})
def own1 (x : StrandSt) : StrandSt := x.wr (Reg.BANK_OWNER 1) 1
def cm (e : LedEnt) (q n : Nat) := ex fun x => (led 34 e (((x.wr Reg.CMD_CQ 0x20030).wr Reg.CMDACC_QSEQ (BitVec.ofNat 32 q)).wr Reg.CMDACC_NOTICE_LO 77)).setNotices 1 (List.replicate n (1,2))
def itd : Item := {itc with descs := [[0,0,64,BitVec.ofNat 32 (0xE0000000 + 2*2^13),5,0,0,0]]}
end Rings

namespace HostW
def dv (f : Dev → Dev) : State := { dev := f dev }
def cfgG (g : Nat) (c : Word) (m : MGroup) (d : Dev) : Dev := (d.dwr (mgPage g) c).setMg g m
def wbq (b : Bool) (rest : List HostReq) (i : StrandId) (r : HostReq) (d : Dev) : Dev := {d with clasp := {d.clasp with q := d.clasp.q.set i (r :: rest)}}
def TXG : Word := BitVec.ofNat 32 (2^31 + 3*2^27 + 2*2^16 + 0x3300 + 4)
def recq : HostReq := .record false 2 3 0x5000 [6, 7, 8, 9]
def wb0 : HostReq := .wb false 3 1 6 0x4000 [1,2,3]
def rb (d : Dev) : Dev := d.setStrand 0 ((d.strand 0).wr 0x410C0 0x4000)
def pr : PcqRec := {words := [], back := 3, ready := false}
def d5 (f : Dev → Dev) : State := dv fun d => f {d with mode := 5, base := 5}
def noL (d : Dev) : Dev := (d.setLink false {d.link false with d3 := true}).setLink true {d.link true with d3 := true}
def ld (i : StrandId) (k : Nat) (e : LedEnt) (d : Dev) : Dev := d.setStrand i ((d.strand i).setLed k e)
def RXG : Word := BitVec.ofNat 32 (3*2^30 + 1*2^27 + 2*2^16 + 0x3300 + 4)
def ring3 (x : StrandSt) : StrandSt := ((x.wr 0x410c8 4).wr 0x410cc 1).wr 0x410d8 1
def hb (d : Dev) : Dev := (d.setStrand 1 {((d.strand 1).wr (Reg.BANK_OWNER 1) 2) with banks := {(d.strand 1).banks with mem := [(0x20009, 7)]}}).dwr (Reg.CLASP_BAR2_EN_LO 1) 2
def r1 (f : Recovery → Recovery) : State := dv fun d => let d := {d with mode := 1}; d.setRec (f d.clasp.rec_)
end HostW

namespace CoreA
def kc (f : DCore → DCore) (g : StrandSt → StrandSt := id) : State := with0 fun x => g {x with core := f {x.core with state := .running, pc := 0x100, vbase := 0x1000, ie := true, tflags := 0x80000005}}
def W (l : List (Nat × Word)) (k : DCore) : DCore := {k with w := ⟨l⟩}
def kl (f : DCore → DCore) : State := { dev := {dev with loupe := {dev.loupe with core := f {pc := 0x200, state := .running}, sram := [(8,7),(9,3),(10,0x91)]}}}
def mb (x : StrandSt) : StrandSt := {(x.wr (Reg.BANK_OWNER 1) 1) with banks := {x.banks with mem := [(0x20009, 7),(0x2000A,0x91),(0x2000B,0xF1)]}}
def wq (l : List WbEnt) (f : DCore → DCore := id) := kc (fun k => f {W [(1,0x20008)] k with wbuf := l}) mb
end CoreA

namespace CoreE
def kc (f : DCore → DCore) (g : StrandSt → StrandSt := id) : State := with0 fun x => g {x with core := f {x.core with state := .running, pc := 0x100, vbase := 0x1000, ie := true, tflags := 0x80000005, tpc := 0x444}}
def W (l : List (Nat × Word)) (k : DCore) : DCore := {k with w := ⟨l⟩}
def o0 : DOp := .alu 0 false 3 1 (.imm 7)
def irq (x : StrandSt) : StrandSt := ((x.wr (Reg.SW_FLAGS) 8).wr Reg.SW_CTL 1).wr Reg.CORE_IRQ_EN 0xFFFFFFFF
def dt (x : StrandSt) : StrandSt := ((x.wr Reg.CORE_CTL 0x80000000).wr (dtHdr 2) 0x80003000).wr (dtUop 2 0) (BitVec.ofNat 32 (o0.encode 14)) |>.wr (dtUctl 2 0) 1
end CoreE

namespace BankA
def dv (f : Dev → Dev) : State := { dev := f dev }
def st1 (f : StrandSt → StrandSt) : State := dv fun d => d.setStrand 1 (f (d.strand 1))
end BankA

namespace BankB
def dv (f : Dev → Dev) : State := { dev := f dev }
def st1 (f : StrandSt → StrandSt) : State := dv fun d => d.setStrand 1 (f (d.strand 1))
def hv (f : Hallmark → Hallmark) (m : Nat := 5): State := dv fun d => {d with mode := m, hm := f d.hm}
def stL (ns : Nat) (own : Word) (pt : Nat × Nat) : State := dv fun d => {d.setStrand 1 (let x := d.strand 1; {x.wr (Reg.BANK_OWNER 7) own with banks := {x.banks with leaving := [7], relAt := ⟨[(7,3)]⟩, pendTo := ⟨[(7,pt)]⟩}}) with ns := ns}
end BankB

namespace Lkt
def dv (f : Dev → Dev) : State := { dev := f dev }
def ch (bind : Nat) (f : Chan → Chan) (c : Nat := 9) : State := dv fun d => d.setChan c (f {bind := BitVec.ofNat 32 (2^31+bind)})
def n1 : Notice := ⟨0x123456789A, 7, 2, false, false, true⟩
def n2 : Notice := ⟨0x5, 7, 2, false, false, false⟩
end Lkt

namespace Lpe
def dv (f : Dev → Dev) : State := { dev := f dev }
def lpS (f : Loupe → Loupe) (g : Dev → Dev := id) : State := dv fun d => g {d with loupe := f d.loupe}
def T : List Int := [1,2,-5,4,5,6,7,8,9,10,11,1700]
def C (v : Word) (l : Loupe) : Loupe := {l with regs := l.regs.set (loupeReset Reg.LP_CFG) Reg.LP_CFG v}
def flS (a b : Flash) (f : Loupe → Loupe) (g : Dev → Dev := id) : State := lpS f fun d => g {d with flashes := ⟨a,b⟩}
def r0 : LogRec := ⟨0,1,2,3,false,false,0x1234,[]⟩
end Lpe

namespace NguA
def dv (f : Dev → Dev) : State := { dev := f dev }
def H0 : NguHdr := {path := 0, txn := 77, gap := 5}
def H2 : NguHdr := {path := 2, txn := 77, gap := 5, signed := true, key := 0xFF, nonce := 9, good := true}
def bz (f : Dev → Dev := id) : State := dv fun d => f (d.setLink false {d.link false with busy := true, reqLen := 40})
def sv (f : Dev → Dev := id) : State := dv fun d => f (({d with loupe := {d.loupe with nonce := some 9}} : Dev).lwr Reg.LP_CFG 0x100000)
def H3 : NguHdr := {path := 17, txn := 77, gap := 5}
def n3 : Notice := {ptr := 0x60010, tag := 0, epoch := 0, waited := false}
def ex (r : Option (List Byte)) (b : Bool) (own : Nat) (f : Dev → Dev := id) : State := dv fun d =>
  f (((d.setChan 9 {bind := 0x80000050, senior := {rx := [n3]}}).updSup 1 fun x => {x with phase := .run}).setStrand 1
    (let x := d.strand 1; { x.wr (Reg.BANK_OWNER 3) (BitVec.ofNat 32 own) with banks := {x.banks with exch := some ⟨9, 3, 0x60010, r, b⟩}}))
end NguA

namespace NguB
def dv (f : Dev → Dev) : State := { dev := f dev }
def H0 : NguHdr := {path := 0, txn := 77, gap := 5}
def H2 : NguHdr := {path := 2, txn := 77, gap := 5, signed := true, key := 0xFF, nonce := 9, good := true}
def bz (f : Dev → Dev := id) : State := dv fun d => f (d.setLink false {d.link false with busy := true, reqLen := 40})
def sv (f : Dev → Dev := id) : State := dv fun d => f (({d with loupe := {d.loupe with nonce := some 9}} : Dev).lwr Reg.LP_CFG 0x100000)
def ph (i : StrandId) (p : Phase) (d : Dev) : Dev := d.updSup i fun x => {x with phase := p}
def H3 : NguHdr := {path := 17, txn := 77, gap := 5, signed := true, key := 0xFF, nonce := 9, good := true}
def n3 : Notice := {ptr := 0x60010, tag := 0, epoch := 0, waited := false}
def ex (f : Dev → Dev := id) : State := dv fun d =>
  f ({((d.setChan 9 {bind := 0x80000050, senior := {rx := [n3]}}).updSup 1 fun x => {x with phase := .run}).setStrand 1
    (let x := d.strand 1; { x.wr (Reg.BANK_OWNER 3) (BitVec.ofNat 32 1) with banks := {x.banks with exch := some ⟨9, 3, 0x60010, none, false⟩}}) with loupe := {d.loupe with nonce := some 9}})
end NguB

namespace Upd
def dv (f : Dev → Dev) : State := { dev := f dev }
def H0 : NguHdr := {path := 0, txn := 77, gap := 5}
def H2 : NguHdr := {path := 2, txn := 77, gap := 5, signed := true, key := 0xFF, nonce := 9, good := true}
def bz (f : Dev → Dev := id) : State := dv fun d => f {(d.setLink false {d.link false with busy := true, reqLen := 60}) with flashes := ⟨{present := true, boot := some {}}, {}⟩}
def sv (f : Dev → Dev := id) : State := dv fun d => f (({d with loupe := {d.loupe with nonce := some 9}} : Dev).lwr Reg.LP_CFG 0x100000)
def st : StartIn := {slot0 := true, slot1 := true, cfg := {base := 5, strands := 15}}
def ses (f : Session → Session) (d : Dev) : Dev := {d with upd := {d.upd with session := f d.upd.session}}
def bt (f : BootRec → BootRec) (d : Dev) : Dev := {d with upd := {d.upd with boot := f d.upd.boot}}
def B52 : List Byte := (List.replicate 48 7) ++ [3,0,0,0]
def fw : Tab (List Byte) := (({} : Tab (List Byte)).set [] 0 (List.replicate 512 0 ++ [1,0,0,0] ++ List.replicate 12 0 ++ [1] ++ List.replicate 63 0)).set [] 65536 (List.replicate 512 0 ++ [1,0,0,0] ++ List.replicate 12 0 ++ [1] ++ List.replicate 63 0)
def fl (d : Dev) : Dev := {d with flashes := ⟨{present := true, boot := some {}, blocks := fw}, {}⟩}
end Upd

namespace Rly
def dv (f : Dev → Dev) : State := { dev := f dev }
def ses (f : Session → Session) (d : Dev) : Dev := {d with upd := {d.upd with session := f d.upd.session}}
def D (f : Dev → Dev := id) : State := dv fun d => f (({d with flashes := ⟨{present := true, boot := some {}}, {present := true}⟩} : Dev).uwr Reg.UPD_PATHS 0x28202428 |>.uwr Reg.UPD_CFG 0x80000000)
def dat : List Byte := List.replicate 1024 5
def ii : ImgInfo := {kind := 1, length := 1536, ver := 9}
def hdr : List Byte := [0x4B,0x52,0x54,0x59,1,0,1,0,0x16,4,0,0, 1,0,0,0, 0,0,0,0, 3,0, 0,0] ++ [0,2,0,0] ++ List.replicate (512-28) 0 ++ List.replicate 512 6
def it1 : RelayItem := ⟨7,3,some 2,[1,2]⟩
def S60 : Nat := 60000000000
def S10 : Nat := 10000000000
end Rly

/-! ## Each statement's hypotheses are met -/

theorem wit_BeadStart :
    (∃ (s : State) (dt : Nat) (m : Master) (i : StrandId) (n : Fin 16), Reaches (later s dt) m i ∧ NoStarts (later s dt) i ∧ ((view (later s dt) i).eng ↑n).state = EngState.stopped ∧ ((view (later s dt) i).eng ↑n).unavail = false ∧ (view (later s dt) i).claimConflict ↑n = false) ∧
    (∃ (s : State) (dt : Nat) (m : Master) (i : StrandId) (n : Fin 16), Reaches (later s dt) m i ∧ NoStarts (later s dt) i ∧ (((view (later s dt) i).eng ↑n).state ≠ EngState.stopped ∨ ((view (later s dt) i).eng ↑n).unavail = true)) ∧
    (∃ (s : State) (dt : Nat) (m : Master) (i : StrandId) (n : Fin 16), Reaches (later s dt) m i ∧ NoStarts (later s dt) i ∧ ((view (later s dt) i).eng ↑n).state = EngState.stopped ∧ ((view (later s dt) i).eng ↑n).unavail = false ∧ (view (later s dt) i).claimConflict ↑n = true) :=
  ⟨⟨(Bead.sB id), 0, (.core 0), 0, 3, by decide +kernel⟩,
    ⟨(Bead.sB Bead.run), 0, .loupe, 0, 3, by decide +kernel⟩,
    ⟨(Bead.sB id fun x => (x.wr (Reg.BEAD_PINCFG 4) 0x04212C44).claim 4), 0, .loupe, 0, 3, by decide +kernel⟩⟩

theorem wit_BeadStopAndEvents :
    (∃ (s : State) (m : Master) (i : StrandId) (n : Fin 16) (dt : Nat), Reaches (later s dt) m i ∧ NoStarts (later s dt) i ∧ Active (later s dt) i ∧ (((later s dt).strand i).eng ↑n).stopPend = true ∧ (((later s dt).strand i).eng ↑n).sync = SyncState.idle) :=
  ⟨(Bead.sB fun e => {Bead.run e with stopPend := true}), (.core 0), 0, 3, 0, by decide +kernel⟩

theorem wit_BeadStoppedCommands :
    (∃ (s : State) (dt : Nat) (m : Master) (i : StrandId) (n : Fin 16), Reaches (later s dt) m i ∧ NoStarts (later s dt) i ∧ (((later s dt).strand i).eng ↑n).state ≠ EngState.stopped) ∧
    (∃ (s : State) (dt : Nat) (m : Master) (i : StrandId) (n : Fin 16), Reaches (later s dt) m i ∧ NoStarts (later s dt) i ∧ (((later s dt).strand i).eng ↑n).state = EngState.stopped) :=
  ⟨⟨(Bead.sB Bead.run), 0, (.core 0), 0, 3, by decide +kernel⟩,
    ⟨(Bead.sB id fun x => x.claim 3), 0, (.core 0), 0, 3, by decide +kernel⟩⟩

theorem wit_BeadQueueAccess :
    (∃ (s : State) (dt : Nat) (m : Master) (i : StrandId) (n : Fin 16) (q : QEnt) (rest : List QEnt), Reaches (later s dt) m i ∧ ((later s dt).strand i).txDepth ↑n ≠ 0 ∧ ((later s dt).strand i).vBound ↑n = false ∧ (((later s dt).strand i).eng ↑n).txq.length < ((later s dt).strand i).txDepth ↑n ∧ ((later s dt).strand i).rxDepth ↑n ≠ 0 ∧ ((later s dt).strand i).trkBound ↑n = false ∧ (((later s dt).strand i).eng ↑n).rxq = q :: rest ∧ q.ready ≤ ((later s dt).strand i).now) ∧
    (∃ (s : State) (dt : Nat) (m : Master) (i : StrandId) (n : Fin 16) (q : QEnt) (rest : List QEnt), Reaches (later s dt) m i ∧ ((later s dt).strand i).txDepth ↑n ≠ 0 ∧ ((later s dt).strand i).vBound ↑n = false ∧ ((later s dt).strand i).txDepth ↑n ≤ (((later s dt).strand i).eng ↑n).txq.length ∧ ((later s dt).strand i).rxDepth ↑n ≠ 0 ∧ ((later s dt).strand i).trkBound ↑n = false ∧ ((((later s dt).strand i).eng ↑n).rxq = [] ∨ (((later s dt).strand i).eng ↑n).rxq = q :: rest ∧ ((later s dt).strand i).now < q.ready)) :=
  ⟨⟨(Bead.sB fun e => {Bead.run e with rxq := Bead.ents}), 0, (.core 0), 0, 3, ⟨77,0,0⟩, (Bead.ents.drop 1), by decide +kernel⟩,
    ⟨(Bead.sB fun e => {Bead.run e with txq := Bead.ents}), 0, (.host false), 0, 3, ⟨77,0,0⟩, (Bead.ents.drop 1), by decide +kernel⟩⟩

theorem wit_BeadConfiguration :
    (∃ (s : State) (dt : Nat) (m : Master) (i : StrandId) (n : Fin 16) (v : Word), Reaches (later s dt) m i ∧ ((later s dt).strand i).chainOdd ↑n = false ∧ fieldOf v 1 0 ≠ 3 ∧ bitOf v 16 = false ∧ ((later s dt).strand i).chained ↑n = false ∧ (((later s dt).strand i).eng ↑n).state = EngState.stopped) ∧
    (∃ (s : State) (dt : Nat) (m : Master) (i : StrandId) (n : Fin 16), Reaches (later s dt) m i ∧ ((later s dt).strand i).chainOdd ↑n = false ∧ (((later s dt).strand i).eng ↑n).state ≠ EngState.stopped) :=
  ⟨⟨(Bead.sB id), 0, (.core 0), 0, 3, 0x3F02, by decide +kernel⟩,
    ⟨(Bead.sB Bead.run), 0, (.core 0), 0, 3, by decide +kernel⟩⟩

theorem wit_BeadFlow :
    (∃ (s : State) (a : BeadAt), AtClock (s.dev.beforeBead a) a ∧ ↑a.par = 1 ∧ (AtClock (((s.dev.beforeBead a).onActive a.st fun p => p.fetchRetry ↑a.n).pass 1) a)) ∧
    (∃ (s : State) (a : BeadAt) (c : Fin 32), AtClock (s.dev.beforeBead a) a ∧ ↑a.par = 0 ∧ ↑c ≠ 15 ∧ ↑c ≤ 23) ∧
    (∃ (s : State) (a : BeadAt) (c : Fin 32), AtClock (s.dev.beforeBead a) a ∧ ↑a.par = 0 ∧ (↑c = 15 ∨ 24 ≤ ↑c)) ∧
    (∃ (s : State) (a : BeadAt), Active (s.dev.beforeBead a) a.st ∧ (clocked (view (s.dev.beforeBead a) a.st) ↑a.n).state ≠ EngState.stopped ∧ (↑a.par = 2 ∨ (clocked (view (s.dev.beforeBead a) a.st) ↑a.n).bad.get false (clocked (view (s.dev.beforeBead a) a.st) ↑a.n).pc = true)) :=
  ⟨⟨(Bead.sB Bead.run), { Bead.a0 with par := 1 }, by decide +kernel⟩,
    ⟨(Bead.sB Bead.run), Bead.a0, 11, by decide +kernel⟩,
    ⟨(Bead.sB Bead.run), Bead.a0, 15, by decide +kernel⟩,
    ⟨(Bead.sB Bead.run fun x => x.claim 3), { Bead.a0 with par := 2 }, by decide +kernel⟩⟩

theorem wit_BeadShift :
    (∃ (s : State) (a : BeadAt) (k : Fin 64), AtClock (s.dev.beforeBead a) a ∧ ↑a.par = 0 ∧ 1 ≤ ↑k ∧ ↑k ≤ 32) ∧
    (∃ (s : State) (a : BeadAt) (k : Fin 64), AtClock (s.dev.beforeBead a) a ∧ ↑a.par = 0 ∧ (↑k = 0 ∨ 33 ≤ ↑k)) :=
  ⟨⟨(Bead.sB Bead.run), Bead.a0, 9, by decide +kernel⟩,
    ⟨(Bead.sB Bead.run), Bead.a0, 0, by decide +kernel⟩⟩

theorem wit_BeadQueueInstructions :
    (∃ (s : State) (a : BeadAt) (f : Fin 4), AtClock (s.dev.beforeBead a) a ∧ ↑a.par = 0 ∧ ↑f = 3) ∧
    (∃ (s : State) (a : BeadAt) (f : Fin 4) (q : QEnt) (rest : List QEnt), AtClock (s.dev.beforeBead a) a ∧ ↑a.par = 0 ∧ ↑f ≠ 3 ∧ (view (s.dev.beforeBead a) a.st).txDepth ↑a.n ≠ 0 ∧ (clocked (view (s.dev.beforeBead a) a.st) ↑a.n).txq = q :: rest ∧ q.ready ≤ (view (s.dev.beforeBead a) a.st).now ∧ (view (s.dev.beforeBead a) a.st).rxDepth ↑a.n ≠ 0 ∧ (clocked (view (s.dev.beforeBead a) a.st) ↑a.n).rxq.length < (view (s.dev.beforeBead a) a.st).rxDepth ↑a.n) ∧
    (∃ (s : State) (a : BeadAt) (f : Fin 4), AtClock (s.dev.beforeBead a) a ∧ ↑a.par = 0 ∧ ↑f ≠ 3 ∧ (view (s.dev.beforeBead a) a.st).txDepth ↑a.n ≠ 0 ∧ (clocked (view (s.dev.beforeBead a) a.st) ↑a.n).txq = [] ∧ (clocked (view (s.dev.beforeBead a) a.st) ↑a.n).state = EngState.running ∧ (view (s.dev.beforeBead a) a.st).rxDepth ↑a.n ≠ 0 ∧ (view (s.dev.beforeBead a) a.st).rxDepth ↑a.n ≤ (clocked (view (s.dev.beforeBead a) a.st) ↑a.n).rxq.length) ∧
    (∃ (s : State) (a : BeadAt) (f : Fin 4), AtClock (s.dev.beforeBead a) a ∧ ↑a.par = 0 ∧ ↑f ≠ 3 ∧ (view (s.dev.beforeBead a) a.st).rxDepth ↑a.n = 0) ∧
    (∃ (s : State) (a : BeadAt) (f : Fin 4), AtClock (s.dev.beforeBead a) a ∧ ↑a.par = 0 ∧ ↑f ≠ 3 ∧ (view (s.dev.beforeBead a) a.st).txDepth ↑a.n = 0) :=
  ⟨⟨(Bead.sB Bead.run), Bead.a0, 3, by decide +kernel⟩,
    ⟨(Bead.sB fun e => {Bead.run e with txq := Bead.ents}), Bead.a0, 1, ⟨77,0,0⟩, (Bead.ents.drop 1), by decide +kernel⟩,
    ⟨(Bead.sB fun e => {Bead.run e with rxq := Bead.ents}), Bead.a0, 2, by decide +kernel⟩,
    ⟨(Bead.sB Bead.run fun x => x.wr (Reg.BEAD_QCFG 3) 1), Bead.a0, 2, by decide +kernel⟩,
    ⟨(Bead.sB Bead.run fun x => x.wr (Reg.BEAD_QCFG 3) 2), Bead.a0, 2, by decide +kernel⟩⟩

theorem wit_BeadSetAndMoves :
    (∃ (s : State) (a : BeadAt) (imm : BitVec 10) (src : Fin 16) (dst : Fin 16), AtClock (s.dev.beforeBead a) a ∧ ↑a.par = 0 ∧ imm.toNat ≤ 32 ∧ ↑src ≤ 7 ∧ (8 ≤ ↑src ∨ 7 ≤ ↑dst)) ∧
    (∃ (s : State) (a : BeadAt) (imm : BitVec 10), AtClock (s.dev.beforeBead a) a ∧ ↑a.par = 0 ∧ 33 ≤ imm.toNat) :=
  ⟨⟨(Bead.sB Bead.run), Bead.a0, 31, 0, 9, by decide +kernel⟩,
    ⟨(Bead.sB Bead.run), Bead.a0, 0x3ff, by decide +kernel⟩⟩

theorem wit_BeadCompareAndCrc :
    (∃ (s : State) (a : BeadAt) (imm : BitVec 11), AtClock (s.dev.beforeBead a) a ∧ ↑a.par = 0 ∧ (view (s.dev.beforeBead a) a.st).thisCyc.cmpM.contains ↑a.n = false ∧ imm.toNat % 8 ≠ 7 ∧ (view (s.dev.beforeBead a) a.st).thisCyc.srcM.contains ↑a.n = false) ∧
    (∃ (s : State) (a : BeadAt) (imm : BitVec 11), AtClock (s.dev.beforeBead a) a ∧ ↑a.par = 0 ∧ imm.toNat % 8 = 7) :=
  ⟨⟨(Bead.sB Bead.run), Bead.a0, 0x700, by decide +kernel⟩,
    ⟨(Bead.sB Bead.run fun x => x.wr (Reg.BEAD_CRCCFG 3) 4), Bead.a0, 0x707, by decide +kernel⟩⟩

theorem wit_BeadWaits :
    (∃ (s : State) (a : BeadAt) (pol : Bool) (k : Fin 32) (e : Fin 4), AtClock (s.dev.beforeBead a) a ∧ ↑a.par = 0 ∧ ↑k = 1 ∧ (view (s.dev.beforeBead a) a.st).rxThr ↑a.n ≠ pol ∧ waitPin (↑a.n) (↑k) (view (s.dev.beforeBead a) a.st) ≠ pol ∧ (view (s.dev.beforeBead a) a.st).cmpEq ↑a.n ≠ pol ∧ (view (s.dev.beforeBead a) a.st).cmpReached ↑a.n ≠ pol ∧ (view (s.dev.beforeBead a) a.st).bit (Reg.BEAD_FLAGS ↑a.n) 10 ≠ pol ∧ (view (s.dev.beforeBead a) a.st).evt (↑a.n) (↑k % 4) = false ∧ (clocked (view (s.dev.beforeBead a) a.st) ↑a.n).sync ≠ SyncState.hit ∧ (view (s.dev.beforeBead a) a.st).evt ↑a.n ↑e = false ∧ (view (s.dev.beforeBead a) a.st).bit (Reg.BEAD_EVT ↑a.n) ↑e = false) ∧
    (∃ (s : State) (a : BeadAt) (pol : Bool) (k : Fin 32), AtClock (s.dev.beforeBead a) a ∧ ↑a.par = 0 ∧ ↑k = 1 ∧ (view (s.dev.beforeBead a) a.st).rxThr ↑a.n = pol ∧ waitPin (↑a.n) (↑k) (view (s.dev.beforeBead a) a.st) = pol ∧ (view (s.dev.beforeBead a) a.st).cmpEq ↑a.n = pol ∧ (view (s.dev.beforeBead a) a.st).cmpReached ↑a.n = pol ∧ (view (s.dev.beforeBead a) a.st).bit (Reg.BEAD_FLAGS ↑a.n) 10 = pol) ∧
    (∃ (s : State) (a : BeadAt) (k : Fin 32) (e : Fin 4), AtClock (s.dev.beforeBead a) a ∧ ↑a.par = 0 ∧ (view (s.dev.beforeBead a) a.st).evt (↑a.n) (↑k % 4) = true ∧ (clocked (view (s.dev.beforeBead a) a.st) ↑a.n).sync ≠ SyncState.hit ∧ ((view (s.dev.beforeBead a) a.st).evt ↑a.n ↑e = true ∨ (view (s.dev.beforeBead a) a.st).bit (Reg.BEAD_EVT ↑a.n) ↑e = true)) ∧
    (∃ (s : State) (a : BeadAt) (pol : Bool) (k : Fin 32), AtClock (s.dev.beforeBead a) a ∧ ↑a.par = 0 ∧ ↑k = 0 ∧ (view (s.dev.beforeBead a) a.st).txThr ↑a.n = pol) ∧
    (∃ (s : State) (a : BeadAt) (k : Fin 32), AtClock (s.dev.beforeBead a) a ∧ ↑a.par = 0 ∧ 2 ≤ ↑k) ∧
    (∃ (s : State) (a : BeadAt) (pol : Bool) (k : Fin 32), AtClock (s.dev.beforeBead a) a ∧ ↑a.par = 0 ∧ ↑k = 0 ∧ (view (s.dev.beforeBead a) a.st).txThr ↑a.n ≠ pol) ∧
    (∃ (s : State) (a : BeadAt), AtClock (s.dev.beforeBead a) a ∧ ↑a.par = 0 ∧ (clocked (view (s.dev.beforeBead a) a.st) ↑a.n).sync = SyncState.hit) :=
  ⟨⟨(Bead.sB Bead.run), Bead.a1, true, 1, 2, by decide +kernel⟩,
    ⟨(Bead.sB Bead.run), Bead.a1, false, 1, by decide +kernel⟩,
    ⟨(Bead.sB Bead.run fun x => x.wr (Reg.BEAD_EVT 3) 0xF), Bead.a1, 1, 2, by decide +kernel⟩,
    ⟨(Bead.sB Bead.run), Bead.a1, true, 0, by decide +kernel⟩,
    ⟨(Bead.sB Bead.run), Bead.a0, 5, by decide +kernel⟩,
    ⟨(Bead.sB fun e => {Bead.run e with txq := Bead.ents, rxq := Bead.ents}), Bead.a1, true, 0, by decide +kernel⟩,
    ⟨(Bead.sB (fun e => {Bead.run e with sync := .hit}) fun x => x.wr (Reg.BEAD_EVT 3) 0xF), Bead.a0, by decide +kernel⟩⟩

theorem wit_BeadStampAndEdit :
    (∃ (s : State) (a : BeadAt) (adj : Fin 4) (nosec : Bool) (ang : Bool) (trk : Fin 4), AtClock (s.dev.beforeBead a) a ∧ ↑a.par = 0 ∧ ↑adj ≠ 3 ∧ (view (s.dev.beforeBead a) a.st).rxDepth ↑a.n ≠ 0 ∧ (clocked (view (s.dev.beforeBead a) a.st) ↑a.n).stamp = none ∧ (clocked (view (s.dev.beforeBead a) a.st) ↑a.n).rxq.length + (stampWords (↑a.n) (↑adj) nosec ang (↑trk) (view (s.dev.beforeBead a) a.st)).length ≤ (view (s.dev.beforeBead a) a.st).rxDepth ↑a.n ∧ (view (s.dev.beforeBead a) a.st).outKind ↑a.n = false) ∧
    (∃ (s : State) (a : BeadAt), AtClock (s.dev.beforeBead a) a ∧ ↑a.par = 0 ∧ (view (s.dev.beforeBead a) a.st).outKind ↑a.n = true ∧ (bitN (clocked (view (s.dev.beforeBead a) a.st) ↑a.n).x.toNat 15 = false ∨ (view (s.dev.beforeBead a) a.st).bit (Reg.PT_STATUS ((view (s.dev.beforeBead a) a.st).outLane ↑a.n)) 4 = false)) ∧
    (∃ (s : State) (a : BeadAt) (adj : Fin 4) (nosec : Bool) (ang : Bool) (trk : Fin 4), AtClock (s.dev.beforeBead a) a ∧ ↑a.par = 0 ∧ ↑adj ≠ 3 ∧ (view (s.dev.beforeBead a) a.st).rxDepth ↑a.n ≠ 0 ∧ (clocked (view (s.dev.beforeBead a) a.st) ↑a.n).stamp = none ∧ (view (s.dev.beforeBead a) a.st).rxDepth ↑a.n < (clocked (view (s.dev.beforeBead a) a.st) ↑a.n).rxq.length + (stampWords (↑a.n) (↑adj) nosec ang (↑trk) (view (s.dev.beforeBead a) a.st)).length ∧ (clocked (view (s.dev.beforeBead a) a.st) ↑a.n).state = EngState.running) ∧
    (∃ (s : State) (a : BeadAt) (adj : Fin 4), AtClock (s.dev.beforeBead a) a ∧ ↑a.par = 0 ∧ ↑adj ≠ 3 ∧ (view (s.dev.beforeBead a) a.st).rxDepth ↑a.n = 0) ∧
    (∃ (s : State) (a : BeadAt) (adj : Fin 4), AtClock (s.dev.beforeBead a) a ∧ ↑a.par = 0 ∧ ↑adj = 3) ∧
    (∃ (s : State) (a : BeadAt), AtClock (s.dev.beforeBead a) a ∧ ↑a.par = 0 ∧ (view (s.dev.beforeBead a) a.st).outKind ↑a.n = true ∧ bitN (clocked (view (s.dev.beforeBead a) a.st) ↑a.n).x.toNat 15 = true ∧ (view (s.dev.beforeBead a) a.st).bit (Reg.PT_STATUS ((view (s.dev.beforeBead a) a.st).outLane ↑a.n)) 4 = true) :=
  ⟨⟨(Bead.sB Bead.run), Bead.a0, 1, false, true, 0, by decide +kernel⟩,
    ⟨(Bead.sB Bead.run fun x => x.wr (Reg.BEAD_PINCFG 3) 0x000A0200), Bead.a0, by decide +kernel⟩,
    ⟨(Bead.sB fun e => {Bead.run e with rxq := Bead.ents}), Bead.a0, 1, false, true, 0, by decide +kernel⟩,
    ⟨(Bead.sB Bead.run fun x => x.wr (Reg.BEAD_QCFG 3) 1), Bead.a0, 1, by decide +kernel⟩,
    ⟨(Bead.sB Bead.run fun x => x.wr (Reg.BEAD_QCFG 3) 1), Bead.a0, 3, by decide +kernel⟩,
    ⟨(Bead.sB (fun e => {Bead.run e with x := 0x8004}) fun x => (x.wr (Reg.BEAD_PINCFG 3) 0x000A0200).wr (Reg.PT_STATUS 0) 0x10), Bead.a0, by decide +kernel⟩⟩

theorem wit_RegisterWrites :
    (∃ (s : State) (dt : Nat) (m : Master) (i : StrandId) (n : Fin 16) (p : Fin 24) (a : Nat) (b : Nat), Reaches (later s dt) m i ∧ (Place.strand i (Reg.BEAD_CMP_MASK ↑n)).addr m = some a ∧ (Place.strand i (Reg.BP_PAD ↑p)).addr m = some b ∧ ((later s dt).supOf i).lock = true) :=
  ⟨s0, 0, (.core 0), 0, 3, 4, (Reg.BEAD_CMP_MASK 3), (Reg.BP_PAD 4), by decide +kernel⟩

theorem wit_Snapshots :
    (∃ (s : State) (dt : Nat) (m : Master) (i : StrandId) (u : StrandUnit) (c : Fin 64) (b : Bool) (j : Bool), Reaches (later s dt) m i ∧ (u = StrandUnit.ledger → ∀ (b : Bool), m ≠ Master.host b) ∧ AtClasp (later s dt) m b ∧ AtChannel (later s dt) m (↑c) j ∧ (later s dt).loupeRuns = true) :=
  ⟨Modes.sCl, 0, .loupe, 0, (.dma), 3, false, false, by decide +kernel⟩

theorem wit_PowerOn :
    (∃ (s : State) (dt : Nat), (later s dt).por = true ∧ (∀ (i : StrandId), (later s dt).phase i = Phase.off)) :=
  ⟨(Modes.porS id), 0, by decide +kernel⟩

theorem wit_StrandResets :
    (∃ (s : State) (dt : Nat) (i : StrandId) (relock : Bool), (later s dt).phase i ≠ Phase.off ∧ (later s dt).phase i ≠ Phase.fenced ∧ ((later s dt).supOf i).fenceIn = false ∧ (if relock = true then Active (later s dt) i ∧ ((later s dt).supOf i).pllLock = false else ((later s dt).supOf i).fenceIn = false) ∧ (later s dt).por = false ∧ ↑i ∉ (later s dt).thisCyc.fenced) ∧
    (∃ (s : State) (dt : Nat) (i : StrandId) (relock : Bool), ((later s dt).phase i = Phase.off ∨ (later s dt).phase i = Phase.fenced ∨ ((later s dt).supOf i).fenceIn = true) ∧ (¬((if relock = true then Active (later s dt) i ∧ ((later s dt).supOf i).pllLock = false else ((later s dt).supOf i).fenceIn = false) ∧ (later s dt).por = false ∧ ↑i ∉ (later s dt).thisCyc.fenced))) :=
  ⟨⟨Modes.sCl, 5, 0, false, by decide +kernel⟩,
    ⟨(Modes.dd (Modes.sup0 fun x => {x with fenceIn := true})), 0, 0, false, by decide +kernel⟩⟩

theorem wit_LinkAndClaspResets :
    (∃ (s : State) (dt : Nat), ((later s dt).clasp.checking = false ∨ (match (later s dt).clasp.mismatchAt with | some t => decide ((later s dt).ns < t + 50000) | none => false) = true)) ∧
    (∃ (s : State) (dt : Nat), (later s dt).clasp.checking = true ∧ ((match (later s dt).clasp.mismatchAt with | some t => decide ((later s dt).ns < t + 50000) | none => false) = false)) :=
  ⟨⟨Modes.sCl, 5, by decide +kernel⟩,
    ⟨(Modes.dd fun d => {d with clasp := {d.clasp with checking := true}}), 5, by decide +kernel⟩⟩

theorem wit_LoupeResets :
    (∃ (s : State) (dt : Nat), (later s dt).por = false ∧ (later s dt).mode ≠ 0 ∧ (later s dt).mode ≠ 2 ∧ (later s dt).mode ≠ 3) :=
  ⟨Modes.sCl, 5, by decide +kernel⟩

theorem wit_OutwardFence :
    (∃ (s : State) (dt : Nat) (i : StrandId), (later s dt).phase i ≠ Phase.fenced ∧ ((match (later s dt).thisCyc.before.get none ↑i with | some x => x.1.phase | none => (later s dt).phase i) ≠ Phase.off) ∧ ((match (later s dt).thisCyc.before.get none ↑i with | some x => x.1.phase | none => (later s dt).phase i) ≠ Phase.fenced) ∧ bitN (later s dt).cfg.policy 8 = true ∧ bitN (later s dt).cfg.policy 7 = true ∧ ((later s dt).phase i ≠ Phase.loading ∨ ((later s dt).supOf i).pllLock = true ∨ (later s dt).ns < ((later s dt).supOf i).loadAt + 10 ^ 6) ∧ Active (later s dt) i ∧ ((match (later s dt).thisCyc.before.get none ↑i with | some x => x.1.phase | none => (later s dt).phase i) = (later s dt).phase i) ∧ ((later s dt).strand i).core.wdog = some 0 ∧ ((later s dt).strand i).fld Reg.CORE_WDOG 15 0 ≠ 0 ∧ ((later s dt).strand i).core.state ≠ CoreState.reset ∧ ((later s dt).strand i).core.state ≠ CoreState.halted ∧ bitN (later s dt).cfg.policy 9 = true ∧ (∃ t ∈ ((later s dt).supOf i).wdogAt, (later s dt).ns < t + 10 ^ 10)) ∧
    (∃ (s : State) (dt : Nat) (i : StrandId), (bitN (later s dt).cfg.policy 8 = false ∨ (later s dt).phase i = Phase.fenced) ∧ (bitN (later s dt).cfg.policy 7 = false ∨ (later s dt).phase i = Phase.fenced)) ∧
    (∃ (s : State) (dt : Nat) (i : StrandId), (later s dt).phase i = Phase.loading ∧ ((later s dt).supOf i).pllLock = false ∧ ((later s dt).supOf i).loadAt + 10 ^ 6 ≤ (later s dt).ns) :=
  ⟨⟨(Modes.dd fun d => Modes.sup0 (fun x => {x with wdogAt := some 1}) (Modes.pol { d with strands := d.strands.map fun st => { st.wr Reg.CORE_WDOG 5 with core := {state := .running, wdog := some 0}}})), 0, 0, by decide +kernel⟩,
    ⟨s0, 5, 1, by decide +kernel⟩,
    ⟨(Modes.dd fun d => Modes.sup0 (fun x => {x with phase := .loading, pllLock := false}) (Modes.pol {d with mode := 8})), 2000000, 0, by decide +kernel⟩⟩

theorem wit_WatchdogAndClock :
    (∃ (s : State) (dt : Nat) (i : StrandId), Active (later s dt) i ∧ ((later s dt).strand i).core.wdog = some 0 ∧ ((later s dt).strand i).fld Reg.CORE_WDOG 15 0 ≠ 0 ∧ ((later s dt).strand i).core.state ≠ CoreState.reset ∧ ((later s dt).strand i).core.state ≠ CoreState.halted ∧ (∃ a ∈ ((later s dt).supOf i).wdogAt, (later s dt).ns < a + 10 ^ 10) ∧ bitN (later s dt).cfg.policy 9 = false ∧ (later s dt).por = false) ∧
    (∃ (s : State) (dt : Nat) (i : StrandId), Active (later s dt) i ∧ ((later s dt).strand i).core.wdog = some 0 ∧ ((later s dt).strand i).fld Reg.CORE_WDOG 15 0 ≠ 0 ∧ ((later s dt).strand i).core.state ≠ CoreState.reset ∧ ((later s dt).strand i).core.state ≠ CoreState.halted ∧ (∀ a ∈ ((later s dt).supOf i).wdogAt, a + 10 ^ 10 ≤ (later s dt).ns)) :=
  ⟨⟨(Modes.dd fun d => Modes.sup0 (fun x => {x with wdogAt := some 1}) ({ d with strands := d.strands.map fun st => { st.wr Reg.CORE_WDOG 5 with core := {state := .running, wdog := some 3}}})), 5, 0, by decide +kernel⟩,
    ⟨(Modes.dd fun d => Modes.sup0 (fun x => {x with fenceIn := true}) (Modes.pol { d with strands := d.strands.map fun st => { st.wr Reg.CORE_WDOG 5 with core := {state := .running, wdog := some 3}}})), 5, 0, by decide +kernel⟩⟩

theorem wit_InwardFence :
    (∃ (s : State) (dt : Nat) (i : StrandId), Active (later s dt) i ∧ bitOf ((later s dt).supOf i).ctl 4 = true ∧ fieldOf ((later s dt).supOf i).ctl 23 8 ≠ 0 ∧ ((later s dt).supOf i).hbAt + fieldOf ((later s dt).supOf i).ctl 23 8 * 100000 < (later s dt).ns ∧ (later s dt).loupe.firmware = true ∧ (later s dt).loupe.safe = false) :=
  ⟨(Modes.dd (Modes.sup0 fun x => {x with ctl := 0x1410, fenceIn := true, cause := 7})), 50000000, 0, by decide +kernel⟩

theorem wit_HoldAndRun :
    (∃ (s : State) (dt : Nat) (m : Master) (i : StrandId), Reaches (later s dt) m i ∧ (∀ (b : Bool), m ≠ Master.host b)) :=
  ⟨s0, 0, .loupe, 0, by decide +kernel⟩

theorem wit_Loading :
    (∃ (s : State) (dt : Nat) (i : StrandId) (pkgs : List (List Byte)) (digests : Bool), (later s dt).loupe.firmware = true ∧ bitN (later s dt).cfg.strands ↑i = true ∧ ((later s dt).supOf i).fenceIn = false ∧ (later s dt).phase i = Phase.loading ∧ ((later s dt).supOf i).tested = false ∧ (later s dt).loadRefusal i pkgs = none ∧ (digests && !((later s dt).supOf i).fenceIn && pkgs.all ((later s dt).fwCarries (later s dt).upd.boot.active)) = true ∧ ((later s dt).supOf i).rejoin = false) ∧
    (∃ (s : State) (dt : Nat) (i : StrandId), (later s dt).loupe.firmware = true ∧ bitN (later s dt).cfg.strands ↑i = true ∧ ((later s dt).supOf i).fenceIn = false ∧ (later s dt).phase i = Phase.off ∧ ((later s dt).mode = 2 ∨ (later s dt).mode = 3 ∨ (later s dt).mode = 8 ∧ ((later s dt).supOf i).rejoin = true)) ∧
    (∃ (s : State) (dt : Nat) (i : StrandId) (pkgs : List (List Byte)) (digests : Bool), (later s dt).phase i = Phase.loading ∧ bitN (later s dt).cfg.strands ↑i = true ∧ ((later s dt).loadRefusal i pkgs ≠ none ∨ (digests && !((later s dt).supOf i).fenceIn && pkgs.all ((later s dt).fwCarries (later s dt).upd.boot.active)) = false)) :=
  ⟨⟨(Modes.dd fun d => {Modes.sup0 (fun x => {phase := .loading}) d with mode := 2}), 5, 0, [], true, by decide +kernel⟩,
    ⟨(Modes.offS 2), 5, 0, by decide +kernel⟩,
    ⟨(Modes.dd fun d => {Modes.sup0 (fun x => {phase := .loading}) d with mode := 4}), 5, 0, [], false, by decide +kernel⟩⟩

theorem wit_LoadPhase :
    (∃ (s : State) (dt : Nat) (ok : Bool) (payload : List Byte), (later s dt).loadsEnded = true ∧ (later s dt).mode = 3 ∧ ((!(later s dt).cfg.ok || (later s dt).configured.any fun i => decide ((later s dt).phase i = Phase.fenced)) = false) ∧ ((ok && (later s dt).fwMigrates (later s dt).upd.boot.active && ((later s dt).migrated payload).cfgForm (1 - (later s dt).upd.boot.cfgCur % 2) && (later s dt).configured.all fun i => decide ((later s dt).phase i = Phase.run)) = false)) ∧
    (∃ (s : State) (dt : Nat) (ok : Bool), (later s dt).loadsEnded = true ∧ (later s dt).mode = 2 ∧ ((!(later s dt).cfg.ok || (later s dt).configured.any fun i => decide ((later s dt).phase i = Phase.fenced)) = false)) ∧
    (∃ (s : State) (dt : Nat), (later s dt).por = false ∧ (later s dt).mode = 0 ∧ (later s dt).sleptAt + 1000 ≤ (later s dt).ns) ∧
    (∃ (s : State) (dt : Nat) (pair : Bool), (later s dt).mode = 8 ∧ ((later s dt).base = 5 ∨ (later s dt).base = 6) ∧ (∀ i ∈ (later s dt).configured, (later s dt).phase i = Phase.run) ∧ (later s dt).configured ≠ [] ∧ (later s dt).inStep false = true ∧ (later s dt).inStep true = true ∧ ((later s dt).phase (if pair = true then 2 else 0) = Phase.run) ∧ ((later s dt).phase (if pair = true then 3 else 1) = Phase.run)) ∧
    (∃ (s : State) (dt : Nat) (ok : Bool), (later s dt).loadsEnded = true ∧ ((later s dt).mode = 2 ∨ (later s dt).mode = 3) ∧ ((!(later s dt).cfg.ok || (later s dt).configured.any fun i => decide ((later s dt).phase i = Phase.fenced)) = true) ∧ (((later s dt).cfg.ok && (later s dt).cfg.degraded && (later s dt).configured.any fun i => decide ((later s dt).phase i = Phase.run)) = false)) ∧
    (∃ (s : State) (dt : Nat) (ok : Bool), (later s dt).loadsEnded = true ∧ ((later s dt).mode = 2 ∨ (later s dt).mode = 3) ∧ ((!(later s dt).cfg.ok || (later s dt).configured.any fun i => decide ((later s dt).phase i = Phase.fenced)) = true) ∧ (((later s dt).cfg.ok && (later s dt).cfg.degraded && (later s dt).configured.any fun i => decide ((later s dt).phase i = Phase.run)) = true)) ∧
    (∃ (s : State) (dt : Nat) (ok : Bool) (payload : List Byte), (later s dt).mode = 3 ∧ ((ok && (later s dt).fwMigrates (later s dt).upd.boot.active && ((later s dt).migrated payload).cfgForm (1 - (later s dt).upd.boot.cfgCur % 2) && (later s dt).configured.all fun i => decide ((later s dt).phase i = Phase.run)) = true)) :=
  ⟨⟨(Modes.dd fun d => {d with mode := 3}), 5, true, [], by decide +kernel⟩,
    ⟨(Modes.dd fun d => {d with mode := 2}), 5, false, by decide +kernel⟩,
    ⟨(Modes.dd fun d => {d with mode := 0}), 1000, by decide +kernel⟩,
    ⟨(Modes.dd fun d => {d with mode := 8, base := 5}), 5, true, by decide +kernel⟩,
    ⟨(Modes.dd fun d => {Modes.sup0 (fun x => {phase := .fenced}) d with mode := 3}), 5, true, by decide +kernel⟩,
    ⟨(Modes.dd fun d => {Modes.sup0 (fun x => {phase := .fenced}) d with mode := 3, cfg := {d.cfg with degraded := true}}), 5, true, by decide +kernel⟩,
    ⟨(Modes.dd fun d => {d with mode := 3, base := 5, upd := {d.upd with boot := { active := 0 }}, flashes := ⟨Modes.migFlash, {}⟩}), 5, true, [1,0,0,0], by decide +kernel⟩⟩

theorem wit_PortManagement :
    (∃ (s : State) (dt : Nat) (i : StrandId) (p a : Fin 4) (g : Nat), Active (later s dt) i ∧ ((later s dt).strand i).linkUp ↑p = true ∧ g < 2 ∧ bitN (((later s dt).strand i).fld (Reg.SW_GRP_MEM g) 3 0) ↑p = true ∧ a ≠ p ∧ bitN (((later s dt).strand i).fld (Reg.SW_GRP_MEM g) 3 0) ↑a = true ∧ ((later s dt).strand i).linkUp ↑a = true ∧ (((((later s dt).strand i).setPort p { ((later s dt).strand i).port p with phyLink := false, phySpeed := 0 }).putBit (Reg.MAC_STATUS ↑p) 1 false).linkWant p).1 = false) ∧
    (∃ (s : State) (dt : Nat) (m : Master) (i : StrandId) (p : Fin 4), (Active (later s dt) i ∨ (later s dt).phase i = Phase.loading) ∧ Reaches (later s dt) m i ∧ bitOf (((later s dt).strand i).rd Reg.MDIO_STAT) 31 = true ∧ (((later s dt).strand i).port 0).mdioAt + (if ((later s dt).strand i).bit Reg.MDIO_CFG 8 then 32 else 64) * (2 * (((later s dt).strand i).fld Reg.MDIO_CFG 7 0 + 1)) ≤ (later s dt).ns ∧ ((later s dt).strand i).anRuns ↑p = true ∧ ((later s dt).strand i).preemptPort ↑p = true ∧ bitOf (((later s dt).strand i).rd (Reg.MAC_PREEMPT ↑p)) 2 = false ∧ Active (later s dt) i ∧ ((later s dt).strand i).linkUp ↑p = true) ∧
    (∃ (s : State) (dt : Nat) (m : Master) (i : StrandId), Reaches (later s dt) m i ∧ bitOf (((later s dt).strand i).rd Reg.MDIO_STAT) 31 = false) ∧
    (∃ (s : State) (dt : Nat) (i : StrandId), Active (later s dt) i ∧ bitOf (((later s dt).strand i).rd Reg.MDIO_STAT) 31 = true ∧ (later s dt).ns < (((later s dt).strand i).port 0).mdioAt + (if ((later s dt).strand i).bit Reg.MDIO_CFG 8 then 32 else 64) * (2 * (((later s dt).strand i).fld Reg.MDIO_CFG 7 0 + 1))) :=
  ⟨⟨(with0 fun x => ((Net.up x).wr (Reg.SW_GRP_MEM 1) 0xC).wr (Reg.MAC_STATUS 3) 0x203), 5, 0, 2, 3, 1, by decide +kernel⟩,
    ⟨(with0 fun x => (((Net.up x).wr (Reg.MAC_CTL 2) 0x82B).wr Reg.MDIO_STAT 0x80000000).wr Reg.MDIO_CMD 0x40000000 |>.wr (Reg.MAC_PREEMPT 2) 1 |>.wr (Reg.MAC_STATUS 2) 0x20B), 25600, (.core 0), 0, 2, by decide +kernel⟩,
    ⟨s0, 5, (.core 0), 0, by decide +kernel⟩,
    ⟨(with0 fun x => x.wr Reg.MDIO_STAT 0x80000000), 25599, 0, by decide +kernel⟩⟩

theorem wit_PortFrames :
    (∃ (s : State) (dt : Nat) (i : StrandId) (p : Fin 4) (q : Fin 9) (r : MacRx), Active (later s dt) i ∧ ¬(bitOf ((view (later s dt) i).rd (Reg.MAC_CTL ↑p)) 0 = true ∧ (view (later s dt) i).linkUp ↑p = true ∧ ((view (later s dt) i).port p).rx = none) ∧ ((view (later s dt) i).port p).rx = some r ∧ r.flg = false ∧ (r.rule.isSome = true ∨ r.bound = false ∨ r.refused = true) ∧ r.stop ≤ (view (later s dt) i).now ∧ r.wire.symErr = false ∧ r.wire.linkLost = false ∧ 64 ≤ r.wire.bytes.length + 4 ∧ r.wire.bytes.length + 4 ≤ (view (later s dt) i).maxLen ↑p ∧ r.wire.fcsBad = false ∧ be16 r.wire.bytes 12 = 34824 ∧ be16 r.wire.bytes 14 = 1 ∧ (view (later s dt) i).bit (Reg.MAC_CTL ↑p) 17 = true ∧ (¬((view (later s dt) i).port p).fcAt.get 0 (if (view (later s dt) i).fcMode ↑p = 1 then 8 else ↑q) + bytesCycles ((view (later s dt) i).speedAct ↑p) (32 * (view (later s dt) i).fld (Reg.SW_FCQ ↑p) 15 0) ≤ (view (later s dt) i).now)) ∧
    (∃ (s : State) (dt : Nat) (i : StrandId) (p : Fin 4) (r : MacRx), Active (later s dt) i ∧ ((view (later s dt) i).port p).rx = some r ∧ r.flg = false ∧ (r.rule.isSome = true ∨ r.bound = false ∨ r.refused = true) ∧ r.stop ≤ (view (later s dt) i).now ∧ r.wire.symErr = false ∧ r.wire.linkLost = false ∧ 64 ≤ r.wire.bytes.length + 4 ∧ r.wire.bytes.length + 4 ≤ (view (later s dt) i).maxLen ↑p ∧ r.wire.fcsBad = true ∧ (view (later s dt) i).ptRx ↑p ≠ 1 ∧ (view (later s dt) i).bit Reg.SW_MIRROR 11 = false) ∧
    (∃ (s : State) (dt : Nat) (i : StrandId) (p : Fin 4) (r : MacRx), Active (later s dt) i ∧ ((view (later s dt) i).port p).rx = some r ∧ r.flg = false ∧ (r.rule.isSome = true ∨ r.bound = false ∨ r.refused = true) ∧ r.stop ≤ (view (later s dt) i).now ∧ r.wire.symErr = false ∧ r.wire.linkLost = false ∧ 64 ≤ r.wire.bytes.length + 4 ∧ r.wire.bytes.length + 4 ≤ (view (later s dt) i).maxLen ↑p ∧ r.wire.fcsBad = false ∧ (view (later s dt) i).ptRx ↑p = 1 ∧ macControlFrame r.wire.bytes = false) ∧
    (∃ (s : State) (dt : Nat) (i : StrandId) (p : Fin 4) (a : Fin 4) (w : RxWire), Active (later s dt) i ∧ bitOf ((view (later s dt) i).rd (Reg.MAC_CTL ↑p)) 0 = true ∧ (view (later s dt) i).linkUp ↑p = true ∧ ((view (later s dt) i).port p).rx = none ∧ w.frags = 1 ∧ w.assyErr = false ∧ (view (later s dt) i).isFlgFrame (↑p) w.bytes = false ∧ (view (later s dt) i).chanSource ↑p = some ↑a ∧ ((view (later s dt) i).ptRx ↑a = 1 ∨ (view (later s dt) i).ptRx ↑a = 2) ∧ (view (later s dt) i).linkUp ↑a = true ∧ bitOf ((view (later s dt) i).rd (Reg.MAC_CTL ↑a)) 0 = true ∧ macControlFrame w.bytes = false ∧ ((view (later s dt) i).ptTx ↑p = 0 ∨ (view (later s dt) i).linkUp ↑p = true ∧ (view (later s dt) i).speedAct ↑a ≠ (view (later s dt) i).speedAct ↑p)) ∧
    (∃ (s : State) (dt : Nat) (i : StrandId) (p : Fin 4) (w : RxWire), Active (later s dt) i ∧ bitOf ((view (later s dt) i).rd (Reg.MAC_CTL ↑p)) 0 = true ∧ (view (later s dt) i).linkUp ↑p = true ∧ ((view (later s dt) i).port p).rx = none ∧ (view (later s dt) i).preemptPort ↑p = true ∧ w.assyErr = true) ∧
    (∃ (s : State) (dt : Nat) (i : StrandId) (p : Fin 4) (a : Fin 4) (w : RxWire), Active (later s dt) i ∧ (view (later s dt) i).chanSource ↑p = some ↑a ∧ ((view (later s dt) i).ptRx ↑a = 1 ∨ (view (later s dt) i).ptRx ↑a = 2) ∧ (view (later s dt) i).linkUp ↑a = true ∧ bitOf ((view (later s dt) i).rd (Reg.MAC_CTL ↑a)) 0 = true ∧ macControlFrame w.bytes = false ∧ ((view (later s dt) i).ptTx ↑p = 1 ∨ (view (later s dt) i).ptTx ↑p = 2) ∧ (view (later s dt) i).linkUp ↑p = true ∧ (view (later s dt) i).speedAct ↑a = (view (later s dt) i).speedAct ↑p ∧ (later s dt).phase i = Phase.run ∧ bitOf ((view (later s dt) i).rd (Reg.MAC_CTL ↑p)) 1 = true ∧ w.bytes.length + 4 ≤ (view (later s dt) i).maxLen ↑a ∧ (view (later s dt) i).laneOut p ((view (later s dt) i).now + (38 + (view (later s dt) i).editExt ↑p + (max 12 (ceilDiv ((view (later s dt) i).maxLen ↑a * tByte10 ((view (later s dt) i).speedAct ↑a)) 50000) - 12))) = (view (later s dt) i).now + (38 + (view (later s dt) i).editExt ↑p + (max 12 (ceilDiv ((view (later s dt) i).maxLen ↑a * tByte10 ((view (later s dt) i).speedAct ↑a)) 50000) - 12))) ∧
    (∃ (s : State) (dt : Nat) (i : StrandId) (p : Fin 4) (q : Fin 9), Active (later s dt) i ∧ (((view (later s dt) i).port p).fcAt.get 0 (if (view (later s dt) i).fcMode ↑p = 1 then 8 else ↑q) + bytesCycles ((view (later s dt) i).speedAct ↑p) (32 * (view (later s dt) i).fld (Reg.SW_FCQ ↑p) 15 0) ≤ (view (later s dt) i).now) ∧ (view (later s dt) i).fcMode ↑p ≠ 0 ∧ ((view (later s dt) i).bit (Reg.SW_IN_STAT ↑p) (if (view (later s dt) i).fcMode ↑p = 1 then 24 else 24 + ↑q) = true) ∧ (later s dt).phase i = Phase.run ∧ (view (later s dt) i).linkUp ↑p = true ∧ (view (later s dt) i).fld (Reg.SW_FC ↑p) 13 0 ≤ (view (later s dt) i).fcCount ↑p ↑q ∧ (view (later s dt) i).txFree p = true ∧ ((view (later s dt) i).port p).tx = none ∧ ((view (later s dt) i).port p).fc = { : Tab (Option Nat) }) :=
  ⟨⟨(with0 fun x => (Net.ctl 2 0x2001B (Net.up x)).setPort 2 {rx := some (Net.rxw (Net.okw Net.pauseF) false)}), 6, 0, 2, 8, (Net.rxw (Net.okw Net.pauseF) false), by decide +kernel⟩,
    ⟨(with0 fun x => (Net.up x).setPort 2 {rx := some (Net.rxw Net.fcs true)}), 6, 0, 2, (Net.rxw Net.fcs true), by decide +kernel⟩,
    ⟨(with0 fun x => (Net.ctl 2 0x101B (Net.up x)).setPort 2 {rx := some (Net.rxw Net.w6 false)}), 6, 0, 2, (Net.rxw Net.w6 false), by decide +kernel⟩,
    ⟨(Net.pl fun x => Net.ctl 2 0x1B x), 5, 0, 2, 1, (Net.okw (Net.bs 70)), by decide +kernel⟩,
    ⟨(with0 fun x => (Net.up x).wr (Reg.MAC_PREEMPT 2) 1), 5, 0, 2, {Net.w6 with assyErr := true, frags := 3}, by decide +kernel⟩,
    ⟨(Net.pl fun x => x.setChan 2 {edits := [.replace 20 [1,2]]}), 5, 0, 2, 1, (Net.okw (Net.bs 70)), by decide +kernel⟩,
    ⟨(with0 fun x => {((Net.up x).wr (Reg.SW_FC 2) 0x40004000).wr (Reg.SW_IN_STAT 2) 0x01000000 |>.wr (Reg.SW_FCQ 2) 0x1 |>.setPort 2 {pause := ⟨[(8,7)]⟩} with sw := {inUse := ⟨[(16,5)]⟩}}), 260, 0, 2, 8, by decide +kernel⟩⟩

theorem wit_SwitchFrames :
    (∃ (s : State) (dt : Nat) (i : StrandId) (q : Fin 8) (p : Fin 4) (k : Fin 4) (v : List SwRef) (r : SwRef) (wire : List Byte) (lost : Nat), Active (later s dt) i ∧ (later s dt).phase i = Phase.run ∧ ((view (later s dt) i).port p).tx = none ∧ ((view (later s dt) i).port p).txHeld = none ∧ ((view (later s dt) i).port p).fc = { : Tab (Option Nat) } ∧ (view (later s dt) i).linkUp ↑p = true ∧ (view (later s dt) i).txFree p = true ∧ (∀ j < 8, ∀ b ∈ (view (later s dt) i).headBytes (↑p) j, b.2.length + 4 ≤ (view (later s dt) i).maxLen ↑p) ∧ (∀ j < 8, ↑q < j → (view (later s dt) i).queue (↑p) j = []) ∧ (view (later s dt) i).queue ↑p ↑q = r :: v ∧ (view (later s dt) i).headBytes ↑p ↑q = some (r, wire) ∧ (view (later s dt) i).qReady ↑p ↑q = true ∧ (view (later s dt) i).bit (Reg.GCL_CTL ↑p) 31 = false ∧ (view (later s dt) i).flgHolds (↑p) ((view (later s dt) i).frameCycles (↑p) wire.length) = false ∧ lost < wire.length ∧ ((view (later s dt) i).vEngine ↑k = none ∨ ∃ j, (view (later s dt) i).vEngine ↑k = some j ∧ ((view (later s dt) i).txDepth j = 0 ∨ ((view (later s dt) i).sw.vports.get { : VPort } ↑k).toSend ≠ []))) ∧
    (∃ (s : State) (dt : Nat) (i : StrandId) (q : Fin 8) (k : Fin 4) (v : List SwRef) (r : SwRef) (n : Nat), Active (later s dt) i ∧ (view (later s dt) i).vEngine ↑k = some n ∧ (view (later s dt) i).txDepth n ≠ 0 ∧ ((view (later s dt) i).sw.vports.get { : VPort } ↑k).toSend = [] ∧ (view (later s dt) i).queue (6 + ↑k) ↑q = r :: v ∧ r.eligible = true ∧ (∀ j < 8, ↑q < j → (view (later s dt) i).queue (6 + ↑k) j = []) ∧ ((view (later s dt) i).eng n).txq.length + ((view (later s dt) i).sw.vports.get { : VPort } ↑k).toSend.length ≤ (view (later s dt) i).txDepth n) ∧
    (∃ (s : State) (dt : Nat) (i : StrandId) (o : Fin 10) (w : SwWait), Active (later s dt) i ∧ o ≠ 4 ∧ o ≠ 5 ∧ (view (later s dt) i).sw.waiting = [w] ∧ w.src = ↑o ∧ w.frame.info.cls < 8 ∧ ((view (later s dt) i).destinations w.mask w.frame).2.admissible ((view (later s dt) i).destinations w.mask w.frame).1 w.frame = true ∧ ((view (later s dt) i).destinations w.mask w.frame).2.mirrored ((view (later s dt) i).destinations w.mask w.frame).1 w.frame = false) ∧
    (∃ (s : State) (dt : Nat) (i : StrandId) (o : Fin 10) (q : Fin 8) (u : List SwRef) (v : List SwRef) (r : SwRef), Active (later s dt) i ∧ (view (later s dt) i).queue ↑o ↑q = u ++ r :: v ∧ (∀ t ∈ u, t.eligible = true) ∧ r.eligible = false) ∧
    (∃ (s : State) (dt : Nat) (i : StrandId) (k : Fin 4) (n : Nat) (h : QEnt) (data : List QEnt), Active (later s dt) i ∧ (view (later s dt) i).vEngine ↑k = some n ∧ ((view (later s dt) i).eng n).rxq = h :: data ∧ (∀ t ∈ h :: data, t.ready ≤ (view (later s dt) i).now) ∧ (view (later s dt) i).rxDepth n ≠ 0 ∧ ((view (later s dt) i).sw.vports.get { : VPort } ↑k).hdr = none ∧ (fieldOf h.word 13 0 < 14 ∨ 9212 < fieldOf h.word 13 0 ∨ fieldOf h.word 18 14 ≠ 0) ∧ data = []) ∧
    (∃ (s : State) (dt : Nat) (i : StrandId) (o : Fin 10) (w : SwWait), Active (later s dt) i ∧ o ≠ 4 ∧ o ≠ 5 ∧ (view (later s dt) i).sw.waiting = [w] ∧ w.src = ↑o ∧ w.frame.info.cls < 8 ∧ ((view (later s dt) i).destinations w.mask w.frame).2.admissible ((view (later s dt) i).destinations w.mask w.frame).1 w.frame = false) ∧
    (∃ (s : State) (dt : Nat) (i : StrandId) (k : Fin 4) (n : Nat) (h : QEnt) (data : List QEnt), Active (later s dt) i ∧ (view (later s dt) i).vEngine ↑k = some n ∧ ((view (later s dt) i).eng n).rxq = h :: data ∧ (∀ t ∈ h :: data, t.ready ≤ (view (later s dt) i).now) ∧ (view (later s dt) i).rxDepth n ≠ 0 ∧ ((view (later s dt) i).sw.vports.get { : VPort } ↑k).hdr = none ∧ 14 ≤ fieldOf h.word 13 0 ∧ fieldOf h.word 13 0 ≤ 9212 ∧ fieldOf h.word 18 14 = 0 ∧ data.length = ceilDiv (fieldOf h.word 13 0) 4) :=
  ⟨⟨(Net.base 2 5 [Net.rr,Net.nel]), 5, 0, 5, 2, 3, [Net.nel], Net.rr, (Net.bs 70), 20, by decide +kernel⟩,
    ⟨(Net.vb 9 5 [Net.rr,Net.nel]), 5, 0, 5, 3, [Net.nel], Net.rr, 1, by decide +kernel⟩,
    ⟨(Net.wt Net.ww), 5, 0, 7, Net.ww, by decide +kernel⟩,
    ⟨(Net.base 2 5 [Net.rr,Net.nel,Net.nel]), 5, 0, 2, 5, [Net.rr], [Net.nel], Net.nel, by decide +kernel⟩,
    ⟨(Net.vq [⟨0x03CC000F,0,0⟩]), 5, 0, 3, 1, ⟨0x03CC000F,0,0⟩, [], by decide +kernel⟩,
    ⟨(Net.wt Net.bigw fun x => x.wr (Reg.SW_QCFG 3 2) 0x40000), 5, 0, 7, Net.bigw, by decide +kernel⟩,
    ⟨(Net.vq [⟨0x03C8000F,0,0⟩,⟨1,0,0⟩,⟨2,0,0⟩,⟨3,0,0⟩,⟨4,0,0⟩]), 5, 0, 3, 1, ⟨0x03C8000F,0,0⟩, [⟨1,0,0⟩,⟨2,0,0⟩,⟨3,0,0⟩,⟨4,0,0⟩], by decide +kernel⟩⟩

theorem wit_SwitchTables :
    (∃ (s : State) (dt : Nat) (m : Master) (i : StrandId) (o : Fin 4) (q : Fin 8), Reaches (later s dt) m i ∧ bitOf (((later s dt).strand i).rd (Reg.GCL_CTL ↑o)) 29 = false ∧ 0 < ((later s dt).strand i).fld (Reg.GCL_NEXT_CYCLE ↑o) 29 0 ∧ Active (later s dt) i ∧ bitOf (((later s dt).strand i).rd (Reg.SW_CBS ↑o ↑q)) 31 = true ∧ ((later s dt).strand i).queue ↑o ↑q ≠ [] ∧ ((later s dt).strand i).sw.credit.get 0 (qKey ↑o ↑q) < 0 ∧ ((later s dt).strand i).linkUp ↑o = true) ∧
    (∃ (s : State) (dt : Nat) (i : StrandId) (o : Fin 4) (q : Fin 8), Active (later s dt) i ∧ bitOf (((later s dt).strand i).rd (Reg.SW_CBS ↑o ↑q)) 31 = true ∧ ((later s dt).strand i).queue ↑o ↑q ≠ [] ∧ ((later s dt).strand i).linkUp ↑o = true ∧ ((later s dt).strand i).sw.credit.get 0 (qKey ↑o ↑q) = 0) ∧
    (∃ (s : State) (dt : Nat) (m : Master) (i : StrandId) (o : Fin 4), Reaches (later s dt) m i ∧ bitOf (((later s dt).strand i).rd (Reg.GCL_CTL ↑o)) 29 = true) :=
  ⟨⟨(Net.g 0), 5, (.core 0), 0, 2, 2, by decide +kernel⟩,
    ⟨(Net.g 0 0 []), 5, 0, 2, 2, by decide +kernel⟩,
    ⟨(Net.g 0xA0000000), 5, (.core 0), 0, 2, by decide +kernel⟩⟩

theorem wit_StrandTime :
    (∃ (s : State) (dt : Nat) (m : Master) (i : StrandId) (k : Nat) (rising : Bool), Reaches (later s dt) m i ∧ ((later s dt).supOf i).lock = true ∧ { sec := ((later s dt).strand i).time.sec, sub := ((later s dt).strand i).time.sub, latch := ((later s dt).strand i).time.latch, ppsRef := ((later s dt).strand i).time.ppsRef, refAfterStep := ((later s dt).strand i).time.refAfterStep, ppsValid := ((later s dt).strand i).time.ppsValid, stepped := ((later s dt).strand i).time.stepped, ppsOut := ((later s dt).strand i).time.ppsOut, ppsEnd := ((later s dt).strand i).time.ppsEnd, ppsUnc := ((later s dt).strand i).time.ppsUnc, prev := ((later s dt).strand i).time.prev, rateBy := ((later s dt).strand i).time.rateBy, arm := ((later s dt).strand i).time.arm, align := ((later s dt).strand i).time.align : TimeBase }.rateBy = none ∧ { sec := ((later s dt).strand i).time.sec, sub := ((later s dt).strand i).time.sub, latch := ((later s dt).strand i).time.latch, ppsRef := ((later s dt).strand i).time.ppsRef, refAfterStep := ((later s dt).strand i).time.refAfterStep, ppsValid := ((later s dt).strand i).time.ppsValid, stepped := ((later s dt).strand i).time.stepped, ppsOut := ((later s dt).strand i).time.ppsOut, ppsEnd := ((later s dt).strand i).time.ppsEnd, ppsUnc := ((later s dt).strand i).time.ppsUnc, prev := ((later s dt).strand i).time.prev, rateBy := ((later s dt).strand i).time.rateBy, arm := ((later s dt).strand i).time.arm, align := ((later s dt).strand i).time.align : TimeBase }.align = none ∧ { sec := ((later s dt).strand i).time.sec, sub := ((later s dt).strand i).time.sub, latch := ((later s dt).strand i).time.latch, ppsRef := ((later s dt).strand i).time.ppsRef, refAfterStep := ((later s dt).strand i).time.refAfterStep, ppsValid := ((later s dt).strand i).time.ppsValid, stepped := ((later s dt).strand i).time.stepped, ppsOut := ((later s dt).strand i).time.ppsOut, ppsEnd := ((later s dt).strand i).time.ppsEnd, ppsUnc := ((later s dt).strand i).time.ppsUnc, prev := ((later s dt).strand i).time.prev, rateBy := ((later s dt).strand i).time.rateBy, arm := ((later s dt).strand i).time.arm, align := ((later s dt).strand i).time.align : TimeBase }.steps = [] ∧ { sec := ((later s dt).strand i).time.sec, sub := ((later s dt).strand i).time.sub, latch := ((later s dt).strand i).time.latch, ppsRef := ((later s dt).strand i).time.ppsRef, refAfterStep := ((later s dt).strand i).time.refAfterStep, ppsValid := ((later s dt).strand i).time.ppsValid, stepped := ((later s dt).strand i).time.stepped, ppsOut := ((later s dt).strand i).time.ppsOut, ppsEnd := ((later s dt).strand i).time.ppsEnd, ppsUnc := ((later s dt).strand i).time.ppsUnc, prev := ((later s dt).strand i).time.prev, rateBy := ((later s dt).strand i).time.rateBy, arm := ((later s dt).strand i).time.arm, align := ((later s dt).strand i).time.align : TimeBase }.arm = false ∧ ((later s dt).strand i).bng.shifts = [] ∧ ((later s dt).strand i).time.steps = [k] ∧ k ≤ ((later s dt).strand i).now ∧ ((later s dt).strand i).bit Reg.TIME_STATUS 5 = true ∧ ((later s dt).strand i).mayStep false = true ∧ ((later s dt).strand i).bit Reg.STEP_SH 31 = false ∧ ((later s dt).strand i).fld Reg.STEP_NS 29 0 < 10 ^ 9 ∧ 0 ≤ ↑((later s dt).strand i).t32 + signedN 32 (BitVec.toNat (((later s dt).strand i).rd Reg.STEP_S)) * (secUnit : Int) + (((later s dt).strand i).fld Reg.STEP_NS 29 0 * nsUnit + ((later s dt).strand i).fld Reg.STEP_FRAC 15 0 * 2 ^ 16) ∧ Active (later s dt) i ∧ ((later s dt).strand i).bit Reg.TIME_CTL 6 = true ∧ ((later s dt).strand i).bit Reg.TIME_CTL 7 ≠ rising ∧ ((later s dt).strand i).time.ppsRef = none) ∧
    (∃ (s : State) (dt : Nat) (i : StrandId) (k : Nat), { sec := ((later s dt).strand i).time.sec, sub := ((later s dt).strand i).time.sub, latch := ((later s dt).strand i).time.latch, ppsRef := ((later s dt).strand i).time.ppsRef, refAfterStep := ((later s dt).strand i).time.refAfterStep, ppsValid := ((later s dt).strand i).time.ppsValid, stepped := ((later s dt).strand i).time.stepped, ppsOut := ((later s dt).strand i).time.ppsOut, ppsEnd := ((later s dt).strand i).time.ppsEnd, ppsUnc := ((later s dt).strand i).time.ppsUnc, prev := ((later s dt).strand i).time.prev, rateBy := ((later s dt).strand i).time.rateBy, arm := ((later s dt).strand i).time.arm, align := ((later s dt).strand i).time.align : TimeBase }.rateBy = none ∧ { sec := ((later s dt).strand i).time.sec, sub := ((later s dt).strand i).time.sub, latch := ((later s dt).strand i).time.latch, ppsRef := ((later s dt).strand i).time.ppsRef, refAfterStep := ((later s dt).strand i).time.refAfterStep, ppsValid := ((later s dt).strand i).time.ppsValid, stepped := ((later s dt).strand i).time.stepped, ppsOut := ((later s dt).strand i).time.ppsOut, ppsEnd := ((later s dt).strand i).time.ppsEnd, ppsUnc := ((later s dt).strand i).time.ppsUnc, prev := ((later s dt).strand i).time.prev, rateBy := ((later s dt).strand i).time.rateBy, arm := ((later s dt).strand i).time.arm, align := ((later s dt).strand i).time.align : TimeBase }.align = none ∧ { sec := ((later s dt).strand i).time.sec, sub := ((later s dt).strand i).time.sub, latch := ((later s dt).strand i).time.latch, ppsRef := ((later s dt).strand i).time.ppsRef, refAfterStep := ((later s dt).strand i).time.refAfterStep, ppsValid := ((later s dt).strand i).time.ppsValid, stepped := ((later s dt).strand i).time.stepped, ppsOut := ((later s dt).strand i).time.ppsOut, ppsEnd := ((later s dt).strand i).time.ppsEnd, ppsUnc := ((later s dt).strand i).time.ppsUnc, prev := ((later s dt).strand i).time.prev, rateBy := ((later s dt).strand i).time.rateBy, arm := ((later s dt).strand i).time.arm, align := ((later s dt).strand i).time.align : TimeBase }.steps = [] ∧ { sec := ((later s dt).strand i).time.sec, sub := ((later s dt).strand i).time.sub, latch := ((later s dt).strand i).time.latch, ppsRef := ((later s dt).strand i).time.ppsRef, refAfterStep := ((later s dt).strand i).time.refAfterStep, ppsValid := ((later s dt).strand i).time.ppsValid, stepped := ((later s dt).strand i).time.stepped, ppsOut := ((later s dt).strand i).time.ppsOut, ppsEnd := ((later s dt).strand i).time.ppsEnd, ppsUnc := ((later s dt).strand i).time.ppsUnc, prev := ((later s dt).strand i).time.prev, rateBy := ((later s dt).strand i).time.rateBy, arm := ((later s dt).strand i).time.arm, align := ((later s dt).strand i).time.align : TimeBase }.arm = false ∧ ((later s dt).strand i).bng.shifts = [] ∧ ((later s dt).strand i).time.steps = [k] ∧ k ≤ ((later s dt).strand i).now ∧ (((later s dt).strand i).mayStep false = false ∨ 10 ^ 9 ≤ ((later s dt).strand i).fld Reg.STEP_NS 29 0)) ∧
    (∃ (s : State) (dt : Nat) (m : Master) (i : StrandId), Reaches (later s dt) m i ∧ ((later s dt).supOf i).lock = false ∧ ((later s dt).strand i).bit Reg.TIME_STATUS 2 = false ∧ ((later s dt).strand i).time.arm = false) ∧
    (∃ (s : State) (dt : Nat) (i : StrandId) (rising : Bool), Active (later s dt) i ∧ ((later s dt).strand i).bit Reg.TIME_STATUS 5 = true ∧ (((later s dt).strand i).bit Reg.TIME_CTL 6 = false ∨ ((later s dt).strand i).bit Reg.TIME_CTL 7 = rising)) :=
  ⟨⟨(Clock.tb fun x => {x.wr Reg.TIME_CTL 0x02800168 with time := {sec := 7, steps := [5]}}), 5, (.host true), 0, 5, true, by decide +kernel⟩,
    ⟨(Clock.tb fun x => {x.wr Reg.TIME_CTL 0x02800068 with time := {sec := 7, steps := [5]}}), 5, 0, 5, by decide +kernel⟩,
    ⟨{dev := (Clock.tb fun x => (x.wr Reg.TIME_CTL 0x148).wr Reg.TIME_STATUS 0x20 ).dev.updSup 0 fun u => {u with lock := false}}, 5, .loupe, 0, by decide +kernel⟩,
    ⟨(Clock.tb id), 5, 0, true, by decide +kernel⟩⟩

theorem wit_BangleTrackers :
    (∃ (s : State) (dt : Nat) (m : Master) (i : StrandId) (t : Fin 4) (b : QEnt) (o : Obs) (obs : List Obs) (k : Nat), Active (later s dt) i ∧ (((later s dt).strand i).trk ↑t).state ≠ TrkState.off ∧ ((later s dt).strand i).bit (Reg.TRK_CFG ↑t) 29 = false ∧ (((later s dt).strand i).trk ↑t).fifo.length < 4 ∧ (((later s dt).strand i).trk ↑t).fifo = o :: obs ∧ (∀ n ∈ ((later s dt).strand i).bng.loopAt, n + 8 ≤ ((later s dt).strand i).now) ∧ ((later s dt).strand i).obsReject (↑t) o = 0 ∧ (((later s dt).strand i).trk ↑t).state = TrkState.valid ∧ (((later s dt).strand i).gain (↑t) (((later s dt).strand i).trk ↑t).omega).plaus = 0 ∧ (((later s dt).strand i).trk ↑t).misses + 1 < ((later s dt).strand i).fld (Reg.TRK_CFG ↑t) 15 8 ∧ wrapN 32 ((((later s dt).strand i).trk ↑t).at32 (((later s dt).strand i).obsTime o)) ≠ ((later s dt).strand i).obsAngle (↑t) o ∧ Reaches (later s dt) m i ∧ (k = match m with | Master.host b => b2n b | Master.core s => 2 | Master.loupe => 3)) ∧
    (∃ (s : State) (dt : Nat) (m : Master) (i : StrandId) (t : Fin 4) (o : Obs) (obs : List Obs), Active (later s dt) i ∧ (((later s dt).strand i).trk ↑t).state ≠ TrkState.off ∧ ((later s dt).strand i).bit (Reg.TRK_CFG ↑t) 29 = false ∧ 4 ≤ (((later s dt).strand i).trk ↑t).fifo.length ∧ (((later s dt).strand i).trk ↑t).fifo = o :: obs ∧ (∀ n ∈ ((later s dt).strand i).bng.loopAt, n + 8 ≤ ((later s dt).strand i).now) ∧ ((later s dt).strand i).obsReject (↑t) o ≠ 0 ∧ Reaches (later s dt) m i ∧ (((later s dt).strand i).trk ↑t).state = TrkState.warmup) ∧
    (∃ (s : State) (dt : Nat) (i : StrandId) (t : Fin 4), Active (later s dt) i ∧ (((later s dt).strand i).trk ↑t).state ≠ TrkState.off ∧ (∃ n ∈ ((later s dt).strand i).bng.loopAt, ((later s dt).strand i).now < n + 8)) ∧
    (∃ (s : State) (dt : Nat) (i : StrandId) (t : Fin 4) (a : QEnt) (b : QEnt) (c : QEnt) (rest : List QEnt), Active (later s dt) i ∧ (((later s dt).strand i).trk ↑t).state ≠ TrkState.off ∧ ((later s dt).strand i).bit (Reg.TRK_CFG ↑t) 29 = true ∧ (((later s dt).strand i).trk ↑t).fifo.length < 4 ∧ (((later s dt).strand i).trk ↑t).part = [] ∧ (((later s dt).strand i).eng (((later s dt).strand i).fld (Reg.TRK_CFG ↑t) 27 24)).rxq = a :: b :: c :: rest ∧ a.ready ≤ ((later s dt).strand i).now ∧ b.ready ≤ ((later s dt).strand i).now ∧ c.ready ≤ ((later s dt).strand i).now) ∧
    (∃ (s : State) (dt : Nat) (i : StrandId) (t : Fin 4) (o : Obs) (obs : List Obs), Active (later s dt) i ∧ (((later s dt).strand i).trk ↑t).state ≠ TrkState.off ∧ (((later s dt).strand i).trk ↑t).fifo = o :: obs ∧ (∀ n ∈ ((later s dt).strand i).bng.loopAt, n + 8 ≤ ((later s dt).strand i).now) ∧ ((later s dt).strand i).obsReject (↑t) o = 0 ∧ (((later s dt).strand i).trk ↑t).state = TrkState.warmup ∧ (((later s dt).strand i).trk ↑t).agree = 0) :=
  ⟨⟨(Clock.tfl .valid), 5, .loupe, 0, 2, ⟨2,0,0⟩, ⟨0,5,3,0⟩, [⟨1,2,3,0⟩], 3, by decide +kernel⟩,
    ⟨(Clock.trk {Clock.tt with fifo := [⟨1,2,3,0⟩,⟨1,2,3,0⟩,⟨1,2,3,0⟩,⟨1,2,3,0⟩]}), 5, (.host true), 0, 2, ⟨1,2,3,0⟩, [⟨1,2,3,0⟩,⟨1,2,3,0⟩,⟨1,2,3,0⟩], by decide +kernel⟩,
    ⟨(Clock.tfl .warmup fun x => {x with bng := {x.bng with loopAt := some 3}}), 0, 0, 2, by decide +kernel⟩,
    ⟨(Clock.trk {Clock.tt with state := .valid, omega := 500000, tref := secUnit, fifo := [⟨1,5,3,0⟩,⟨1,2,3,0⟩]} fun x => (x.wr (Reg.TRK_MAXAGE 2) 0xFFFFFF).wr (Reg.TRK_CFG 2) 0xA3000500 |>.updEng 3 fun e => {e with rxq := [⟨1,0,0⟩,⟨2,0,0⟩,⟨3,0,4⟩,⟨7,0,4⟩]}), 5, 0, 2, ⟨1,0,0⟩, ⟨2,0,0⟩, ⟨3,0,4⟩, [⟨7,0,4⟩], by decide +kernel⟩,
    ⟨(Clock.trk {Clock.tt with state := .warmup, omega := 500000, tref := secUnit, fifo := [⟨0,5,3,0⟩,⟨1,2,3,0⟩]} fun x => {(x.wr (Reg.TRK_MAXAGE 2) 0xFFFFFF).wr (Reg.TRK_CFG 2) 0x83000500 |>.wr (Reg.TRK_STEP_AU 2) 0xF0000001 with time := {sec := 5, sub := 400}}), 5, 0, 2, ⟨0,5,3,0⟩, [⟨1,2,3,0⟩], by decide +kernel⟩⟩

theorem wit_BangleEvents :
    (∃ (s : State) (dt : Nat) (m : Master) (i : StrandId) (k : Fin 256) (v : Word) (ang : ℤ) (j : Nat), Active (later s dt) i ∧ (view (later s dt) i).timeRunning = true ∧ (view (later s dt) i).thisCyc.evt0.get none ↑k = none ∧ ((view (later s dt) i).ent ↑k).state = EvtState.pending ∧ ((view (later s dt) i).trk ((view (later s dt) i).evtTrk ↑k)).state = TrkState.valid ∧ ((view (later s dt) i).trk ((view (later s dt) i).evtTrk ↑k)).omega ≠ 0 ∧ ((view (later s dt) i).ent ↑k).realign = false ∧ ((view (later s dt) i).ent ↑k).next = some (ang, j) ∧ ((view (later s dt) i).ent ↑k).sign = some (signOf ((view (later s dt) i).trk ((view (later s dt) i).evtTrk ↑k)).omega) ∧ (view (later s dt) i).fld (Reg.EVT_W2 ↑k) 11 10 ≠ 2 ∧ ((view (later s dt) i).trk ((view (later s dt) i).evtTrk ↑k)).fireTime ang ((view (later s dt) i).trk ((view (later s dt) i).evtTrk ↑k)).omega ((view (later s dt) i).fld (Reg.EVT_W1 ↑k) 23 0) ≤ ↑(view (later s dt) i).t32 ∧ (view (later s dt) i).bit (Reg.EVT_W2 ↑k) 14 = false ∧ Reaches (later s dt) m i ∧ bitOf v 31 = true ∧ ((2 ≤ fieldOf (((later s dt).strand i).bng.held.get (((later s dt).strand i).rd (Reg.EVT_W2 ↑k)) (4 * ↑k + 2)) 11 10 ∧ fieldOf (((later s dt).strand i).bng.held.get (((later s dt).strand i).rd (Reg.EVT_W2 ↑k)) (4 * ↑k + 2)) 9 0 = 0 ∨ fieldOf (((later s dt).strand i).bng.held.get (((later s dt).strand i).rd (Reg.EVT_W2 ↑k)) (4 * ↑k + 2)) 13 12 = 3) ∨ ((later s dt).strand i).bit (Reg.EVT_W3 ↑k) 31 = true)) ∧
    (∃ (s : State) (dt : Nat) (m : Master) (i : StrandId) (k : Fin 256) (v : Word) (ang : ℤ) (j : Nat), Active (later s dt) i ∧ (view (later s dt) i).timeRunning = true ∧ (view (later s dt) i).thisCyc.evt0.get none ↑k = none ∧ ((view (later s dt) i).ent ↑k).state = EvtState.pending ∧ ((view (later s dt) i).trk ((view (later s dt) i).evtTrk ↑k)).state = TrkState.valid ∧ ((view (later s dt) i).trk ((view (later s dt) i).evtTrk ↑k)).omega ≠ 0 ∧ ((view (later s dt) i).ent ↑k).realign = false ∧ ((view (later s dt) i).ent ↑k).next = some (ang, j) ∧ ((view (later s dt) i).ent ↑k).sign = some (signOf ((view (later s dt) i).trk ((view (later s dt) i).evtTrk ↑k)).omega) ∧ (view (later s dt) i).fld (Reg.EVT_W2 ↑k) 11 10 ≠ 2 ∧ ↑(view (later s dt) i).t32 < ((view (later s dt) i).trk ((view (later s dt) i).evtTrk ↑k)).fireTime ang ((view (later s dt) i).trk ((view (later s dt) i).evtTrk ↑k)).omega ((view (later s dt) i).fld (Reg.EVT_W1 ↑k) 23 0) ∧ ((view (later s dt) i).trk ((view (later s dt) i).evtTrk ↑k)).fireTime ang ((view (later s dt) i).trk ((view (later s dt) i).evtTrk ↑k)).omega ((view (later s dt) i).fld (Reg.EVT_W1 ↑k) 23 0) ≤ ↑(view (later s dt) i).t32 + 2000 * ↑nsUnit ∧ Reaches (later s dt) m i ∧ bitOf v 31 = false ∧ ((((later s dt).strand i).ent ↑k).state ≠ EvtState.committed ∨ ↑((later s dt).strand i).t32 < (((later s dt).strand i).ent ↑k).tf)) ∧
    (∃ (s : State) (dt : Nat) (m : Master) (i : StrandId) (k : Fin 256) (v : Word) (ang : ℤ) (j : Nat), Active (later s dt) i ∧ (view (later s dt) i).timeRunning = true ∧ (view (later s dt) i).thisCyc.evt0.get none ↑k = none ∧ ((view (later s dt) i).ent ↑k).state = EvtState.pending ∧ ((view (later s dt) i).trk ((view (later s dt) i).evtTrk ↑k)).state = TrkState.valid ∧ ((view (later s dt) i).trk ((view (later s dt) i).evtTrk ↑k)).omega ≠ 0 ∧ ((view (later s dt) i).ent ↑k).realign = false ∧ ((view (later s dt) i).ent ↑k).next = some (ang, j) ∧ ((view (later s dt) i).ent ↑k).sign = some (signOf ((view (later s dt) i).trk ((view (later s dt) i).evtTrk ↑k)).omega) ∧ (view (later s dt) i).fld (Reg.EVT_W2 ↑k) 11 10 ≠ 2 ∧ ((view (later s dt) i).trk ((view (later s dt) i).evtTrk ↑k)).fireTime ang ((view (later s dt) i).trk ((view (later s dt) i).evtTrk ↑k)).omega ((view (later s dt) i).fld (Reg.EVT_W1 ↑k) 23 0) ≤ ↑(view (later s dt) i).t32 ∧ (view (later s dt) i).bit (Reg.EVT_W2 ↑k) 14 = true ∧ (view (later s dt) i).fld (Reg.EVT_W2 ↑k) 11 10 = 0 ∧ Reaches (later s dt) m i ∧ bitOf v 31 = true ∧ (¬(2 ≤ fieldOf (((later s dt).strand i).bng.held.get (((later s dt).strand i).rd (Reg.EVT_W2 ↑k)) (4 * ↑k + 2)) 11 10 ∧ fieldOf (((later s dt).strand i).bng.held.get (((later s dt).strand i).rd (Reg.EVT_W2 ↑k)) (4 * ↑k + 2)) 9 0 = 0 ∨ fieldOf (((later s dt).strand i).bng.held.get (((later s dt).strand i).rd (Reg.EVT_W2 ↑k)) (4 * ↑k + 2)) 13 12 = 3)) ∧ ((later s dt).strand i).bit (Reg.EVT_W3 ↑k) 31 = false) ∧
    (∃ (s : State) (dt : Nat) (i : StrandId) (k : Fin 256), Active (later s dt) i ∧ (view (later s dt) i).timeRunning = true ∧ ((view (later s dt) i).ent ↑k).state = EvtState.committed ∧ ((view (later s dt) i).ent ↑k).tf ≤ ↑(view (later s dt) i).t32 ∧ (view (later s dt) i).fld (Reg.EVT_W2 ↑k) 11 10 = 0 ∧ (view (later s dt) i).evtLower ↑k = [] ∧ (later s dt).phase i = Phase.run ∧ (view (later s dt) i).bng.waiting = [] ∧ (view (later s dt) i).actFree = true ∧ ((view (later s dt) i).ent ↑k).nom = false ∧ (view (later s dt) i).fld (Reg.EVT_W2 ↑k) 31 28 = 6 ∧ (view (later s dt) i).fld (Reg.EVT_W2 ↑k) 27 16 < 64 ∧ (view (later s dt) i).fld (Reg.EVT_W2 ↑k) 27 16 % 32 < 24 ∧ (view (later s dt) i).bit Reg.BNG_PINMASK ((view (later s dt) i).fld (Reg.EVT_W2 ↑k) 27 16 % 32) = true) ∧
    (∃ (s : State) (dt : Nat) (i : StrandId) (k : Fin 256) (ang : ℤ) (j : Nat), Active (later s dt) i ∧ (view (later s dt) i).timeRunning = true ∧ (view (later s dt) i).thisCyc.evt0.get none ↑k = none ∧ ((view (later s dt) i).ent ↑k).state = EvtState.pending ∧ ((view (later s dt) i).trk ((view (later s dt) i).evtTrk ↑k)).state = TrkState.valid ∧ ((view (later s dt) i).trk ((view (later s dt) i).evtTrk ↑k)).omega ≠ 0 ∧ ((view (later s dt) i).ent ↑k).realign = false ∧ ((view (later s dt) i).ent ↑k).next = some (ang, j) ∧ ((view (later s dt) i).ent ↑k).sign = some (signOf ((view (later s dt) i).trk ((view (later s dt) i).evtTrk ↑k)).omega) ∧ (view (later s dt) i).fld (Reg.EVT_W2 ↑k) 11 10 ≠ 2 ∧ ↑(view (later s dt) i).t32 + 2000 * ↑nsUnit < ((view (later s dt) i).trk ((view (later s dt) i).evtTrk ↑k)).fireTime ang ((view (later s dt) i).trk ((view (later s dt) i).evtTrk ↑k)).omega ((view (later s dt) i).fld (Reg.EVT_W1 ↑k) 23 0)) ∧
    (∃ (s : State) (dt : Nat) (i : StrandId) (k : Fin 256), Active (later s dt) i ∧ (view (later s dt) i).timeRunning = true ∧ ↑(view (later s dt) i).t32 < ((view (later s dt) i).ent ↑k).tf) ∧
    (∃ (s : State) (dt : Nat) (i : StrandId) (k : Fin 256), Active (later s dt) i ∧ (view (later s dt) i).timeRunning = true ∧ ((view (later s dt) i).ent ↑k).state = EvtState.committed ∧ ((view (later s dt) i).ent ↑k).tf ≤ ↑(view (later s dt) i).t32 ∧ (view (later s dt) i).fld (Reg.EVT_W2 ↑k) 11 10 = 0 ∧ (view (later s dt) i).evtLower ↑k = [] ∧ (later s dt).phase i = Phase.hold) ∧
    (∃ (s : State) (dt : Nat) (i : StrandId) (j : Nat) (c : Nat) (rest : List (Nat × Nat × Nat)), Active (later s dt) i ∧ (view (later s dt) i).timeRunning = true ∧ (later s dt).phase i = Phase.run ∧ (view (later s dt) i).bng.waiting = (c, 6, j) :: rest ∧ (view (later s dt) i).actFree = true ∧ j < 64 ∧ j % 32 < 24 ∧ (view (later s dt) i).bit Reg.BNG_PINMASK (j % 32) = true) :=
  ⟨⟨(Clock.evs Clock.pe 0x60050000), 5, (.core 0), 0, 4, 0xC0000000, 88, 0, by decide +kernel⟩,
    ⟨(Clock.evs {Clock.pe with next := some (500000092160,0)} 0x60050000), 5, (.core 0), 0, 4, 0x40000000, 500000092160, 0, by decide +kernel⟩,
    ⟨(Clock.evs Clock.pe 0x60054000 fun x => x.wr (Reg.EVT_W3 4) 0x40000000), 5, (.core 0), 0, 4, 0xC0000000, 88, 0, by decide +kernel⟩,
    ⟨(Clock.evs {Clock.pe with state := .committed} 0x60050000), 5, 0, 4, by decide +kernel⟩,
    ⟨(Clock.evs {Clock.pe with next := some (1000000000000,0)} 0x60050000), 5, 0, 4, 1000000000000, 0, by decide +kernel⟩,
    ⟨(Clock.evs {Clock.pe with state := .committed, tf := 1000000000000000000000} 0x60050000), 5, 0, 4, by decide +kernel⟩,
    ⟨{dev := (Clock.evs {Clock.pe with state := .committed} 0x60250000).dev.updSup 0 fun u => {u with phase := .hold}}, 5, 0, 4, by decide +kernel⟩,
    ⟨(Clock.evs {Clock.pe with state := .committed} 0x60050000 fun x => {x with now := 9, bng := {x.bng with waiting := Clock.wt, held := ⟨[(18,0x60000800)]⟩}}), 5, 0, 0x23, 0, [(1,2,3)], by decide +kernel⟩⟩

theorem wit_FiligreeNode :
    (∃ (s : State) (dt : Nat) (m : Master) (i : StrandId) (k : Fin 128) (bs : List Byte), Reaches (later s dt) m i ∧ Active (later s dt) i ∧ (view (later s dt) i).flgState ≠ 0 ∧ (view (later s dt) i).fld Reg.MAP_CTL 31 30 ≠ 3 ∧ (view (later s dt) i).winMine ↑k = true ∧ (view (later s dt) i).winNear (↑k) 5000 = true ∧ (view (later s dt) i).fld (Reg.TX_RING_CFG ((view (later s dt) i).fld (Reg.WIN_W2 ↑k) 13 10)) 31 30 = 1 ∧ ((view (later s dt) i).ring ((view (later s dt) i).fld (Reg.WIN_W2 ↑k) 13 10)).items = [] ∧ (view (later s dt) i).winOpens ↑k = true ∧ (view (later s dt) i).flgRole = 1 ∧ (view (later s dt) i).fld Reg.FLG_CTL 15 14 = (view (later s dt) i).fld Reg.FLG_CTL 13 12 ∧ (view (later s dt) i).flgSpeedOk ((view (later s dt) i).fld Reg.FLG_CTL 13 12) = true ∧ (later s dt).phase i = Phase.run ∧ (view (later s dt) i).winKind ↑k ≤ 1 ∧ (view (later s dt) i).flg.staged.get none ((view (later s dt) i).fld (Reg.WIN_W2 ↑k) 13 10) = none ∧ (view (later s dt) i).winValid ↑k = true ∧ (view (later s dt) i).bit (Reg.WIN_W2 ↑k) 8 = true ∧ (view (later s dt) i).winNear (↑k) ((view (later s dt) i).fld (Reg.WIN_W3 ↑k) 23 0) = true ∧ ((view (later s dt) i).eng ((view (later s dt) i).fld (Reg.WIN_W2 ↑k) 7 4)).sync = SyncState.idle ∧ (view (later s dt) i).flgPos = 0 ∧ flgHdrOk bs = false) ∧
    (∃ (s : State) (dt : Nat) (m : Master) (i : StrandId) (k : Fin 128) (p : Fin 4) (bs : List Byte), Reaches (later s dt) m i ∧ 2 ≤ (view (later s dt) i).flgState ∧ ¬((view (later s dt) i).flgRole = 1 ∧ (view (later s dt) i).flgPos = 0) ∧ Active (later s dt) i ∧ (view (later s dt) i).flgState ≠ 0 ∧ (view (later s dt) i).winOpens ↑k = false ∧ (view (later s dt) i).flgRole = 1 ∧ flgHdrOk bs = true ∧ (view (later s dt) i).flgSpeedOk ↑p = true ∧ (view (later s dt) i).flgLine = false ∧ (flgSrc bs, flgSeq bs) ∉ (view (later s dt) i).flg.seen) ∧
    (∃ (s : State) (dt : Nat) (i : StrandId) (p : Fin 4) (bs : List Byte), Active (later s dt) i ∧ (view (later s dt) i).flgState ≠ 0 ∧ (view (later s dt) i).flgRole = 1 ∧ flgHdrOk bs = true ∧ (view (later s dt) i).flgSpeedOk ↑p = true ∧ (view (later s dt) i).flgLine = false ∧ (view (later s dt) i).flgPorts.length = 2 ∧ (flgSrc bs, flgSeq bs) ∈ (view (later s dt) i).flg.seen) ∧
    (∃ (s : State) (dt : Nat) (i : StrandId) (k : Fin 128), Active (later s dt) i ∧ (view (later s dt) i).flgState ≠ 0 ∧ (view (later s dt) i).winOpens ↑k = true ∧ (view (later s dt) i).flgRole = 1 ∧ (view (later s dt) i).fld Reg.FLG_CTL 15 14 = (view (later s dt) i).fld Reg.FLG_CTL 13 12 ∧ (view (later s dt) i).flgSpeedOk ((view (later s dt) i).fld Reg.FLG_CTL 13 12) = true ∧ (later s dt).phase i = Phase.run ∧ (view (later s dt) i).winKind ↑k = 2 ∧ (view (later s dt) i).flgPos = 0) ∧
    (∃ (s : State) (dt : Nat) (i : StrandId) (k : Fin 128) (pl : List Byte) (qseq : Nat) (ts : Bool) (since : ℤ), Active (later s dt) i ∧ (view (later s dt) i).flgState ≠ 0 ∧ (view (later s dt) i).winOpens ↑k = true ∧ (view (later s dt) i).flgRole = 1 ∧ (view (later s dt) i).fld Reg.FLG_CTL 15 14 = (view (later s dt) i).fld Reg.FLG_CTL 13 12 ∧ (view (later s dt) i).flgSpeedOk ((view (later s dt) i).fld Reg.FLG_CTL 13 12) = true ∧ (later s dt).phase i = Phase.run ∧ (view (later s dt) i).winKind ↑k = 0 ∧ (view (later s dt) i).winMine ↑k = true ∧ (view (later s dt) i).flg.staged.get none ((view (later s dt) i).fld (Reg.WIN_W2 ↑k) 13 10) = some (pl, qseq, ts, since) ∧ pl.length + 34 ≤ (view (later s dt) i).maxLen ((view (later s dt) i).fld Reg.FLG_CTL 13 12) ∧ ((view (later s dt) i).offOf since ≤ (↑((view (later s dt) i).winStart ↑k) - 200) * 65536 ∨ (view (later s dt) i).cycleOf since < (view (later s dt) i).cycleOf ((view (later s dt) i).ct32 / ↑(2 ^ 16)))) ∧
    (∃ (s : State) (dt : Nat) (i : StrandId) (p : Fin 4) (bs : List Byte), Active (later s dt) i ∧ (view (later s dt) i).flgState ≠ 0 ∧ ¬((view (later s dt) i).flgRole = 1 ∧ (view (later s dt) i).flgPos = 0) ∧ (view (later s dt) i).flgState = 1 ∧ (view (later s dt) i).alignTaken (↑p) bs ((view (later s dt) i).flgWhenEnd (↑p) bs) = true) :=
  ⟨⟨(Ring.fl Ring.M 3 (Ring.win 7 0 2000 0 0 0xF54)), 5, .loupe, 0, 7, (List.replicate 60 0), by decide +kernel⟩,
    ⟨(Ring.fl Ring.N5 3), 5, (.host true), 0, 7, 2, (Ring.hd 0 4 0 0 6), by decide +kernel⟩,
    ⟨(Ring.fl (Ring.N5 + 0x80000) 3), 5, 0, 2, (Ring.hd 0 4 0 0 5), by decide +kernel⟩,
    ⟨(Ring.fl Ring.M 3 (Ring.win 7 0 2000 2 0 0x154)), 5, 0, 7, by decide +kernel⟩,
    ⟨(Ring.fl Ring.M 3 fun x => Ring.stg (Ring.win 7 0 2000 0 0 0xF54 x)), 5, 0, 7, [1,2,3], 6, true, 0, by decide +kernel⟩,
    ⟨(Ring.fl Ring.N5 1 fun x => x.wr (Reg.PORT_STAT 2) 0x40000000), 5, 0, 2, (Ring.hd 1 4 0 0 6), by decide +kernel⟩⟩

theorem wit_FiligreeCoupler :
    (∃ (s : State) (dt : Nat) (m : Master) (i : StrandId) (p : Fin 4) (bs : List Byte) (t : ℤ), Active (later s dt) i ∧ (view (later s dt) i).flgState ≠ 0 ∧ (view (later s dt) i).flg.req.get none ↑p = some (be16 bs 50, t) ∧ (view (later s dt) i).bit (Reg.PORT_STAT ↑p) 30 = false ∧ (view (later s dt) i).flgRole = 2 ∧ (view (later s dt) i).flgPort ↑p = true ∧ (view (later s dt) i).flgSpeedOk ↑p = true ∧ (view (later s dt) i).bit (Reg.PORT_STAT ↑p) 31 = false ∧ (view (later s dt) i).flgState = 3 ∧ flgHdrOk bs = true ∧ flgType bs = 2 ∧ Reaches (later s dt) m i) ∧
    (∃ (s : State) (dt : Nat) (m : Master) (i : StrandId) (p : Fin 4) (bs : List Byte), Active (later s dt) i ∧ (view (later s dt) i).flgState ≠ 0 ∧ (view (later s dt) i).flgRole = 2 ∧ (view (later s dt) i).flgPort ↑p = true ∧ (view (later s dt) i).flgSpeedOk ↑p = true ∧ (view (later s dt) i).bit (Reg.PORT_STAT ↑p) 31 = true ∧ flgHdrOk bs = false ∧ Reaches (later s dt) m i) ∧
    (∃ (s : State) (dt : Nat) (i : StrandId) (p : Fin 4) (bs : List Byte), Active (later s dt) i ∧ (view (later s dt) i).flgState ≠ 0 ∧ (view (later s dt) i).flgRole = 2 ∧ (view (later s dt) i).flgPort ↑p = true ∧ (view (later s dt) i).flgSpeedOk ↑p = true ∧ (view (later s dt) i).bit (Reg.PORT_STAT ↑p) 31 = true ∧ flgHdrOk bs = true ∧ flgType bs = 2) ∧
    (∃ (s : State) (dt : Nat) (i : StrandId) (p : Fin 4), Active (later s dt) i ∧ (view (later s dt) i).flgState ≠ 0 ∧ (view (later s dt) i).flgState ≠ 3 ∧ (view (later s dt) i).flgPorts = [↑p] ∧ (view (later s dt) i).flgSpeedOk ↑p = true ∧ (later s dt).phase i = Phase.run) ∧
    (∃ (s : State) (dt : Nat) (i : StrandId) (p : Fin 4) (bs : List Byte), Active (later s dt) i ∧ (view (later s dt) i).flgState ≠ 0 ∧ (view (later s dt) i).flgRole = 2 ∧ (view (later s dt) i).flgPort ↑p = true ∧ (view (later s dt) i).flgSpeedOk ↑p = true ∧ (view (later s dt) i).bit (Reg.PORT_STAT ↑p) 31 = false ∧ (view (later s dt) i).flgState = 3 ∧ (view (later s dt) i).flg.hist.get [] ↑p = [] ∧ 1 < (view (later s dt) i).fld Reg.BZ_CFG 15 8 ∧ flgHdrOk bs = false) ∧
    (∃ (s : State) (dt : Nat) (i : StrandId) (p : Fin 4) (bs : List Byte), Active (later s dt) i ∧ (view (later s dt) i).flgState ≠ 0 ∧ (view (later s dt) i).flgRole = 2 ∧ (view (later s dt) i).flgPort ↑p = true ∧ (view (later s dt) i).flgSpeedOk ↑p = true ∧ (view (later s dt) i).bit (Reg.PORT_STAT ↑p) 31 = false ∧ (view (later s dt) i).flgState = 3 ∧ (view (later s dt) i).flg.hist.get [] ↑p = [] ∧ 1 < (view (later s dt) i).fld Reg.BZ_CFG 15 8 ∧ flgHdrOk bs = true ∧ flgType bs = 0 ∧ 63 < flgSrc bs ∧ (view (later s dt) i).winAt ((view (later s dt) i).launchTime (↑p) ((view (later s dt) i).flgWhen (↑p) (byteCycle ((view (later s dt) i).speedAct ↑p) 0 18))) = none) ∧
    (∃ (s : State) (dt : Nat) (i : StrandId) (p : Fin 4) (q : Nat) (t : ℤ) (owed : List (Nat × Nat × ℤ)), Active (later s dt) i ∧ (view (later s dt) i).flgState ≠ 0 ∧ (view (later s dt) i).flg.owed = (↑p, q, t) :: owed ∧ (view (later s dt) i).flgSpeedOk ↑p = true ∧ (later s dt).phase i = Phase.run) ∧
    (∃ (s : State) (dt : Nat) (i : StrandId) (p : Fin 4) (h : BzFrame), Active (later s dt) i ∧ (view (later s dt) i).flgState ≠ 0 ∧ (view (later s dt) i).flgRole = 2 ∧ (later s dt).phase i = Phase.run ∧ (view (later s dt) i).arbOrder = [(↑p, h)] ∧ (view (later s dt) i).arbReady [(↑p, h)] = false) ∧
    (∃ (s : State) (dt : Nat) (i : StrandId) (p : Fin 4) (o : Fin 4) (h : BzFrame), Active (later s dt) i ∧ (view (later s dt) i).flgState ≠ 0 ∧ (view (later s dt) i).flgRole = 2 ∧ (later s dt).phase i = Phase.run ∧ (view (later s dt) i).arbOrder = [(↑p, h)] ∧ (view (later s dt) i).arbReady [(↑p, h)] = true ∧ h.stop ≤ (view (later s dt) i).now ∧ flgType h.frame.bytes = 0 ∧ (List.filter (fun x => x != ↑p) (view (later s dt) i).flgPorts = [↑o]) ∧ (view (later s dt) i).flgSpeedOk ↑o = true ∧ (view (later s dt) i).laneOut o ((view (later s dt) i).now + bytesCycles ((view (later s dt) i).speedAct ↑p) 8) = (view (later s dt) i).now + bytesCycles ((view (later s dt) i).speedAct ↑p) 8 ∧ (view (later s dt) i).ct32 / ↑(2 ^ 16) + ↑(bytesCycles ((view (later s dt) i).speedAct ↑p) (12 + h.frame.bytes.length) * 65536) ≤ h.cycle + ↑(((view (later s dt) i).winStart h.win + (view (later s dt) i).winLen h.win + ((view (later s dt) i).flgGuard + (view (later s dt) i).flgSlack)) * 65536)) ∧
    (∃ (s : State) (dt : Nat) (i : StrandId) (p : Fin 4) (h : BzFrame), Active (later s dt) i ∧ (view (later s dt) i).flgState ≠ 0 ∧ (view (later s dt) i).flg.arriving.get none ↑p = some h ∧ h.stop ≤ (view (later s dt) i).now) ∧
    (∃ (s : State) (dt : Nat) (i : StrandId) (p : Fin 4) (o : Fin 4) (h : BzFrame) (g : PtCur), Active (later s dt) i ∧ (view (later s dt) i).flgState ≠ 0 ∧ (view (later s dt) i).flg.arriving.get none ↑p = some h ∧ (view (later s dt) i).now < h.stop ∧ h.cycle + ↑(((view (later s dt) i).winStart h.win + (view (later s dt) i).winLen h.win + (view (later s dt) i).flgGuard) * 65536) ≤ (view (later s dt) i).ct32 / ↑(2 ^ 16) - ↑(BitVec.toNat ((view (later s dt) i).rd (Reg.LINK_DELAY ↑p))) ∧ (view (later s dt) i).winKind h.win ≠ 1 ∧ (view (later s dt) i).flg.hist.get [] ↑p = [] ∧ 1 < (view (later s dt) i).fld Reg.BZ_CFG 15 8 ∧ ((view (later s dt) i).port p).rx = none ∧ ((view (later s dt) i).chan o).frames = [g] ∧ g.flg = 1 ∧ g.src = ↑p ∧ g.edits = [] ∧ 0 < (view (later s dt) i).ptSent g ∧ (∀ (n : Fin 4), n ≠ o → ((view (later s dt) i).chan n).frames = [])) ∧
    (∃ (s : State) (dt : Nat) (i : StrandId) (p : Fin 4) (o : Fin 4) (bs : List Byte) (k : Nat), Active (later s dt) i ∧ (view (later s dt) i).flgState ≠ 0 ∧ (view (later s dt) i).flgRole = 2 ∧ (view (later s dt) i).flgPort ↑p = true ∧ (view (later s dt) i).flgSpeedOk ↑p = true ∧ (view (later s dt) i).bit (Reg.PORT_STAT ↑p) 31 = false ∧ (view (later s dt) i).flgState = 3 ∧ flgHdrOk bs = true ∧ flgType bs = 0 ∧ (view (later s dt) i).winAt ((view (later s dt) i).launchTime (↑p) ((view (later s dt) i).flgWhen (↑p) (byteCycle ((view (later s dt) i).speedAct ↑p) 0 18))) = some k ∧ (view (later s dt) i).winKind k = 0 ∧ flgSrc bs = (view (later s dt) i).winOwner k ∧ (view (later s dt) i).fld (Reg.BZ_NODE_PORT ((view (later s dt) i).winOwner k / 16)) (2 * ((view (later s dt) i).winOwner k % 16) + 1) (2 * ((view (later s dt) i).winOwner k % 16)) = ↑p ∧ flgRowF bs = (view (later s dt) i).rowOf ((view (later s dt) i).launchTime (↑p) ((view (later s dt) i).flgWhen (↑p) (byteCycle ((view (later s dt) i).speedAct ↑p) 0 18))) ∧ flgWinF bs = k ∧ (↑p, k) ∉ (view (later s dt) i).flg.taken ∧ (view (later s dt) i).bit Reg.FLG_CTL 11 = false ∧ (List.filter (fun x => x != ↑p) (view (later s dt) i).flgPorts = [↑o]) ∧ (view (later s dt) i).flgSpeedOk ↑o = true ∧ (view (later s dt) i).laneOut o (max (view (later s dt) i).now ((view (later s dt) i).flgNominal (↑p) ((view (later s dt) i).now - byteCycle ((view (later s dt) i).speedAct ↑p) 0 18))) = max (view (later s dt) i).now ((view (later s dt) i).flgNominal (↑p) ((view (later s dt) i).now - byteCycle ((view (later s dt) i).speedAct ↑p) 0 18)) ∧ (later s dt).phase i = Phase.run) :=
  ⟨⟨(Ring.flq fun f => {f with req := ⟨[(1,some (4,4)),(2,some (0,88))]⟩}), 5, (.core 0), 0, 2, (Ring.hd 2 4 0 0 5), 88, by decide +kernel⟩,
    ⟨(Ring.flq id fun x => (x.wr (Reg.PORT_STAT 2) 0x80330000).wr (Reg.DEV_MIN 4) 5), 5, (.host false), 0, 2, (List.replicate 60 0), by decide +kernel⟩,
    ⟨(Ring.flq id fun x => x.wr (Reg.PORT_STAT 2) 0x80330000), 5, 0, 2, (Ring.hd 2 4 0 0 5), by decide +kernel⟩,
    ⟨(Ring.fl (0x80040000) 2), 5, 0, 2, by decide +kernel⟩,
    ⟨(Ring.flq id fun x => (x.wr (Reg.BZ_CFG) 0x300)), 5, 0, 2, (List.replicate 60 0), by decide +kernel⟩,
    ⟨(Ring.flq id fun x => (x.wr (Reg.BZ_CFG) 0x300)), 5, 0, 2, (Ring.hd 0 0xFF 0 0 3), by decide +kernel⟩,
    ⟨(Ring.flq fun f => {f with owed := [(2,9,88),(1,2,3)]}), 5, 0, 2, 9, 88, [(1,2,3)], by decide +kernel⟩,
    ⟨(Ring.flq (fun f => {f with arb := ⟨[(2,some Ring.hh)]⟩}) fun x => Ring.win 7 0 60000 0 4 0 ((x.wr (Reg.BZ_CFG) 0x300))), 5, 0, 2, Ring.hh, by decide +kernel⟩,
    ⟨(Ring.flq (fun f => {f with arb := ⟨[(2,some Ring.h3)]⟩}) fun x => Ring.win 7 0 60000 0 4 0 ((x.wr (Reg.BZ_CFG) 0x300).wr Reg.FLG_GUARD 1000)), 5, 0, 2, 1, Ring.h3, by decide +kernel⟩,
    ⟨(Ring.flq (fun f => {f with arriving := ⟨[(2,some Ring.h3)]⟩}) fun x => (Ring.win 7 0 60000 0 4 0 (x.wr (Reg.BZ_CFG) 0x300)).setChan 1 {frames := [Ring.gg]}), 5, 0, 2, Ring.h3, by decide +kernel⟩,
    ⟨(Ring.flq (fun f => {f with arriving := ⟨[(2,some Ring.h2)]⟩}) fun x => (Ring.win 7 0 60000 0 4 0 (x.wr (Reg.BZ_CFG) 0x300)).setChan 1 {frames := [Ring.gg]}), 90, 0, 2, 1, Ring.h2, Ring.gg, by decide +kernel⟩,
    ⟨(Ring.flq (fun f => {f with ctOfs := 20000*4294967296}) fun x => Ring.win 7 0 60000 0 4 0 ((x.wr (Reg.BZ_CFG) 0x300).wr (Reg.BZ_NODE_PORT 0) 0x200)), 5, 0, 2, 1, (Ring.hd 0 4 0 7 3), 7, by decide +kernel⟩⟩

theorem wit_MapperRuns :
    (∃ (s : State) (dt : Nat) (m : Master) (i : StrandId) (num : Nat) (inOnly : Bool), Reaches (later s dt) m i ∧ (view (later s dt) i).fld Reg.MAP_CTL 31 30 = 0 ∧ (view (later s dt) i).map.refused = false ∧ Active (later s dt) i ∧ (view (later s dt) i).mapTarget = false ∧ (view (later s dt) i).map.run = some (num, inOnly) ∧ (view (later s dt) i).bit Reg.MAP_CTL 23 = false) ∧
    (∃ (s : State) (dt : Nat) (m : Master) (i : StrandId), Reaches (later s dt) m i ∧ (view (later s dt) i).fld Reg.MAP_CTL 31 30 ≠ 0 ∧ Active (later s dt) i ∧ (view (later s dt) i).fld Reg.MAP_CTL 31 30 = 1 ∧ (view (later s dt) i).timeRunning = true ∧ (view (later s dt) i).mapTarget = true ∧ (view (later s dt) i).map.refused = false) :=
  ⟨⟨(Image.mp 0 fun m => {m with any := true, run := some (7,true)}), 5, (.host true), 0, 7, true, by decide +kernel⟩,
    ⟨(Image.mp 0x40000000 id fun x => x.wr Reg.MAP_PERIOD 5), 5, (.core 0), 0, by decide +kernel⟩⟩

theorem wit_StateMachinesAndPackages :
    (∃ (s : State) (dt : Nat) (i : StrandId) (k : Nat) (a : Nat) (on : Bool) (p : Pkg), Active (later s dt) i ∧ ((later s dt).strand i).pkgs[k]? = some p ∧ CoreBlock (later s dt) i a 532 ∧ ((later s dt).strand i).memWord a % 2 ^ 16 = p.id ∧ (((later s dt).strand i).memWord a / 2 ^ 16 = if on = true then 2 else 3) ∧ (later s dt).phase i = Phase.run ∧ ((later s dt).strand i).memWord a / 2 ^ 16 ≠ 1) ∧
    (∃ (s : State) (dt : Nat) (i : StrandId) (c : Nat) (ev : Nat), Active (later s dt) i ∧ c < ((later s dt).strand i).nCtx ∧ bitN (((later s dt).strand i).ctxWord c 0) 31 = true ∧ ((later s dt).strand i).banks.mem.wf = true ∧ Idle (later s dt) i ∧ lowestBit (((later s dt).strand i).ctxWord c 4) = some ev ∧ ev ≠ 7 ∧ ((later s dt).strand i).machines.get none (bitsN (((later s dt).strand i).ctxWord c 0) 23 16) ≠ none ∧ (((((later s dt).strand i).machines.get none (bitsN (((later s dt).strand i).ctxWord c 0) 23 16)).getD 0) + 16 + 4 * (32 * bitsN (((later s dt).strand i).ctxWord c 0) 15 8 + ev) + 4 ≤ ((later s dt).strand i).ctxAddr c ∨ ((later s dt).strand i).ctxAddr c + 8 ≤ ((((later s dt).strand i).machines.get none (bitsN (((later s dt).strand i).ctxWord c 0) 23 16)).getD 0) + 16 + 4 * (32 * bitsN (((later s dt).strand i).ctxWord c 0) 15 8 + ev)) ∧ (((((later s dt).strand i).machines.get none (bitsN (((later s dt).strand i).ctxWord c 0) 23 16)).getD 0) + 4 ≤ ((later s dt).strand i).ctxAddr c ∨ ((later s dt).strand i).ctxAddr c + 8 ≤ ((((later s dt).strand i).machines.get none (bitsN (((later s dt).strand i).ctxWord c 0) 23 16)).getD 0)) ∧ BitVec.toNat (byteAt (((later s dt).strand i).banks.mem.read (((((later s dt).strand i).machines.get none (bitsN (((later s dt).strand i).ctxWord c 0) 23 16)).getD 0)) 16) 3) ≥ ev ∧ bitN (((later s dt).strand i).memWord (((((later s dt).strand i).machines.get none (bitsN (((later s dt).strand i).ctxWord c 0) 23 16)).getD 0) + 16 + 4 * (32 * bitsN (((later s dt).strand i).ctxWord c 0) 15 8 + ev))) 0 = true ∧ ((later s dt).strand i).ctxWord c 44 ≠ 0 ∧ ((later s dt).strand i).ctxSilent c = true) ∧
    (∃ (s : State) (dt : Nat) (i : StrandId) (c : Nat) (ev : Nat), Active (later s dt) i ∧ c < ((later s dt).strand i).nCtx ∧ bitN (((later s dt).strand i).ctxWord c 0) 31 = true ∧ ((later s dt).strand i).banks.mem.wf = true ∧ Idle (later s dt) i ∧ lowestBit (((later s dt).strand i).ctxWord c 4) = some ev ∧ ((later s dt).strand i).machines.get none (bitsN (((later s dt).strand i).ctxWord c 0) 23 16) = none) ∧
    (∃ (s : State) (dt : Nat) (i : StrandId) (k : Nat) (a : Nat) (p : Pkg), Active (later s dt) i ∧ ((later s dt).strand i).pkgs[k]? = some p ∧ CoreBlock (later s dt) i a 532 ∧ ((later s dt).strand i).memWord a % 2 ^ 16 = p.id ∧ ((later s dt).strand i).memWord a / 2 ^ 16 = 1) ∧
    (∃ (s : State) (dt : Nat) (i : StrandId) (k : Nat) (a : Nat) (p : Pkg), Active (later s dt) i ∧ ((later s dt).strand i).pkgs[k]? = some p ∧ CoreBlock (later s dt) i a 532 ∧ ((later s dt).strand i).memWord a % 2 ^ 16 = p.id ∧ ((later s dt).strand i).memWord a / 2 ^ 16 = 4 ∧ ((later s dt).strand i).memWord (a + 16) < ((later s dt).strand i).nCtx) ∧
    (∃ (s : State) (dt : Nat) (i : StrandId) (k : Nat) (a : Nat) (p : Pkg), Active (later s dt) i ∧ ((later s dt).strand i).pkgs[k]? = some p ∧ CoreBlock (later s dt) i a 532 ∧ ((later s dt).strand i).memWord a % 2 ^ 16 ≠ p.id) ∧
    (∃ (s : State) (dt : Nat) (i : StrandId) (k : Nat) (a : Nat) (on : Bool) (p : Pkg), Active (later s dt) i ∧ ((later s dt).strand i).pkgs[k]? = some p ∧ CoreBlock (later s dt) i a 532 ∧ ((later s dt).strand i).memWord a % 2 ^ 16 = p.id ∧ (((later s dt).strand i).memWord a / 2 ^ 16 = if on = true then 2 else 3) ∧ (later s dt).phase i = Phase.hold) ∧
    (∃ (s : State) (dt : Nat) (i : StrandId) (c : Nat) (ev : Nat), Active (later s dt) i ∧ c < ((later s dt).strand i).nCtx ∧ bitN (((later s dt).strand i).ctxWord c 0) 31 = true ∧ ((later s dt).strand i).banks.mem.wf = true ∧ Idle (later s dt) i ∧ lowestBit (((later s dt).strand i).ctxWord c 4) = some ev ∧ ev ≠ 7 ∧ ((later s dt).strand i).machines.get none (bitsN (((later s dt).strand i).ctxWord c 0) 23 16) ≠ none ∧ (((((later s dt).strand i).machines.get none (bitsN (((later s dt).strand i).ctxWord c 0) 23 16)).getD 0) + 16 + 4 * (32 * bitsN (((later s dt).strand i).ctxWord c 0) 15 8 + ev) + 4 ≤ ((later s dt).strand i).ctxAddr c ∨ ((later s dt).strand i).ctxAddr c + 8 ≤ ((((later s dt).strand i).machines.get none (bitsN (((later s dt).strand i).ctxWord c 0) 23 16)).getD 0) + 16 + 4 * (32 * bitsN (((later s dt).strand i).ctxWord c 0) 15 8 + ev)) ∧ (((((later s dt).strand i).machines.get none (bitsN (((later s dt).strand i).ctxWord c 0) 23 16)).getD 0) + 4 ≤ ((later s dt).strand i).ctxAddr c ∨ ((later s dt).strand i).ctxAddr c + 8 ≤ ((((later s dt).strand i).machines.get none (bitsN (((later s dt).strand i).ctxWord c 0) 23 16)).getD 0)) ∧ (BitVec.toNat (byteAt (((later s dt).strand i).banks.mem.read (((((later s dt).strand i).machines.get none (bitsN (((later s dt).strand i).ctxWord c 0) 23 16)).getD 0)) 16) 3) < ev ∨ bitN (((later s dt).strand i).memWord (((((later s dt).strand i).machines.get none (bitsN (((later s dt).strand i).ctxWord c 0) 23 16)).getD 0) + 16 + 4 * (32 * bitsN (((later s dt).strand i).ctxWord c 0) 15 8 + ev))) 0 = false)) :=
  ⟨⟨(Image.pst 0x20009), 5, 0, 0, 0x60000, true, Image.pk, by decide +kernel⟩,
    ⟨(Image.ctx [(0x20200, 0x80030200),(0x20204,0x28),(0x2022C,9),(0x40000,0x1F000000),(0x40010+4*(64+3),0x05060701)] fun x => {x.wr Reg.TIME_STATUS 0x20 with time := {sec := 4}}), 20, 0, 1, 3, by decide +kernel⟩,
    ⟨(Image.ctx [(0x20200, 0x80040200),(0x20204,0x28)]), 5, 0, 1, 3, by decide +kernel⟩,
    ⟨(Image.pst 0x10009), 5, 0, 0, 0x60000, Image.pk, by decide +kernel⟩,
    ⟨(Image.pst 0x40009), 5, 0, 0, 0x60000, Image.pk, by decide +kernel⟩,
    ⟨(Image.pst 0x40008), 5, 0, 0, 0x60000, Image.pk, by decide +kernel⟩,
    ⟨{dev := (Image.pst 0x30009).dev.updSup 0 fun u => {u with phase := .hold}}, 5, 0, 0, 0x60000, false, Image.pk, by decide +kernel⟩,
    ⟨(Image.ctx [(0x20200, 0x80030200),(0x20204,0x28),(0x2022C,9),(0x40000,0x02000000),(0x40010+4*(64+3),0x05060701)]), 5, 0, 1, 3, by decide +kernel⟩⟩

theorem wit_RingControls :
    (∃ (s : State) (dt : Nat) (m : Master) (i : StrandId) (r : Fin 32) (c : Fin 8) (v : BitVec 16), Reaches (later s dt) m i ∧ v.toNat < ((later s dt).strand i).ringSize ↑r ∧ ((later s dt).strand i).ringOwned ↑r ≤ ((later s dt).strand i).ringDist (↑r) v.toNat ∧ ((later s dt).strand i).ringState ↑r ≠ 2 ∧ (((later s dt).strand i).ringLoc ↑r = true ∨ ((later s dt).strand i).ringState ↑r = 0 ∨ ((later s dt).strand i).ringState ↑r = 3) ∧ ((later s dt).strand i).ringEn ↑r = true ∧ (((later s dt).strand i).ring ↑r).rx = none ∧ (((later s dt).strand i).ringState ↑r ≠ 1 ∨ ((later s dt).strand i).started ↑r = false) ∧ ((later s dt).strand i).ringState ↑r ≠ 0 ∧ ((later s dt).strand i).dma.recs = [] ∧ ((later s dt).strand i).cqEn ↑c = false ∧ ((later s dt).strand i).dma.abort = none) ∧
    (∃ (s : State) (dt : Nat) (m : Master) (i : StrandId) (r : Fin 32), Reaches (later s dt) m i ∧ ((later s dt).strand i).ringEn ↑r = false ∧ ((later s dt).strand i).ringCfgOk ↑r = true ∧ ((later s dt).strand i).ringState ↑r ≠ 1 ∧ (16 ≤ ↑r ∨ (((later s dt).strand i).led ↑r).valid = false) ∧ ((later s dt).strand i).ringLoc ↑r = true ∧ ((later s dt).strand i).ringState ↑r = 0) ∧
    (∃ (s : State) (dt : Nat) (m : Master) (i : StrandId) (r : Fin 32), Reaches (later s dt) m i ∧ ((later s dt).strand i).ringEn ↑r = false ∧ ((later s dt).strand i).ringCfgOk ↑r = true ∧ ((later s dt).strand i).ringState ↑r = 1) ∧
    (∃ (s : State) (dt : Nat) (m : Master) (i : StrandId) (r : Fin 32) (v : BitVec 16), Reaches (later s dt) m i ∧ v.toNat < ((later s dt).strand i).ringSize ↑r ∧ ((later s dt).strand i).ringOwned ↑r ≤ ((later s dt).strand i).ringDist (↑r) v.toNat ∧ ((later s dt).strand i).ringLoc ↑r = false ∧ ((later s dt).strand i).ringState ↑r = 1 ∧ ((later s dt).strand i).ring ↑r = { next := ((later s dt).strand i).ringHead ↑r : Machine.Ring } ∧ ((later s dt).strand i).ringTail ↑r = ((later s dt).strand i).ringHead ↑r ∧ ((later s dt).strand i).ringHead ↑r < ((later s dt).strand i).ringSize ↑r ∧ ((later s dt).strand i).dma.reads = [] ∧ ((later s dt).strand i).dma.waitReads = [] ∧ v.toNat = (((later s dt).strand i).ringHead ↑r + 1) % ((later s dt).strand i).ringSize ↑r ∧ 2 ≤ ((later s dt).strand i).ringSize ↑r) ∧
    (∃ (s : State) (dt : Nat) (m : Master) (i : StrandId) (r : Fin 32) (v : BitVec 16), Reaches (later s dt) m i ∧ (((later s dt).strand i).ringSize ↑r ≤ v.toNat ∨ ((later s dt).strand i).ringDist (↑r) v.toNat < ((later s dt).strand i).ringOwned ↑r)) ∧
    (∃ (s : State) (dt : Nat) (m : Master) (i : StrandId) (r : Fin 32), Reaches (later s dt) m i ∧ ((later s dt).strand i).ringEn ↑r = false ∧ ((later s dt).strand i).ringCfgOk ↑r = false) ∧
    (∃ (s : State) (dt : Nat) (m : Master) (i : StrandId), Reaches (later s dt) m i ∧ ((later s dt).strand i).dma.abort ≠ none) ∧
    (∃ (s : State) (dt : Nat) (m : Master) (i : StrandId) (r : Fin 32), Reaches (later s dt) m i ∧ ((later s dt).strand i).ringEn ↑r = true ∧ (((later s dt).strand i).ring ↑r).rx = none ∧ ((later s dt).strand i).ringState ↑r = 1 ∧ ((later s dt).strand i).started ↑r = true) ∧
    (∃ (s : State) (dt : Nat) (m : Master) (i : StrandId) (r : Fin 32) (v : BitVec 16), Reaches (later s dt) m i ∧ v.toNat < ((later s dt).strand i).ringSize ↑r ∧ ((later s dt).strand i).ringOwned ↑r ≤ ((later s dt).strand i).ringDist (↑r) v.toNat ∧ ((later s dt).strand i).ringState ↑r = 2 ∧ ((later s dt).strand i).ringLoc ↑r = true ∧ ((later s dt).strand i).holdDue ↑r = false) ∧
    (∃ (s : State) (dt : Nat) (m : Master) (i : StrandId) (r : Fin 32), Reaches (later s dt) m i ∧ ((later s dt).strand i).ringEn ↑r = false ∧ ((later s dt).strand i).ringCfgOk ↑r = true ∧ ((later s dt).strand i).ringState ↑r ≠ 1 ∧ ↑r < 16 ∧ (((later s dt).strand i).led ↑r).valid = true ∧ ((later s dt).strand i).ringLoc ↑r = true) :=
  ⟨⟨(Rings.ex (Rings.rg 2 0x20004 1 3 1 1)), 0, (.core 0), 0, 2, 1, 5, by decide +kernel⟩,
    ⟨(Rings.ex (Rings.rg 2 0x20004 0 3 1 0)), 0, (.core 0), 0, 2, by decide +kernel⟩,
    ⟨(Rings.ex (Rings.rg 2 0x20004 0 3 1 1)), 0, (.core 0), 0, 2, by decide +kernel⟩,
    ⟨(Rings.ex fun x => Rings.setR 2 {next := 1} (Rings.rg 2 0x4 1 1 1 1 x)), 0, (.host false), 0, 2, 2, by decide +kernel⟩,
    ⟨(Rings.ex fun x => Rings.setR 2 {next := 1} (Rings.rg 2 0x4 1 3 1 1 x)), 0, (.host false), 0, 2, 2, by decide +kernel⟩,
    ⟨(Rings.ex fun x => (Rings.rg 2 0x4 0 3 1 0 x).wr (cqPage 0 + 8) 0x20000), 0, (.core 0), 0, 2, by decide +kernel⟩,
    ⟨(Rings.ex fun x => {Rings.rg 2 0x20004 1 3 1 1 x with dma := {x.dma with abort := some 5}}), 0, (.core 0), 0, by decide +kernel⟩,
    ⟨(Rings.ex fun x => Rings.setR 2 {items := [{Rings.it0 with step := .committed}]} (Rings.rg 2 0x4 1 3 1 1 x)), 0, (.core 0), 0, 2, by decide +kernel⟩,
    ⟨(Rings.ex fun x => Rings.setR 18 {rx := some Rings.cur} (Rings.rg 18 0x20004 1 2 1 2 x |>.wr (Rings.P 18 + 0x20) 0x100)), 0, (.core 0), 0, 18, 3, by decide +kernel⟩,
    ⟨(Rings.ex fun x => Rings.setR 2 {items := [Rings.it0]} ((Rings.rg 2 0x20004 0 3 1 0 x).setLed 2 {valid := true, acc := 7, sta := 4, cmp := 4, anchored := true, next := 2} |>.setStored 2 [⟨5,1,[[0,0,64,0xE0000000,5,0,0,0]]⟩,⟨6,2,[[0,0,64,0xE0000000,5,0,0,0]]⟩])), 0, (.core 0), 0, 2, by decide +kernel⟩⟩

theorem wit_TxItems :
    (∃ (s : State) (dt : Nat) (i : StrandId) (t : Fin 16) (tag : Nat) (off : Nat) (q : Nat) (data : List Byte) (it : Item) (rd : HostRead), Active (later s dt) i ∧ (view (later s dt) i).dma.reads = [rd] ∧ (view (later s dt) i).dma.waitReads = [] ∧ rd.tag = tag ∧ rd.what = ReadWhat.data (↑t) q off ∧ ((view (later s dt) i).ring ↑t).items = [it] ∧ it.qseq = q ∧ it.dup = false ∧ it.step = ItemStep.reading ∧ it.ended = false) ∧
    (∃ (s : State) (dt : Nat) (i : StrandId) (t : Fin 16) (words : List Word), Active (later s dt) i ∧ (view (later s dt) i).ringState ↑t = 1 ∧ (view (later s dt) i).ringEn ↑t = true ∧ (view (later s dt) i).cqHolds ↑t = false ∧ ((view (later s dt) i).ring ↑t).replay = 0 ∧ (view (later s dt) i).ringLoc ↑t = false ∧ (view (later s dt) i).ringMode ↑t = 1 ∧ ((view (later s dt) i).ring ↑t).asked = false ∧ ((view (later s dt) i).ring ↑t).aborts = [] ∧ ((view (later s dt) i).ring ↑t).own = none ∧ ((view (later s dt) i).ring ↑t).next < (view (later s dt) i).ringSize ↑t ∧ tabFind ((view (later s dt) i).ring ↑t).fetched.cells ((view (later s dt) i).ring ↑t).next = some words ∧ dFirst words = true ∧ dLast words = true ∧ (view (later s dt) i).owns (↑t) ((view (later s dt) i).ring ↑t).next = true ∧ ((view (later s dt) i).led ↑t).valid = true ∧ (view (later s dt) i).itemOk ↑t [words] = true ∧ dQseq words = seqNext ((view (later s dt) i).led ↑t).acc ∧ (view (later s dt) i).storedCount ↑t < 64) ∧
    (∃ (s : State) (dt : Nat) (i : StrandId) (t : Fin 16) (words : List Word), Active (later s dt) i ∧ (view (later s dt) i).ringState ↑t = 1 ∧ (view (later s dt) i).ringEn ↑t = true ∧ (view (later s dt) i).cqHolds ↑t = false ∧ ((view (later s dt) i).ring ↑t).replay = 0 ∧ (view (later s dt) i).ringLoc ↑t = false ∧ (view (later s dt) i).ringMode ↑t = 1 ∧ ((view (later s dt) i).ring ↑t).asked = false ∧ ((view (later s dt) i).ring ↑t).aborts = [] ∧ ((view (later s dt) i).ring ↑t).own = none ∧ ((view (later s dt) i).ring ↑t).next < (view (later s dt) i).ringSize ↑t ∧ tabFind ((view (later s dt) i).ring ↑t).fetched.cells ((view (later s dt) i).ring ↑t).next = some words ∧ dFirst words = true ∧ dLast words = true ∧ (view (later s dt) i).owns (↑t) ((view (later s dt) i).ring ↑t).next = true ∧ ((view (later s dt) i).led ↑t).valid = true ∧ (view (later s dt) i).itemOk ↑t [words] = true ∧ dQseq words ≠ seqNext ((view (later s dt) i).led ↑t).acc ∧ newer (dQseq words) ((view (later s dt) i).led ↑t).acc = true) ∧
    (∃ (s : State) (dt : Nat) (i : StrandId) (t : Fin 16) (words : List Word), Active (later s dt) i ∧ (view (later s dt) i).ringState ↑t = 1 ∧ (view (later s dt) i).ringEn ↑t = true ∧ (view (later s dt) i).cqHolds ↑t = false ∧ ((view (later s dt) i).ring ↑t).replay = 0 ∧ (view (later s dt) i).ringLoc ↑t = false ∧ (view (later s dt) i).ringMode ↑t = 1 ∧ ((view (later s dt) i).ring ↑t).asked = false ∧ ((view (later s dt) i).ring ↑t).aborts = [] ∧ ((view (later s dt) i).ring ↑t).own = none ∧ ((view (later s dt) i).ring ↑t).next < (view (later s dt) i).ringSize ↑t ∧ tabFind ((view (later s dt) i).ring ↑t).fetched.cells ((view (later s dt) i).ring ↑t).next = some words ∧ dFirst words = true ∧ dLast words = true ∧ (view (later s dt) i).owns (↑t) ((view (later s dt) i).ring ↑t).next = true ∧ ((view (later s dt) i).led ↑t).valid = true ∧ (view (later s dt) i).itemOk ↑t [words] = true ∧ dQseq words ≠ seqNext ((view (later s dt) i).led ↑t).acc ∧ newer (dQseq words) ((view (later s dt) i).led ↑t).acc = false ∧ ((view (later s dt) i).ring ↑t).items = []) ∧
    (∃ (s : State) (dt : Nat) (i : StrandId) (r : Fin 32) (n : Nat) (words : List Word), Active (later s dt) i ∧ ((view (later s dt) i).ring ↑r).own = some n ∧ (view (later s dt) i).ringLoc ↑r = false ∧ ((view (later s dt) i).ring ↑r).ownAt ≤ (view (later s dt) i).now ∧ dOwn words = true) ∧
    (∃ (s : State) (dt : Nat) (i : StrandId) (r : Fin 32) (n : Nat) (words : List Word), Active (later s dt) i ∧ ((view (later s dt) i).ring ↑r).own = some n ∧ (view (later s dt) i).ringLoc ↑r = false ∧ ((view (later s dt) i).ring ↑r).ownAt ≤ (view (later s dt) i).now ∧ dOwn words = false) ∧
    (∃ (s : State) (dt : Nat) (i : StrandId) (r : Fin 32) (n : Nat) (tag : Nat) (rd : HostRead), Active (later s dt) i ∧ (view (later s dt) i).dma.reads = [rd] ∧ (view (later s dt) i).dma.waitReads = [] ∧ rd.tag = tag ∧ rd.what = ReadWhat.desc (↑r) n ∧ (view (later s dt) i).owns (↑r) n = true ∧ (view (later s dt) i).ringState ↑r = 1) ∧
    (∃ (s : State) (dt : Nat) (i : StrandId) (r : Fin 32) (n : Nat), Active (later s dt) i ∧ ((view (later s dt) i).ring ↑r).own = some n ∧ (view (later s dt) i).ringLoc ↑r = false ∧ (view (later s dt) i).now < ((view (later s dt) i).ring ↑r).ownAt) ∧
    (∃ (s : State) (dt : Nat) (i : StrandId) (t : Fin 16) (it : Item), Active (later s dt) i ∧ ((view (later s dt) i).ring ↑t).items = [it] ∧ it.step = ItemStep.reading ∧ it.missing = 0 ∧ it.ended = false ∧ it.dup = false ∧ it.replay = false ∧ ↑t ∉ (view (later s dt) i).env.standby ∧ (view (later s dt) i).ringMode ↑t ≠ 1 ∧ (((view (later s dt) i).txFrame (↑t) it).2.2.destinations ((view (later s dt) i).txFrame (↑t) it).2.1 ((view (later s dt) i).txFrame (↑t) it).1).2.admissible (((view (later s dt) i).txFrame (↑t) it).2.2.destinations ((view (later s dt) i).txFrame (↑t) it).2.1 ((view (later s dt) i).txFrame (↑t) it).1).1 ((view (later s dt) i).txFrame (↑t) it).1 = true ∧ (((view (later s dt) i).txFrame (↑t) it).2.2.destinations ((view (later s dt) i).txFrame (↑t) it).2.1 ((view (later s dt) i).txFrame (↑t) it).1).2.mirrored (((view (later s dt) i).txFrame (↑t) it).2.2.destinations ((view (later s dt) i).txFrame (↑t) it).2.1 ((view (later s dt) i).txFrame (↑t) it).1).1 ((view (later s dt) i).txFrame (↑t) it).1 = false ∧ ((((view (later s dt) i).txFrame (↑t) it).2.2.destinations ((view (later s dt) i).txFrame (↑t) it).2.1 ((view (later s dt) i).txFrame (↑t) it).1).2.enqueue (((view (later s dt) i).txFrame (↑t) it).2.2.destinations ((view (later s dt) i).txFrame (↑t) it).2.1 ((view (later s dt) i).txFrame (↑t) it).1).1 ((view (later s dt) i).txFrame (↑t) it).1).2.1 = true) ∧
    (∃ (s : State) (dt : Nat) (i : StrandId) (t : Fin 16) (n : Nat) (it : Item), Active (later s dt) i ∧ ((view (later s dt) i).ring ↑t).items = [it] ∧ it.ended = true ∧ it.dup = false ∧ it.noWb = false ∧ it.noRec = false ∧ it.replay = false ∧ it.status = 0 ∧ (view (later s dt) i).sw.notes = [] ∧ (view (later s dt) i).ringLoc ↑t = false ∧ (view (later s dt) i).cqLoc ((view (later s dt) i).ringCq ↑t) = false ∧ (view (later s dt) i).dma.recs = [] ∧ (view (later s dt) i).dma.reads = [] ∧ 0 < it.n) ∧
    (∃ (s : State) (dt : Nat) (i : StrandId) (t : Fin 16) (it : Item), Active (later s dt) i ∧ ((view (later s dt) i).ring ↑t).items = [it] ∧ it.step = ItemStep.reading ∧ it.missing = 0 ∧ it.ended = false ∧ it.dup = false ∧ it.replay = false ∧ ↑t ∉ (view (later s dt) i).env.standby ∧ (view (later s dt) i).ringMode ↑t = 1) :=
  ⟨⟨(Rings.ex fun x => Rings.reads [Rings.rd0 (.data 2 5 0)] (Rings.setR 2 {items := [Rings.itr]} (Rings.rg 2 0x4 1 3 1 1 x))), 5, 0, 2, 9, 0, 5, [1,2,3], Rings.itr, (Rings.rd0 (.data 2 5 0)), by decide +kernel⟩,
    ⟨(Rings.ff 5), 5, 0, 2, (Rings.ds true 5), by decide +kernel⟩,
    ⟨(Rings.ff 7), 5, 0, 2, (Rings.ds true 7), by decide +kernel⟩,
    ⟨(Rings.ff 4), 5, 0, 2, (Rings.ds true 4), by decide +kernel⟩,
    ⟨(Rings.ex fun x => Rings.setR 2 {own := some 1} (Rings.rg 2 0x4 1 3 1 1 x)), 5, 0, 2, 1, (Rings.ds true 5), by decide +kernel⟩,
    ⟨(Rings.ex fun x => Rings.setR 2 {own := some 1} (Rings.rg 2 0x4 1 3 1 1 x)), 5, 0, 2, 1, (Rings.ds false 5), by decide +kernel⟩,
    ⟨(Rings.ex fun x => Rings.reads [Rings.rd0 (.desc 2 1)] (Rings.setR 2 {} (Rings.rg 2 0x4 1 3 1 1 x))), 5, 0, 2, 1, 9, (Rings.rd0 (.desc 2 1)), by decide +kernel⟩,
    ⟨(Rings.ex fun x => Rings.setR 2 {own := some 1, ownAt := 2000} (Rings.rg 2 0x4 1 3 1 1 x)), 5, 0, 2, 1, by decide +kernel⟩,
    ⟨(Rings.ex fun x => Rings.led 2 {valid := true, acc := 5, sta := 4, cmp := 4} (Rings.setR 2 {items := [Rings.itd]} (Rings.rg 2 0x4 1 3 1 1 x))), 5, 0, 2, Rings.itd, by decide +kernel⟩,
    ⟨(Rings.ex fun x => Rings.led 2 {valid := true, acc := 5, sta := 4, cmp := 4} (Rings.setR 2 {items := [Rings.iteX]} (Rings.rg 2 0x4 1 3 1 1 x))), 5, 0, 2, 1, Rings.iteX, by decide +kernel⟩,
    ⟨(Rings.ex fun x => Rings.led 2 {valid := true, acc := 5, sta := 4, cmp := 4} (Rings.setR 2 {items := [Rings.itc]} (Rings.rg 2 0x40000004 1 3 1 1 x))), 5, 0, 2, Rings.itc, by decide +kernel⟩⟩

theorem wit_RecordsAndCommands :
    (∃ (s : State) (dt : Nat) (i : StrandId) (t : Fin 16) (c : Fin 4) (rec_ : CqRec) (rd : HostRead), Active (later s dt) i ∧ (view (later s dt) i).holdDue (16 + ↑t) = false ∧ (view (later s dt) i).dma.reads = [rd] ∧ rd.what = ReadWhat.back ∧ (view (later s dt) i).dma.waitReads = [] ∧ (view (later s dt) i).dma.recs = [rec_] ∧ rec_.tag = some rd.tag ∧ rec_.cq < 8 ∧ (view (later s dt) i).cqEn rec_.cq = true ∧ (view (later s dt) i).cqLoc rec_.cq = false ∧ (view (later s dt) i).cqFull rec_.cq = false ∧ rec_.key < 16 ∧ ((later s dt).strand i).cmdQueue ↑c = none ∧ BitVec.toNat (((later s dt).strand i).rd Reg.CMDACC_QSEQ) ≠ seqNext (((later s dt).strand i).led (33 + ↑c)).sta) ∧
    (∃ (s : State) (dt : Nat) (i : StrandId) (c : Fin 4) (v : Word) (rd : HostRead), Active (later s dt) i ∧ ((later s dt).strand i).cmdQueue ↑c = some (fieldOf v 26 24) ∧ (∀ j < 4, j ≠ ↑c → ((later s dt).strand i).cmdQueue j ≠ some (fieldOf v 26 24)) ∧ BitVec.toNat (((later s dt).strand i).rd Reg.DMA_CQ_POST_Q) ≠ seqNext (((later s dt).strand i).led (33 + ↑c)).cmp ∧ ((later s dt).strand i).cmdQueue ↑c ≠ none ∧ BitVec.toNat (((later s dt).strand i).rd Reg.CMDACC_QSEQ) ≠ seqNext (((later s dt).strand i).led (33 + ↑c)).acc ∧ newer (BitVec.toNat (((later s dt).strand i).rd Reg.CMDACC_QSEQ)) (((later s dt).strand i).led (33 + ↑c)).acc = false ∧ BitVec.toNat (((later s dt).strand i).rd Reg.CMDACC_QSEQ) = seqNext (((later s dt).strand i).led (33 + ↑c)).sta) ∧
    (∃ (s : State) (dt : Nat) (i : StrandId) (c : Fin 4) (rd : HostRead), Active (later s dt) i ∧ ((later s dt).strand i).cmdQueue ↑c ≠ none ∧ BitVec.toNat (((later s dt).strand i).rd Reg.CMDACC_QSEQ) = seqNext (((later s dt).strand i).led (33 + ↑c)).acc ∧ (((later s dt).strand i).notices ↑c).length < 16) ∧
    (∃ (s : State) (dt : Nat) (i : StrandId) (c : Fin 4) (rd : HostRead), Active (later s dt) i ∧ ((later s dt).strand i).cmdQueue ↑c ≠ none ∧ BitVec.toNat (((later s dt).strand i).rd Reg.CMDACC_QSEQ) ≠ seqNext (((later s dt).strand i).led (33 + ↑c)).acc ∧ newer (BitVec.toNat (((later s dt).strand i).rd Reg.CMDACC_QSEQ)) (((later s dt).strand i).led (33 + ↑c)).acc = true) ∧
    (∃ (s : State) (dt : Nat) (i : StrandId) (c : Fin 4) (rd : HostRead), Active (later s dt) i ∧ ((later s dt).strand i).cmdQueue ↑c ≠ none ∧ BitVec.toNat (((later s dt).strand i).rd Reg.CMDACC_QSEQ) = seqNext (((later s dt).strand i).led (33 + ↑c)).acc ∧ 16 ≤ (((later s dt).strand i).notices ↑c).length) ∧
    (∃ (s : State) (dt : Nat) (i : StrandId) (rec_ : CqRec) (rd : HostRead), Active (later s dt) i ∧ (view (later s dt) i).dma.reads = [rd] ∧ rd.what = ReadWhat.back ∧ (view (later s dt) i).dma.waitReads = [] ∧ (view (later s dt) i).dma.recs = [rec_] ∧ rec_.tag = some rd.tag ∧ rec_.cq < 8 ∧ (view (later s dt) i).cqEn rec_.cq = true ∧ (view (later s dt) i).cqLoc rec_.cq = false ∧ (view (later s dt) i).cqFull rec_.cq = true ∧ rec_.waited = false) ∧
    (∃ (s : State) (dt : Nat) (i : StrandId) (v : Word), Active (later s dt) i ∧ (∀ j < 4, ((later s dt).strand i).cmdQueue j ≠ some (fieldOf v 26 24)) ∧ ((later s dt).strand i).dma.recs = [] ∧ ((later s dt).strand i).cqLoc (fieldOf v 26 24) = true ∧ ((later s dt).strand i).cqEn (fieldOf v 26 24) = true ∧ ((later s dt).strand i).cqFull (fieldOf v 26 24) = false ∧ CoreBlock (later s dt) i (((later s dt).strand i).cqBase (fieldOf v 26 24) + 16 * (((later s dt).strand i).cqTail (fieldOf v 26 24) % 2 ^ 16)) 16) ∧
    (∃ (s : State) (dt : Nat) (i : StrandId) (t : Fin 16) (cur : RxCur), Active (later s dt) i ∧ (view (later s dt) i).ringLoc (16 + ↑t) = false ∧ (view (later s dt) i).cqLoc ((view (later s dt) i).ringCq (16 + ↑t)) = false ∧ (view (later s dt) i).ringEn (16 + ↑t) = true ∧ (view (later s dt) i).dma.recs = [] ∧ (view (later s dt) i).dma.reads = [] ∧ (view (later s dt) i).dma.waitReads = [] ∧ (view (later s dt) i).holdDue (16 + ↑t) = true ∧ ((view (later s dt) i).ring (16 + ↑t)).rx = some cur ∧ cur.used ≠ []) ∧
    (∃ (s : State) (dt : Nat) (i : StrandId) (t : Fin 16) (o : Nat × Nat × Frame) (dsc : List Word), Active (later s dt) i ∧ (view (later s dt) i).ringLoc (16 + ↑t) = false ∧ (view (later s dt) i).cqLoc ((view (later s dt) i).ringCq (16 + ↑t)) = false ∧ (view (later s dt) i).ringEn (16 + ↑t) = true ∧ (view (later s dt) i).dma.recs = [] ∧ (view (later s dt) i).dma.reads = [] ∧ (view (later s dt) i).dma.waitReads = [] ∧ (view (later s dt) i).ringState (16 + ↑t) = 1 ∧ ((view (later s dt) i).ring (16 + ↑t)).rx = none ∧ ((view (later s dt) i).ring (16 + ↑t)).aborts = [] ∧ ((view (later s dt) i).ring (16 + ↑t)).own = none ∧ (view (later s dt) i).sw.toDma = [o] ∧ (view (later s dt) i).rxKey o.1 o.2.1 = 16 + ↑t ∧ (view (later s dt) i).ringHead (16 + ↑t) < (view (later s dt) i).ringSize (16 + ↑t) ∧ (view (later s dt) i).owns (16 + ↑t) ((view (later s dt) i).ringHead (16 + ↑t)) = true ∧ tabFind ((view (later s dt) i).ring (16 + ↑t)).fetched.cells ((view (later s dt) i).ringHead (16 + ↑t)) = some dsc ∧ 256 ≤ dLen dsc ∧ dLen dsc ≤ 16320 ∧ dLen dsc % 64 = 0 ∧ o.2.2.bytes.length ≤ dLen dsc ∧ o.2.2.bytes ≠ [] ∧ rxStatus o.2.2.info = 0) :=
  ⟨⟨(Rings.rec1 (Rings.cq 3 4 1 0 3 false)), 5, 0, 2, 1, Rings.rec0, (Rings.rd0 .back), by decide +kernel⟩,
    ⟨(Rings.cm {acc := 4, sta := 3} 4 3), 5, 0, 1, 0x03110055, (Rings.rd0 .back), by decide +kernel⟩,
    ⟨(Rings.cm {acc := 4, sta := 3} 5 3), 5, 0, 1, (Rings.rd0 .back), by decide +kernel⟩,
    ⟨(Rings.cm {acc := 4, sta := 3} 7 3), 5, 0, 1, (Rings.rd0 .back), by decide +kernel⟩,
    ⟨(Rings.cm {acc := 4, sta := 3} 5 16), 5, 0, 1, (Rings.rd0 .back), by decide +kernel⟩,
    ⟨(Rings.rec1 (Rings.cq 3 4 1 0 0x10000 false)), 5, 0, Rings.rec0, (Rings.rd0 .back), by decide +kernel⟩,
    ⟨(Rings.ex fun x => Rings.own1 (Rings.cq 3 4 1 0 3 true x)), 5, 0, 0x03110055, by decide +kernel⟩,
    ⟨(Rings.rx {rx := some Rings.cur} 2 fun x => x.wr (Rings.P 18 + 0x20) 0), 0, 0, 2, Rings.cur, by decide +kernel⟩,
    ⟨(Rings.rx {fetched := ⟨[(1,Rings.dsr)]⟩} 1 fun x => {x.wr Reg.DMA_RXMAP_H 0x2 with sw := {x.sw with toDma := [(4,0,Rings.fr)]}}), 5, 0, 2, (4,0,Rings.fr), Rings.dsr, by decide +kernel⟩⟩

theorem wit_ClaspRequests :
    (∃ (s : State) (dt : Nat) (b : Bool), (later s dt).clasp.fenced = false ∧ (later s dt).clasp.checking = false ∧ (later s dt).mode ≠ 0 ∧ ((later s dt).link b).up = false) ∧
    (∃ (s : State) (dt : Nat) (b : Bool) (gr : Fin 8) (p : PcqRec), ((later s dt).mg ↑gr).out = [p] ∧ p.back ≠ 0 ∧ p.ready = false ∧ ((later s dt).link b).up = true) ∧
    (∃ (s : State) (dt : Nat), ((later s dt).clasp.fenced = true ∨ (later s dt).clasp.checking = true ∨ (later s dt).mode = 0)) ∧
    (∃ (s : State) (dt : Nat) (i : StrandId) (g : Nat) (b : Bool) (k : Nat) (x : Nat) (q : Nat) (a : Nat) (bs : List Byte) (rest : List HostReq), (later s dt).clasp.q.get i = HostReq.wb b k x q a bs :: rest ∧ k < 16 ∧ (later s dt).txGroup i k = some g ∧ ((later s dt).strand i).ringBase k ≤ a ∧ a < ((later s dt).strand i).ringBase k + 32 * ((later s dt).strand i).ringSize k ∧ ((if oddOf i = true then ((later s dt).mg g).held1 else ((later s dt).mg g).held0).length < 256)) ∧
    (∃ (s : State) (dt : Nat) (i : StrandId) (v : Nat) (ring : Fin 20), (later s dt).dbit (16777344 + 16 * ↑i + 8) 0 = true ∧ (later s dt).linkOpen ((later s dt).dbit (16777344 + 16 * ↑i + 8) 1) = true ∧ ((later s dt).link ((later s dt).dbit (16777344 + 16 * ↑i + 8) 1)).credits ≠ 0 ∧ (later s dt).txGroup i ↑ring = none ∧ (↑ring < 16 → ((later s dt).strand i).ringLoc ↑ring = false) ∧ (later s dt).accMark i ↑ring = some v ∧ ((later s dt).clasp.accs.get none (20 * ↑i + ↑ring) = none ∨ ∃ o ∈ (later s dt).clasp.accs.get none (20 * ↑i + ↑ring), newer v o = true)) ∧
    (∃ (s : State) (dt : Nat) (i : StrandId) (g : Nat) (b : Bool) (k : Nat) (x : Nat) (q : Nat) (a : Nat) (bs : List Byte) (rest : List HostReq), (later s dt).clasp.q.get i = HostReq.wb b k x q a bs :: rest ∧ k < 16 ∧ (later s dt).txGroup i k = some g ∧ ¬(((later s dt).strand i).ringBase k ≤ a ∧ a < ((later s dt).strand i).ringBase k + 32 * ((later s dt).strand i).ringSize k) ∧ (later s dt).phase i = Phase.run ∧ (later s dt).thisCyc.before.get none ↑i = none ∧ bitN (later s dt).cfg.policy 11 = true) ∧
    (∃ (s : State) (dt : Nat) (i : StrandId) (g : Nat) (b : Bool) (k : Nat) (x : Nat) (q : Nat) (a : Nat) (bs : List Byte) (rest : List HostReq), (later s dt).clasp.q.get i = HostReq.wb b k x q a bs :: rest ∧ k < 16 ∧ (later s dt).txGroup i k = some g ∧ ((later s dt).strand i).ringBase k ≤ a ∧ a < ((later s dt).strand i).ringBase k + 32 * ((later s dt).strand i).ringSize k ∧ (256 ≤ (if oddOf i = true then ((later s dt).mg g).held1 else ((later s dt).mg g).held0).length) ∧ ((later s dt).mg g).fullCounted.get false (b2n (oddOf i)) = false) ∧
    (∃ (s : State) (dt : Nat) (i : StrandId) (g : Nat) (b : Bool) (q : Nat) (a : Nat) (cq : Nat) (key : Nat) (ws : List Word) (rest : List HostReq), (later s dt).clasp.q.get i = HostReq.record b cq key a ws :: rest ∧ (later s dt).cqGroup i cq = some g ∧ bitOf ((later s dt).mgCfg g) 30 = false ∧ (later s dt).recordOk g i ws = true ∧ ((later s dt).mg g).first = []) ∧
    (∃ (s : State) (dt : Nat) (i : StrandId) (g : Nat) (b : Bool) (q : Nat) (a : Nat) (cq : Nat) (key : Nat) (ws : List Word) (rest : List HostReq), (later s dt).clasp.q.get i = HostReq.record b cq key a ws :: rest ∧ (later s dt).cqGroup i cq = some g ∧ bitOf ((later s dt).mgCfg g) 30 = true ∧ (later s dt).recordOk g i ws = true ∧ bitOf ((later s dt).mgCfg g) 27 = true ∧ bitOf ((later s dt).mgCfg g) 28 = false ∧ bitOf ((later s dt).mgCfg g) 25 = false ∧ ((later s dt).mg g).state = 1) ∧
    (∃ (s : State) (dt : Nat) (i : StrandId) (v : Nat) (ring : Fin 20), (later s dt).dbit (16777344 + 16 * ↑i + 8) 0 = true ∧ (later s dt).linkOpen ((later s dt).dbit (16777344 + 16 * ↑i + 8) 1) = true ∧ ((later s dt).link ((later s dt).dbit (16777344 + 16 * ↑i + 8) 1)).credits ≠ 0 ∧ (later s dt).txGroup i ↑ring = none ∧ (↑ring < 16 → ((later s dt).strand i).ringLoc ↑ring = false) ∧ (later s dt).accMark i ↑ring = some v ∧ (∃ o ∈ (later s dt).clasp.accs.get none (20 * ↑i + ↑ring), newer v o = false)) ∧
    (∃ (s : State) (dt : Nat) (v : Nat) (gr : Fin 8), bitOf ((later s dt).mgCfg ↑gr) 31 = true ∧ bitOf ((later s dt).mgCfg ↑gr) 30 = false ∧ ((later s dt).mg ↑gr).state = 1 ∧ (later s dt).linkOpen (bitOf ((later s dt).mgCfg ↑gr) 24) = true ∧ ((later s dt).link (bitOf ((later s dt).mgCfg ↑gr) 24)).credits ≠ 0 ∧ (later s dt).groupMark ↑gr = some v ∧ (((later s dt).mg ↑gr).acc = none ∨ ∃ o ∈ ((later s dt).mg ↑gr).acc, newer v o = true)) ∧
    (∃ (s : State) (dt : Nat) (i : StrandId) (g : Nat) (b : Bool) (q : Nat) (a : Nat) (cq : Nat) (key : Nat) (ws : List Word) (rest : List HostReq), (later s dt).clasp.q.get i = HostReq.record b cq key a ws :: rest ∧ (later s dt).cqGroup i cq = some g ∧ (later s dt).recordOk g i ws = false ∧ (later s dt).phase i = Phase.run ∧ (later s dt).thisCyc.before.get none ↑i = none ∧ bitN (later s dt).cfg.policy 11 = true) :=
  ⟨⟨(HostW.d5 fun d => d.setLink true {}), 5, true, by decide +kernel⟩,
    ⟨(HostW.d5 fun d => d.setMg 2 {out := [HostW.pr]}), 5, false, 2, HostW.pr, by decide +kernel⟩,
    ⟨(HostW.d5 fun d => {d with clasp := {d.clasp with fenced := true}}), 5, by decide +kernel⟩,
    ⟨(HostW.d5 fun d => HostW.rb <| HostW.wbq false [] 0 HostW.wb0 (HostW.cfgG 1 HostW.TXG {state := 1} d)), 5, 0, 1, false, 3, 1, 6, 0x4000, [1,2,3], [], by decide +kernel⟩,
    ⟨(HostW.d5 fun d => (HostW.ld 0 2 {valid := true, sta := 6, acc := 5} (d.dwr 0x1000088 1))), 5, 0, 5, 2, by decide +kernel⟩,
    ⟨(HostW.d5 fun d => {HostW.wbq false [HostW.recq] 0 HostW.wb0 (HostW.cfgG 1 HostW.TXG {state := 1} d) with cfg := {d.cfg with policy := 0x800}}), 5, 0, 1, false, 3, 1, 6, 0x4000, [1,2,3], [HostW.recq], by decide +kernel⟩,
    ⟨(HostW.d5 fun d => HostW.rb <| HostW.wbq false [HostW.recq] 0 HostW.wb0 (HostW.cfgG 1 HostW.TXG {state := 1, held0 := List.replicate 256 ⟨1,2,[]⟩} d)), 5, 0, 1, false, 3, 1, 6, 0x4000, [1,2,3], [HostW.recq], by decide +kernel⟩,
    ⟨(HostW.d5 fun d => (HostW.ld 0 3 {valid := true, sta := 6, acc := 6} (HostW.wbq false [] 0 HostW.recq (HostW.cfgG 1 HostW.TXG {state := 1, mark := 6, held0 := [⟨6,2,[]⟩]} d)))), 5, 0, 1, false, 6, 0x5000, 2, 3, [6,7,8,9], [], by decide +kernel⟩,
    ⟨(HostW.d5 fun d => HostW.noL (HostW.ld 0 19 {valid := true, sta := 6, acc := 6} (HostW.wbq false [] 0 HostW.recq (HostW.cfgG 1 HostW.RXG {state := 1, mark := 5, held0 := [⟨6,2,[]⟩]} d)))), 5, 0, 1, false, 6, 0x5000, 2, 3, [6,7,8,9], [], by decide +kernel⟩,
    ⟨(HostW.d5 fun d => let d := (HostW.ld 0 2 {valid := true, sta := 6, acc := 5} (d.dwr 0x1000088 1)); {d with clasp := {d.clasp with accs := ⟨[(2, some 5)]⟩}}), 5, 0, 5, 2, by decide +kernel⟩,
    ⟨(HostW.d5 fun d => HostW.ld 1 3 {valid := true, sta := 6, acc := 5} (HostW.ld 0 3 {valid := true, sta := 6, acc := 5} ((HostW.cfgG 2 HostW.TXG {state := 1, mark := 6, held0 := [⟨6,2,[]⟩]} d)))), 5, 5, 2, by decide +kernel⟩,
    ⟨(HostW.d5 fun d => ({HostW.ld 0 3 {valid := true, sta := 3, acc := 6} (HostW.wbq false [] 0 HostW.recq (HostW.cfgG 1 HostW.TXG {state := 1, mark := 5, held0 := [⟨6,2,[]⟩]} d)) with cfg := {d.cfg with policy := 0x800}})), 5, 0, 1, false, 6, 0x5000, 2, 3, [6,7,8,9], [], by decide +kernel⟩⟩

theorem wit_ClaspControls :
    (∃ (s : State) (dt : Nat) (m : Master) (b : Bool) (g : Fin 8) (tail : BitVec 16) (v : Word) (asked : List Bool), AtClasp (later s dt) m b ∧ bitOf ((later s dt).mgCfg ↑g) 31 = true ∧ bitOf ((later s dt).mgCfg ↑g) 30 = false ∧ (∀ j ∈ List.filter (fun j => (later s dt).live j) [mgStrand ((later s dt).mgCfg ↑g) false, mgStrand ((later s dt).mgCfg ↑g) true], ((later s dt).strand j).ringState (fieldOf ((later s dt).mgCfg ↑g) 11 8) ≠ 2 ∧ tail.toNat < ((later s dt).strand j).ringSize (fieldOf ((later s dt).mgCfg ↑g) 11 8) ∧ ((later s dt).strand j).ringOwned (fieldOf ((later s dt).mgCfg ↑g) 11 8) ≤ ((later s dt).strand j).ringDist (fieldOf ((later s dt).mgCfg ↑g) 11 8) tail.toNat) ∧ ((later s dt).mg ↑g).abort ≠ none ∧ bitOf v 31 = false ∧ (later s dt).mgStopped ((later s dt).mgCfg ↑g) = false ∧ ((later s dt).mg ↑g).abort = some asked ∧ (((List.map (fun o => ((later s dt).strand (mgStrand ((later s dt).mgCfg ↑g) o)).rd Reg.DMA_ABORT_RES) (List.filter (fun o => (later s dt).live (mgStrand ((later s dt).mgCfg ↑g) o)) asked)).all fun y => bitOf y 31) = true) ∧ AtClasp (later s dt) (Master.host b) b ∧ ((later s dt).link b).up = true) ∧
    (∃ (s : State) (dt : Nat) (m : Master) (b : Bool) (g : Fin 8) (i : StrandId) (off : Nat) (n : Nat) (bs : List Byte), AtClasp (later s dt) m b ∧ (bitOf ((later s dt).mgCfg ↑g) 31 = false ∨ bitOf ((later s dt).mgCfg ↑g) 30 = true) ∧ (later s dt).linkOpen b = true ∧ (later s dt).strandsOn = true ∧ off / 67108864 = ↑i ∧ Active (later s dt) i ∧ HostBlock (later s dt) i (off % 67108864) n ∧ n ≤ 512 ∧ HostBlock (later s dt) i (off % 67108864) bs.length) ∧
    (∃ (s : State) (dt : Nat) (m : Master) (b : Bool) (g : Fin 8) (v : Word), AtClasp (later s dt) m b ∧ bitOf ((later s dt).mgCfg ↑g) 31 = true ∧ bitOf ((later s dt).mgCfg ↑g) 30 = false ∧ ((later s dt).mg ↑g).abort = none ∧ bitOf v 31 = false ∧ (later s dt).mgStopped ((later s dt).mgCfg ↑g) = true) ∧
    (∃ (s : State) (dt : Nat) (b : Bool) (i : StrandId) (off : Nat) (n : Nat), (later s dt).linkOpen b = true ∧ (later s dt).strandsOn = true ∧ off / 67108864 = ↑i ∧ ((later s dt).phase i = Phase.off ∨ (later s dt).phase i = Phase.fenced) ∧ 0 < n) ∧
    (∃ (s : State) (dt : Nat) (m : Master) (b : Bool) (g : Fin 8) (v : Word), AtClasp (later s dt) m b ∧ bitOf ((later s dt).mgCfg ↑g) 31 = false ∧ bitOf v 31 = true ∧ fieldOf v 21 19 = 0 ∧ fieldOf v 7 5 = 0 ∧ 4 ≤ fieldOf v 4 0 ∧ fieldOf v 4 0 ≤ 16 ∧ (later s dt).mgRules (↑g) v = true) ∧
    (∃ (s : State) (dt : Nat) (m : Master) (b : Bool) (g : Fin 8) (v : Word), AtClasp (later s dt) m b ∧ bitOf ((later s dt).mgCfg ↑g) 31 = false ∧ bitOf v 31 = true ∧ fieldOf v 21 19 = 0 ∧ fieldOf v 7 5 = 0 ∧ 4 ≤ fieldOf v 4 0 ∧ fieldOf v 4 0 ≤ 16 ∧ (later s dt).mgRules (↑g) v = false) ∧
    (∃ (s : State) (dt : Nat) (g : Fin 8) (asked : List Bool), ((later s dt).mg ↑g).abort = some asked ∧ (((List.map (fun o => ((later s dt).strand (mgStrand ((later s dt).mgCfg ↑g) o)).rd Reg.DMA_ABORT_RES) (List.filter (fun o => (later s dt).live (mgStrand ((later s dt).mgCfg ↑g) o)) asked)).all fun y => bitOf y 31) = false)) :=
  ⟨⟨(HostW.d5 fun d => (HostW.cfgG 1 HostW.TXG {state := 1, mark := 5, abort := some [false,true]} (d.setStrand 0 ((HostW.ring3 (d.strand 0)).wr Reg.DMA_ABORT_RES 0x80010001))).setStrand 1 ((HostW.ring3 (d.strand 1)).wr Reg.DMA_ABORT_RES 0x80000001)), 0, (.host true), true, 1, 7, 1, [false,true], by decide +kernel⟩,
    ⟨(HostW.d5 HostW.hb), 0, (.host true), true, 1, 1, 0x4020008, 8, [1,0,3], by decide +kernel⟩,
    ⟨(HostW.d5 fun d => HostW.cfgG 1 HostW.TXG {state := 1, mark := 5} d), 0, (.host true), true, 1, (BitVec.ofNat 32 (2^26 + 3*2^27 + 2*2^16 + 0x3300 + 4)), by decide +kernel⟩,
    ⟨(HostW.d5 fun d => d.updSup 1 fun x => {x with phase := .fenced}), 0, true, 1, 0x4020008, 8, by decide +kernel⟩,
    ⟨(HostW.d5 id), 0, (.host true), true, 1, (BitVec.ofNat 32 (2^31+2^26 + 3*2^27 + 2*2^16 + 0x3300 + 4)), by decide +kernel⟩,
    ⟨(HostW.d5 id), 0, (.loupe), false, 1, (BitVec.ofNat 32 (2^31+2^26 + 3*2^27 + 2*2^16 + 0x3200 + 4)), by decide +kernel⟩,
    ⟨(HostW.d5 fun d => (HostW.cfgG 1 HostW.TXG {state := 1, mark := 5, abort := some [false,true]} (d.setStrand 0 ((HostW.ring3 (d.strand 0)).wr Reg.DMA_ABORT_RES 0x80010001))).setStrand 1 ((HostW.ring3 (d.strand 1)).wr Reg.DMA_ABORT_RES 1)), 0, 1, [false,true], by decide +kernel⟩⟩

theorem wit_RecoveryWindow :
    (∃ (s : State) (dt : Nat) (b : Bool), ((later s dt).mode = 1 ∨ (later s dt).mode = 11) ∧ ((later s dt).clasp.rec_.isOpen = false ∨ (later s dt).clasp.rec_.owner = b) ∧ (later s dt).clasp.rec_.isOpen = false) ∧
    (∃ (s : State) (dt : Nat) (b : Bool), ((later s dt).mode = 1 ∨ (later s dt).mode = 11) ∧ (later s dt).clasp.rec_.isOpen = true ∧ (later s dt).clasp.rec_.owner ≠ b) ∧
    (∃ (s : State) (dt : Nat) (b : Bool), ((later s dt).mode = 1 ∨ (later s dt).mode = 11) ∧ (later s dt).clasp.rec_.isOpen = true ∧ (later s dt).clasp.rec_.owner = b ∧ ((later s dt).clasp.rec_.len % 4 ≠ 0 ∨ (later s dt).clasp.rec_.len = 0)) ∧
    (∃ (s : State) (dt : Nat) (b : Bool), ((later s dt).mode = 1 ∨ (later s dt).mode = 11) ∧ (later s dt).clasp.rec_.isOpen = true ∧ (later s dt).clasp.rec_.owner = b ∧ (later s dt).clasp.rec_.len ≠ 0 ∧ (later s dt).clasp.rec_.len ≤ 65536 ∧ (later s dt).clasp.rec_.len % 4 = 0 ∧ BitVec.toNat (later s dt).clasp.rec_.offset + (later s dt).clasp.rec_.len ≤ (later s dt).clasp.rec_.next) ∧
    (∃ (s : State) (dt : Nat) (b : Bool), ((later s dt).mode = 1 ∨ (later s dt).mode = 11) ∧ (later s dt).clasp.rec_.isOpen = true ∧ (later s dt).clasp.rec_.owner = b ∧ (later s dt).clasp.rec_.len ≠ 0 ∧ (later s dt).clasp.rec_.len ≤ 65536 ∧ (later s dt).clasp.rec_.len % 4 = 0 ∧ (later s dt).clasp.rec_.next < BitVec.toNat (later s dt).clasp.rec_.offset) ∧
    (∃ (s : State) (dt : Nat) (b : Bool) (flashErr : Bool), ((later s dt).mode = 1 ∨ (later s dt).mode = 11) ∧ (later s dt).clasp.rec_.isOpen = true ∧ (later s dt).clasp.rec_.owner = b ∧ (later s dt).clasp.rec_.len ≠ 0 ∧ (later s dt).clasp.rec_.len ≤ 65536 ∧ (later s dt).clasp.rec_.len % 4 = 0 ∧ BitVec.toNat (later s dt).clasp.rec_.offset = (later s dt).clasp.rec_.next ∧ (later s dt).clasp.rec_.next ≠ 0 ∧ flashErr = false ∧ BitVec.toNat (later s dt).clasp.rec_.offset + (later s dt).clasp.rec_.len ≠ (later s dt).clasp.rec_.total) ∧
    (∃ (s : State) (dt : Nat) (b : Bool) (flashErr : Bool), ((later s dt).mode = 1 ∨ (later s dt).mode = 11) ∧ (later s dt).clasp.rec_.isOpen = true ∧ (later s dt).clasp.rec_.owner = b ∧ (later s dt).clasp.rec_.len ≠ 0 ∧ (later s dt).clasp.rec_.len ≤ 65536 ∧ (later s dt).clasp.rec_.len % 4 = 0 ∧ BitVec.toNat (later s dt).clasp.rec_.offset = (later s dt).clasp.rec_.next ∧ (later s dt).clasp.rec_.next ≠ 0 ∧ flashErr = true) ∧
    (∃ (s : State) (dt : Nat) (b : Bool) (flashErr : Bool) (digestOk : Bool), ((later s dt).mode = 1 ∨ (later s dt).mode = 11) ∧ (later s dt).clasp.rec_.isOpen = true ∧ (later s dt).clasp.rec_.owner = b ∧ (later s dt).clasp.rec_.len ≠ 0 ∧ (later s dt).clasp.rec_.len ≤ 65536 ∧ (later s dt).clasp.rec_.len % 4 = 0 ∧ BitVec.toNat (later s dt).clasp.rec_.offset = (later s dt).clasp.rec_.next ∧ (later s dt).clasp.rec_.next ≠ 0 ∧ flashErr = false ∧ BitVec.toNat (later s dt).clasp.rec_.offset + (later s dt).clasp.rec_.len = (later s dt).clasp.rec_.total ∧ digestOk = false) :=
  ⟨⟨(HostW.r1 id), 0, true, by decide +kernel⟩,
    ⟨(HostW.r1 fun r => {r with isOpen := true, next := 40}), 0, true, by decide +kernel⟩,
    ⟨(HostW.r1 fun r => {r with isOpen := true, owner := true, next := 40, len := 7}), 0, true, by decide +kernel⟩,
    ⟨(HostW.r1 fun r => {r with isOpen := true, owner := true, next := 40, len := 8, offset := 4}), 0, true, by decide +kernel⟩,
    ⟨(HostW.r1 fun r => {r with isOpen := true, owner := true, next := 40, len := 8, offset := 44}), 0, true, by decide +kernel⟩,
    ⟨(HostW.r1 fun r => {r with isOpen := true, owner := true, next := 40, len := 8, offset := 40}), 0, true, false, by decide +kernel⟩,
    ⟨(HostW.r1 fun r => {r with isOpen := true, owner := true, next := 40, len := 8, offset := 40}), 0, true, true, by decide +kernel⟩,
    ⟨(HostW.r1 fun r => {r with isOpen := true, owner := true, next := 40, len := 8, offset := 40, total := 48}), 0, true, false, false, by decide +kernel⟩⟩

theorem wit_CoreArithmetic :
    (∃ (s : State) (dt : Nat) (c : Fin 5) (g : Fin 16), AtCore (later s dt) c ↑g) :=
  ⟨(CoreA.kc (CoreA.W [(1,0x7FFFFFFF),(2,0x80000001)])), 0, 0, 14, by decide +kernel⟩

theorem wit_CoreMultiplyAndDecimal :
    (∃ (s : State) (dt : Nat) (c : Fin 5) (g : Fin 16) (wa : Fin 16) (wb : Fin 16) (x : Nat) (n : Nat) (q : Word) (r : Word), AtCore (later s dt) c ↑g ∧ ((later s dt).coreOf c).reg ↑wb ≠ 0 ∧ (bcdNum (((later s dt).coreOf c).reg ↑wa) = none ∨ bcdNum (((later s dt).coreOf c).reg ↑wb) = none) ∧ 99999999 < BitVec.toNat (((later s dt).coreOf c).reg ↑wa) ∧ (later s dt).coreClocked c = true ∧ ((later s dt).coreOf c).mul = some (n, x) ∧ n ≠ 1 ∧ ((later s dt).coreOf c).div = some (n, q, r) ∧ n < 3 ∧ n < 18) ∧
    (∃ (s : State) (dt : Nat) (c : Fin 5) (g : Fin 16) (wa : Fin 16) (wb : Fin 16) (x : Nat) (y : Nat) (n : Nat) (r : Word), AtCore (later s dt) c ↑g ∧ bcdNum (((later s dt).coreOf c).reg ↑wa) = some x ∧ bcdNum (((later s dt).coreOf c).reg ↑wb) = some y ∧ n + y + b2n ((later s dt).coreOf c).d = x + 10 ^ 8 ∧ (∀ i < 8, fieldOf r (4 * i + 3) (4 * i) = n / 10 ^ i % 10)) ∧
    (∃ (s : State) (dt : Nat) (c : Fin 5) (g : Fin 16) (wb : Fin 16), AtCore (later s dt) c ↑g ∧ ((later s dt).coreOf c).reg ↑wb = 0 ∧ ((later s dt).coreOf c).trapdz = false) ∧
    (∃ (s : State) (dt : Nat) (c : Fin 5) (g : Fin 16) (wb : Fin 16), AtCore (later s dt) c ↑g ∧ ((later s dt).coreOf c).reg ↑wb = 0 ∧ ((later s dt).coreOf c).trapdz = true) ∧
    (∃ (s : State) (dt : Nat) (c : Fin 5) (x : Nat) (q : Word) (r : Word), (later s dt).coreClocked c = true ∧ ((later s dt).coreOf c).mul = some (1, x) ∧ ((later s dt).coreOf c).div = some (1, q, r)) ∧
    (∃ (s : State) (dt : Nat) (c : Fin 5) (g : Fin 16) (wa : Fin 16), AtCore (later s dt) c ↑g ∧ bcdNum (((later s dt).coreOf c).reg ↑wa) = none) ∧
    (∃ (s : State) (dt : Nat) (c : Fin 5) (g : Fin 16) (wa : Fin 16) (wb : Fin 16) (x : Nat) (y : Nat) (n : Nat) (r : Word), AtCore (later s dt) c ↑g ∧ bcdNum (((later s dt).coreOf c).reg ↑wa) = some x ∧ bcdNum (((later s dt).coreOf c).reg ↑wb) = some y ∧ n = x + y + b2n ((later s dt).coreOf c).d ∧ (∀ i < 8, fieldOf r (4 * i + 3) (4 * i) = n / 10 ^ i % 10)) ∧
    (∃ (s : State) (dt : Nat) (c : Fin 5) (g : Fin 16) (wa : Fin 16) (r : Word), AtCore (later s dt) c ↑g ∧ BitVec.toNat (((later s dt).coreOf c).reg ↑wa) ≤ 99999999 ∧ (∀ i < 8, fieldOf r (4 * i + 3) (4 * i) = BitVec.toNat (((later s dt).coreOf c).reg ↑wa) / 10 ^ i % 10)) :=
  ⟨⟨(CoreA.kc fun k => {CoreA.W [(1,0x80000000),(2,0xFFFFFFFF)] k with c := true, mul := some (2,5), div := some (2,4,5)}), 0, 0, 4, 1, 2, 5, 2, 4, 5, by decide +kernel⟩,
    ⟨(CoreA.kc fun k => {CoreA.W [(1,0x5),(2,7)] k with d := true}), 0, 0, 14, 1, 2, 5, 7, 99999997, 0x99999997, by decide +kernel⟩,
    ⟨(CoreA.kc fun k => {CoreA.W [(1,0x80000000)] k with c := true}), 0, 0, 4, 2, by decide +kernel⟩,
    ⟨(CoreA.kc fun k => {CoreA.W [(1,0x80000000)] k with c := true, trapdz := true}), 0, 0, 4, 2, by decide +kernel⟩,
    ⟨(CoreA.kc fun k => {CoreA.W [(1,0x80000000),(2,0xFFFFFFFF)] k with c := true, mul := some (1,5), div := some (1,4,5)}), 0, 0, 5, 4, 5, by decide +kernel⟩,
    ⟨(CoreA.kc fun k => {CoreA.W [(1,0xA),(2,7)] k with c := true}), 0, 0, 4, 1, by decide +kernel⟩,
    ⟨(CoreA.kc fun k => {CoreA.W [(1,0x5),(2,7)] k with c := true, trapdz := true}), 0, 0, 4, 1, 2, 5, 7, 12, 0x12, by decide +kernel⟩,
    ⟨(CoreA.kc fun k => {CoreA.W [(1,0x5),(2,7)] k with c := true, trapdz := true}), 0, 0, 4, 1, 0x5, by decide +kernel⟩⟩

theorem wit_CoreMemory :
    (∃ (s : State) (dt : Nat) (c : Fin 5) (g : Fin 16) (wa : Fin 16) (m : DMode) (f : WbEnt) (rest : List WbEnt), AtCore (later s dt) c ↑g ∧ (¬(wa = 15 ∧ (m = DMode.postInc ∨ m = DMode.preDec))) ∧ (((later s dt).coreOf c).address (↑wa) 4 m.mode).1 % 4 = 0 ∧ ↑c < 4 ∧ (((later s dt).coreOf c).address (↑wa) 4 m.mode).1 < 6291456 ∧ CoreBlock (later s dt) (coreStrand c) (((later s dt).coreOf c).address (↑wa) 4 m.mode).1 4 ∧ ((((later s dt).coreOf c).wbuf.all fun e => !e.meets (((later s dt).coreOf c).address (↑wa) 4 m.mode).1 4) = true) ∧ (((later s dt).coreOf c).address (↑wa) 2 m.mode).1 % 2 = 0 ∧ (((later s dt).coreOf c).address (↑wa) 2 m.mode).1 < 6291456 ∧ CoreBlock (later s dt) (coreStrand c) (((later s dt).coreOf c).address (↑wa) 2 m.mode).1 2 ∧ ((((later s dt).coreOf c).wbuf.all fun e => !e.meets (((later s dt).coreOf c).address (↑wa) 2 m.mode).1 2) = true) ∧ (((later s dt).coreOf c).address (↑wa) 1 m.mode).1 % 1 = 0 ∧ (((later s dt).coreOf c).address (↑wa) 1 m.mode).1 < 6291456 ∧ CoreBlock (later s dt) (coreStrand c) (((later s dt).coreOf c).address (↑wa) 1 m.mode).1 1 ∧ ((((later s dt).coreOf c).wbuf.all fun e => !e.meets (((later s dt).coreOf c).address (↑wa) 1 m.mode).1 1) = true) ∧ coreInRange c (((later s dt).coreOf c).address (↑wa) 4 m.mode).1 = true ∧ ((later s dt).coreOf c).wbuf.length < 8 ∧ coreInRange c (((later s dt).coreOf c).address (↑wa) 2 m.mode).1 = true ∧ coreInRange c (((later s dt).coreOf c).address (↑wa) 1 m.mode).1 = true ∧ ((later s dt).coreOf c).wbuf = f :: rest ∧ f.addr < 6291456 ∧ CoreBlock (later s dt) (coreStrand c) f.addr f.size ∧ rest = [] ∧ (later s dt).coreClocked c = true) ∧
    (∃ (s : State) (dt : Nat) (c : Fin 5) (g : Fin 16) (wa : Fin 16) (m : DMode), AtCore (later s dt) c ↑g ∧ ((later s dt).coreOf c).wbuf = [] ∧ Fetches (later s dt) c ∧ wa = 15 ∧ (m = DMode.postInc ∨ m = DMode.preDec)) ∧
    (∃ (s : State) (dt : Nat) (c : Fin 5) (g : Fin 16) (wa : Fin 16) (m : DMode), AtCore (later s dt) c ↑g ∧ (¬(wa = 15 ∧ (m = DMode.postInc ∨ m = DMode.preDec))) ∧ (((later s dt).coreOf c).address (↑wa) 4 m.mode).1 % 4 = 0 ∧ ↑c < 4 ∧ 6291456 ≤ (((later s dt).coreOf c).address (↑wa) 4 m.mode).1 ∧ ((((later s dt).coreOf c).address (↑wa) 4 m.mode).1 < 4026531840 ∨ 4027580416 ≤ (((later s dt).coreOf c).address (↑wa) 4 m.mode).1) ∧ (((later s dt).coreOf c).address (↑wa) 2 m.mode).1 % 2 = 0 ∧ 6291456 ≤ (((later s dt).coreOf c).address (↑wa) 2 m.mode).1 ∧ ((((later s dt).coreOf c).address (↑wa) 2 m.mode).1 < 4026531840 ∨ 4027580416 ≤ (((later s dt).coreOf c).address (↑wa) 2 m.mode).1) ∧ (((later s dt).coreOf c).address (↑wa) 1 m.mode).1 % 1 = 0 ∧ 6291456 ≤ (((later s dt).coreOf c).address (↑wa) 1 m.mode).1 ∧ ((((later s dt).coreOf c).address (↑wa) 1 m.mode).1 < 4026531840 ∨ 4027580416 ≤ (((later s dt).coreOf c).address (↑wa) 1 m.mode).1)) ∧
    (∃ (s : State) (dt : Nat) (c : Fin 5) (g : Fin 16) (wa : Fin 16) (m : DMode), AtCore (later s dt) c ↑g ∧ (¬(wa = 15 ∧ (m = DMode.postInc ∨ m = DMode.preDec))) ∧ (((later s dt).coreOf c).address (↑wa) 4 m.mode).1 % 4 ≠ 0 ∧ (((later s dt).coreOf c).address (↑wa) 2 m.mode).1 % 2 ≠ 0) ∧
    (∃ (s : State) (dt : Nat) (c : Fin 5) (g : Fin 16) (wa : Fin 16) (m : DMode), AtCore (later s dt) c ↑g ∧ (¬(wa = 15 ∧ (m = DMode.postInc ∨ m = DMode.preDec))) ∧ (((later s dt).coreOf c).address (↑wa) 4 m.mode).1 % 4 = 0 ∧ ↑c = 4 ∧ 268435456 ≤ (((later s dt).coreOf c).address (↑wa) 4 m.mode).1 ∧ (((later s dt).coreOf c).address (↑wa) 4 m.mode).1 + 4 ≤ 270532608 ∧ ((later s dt).coreOf c).wbuf = [] ∧ (((later s dt).coreOf c).address (↑wa) 2 m.mode).1 % 2 = 0 ∧ 268435456 ≤ (((later s dt).coreOf c).address (↑wa) 2 m.mode).1 ∧ (((later s dt).coreOf c).address (↑wa) 2 m.mode).1 + 4 ≤ 270532608 ∧ (((later s dt).coreOf c).address (↑wa) 1 m.mode).1 % 1 = 0 ∧ 268435456 ≤ (((later s dt).coreOf c).address (↑wa) 1 m.mode).1 ∧ (((later s dt).coreOf c).address (↑wa) 1 m.mode).1 + 4 ≤ 270532608) ∧
    (∃ (s : State) (dt : Nat) (c : Fin 5) (g : Fin 16) (wa : Fin 16) (m : DMode) (n : Fin 16), AtCore (later s dt) c ↑g ∧ (¬(wa = 15 ∧ (m = DMode.postInc ∨ m = DMode.preDec))) ∧ (((later s dt).coreOf c).address (↑wa) 4 m.mode).1 % 4 = 0 ∧ ↑c < 4 ∧ (((later s dt).coreOf c).address (↑wa) 4 m.mode).1 = 4026531840 + Reg.BEAD_CMP_MASK ↑n ∧ ((later s dt).coreOf c).wbuf = [] ∧ (((later s dt).coreOf c).address (↑wa) 2 m.mode).1 % 2 = 0 ∧ (((later s dt).coreOf c).address (↑wa) 2 m.mode).1 = 4026531840 + Reg.BEAD_CMP_MASK ↑n ∧ (((later s dt).coreOf c).address (↑wa) 1 m.mode).1 % 1 = 0 ∧ (((later s dt).coreOf c).address (↑wa) 1 m.mode).1 = 4026531840 + Reg.BEAD_CMP_MASK ↑n) ∧
    (∃ (s : State) (dt : Nat) (c : Fin 5) (g : Fin 16) (wa : Fin 16) (m : DMode) (f : WbEnt) (rest : List WbEnt), AtCore (later s dt) c ↑g ∧ (¬(wa = 15 ∧ (m = DMode.postInc ∨ m = DMode.preDec))) ∧ (((later s dt).coreOf c).address (↑wa) 4 m.mode).1 % 4 = 0 ∧ coreInRange c (((later s dt).coreOf c).address (↑wa) 4 m.mode).1 = true ∧ ((later s dt).coreOf c).wbuf.length = 8 ∧ ((later s dt).coreOf c).wbuf = f :: rest ∧ ↑c < 4 ∧ f.addr < 6291456 ∧ CoreBlock (later s dt) (coreStrand c) f.addr f.size ∧ (((later s dt).coreOf c).address (↑wa) 2 m.mode).1 % 2 = 0 ∧ coreInRange c (((later s dt).coreOf c).address (↑wa) 2 m.mode).1 = true ∧ (((later s dt).coreOf c).address (↑wa) 1 m.mode).1 % 1 = 0 ∧ coreInRange c (((later s dt).coreOf c).address (↑wa) 1 m.mode).1 = true) ∧
    (∃ (s : State) (dt : Nat) (c : Fin 5) (g : Fin 16) (wa : Fin 16) (m : DMode) (bs : List Byte), AtCore (later s dt) c ↑g ∧ (¬(wa = 15 ∧ (m = DMode.postInc ∨ m = DMode.preDec))) ∧ (((later s dt).coreOf c).address (↑wa) 1 m.mode).1 % 1 = 0 ∧ ↑c < 4 ∧ (((later s dt).coreOf c).address (↑wa) 1 m.mode).1 < 6291456 ∧ wbForward ((later s dt).coreOf c).wbuf (((later s dt).coreOf c).address (↑wa) 1 m.mode).1 1 = some bs) ∧
    (∃ (s : State) (dt : Nat) (c : Fin 5) (g : Fin 16) (wa : Fin 16) (m : DMode) (bs : List Byte), AtCore (later s dt) c ↑g ∧ (¬(wa = 15 ∧ (m = DMode.postInc ∨ m = DMode.preDec))) ∧ (((later s dt).coreOf c).address (↑wa) 2 m.mode).1 % 2 = 0 ∧ ↑c < 4 ∧ (((later s dt).coreOf c).address (↑wa) 2 m.mode).1 < 6291456 ∧ wbForward ((later s dt).coreOf c).wbuf (((later s dt).coreOf c).address (↑wa) 2 m.mode).1 2 = some bs) ∧
    (∃ (s : State) (dt : Nat) (c : Fin 5) (g : Fin 16) (wa : Fin 16) (m : DMode) (bs : List Byte), AtCore (later s dt) c ↑g ∧ (¬(wa = 15 ∧ (m = DMode.postInc ∨ m = DMode.preDec))) ∧ (((later s dt).coreOf c).address (↑wa) 4 m.mode).1 % 4 = 0 ∧ ↑c < 4 ∧ (((later s dt).coreOf c).address (↑wa) 4 m.mode).1 < 6291456 ∧ wbForward ((later s dt).coreOf c).wbuf (((later s dt).coreOf c).address (↑wa) 4 m.mode).1 4 = some bs) ∧
    (∃ (s : State) (dt : Nat) (c : Fin 5) (f : WbEnt) (rest : List WbEnt) (off : Nat), (later s dt).coreClocked c = true ∧ ((later s dt).coreOf c).wbuf = { addr := off, size := 2, val := f.val : WbEnt } :: rest ∧ ↑c < 4 ∧ 4026531840 ≤ off) ∧
    (∃ (s : State) (dt : Nat) (c : Fin 5) (f : WbEnt) (rest : List WbEnt) (off : Nat) (n : Fin 16), (later s dt).coreClocked c = true ∧ ((later s dt).coreOf c).wbuf = { addr := off, size := 4, val := f.val : WbEnt } :: rest ∧ ↑c < 4 ∧ off = 4026531840 + Reg.BEAD_CMP_MASK ↑n) :=
  ⟨⟨(CoreA.wq [⟨0x20010,4,0x12348678⟩]), 0, 0, 14, 1, (.disp 0), ⟨0x20010,4,0x12348678⟩, [], by decide +kernel⟩,
    ⟨(CoreA.wq []), 0, 0, 14, 15, .preDec, by decide +kernel⟩,
    ⟨(CoreA.kc (CoreA.W [(1,0xF0200000)])), 0, 0, 14, 1, (.disp 0), by decide +kernel⟩,
    ⟨(CoreA.kc (CoreA.W [(1,0x20009)])), 0, 0, 14, 1, (.disp 0), by decide +kernel⟩,
    ⟨(CoreA.kl (CoreA.W [(1,0x10000008)])), 0, 4, 14, 1, (.disp 0), by decide +kernel⟩,
    ⟨(CoreA.kc (CoreA.W [(1,BitVec.ofNat 32 (0xF0000000 + Reg.BEAD_CMP_MASK 3))]) fun x => x.wr (Reg.BEAD_CMP_MASK 3) 0xFEDCBA98), 0, 0, 14, 1, (.disp 0), 3, by decide +kernel⟩,
    ⟨(CoreA.wq (⟨0x20010,4,0x12348678⟩ :: List.replicate 7 ⟨0x20030,4,5⟩)), 0, 0, 14, 1, (.disp 0), ⟨0x20010,4,0x12348678⟩, (List.replicate 7 ⟨0x20030,4,5⟩), by decide +kernel⟩,
    ⟨(CoreA.wq [⟨0x20008,1,0x78⟩]), 0, 0, 14, 1, (.disp 0), [0x78], by decide +kernel⟩,
    ⟨(CoreA.wq [⟨0x20008,2,0x8678⟩]), 0, 0, 14, 1, (.disp 0), [0x78,0x86], by decide +kernel⟩,
    ⟨(CoreA.wq [⟨0x20008,4,0x12348678⟩]), 0, 0, 14, 1, (.disp 0), [0x78,0x86,0x34,0x12], by decide +kernel⟩,
    ⟨(CoreA.wq [⟨0xF0000000 + Reg.BEAD_CMP_MASK 3,2,0x5678⟩]), 0, 0, ⟨0x20008,2,0x5678⟩, [], (0xF0000000 + Reg.BEAD_CMP_MASK 3), by decide +kernel⟩,
    ⟨(CoreA.wq [⟨0xF0000000 + Reg.BEAD_CMP_MASK 3,4,0x12348678⟩]), 0, 0, ⟨0x20008,4,0x12348678⟩, [], (0xF0000000 + Reg.BEAD_CMP_MASK 3), 3, by decide +kernel⟩⟩

theorem wit_CoreFlow :
    (∃ (s : State) (dt : Nat) (c : Fin 5) (g : Fin 16) (wa : Fin 16) (idx : BitVec 8) (word : Word), AtCore (later s dt) c ↑g ∧ BitVec.toNat (((later s dt).coreOf c).reg ↑wa) % 4 = 0 ∧ (later s dt).coreWaits c = true ∧ Fetches (later s dt) c ∧ ((later s dt).coreOf c).tm = false ∧ 13 < idx.toNat ∧ (later s dt).rsvdWord c (BitVec.toNat word) = true ∧ 38 ≤ bitsN (BitVec.toNat word) 27 22 ∧ (later s dt).dtFind c (BitVec.toNat word) = none ∧ (later s dt).coreLive c = true ∧ ((later s dt).coreOf c).ie = true) ∧
    (∃ (s : State) (dt : Nat) (c : Fin 5) (g : Fin 16), Fetches (later s dt) c ∧ ((later s dt).coreOf c).guard ↑g = false) ∧
    (∃ (s : State) (dt : Nat) (c : Fin 5) (g : Fin 16) (wa : Fin 16) (word : Word) (e1 : Nat) (o : DOp) (y : DCore), AtCore (later s dt) c ↑g ∧ BitVec.toNat (((later s dt).coreOf c).reg ↑wa) % 4 ≠ 0 ∧ (later s dt).coreWaits c = false ∧ Fetches (later s dt) c ∧ (later s dt).dtFind c (BitVec.toNat word) = some e1 ∧ ((later s dt).strand (coreStrand c)).fld (dtHdr e1) 2 0 = 0 ∧ ((later s dt).coreOf c).guard (BitVec.toNat word / 2 ^ 28) = true ∧ (Option.map (fun x => DOp.subst (BitVec.toNat (((later s dt).strand (coreStrand c)).rd (dtUctl e1 0))) (BitVec.toNat word) x) (DOp.read (BitVec.toNat (((later s dt).strand (coreStrand c)).rd (dtUop e1 0)))) = some o) ∧ o.reserved = false ∧ o.plain = true ∧ { state := ((later s dt).coreOf c).state, w := (((later s dt).coreOf c).w.set 0 16 0).set 0 17 0, pc := ((later s dt).coreOf c).pc, ml := ((later s dt).coreOf c).ml, mh := ((later s dt).coreOf c).mh, qt := ((later s dt).coreOf c).qt, rm := ((later s dt).coreOf c).rm, dz := ((later s dt).coreOf c).dz, nc := ((later s dt).coreOf c).nc, d := ((later s dt).coreOf c).d, n := ((later s dt).coreOf c).n, z := ((later s dt).coreOf c).z, c := ((later s dt).coreOf c).c, v := ((later s dt).coreOf c).v, tm := ((later s dt).coreOf c).tm, ie := ((later s dt).coreOf c).ie, trapdz := ((later s dt).coreOf c).trapdz, tpc := ((later s dt).coreOf c).tpc, tflags := ((later s dt).coreOf c).tflags, tcause := ((later s dt).coreOf c).tcause, tval := ((later s dt).coreOf c).tval, vbase := ((later s dt).coreOf c).vbase, cycHi := ((later s dt).coreOf c).cycHi, cyc := ((later s dt).coreOf c).cyc, wbuf := ((later s dt).coreOf c).wbuf, mul := ((later s dt).coreOf c).mul, div := ((later s dt).coreOf c).div, wdog := ((later s dt).coreOf c).wdog : DCore }.guard (BitVec.toNat (((later s dt).strand (coreStrand c)).rd (dtUop e1 0)) / 2 ^ 28) = true ∧ { state := ((later s dt).coreOf c).state, w := (((later s dt).coreOf c).w.set 0 16 0).set 0 17 0, pc := ((later s dt).coreOf c).pc, ml := ((later s dt).coreOf c).ml, mh := ((later s dt).coreOf c).mh, qt := ((later s dt).coreOf c).qt, rm := ((later s dt).coreOf c).rm, dz := ((later s dt).coreOf c).dz, nc := ((later s dt).coreOf c).nc, d := ((later s dt).coreOf c).d, n := ((later s dt).coreOf c).n, z := ((later s dt).coreOf c).z, c := ((later s dt).coreOf c).c, v := ((later s dt).coreOf c).v, tm := ((later s dt).coreOf c).tm, ie := ((later s dt).coreOf c).ie, trapdz := ((later s dt).coreOf c).trapdz, tpc := ((later s dt).coreOf c).tpc, tflags := ((later s dt).coreOf c).tflags, tcause := ((later s dt).coreOf c).tcause, tval := ((later s dt).coreOf c).tval, vbase := ((later s dt).coreOf c).vbase, cycHi := ((later s dt).coreOf c).cycHi, cyc := ((later s dt).coreOf c).cyc, wbuf := ((later s dt).coreOf c).wbuf, mul := ((later s dt).coreOf c).mul, div := ((later s dt).coreOf c).div, wdog := ((later s dt).coreOf c).wdog : DCore }.exec (↑c) o = DRes.done y) ∧
    (∃ (s : State) (dt : Nat) (c : Fin 5) (word : Word) (e1 : Nat), Fetches (later s dt) c ∧ (later s dt).dtFind c (BitVec.toNat word) = some e1 ∧ ((later s dt).strand (coreStrand c)).fld (dtHdr e1) 2 0 = 0 ∧ ((later s dt).coreOf c).guard (BitVec.toNat word / 2 ^ 28) = false) ∧
    (∃ (s : State) (dt : Nat) (c : Fin 5), (later s dt).coreLive c = true ∧ (later s dt).atBreak c = true) ∧
    (∃ (s : State) (dt : Nat) (c : Fin 5), (later s dt).coreClocked c = true ∧ ((later s dt).coreOf c).state = CoreState.waiting ∧ (later s dt).coreWaits c = true) ∧
    (∃ (s : State) (dt : Nat) (c : Fin 5) (g : Fin 16), AtCore (later s dt) c ↑g ∧ ((later s dt).coreOf c).tm = true) :=
  ⟨⟨(CoreE.kc id CoreE.irq), 0, 0, 14, 1, 14, 0xFFFFFFFF, by decide +kernel⟩,
    ⟨(CoreE.kc (CoreE.W [(1,0x7FFFFFFC),(2,0x80000001)])), 0, 0, 0, by decide +kernel⟩,
    ⟨(CoreE.kc (CoreE.W [(1,5)]) CoreE.dt), 0, 0, 14, 1, (BitVec.ofNat 32 (14*2^28+0x30*2^22+4*2^18)), 2, (.alu 0 false 4 1 (.imm 7)), (let k := (CoreE.kc (CoreE.W [(1,5)])).dev.strands.q0.core; {k with w := ⟨[(1,5),(4,12)]⟩}), by decide +kernel⟩,
    ⟨(CoreE.kc (CoreE.W [(1,5)]) CoreE.dt), 0, 0, (BitVec.ofNat 32 (0*2^28+0x30*2^22+4*2^18)), 2, by decide +kernel⟩,
    ⟨(CoreE.kc id fun x => x.wr Reg.CORE_BRK1 0x101), 0, 0, by decide +kernel⟩,
    ⟨(CoreE.kc (fun k => {k with state := .waiting}) CoreE.irq), 0, 0, by decide +kernel⟩,
    ⟨(CoreE.kc (fun k => {CoreE.W [(1,0x7FFFFFFD),(2,0x80000001)] k with tm := true, cyc := 12345678901234})), 0, 0, 14, by decide +kernel⟩⟩

theorem wit_CoreControl :
    (∃ (s : State) (dt : Nat) (i : StrandId) (v : Word) (w : Nat) (o : DOp) (y : DCore), Active (later s dt) i ∧ fieldOf v 7 0 ≠ 165 ∧ ((later s dt).strand i).fld Reg.CORE_WDOG 15 0 = 0 ∧ Reaches (later s dt) Master.loupe i ∧ (((later s dt).strand i).core.state = CoreState.running ∨ ((later s dt).strand i).core.state = CoreState.waiting) ∧ (((later s dt).strand i).core.state = CoreState.running ∨ ((later s dt).strand i).core.state = CoreState.halted) ∧ ((later s dt).strand i).core.pc % 4 = 0 ∧ ((later s dt).strand i).core.pc < 6291456 ∧ CoreBlock (later s dt) i ((later s dt).strand i).core.pc 4 ∧ w = leNum (((later s dt).strand i).banks.mem.read ((later s dt).strand i).core.pc 4) ∧ (later s dt).dtFind (Fin.ofNat 5 ↑i) w = none ∧ DOp.read w = some o ∧ o.reserved = false ∧ ((later s dt).strand i).core.guard (w / 2 ^ 28) = true ∧ o.plain = true ∧ { state := CoreState.running, w := ((later s dt).strand i).core.w, pc := ((later s dt).strand i).core.pc, ml := ((later s dt).strand i).core.ml, mh := ((later s dt).strand i).core.mh, qt := ((later s dt).strand i).core.qt, rm := ((later s dt).strand i).core.rm, dz := ((later s dt).strand i).core.dz, nc := ((later s dt).strand i).core.nc, d := ((later s dt).strand i).core.d, n := ((later s dt).strand i).core.n, z := ((later s dt).strand i).core.z, c := ((later s dt).strand i).core.c, v := ((later s dt).strand i).core.v, tm := ((later s dt).strand i).core.tm, ie := ((later s dt).strand i).core.ie, trapdz := ((later s dt).strand i).core.trapdz, tpc := ((later s dt).strand i).core.tpc, tflags := ((later s dt).strand i).core.tflags, tcause := ((later s dt).strand i).core.tcause, tval := ((later s dt).strand i).core.tval, vbase := ((later s dt).strand i).core.vbase, cycHi := ((later s dt).strand i).core.cycHi, cyc := ((later s dt).strand i).core.cyc, wbuf := ((later s dt).strand i).core.wbuf, mul := ((later s dt).strand i).core.mul, div := ((later s dt).strand i).core.div, wdog := ((later s dt).strand i).core.wdog : DCore }.exec (↑i) o = DRes.done y ∧ ((later s dt).strand i).core.state = CoreState.running ∧ ((later s dt).strand i).breakHit = false) ∧
    (∃ (s : State) (dt : Nat) (i : StrandId) (v : Word), Active (later s dt) i ∧ fieldOf v 7 0 = 165 ∧ ((later s dt).strand i).fld Reg.CORE_WDOG 15 0 = 0) ∧
    (∃ (s : State) (dt : Nat) (i : StrandId) (v : Word), Active (later s dt) i ∧ fieldOf v 7 0 = 165 ∧ ((later s dt).strand i).fld Reg.CORE_WDOG 15 0 ≠ 0) ∧
    (∃ (s : State) (dt : Nat) (i : StrandId), Active (later s dt) i ∧ ((later s dt).strand i).core.state = CoreState.running ∧ ((later s dt).strand i).breakHit = true) ∧
    (∃ (s : State) (dt : Nat) (i : StrandId), Reaches (later s dt) Master.loupe i ∧ ((later s dt).strand i).core.state = CoreState.halted) :=
  ⟨⟨(CoreE.kc (fun k => {CoreE.W [(1,5)] k with pc := 0x20000}) fun x => {x.wr (Reg.BANK_OWNER 1) 1 with banks := {x.banks with mem := ((x.wr (Reg.BANK_OWNER 1) 1).memPut 0x20000 (CoreE.o0.encode 14)).banks.mem}}), 0, 0, 0xA6, (CoreE.o0.encode 14), CoreE.o0, (match ({(CoreE.kc (fun k => {CoreE.W [(1,5)] k with pc := 0x20000})).dev.strands.q0.core with state := .running}).exec 0 CoreE.o0 with | .done y => y | _ => {}), by decide +kernel⟩,
    ⟨(CoreE.kc id fun x => x), 0, 0, 0xA5, by decide +kernel⟩,
    ⟨(CoreE.kc id fun x => x.wr Reg.CORE_WDOG 7), 0, 0, 0xA5, by decide +kernel⟩,
    ⟨(CoreE.kc id fun x => x.wr Reg.CORE_BRK1 0x101), 0, 0, by decide +kernel⟩,
    ⟨(CoreE.kc (fun k => {k with state := .halted}) fun x => x), 0, 0, by decide +kernel⟩⟩

theorem wit_Banks :
    (∃ (s : State) (dt : Nat) (m : Master) (i : StrandId) (k : Fin 48) (own : Fin 8) (group : Fin 4) (pwr : Fin 4) (hostB : Bool) (hand : Bool × Word × (Nat × Nat) × Option Nat), (Reaches (later s dt) m i ∨ m = Master.loupe ∧ (later s dt).loupeRuns = true ∧ (later s dt).phase i = Phase.loading ∧ ((later s dt).supOf i).fenceIn = false) ∧ (∀ (l : Bool), m ≠ Master.host l) ∧ (view (later s dt) i).thisCyc.hand.get none ↑k = none ∧ (view (later s dt) i).imageBank ↑k = false ∧ (view (later s dt) i).bankHo ↑k ≠ 0 ∧ ((view (later s dt) i).bit (Reg.BANK_OWNER ↑k) 15 = true ∨ ¬(own ≠ 0 ∧ own ≠ 7 ∧ ((later s dt).phase i = Phase.loading ∨ own ≠ 3 ∧ own ≠ 4))) ∧ (view (later s dt) i).thisCyc.hand.get none (64 + ↑k) = none ∧ ↑pwr ≤ 2 ∧ (view (later s dt) i).bit (Reg.BANK_STATE ↑k) 5 = false ∧ (view (later s dt) i).bankPwr ↑k ≠ ↑pwr ∧ (view (later s dt) i).banks.pwrTo.get none ↑k ≠ some ↑pwr ∧ Reaches (later s dt) (Master.host hostB) i ∧ (Active (later s dt) i ∨ (later s dt).phase i = Phase.loading) ∧ (view (later s dt) i).bankHo ↑k = 1 ∧ (view (later s dt) i).banks.relAt.get 0 ↑k < (later s dt).ns ∧ (view (later s dt) i).bit (Reg.BANK_OWNER ↑k) 15 = true ∧ (view (later s dt) i).banks.pendTo.get (0, 0) ↑k = (↑own, ↑group) ∧ (view (later s dt) i).banks.leaving = [↑k] ∧ (view (later s dt) i).banks.taking = [] ∧ (view (later s dt) i).banks.relAt.get 0 ↑k + 2 ≤ (later s dt).ns ∧ Active (later s dt) i ∧ (64 * (view (later s dt) i).fld Reg.BANK_CTL 31 16 = 0 ∨ (view (later s dt) i).now < (view (later s dt) i).banks.patrolAt + 64 * (view (later s dt) i).fld Reg.BANK_CTL 31 16)) ∧
    (∃ (s : State) (dt : Nat) (m : Master) (i : StrandId) (k : Fin 48) (own : Fin 8) (hand : Bool × Word × (Nat × Nat) × Option Nat), (Reaches (later s dt) m i ∨ m = Master.loupe ∧ (later s dt).loupeRuns = true ∧ (later s dt).phase i = Phase.loading ∧ ((later s dt).supOf i).fenceIn = false) ∧ (∀ (l : Bool), m ≠ Master.host l) ∧ (view (later s dt) i).thisCyc.hand.get none ↑k = none ∧ (view (later s dt) i).imageBank ↑k = false ∧ (view (later s dt) i).bankHo ↑k = 0 ∧ own ≠ 0 ∧ own ≠ 7 ∧ ((later s dt).phase i = Phase.loading ∨ own ≠ 3 ∧ own ≠ 4) ∧ (Active (later s dt) i ∨ (later s dt).phase i = Phase.loading) ∧ ((view (later s dt) i).bankHo ↑k ≠ 1 ∨ (later s dt).ns ≤ (view (later s dt) i).banks.relAt.get 0 ↑k) ∧ Active (later s dt) i ∧ 64 * (view (later s dt) i).fld Reg.BANK_CTL 31 16 ≠ 0 ∧ (view (later s dt) i).banks.patrolAt + 64 * (view (later s dt) i).fld Reg.BANK_CTL 31 16 ≤ (view (later s dt) i).now ∧ (view (later s dt) i).banks.ecc = { : Tab Nat } ∧ (view (later s dt) i).bankPwr ↑k = 0 ∧ (view (later s dt) i).banks.scrubs = [] ∧ (view (later s dt) i).banks.patrol < 16384) ∧
    (∃ (s : State) (dt : Nat) (m : Master) (i : StrandId) (k : Fin 48) (own : Fin 8) (hand : Bool × Word × (Nat × Nat) × Option Nat), (Reaches (later s dt) m i ∨ m = Master.loupe ∧ (later s dt).loupeRuns = true ∧ (later s dt).phase i = Phase.loading ∧ ((later s dt).supOf i).fenceIn = false) ∧ (∀ (l : Bool), m ≠ Master.host l) ∧ (view (later s dt) i).thisCyc.hand.get none ↑k = none ∧ (view (later s dt) i).imageBank ↑k = false ∧ (view (later s dt) i).bankHo ↑k ≠ 0 ∧ (view (later s dt) i).bit (Reg.BANK_OWNER ↑k) 15 = false ∧ own ≠ 0 ∧ own ≠ 7 ∧ ((later s dt).phase i = Phase.loading ∨ own ≠ 3 ∧ own ≠ 4) ∧ (Active (later s dt) i ∨ (later s dt).phase i = Phase.loading) ∧ (view (later s dt) i).bankHo ↑k = 1 ∧ (view (later s dt) i).banks.relAt.get 0 ↑k < (later s dt).ns ∧ (view (later s dt) i).banks.leaving = [↑k] ∧ (view (later s dt) i).banks.taking = [] ∧ (later s dt).ns < (view (later s dt) i).banks.relAt.get 0 ↑k + 2) ∧
    (∃ (s : State) (dt : Nat) (m : Master) (i : StrandId) (k : Fin 48) (hand : Bool × Word × (Nat × Nat) × Option Nat), (Reaches (later s dt) m i ∨ m = Master.loupe ∧ (later s dt).loupeRuns = true ∧ (later s dt).phase i = Phase.loading ∧ ((later s dt).supOf i).fenceIn = false) ∧ (∀ (l : Bool), m ≠ Master.host l) ∧ (view (later s dt) i).thisCyc.hand.get none ↑k = none ∧ (view (later s dt) i).imageBank ↑k = true) ∧
    (∃ (s : State) (dt : Nat) (m : Master) (i : StrandId) (k : Fin 48) (own : Fin 8) (pwr : Fin 4) (hand : Bool × Word × (Nat × Nat) × Option Nat), (Reaches (later s dt) m i ∨ m = Master.loupe ∧ (later s dt).loupeRuns = true ∧ (later s dt).phase i = Phase.loading ∧ ((later s dt).supOf i).fenceIn = false) ∧ (∀ (l : Bool), m ≠ Master.host l) ∧ (view (later s dt) i).thisCyc.hand.get none ↑k = none ∧ (view (later s dt) i).imageBank ↑k = false ∧ (view (later s dt) i).bankHo ↑k = 0 ∧ (¬(own ≠ 0 ∧ own ≠ 7 ∧ ((later s dt).phase i = Phase.loading ∨ own ≠ 3 ∧ own ≠ 4))) ∧ (view (later s dt) i).thisCyc.hand.get none (64 + ↑k) = none ∧ (↑pwr = 3 ∨ (view (later s dt) i).bit (Reg.BANK_STATE ↑k) 5 = true)) ∧
    (∃ (s : State) (dt : Nat) (i : StrandId) (k : Fin 48) (w : Fin 16384) (req : Nat), Active (later s dt) i ∧ (view (later s dt) i).banks.scrubs = [(↑k, ↑w, req)]) ∧
    (∃ (s : State) (dt : Nat) (i : StrandId) (k : Fin 48) (hand : Bool × Word × (Nat × Nat) × Option Nat), (Reaches (later s dt) Master.loupe i ∨ Master.loupe = Master.loupe ∧ (later s dt).loupeRuns = true ∧ (later s dt).phase i = Phase.loading ∧ ((later s dt).supOf i).fenceIn = false) ∧ (view (later s dt) i).thisCyc.hand.get none ↑k = some hand ∧ hand.1 = true) ∧
    (∃ (s : State) (dt : Nat) (i : StrandId) (k : Fin 48) (pwr : Fin 4), (Active (later s dt) i ∨ (later s dt).phase i = Phase.loading) ∧ (view (later s dt) i).banks.pwrTo.get none ↑k = some ↑pwr ∧ ((view (later s dt) i).banks.pwrAt.get (0, 0, 0) ↑k).1 + pwrCycles ((view (later s dt) i).banks.pwrAt.get (0, 0, 0) ↑k).2.2 ↑pwr ≤ (later s dt).ns) ∧
    (∃ (s : State) (dt : Nat) (i : StrandId) (k : Fin 48) (pwr : Fin 4), (Active (later s dt) i ∨ (later s dt).phase i = Phase.loading) ∧ (view (later s dt) i).banks.pwrTo.get none ↑k = some ↑pwr ∧ (later s dt).ns < ((view (later s dt) i).banks.pwrAt.get (0, 0, 0) ↑k).1 + pwrCycles ((view (later s dt) i).banks.pwrAt.get (0, 0, 0) ↑k).2.2 ↑pwr) :=
  ⟨⟨(BankB.stL 10 0x1C002 (2,1)), 0, (.core 1), 1, 7, 2, 1, 1, false, (true, 0, (0, 0), none), by decide +kernel⟩,
    ⟨(BankB.st1 fun x => x.wr Reg.BANK_CTL 0x50000), 500, (.core 1), 1, 7, 5, (true, 0, (0, 0), none), by decide +kernel⟩,
    ⟨(BankB.stL 4 0x10002 (2,1)), 0, (.core 1), 1, 7, 2, (true, 0, (0, 0), none), by decide +kernel⟩,
    ⟨(BankB.st1 fun x => x.wr (Reg.MAP_IMG) 0x180602), 5, (.core 1), 1, 7, (true, 0, (0, 0), none), by decide +kernel⟩,
    ⟨(BankA.st1 id), 0, .loupe, 1, 7, 0, 3, (true, 0, (0, 0), none), by decide +kernel⟩,
    ⟨(BankB.st1 fun x => {x with banks := {x.banks with scrubs := [(7,100,0)], ecc := ⟨[(16384*7+100,1)]⟩, mem := [(0xE0009,6)]}}), 5, 1, 7, 100, 0, by decide +kernel⟩,
    ⟨(BankB.st1 fun x => {x with cyc := {x.cyc with hand := ⟨[(7, some (true, 0, (0, 0), none))]⟩}}), 0, 1, 7, (true, 0, (0, 0), none), by decide +kernel⟩,
    ⟨(BankB.st1 fun x => {x.wr (Reg.BANK_STATE 7) 0xC with banks := {x.banks with pwrTo := ⟨[(7,some 2)]⟩, mem := [(0xE0009,6)]}}), 5, 1, 7, 2, by decide +kernel⟩,
    ⟨(BankB.st1 fun x => {x.wr (Reg.BANK_STATE 7) 0xC with banks := {x.banks with pwrTo := ⟨[(7,some 0)]⟩, pwrAt := ⟨[(7,0,0,1)]⟩, mem := [(0xE0009,6)]}}), 5, 1, 7, 0, by decide +kernel⟩⟩

theorem wit_Hallmarks :
    (∃ (s : State) (dt : Nat) (source : Fin 4) (v : Word), (source = 1 → (later s dt).hm.roseAt + 1000000 ≤ (later s dt).ns) ∧ (later s dt).loupeRuns = true ∧ fieldOf v 15 8 = 90 ∧ fieldOf v 1 0 = (later s dt).hm.lc + 1 ∧ (later s dt).mode ≠ 10 ∧ (later s dt).mode ≠ 11 ∧ (later s dt).por = false ∧ ((later s dt).hm.wiping = false ∨ (later s dt).ns < (later s dt).hm.wipeAt + 20500) ∧ ((later s dt).hm.lcNext = none ∨ (later s dt).hm.wiping = true ∨ (later s dt).ns < (later s dt).hm.wipedAt + 2000000)) ∧
    (∃ (s : State) (dt : Nat) (source early : Fin 4) (v : Word), (source = 1 → (later s dt).hm.roseAt + 1000000 ≤ (later s dt).ns) ∧
      early = 1 ∧ ((later s dt).por = true ∨ (later s dt).ns < (later s dt).hm.roseAt + 1000000) ∧ (later s dt).loupeRuns = true ∧ ¬(fieldOf v 15 8 = 90 ∧ fieldOf v 1 0 = (later s dt).hm.lc + 1) ∧ (later s dt).por = false ∧ (later s dt).mode = 11 ∧ (later s dt).hm.wiping = true ∧ (later s dt).hm.wipeAt + 20500 ≤ (later s dt).ns) ∧
    (∃ (s : State) (dt : Nat) (v : Word), (later s dt).loupeRuns = true ∧ fieldOf v 15 8 = 90 ∧ fieldOf v 1 0 = (later s dt).hm.lc + 1 ∧ ((later s dt).mode = 10 ∨ (later s dt).mode = 11)) ∧
    (∃ (s : State) (dt : Nat) (t : Nat), (later s dt).hm.lcNext = some t ∧ (later s dt).hm.wiping = false ∧ (later s dt).hm.wipedAt + 2000000 ≤ (later s dt).ns) :=
  ⟨⟨(BankB.hv fun h => {h with lc := 1, valid := true}), 1000000, 1, 0x5A02, by decide +kernel⟩,
    ⟨(BankB.hv (fun h => {h with lc := 1, wiping := true, mem:=[(3,4)]}) 11), 30000, 0, 1, 0x5A03, by decide +kernel⟩,
    ⟨(BankB.hv (fun h => {h with lc := 1, valid := true}) 11), 5, 0x5A02, by decide +kernel⟩,
    ⟨(BankB.hv (fun h => {h with lc := 1, lcNext := some 2, mem:=[(3,4)]}) 11), 2000005, 2, by decide +kernel⟩⟩

theorem wit_Lockets :
    (∃ (s : State) (dt : Nat) (m : Master) (c : Fin 64) (id : Fin 8) (j : Bool) (hi : Word), AtChannel (later s dt) m (↑c) j ∧ (bitOf hi 24 = false ∨ (((later s dt).chan ↑c).side j).wait ≠ 1) ∧ (((later s dt).chan ↑c).side !j).rx.length < 4 ∧ bitOf hi 24 = false ∧ (((later s dt).chan ↑c).side j).rx = [] ∧ ((later s dt).chan ↑c).sideOf ↑id = some j ∧ ((((later s dt).chan ↑c).side j).wait ≠ 1 ∨ (later s dt).ns < (((later s dt).chan ↑c).side j).waitAt + 1000 * (((later s dt).chan ↑c).side j).waitUs)) ∧
    (∃ (s : State) (dt : Nat) (m : Master) (c : Fin 64) (id : Fin 8) (j : Bool) (hi : Word) (n : Notice) (rest : List Notice), AtChannel (later s dt) m (↑c) j ∧ bitOf hi 24 = true ∧ (((later s dt).chan ↑c).side j).wait = 1 ∧ (((later s dt).chan ↑c).side j).rx = n :: rest ∧ (later s dt).thisCyc.crossed.get none ↑c = none ∧ (later s dt).thisCyc.refused.get none (2 * ↑c + b2n !j) = none ∧ (n.waited = false ∨ (((later s dt).chan ↑c).side !j).wait ≠ 1) ∧ ((later s dt).chan ↑c).sideOf ↑id = some j ∧ (((later s dt).chan ↑c).side j).waitAt + 1000 * (((later s dt).chan ↑c).side j).waitUs ≤ (later s dt).ns) ∧
    (∃ (s : State) (dt : Nat) (c : Fin 64) (j : Bool), (later s dt).loupeRuns = true ∧ ((later s dt).chan ↑c).sideOf 0 = some j ∧ (later s dt).lktCut ((later s dt).chan ↑c) = true) ∧
    (∃ (s : State) (dt : Nat) (m : Master) (c : Fin 64) (j : Bool) (hi : Word) (n : Notice) (rest : List Notice), AtChannel (later s dt) m (↑c) j ∧ (bitOf hi 24 = false ∨ (((later s dt).chan ↑c).side j).wait ≠ 1) ∧ (((later s dt).chan ↑c).side !j).rx.length < 4 ∧ bitOf hi 24 = true ∧ (((later s dt).chan ↑c).side !j).wait = 1 ∧ j = true ∧ (((later s dt).chan ↑c).side j).rx = n :: rest ∧ (later s dt).thisCyc.crossed.get none ↑c = none ∧ (later s dt).thisCyc.refused.get none (2 * ↑c + b2n !j) = none ∧ n.waited = true) ∧
    (∃ (s : State) (dt : Nat) (m : Master) (c : Fin 64) (j : Bool) (hi : Word), AtChannel (later s dt) m (↑c) j ∧ (bitOf hi 24 = false ∨ (((later s dt).chan ↑c).side j).wait ≠ 1) ∧ (((later s dt).chan ↑c).side !j).rx.length < 4 ∧ bitOf hi 24 = true ∧ (((later s dt).chan ↑c).side !j).wait ≠ 1) ∧
    (∃ (s : State) (dt : Nat) (m : Master) (c : Fin 64) (j : Bool) (hi : Word), AtChannel (later s dt) m (↑c) j ∧ (bitOf hi 24 = false ∨ (((later s dt).chan ↑c).side j).wait ≠ 1) ∧ (((later s dt).chan ↑c).side !j).rx.length < 4 ∧ bitOf hi 24 = true ∧ (((later s dt).chan ↑c).side !j).wait = 1 ∧ j = false) ∧
    (∃ (s : State) (dt : Nat) (m : Master) (c : Fin 64) (j : Bool) (hi : Word), AtChannel (later s dt) m (↑c) j ∧ (bitOf hi 24 = false ∨ (((later s dt).chan ↑c).side j).wait ≠ 1) ∧ 4 ≤ (((later s dt).chan ↑c).side !j).rx.length) :=
  ⟨⟨(Lkt.ch 0x52 id), 5, (.core 1), 9, 5, true, 0x2A1234, by decide +kernel⟩,
    ⟨(Lkt.ch 0x52 fun x => {x with senior := {wait := 1,rx := [Lkt.n2,Lkt.n2,Lkt.n2,Lkt.n2]}, junior := {wait := 1, rx := [Lkt.n2,Lkt.n1]}}), 5, (.core 1), 9, 5, true, 0x12A1234, Lkt.n2, [Lkt.n1], by decide +kernel⟩,
    ⟨(let s := (Lkt.ch 0x50 fun x => {x with senior := {wait := 1,rx := [Lkt.n2,Lkt.n2,Lkt.n2,Lkt.n2]}, junior := {wait := 1, rx := [Lkt.n2,Lkt.n1]}}); {s with dev := s.dev.updSup 1 fun x => {x with fenceIn := true}}), 5, 9, false, by decide +kernel⟩,
    ⟨(Lkt.ch 0x52 fun x => {x with senior := {wait := 1}, junior := {rx := [Lkt.n1,Lkt.n2]}}), 5, (.core 1), 9, true, 0x12A1234, Lkt.n1, [Lkt.n2], by decide +kernel⟩,
    ⟨(Lkt.ch 0x52 id), 5, (.host true), 9, false, 0x12A1234, by decide +kernel⟩,
    ⟨(Lkt.ch 0x52 fun x => {x with junior := {wait := 1}}), 5, (.host true), 9, false, 0x12A1234, by decide +kernel⟩,
    ⟨(Lkt.ch 0x52 fun x => {x with senior := {wait := 1,rx := [Lkt.n2,Lkt.n2,Lkt.n2,Lkt.n2]}, junior := {wait := 1, rx := [Lkt.n2,Lkt.n1]}}), 5, (.core 1), 9, true, 0x02A1234, by decide +kernel⟩⟩

theorem wit_SensorsAndWear :
    (∃ (s : State) (dt : Nat) (r1 : Nat) (r2 : Nat) (i : StrandId) (ts : List ℤ), (later s dt).loupeAwake = true ∧ ts.length = 12 ∧ (∀ t ∈ (later s dt).loupe.tempAt, t + 10 ^ 6 ≤ (later s dt).ns) ∧ (∀ t ∈ (later s dt).loupe.railAt.get i, t + 10 ^ 4 ≤ (later s dt).ns) ∧ (∀ t ∈ (later s dt).loupe.measuredAt.get i, t + 86400 * 10 ^ 9 ≤ (later s dt).ns) ∧ r1 ≤ r2 + 100 ∧ r2 ≤ r1 + 100 ∧ (∀ t ∈ (later s dt).loupe.eqhAt, t + 60 * 10 ^ 9 ≤ (later s dt).ns) ∧ (later s dt).por = false) ∧
    (∃ (s : State) (dt : Nat), (later s dt).loupeAwake = false) ∧
    (∃ (s : State) (dt : Nat) (i : StrandId) (ts : List ℤ), (ts.length ≠ 12 ∨ ¬∀ t ∈ (later s dt).loupe.tempAt, t + 10 ^ 6 ≤ (later s dt).ns) ∧ (¬∀ t ∈ (later s dt).loupe.railAt.get i, t + 10 ^ 4 ≤ (later s dt).ns) ∧ (¬∀ t ∈ (later s dt).loupe.measuredAt.get i, t + 86400 * 10 ^ 9 ≤ (later s dt).ns) ∧ (¬∀ t ∈ (later s dt).loupe.eqhAt, t + 60 * 10 ^ 9 ≤ (later s dt).ns)) ∧
    (∃ (s : State) (dt : Nat) (r1 : Nat) (r2 : Nat) (r3 : Nat) (i : StrandId), (later s dt).loupeAwake = true ∧ (∀ t ∈ (later s dt).loupe.measuredAt.get i, t + 86400 * 10 ^ 9 ≤ (later s dt).ns) ∧ ¬(r1 ≤ r2 + 100 ∧ r2 ≤ r1 + 100) ∧ (r1 ≤ r3 + 100 ∧ r3 ≤ r1 + 100 ∨ r2 ≤ r3 + 100 ∧ r3 ≤ r2 + 100)) ∧
    (∃ (s : State) (dt : Nat) (r1 : Nat) (r2 : Nat) (r3 : Nat) (i : StrandId), (later s dt).loupeAwake = true ∧ (∀ t ∈ (later s dt).loupe.measuredAt.get i, t + 86400 * 10 ^ 9 ≤ (later s dt).ns) ∧ ¬(r1 ≤ r2 + 100 ∧ r2 ≤ r1 + 100) ∧ ¬(r1 ≤ r3 + 100 ∧ r3 ≤ r1 + 100) ∧ ¬(r2 ≤ r3 + 100 ∧ r3 ≤ r2 + 100)) :=
  ⟨⟨(Lpe.lpS (Lpe.C 0x64000000)), 5, 100, 150, 1, Lpe.T, by decide +kernel⟩,
    ⟨(Lpe.lpS (fun l => {Lpe.C 0x64000000 l with safe := true})), 5, by decide +kernel⟩,
    ⟨(Lpe.lpS (fun l => {Lpe.C 0x64000000 l with tempAt := some 0, railAt := Quad.all (some 0), measuredAt := Quad.all (some 0), eqhAt := some 0})), 5, 1, Lpe.T, by decide +kernel⟩,
    ⟨(Lpe.lpS fun l => {Lpe.C 0x64000000 l with hot := ⟨[(11,1)]⟩}), 5, 100, 350, 420, 1, by decide +kernel⟩,
    ⟨(Lpe.lpS (fun l => {Lpe.C 0x64000000 l with hot := ⟨[(11,1)]⟩, peak := Quad.all (some 1500)}) fun d => {d with hm := {d.hm with lc := 1}, mode := 11, flashes := ⟨{present := true}, {fail := true, present:=true}⟩}), 5, 100, 350, 820, 1, by decide +kernel⟩⟩

theorem wit_LogTimeAndNonce :
    (∃ (s : State) (dt : Nat), ((later s dt).por = true ∨ (later s dt).loupe.unflushed = 0 ∨ ∀ (b : Bool), ((later s dt).flash b).logs = false) ∧ (¬((later s dt).loupeAwake = true ∧ (later s dt).timeSourceOk = true ∧ ((later s dt).supOf (Fin.ofNat 4 (fieldOf ((later s dt).lrd Reg.LP_CFG) 23 22))).fenceIn = false ∧ ∀ t ∈ (later s dt).loupe.copyAt, t + 10 ^ 9 ≤ (later s dt).ns)) ∧ (later s dt).ns < (later s dt).loupe.timeAt + 3600 * 10 ^ 9 ∧ (later s dt).ns < (later s dt).loupe.nonceAt + 60 * 10 ^ 9 ∧ (later s dt).por = false ∧ (later s dt).mode ≠ 0) ∧
    (∃ (s : State) (dt : Nat), (later s dt).loupe.timeAt + 3600 * 10 ^ 9 ≤ (later s dt).ns ∧ (later s dt).loupe.nonceAt + 60 * 10 ^ 9 ≤ (later s dt).ns ∧ ((later s dt).por = true ∨ (later s dt).mode = 0)) ∧
    (∃ (s : State) (dt : Nat), (later s dt).por = false ∧ (later s dt).loupe.unflushed ≠ 0 ∧ (∃ b, ((later s dt).flash b).logs = true)) ∧
    (∃ (s : State) (dt : Nat), (later s dt).loupeAwake = true ∧ (later s dt).timeSourceOk = true ∧ ((later s dt).supOf (Fin.ofNat 4 (fieldOf ((later s dt).lrd Reg.LP_CFG) 23 22))).fenceIn = false ∧ (∀ t ∈ (later s dt).loupe.copyAt, t + 10 ^ 9 ≤ (later s dt).ns)) :=
  ⟨⟨(Lpe.flS {present := true} {} fun l => Lpe.C 0x600000 {l with nonce := some 4}), 5, by decide +kernel⟩,
    ⟨(Lpe.flS {present := true} {present := true} (fun l => {l with nonce := some 4}) fun d => {d with por := true}), 3600000000005, by decide +kernel⟩,
    ⟨(Lpe.flS {present := true} {present := true} fun l => {l with log := [Lpe.r0,Lpe.r0], unflushed := 1}), 5, by decide +kernel⟩,
    ⟨(Lpe.flS {present := true} {} (fun l => Lpe.C 0x600000 {l with nonce := some 4}) fun d => d.setStrand 1 {((d.strand 1).wr Reg.TIME_STATUS 0x220) with time := {(d.strand 1).time with stepped := true}}), 5, by decide +kernel⟩⟩

theorem wit_NgufotuQueries_1 :
    (∃ (s : State) (dt : Nat) (h : NguHdr) (i : StrandId) (len : Nat) (path : Nat) (b : Bool) (body : List Byte) (x : Exchange), (later s h.gap).nguPath h.path = false ∧ (later s dt).linkOpen b = true ∧ (later s dt).mailboxOn = true ∧ ((later s dt).link b).busy = false ∧ 32 ≤ len ∧ len ≤ 1441 ∧ ((later s h.gap).strand i).banks.exch = some x ∧ x.resp = some body ∧ ((later s h.gap).supOf i).fenceIn = false ∧ ((later s h.gap).strand i).bankHo x.bank = 0 ∧ x.bank < 48 ∧ Idle (later s h.gap) i ∧ (view (later s h.gap) i).thisCyc.hand.get none x.bank = none ∧ x.back = false ∧ ((later s h.gap).strand i).bankOwner x.bank = 6 ∧ ((later s h.gap).strand i).bankPwr x.bank = 0 ∧ ((later s h.gap).strand i).banks.mem.wf = true ∧ bankNo x.addr = x.bank ∧ x.addr % bankSize + body.length ≤ bankSize ∧ ((later s h.gap).strand i).banks.ecc = { : Tab Nat }) ∧
    (∃ (s : State) (h : NguHdr) (path : Nat) (txn : Nat), Arrives (later s h.gap) h ∧ (later s h.gap).nguServed 1 = true ∧ h.signed = true ∧ (later s h.gap).nguKeyOk h 1 = true ∧ (later s h.gap).nonceOk h.nonce = false ∧ (later s h.gap).nguServed 2 = true ∧ (later s h.gap).nguKeyOk h 2 = true ∧ (later s h.gap).nguServed 3 = true ∧ (later s h.gap).nguKeyOk h 3 = true ∧ (later s h.gap).nguServed 4 = true ∧ (later s h.gap).nguKeyOk h 4 = true ∧ (later s h.gap).nguServed 5 = true ∧ (later s h.gap).nguKeyOk h 5 = true ∧ (later s h.gap).nguServed 6 = true ∧ (later s h.gap).nguKeyOk h 6 = true ∧ (later s h.gap).nguServed 7 = true ∧ (later s h.gap).nguKeyOk h 7 = true ∧ (later s h.gap).nguServed 8 = true ∧ (later s h.gap).nguKeyOk h 8 = true ∧ (later s h.gap).nguServed 256 = true ∧ (later s h.gap).nguKeyOk h 256 = true ∧ (later s h.gap).nguServed 257 = true ∧ (later s h.gap).nguKeyOk h 257 = true ∧ (later s h.gap).nguServed 258 = true ∧ (later s h.gap).nguKeyOk h 258 = true ∧ (later s h.gap).nguServed 259 = true ∧ (later s h.gap).nguKeyOk h 259 = true ∧ (later s h.gap).nguServed 260 = true ∧ (later s h.gap).nguKeyOk h 260 = true ∧ (later s h.gap).nguServed 261 = true ∧ (later s h.gap).nguKeyOk h 261 = true ∧ (later s h.gap).nguServed 262 = true ∧ (later s h.gap).nguKeyOk h 262 = true ∧ (later s h.gap).nguServed 263 = true ∧ (later s h.gap).nguKeyOk h 263 = true ∧ (later s h.gap).nguServed 264 = true ∧ (later s h.gap).nguKeyOk h 264 = true ∧ (later s h.gap).nguServed 265 = true ∧ (later s h.gap).nguKeyOk h 265 = true ∧ (later s h.gap).nguServed 266 = true ∧ (later s h.gap).nguKeyOk h 266 = true ∧ (later s h.gap).nguServed 267 = true ∧ (later s h.gap).nguKeyOk h 267 = true ∧ (later s h.gap).nguServed 268 = true ∧ (later s h.gap).nguKeyOk h 268 = true ∧ (later s h.gap).nguServed 513 = true ∧ (later s h.gap).nguKeyOk h 513 = true ∧ (later s h.gap).nguServed 514 = true ∧ (later s h.gap).nguKeyOk h 514 = true ∧ (later s h.gap).nguServed 515 = true ∧ (later s h.gap).nguKeyOk h 515 = true ∧ (later s h.gap).nguServed 516 = true ∧ (later s h.gap).nguKeyOk h 516 = true ∧ (later s h.gap).nguServed 517 = true ∧ (later s h.gap).nguKeyOk h 517 = true ∧ (later s h.gap).nguServed 518 = true ∧ (later s h.gap).nguKeyOk h 518 = true ∧ (later s h.gap).nguServed 768 = true ∧ (later s h.gap).nguKeyOk h 768 = true ∧ (later s h.gap).nguServed 769 = true ∧ (later s h.gap).nguKeyOk h 769 = true ∧ (later s h.gap).nguPath path = true ∧ (later s h.gap).rateFull = false ∧ (later s h.gap).keptResp { path := path, txn := txn : NguHdr } = none ∧ 2 ≤ path) ∧
    (∃ (s : State) (h : NguHdr) (path : Nat) (txn : Nat) (k : KeptResp), (later s h.gap).nguPath h.path = true ∧ (later s h.gap).rateFull = false ∧ (later s h.gap).keptResp h = some k ∧ (later s h.gap).nguPath path = true ∧ (later s h.gap).keptResp { path := path, txn := txn : NguHdr } = some k ∧ path < 2) ∧
    (∃ (s : State) (h : NguHdr), Arrives (later s h.gap) h ∧ (later s h.gap).nguServed 1 = true ∧ h.signed = true ∧ (later s h.gap).nguKeyOk h 1 = false ∧ (later s h.gap).nguServed 2 = true ∧ (later s h.gap).nguKeyOk h 2 = false ∧ (later s h.gap).nguServed 3 = true ∧ (later s h.gap).nguKeyOk h 3 = false ∧ (later s h.gap).nguServed 4 = true ∧ (later s h.gap).nguKeyOk h 4 = false ∧ (later s h.gap).nguServed 5 = true ∧ (later s h.gap).nguKeyOk h 5 = false ∧ (later s h.gap).nguServed 6 = true ∧ (later s h.gap).nguKeyOk h 6 = false ∧ (later s h.gap).nguServed 7 = true ∧ (later s h.gap).nguKeyOk h 7 = false ∧ (later s h.gap).nguServed 8 = true ∧ (later s h.gap).nguKeyOk h 8 = false ∧ (later s h.gap).nguServed 256 = true ∧ (later s h.gap).nguKeyOk h 256 = false ∧ (later s h.gap).nguServed 257 = true ∧ (later s h.gap).nguKeyOk h 257 = false ∧ (later s h.gap).nguServed 258 = true ∧ (later s h.gap).nguKeyOk h 258 = false ∧ (later s h.gap).nguServed 259 = true ∧ (later s h.gap).nguKeyOk h 259 = false ∧ (later s h.gap).nguServed 260 = true ∧ (later s h.gap).nguKeyOk h 260 = false ∧ (later s h.gap).nguServed 261 = true ∧ (later s h.gap).nguKeyOk h 261 = false ∧ (later s h.gap).nguServed 262 = true ∧ (later s h.gap).nguKeyOk h 262 = false ∧ (later s h.gap).nguServed 263 = true ∧ (later s h.gap).nguKeyOk h 263 = false ∧ (later s h.gap).nguServed 264 = true ∧ (later s h.gap).nguKeyOk h 264 = false ∧ (later s h.gap).nguServed 265 = true ∧ (later s h.gap).nguKeyOk h 265 = false ∧ (later s h.gap).nguServed 266 = true ∧ (later s h.gap).nguKeyOk h 266 = false ∧ (later s h.gap).nguServed 267 = true ∧ (later s h.gap).nguKeyOk h 267 = false ∧ (later s h.gap).nguServed 268 = true ∧ (later s h.gap).nguKeyOk h 268 = false ∧ (later s h.gap).nguServed 513 = true ∧ (later s h.gap).nguKeyOk h 513 = false ∧ (later s h.gap).nguServed 514 = true ∧ (later s h.gap).nguKeyOk h 514 = false ∧ (later s h.gap).nguServed 515 = true ∧ (later s h.gap).nguKeyOk h 515 = false ∧ (later s h.gap).nguServed 516 = true ∧ (later s h.gap).nguKeyOk h 516 = false ∧ (later s h.gap).nguServed 517 = true ∧ (later s h.gap).nguKeyOk h 517 = false ∧ (later s h.gap).nguServed 518 = true ∧ (later s h.gap).nguKeyOk h 518 = false ∧ (later s h.gap).nguServed 768 = true ∧ (later s h.gap).nguKeyOk h 768 = false ∧ (later s h.gap).nguServed 769 = true ∧ (later s h.gap).nguKeyOk h 769 = false) :=
  ⟨⟨(NguA.ex (some [1,2,3]) false 6), 0, {NguA.H3 with gap := 0}, 1, 40, 17, true, [1,2,3], ⟨9, 3, 0x60010, some [1,2,3], false⟩, by decide +kernel⟩,
    ⟨(NguA.sv), {NguA.H2 with nonce := 8}, 2, 5, by and_intros <;> decide +kernel⟩,
    ⟨(NguA.bz fun d => {d with loupe := {d.loupe with kept := [⟨0,77,2,6,0,[4]⟩]}}), NguA.H0, 0, 77, ⟨0,77,2,6,0,[4]⟩, by decide +kernel⟩,
    ⟨(NguA.sv), {NguA.H2 with good := false}, by and_intros <;> decide +kernel⟩⟩

theorem wit_NgufotuQueries_2 :
    (∃ (s : State) (h : NguHdr) (path : Nat), (later s h.gap).nguPath h.path = true ∧ (later s h.gap).rateFull = false ∧ (later s h.gap).keptResp h = none ∧ (later s h.gap).lengthOk h = false) ∧
    (∃ (s : State) (h : NguHdr) (path : Nat), (later s h.gap).nguPath h.path = true ∧ (later s h.gap).rateFull = true) ∧
    (∃ (s : State) (h : NguHdr) (a : Nat) (n : Nat) (path : Nat), Arrives (later s h.gap) h ∧ Permits (later s h.gap) h 1 true ∧ Permits (later s h.gap) h 2 true ∧ Permits (later s h.gap) h 6 true ∧ Permits (later s h.gap) h 7 true ∧ Permits (later s h.gap) h 8 true ∧ Permits (later s h.gap) h 3 true ∧ Permits (later s h.gap) h 4 true ∧ 0 < n ∧ n ≤ 64 ∧ a % 4 = 0 ∧ (1342308352 ≤ a ∨ a + 4 * n ≤ 1342177280) ∧ (later s h.gap).nguServed 256 = true ∧ h.signed = false ∧ (768 ≤ 256 ∨ false = false ∧ 2 ≤ h.path) ∧ (later s h.gap).nguServed 257 = true ∧ (768 ≤ 257 ∨ false = false ∧ 2 ≤ h.path) ∧ (later s h.gap).nguServed 258 = true ∧ (768 ≤ 258 ∨ false = false ∧ 2 ≤ h.path) ∧ (later s h.gap).nguServed 259 = true ∧ (768 ≤ 259 ∨ false = false ∧ 2 ≤ h.path) ∧ (later s h.gap).nguServed 260 = true ∧ (768 ≤ 260 ∨ false = false ∧ 2 ≤ h.path) ∧ (later s h.gap).nguServed 261 = true ∧ (768 ≤ 261 ∨ false = false ∧ 2 ≤ h.path) ∧ (later s h.gap).nguServed 262 = true ∧ (768 ≤ 262 ∨ false = false ∧ 2 ≤ h.path) ∧ (later s h.gap).nguServed 263 = true ∧ (768 ≤ 263 ∨ false = false ∧ 2 ≤ h.path) ∧ (later s h.gap).nguServed 264 = true ∧ (768 ≤ 264 ∨ false = false ∧ 2 ≤ h.path) ∧ (later s h.gap).nguServed 265 = true ∧ (768 ≤ 265 ∨ false = false ∧ 2 ≤ h.path) ∧ (later s h.gap).nguServed 266 = true ∧ (768 ≤ 266 ∨ false = false ∧ 2 ≤ h.path) ∧ (later s h.gap).nguServed 267 = true ∧ (768 ≤ 267 ∨ false = false ∧ 2 ≤ h.path) ∧ (later s h.gap).nguServed 268 = true ∧ (768 ≤ 268 ∨ false = false ∧ 2 ≤ h.path) ∧ (later s h.gap).nguServed 513 = true ∧ (768 ≤ 513 ∨ false = false ∧ 2 ≤ h.path) ∧ (later s h.gap).nguServed 514 = true ∧ (768 ≤ 514 ∨ false = false ∧ 2 ≤ h.path) ∧ (later s h.gap).nguServed 515 = true ∧ (768 ≤ 515 ∨ false = false ∧ 2 ≤ h.path) ∧ (later s h.gap).nguServed 516 = true ∧ (768 ≤ 516 ∨ false = false ∧ 2 ≤ h.path) ∧ (later s h.gap).nguServed 517 = true ∧ (768 ≤ 517 ∨ false = false ∧ 2 ≤ h.path) ∧ (later s h.gap).nguServed 518 = true ∧ (768 ≤ 518 ∨ false = false ∧ 2 ≤ h.path) ∧ (later s h.gap).nguServed 768 = true ∧ (768 ≤ 768 ∨ false = false ∧ 2 ≤ h.path) ∧ (later s h.gap).nguServed 769 = true ∧ (768 ≤ 769 ∨ false = false ∧ 2 ≤ h.path)) ∧
    (∃ (s : State) (dt : Nat) (h : NguHdr) (len : Nat) (b : Bool), Arrives (later s h.gap) h ∧ (later s h.gap).nguServed 3 = false ∧ (later s h.gap).nguServed 4 = false ∧ (later s h.gap).nguServed 6 = false ∧ (later s h.gap).nguServed 7 = false ∧ (later s h.gap).nguServed 8 = false ∧ (later s h.gap).nguServed 256 = false ∧ (later s h.gap).nguServed 257 = false ∧ (later s h.gap).nguServed 258 = false ∧ (later s h.gap).nguServed 259 = false ∧ (later s h.gap).nguServed 260 = false ∧ (later s h.gap).nguServed 261 = false ∧ (later s h.gap).nguServed 262 = false ∧ (later s h.gap).nguServed 263 = false ∧ (later s h.gap).nguServed 264 = false ∧ (later s h.gap).nguServed 265 = false ∧ (later s h.gap).nguServed 266 = false ∧ (later s h.gap).nguServed 268 = false ∧ (later s h.gap).nguServed 513 = false ∧ (later s h.gap).nguServed 514 = false ∧ (later s h.gap).nguServed 515 = false ∧ (later s h.gap).nguServed 516 = false ∧ (later s h.gap).nguServed 517 = false ∧ (later s h.gap).nguServed 518 = false ∧ (later s h.gap).nguServed 768 = false ∧ (later s h.gap).nguServed 769 = false ∧ (later s dt).linkOpen b = true ∧ (later s dt).mailboxOn = true ∧ (((later s dt).link b).busy = true ∨ len < 32 ∨ 1441 < len)) :=
  ⟨⟨(NguA.bz fun d => d.setLink false {d.link false with reqLen := 31}), NguA.H0, 2, by decide +kernel⟩,
    ⟨(NguA.sv fun d => {d with loupe := {d.loupe with msgSec := 0, msgCount := 500}}), NguA.H2, 2, by decide +kernel⟩,
    ⟨(NguA.sv), {NguA.H2 with signed := false}, 0x60001000, 2, 2, by and_intros <;> decide +kernel⟩,
    ⟨(NguA.sv fun d => {d with loupe := {d.loupe with safe := true}}), 0, NguA.H2, 1442, true, by and_intros <;> decide +kernel⟩⟩

theorem wit_NgufotuQueries_3 :
    (∃ (s : State) (h : NguHdr) (i : StrandId) (body : List Byte) (x : Exchange), ((later s h.gap).strand i).banks.exch = some x ∧ x.resp = some body ∧ ((later s h.gap).supOf i).fenceIn = false ∧ ((later s h.gap).strand i).bankHo x.bank = 0 ∧ x.bank < 48 ∧ Idle (later s h.gap) i ∧ (view (later s h.gap) i).thisCyc.hand.get none x.bank = none ∧ x.back = false ∧ ((later s h.gap).strand i).bankOwner x.bank = 1 ∧ (view (later s h.gap) i).imageBank x.bank = false) ∧
    (∃ (s : State) (h : NguHdr) (path : Nat) (txn : Nat), (later s h.gap).nguPath path = true ∧ (later s h.gap).rateFull = false ∧ path < 2 ∧ (later s h.gap).keptResp { path := path, txn := txn : NguHdr } = none) ∧
    (∃ (s : State) (h : NguHdr) (i : StrandId) (body : List Byte) (x : Exchange), ((later s h.gap).strand i).banks.exch = some x ∧ x.resp = some body ∧ ((later s h.gap).supOf i).fenceIn = false ∧ ((later s h.gap).strand i).bankHo x.bank = 0 ∧ x.bank < 48 ∧ Idle (later s h.gap) i ∧ (view (later s h.gap) i).thisCyc.hand.get none x.bank = none ∧ x.back = true ∧ ((later s h.gap).strand i).bankOwner x.bank = 1) ∧
    (∃ (s : State) (dt : Nat) (b : Bool), ((later s dt).linkOpen b = false ∨ (later s dt).mailboxOn = false)) :=
  ⟨⟨(NguA.ex (some [1,2,3]) false 1), {NguA.H3 with gap := 0}, 1, [1,2,3], ⟨9, 3, 0x60010, some [1,2,3], false⟩, by decide +kernel⟩,
    ⟨(NguA.bz), {NguA.H0 with path := 1}, 0, 5, by decide +kernel⟩,
    ⟨(NguA.ex (some [1,2,3]) true 1), {NguA.H3 with gap := 0}, 1, [1,2,3], ⟨9, 3, 0x60010, some [1,2,3], true⟩, by decide +kernel⟩,
    ⟨(NguA.sv fun d => {d with mode := 0}), 0, true, by decide +kernel⟩⟩

theorem wit_NgufotuQueries_4 :
    (∃ (s : State) (h : NguHdr), Arrives (later s h.gap) h ∧ (later s h.gap).nguServed 267 = false) ∧
    (∃ (s : State) (h : NguHdr) (a : Nat) (n : Nat) (path : Nat), Arrives (later s h.gap) h ∧ 0 < n ∧ n ≤ 32 ∧ (∀ j < n, (((later s h.gap).heard h.path).findLog (a + j)).isSome = true) ∧ Permits (later s h.gap) h 5 true) :=
  ⟨⟨(NguA.sv fun d => {d with mode := 10}), NguA.H2, by and_intros <;> decide +kernel⟩,
    ⟨(NguA.bz fun d => {d with loupe := {d.loupe with log := [⟨7,1,2,3,false,false,0x1234,[]⟩,⟨8,1,2,3,false,false,0x1234,[]⟩]}}), NguA.H0, 7, 2, 2, by and_intros <;> decide +kernel⟩⟩

theorem wit_NgufotuCommands :
    (∃ (s : State) (h : NguHdr) (i : StrandId), Arrives (later s h.gap) h ∧ Permits (later s h.gap) h 256 false ∧ Reaches (later s h.gap) Master.loupe i ∧ (later s h.gap).phase i ≠ Phase.off ∧ (later s h.gap).phase i ≠ Phase.fenced ∧ (later s h.gap).thisCyc.before.get none ↑i = none ∧ Permits (later s h.gap) h 257 false ∧ ((later s h.gap).supOf i).fenceIn = false ∧ Permits (later s h.gap) h 265 false ∧ (¬(((later s h.gap).supOf i).fenceIn = true ∨ ↑i ∈ (later s h.gap).thisCyc.fenced)) ∧ Permits (later s h.gap) h 266 false ∧ ((later s h.gap).mode ≠ 8 ∨ (later s h.gap).phase i ≠ Phase.fenced) ∧ Permits (later s h.gap) h 258 false ∧ 4 ≤ (later s h.gap).mode ∧ (later s h.gap).mode ≤ 8 ∧ Permits (later s h.gap) h 259 false ∧ ((later s h.gap).mode ≠ 9 ∨ (later s h.gap).base = 0 ∨ (later s h.gap).triggerGone = false ∨ ∀ j ∈ (later s h.gap).configured, (later s h.gap).phase j = Phase.fenced) ∧ Permits (later s h.gap) h 260 false ∧ (later s h.gap).mode ≤ 9 ∧ Permits (later s h.gap) h 261 false ∧ h.path < 2 ∧ Permits (later s h.gap) h 262 false ∧ ((later s h.gap).mode ≠ 10 ∨ (later s h.gap).hm.lc = 3) ∧ Permits (later s h.gap) h 263 false ∧ Permits (later s h.gap) h 264 false ∧ Permits (later s h.gap) h 267 false ∧ Permits (later s h.gap) h 268 false) ∧
    (∃ (s : State) (h : NguHdr) (i : StrandId), Arrives (later s h.gap) h ∧ ((later s h.gap).phase i = Phase.off ∨ (later s h.gap).phase i = Phase.fenced) ∧ Permits (later s h.gap) h 257 false ∧ Permits (later s h.gap) h 265 false ∧ ((later s h.gap).mode < 4 ∨ 8 < (later s h.gap).mode) ∧ Permits (later s h.gap) h 259 false ∧ ¬(4 ≤ (later s h.gap).mode ∧ (later s h.gap).mode ≤ 9) ∧ Permits (later s h.gap) h 261 false ∧ 2 ≤ h.path ∧ Permits (later s h.gap) h 262 false) ∧
    (∃ (s : State) (h : NguHdr) (i : StrandId), Arrives (later s h.gap) h ∧ (later s h.gap).phase i ≠ Phase.off ∧ (later s h.gap).phase i ≠ Phase.fenced ∧ ((later s h.gap).supOf i).fenceIn = true ∧ Permits (later s h.gap) h 265 false ∧ (((later s h.gap).supOf i).fenceIn = true ∨ ↑i ∈ (later s h.gap).thisCyc.fenced) ∧ Permits (later s h.gap) h 266 false ∧ (later s h.gap).mode = 9 ∧ (later s h.gap).base ≠ 0 ∧ (later s h.gap).triggerGone = true ∧ (∃ j ∈ (later s h.gap).configured, (later s h.gap).phase j ≠ Phase.fenced) ∧ Permits (later s h.gap) h 260 false) ∧
    (∃ (s : State) (h : NguHdr), Arrives (later s h.gap) h ∧ ¬(4 ≤ (later s h.gap).mode ∧ (later s h.gap).mode ≤ 9) ∧ h.path < 2 ∧ Permits (later s h.gap) h 262 false) ∧
    (∃ (s : State) (h : NguHdr), Arrives (later s h.gap) h ∧ (later s h.gap).mode = 10 ∧ (later s h.gap).hm.lc ≠ 3 ∧ Permits (later s h.gap) h 263 false) ∧
    (∃ (s : State) (h : NguHdr) (i : StrandId), Arrives (later s h.gap) h ∧ (later s h.gap).mode = 8 ∧ (later s h.gap).phase i = Phase.fenced ∧ ↑i ∉ (later s h.gap).thisCyc.fenced ∧ Permits (later s h.gap) h 258 false) :=
  ⟨⟨(NguB.bz), NguB.H0, 1, by and_intros <;> decide +kernel⟩,
    ⟨(NguB.sv fun d => NguB.ph 1 .off {d with mode := 2}), NguB.H2, 1, by and_intros <;> decide +kernel⟩,
    ⟨(NguB.sv fun d => (NguB.ph 1 .hold {d with mode := 9, holdBy := some .safeHold, holdFrom := 5, base := 5}).updSup 1 fun x => {x with fenceIn := true}), NguB.H2, 1, by and_intros <;> decide +kernel⟩,
    ⟨(NguB.bz fun d => {d with mode := 2}), NguB.H0, by and_intros <;> decide +kernel⟩,
    ⟨(NguB.ex fun d => {d with mode := 10}), NguB.H3, by and_intros <;> decide +kernel⟩,
    ⟨(NguB.bz fun d => NguB.ph 1 .fenced {d with mode := 8}), NguB.H0, 1, by and_intros <;> decide +kernel⟩⟩

theorem wit_UpdateOperations :
    (∃ (s : State) (h : NguHdr) (dt : Nat) (sess : Nat) (due : Nat) (target : Nat) (body : List Byte), Arrives (later s h.gap) h ∧ ((if (later s h.gap).upd.boot.trial = true then 5 else if (later s h.gap).upd.session.state = 4 then 10 else if (((later s h.gap).flash false).works || ((later s h.gap).flash true).works) = true then 0 else 8) ≠ 0) ∧ Permits (later s h.gap) h 513 false ∧ decide ((later s h.gap).upd.session.state ≠ 0 ∧ (later s h.gap).upd.session.id = sess) = false ∧ Permits (later s h.gap) h 514 false ∧ ((if (!decide ((later s h.gap).upd.session.state ≠ 0 ∧ (later s h.gap).upd.session.id = sess)) = true then 3 else if (later s h.gap).upd.boot.trial = true then 5 else if (later s h.gap).upd.session.state < 3 then 4 else if due ≠ 0 ∧ (later s h.gap).loupe.timeUnc = true then 6 else 0) ≠ 0) ∧ Permits (later s h.gap) h 515 false ∧ Permits (later s h.gap) h 516 false ∧ (later s h.gap).upd.boot.trial = false ∧ Permits (later s h.gap) h 517 false ∧ (later s h.gap).upd.boot.prev = none ∧ Permits (later s h.gap) h 518 false ∧ Permits (later s h.gap) h 768 false ∧ (2 ≤ (later s h.gap).mode ∧ (later s h.gap).mode ≤ 9 ∨ (later s h.gap).mode = 11) ∧ (later s h.gap).hm.lc ≠ 3 ∧ (later s h.gap).hm.valid = false ∧ enrolBody body = true ∧ Permits (later s h.gap) h 769 false ∧ target % 4 = (later s h.gap).hm.lc + 1 ∧ ((later s dt).upd.session.state ≠ 4 ∨ (later s dt).loupeNs < (later s dt).upd.session.at_) ∧ ((later s dt).upd.trial = false ∨ (later s dt).upd.boot.trial = false ∨ ¬(later s dt).upd.trialAt + fieldOf ((later s dt).urd Reg.UPD_CFG) 15 0 * 10 ^ 9 ≤ (later s dt).ns) ∧ ((later s dt).upd.failed = false ∨ (later s dt).ns < (later s dt).upd.trialAt + 10 ^ 9)) ∧
    (∃ (s : State) (h : NguHdr) (dt : Nat) (sess : Nat) (due : Nat) (start : StartIn), Arrives (later s h.gap) h ∧ decide ((later s h.gap).upd.session.state ≠ 0 ∧ (later s h.gap).upd.session.id = sess) = true ∧ Permits (later s h.gap) h 514 false ∧ ((if (!decide ((later s h.gap).upd.session.state ≠ 0 ∧ (later s h.gap).upd.session.id = sess)) = true then 3 else if (later s h.gap).upd.boot.trial = true then 5 else if (later s h.gap).upd.session.state < 3 then 4 else if due ≠ 0 ∧ (later s h.gap).loupe.timeUnc = true then 6 else 0) = 0) ∧ Permits (later s h.gap) h 515 false ∧ (later s h.gap).upd.session.state = 4 ∧ Permits (later s h.gap) h 516 false ∧ (later s dt).upd.session.state = 4 ∧ (later s dt).upd.session.at_ ≤ (later s dt).loupeNs ∧ 4 ≤ (later s dt).mode ∧ (later s dt).mode ≤ 9 ∧ (∃ f, ((later s dt).flash f).works = true) ∧ ((later s dt).slotOk start (if (later s dt).upd.session.area < 2 then { gen := (later s dt).upd.boot.gen, active := (later s dt).upd.session.area, trial := true, prev := some (later s dt).upd.boot.active, cfgCur := (later s dt).upd.boot.cfgCur : BootRec } else { gen := (later s dt).upd.boot.gen, active := (later s dt).upd.boot.active, trial := true, prev := some (later s dt).upd.boot.active, cfgCur := (later s dt).upd.session.area - 2, cfgPrev := some (later s dt).upd.boot.cfgCur : BootRec }).active = true)) ∧
    (∃ (s : State) (h : NguHdr) (dt : Nat) (verdict : Nat) (p : Nat), Arrives (later s h.gap) h ∧ ((if (later s h.gap).upd.boot.trial = true then 5 else if (later s h.gap).upd.session.state = 4 then 10 else if (((later s h.gap).flash false).works || ((later s h.gap).flash true).works) = true then 0 else 8) = 0) ∧ Permits (later s h.gap) h 513 false ∧ (later s h.gap).upd.boot.prev = some p ∧ verdict = 1 ∧ Permits (later s h.gap) h 518 false ∧ (later s dt).upd.failed = true ∧ (later s dt).upd.trialAt + 10 ^ 9 ≤ (later s dt).ns) ∧
    (∃ (s : State) (h : NguHdr) (dt : Nat) (verdict : Nat) (p : Nat), Arrives (later s h.gap) h ∧ (later s h.gap).upd.boot.trial = true ∧ Permits (later s h.gap) h 517 false ∧ (later s h.gap).upd.boot.prev = some p ∧ verdict ≠ 1 ∧ verdict ≠ 2 ∧ (later s h.gap).hm.rollback.get 0 ((later s h.gap).areaInfo p).rbIdx ≤ ((later s h.gap).areaInfo p).secver ∧ Permits (later s h.gap) h 518 false ∧ (later s dt).upd.trial = true ∧ (later s dt).upd.boot.trial = true ∧ (later s dt).upd.trialAt + fieldOf ((later s dt).urd Reg.UPD_CFG) 15 0 * 10 ^ 9 ≤ (later s dt).ns) ∧
    (∃ (s : State) (h : NguHdr) (target : Nat) (body : List Byte), Arrives (later s h.gap) h ∧ Permits (later s h.gap) h 768 false ∧ (2 ≤ (later s h.gap).mode ∧ (later s h.gap).mode ≤ 9 ∨ (later s h.gap).mode = 11) ∧ (later s h.gap).hm.lc ≠ 3 ∧ (later s h.gap).hm.valid = false ∧ enrolBody body = false ∧ Permits (later s h.gap) h 769 false ∧ target % 4 ≠ (later s h.gap).hm.lc + 1) ∧
    (∃ (s : State) (h : NguHdr), Arrives (later s h.gap) h ∧ Permits (later s h.gap) h 768 false ∧ (2 ≤ (later s h.gap).mode ∧ (later s h.gap).mode ≤ 9 ∨ (later s h.gap).mode = 11) ∧ ((later s h.gap).hm.lc = 3 ∨ (later s h.gap).hm.valid = true) ∧ Permits (later s h.gap) h 769 false ∧ (later s h.gap).hm.lc = 3) ∧
    (∃ (s : State) (h : NguHdr) (sess : Nat), Arrives (later s h.gap) h ∧ decide ((later s h.gap).upd.session.state ≠ 0 ∧ (later s h.gap).upd.session.id = sess) = true ∧ (later s h.gap).upd.session.state ≠ 4 ∧ Permits (later s h.gap) h 516 false) ∧
    (∃ (s : State) (dt : Nat), (later s dt).upd.session.state = 4 ∧ (later s dt).upd.session.at_ ≤ (later s dt).loupeNs ∧ ¬(4 ≤ (later s dt).mode ∧ (later s dt).mode ≤ 9)) ∧
    (∃ (s : State) (h : NguHdr) (verdict : Nat) (p : Nat), Arrives (later s h.gap) h ∧ (later s h.gap).upd.boot.prev = some p ∧ (verdict = 2 ∨ verdict ≠ 1 ∧ ((later s h.gap).areaInfo p).secver < (later s h.gap).hm.rollback.get 0 ((later s h.gap).areaInfo p).rbIdx) ∧ Permits (later s h.gap) h 518 false) :=
  ⟨⟨(Upd.sv), Upd.H2, 5, 6, 0, 1, Upd.B52, by and_intros <;> decide +kernel⟩,
    ⟨(Upd.bz fun d => Upd.fl (Upd.ses (fun x => {x with state := 4, id := 6, area := 1}) d)), Upd.H0, 5, 6, 0, Upd.st, by and_intros <;> decide +kernel⟩,
    ⟨(Upd.bz fun d => Upd.bt (fun b => {b with prev := some 1}) {d with mode := 11, upd := {d.upd with failed := true}}), Upd.H0, 1000000000, 1, 1, by and_intros <;> decide +kernel⟩,
    ⟨(Upd.bz fun d => Upd.bt (fun b => {b with trial := true, prev := some 1}) {d with upd := {d.upd with trial := true}}), Upd.H0, 3600000000000000, 0, 1, by and_intros <;> decide +kernel⟩,
    ⟨(Upd.sv), Upd.H2, 2, (Upd.B52++[4]), by and_intros <;> decide +kernel⟩,
    ⟨(Upd.sv fun d => {d with mode := 11, hm := {d.hm with lc := 3}}), Upd.H2, by and_intros <;> decide +kernel⟩,
    ⟨(Upd.bz (Upd.ses fun x => {x with state := 3, id := 6})), Upd.H0, 6, by and_intros <;> decide +kernel⟩,
    ⟨(Upd.bz fun d => Upd.ses (fun x => {x with state := 4, id := 6, area := 3}) {d with mode := 11}), 5, by decide +kernel⟩,
    ⟨(Upd.bz fun d => Upd.bt (fun b => {b with prev := some 1}) {d with upd := {d.upd with failed := true}}), Upd.H0, 2, 1, by and_intros <;> decide +kernel⟩⟩

theorem wit_Relay :
    (∃ (s : State) (dt : Nat) (sess : Nat) (off : Nat) (hop : Nat) (total : Nat) (state : Nat) (path : Nat) (p : Nat) (data : List Byte) (sig : Bool) (ranges : List (Nat × Nat)), ((path = 4 ∨ path = 5) ∧ (later s dt).nguPath (path - 4) = true ∨ path < 2 ∧ (later s dt).pathOpen path = true) ∧ (later s dt).rateFull = false ∧ (later s dt).relayOn = true ∧ hop < 32 ∧ off % 1024 = 0 ∧ data ≠ [] ∧ data.length ≤ 1024 ∧ ((later s dt).upd.session.state = 0 ∨ (later s dt).upd.session.id ≠ sess) ∧ off = 0 ∧ bitOf ((later s dt).urd Reg.UPD_CFG) 31 = true ∧ 512 ≤ data.length ∧ ((if (later s dt).openResult ≠ 0 then (later s dt).openResult else (later s dt).headerResult (List.take 512 data) sig) = 0) ∧ total = 512 + (parseHeader data).length ∧ data.length = min 1024 total ∧ (p = 2 ∨ p = 3) ∧ (later s dt).pathOpen p = true ∧ (later s dt).upd.lastActive = none ∧ (((later s dt).downPath p).queue = [] ∧ ((later s dt).downPath p).marks = [] ∨ ((later s dt).downPath p).queue ≠ [] ∧ (later s dt).ns < ((later s dt).downPath p).freeAt) ∧ (later s dt).pathOpen (later s dt).upPath = true ∧ ¬((later s dt).relayOn = true ∧ (later s dt).upd.session.state ≠ 0 ∧ (later s dt).upd.session.stateAt + 60 * 10 ^ 9 ≤ (later s dt).ns) ∧ ¬(((later s dt).relayOn = true ∧ (later s dt).upd.session.state = 1) ∧ (later s dt).upd.session.asked = 0 ∧ (later s dt).upd.session.upLost = false ∧ (later s dt).upd.session.ranges ≠ [] ∧ (later s dt).pathSet (later s dt).upPath = true ∧ (later s dt).upd.session.gapDue (later s dt).ns = true) ∧ (¬(((later s dt).relayOn = true ∧ (later s dt).upd.session.state = 1) ∧ (later s dt).upd.session.askedAt + 10 * 10 ^ 9 ≤ (later s dt).ns) ∨ (later s dt).upd.session.asked = 0) ∧ ¬(((later s dt).relayOn = true ∧ (later s dt).upd.session.state = 1) ∧ (later s dt).upd.session.upLost = true ∧ (later s dt).upd.session.askedAt + 60 * 10 ^ 9 ≤ (later s dt).ns) ∧ ¬((later s dt).upd.session.state = 2 ∧ (later s dt).por = false ∧ (later s dt).mode ≠ 0)) ∧
    (∃ (s : State) (dt : Nat) (sess : Nat) (off : Nat) (hop : Nat) (outcome : Nat) (state : Nat) (stored : Nat) (path : Nat) (p : Nat) (data : List Byte) (i : ImgInfo) (it : RelayItem) (rest : List RelayItem), ((path = 4 ∨ path = 5) ∧ (later s dt).nguPath (path - 4) = true ∨ path < 2 ∧ (later s dt).pathOpen path = true) ∧ (later s dt).rateFull = false ∧ (later s dt).relayOn = true ∧ hop < 32 ∧ off % 1024 = 0 ∧ data ≠ [] ∧ data.length ≤ 1024 ∧ (later s dt).upd.session.state ≠ 0 ∧ (later s dt).upd.session.id = sess ∧ (later s dt).upd.session.header = some i ∧ off / 1024 ∈ (later s dt).upd.session.stored ∧ (p = 2 ∨ p = 3) ∧ (later s dt).pathOpen p = true ∧ outcome = 0 ∧ ((later s dt).downPath p).queue = it :: rest ∧ ((later s dt).downPath p).marks = [] ∧ ((later s dt).downPath p).freeAt ≤ (later s dt).ns ∧ (later s dt).upd.session.stateAt + 60 * 10 ^ 9 ≤ (later s dt).ns ∧ (later s dt).upd.session.state = 1 ∧ (later s dt).upd.session.askedAt + 10 * 10 ^ 9 ≤ (later s dt).ns ∧ 2 ≤ (later s dt).upd.session.asked ∧ (later s dt).upd.session.upLost = true ∧ (later s dt).upd.session.askedAt + 60 * 10 ^ 9 ≤ (later s dt).ns) ∧
    (∃ (s : State) (dt : Nat) (sess : Nat) (off : Nat) (hop : Nat) (total : Nat) (state : Nat) (stored : Nat) (path : Nat) (data : List Byte) (ranges : List (Nat × Nat)) (i : ImgInfo), ((path = 4 ∨ path = 5) ∧ (later s dt).nguPath (path - 4) = true ∨ path < 2 ∧ (later s dt).pathOpen path = true) ∧ (later s dt).rateFull = false ∧ (later s dt).relayOn = true ∧ hop < 32 ∧ off % 1024 = 0 ∧ data ≠ [] ∧ data.length ≤ 1024 ∧ (later s dt).upd.session.state ≠ 0 ∧ (later s dt).upd.session.id = sess ∧ (later s dt).upd.session.header = some i ∧ off / 1024 ∉ (later s dt).upd.session.stored ∧ (later s dt).upd.session.state = 1 ∧ off < (later s dt).upd.session.total ∧ total = (later s dt).upd.session.total ∧ data.length = min 1024 ((later s dt).upd.session.total - off) ∧ (((later s dt).flash false).works = true ∨ ((later s dt).flash true).works = true) ∧ (later s dt).upd.session.asked = 0 ∧ (later s dt).upd.session.upLost = false ∧ (later s dt).upd.session.ranges ≠ [] ∧ (later s dt).pathSet (later s dt).upPath = true ∧ (later s dt).upd.session.gapDue (later s dt).ns = true) ∧
    (∃ (s : State) (dt : Nat) (sess : Nat) (off : Nat) (hop : Nat) (state : Nat) (copyA : Nat) (copyB : Nat) (path : Nat) (data : List Byte) (sig : Bool), ((path = 4 ∨ path = 5) ∧ (later s dt).nguPath (path - 4) = true ∨ path < 2 ∧ (later s dt).pathOpen path = true) ∧ (later s dt).rateFull = false ∧ (later s dt).relayOn = true ∧ hop < 32 ∧ off % 1024 = 0 ∧ data ≠ [] ∧ data.length ≤ 1024 ∧ ((later s dt).upd.session.state = 0 ∨ (later s dt).upd.session.id ≠ sess) ∧ off = 0 ∧ bitOf ((later s dt).urd Reg.UPD_CFG) 31 = true ∧ 512 ≤ data.length ∧ ((if (later s dt).openResult ≠ 0 then (later s dt).openResult else (later s dt).headerResult (List.take 512 data) sig) ≠ 0) ∧ (later s dt).upd.session.state = 2 ∧ (later s dt).por = false ∧ (later s dt).mode ≠ 0 ∧ (((later s dt).flash false).works = true ∧ copyA < 2 ∨ ((later s dt).flash true).works = true ∧ copyB < 2)) ∧
    (∃ (s : State) (dt : Nat) (off : Nat) (hop : Nat) (state : Nat) (copyA : Nat) (copyB : Nat) (path : Nat) (data : List Byte), ((path = 4 ∨ path = 5) ∧ (later s dt).nguPath (path - 4) = true ∨ path < 2 ∧ (later s dt).pathOpen path = true) ∧ (later s dt).rateFull = false ∧ ¬((later s dt).relayOn = true ∧ hop < 32 ∧ off % 1024 = 0 ∧ data ≠ [] ∧ data.length ≤ 1024) ∧ (later s dt).upd.session.state = 2 ∧ (later s dt).por = false ∧ (later s dt).mode ≠ 0 ∧ (¬(((later s dt).flash false).works = true ∧ copyA < 2 ∨ ((later s dt).flash true).works = true ∧ copyB < 2))) ∧
    (∃ (s : State) (dt : Nat) (sess : Nat) (off : Nat) (hop : Nat) (total : Nat) (state : Nat) (stored : Nat) (path : Nat) (data : List Byte) (i : ImgInfo), ((path = 4 ∨ path = 5) ∧ (later s dt).nguPath (path - 4) = true ∨ path < 2 ∧ (later s dt).pathOpen path = true) ∧ (later s dt).rateFull = false ∧ (later s dt).relayOn = true ∧ hop < 32 ∧ off % 1024 = 0 ∧ data ≠ [] ∧ data.length ≤ 1024 ∧ (later s dt).upd.session.state ≠ 0 ∧ (later s dt).upd.session.id = sess ∧ (later s dt).upd.session.header = some i ∧ off / 1024 ∉ (later s dt).upd.session.stored ∧ ((later s dt).upd.session.state ≠ 1 ∨ (later s dt).upd.session.total ≤ off ∨ total ≠ (later s dt).upd.session.total ∨ data.length ≠ min 1024 ((later s dt).upd.session.total - off))) ∧
    (∃ (s : State) (dt : Nat) (sess : Nat) (off : Nat) (outcome : Nat) (p : Nat) (it : RelayItem) (rest : List RelayItem), (later s dt).relayOn = true ∧ (p = 2 ∨ p = 3) ∧ (later s dt).pathOpen p = true ∧ ((later s dt).downPath p).queue = it :: rest ∧ ((later s dt).downPath p).queue.length ≤ 64 ∧ ((later s dt).downPath p).marks = off / 1024 :: ((later s dt).downPath p).marks.tail ∧ ((later s dt).downPath p).freeAt ≤ (later s dt).ns ∧ outcome = 0 ∧ ((later s dt).downPath p).sess = sess) ∧
    (∃ (s : State) (dt : Nat) (state : Nat), (later s dt).relayOn = true ∧ (later s dt).upd.session.state = 1 ∧ (later s dt).upd.session.askedAt + 10 * 10 ^ 9 ≤ (later s dt).ns ∧ (later s dt).upd.session.asked = 1) :=
  ⟨⟨(Rly.D), 5, 7, 0, 3, 1024, 2, 0, 2, Rly.hdr, true, [(0,2)], by decide +kernel⟩,
    ⟨(Rly.D (Rly.ses fun x => {x with state := 1, id := 7, header := some Rly.ii, total := 3072, stored := [0],upLost := true, asked := 2,want:=[(1,1)], down0 := {queue := [Rly.it1], marks:=[],sess:=7}})), Rly.S60, 7, 0, 3, 0, 2, 3, 1, 2, Rly.dat, Rly.ii, Rly.it1, [], by decide +kernel⟩,
    ⟨(Rly.D (Rly.ses fun x => {x with state := 1, id := 7, header := some Rly.ii, total := 3072, stored := [0], asked := 0})), Rly.S60, 7, 1024, 3, 3072, 2, 3, 0, Rly.dat, [(0,2)], Rly.ii, by decide +kernel⟩,
    ⟨(Rly.D (Rly.ses fun x => {x with state := 2, id := 8, header := some Rly.ii, total := 3072, stored := [0],upLost := true, asked := 2,want:=[(1,1)], down0 := {queue := [Rly.it1], marks:=[],sess:=7}})), 5, 7, 0, 3, 2, 0, 2, 1, Rly.dat, true, by decide +kernel⟩,
    ⟨(Rly.D (Rly.ses fun x => {x with state := 2, id := 8, header := some Rly.ii, total := 3072, stored := [0],upLost := true, asked := 2,want:=[(1,1)], down0 := {queue := [Rly.it1], marks:=[],sess:=7}})), 5, 0, 32, 2, 2, 2, 1, Rly.dat, by decide +kernel⟩,
    ⟨(Rly.D (Rly.ses fun x => {x with state := 1, id := 7, header := some Rly.ii, total := 2048, stored := [0]})), 5, 7, 1024, 3, 3072, 2, 3, 0, Rly.dat, Rly.ii, by decide +kernel⟩,
    ⟨(Rly.D (Rly.ses fun x => {x with state := 3, id := 7, header := some Rly.ii, total := 3072, stored := [0,1,2], down0 := {queue := [Rly.it1], marks:=[0],sess:=7}})), 5, 7, 0, 0, 2, Rly.it1, [], by decide +kernel⟩,
    ⟨(Rly.D (Rly.ses fun x => {x with state := 1, id := 7, header := some Rly.ii, total := 3072, stored := [0],asked := 1,want:=[(1,1)], down0 := {queue := [Rly.it1], marks:=[0],sess:=7}})), Rly.S10, 2, by decide +kernel⟩⟩

end Sys2Proof.Tests
end

section
/-! Register writes and snapshots: what a write through a master's address leaves of a strand, a channel, the Clasp and the Loupe. -/

namespace Sys2Proof.Machine

/-! ## Commands carried out in one strand -/

/-- A part that a strand's command keeps is kept in the device too: what is taken out of the strand afterwards is no part of it. -/
theorem same_clean {d : Dev} {i : StrandId} {y : StrandSt} {p : Part} (h : p.same (view d i) y) : p.same (d.strand i) y.clean := by
  cases p <;> exact h

/-- A strand's command that keeps all parts but those listed changes nothing else of the device (R22). -/
theorem only_onStrand {d : Dev} {i : StrandId} {g : StrandSt → StrandSt} {but : List Part} (h : Keeps (view d i) (g (view d i)) but) :
    Only d (d.onStrand i g) i but :=
  ⟨d.onStrand_frame i g, fun p hp hb => by rw [Dev.onStrand_strand_same]; exact same_clean (h p hp hb)⟩

theorem only_refl (d : Dev) (i : StrandId) (but : List Part) : Only d d i but :=
  ⟨Machine.StrandFrame.refl d i, fun p _ _ => by cases p <;> rfl⟩

/-! ## Registers -/

/-- A write of a table leaves every other key, whatever default the table is read with. -/
theorem Tab.get_set_other {α : Type} [DecidableEq α] (t : Tab α) (d e : α) {k j : Nat} (v : α) (h : j ≠ k) :
    (t.set d k v).get e j = t.get e j := by
  by_cases hv : v = d
  · simp [Tab.set, Tab.get, hv, tabFind_erase_ne _ h]
  · simp [Tab.set, Tab.get, hv, tabFind_insert_ne _ _ h, tabFind_erase_ne _ h]

@[simp] theorem StrandSt.rd_wr_ne (st : StrandSt) {off k : Nat} (v : Word) (h : k ≠ off) : (st.wr off v).rd k = st.rd k :=
  st.regs.get_set_other _ _ _ h

theorem regsBut_wr (st : StrandSt) (off : Nat) (v : Word) : RegsBut st (st.wr off v) [off] :=
  fun _ hk => st.rd_wr_ne v (by simpa using hk)

/-- Writing the value a register reads as changes no register. -/
theorem regsBut_wr_rd (st : StrandSt) (off : Nat) : RegsBut st (st.wr off (st.rd off)) [] := by
  intro k _
  by_cases h : k = off
  · rw [h, StrandSt.rd_wr_same]
  · exact st.rd_wr_ne _ h

theorem keeps_wr (st : StrandSt) (off : Nat) (v : Word) : Keeps st (st.wr off v) [.regs] := by
  intro p _ hp
  cases p with
  | regs => simp at hp
  | _ => rfl

theorem putN_bitsN_self (n hi lo : Nat) : putN n hi lo (bitsN n hi lo) = n := by
  have h : bitsN n hi lo <<< lo ≤ n := by
    rw [Nat.shiftLeft_eq, bitsN, Nat.shiftRight_eq_div_pow]
    exact (Nat.mul_le_mul_right _ (Nat.mod_le _ _)).trans (Nat.div_mul_le_self _ _)
  have e : bitsN n hi lo % 2 ^ (hi + 1 - lo) = bitsN n hi lo := Nat.mod_mod _ _
  rw [putN, e]
  omega

/-- A field that spans the word holds the word written. -/
theorem putN_word (old v : Word) : BitVec.ofNat 32 (putN old.toNat 31 0 (bitsN v.toNat 31 0)) = v := by
  apply BitVec.eq_of_toNat_eq
  have := old.isLt
  have := v.isLt
  simp [putN, bitsN]
  omega

/-- A register whose fields are all lockable keeps its value under the lock (R13). -/
theorem rowWrite_locked {r : RegRow} (h : ∀ f ∈ r.flds, f.acc = .rwl) (old v kept : Nat) : rowWrite r true old v kept = old := by
  unfold rowWrite
  generalize r.flds = l at h ⊢
  induction l with
  | nil => rfl
  | cons f l ih =>
    have hf : f.write true old v kept = bitsN old f.hi f.lo := by simp [Fld.write, h f (by simp)]
    rw [List.foldl_cons, hf, putN_bitsN_self]
    exact ih fun g hg => h g (by simp [hg])

/-- A register that every master may write. -/
theorem mayWrite_all {r : RegRow} (h : r.who = 7) (m : Master) : mayWrite r m.code = true := by
  unfold mayWrite
  rw [h]
  cases m with
  | host b => cases b <;> rfl
  | core i => simp [Master.code, bitN]
  | loupe => rfl

theorem plainWrite_of_row {st : StrandSt} {m : Master} {off : Nat} {v : Word} {r : RegRow} (hr : findRow (strandRows off) off = some r)
    (hw : r.who = 7) :
    st.plainWrite m.code off v = st.wr off (BitVec.ofNat 32 (rowWrite r st.env.locked (st.rd off).toNat v.toNat (st.kept off))) := by
  simp [StrandSt.plainWrite, StrandSt.fieldWrite, hr, mayWrite_all hw m]

theorem findRow_BEAD_CMP_MASK (n : Fin 16) : findRow (strandRows (Reg.BEAD_CMP_MASK n)) (Reg.BEAD_CMP_MASK n) =
    some ⟨"BEAD_CMP_MASK", 0x10044, [(4096, 16)], 0xffffffff, 7, false, [⟨31, 0, .rw, []⟩]⟩ := by fin_cases n <;> rfl

theorem findRow_BP_PAD (p : Fin 24) : findRow (strandRows (Reg.BP_PAD p)) (Reg.BP_PAD p) =
    some ⟨"BP_PAD_p", 0x10800, [(4, 24)], 0x0, 7, false,
      [⟨7, 7, .rwl, []⟩, ⟨6, 5, .rwl, [(0, 2)]⟩, ⟨4, 3, .rwl, [(0, 2)]⟩, ⟨2, 2, .rwl, []⟩, ⟨1, 1, .rwl, []⟩]⟩ := by
  fin_cases p <;> rfl

/-- BEAD_CMP_MASK stores the word; the compare unit's record of the cycle notes the write (R61). -/
theorem regWrite_BEAD_CMP_MASK (st : StrandSt) (m : Master) (n : Fin 16) (v : Word) :
    st.regWrite m.code (Reg.BEAD_CMP_MASK n) v = (st.noteCmp n).wr (Reg.BEAD_CMP_MASK n) v := by
  have e : st.regWrite m.code (Reg.BEAD_CMP_MASK n) v = (st.noteCmp n).plainWrite m.code (Reg.BEAD_CMP_MASK n) v := by
    fin_cases n <;> rfl
  rw [e, plainWrite_of_row (findRow_BEAD_CMP_MASK n) rfl]
  simp [rowWrite, Fld.write, Fld.accepts, putN_word]

/-- BP_PAD of a locked strand keeps its value (R13). -/
theorem regWrite_BP_PAD_locked (st : StrandSt) (m : Master) (p : Fin 24) (v : Word) (h : st.env.locked = true) :
    st.regWrite m.code (Reg.BP_PAD p) v = st.wr (Reg.BP_PAD p) (st.rd (Reg.BP_PAD p)) := by
  have e : st.regWrite m.code (Reg.BP_PAD p) v = st.plainWrite m.code (Reg.BP_PAD p) v := by fin_cases p <;> rfl
  rw [e, plainWrite_of_row (findRow_BP_PAD p) rfl, h, rowWrite_locked (by simp), BitVec.ofNat_toNat, BitVec.setWidth_eq]

/-! ## A master's write of a Bead register, by its size -/

/-- A word register of the Bead engines and pads. -/
def BeadPlace (off : Nat) : Prop := 0x10000 ≤ off ∧ off < 0x20000 ∧ off % 4 = 0

theorem beadPlace_BEAD_CMP_MASK (n : Fin 16) : BeadPlace (Reg.BEAD_CMP_MASK n) := by
  simp only [BeadPlace, Reg.BEAD_CMP_MASK]; omega

theorem beadPlace_BP_PAD (p : Fin 24) : BeadPlace (Reg.BP_PAD p) := by
  simp only [BeadPlace, Reg.BP_PAD]; omega

theorem BeadPlace.plain {off : Nat} (h : BeadPlace off) : PlainPlace off := by
  obtain ⟨h1, h2, h3⟩ := h
  refine ⟨h1, by omega, h3, ?_⟩
  simp only [Reg.CORE_WDOG_KICK]; omega

theorem BeadPlace.directTail {off : Nat} (h : BeadPlace off) (d : Dev) (i : StrandId) : d.directTail i off = false := by
  have : ¬ 0x41000 ≤ off := by have := h.2.1; omega
  simp [Dev.directTail, this]

/-- The Loupe's address of a Bead register is not that of CORE_CMD: the write executes no instruction (R384). -/
theorem masterWrite_bead {d : Dev} {m : Master} {i : StrandId} {off a : Nat} (h : BeadPlace off) (ha : (Place.strand i off).addr m = some a)
    (size v : Nat) : d.masterWrite m a size v = d.busWrite m a size v := by
  obtain ⟨-, h2, -⟩ := h
  unfold Dev.masterWrite
  cases m with
  | host b => rfl
  | core j => rfl
  | loupe =>
    have hb : off < 0x100000 := by omega
    have e : 0x60000000 + 0x1000000 * i.val + off = a := by simpa [Place.addr, hb] using ha
    have ne : a % 0x1000000 ≠ Reg.CORE_CMD := by simp only [Reg.CORE_CMD]; omega
    simp [ne]

theorem masterWrite_bead_word {d : Dev} {m : Master} {i : StrandId} {off a : Nat} (hr : Reaches d m i) (h : BeadPlace off)
    (ha : (Place.strand i off).addr m = some a) (v : Word) :
    d.masterWrite m a 4 v.toNat = d.onStrand i fun st => st.regWrite m.code off v := by
  have e : d.placeWrite m (.strand i off) v.toNat = d.busWrite m a 4 v.toNat := by simp [Dev.placeWrite, ha]
  rw [masterWrite_bead h ha, ← e, placeWrite_strand d m i off _ hr h.plain v.isLt (h.directTail d i)]
  simp

/-- A bad access is counted at the Clasp alone (R317). -/
theorem only_badAccess (d : Dev) (i : StrandId) : Only d d.badAccess i [] :=
  ⟨⟨by simp [DeviceKept, Dev.badAccess], fun _ _ => rfl⟩, fun p _ _ => by cases p <;> rfl⟩

/-- Half a word reaches no register: the host's is a bad access, the others' is dropped (R10, R317). -/
theorem masterWrite_bead_half {d : Dev} {m : Master} {i : StrandId} {off a : Nat} (hr : Reaches d m i) (h : BeadPlace off)
    (ha : (Place.strand i off).addr m = some a) (v : Nat) : Only d (d.masterWrite m a 2 v) i [] := by
  rw [masterWrite_bead h ha]
  obtain ⟨h1, h2, h3⟩ := h
  have hb : off < 0x100000 := by omega
  have hi := i.isLt
  cases m with
  | host b =>
    have e : 0x400000 * i.val + off = a := by simpa [Place.addr, hb] using ha
    have hn : inSramWindow a = false := by simp [inSramWindow]; omega
    have hw : ¬ 0x2000000 < a + 2 := by omega
    have bad : d.busWrite (.host b) a 2 v = d.badAccess := by simp [Dev.busWrite, Dev.hostWriteBytes, hr.1, hn, hw]
    exact bad ▸ only_badAccess d i
  | core j =>
    have drop : d.busWrite (.core j) a 2 v = d := by simp [Dev.busWrite]
    exact drop.symm ▸ only_refl d i []
  | loupe =>
    have e : 0x60000000 + 0x1000000 * i.val + off = a := by simpa [Place.addr, hb] using ha
    have hl : (leBytes 2 v).length = 2 := rfl
    have q1 : ¬ a + 2 ≤ 0x10200000 := by omega
    have q2 : ¬ a + 2 ≤ 0x50010000 := by omega
    have q3 : ¬ 0x800000 ≤ a % 0x1000000 := by omega
    have drop : d.busWrite .loupe a 2 v = d := by simp [Dev.busWrite, Dev.loupeWriteN, hl, q1, q2, q3]
    exact drop.symm ▸ only_refl d i []

/-- A command's effect after `dt` ns, from the end: what it leaves. -/
theorem ends_runAt {c : Instr} {s : State} {dt : Nat} {f : Dev → Dev} {P : Dev → Prop} (h : exec c s = .next (s.runAt dt f))
    (hP : P (f (later s dt))) : Ends c s P := ⟨_, h, hP⟩

theorem exec_registerWrite (dt : Nat) (m : Master) (a size v : Nat) (s : State) :
    exec (.registerWrite dt m a size v) s = .next (s.runAt dt fun d => d.masterWrite m a size v) := rfl

theorem onStrand_BEAD_CMP_MASK (d : Dev) (m : Master) (i : StrandId) (n : Fin 16) (v : Word) :
    let e := d.onStrand i fun st => st.regWrite m.code (Reg.BEAD_CMP_MASK n) v
    Only d e i [.regs] ∧ RegsBut (d.strand i) (e.strand i) [Reg.BEAD_CMP_MASK n] ∧ (e.strand i).rd (Reg.BEAD_CMP_MASK n) = v := by
  simp only [regWrite_BEAD_CMP_MASK]
  refine ⟨only_onStrand ?_, ?_, ?_⟩
  · exact keeps_wr ((view d i).noteCmp n) _ _
  · rw [Dev.onStrand_strand_same]
    exact regsBut_wr ((view d i).noteCmp n) _ v
  · rw [Dev.onStrand_strand_same]
    exact StrandSt.rd_wr_same ((view d i).noteCmp n) _ v

theorem onStrand_BP_PAD_locked (d : Dev) (m : Master) (i : StrandId) (p : Fin 24) (v : Word) (h : (d.supOf i).lock = true) :
    let e := d.onStrand i fun st => st.regWrite m.code (Reg.BP_PAD p) v
    Only d e i [.regs] ∧ RegsBut (d.strand i) (e.strand i) [] := by
  have hl : (view d i).env.locked = true := h
  have hw := regWrite_BP_PAD_locked (view d i) m p v hl
  refine ⟨only_onStrand ?_, ?_⟩
  · rw [hw]
    exact keeps_wr _ _ _
  · rw [Dev.onStrand_strand_same]
    change RegsBut (view d i) ((view d i).regWrite m.code (Reg.BP_PAD p) v) []
    rw [hw]
    exact regsBut_wr_rd _ _

/-- Settles O14: a word reaches the register's own write, half a word none, and the lock keeps a register of lockable fields. -/
theorem registerWrites : Obligations.RegisterWrites := by
  unfold Obligations.RegisterWrites
  intro s dt m i n p v a b
  refine ⟨fun hr ha hb => ⟨?_, ?_, fun hl => ?_⟩, fun size value => ends_runAt (exec_registerWrite ..) trivial⟩
  · refine ends_runAt (exec_registerWrite ..) ?_
    rw [masterWrite_bead_word hr (beadPlace_BEAD_CMP_MASK n) ha]
    exact onStrand_BEAD_CMP_MASK _ m i n v
  · exact ends_runAt (exec_registerWrite ..) (masterWrite_bead_half hr (beadPlace_BEAD_CMP_MASK n) ha _)
  · refine ends_runAt (exec_registerWrite ..) ?_
    rw [masterWrite_bead_word hr (beadPlace_BP_PAD p) hb]
    exact onStrand_BP_PAD_locked _ m i p v hl

/-! ## The snapshot-and-clear operation (R17) -/

theorem tabFind_filter {α : Type} (p : Nat → Bool) (l : List (Nat × α)) (k : Nat) :
    tabFind (l.filter fun c => p c.1) k = if p k then tabFind l k else none := by
  induction l with
  | nil => simp [tabFind]
  | cons c l ih =>
    obtain ⟨j, a⟩ := c
    by_cases hj : j = k
    · subst hj
      by_cases hp : p j <;> simp [hp, tabFind, ih]
    · by_cases hp : p j <;> simp [hp, tabFind, ih, hj]

theorem Tab.get_dropIf {α : Type} (t : Tab α) (p : Nat → Bool) (e : α) (k : Nat) :
    (t.dropIf p).get e k = if p k then e else t.get e k := by
  have h := tabFind_filter (fun j => !p j) t.cells k
  by_cases hp : p k <;> simp [Tab.get, Tab.dropIf, h, hp]

/-- Writes of a whole list of entries: of two for one key the first stays. -/
theorem Tab.get_foldr_set {α : Type} (l : List (Nat × α)) (f : Nat × α → Nat) (t : Tab Nat) (k : Nat) :
    (l.foldr (fun x t => t.set 0 x.1 (f x)) t).get 0 k = ((tabFind l k).map fun a => f (k, a)).getD (t.get 0 k) := by
  induction l with
  | nil => rfl
  | cons c l ih =>
    obtain ⟨j, a⟩ := c
    by_cases hj : j = k
    · subst hj
      simp [tabFind]
    · simp [tabFind, hj, Ne.symm hj, ih]

/-- What the operation leaves of the live counters and of the snapshots, entry by entry. -/
theorem Cycle.snap_taken (k : Cycle) (c p : Tab Nat) (lo hi : Nat) :
    SnapTaken k c p (k.snap c p lo hi).2.1 (k.snap c p lo hi).2.2 lo hi := by
  intro off
  unfold Cycle.snap
  by_cases hs : lo ∈ k.snaps
  · simp [hs]
  · have hk := tabFind_filter (fun j => decide (lo ≤ j) && decide (j < hi)) k.cnt.cells off
    have hc := tabFind_filter (fun j => decide (lo ≤ j) && decide (j < hi)) c.cells off
    by_cases hr : lo ≤ off ∧ off < hi
    · simp only [hs, List.contains_eq_mem, decide_false, Bool.false_eq_true, if_false, Tab.get_foldr_set, Tab.keepIf, hk, hc,
        Tab.get_dropIf, hr, not_false_eq_true, and_self, decide_true, Bool.and_self, if_true]
      cases tabFind k.cnt.cells off <;> cases h : tabFind c.cells off <;> simp [Tab.get, h]
    · have hn : (decide (lo ≤ off) && decide (off < hi)) = false := by
        simp only [Bool.and_eq_false_iff, decide_eq_false_iff_not]; omega
      rw [if_neg fun x => hr ⟨x.1, x.2.1⟩]
      simp [hs, Tab.get_foldr_set, Tab.keepIf, hk, hc, Tab.get_dropIf, hn]

/-! ## The Loupe's registers -/

/-- A word of the Loupe's address space that lies in none of its memories and in no strand's SRAM (R430). -/
def LoupeReg (a : Nat) : Prop := 0x50010000 ≤ a ∧ a % 4 = 0 ∧ a % 0x1000000 < 0x800000

theorem busWrite_loupeReg {d : Dev} {a : Nat} (hl : d.loupeRuns = true) (h : LoupeReg a) (v : Nat) (hv : v < 2 ^ 32) :
    d.busWrite .loupe a 4 v = d.loupeRegWrite a (BitVec.ofNat 32 v) := by
  obtain ⟨h1, h2, h3⟩ := h
  have hn : (leBytes 4 v).length = 4 := rfl
  have q1 : ¬ a + 4 ≤ 0x10200000 := by omega
  have q2 : ¬ a + 4 ≤ 0x50010000 := by omega
  have q3 : ¬ 0x800000 ≤ a % 0x1000000 := by omega
  simp [Dev.busWrite, hl, Dev.loupeWriteN, hn, h2, q1, q2, q3, leNum_leBytes4 v hv]

/-- A word of a strand's window that the Loupe reaches is the strand's register. -/
theorem loupeRegWrite_strand {d : Dev} {i : StrandId} {off : Nat} (ho : off < 0xE0000) (hp : d.loupeReach i off = true)
    (hf : (d.supOf i).fenceIn = false) (v : Word) :
    d.loupeRegWrite (0x60000000 + 0x1000000 * i.val + off) v = d.strandWrite .loupe i off v := by
  have hi := i.isLt
  generalize ha : 0x60000000 + 0x1000000 * i.val + off = a
  have hin : inLoupeStrand a = true := by simp [inLoupeStrand]; omega
  have hm : a % 0x1000000 = off := by omega
  have hs : loupeStrand a = i := by ext; simp only [loupeStrand, Fin.ofNat]; omega
  have e1 : a ≠ Reg.HM_CMD := by simp only [Reg.HM_CMD]; omega
  have e2 : a ≠ Reg.LC_ADVANCE := by simp only [Reg.LC_ADVANCE]; omega
  have e3 : a ≠ Reg.TAMPER_CAUSE := by simp only [Reg.TAMPER_CAUSE]; omega
  have e4 : a ≠ Reg.LP_CMD := by simp only [Reg.LP_CMD]; omega
  have e5 : a ≠ Reg.UPD_CMD := by simp only [Reg.UPD_CMD]; omega
  have c1 : ¬ a < 0x50044000 := by omega
  have c2 : ¬ a < 0x50044100 := by omega
  have c3 : ¬ a < 0x50081000 := by omega
  have c4 : ¬ 0x70000000 ≤ a := by omega
  have c5 : ¬ 0x71000000 ≤ a := by omega
  have c6 : off < 0x100000 := by omega
  have c7 : ¬ 0xE0000 ≤ off := by omega
  simp [Dev.loupeRegWrite, e1, e2, e3, e4, e5, c1, c2, c3, c4, c5, c6, c7, hin, hm, hs, hp, hf]

/-! ## A unit of a strand -/

theorem keeps_snapRange (st : StrandSt) (lo hi : Nat) : Keeps st (st.snapRange lo hi) [.cnt, .snap] := by
  intro p _ hp
  cases p with
  | cnt => simp at hp
  | snap => simp at hp
  | _ => rfl

/-- The operation takes the unit's counters as R17 has it. -/
theorem snapUnit_taken (st : StrandSt) (u : StrandUnit) :
    SnapTaken st.thisCyc.c st.cnt st.snap (st.snapUnit u).cnt (st.snapUnit u).snap u.range.1 u.range.2 :=
  Cycle.snap_taken _ _ _ _ _

theorem beadCmd_snap (st : StrandSt) (n : Fin 16) : st.beadCmd n 0x40 = st.snapUnit (.bead n) := rfl

theorem macCmd_snap (st : StrandSt) (p : Fin 4) : st.macCmd p 1 = st.snapUnit (.mac p) := rfl

theorem coreCmd_snap (st : StrandSt) (m : Nat) : st.coreCmd m 1 = st.snapUnit .core := by
  simp [StrandSt.coreCmd, bitOf, bitN]

/-- LEDGER_CMD takes no write of a host (R47). -/
theorem ledWrite_snap (st : StrandSt) (m : Master) (h : ∀ b, m ≠ .host b) :
    st.ledWrite m.code Reg.LEDGER_CMD 1 = st.snapUnit .ledger := by
  cases m with
  | host b => exact absurd rfl (h b)
  | core _ => rfl
  | loupe => rfl

/-- The snapshot bit of a unit's command register commands the unit's snapshot alone. -/
theorem regWrite_snapCmd (st : StrandSt) (m : Master) (u : StrandUnit) (h : u = .ledger → ∀ b, m ≠ .host b) :
    st.regWrite m.code u.cmd.1 (BitVec.ofNat 32 u.cmd.2) = st.snapUnit u := by
  cases u with
  | bead n => exact (regWrite_BEAD_CMD st _ _ n).trans (beadCmd_snap st n)
  | mac p => exact (regWrite_MAC_CMD st _ _ p).trans (macCmd_snap st p)
  | pt p => fin_cases p <;> rfl
  | switch => rfl
  | dma => rfl
  | time => rfl
  | bangle => rfl
  | filigree => rfl
  | mapper => rfl
  | bank => rfl
  | core => exact (regWrite_CORE_CMD st _ _).trans (coreCmd_snap st _)
  | ledger => exact ledWrite_snap st m (h rfl)

/-- Every unit's command register but the ledger's lies beyond the supervisor page, and none is a ring's tail. -/
theorem snapCmd_place {u : StrandUnit} (h : u ≠ .ledger) (d : Dev) (i : StrandId) :
    PlainPlace u.cmd.1 ∧ u.cmd.2 < 2 ^ 32 ∧ d.directTail i u.cmd.1 = false := by
  have ht {off : Nat} (hn : ¬ (0x41000 ≤ off ∧ off < 0x41400)) : d.directTail i off = false := by
    simp only [Dev.directTail, Bool.and_eq_false_iff, decide_eq_false_iff_not]; omega
  cases u with
  | ledger => exact absurd rfl h
  | bead n =>
    simp only [StrandUnit.cmd, PlainPlace, Reg.BEAD_CMD, Reg.CORE_WDOG_KICK]
    exact ⟨by omega, by omega, ht (by omega)⟩
  | mac p =>
    simp only [StrandUnit.cmd, PlainPlace, Reg.MAC_CMD, Reg.CORE_WDOG_KICK]
    exact ⟨by omega, by omega, ht (by omega)⟩
  | pt p =>
    simp only [StrandUnit.cmd, PlainPlace, Reg.PT_CMD, Reg.CORE_WDOG_KICK]
    exact ⟨by omega, by omega, ht (by omega)⟩
  | _ => exact ⟨⟨by decide, by decide, by decide, by decide⟩, by decide, rfl⟩

/-- LEDGER_CMD in the supervisor page takes the writes of the core and of the Loupe. -/
theorem placeWrite_LEDGER_CMD {d : Dev} {m : Master} {i : StrandId} (hr : Reaches d m i) (h : ∀ b, m ≠ .host b) :
    d.placeWrite m (.strand i Reg.LEDGER_CMD) 1 = d.onStrand i fun st => st.regWrite m.code Reg.LEDGER_CMD 1 := by
  have hs : d.strandWrite m i Reg.LEDGER_CMD 1 = d.onStrand i fun st => st.regWrite m.code Reg.LEDGER_CMD 1 := by
    simp [Dev.strandWrite, Reg.LEDGER_CMD, Reg.SUP_CTL, Reg.SUP_CAUSE, Reg.CORE_WDOG_KICK]
  rw [← hs]
  cases m with
  | host b => exact absurd rfl (h b)
  | core j =>
    obtain ⟨rfl, ha⟩ := hr
    have ha' : (decide (d.phase j = .run) || decide (d.phase j = .hold)) = true := by
      rcases ha with ha | ha <;> simp [ha]
    simp [Dev.placeWrite, Place.addr, Dev.busWrite, Dev.coreWrite, ha', Reg.LEDGER_CMD]
  | loupe =>
    obtain ⟨hl, ha, hf⟩ := hr
    have hp : d.loupeReach i Reg.LEDGER_CMD = true := by
      unfold Dev.loupeReach
      rcases ha with ha | ha <;> simp [ha, hf]
    have ht : LoupeReg (0x60000000 + 0x1000000 * i.val + Reg.LEDGER_CMD) := by simp only [LoupeReg, Reg.LEDGER_CMD]; omega
    exact (busWrite_loupeReg hl ht 1 (by decide)).trans (loupeRegWrite_strand (by decide) hp hf _)

/-- A snapshot command of a unit of a strand: the unit's snapshot in the strand, and no more. -/
theorem snap_strand {d : Dev} {m : Master} {i : StrandId} {u : StrandUnit} (hr : Reaches d m i) (h : u = .ledger → ∀ b, m ≠ .host b) :
    d.snap m (.strand i u) = d.onStrand i fun st => st.snapUnit u := by
  have e : (fun st : StrandSt => st.regWrite m.code u.cmd.1 (BitVec.ofNat 32 u.cmd.2)) = fun st => st.snapUnit u :=
    funext fun st => regWrite_snapCmd st m u h
  rw [← e]
  by_cases hu : u = .ledger
  · subst hu
    exact placeWrite_LEDGER_CMD hr (h rfl)
  · obtain ⟨hp, hv, ht⟩ := snapCmd_place hu d i
    exact placeWrite_strand d m i _ _ hr hp hv ht

theorem onStrand_snapUnit (d : Dev) (i : StrandId) (u : StrandUnit) :
    let e := d.onStrand i fun st => st.snapUnit u
    Only d e i [.cnt, .snap] ∧
      SnapTaken (view d i).thisCyc.c (d.strand i).cnt (d.strand i).snap (e.strand i).cnt (e.strand i).snap u.range.1 u.range.2 := by
  refine ⟨only_onStrand (keeps_snapRange (view d i) _ _), ?_⟩
  rw [Dev.onStrand_strand_same]
  exact snapUnit_taken (view d i) u

/-! ## The Clasp, the Loupe and the update unit -/

theorem claspWrite_CLASP_CMD (d : Dev) (w : Nat) (b : Bool) : d.claspWrite w b Reg.CLASP_CMD 1 = d.claspSnap := rfl

/-- A snapshot command of the Clasp by a host or the Loupe. -/
theorem snap_clasp {d : Dev} {m : Master} {b : Bool} (h : AtClasp d m b) : d.snap m .clasp = d.claspSnap := by
  cases m with
  | core i => exact h.elim
  | host c =>
    obtain ⟨-, hl, ho⟩ := h
    have hw : d.hostWriteWord c Reg.CLASP_CMD 1 = d.claspSnap := (if_pos ho).trans (claspWrite_CLASP_CMD d 0 c)
    rw [← hw]
    simp [Dev.snap, Dev.placeWrite, Place.addr, Dev.busWrite, Dev.hostWriteBytes, hl, inSramWindow, Reg.CLASP_CMD]
  | loupe => exact (busWrite_loupeReg h.2 ⟨by decide, by decide, by decide⟩ 1 (by decide)).trans (claspWrite_CLASP_CMD d 2 false)

theorem snap_loupe {d : Dev} (hl : d.loupeRuns = true) : d.snap .loupe .loupe = d.loupeSnap :=
  busWrite_loupeReg hl ⟨by decide, by decide, by decide⟩ 1 (by decide)

theorem snap_update {d : Dev} (hl : d.loupeRuns = true) : d.snap .loupe .update = d.updSnap :=
  busWrite_loupeReg hl ⟨by decide, by decide, by decide⟩ 1 (by decide)

theorem devKeeps_claspSnap (d : Dev) : DevKeeps d d.claspSnap [] := by
  intro p _ _
  cases p with
  | mode => exact ⟨rfl, rfl, rfl, rfl, rfl, rfl, rfl⟩
  | _ => rfl

theorem devKeeps_loupeSnap (d : Dev) : DevKeeps d d.loupeSnap [.loupe] := by
  intro p _ hp
  cases p with
  | loupe => simp at hp
  | mode => exact ⟨rfl, rfl, rfl, rfl, rfl, rfl, rfl⟩
  | _ => rfl

theorem devKeeps_updSnap (d : Dev) : DevKeeps d d.updSnap [.upd] := by
  intro p _ hp
  cases p with
  | upd => simp at hp
  | mode => exact ⟨rfl, rfl, rfl, rfl, rfl, rfl, rfl⟩
  | _ => rfl

/-! ## A Locket channel -/

/-- The snapshot command of a channel. -/
def Chan.snapped (x : Chan) : Chan :=
  let r := x.cyc.snap x.cnt x.snap 0 0x100
  { x with cyc := r.1, cnt := r.2.1, snap := r.2.2 }

/-- LKT_CMD.SNAP by an identity that the channel names. -/
theorem lktWrite_LKT_CMD {d : Dev} {c id : Nat} {j : Bool} (h : (d.chan c).sideOf id = some j) :
    d.lktWrite c id Reg.LKT_CMD 1 = d.withChan c Chan.snapped := by
  unfold Dev.lktWrite
  dsimp only
  rw [h]
  rfl

/-- A snapshot command of a channel by either of its sides. -/
theorem snap_locket {d : Dev} {m : Master} {c : Fin 64} {j : Bool} (h : AtChannel d m c j) :
    d.snap m (.locket c) = d.withChan c Chan.snapped := by
  obtain ⟨hs, ha⟩ := h
  have hc := c.isLt
  rw [← lktWrite_LKT_CMD hs]
  cases m with
  | host b =>
    obtain ⟨hl, hm⟩ := ha
    generalize hx : 0x1400000 + 0x100 * c.val + 0x2C = a
    have r1 : ¬ 0x2000000 < a + 4 := by omega
    have r2 : inSramWindow a = false := by simp [inSramWindow]; omega
    have r3 : a % 4 = 0 := by omega
    have r4 : a / 0x400000 = 5 := by omega
    have r5 : a % 0x400000 = 0x100 * c.val + 0x2C := by omega
    have r6 : (0x100 * c.val + 0x2C) / 0x100 = c.val := by omega
    have r7 : (0x100 * c.val + 0x2C) % 0x100 = 0x2C := by omega
    have r8 : 0x100 * c.val + 0x2C < 0x4000 := by omega
    simp [Dev.snap, Dev.placeWrite, Place.addr, Reg.LKT_CMD, hx, Dev.busWrite, Dev.hostWriteBytes, hl, r1, r2, r3, Dev.hostWriteWord, r4, hm,
      Dev.mailboxWrite, r5, r6, r7, r8, Master.ident]
  | core i =>
    have ha' : (decide (d.phase i = .run) || decide (d.phase i = .hold)) = true := by
      rcases ha with ha | ha <;> simp [ha]
    generalize hx : 0xE0000 + 0x100 * c.val + 0x2C = a
    have r1 : a % 4 = 0 := by omega
    have r2 : 0xE0000 ≤ a := by omega
    have r3 : a < 0xE4000 := by omega
    have r4 : (a - 0xE0000) / 0x100 = c.val := by omega
    have r5 : a % 0x100 = 0x2C := by omega
    simp [Dev.snap, Dev.placeWrite, Place.addr, Reg.LKT_CMD, hx, Dev.busWrite, Dev.coreWrite, ha', r1, r2, r3, r4, r5, Master.ident]
  | loupe =>
    generalize hx : 0x50040000 + 0x100 * c.val + 0x2C = a
    have hr : LoupeReg a := by simp only [LoupeReg]; omega
    have e1 : a ≠ Reg.HM_CMD := by simp only [Reg.HM_CMD]; omega
    have e2 : a ≠ Reg.LC_ADVANCE := by simp only [Reg.LC_ADVANCE]; omega
    have e3 : a ≠ Reg.TAMPER_CAUSE := by simp only [Reg.TAMPER_CAUSE]; omega
    have r1 : 0x50040000 ≤ a := by omega
    have r2 : a < 0x50044000 := by omega
    have r3 : (a - 0x50040000) / 0x100 = c.val := by omega
    have r4 : a % 0x100 = 0x2C := by omega
    simp [Dev.snap, Dev.placeWrite, Place.addr, Reg.LKT_CMD, hx, busWrite_loupeReg ha.1 hr, Dev.loupeRegWrite, e1, e2, e3, r1, r2, r3, r4,
      Master.ident]

theorem chan_withChan_same (d : Dev) (c : Nat) (f : Chan → Chan) :
    (d.withChan c f).chan c = { f { d.chan c with cyc := d.thisCyc.lkt.get {} c } with cyc := {} } := by
  simp [Dev.withChan, Dev.chan, Dev.setChan]

theorem chansBut_withChan (d : Dev) (c : Nat) (f : Chan → Chan) : ChansBut d (d.withChan c f) c := by
  intro k hk
  simp [Dev.withChan, Dev.chan, Dev.setChan, Dev.inCyc, hk]

theorem devKeeps_withChan (d : Dev) (c : Nat) (f : Chan → Chan) : DevKeeps d (d.withChan c f) [.lkt] := by
  intro p _ hp
  cases p with
  | lkt => simp at hp
  | mode => exact ⟨rfl, rfl, rfl, rfl, rfl, rfl, rfl⟩
  | _ => rfl

/-- What a channel's snapshot leaves of the channel. -/
theorem withChan_snapped (d : Dev) (c : Nat) :
    let e := d.withChan c Chan.snapped
    { e.chan c with cnt := {}, snap := {}, cyc := {} } = { d.chan c with cnt := {}, snap := {}, cyc := {} } ∧
      SnapTaken (d.thisCyc.lkt.get {} c) (d.chan c).cnt (d.chan c).snap (e.chan c).cnt (e.chan c).snap 0 0x100 := by
  dsimp only
  rw [chan_withChan_same]
  exact ⟨rfl, Cycle.snap_taken _ _ _ _ _⟩

/-! ## The obligation -/

theorem exec_snap (dt : Nat) (m : Master) (u : SnapUnit) (s : State) : exec (.snap dt m u) s = .next (s.runAt dt fun d => d.snap m u) := rfl

/-- Settles O15: each unit's command is that unit's snapshot operation, which leaves its counters as R17 has it. -/
theorem snapshots : Obligations.Snapshots := by
  unfold Obligations.Snapshots
  intro s dt m i u c b j d
  refine ⟨fun hr hu => ?_, fun h => ?_, fun h => ?_, fun hl => ⟨?_, ?_⟩⟩
  · refine ends_runAt (exec_snap ..) ?_
    rw [snap_strand hr hu]
    exact onStrand_snapUnit d i u
  · refine ends_runAt (exec_snap ..) ?_
    rw [snap_clasp h]
    exact ⟨devKeeps_claspSnap d, Cycle.snap_taken _ _ _ _ _⟩
  · refine ends_runAt (exec_snap ..) ?_
    rw [snap_locket h]
    exact ⟨devKeeps_withChan d c _, chansBut_withChan d c _, withChan_snapped d c⟩
  · refine ends_runAt (exec_snap ..) ?_
    rw [snap_loupe hl]
    exact ⟨devKeeps_loupeSnap d, rfl, Cycle.snap_taken _ _ _ _ _⟩
  · refine ends_runAt (exec_snap ..) ?_
    rw [snap_update hl]
    exact ⟨devKeeps_updSnap d, rfl, Cycle.snap_taken _ _ _ _ _⟩

end Sys2Proof.Machine
end

section
/-! The canonical form of the memories: a record of the present cycle can bring back a memory that lacks it. -/

namespace Sys2Proof.Machine

/-- A strand kept from before a reset of the present cycle, OFF, whose SRAM lists a byte that equals an unlisted one. -/
def illKept : SupSt × StrandSt × Nat := ({}, { banks := { mem := [(0, memDefault)] } }, 0)

/-- A device whose memories are all canonical, while `illKept` waits in the record of the present cycle for a fence that undoes the reset. -/
def illKeptDev : Dev :=
  { cfg := { policy := 2 ^ 8 }, sup := Quad.all { phase := .run }, cyc := { before := (Tab.set {} none 0 (some illKept)) } }

theorem canonical_illKeptDev : Canonical illKeptDev := by
  refine ⟨fun i => ?_, rfl, rfl, fun b => ?_, rfl⟩
  · fin_cases i <;> rfl
  · cases b <;> rfl

/-- The memory of strand 0 after a step. -/
def stepMem (s : State) : Option Memory :=
  match step s with
  | .next t => some (t.dev.strand 0).banks.mem
  | _ => none

theorem stepMem_illKept : stepMem { pending := [.supplyFail 0 0], dev := illKeptDev } = some [(0, memDefault)] := by decide +kernel

/-- Refutes O59: a fence that undoes a reset of its cycle brings back the strand as the record of the cycle keeps it, with a memory that no clause of
`Canonical` speaks of. -/
theorem not_memoriesStayCanonical : ¬ Obligations.MemoriesStayCanonical := by
  unfold Obligations.MemoriesStayCanonical
  intro h
  have hm := stepMem_illKept
  unfold stepMem at hm
  split at hm
  case h_1 t ht =>
    obtain ⟨hwf, -⟩ := h _ t canonical_illKeptDev ht
    have h0 := hwf 0
    rw [Option.some.inj hm] at h0
    exact absurd h0 (by decide)
  case h_2 => cases hm
end Sys2Proof.Machine
end

section
/-! The device right after reset. -/

namespace Sys2Proof.Machine

theorem legal_reset : Legal State.reset.dev := by
  refine ⟨by decide, .inl rfl, fun _ => rfl, fun h => absurd h (by decide), fun h => absurd h (by decide), fun h => absurd h (by decide)⟩

theorem strand_reset (i : StrandId) : State.reset.dev.strand i = {} := by fin_cases i <;> rfl

theorem supOf_reset (i : StrandId) : State.reset.dev.supOf i = {} := by fin_cases i <;> rfl

theorem canonical_reset : Canonical State.reset.dev :=
  ⟨fun i => by rw [strand_reset]; rfl, rfl, rfl, fun b => by cases b <;> rfl, rfl⟩

/-- Settles O60: every field of the device right after reset. -/
theorem resetState : Obligations.ResetState := by
  unfold Obligations.ResetState
  refine ⟨rfl, rfl, rfl, rfl, legal_reset, rfl, rfl, rfl, rfl, rfl, fun _ => ⟨rfl, rfl⟩, canonical_reset, fun i => ?_⟩
  have hp : State.reset.dev.phase i = .off := by rw [Dev.phase, supOf_reset]
  rw [strand_reset, supOf_reset]
  exact ⟨hp, rfl, rfl, fun _ => rfl, rfl, fun _ => rfl⟩

end Sys2Proof.Machine
end

section
/-! The parts of the device mode, which all but the mode's own operations leave as they are. -/

namespace Sys2Proof.Machine
/-- What the device mode is made of. -/
structure ModeKey where
  mode : Nat
  base : Nat
  por : Bool
  devLock : Bool
  holdBy : Option HoldBy
  holdFrom : Nat

def Dev.modeKey (d : Dev) : ModeKey := ⟨d.mode, d.base, d.por, d.devLock, d.holdBy, d.holdFrom⟩

@[simp] theorem Dev.modeKey_mk (ns mode base por devLock cfg holdBy holdFrom sleptAt sup strands clasp lkt epochs loupe hm flashes upd cyc out) :
    (Dev.mk ns mode base por devLock cfg holdBy holdFrom sleptAt sup strands clasp lkt epochs loupe hm flashes upd cyc out).modeKey =
      ⟨mode, base, por, devLock, holdBy, holdFrom⟩ := rfl

@[simp] theorem ModeKey.of_fields (d : Dev) : (⟨d.mode, d.base, d.por, d.devLock, d.holdBy, d.holdFrom⟩ : ModeKey) = d.modeKey := rfl

@[simp] theorem Dev.foldl_modeKey {α : Type} {f : Dev → α → Dev} (h : ∀ e a, (f e a).modeKey = e.modeKey) (l : List α) (d : Dev) :
    (l.foldl f d).modeKey = d.modeKey := by
  induction l generalizing d with
  | nil => rfl
  | cons a l ih => rw [List.foldl_cons, ih, h]
@[simp] theorem Dev.dwr_modeKey (d : Dev) (off : Nat) (v : Word) : (d.dwr off v).modeKey = d.modeKey := rfl

@[simp] theorem Dev.setMg_modeKey (d : Dev) (g : Nat) (x : MGroup) : (d.setMg g x).modeKey = d.modeKey := rfl

@[simp] theorem Dev.mgAbortDone_modeKey (d : Dev) (g : Nat) : (d.mgAbortDone g).modeKey = d.modeKey := by
  unfold Dev.mgAbortDone
  split <;> simp [apply_ite Dev.modeKey]

@[simp] theorem Dev.inCyc_modeKey (d : Dev) (f : DevCyc → DevCyc) : (d.inCyc f).modeKey = d.modeKey := rfl

@[simp] theorem Dev.cinc_modeKey (d : Dev) (x : Nat) : (d.cinc x).modeKey = d.modeKey := rfl

@[simp] theorem Dev.dflag_modeKey (d : Dev) (off i : Nat) : (d.dflag off i).modeKey = d.modeKey := rfl

@[simp] theorem Dev.abortSplit_modeKey (d : Dev) (differ : Bool) : (d.abortSplit differ).modeKey = d.modeKey := by
  simp [Dev.abortSplit, apply_ite Dev.modeKey]

@[simp] theorem Dev.linc_modeKey (d : Dev) (x : Nat) : (d.linc x).modeKey = d.modeKey := rfl

@[simp] theorem Dev.lwr_modeKey (d : Dev) (a : Nat) (v : Word) : (d.lwr a v).modeKey = d.modeKey := rfl

@[simp] theorem Dev.lflag_modeKey (d : Dev) (a i : Nat) : (d.lflag a i).modeKey = d.modeKey := rfl

@[simp] theorem Dev.pushLog_modeKey (d : Dev) (code : Nat) (cls : FClass) (source : Nat) (args : List Nat) (supp : Bool) :
    (d.pushLog code cls source args supp).modeKey = d.modeKey := by
  simp [Dev.pushLog, apply_ite Dev.modeKey]

@[simp] theorem Dev.uinc_modeKey (d : Dev) (x : Nat) : (d.uinc x).modeKey = d.modeKey := rfl

@[simp] theorem Dev.uwr_modeKey (d : Dev) (a : Nat) (v : Word) : (d.uwr a v).modeKey = d.modeKey := rfl

@[simp] theorem Dev.uflag_modeKey (d : Dev) (i : Nat) : (d.uflag i).modeKey = d.modeKey := rfl

@[simp] theorem Dev.trialFail_modeKey (d : Dev) : d.trialFail.modeKey = d.modeKey := by
  simp [Dev.trialFail, apply_ite Dev.modeKey]

@[simp] theorem Dev.logRec_modeKey (d : Dev) (code : Nat) (cls : FClass) (source : Nat) (args : List Nat) (supp : Bool) :
    (d.logRec code cls source args supp).modeKey = d.modeKey := by
  simp [Dev.logRec, apply_ite Dev.modeKey]

@[simp] theorem Dev.log_modeKey (d : Dev) (code : Nat) (cls : FClass) (source : Nat) (args : List Nat) :
    (d.log code cls source args).modeKey = d.modeKey := by
  simp [Dev.log]

@[simp] theorem Dev.suppressTx_modeKey (d : Dev) (g : Nat) (odd : Bool) (ws : List Word) : (d.suppressTx g odd ws).modeKey = d.modeKey := by
  unfold Dev.suppressTx
  dsimp only
  split <;> simp [apply_ite Dev.modeKey]

@[simp] theorem Dev.pcqPush_modeKey (d : Dev) (g : Nat) (r : PcqRec) : (d.pcqPush g r).modeKey = d.modeKey := by
  simp [Dev.pcqPush, apply_ite Dev.modeKey]

@[simp] theorem Dev.logOnce_modeKey (d : Dev) (code : Nat) (cls : FClass) (source key : Nat) (args : List Nat) :
    (d.logOnce code cls source key args).modeKey = d.modeKey := by
  unfold Dev.logOnce
  dsimp only
  split <;> simp

@[simp] theorem Dev.takeReport_modeKey (d : Dev) (i : StrandId) (r : Report) : (d.takeReport i r).modeKey = d.modeKey := by
  unfold Dev.takeReport
  split <;> simp

@[simp] theorem Dev.absorb_modeKey (d : Dev) (i : StrandId) (x : StrandSt) : (d.absorb i x).modeKey = d.modeKey := by
  simp [Dev.absorb]

@[simp] theorem Dev.onStrand_modeKey (d : Dev) (i : StrandId) (f : StrandSt → StrandSt) : (d.onStrand i f).modeKey = d.modeKey := by
  simp [Dev.onStrand]

@[simp] theorem Dev.onActive_modeKey (d : Dev) (i : StrandId) (f : StrandSt → StrandSt) : (d.onActive i f).modeKey = d.modeKey := by
  simp [Dev.onActive, apply_ite Dev.modeKey]

@[simp] theorem Dev.deliverTx_modeKey (d : Dev) (g : Nat) (odd : Bool) (ws : List Word) : (d.deliverTx g odd ws).modeKey = d.modeKey := by
  simp [Dev.deliverTx, apply_ite Dev.modeKey]

@[simp] theorem Dev.mergeRun_modeKey (d : Dev) (g fuel : Nat) : (d.mergeRun g fuel).modeKey = d.modeKey := by
  induction fuel generalizing d with
  | zero => rfl
  | succ n ih =>
    unfold Dev.mergeRun
    split
    · rfl
    · rw [ih]; split <;> simp

@[simp] theorem Dev.emit_modeKey (d : Dev) (o : Out) : (d.emit o).modeKey = d.modeKey := rfl

@[simp] theorem Dev.setLink_modeKey (d : Dev) (b : Bool) (x : Link) : (d.setLink b x).modeKey = d.modeKey := rfl

@[simp] theorem Dev.hostWrite_modeKey (d : Dev) (b : Bool) (addr : Nat) (bytes : List Byte) : (d.hostWrite b addr bytes).modeKey = d.modeKey := rfl

@[simp] theorem Dev.writeHeld_modeKey (d : Dev) (b : Bool) (held : List HeldWb) : (d.writeHeld b held).2.modeKey = d.modeKey := by
  induction held generalizing d with
  | nil => rfl
  | cons w ws ih =>
    unfold Dev.writeHeld
    split
    · rfl
    · rw [ih, Dev.hostWrite_modeKey]

@[simp] theorem Dev.writePre_modeKey (d : Dev) (b : Bool) (recs : List PcqRec) : (d.writePre b recs).2.modeKey = d.modeKey := by
  induction recs generalizing d with
  | nil => rfl
  | cons r rs ih =>
    unfold Dev.writePre
    dsimp only
    split
    · rw [ih, Dev.writeHeld_modeKey]
    · exact d.writeHeld_modeKey _ _

@[simp] theorem Dev.pcqBack_modeKey (d : Dev) (g : Nat) : (d.pcqBack g).modeKey = d.modeKey := by
  simp [Dev.pcqBack, apply_ite Dev.modeKey]

@[simp] theorem Dev.cadd_modeKey (d : Dev) (x n : Nat) : (d.cadd x n).modeKey = d.modeKey := rfl

@[simp] theorem Dev.dput_modeKey (d : Dev) (off hi lo v : Nat) : (d.dput off hi lo v).modeKey = d.modeKey := rfl

@[simp] theorem Dev.pcqWrite_modeKey (d : Dev) (g fuel : Nat) : (d.pcqWrite g fuel).modeKey = d.modeKey := by
  induction fuel generalizing d with
  | zero => rfl
  | succ n ih =>
    unfold Dev.pcqWrite
    dsimp only
    split
    · rfl
    · split
      · rfl
      · split
        · split <;> simp
        · rw [ih]
          split <;> simp [apply_ite Dev.modeKey]

@[simp] theorem Dev.pcqFlush_modeKey (d : Dev) (g : Nat) : (d.pcqFlush g).modeKey = d.modeKey := by
  simp [Dev.pcqFlush, apply_ite Dev.modeKey]

@[simp] theorem Dev.mgSettle_modeKey (d : Dev) (g : Nat) : (d.mgSettle g).modeKey = d.modeKey := by
  simp [Dev.mgSettle, apply_ite Dev.modeKey]

@[simp] theorem Dev.noteRx_modeKey (d : Dev) (i : StrandId) (r : HostReq) : (d.noteRx i r).modeKey = d.modeKey := by
  unfold Dev.noteRx
  (repeat' split) <;> simp [apply_ite Dev.modeKey]

@[simp] theorem Dev.sendReq_modeKey (d : Dev) (i : StrandId) (r : HostReq) : (d.sendReq i r).modeKey = d.modeKey := by
  unfold Dev.sendReq
  split <;> simp

@[simp] theorem Dev.pumpTurn_modeKey (d : Dev) (order : List StrandId) : (d.pumpTurn order).2.modeKey = d.modeKey := by
  induction order with
  | nil => rfl
  | cons i rest ih =>
    unfold Dev.pumpTurn
    split
    · exact ih
    · dsimp only
      split
      · exact ih
      · simp
      · simp

@[simp] theorem Dev.pumpN_modeKey (d : Dev) (fuel : Nat) : (d.pumpN fuel).modeKey = d.modeKey := by
  induction fuel generalizing d with
  | zero => rfl
  | succ n ih =>
    unfold Dev.pumpN
    dsimp only
    split
    · rw [ih, Dev.pumpTurn_modeKey]
    · rfl

@[simp] theorem Dev.pump_modeKey (d : Dev) : d.pump.modeKey = d.modeKey := by
  simp [Dev.pump]

@[simp] theorem Dev.setExchange_modeKey (d : Dev) (i : StrandId) (x : Option Exchange) : (d.setExchange i x).modeKey = d.modeKey := rfl

@[simp] theorem Dev.exchangeWatch_modeKey (d : Dev) (i : StrandId) : (d.exchangeWatch i).modeKey = d.modeKey := by
  unfold Dev.exchangeWatch
  dsimp only
  split <;> simp [apply_ite Dev.modeKey]

@[simp] theorem Dev.setChan_modeKey (d : Dev) (c : Nat) (x : Chan) : (d.setChan c x).modeKey = d.modeKey := rfl

@[simp] theorem Dev.withChan_modeKey (d : Dev) (c : Nat) (f : Chan → Chan) : (d.withChan c f).modeKey = d.modeKey := rfl

@[simp] theorem Dev.lktAck_modeKey (d : Dev) (c id : Nat) : (d.lktAck c id).modeKey = d.modeKey := by
  unfold Dev.lktAck
  dsimp only
  split
  · rfl
  · split
    · simp
    · split
      · split
        · split
          · split <;> simp
          · rfl
        · simp only [Dev.withChan_modeKey, Dev.inCyc_modeKey]
          split
          · split <;> simp
          · rfl
      · simp only [Dev.withChan_modeKey]
        split
        · split <;> simp
        · rfl

@[simp] theorem Dev.exchangeAck_modeKey (d : Dev) (i : StrandId) (x : Exchange) : (d.exchangeAck i x).modeKey = d.modeKey := by
  simp [Dev.exchangeAck]

@[simp] theorem Dev.exchangeMove_modeKey (d : Dev) (i : StrandId) : (d.exchangeMove i).modeKey = d.modeKey := by
  unfold Dev.exchangeMove
  (repeat' split) <;> simp [apply_ite Dev.modeKey]

@[simp] theorem Dev.exchangeRun_modeKey (d : Dev) : d.exchangeRun.modeKey = d.modeKey := by
  simp [Dev.exchangeRun]

@[simp] theorem Dev.lktPurgeEnd_modeKey (d : Dev) (c : Nat) (j : Bool) : (d.lktPurgeEnd c j).modeKey = d.modeKey := by
  unfold Dev.lktPurgeEnd
  dsimp only
  split <;> simp [apply_ite Dev.modeKey]

@[simp] theorem Dev.lktRetry_modeKey (d : Dev) (c : Nat) (j : Bool) (before : LktSide) (n : Option Notice) :
    (d.lktRetry c j before n).modeKey = d.modeKey := by
  unfold Dev.lktRetry
  split <;> simp [apply_ite Dev.modeKey]

@[simp] theorem Dev.lktTimeEnd_modeKey (d : Dev) (c : Nat) (j : Bool) : (d.lktTimeEnd c j).modeKey = d.modeKey := by
  unfold Dev.lktTimeEnd
  dsimp only
  split <;> simp [apply_ite Dev.modeKey]

@[simp] theorem Dev.lktEnd_modeKey (d : Dev) : d.lktEnd.modeKey = d.modeKey := by
  simp [Dev.lktEnd]

@[simp] theorem Dev.sendVectors_modeKey (d : Dev) (b : Bool) : (d.sendVectors b).modeKey = d.modeKey := by
  simp [Dev.sendVectors, apply_ite Dev.modeKey]

@[simp] theorem Dev.settle_modeKey (d : Dev) : d.settle.modeKey = d.modeKey := by
  simp [Dev.settle]

@[simp] theorem Dev.setStrand_modeKey (d : Dev) (i : StrandId) (x : StrandSt) : (d.setStrand i x).modeKey = d.modeKey := rfl

@[simp] theorem Dev.setSup_modeKey (d : Dev) (i : StrandId) (x : SupSt) : (d.setSup i x).modeKey = d.modeKey := rfl

@[simp] theorem Dev.unReset_modeKey (d : Dev) (i : StrandId) : (d.unReset i).modeKey = d.modeKey := by
  unfold Dev.unReset
  split <;> simp

@[simp] theorem Dev.updSup_modeKey (d : Dev) (i : StrandId) (f : SupSt → SupSt) : (d.updSup i f).modeKey = d.modeKey := rfl

@[simp] theorem Dev.timeLost_modeKey (d : Dev) (i : StrandId) : (d.timeLost i).modeKey = d.modeKey := by
  simp [Dev.timeLost, apply_ite Dev.modeKey]

@[simp] theorem Dev.setPhase_modeKey (d : Dev) (i : StrandId) (p : Phase) : (d.setPhase i p).modeKey = d.modeKey := by
  simp [Dev.setPhase, apply_ite Dev.modeKey]

@[simp] theorem Dev.toHold_modeKey (d : Dev) (i : StrandId) : (d.toHold i).modeKey = d.modeKey := by
  simp [Dev.toHold, apply_ite Dev.modeKey]

@[simp] theorem Dev.setCause_modeKey (d : Dev) (i : StrandId) (bit : Nat) : (d.setCause i bit).modeKey = d.modeKey := rfl

@[simp] theorem Dev.claspGate_modeKey (d : Dev) (i : StrandId) : (d.claspGate i).modeKey = d.modeKey := by
  simp [Dev.claspGate, apply_ite Dev.modeKey]

@[simp] theorem Dev.logCauses_modeKey (d : Dev) (i : StrandId) : (d.logCauses i).modeKey = d.modeKey := by
  simp [Dev.logCauses, apply_ite Dev.modeKey]

@[simp] theorem Dev.fenceInEnd_modeKey (d : Dev) (i : StrandId) : (d.fenceInEnd i).modeKey = d.modeKey := by
  simp [Dev.fenceInEnd, apply_ite Dev.modeKey]

@[simp] theorem Dev.logExpiry_modeKey (d : Dev) (code : Nat) (cls : FClass) (i : StrandId) : (d.logExpiry code cls i).modeKey = d.modeKey := by
  simp [Dev.logExpiry, apply_ite Dev.modeKey]

@[simp] theorem Dev.fence_modeKey (d : Dev) (i : StrandId) (causeBit code : Nat) : (d.fence i causeBit code).modeKey = d.modeKey := by
  simp [Dev.fence, apply_ite Dev.modeKey]

@[simp] theorem Dev.wdogAgain_modeKey (d : Dev) (i : StrandId) : (d.wdogAgain i).modeKey = d.modeKey := rfl

@[simp] theorem Dev.resetLogic_modeKey (d : Dev) (i : StrandId) (cold : Bool) : (d.resetLogic i cold).modeKey = d.modeKey := by
  simp [Dev.resetLogic, apply_ite Dev.modeKey]

@[simp] theorem Dev.noteReset_modeKey (d : Dev) (i : StrandId) : (d.noteReset i).modeKey = d.modeKey := rfl

@[simp] theorem Dev.resetIdent_modeKey (d : Dev) (id : Nat) : (d.resetIdent id).modeKey = d.modeKey := by
  unfold Dev.resetIdent
  dsimp only
  rw [Dev.foldl_modeKey fun _ _ => Dev.setChan_modeKey _ _ _]
  rfl

@[simp] theorem Dev.strandWarm_modeKey (d : Dev) (i : StrandId) : (d.strandWarm i).modeKey = d.modeKey := by
  simp [Dev.strandWarm, apply_ite Dev.modeKey]

@[simp] theorem Dev.noteBanks_modeKey (d : Dev) (i : StrandId) : (d.noteBanks i).modeKey = d.modeKey := rfl

@[simp] theorem Dev.loupeWarm_modeKey (d : Dev) (i : StrandId) : (d.loupeWarm i).modeKey = d.modeKey := by
  simp [Dev.loupeWarm, apply_ite Dev.modeKey]

@[simp] theorem Dev.timeDoubt_modeKey (d : Dev) : d.timeDoubt.modeKey = d.modeKey := rfl

@[simp] theorem Dev.timeWatch_modeKey (d before : Dev) : (d.timeWatch before).modeKey = d.modeKey := by
  simp [Dev.timeWatch, apply_ite Dev.modeKey]

@[simp] theorem Dev.timeBy_modeKey (d : Dev) (n : Nat) : (d.timeBy n).modeKey = d.modeKey := rfl

@[simp] theorem Dev.hmWrite_modeKey (d : Dev) (off : Nat) (bs : List Byte) : (d.hmWrite off bs).modeKey = d.modeKey := by
  simp [Dev.hmWrite, apply_ite Dev.modeKey]

@[simp] theorem Dev.wipe_modeKey (d : Dev) : d.wipe.modeKey = d.modeKey := rfl

@[simp] theorem Dev.hmWipe_modeKey (d : Dev) : d.hmWipe.modeKey = d.modeKey := by
  simp [Dev.hmWipe, apply_ite Dev.modeKey]

@[simp] theorem Dev.strandOff_modeKey (d : Dev) (i : StrandId) : (d.strandOff i).modeKey = d.modeKey := by
  simp [Dev.strandOff, apply_ite Dev.modeKey]

@[simp] theorem Dev.disarm_modeKey (d : Dev) : d.disarm.modeKey = d.modeKey := by
  simp [Dev.disarm, apply_ite Dev.modeKey]

@[simp] theorem Dev.tamperClear_modeKey (d : Dev) (v : Nat) : (d.tamperClear v).modeKey = d.modeKey := rfl

@[simp] theorem Dev.lktPost_modeKey (d : Dev) (c id : Nat) (hi : Word) : (d.lktPost c id hi).modeKey = d.modeKey := by
  unfold Dev.lktPost
  dsimp only
  split <;> simp [apply_ite Dev.modeKey]

@[simp] theorem Dev.lktWrite_modeKey (d : Dev) (c id off : Nat) (v : Word) : (d.lktWrite c id off v).modeKey = d.modeKey := by
  unfold Dev.lktWrite
  dsimp only
  split
  · rfl
  · split <;> simp [apply_ite Dev.modeKey]

@[simp] theorem Dev.bindWrite_modeKey (d : Dev) (c : Nat) (v : Word) : (d.bindWrite c v).modeKey = d.modeKey := by
  unfold Dev.bindWrite
  split
  · rfl
  · exact Dev.setChan_modeKey _ _ _

@[simp] theorem Dev.loupeSnap_modeKey (d : Dev) : d.loupeSnap.modeKey = d.modeKey := rfl

@[simp] theorem Dev.updSnap_modeKey (d : Dev) : d.updSnap.modeKey = d.modeKey := rfl

@[simp] theorem Dev.loupePlain_modeKey (d : Dev) (a : Nat) (v : Word) : (d.loupePlain a v).modeKey = d.modeKey := by
  unfold Dev.loupePlain
  split <;> simp [apply_ite Dev.modeKey]

@[simp] theorem Dev.claspSnap_modeKey (d : Dev) : d.claspSnap.modeKey = d.modeKey := rfl

@[simp] theorem Dev.irqArm_modeKey (d : Dev) (b hi : Bool) (v : Word) : (d.irqArm b hi v).modeKey = d.modeKey := rfl

@[simp] theorem Dev.devPlain_modeKey (d : Dev) (w off : Nat) (v : Word) : (d.devPlain w off v).modeKey = d.modeKey := by
  unfold Dev.devPlain
  split <;> simp [apply_ite Dev.modeKey]

@[simp] theorem Dev.accWrite_modeKey (d : Dev) (w off : Nat) (v : Word) : (d.accWrite w off v).modeKey = d.modeKey := by
  simp [Dev.accWrite, apply_ite Dev.modeKey]

@[simp] theorem Dev.mgRefuse_modeKey (d : Dev) (g : Nat) : (d.mgRefuse g).modeKey = d.modeKey := by
  simp [Dev.mgRefuse]

@[simp] theorem Dev.mgCfgWrite_modeKey (d : Dev) (g : Nat) (v : Word) : (d.mgCfgWrite g v).modeKey = d.modeKey := by
  unfold Dev.mgCfgWrite
  extract_lets c sz keep r marks mark m
  split
  · split
    · rfl
    · split
      · exact d.mgRefuse_modeKey _
      · rw [Dev.setMg_modeKey, Dev.dwr_modeKey]
  · split
    · split
      · exact d.mgRefuse_modeKey _
      · rw [Dev.dwr_modeKey, Dev.dwr_modeKey, Dev.setMg_modeKey, Dev.dwr_modeKey]
    · exact d.dwr_modeKey _ _

@[simp] theorem Dev.mgTailWrite_modeKey (d : Dev) (g v : Nat) : (d.mgTailWrite g v).modeKey = d.modeKey := by
  simp [Dev.mgTailWrite, apply_ite Dev.modeKey]

@[simp] theorem Dev.mgAbort_modeKey (d : Dev) (g : Nat) (v : Word) : (d.mgAbort g v).modeKey = d.modeKey := by
  simp [Dev.mgAbort, apply_ite Dev.modeKey]

@[simp] theorem Dev.mgWrite_modeKey (d : Dev) (w g o : Nat) (v : Word) : (d.mgWrite w g o v).modeKey = d.modeKey := by
  unfold Dev.mgWrite
  split <;> simp [apply_ite Dev.modeKey]

@[simp] theorem Dev.msixWrite_modeKey (d : Dev) (b : Bool) (k : Nat) (v : Word) : (d.msixWrite b k v).modeKey = d.modeKey := rfl

@[simp] theorem Dev.claspWrite_modeKey (d : Dev) (w : Nat) (b : Bool) (off : Nat) (v : Word) : (d.claspWrite w b off v).modeKey = d.modeKey := by
  simp [Dev.claspWrite, apply_ite Dev.modeKey]

@[simp] theorem Dev.fenceInSet_modeKey (d : Dev) (i : StrandId) (bit : Nat) : (d.fenceInSet i bit).modeKey = d.modeKey := by
  simp [Dev.fenceInSet, apply_ite Dev.modeKey]

@[simp] theorem Dev.fenceInRelease_modeKey (d : Dev) (i : StrandId) : (d.fenceInRelease i).modeKey = d.modeKey := by
  simp [Dev.fenceInRelease]

@[simp] theorem Dev.holdEnter_modeKey (d : Dev) (i : StrandId) : (d.holdEnter i).modeKey = d.modeKey := by
  simp [Dev.holdEnter, apply_ite Dev.modeKey]

@[simp] theorem Dev.toRun_modeKey (d : Dev) (i : StrandId) : (d.toRun i).modeKey = d.modeKey := by
  simp [Dev.toRun, apply_ite Dev.modeKey]

@[simp] theorem Dev.supCauseWrite_modeKey (d : Dev) (m : Master) (i : StrandId) (v : Word) : (d.supCauseWrite m i v).modeKey = d.modeKey := by
  unfold Dev.supCauseWrite
  split <;> simp

@[simp] theorem Dev.setCore_modeKey (d : Dev) (c : Fin 5) (k : DCore) : (d.setCore c k).modeKey = d.modeKey := by
  simp [Dev.setCore, apply_ite Dev.modeKey]

@[simp] theorem Dev.span_modeKey (d : Dev) (n : Nat) : (d.span n).modeKey = d.modeKey := by
  simp [Dev.span]

@[simp] theorem Dev.pass_modeKey (d : Dev) (n : Nat) : (d.pass n).modeKey = d.modeKey := by
  simp [Dev.pass, apply_ite Dev.modeKey]

@[simp] theorem Dev.later_modeKey (d : Dev) (dt : Nat) : (d.later dt).modeKey = d.modeKey := by
  simp [Dev.later, apply_ite Dev.modeKey]

@[simp] theorem Dev.badAccess_modeKey (d : Dev) : d.badAccess.modeKey = d.modeKey := rfl

@[simp] theorem Dev.hostSramWrite_modeKey (d : Dev) (i : StrandId) (a : Nat) (bs : List Byte) : (d.hostSramWrite i a bs).modeKey = d.modeKey := by
  simp [Dev.hostSramWrite, apply_ite Dev.modeKey]

@[simp] theorem Dev.mailboxWrite_modeKey (d : Dev) (b : Bool) (o : Nat) (v : Word) : (d.mailboxWrite b o v).modeKey = d.modeKey := by
  simp [Dev.mailboxWrite, apply_ite Dev.modeKey]

@[simp] theorem Dev.setRec_modeKey (d : Dev) (r : Recovery) : (d.setRec r).modeKey = d.modeKey := rfl

@[simp] theorem Dev.recRefuse_modeKey (d : Dev) (code : Nat) : (d.recRefuse code).modeKey = d.modeKey := by
  simp [Dev.recRefuse]

@[simp] theorem Dev.recOpen_modeKey (d : Dev) (b resume : Bool) : (d.recOpen b resume).modeKey = d.modeKey := by
  simp [Dev.recOpen, apply_ite Dev.modeKey]

@[simp] theorem Dev.recClose_modeKey (d : Dev) (b : Bool) : (d.recClose b).modeKey = d.modeKey := by
  simp [Dev.recClose, apply_ite Dev.modeKey]

@[simp] theorem Dev.recoveryWrite_modeKey (d : Dev) (b : Bool) (o : Nat) (v : Word) : (d.recoveryWrite b o v).modeKey = d.modeKey := by
  unfold Dev.recoveryWrite
  dsimp only
  split
  · exact d.setRec_modeKey _
  · split
    · split
      · exact d.recOpen_modeKey _ _
      · exact d.recClose_modeKey _
      · rfl
    · exact d.setRec_modeKey _
    · simp [apply_ite Dev.modeKey]
    · rfl

@[simp] theorem Dev.coreCount_modeKey (d : Dev) (c : Fin 5) (x : Nat) : (d.coreCount c x).modeKey = d.modeKey := by
  simp [Dev.coreCount, apply_ite Dev.modeKey]

@[simp] theorem Dev.noteTrap_modeKey (d : Dev) (c : Fin 5) (cause tpc : Nat) : (d.noteTrap c cause tpc).modeKey = d.modeKey := by
  simp [Dev.noteTrap, apply_ite Dev.modeKey]

@[simp] theorem Dev.doubleTrap_modeKey (d : Dev) (c : Fin 5) (cause tpc : Nat) : (d.doubleTrap c cause tpc).modeKey = d.modeKey := by
  simp [Dev.doubleTrap, apply_ite Dev.modeKey]

@[simp] theorem Dev.coreTrap_modeKey (d : Dev) (c : Fin 5) (cause tpc tval : Nat) : (d.coreTrap c cause tpc tval).modeKey = d.modeKey := by
  simp [Dev.coreTrap, apply_ite Dev.modeKey]

@[simp] theorem Dev.lktRead_modeKey (d : Dev) (c id : Nat) : (d.lktRead c id).2.modeKey = d.modeKey := by
  unfold Dev.lktRead
  dsimp only
  split
  · rfl
  · split
    · rfl
    · split <;> simp

@[simp] theorem Dev.onStrandR_modeKey {α : Type} (d : Dev) (i : StrandId) (f : StrandSt → α × StrandSt) : (d.onStrandR i f).2.modeKey = d.modeKey := by
  simp [Dev.onStrandR]

@[simp] theorem Dev.strandRead_modeKey (d : Dev) (m : Nat) (i : StrandId) (off : Nat) : (d.strandRead m i off).2.modeKey = d.modeKey := by
  unfold Dev.strandRead
  split <;> simp

@[simp] theorem Dev.loupeReadN_modeKey (d : Dev) (a n : Nat) : (d.loupeReadN a n).2.modeKey = d.modeKey := by
  unfold Dev.loupeReadN
  dsimp only
  split
  · rfl
  · simp only [apply_ite Prod.snd, apply_ite Dev.modeKey, Dev.lktRead_modeKey, Dev.strandRead_modeKey, Dev.onStrandR_modeKey,
      Dev.modeKey_mk, ModeKey.of_fields, ite_self]

@[simp] theorem Dev.coreRead_modeKey (d : Dev) (i : StrandId) (off : Nat) : (d.coreRead i off).2.modeKey = d.modeKey := by
  unfold Dev.coreRead
  (repeat' split) <;> simp

/-- The device after a fetch is the device after the read it makes: of a register, whose word is cut to the bytes asked for. -/
theorem fetched_modeKey {d : Dev} {r : Word × Dev} (h : r.2.modeKey = d.modeKey) (f : Word → List Byte) :
    (have x := r
     ((false, f x.1, x.2) : Bool × List Byte × Dev)).2.2.modeKey = d.modeKey := h

/-- The same of the strand's SRAM. -/
theorem fetchedUe_modeKey {d : Dev} {r : (Bool × List Byte) × Dev} (h : r.2.modeKey = d.modeKey) :
    (have x := r
     ((x.1.1, x.1.2, x.2) : Bool × List Byte × Dev)).2.2.modeKey = d.modeKey := h

@[simp] theorem Dev.coreFetch_modeKey (d : Dev) (c : Fin 5) (a n : Nat) : (d.coreFetch c a n).2.2.modeKey = d.modeKey := by
  unfold Dev.coreFetch
  split
  · exact d.loupeReadN_modeKey _ _
  · split
    · exact fetched_modeKey (d.coreRead_modeKey _ _) fun w => leBytes n (w.toNat / 2 ^ (8 * (a % 4)))
    · exact fetchedUe_modeKey (Dev.onStrandR_modeKey d _ _)

@[simp] theorem Dev.retire_modeKey (d : Dev) (c : Fin 5) (k : DCore) (pc : Nat) : (d.retire c k pc).modeKey = d.modeKey := by
  simp [Dev.retire]

@[simp] theorem Dev.coreIrq_modeKey (d : Dev) (c : Fin 5) : (d.coreIrq c).modeKey = d.modeKey := by
  simp [Dev.coreIrq, apply_ite Dev.modeKey]

@[simp] theorem Dev.waitEnd_modeKey (d : Dev) (c : Fin 5) : (d.waitEnd c).modeKey = d.modeKey := by
  simp [Dev.waitEnd]

@[simp] theorem Dev.waitOp_modeKey (d : Dev) (c : Fin 5) : (d.waitOp c).modeKey = d.modeKey := by
  simp [Dev.waitOp, apply_ite Dev.modeKey]

@[simp] theorem Dev.coreEnd_modeKey (d : Dev) (c : Fin 5) (w : Nat) (r : DRes) : (d.coreEnd c w r).modeKey = d.modeKey := by
  unfold Dev.coreEnd
  (repeat' split) <;> simp

@[simp] theorem Dev.takeWear_modeKey (d : Dev) : d.takeWear.modeKey = d.modeKey := rfl

@[simp] theorem Dev.setFlash_modeKey (d : Dev) (b : Bool) (f : Flash) : (d.setFlash b f).modeKey = d.modeKey := rfl

@[simp] theorem Dev.flashFail_modeKey (d : Dev) (b : Bool) : (d.flashFail b).modeKey = d.modeKey := by
  simp [Dev.flashFail, apply_ite Dev.modeKey]

@[simp] theorem Dev.flashUp_modeKey (d : Dev) (b : Bool) (size : Option Nat) : (d.flashUp b size).modeKey = d.modeKey := by
  unfold Dev.flashUp
  split <;> simp

@[simp] theorem Dev.advanceCounter_modeKey (d : Dev) (k v : Nat) : (d.advanceCounter k v).modeKey = d.modeKey := by
  simp [Dev.advanceCounter, apply_ite Dev.modeKey]

@[simp] theorem Dev.confirmCounter_modeKey (d : Dev) : d.confirmCounter.modeKey = d.modeKey := by
  unfold Dev.confirmCounter
  split <;> simp [apply_ite Dev.modeKey]

@[simp] theorem Dev.hmStart_modeKey (d : Dev) (err : Bool) : (d.hmStart err).modeKey = d.modeKey := by
  simp [Dev.hmStart, apply_ite Dev.modeKey]

@[simp] theorem Dev.strandCold_modeKey (d : Dev) (i : StrandId) : (d.strandCold i).modeKey = d.modeKey := by
  simp [Dev.strandCold, apply_ite Dev.modeKey]

@[simp] theorem Dev.eachFlash_modeKey (d : Dev) (f : Flash → Flash) : (d.eachFlash f).modeKey = d.modeKey := rfl

@[simp] theorem Dev.setBoot_modeKey (d : Dev) (r : BootRec) : (d.setBoot r).modeKey = d.modeKey := rfl

@[simp] theorem Dev.writeBoot_modeKey (d : Dev) (r : BootRec) : (d.writeBoot r).modeKey = d.modeKey := rfl

@[simp] theorem Dev.revertBoot_modeKey (d : Dev) (r : BootRec) : (d.revertBoot r).modeKey = d.modeKey := by
  simp [Dev.revertBoot]

@[simp] theorem Dev.countTry_modeKey (d : Dev) (r : BootRec) : (d.countTry r).modeKey = d.modeKey := by
  simp [Dev.countTry, apply_ite Dev.modeKey]

@[simp] theorem Dev.readTwice_modeKey (d : Dev) (outcome : Nat) : (d.readTwice outcome).modeKey = d.modeKey := by
  unfold Dev.readTwice
  split <;> simp

@[simp] theorem Dev.testSlot_modeKey (d : Dev) (s : StartIn) (n : Nat) : (d.testSlot s n).2.modeKey = d.modeKey := by
  unfold Dev.testSlot
  split <;> simp

@[simp] theorem Dev.select_modeKey (d : Dev) (s : StartIn) : (d.select s).2.modeKey = d.modeKey := by
  unfold Dev.select
  split
  · simp
  · dsimp only
    split
    · simp
    · split <;> simp

@[simp] theorem Dev.logLate_modeKey (d : Dev) : d.logLate.modeKey = d.modeKey := by
  simp [Dev.logLate]

@[simp] theorem Dev.loupeCold_modeKey (d : Dev) (i : StrandId) : (d.loupeCold i).modeKey = d.modeKey := by
  simp [Dev.loupeCold, apply_ite Dev.modeKey]

@[simp] theorem Dev.coldBy_modeKey (d : Dev) (i : StrandId) (relock : Bool) : (d.coldBy i relock).modeKey = d.modeKey := by
  simp [Dev.coldBy, apply_ite Dev.modeKey]

@[simp] theorem Dev.claspLinkReset_modeKey (d : Dev) (b : Bool) : (d.claspLinkReset b).modeKey = d.modeKey := by
  simp [Dev.claspLinkReset, apply_ite Dev.modeKey]

@[simp] theorem Dev.strandsLinkReset_modeKey (d : Dev) (b : Bool) : (d.strandsLinkReset b).modeKey = d.modeKey := by
  simp [Dev.strandsLinkReset]

@[simp] theorem Dev.linkReset_modeKey (d : Dev) (b : Bool) : (d.linkReset b).modeKey = d.modeKey := by
  simp [Dev.linkReset, apply_ite Dev.modeKey]

@[simp] theorem Dev.exchangeLost_modeKey (d : Dev) : d.exchangeLost.modeKey = d.modeKey := by
  unfold Dev.exchangeLost
  refine Dev.foldl_modeKey (fun e i => ?_) _ _
  split <;> simp

@[simp] theorem Dev.flushOne_modeKey (d : Dev) (b : Bool) (rs : List LogRec) (fails : Nat) : (d.flushOne b rs fails).modeKey = d.modeKey := by
  simp [Dev.flushOne, apply_ite Dev.modeKey]

@[simp] theorem Dev.logFlush_modeKey (d : Dev) (failA failB : Nat) : (d.logFlush failA failB).modeKey = d.modeKey := by
  simp [Dev.logFlush, apply_ite Dev.modeKey]

@[simp] theorem Dev.lktLost_modeKey (d : Dev) : d.lktLost.modeKey = d.modeKey := by
  simp [Dev.lktLost, apply_ite Dev.modeKey]

@[simp] theorem Dev.claspReset_modeKey (d : Dev) : d.claspReset.modeKey = d.modeKey := by
  simp [Dev.claspReset, apply_ite Dev.modeKey]

@[simp] theorem Dev.claspCheck_modeKey (d : Dev) (clean : Bool) : (d.claspCheck clean).modeKey = d.modeKey := by
  simp [Dev.claspCheck, apply_ite Dev.modeKey]

@[simp] theorem Dev.clkReturn_modeKey (d : Dev) (i : StrandId) : (d.clkReturn i).modeKey = d.modeKey := by
  simp [Dev.clkReturn, apply_ite Dev.modeKey]

@[simp] theorem Dev.heartbeat_modeKey (d : Dev) (i : StrandId) : (d.heartbeat i).modeKey = d.modeKey := by
  simp [Dev.heartbeat, apply_ite Dev.modeKey]

@[simp] theorem Dev.hbTimeout_modeKey (d : Dev) (i : StrandId) : (d.hbTimeout i).modeKey = d.modeKey := by
  simp [Dev.hbTimeout, apply_ite Dev.modeKey]

@[simp] theorem Dev.loadStart_modeKey (d : Dev) (i : StrandId) (tests : List (Fin 16 × Bool)) : (d.loadStart i tests).modeKey = d.modeKey := by
  simp [Dev.loadStart, apply_ite Dev.modeKey]

@[simp] theorem Dev.setLoad_modeKey (d : Dev) (i : StrandId) (r : LoadRecord) : (d.setLoad i r).modeKey = d.modeKey := rfl

@[simp] theorem Dev.rejoinGroup_modeKey (d : Dev) (i : StrandId) (g : Nat) : (d.rejoinGroup i g).2.modeKey = d.modeKey := by
  unfold Dev.rejoinGroup
  dsimp only
  split <;> simp [apply_ite Dev.modeKey]

@[simp] theorem Dev.rejoinSync_modeKey (d : Dev) (i0 : StrandId) : (d.rejoinSync i0).2.modeKey = d.modeKey := by
  unfold Dev.rejoinSync
  have h : ∀ (l : List Nat) (a : Bool × Dev),
      (l.foldl (fun (a : Bool × Dev) g => if a.1 then a.2.rejoinGroup i0 g else a) a).2.modeKey = a.2.modeKey := by
    intro l
    induction l with
    | nil => exact fun _ => rfl
    | cons g l ih =>
      intro a
      rw [List.foldl_cons, ih]
      split <;> simp
  dsimp only
  split
  · exact h _ _
  · rw [Dev.onStrand_modeKey, h]

@[simp] theorem Dev.startTrial_modeKey (d : Dev) (t7 : Bool) : (d.startTrial t7).modeKey = d.modeKey := by
  simp [Dev.startTrial, apply_ite Dev.modeKey]

@[simp] theorem Dev.bindLock_modeKey (d : Dev) : d.bindLock.modeKey = d.modeKey := by
  simp [Dev.bindLock, apply_ite Dev.modeKey]

@[simp] theorem Dev.setInfo_modeKey (d : Dev) (area : Nat) (i : Option ImgInfo) : (d.setInfo area i).modeKey = d.modeKey := rfl

@[simp] theorem Dev.storeArea_modeKey (d : Dev) (area off : Nat) (bs : List Byte) : (d.storeArea area off bs).modeKey = d.modeKey := rfl

@[simp] theorem Dev.eraseArea_modeKey (d : Dev) (area : Nat) : (d.eraseArea area).modeKey = d.modeKey := rfl

@[simp] theorem Dev.migrated_modeKey (d : Dev) (payload : List Byte) : (d.migrated payload).modeKey = d.modeKey := by
  simp [Dev.migrated]

@[simp] theorem Dev.hostSramRead_modeKey (d : Dev) (i : StrandId) (a n : Nat) : (d.hostSramRead i a n).modeKey = d.modeKey := by
  simp [Dev.hostSramRead, apply_ite Dev.modeKey]

@[simp] theorem Dev.mailboxRead_modeKey (d : Dev) (b : Bool) (o : Nat) : (d.mailboxRead b o).2.modeKey = d.modeKey := by
  unfold Dev.mailboxRead
  (repeat' split) <;> simp

@[simp] theorem Dev.hostStrandRead_modeKey (d : Dev) (b : Bool) (i : StrandId) (off : Nat) : (d.hostStrandRead b i off).2.modeKey = d.modeKey := by
  unfold Dev.hostStrandRead
  (repeat' split) <;> simp

@[simp] theorem Dev.hostReadWord_modeKey (d : Dev) (b : Bool) (addr : Nat) : (d.hostReadWord b addr).2.modeKey = d.modeKey := by
  unfold Dev.hostReadWord
  (repeat' split) <;> simp

@[simp] theorem Dev.hostRead_modeKey (d : Dev) (b : Bool) (addr n : Nat) : (d.hostRead b addr n).modeKey = d.modeKey := by
  simp [Dev.hostRead, apply_ite Dev.modeKey]

@[simp] theorem Dev.loupeRead_modeKey (d : Dev) (a : Nat) : (d.loupeRead a).2.modeKey = d.modeKey := by
  simp [Dev.loupeRead]

@[simp] theorem Dev.busRead_modeKey (d : Dev) (m : Master) (addr : Nat) : (d.busRead m addr).modeKey = d.modeKey := by
  unfold Dev.busRead
  split <;> simp [apply_ite Dev.modeKey]

@[simp] theorem Dev.placeRead_modeKey (d : Dev) (m : Master) (p : Place) : (d.placeRead m p).modeKey = d.modeKey := by
  unfold Dev.placeRead
  split <;> simp

@[simp] theorem Dev.beforeBead_modeKey (d : Dev) (a : BeadAt) : (d.beforeBead a).modeKey = d.modeKey := by
  simp [Dev.beforeBead]

@[simp] theorem Dev.beadRun_modeKey (d : Dev) (a : BeadAt) (body : Nat → StrandSt → BeadRes) : (d.beadRun a body).modeKey = d.modeKey := by
  simp [Dev.beadRun, apply_ite Dev.modeKey]

@[simp] theorem Dev.onClocked_modeKey (d : Dev) (i : StrandId) (f : StrandSt → StrandSt) : (d.onClocked i f).modeKey = d.modeKey := by
  simp [Dev.onClocked, apply_ite Dev.modeKey]

@[simp] theorem Dev.pcqReturn_modeKey (d : Dev) (g : Nat) : (d.pcqReturn g).modeKey = d.modeKey := by
  unfold Dev.pcqReturn
  dsimp only
  split <;> simp

@[simp] theorem Dev.readbackReturn_modeKey (d : Dev) (w : BackOf) : (d.readbackReturn w).modeKey = d.modeKey := by
  unfold Dev.readbackReturn
  split <;> simp

@[simp] theorem Dev.popReq_modeKey (d : Dev) (i : StrandId) : (d.popReq i).modeKey = d.modeKey := rfl

@[simp] theorem Dev.returnHead_modeKey (d : Dev) (i : StrandId) (q : Nat) : (d.returnHead i q).modeKey = d.modeKey := by
  simp [Dev.returnHead]

@[simp] theorem Dev.mergeRx_modeKey (d : Dev) (g : Nat) (odd : Bool) (ws : List Word) : (d.mergeRx g odd ws).modeKey = d.modeKey := by
  unfold Dev.mergeRx
  dsimp only
  split
  · simp
  · split
    · split
      · simp
      · simp [apply_ite Dev.modeKey]
    · split <;> simp

@[simp] theorem Dev.accTable_modeKey (d : Dev) (i : StrandId) (r : Nat) : (d.accTable i r).modeKey = d.modeKey := by
  unfold Dev.accTable
  split <;> simp [apply_ite Dev.modeKey]

@[simp] theorem Dev.accGroup_modeKey (d : Dev) (g : Nat) : (d.accGroup g).modeKey = d.modeKey := by
  unfold Dev.accGroup
  split <;> simp [apply_ite Dev.modeKey]

@[simp] theorem Dev.accReport_modeKey (d : Dev) (what : AccOf) : (d.accReport what).modeKey = d.modeKey := by
  unfold Dev.accReport
  split <;> simp

@[simp] theorem Dev.pmChange_modeKey (d : Dev) (b d3 : Bool) : (d.pmChange b d3).modeKey = d.modeKey := by
  simp [Dev.pmChange, apply_ite Dev.modeKey]

@[simp] theorem Dev.bar2Read_modeKey (d : Dev) (b : Bool) (off n : Nat) : (d.bar2Read b off n).modeKey = d.modeKey := by
  simp [Dev.bar2Read, apply_ite Dev.modeKey]

@[simp] theorem Dev.bar2Write_modeKey (d : Dev) (b : Bool) (off : Nat) (bs : List Byte) : (d.bar2Write b off bs).modeKey = d.modeKey := by
  simp [Dev.bar2Write, apply_ite Dev.modeKey]

@[simp] theorem Dev.bar2_modeKey (d : Dev) (b : Bool) (off : Nat) (acc : HostAcc) : (d.bar2 b off acc).modeKey = d.modeKey := by
  unfold Dev.bar2
  split <;> simp

@[simp] theorem Dev.breakHalt_modeKey (d : Dev) (i : StrandId) : (d.breakHalt i).modeKey = d.modeKey := by
  simp [Dev.breakHalt]

@[simp] theorem Dev.waitWake_modeKey (d : Dev) (c : Fin 5) : (d.waitWake c).modeKey = d.modeKey := by
  simp [Dev.waitWake, apply_ite Dev.modeKey]

@[simp] theorem Dev.mulResult_modeKey (d : Dev) (c : Fin 5) : (d.mulResult c).modeKey = d.modeKey := by
  unfold Dev.mulResult
  split <;> simp [apply_ite Dev.modeKey]

@[simp] theorem Dev.divResult_modeKey (d : Dev) (c : Fin 5) : (d.divResult c).modeKey = d.modeKey := by
  unfold Dev.divResult
  split <;> simp [apply_ite Dev.modeKey]

@[simp] theorem Dev.breakpoint_modeKey (d : Dev) (i : StrandId) : (d.breakpoint i).modeKey = d.modeKey := by
  simp [Dev.breakpoint, apply_ite Dev.modeKey]

@[simp] theorem Dev.lktTimeout_modeKey (d : Dev) (c id : Nat) : (d.lktTimeout c id).modeKey = d.modeKey := by
  unfold Dev.lktTimeout
  dsimp only
  split <;> simp [apply_ite Dev.modeKey]

@[simp] theorem Dev.tempOne_modeKey (d : Dev) (j : Fin 12) (t : Int) : (d.tempOne j t).modeKey = d.modeKey := by
  simp [Dev.tempOne, apply_ite Dev.modeKey]

@[simp] theorem Dev.railSample_modeKey (d : Dev) (i : StrandId) (core serdes : Nat) : (d.railSample i core serdes).modeKey = d.modeKey := by
  simp [Dev.railSample, apply_ite Dev.modeKey]

@[simp] theorem Dev.judgeWear_modeKey (d : Dev) (i : StrandId) : (d.judgeWear i).modeKey = d.modeKey := by
  simp [Dev.judgeWear, apply_ite Dev.modeKey]

@[simp] theorem Dev.wearMeasure_modeKey (d : Dev) (i : StrandId) (r1 r2 r3 : Nat) : (d.wearMeasure i r1 r2 r3).modeKey = d.modeKey := by
  simp [Dev.wearMeasure, apply_ite Dev.modeKey]

@[simp] theorem Dev.eqhOne_modeKey (d : Dev) (i : StrandId) : (d.eqhOne i).modeKey = d.modeKey := by
  unfold Dev.eqhOne
  split <;> simp

@[simp] theorem Dev.eqhUpdate_modeKey (d : Dev) : d.eqhUpdate.modeKey = d.modeKey := by
  simp [Dev.eqhUpdate, apply_ite Dev.modeKey]

@[simp] theorem Dev.wearRecordWrite_modeKey (d : Dev) : d.wearRecordWrite.modeKey = d.modeKey := by
  unfold Dev.wearRecordWrite
  split <;> simp [apply_ite Dev.modeKey]

@[simp] theorem Dev.setLoupeTime_modeKey (d : Dev) (ns : Nat) : (d.setLoupeTime ns).modeKey = d.modeKey := rfl

@[simp] theorem Dev.timeCopy_modeKey (d : Dev) : d.timeCopy.modeKey = d.modeKey := by
  simp [Dev.timeCopy, apply_ite Dev.modeKey]

@[simp] theorem Dev.timeUncTimeout_modeKey (d : Dev) : d.timeUncTimeout.modeKey = d.modeKey := by
  simp [Dev.timeUncTimeout, apply_ite Dev.modeKey]

@[simp] theorem Dev.nonceExpiry_modeKey (d : Dev) : d.nonceExpiry.modeKey = d.modeKey := by
  simp [Dev.nonceExpiry, apply_ite Dev.modeKey]

@[simp] theorem Dev.reqLenWrite_modeKey (d : Dev) (b : Bool) (len : Nat) : (d.reqLenWrite b len).modeKey = d.modeKey := by
  simp [Dev.reqLenWrite, apply_ite Dev.modeKey]

@[simp] theorem Dev.exchangeReply_modeKey (d : Dev) (i : StrandId) (resp : Option (List Byte)) : (d.exchangeReply i resp).modeKey = d.modeKey := by
  unfold Dev.exchangeReply
  split <;> simp

@[simp] theorem Dev.discardMsg_modeKey (d : Dev) (path : Nat) : (d.discardMsg path).modeKey = d.modeKey := by
  unfold Dev.discardMsg
  split <;> simp

@[simp] theorem Dev.countMsg_modeKey (d : Dev) : d.countMsg.modeKey = d.modeKey := rfl

@[simp] theorem Dev.exchangeRead_modeKey (d : Dev) (i : StrandId) : (d.exchangeRead i).modeKey = d.modeKey := by
  unfold Dev.exchangeRead
  split <;> simp

@[simp] theorem Dev.heard_modeKey (d : Dev) (path : Nat) : (d.heard path).modeKey = d.modeKey := by
  unfold Dev.heard
  split <;> simp

@[simp] theorem Dev.reply_modeKey (d : Dev) (path txn op status : Nat) (body : List Byte) : (d.reply path txn op status body).modeKey = d.modeKey := by
  unfold Dev.reply
  split <;> simp

@[simp] theorem Dev.authFail_modeKey (d : Dev) : d.authFail.modeKey = d.modeKey := by
  simp [Dev.authFail]

@[simp] theorem Dev.nguGate_modeKey (d : Dev) (h : NguHdr) (op : Nat) (query : Bool) : (d.nguGate h op query).2.modeKey = d.modeKey := by
  unfold Dev.nguGate
  (repeat' split) <;> simp

@[simp] theorem Dev.respond_modeKey (d : Dev) (h : NguHdr) (op status : Nat) (body : List Byte) : (d.respond h op status body).modeKey = d.modeKey := by
  simp [Dev.respond]

@[simp] theorem Dev.logCommand_modeKey (d : Dev) (h : NguHdr) (op : Nat) : (d.logCommand h op).modeKey = d.modeKey := by
  simp [Dev.logCommand]

@[simp] theorem Dev.issueNonce_modeKey (d : Dev) : d.issueNonce.modeKey = d.modeKey := rfl

@[simp] theorem Dev.readWords_modeKey (d : Dev) (a count : Nat) : (d.readWords a count).2.modeKey = d.modeKey := by
  induction count generalizing d a with
  | zero => rfl
  | succ n ih =>
    unfold Dev.readWords
    exact (ih _ _).trans (d.loupeRead_modeKey _)

@[simp] theorem Dev.rejoin_modeKey (d : Dev) (i : StrandId) : (d.rejoin i).modeKey = d.modeKey := by
  simp [Dev.rejoin, apply_ite Dev.modeKey]

@[simp] theorem Dev.claspRestart_modeKey (d : Dev) : d.claspRestart.modeKey = d.modeKey := rfl

@[simp] theorem Dev.setSession_modeKey (d : Dev) (s : Session) : (d.setSession s).modeKey = d.modeKey := rfl

@[simp] theorem Dev.openSession_modeKey (d : Dev) (id : Nat) : (d.openSession id).modeKey = d.modeKey := by
  simp [Dev.openSession]

@[simp] theorem Dev.sessRefuse_modeKey (d : Dev) (result : Nat) : (d.sessRefuse result).modeKey = d.modeKey := by
  simp [Dev.sessRefuse]

@[simp] theorem Dev.confirm_modeKey (d : Dev) : d.confirm.modeKey = d.modeKey := by
  simp [Dev.confirm, apply_ite Dev.modeKey]

@[simp] theorem Dev.trialConfirm_modeKey (d : Dev) : d.trialConfirm.modeKey = d.modeKey := by
  simp [Dev.trialConfirm, apply_ite Dev.modeKey]

@[simp] theorem Dev.progBlock_modeKey (d : Dev) (b : Bool) (prog : Nat) : (d.progBlock b prog).modeKey = d.modeKey := by
  simp [Dev.progBlock, apply_ite Dev.modeKey]

@[simp] theorem Dev.noteStored_modeKey (d : Dev) (k : Nat) : (d.noteStored k).modeKey = d.modeKey := by
  simp [Dev.noteStored, apply_ite Dev.modeKey]

@[simp] theorem Dev.setDown_modeKey (d : Dev) (p : Nat) (x : RelayPath) : (d.setDown p x).modeKey = d.modeKey := rfl

@[simp] theorem Dev.forwardBlock_modeKey (d : Dev) (p k hop : Nat) (data : List Byte) : (d.forwardBlock p k hop data).modeKey = d.modeKey := by
  simp [Dev.forwardBlock, apply_ite Dev.modeKey]

@[simp] theorem Dev.storeBlock_modeKey (d : Dev) (k hop progA progB : Nat) (data : List Byte) :
    (d.storeBlock k hop progA progB data).modeKey = d.modeKey := by
  simp [Dev.storeBlock, apply_ite Dev.modeKey]

@[simp] theorem Dev.takeHeader_modeKey (d : Dev) (i : ImgInfo) : (d.takeHeader i).modeKey = d.modeKey := by
  simp [Dev.takeHeader, apply_ite Dev.modeKey]

@[simp] theorem Dev.sessionBlock_modeKey (d : Dev) (off hop total progA progB : Nat) (data : List Byte) (sig : Bool) :
    (d.sessionBlock off hop total progA progB data sig).modeKey = d.modeKey := by
  simp [Dev.sessionBlock, apply_ite Dev.modeKey]

@[simp] theorem Dev.relayBlock_modeKey (d : Dev) (path sess off hop total progA progB : Nat) (data : List Byte) (sig : Bool) :
    (d.relayBlock path sess off hop total progA progB data sig).modeKey = d.modeKey := by
  simp [Dev.relayBlock, apply_ite Dev.modeKey]

@[simp] theorem Dev.readNote_modeKey (d : Dev) (area outcome : Nat) : (d.readNote area outcome).modeKey = d.modeKey := by
  simp [Dev.readNote, apply_ite Dev.modeKey]

@[simp] theorem Dev.fillQueue_modeKey (d : Dev) (p outcome fuel : Nat) : (d.fillQueue p outcome fuel).modeKey = d.modeKey := by
  induction fuel generalizing d outcome with
  | zero => rfl
  | succ n ih =>
    unfold Dev.fillQueue
    dsimp only
    split
    · rfl
    · split
      · rfl
      · rw [ih]; simp

@[simp] theorem Dev.relayRequest_modeKey (d : Dev) (p sess outcome : Nat) (ranges : List (Nat × Nat)) :
    (d.relayRequest p sess outcome ranges).modeKey = d.modeKey := by
  simp [Dev.relayRequest, apply_ite Dev.modeKey]

@[simp] theorem Dev.relayState_modeKey (d : Dev) (p sess serial hop state stored total verS verA : Nat) :
    (d.relayState p sess serial hop state stored total verS verA).modeKey = d.modeKey := by
  simp [Dev.relayState, apply_ite Dev.modeKey]

@[simp] theorem Dev.sendState_modeKey (d : Dev) : d.sendState.modeKey = d.modeKey := by
  simp [Dev.sendState, apply_ite Dev.modeKey]

@[simp] theorem Dev.stateTimer_modeKey (d : Dev) : d.stateTimer.modeKey = d.modeKey := by
  simp [Dev.stateTimer, apply_ite Dev.modeKey]

@[simp] theorem Dev.queueSend_modeKey (d : Dev) (p outcome : Nat) : (d.queueSend p outcome).modeKey = d.modeKey := by
  unfold Dev.queueSend
  split
  · rfl
  · dsimp only
    split
    · simp
    · split <;> simp

@[simp] theorem Dev.sendRequest_modeKey (d : Dev) (p : Nat) (rs : List (Nat × Nat)) : (d.sendRequest p rs).modeKey = d.modeKey := by
  simp [Dev.sendRequest, apply_ite Dev.modeKey]

@[simp] theorem Dev.gapRequest_modeKey (d : Dev) : d.gapRequest.modeKey = d.modeKey := by
  simp [Dev.gapRequest, apply_ite Dev.modeKey]

@[simp] theorem Dev.requestRetry_modeKey (d : Dev) : d.requestRetry.modeKey = d.modeKey := by
  simp [Dev.requestRetry, apply_ite Dev.modeKey]

@[simp] theorem Dev.upLostRepeat_modeKey (d : Dev) : d.upLostRepeat.modeKey = d.modeKey := by
  simp [Dev.upLostRepeat, apply_ite Dev.modeKey]

@[simp] theorem Dev.sessionVerify_modeKey (d : Dev) (copyA copyB : Nat) : (d.sessionVerify copyA copyB).modeKey = d.modeKey := by
  simp [Dev.sessionVerify, apply_ite Dev.modeKey]

@[simp] theorem Dev.vioCheck_modeKey (d : Dev) (i : StrandId) (k : Fin 2) (mv : Nat) : (d.vioCheck i k mv).modeKey = d.modeKey := by
  simp [Dev.vioCheck]

@[simp] theorem Dev.pcieUp_modeKey (d : Dev) (b : Bool) : (d.pcieUp b).modeKey = d.modeKey := by
  simp [Dev.pcieUp, apply_ite Dev.modeKey]

@[simp] theorem Dev.creditReturn_modeKey (d : Dev) (b : Bool) (n : Nat) : (d.creditReturn b n).modeKey = d.modeKey := by
  simp [Dev.creditReturn, apply_ite Dev.modeKey]

@[simp] theorem Dev.refuseMsg_modeKey (d : Dev) (h : NguHdr) (op status : Nat) : (d.refuseMsg h op status).modeKey = d.modeKey := by
  unfold Dev.refuseMsg
  split <;> simp [apply_ite Dev.modeKey]

@[simp] theorem Dev.nguMessage_modeKey (d : Dev) (path txn : Nat) (k : MsgKind) : (d.nguMessage path txn k).modeKey = d.modeKey := by
  unfold Dev.nguMessage
  (repeat' split) <;> simp

@[simp] theorem Dev.svcLink_modeKey (d : Dev) (up : Bool) : (d.svcLink up).modeKey = d.modeKey := by
  simp [Dev.svcLink, apply_ite Dev.modeKey]

@[simp] theorem Dev.wipeComplete_modeKey (d : Dev) : d.wipeComplete.modeKey = d.modeKey := by
  simp [Dev.wipeComplete, apply_ite Dev.modeKey]

@[simp] theorem Dev.fusesDone_modeKey (d : Dev) : d.fusesDone.modeKey = d.modeKey := by
  unfold Dev.fusesDone
  split <;> simp [apply_ite Dev.modeKey]

end Sys2Proof.Machine
end

section
/-! What each operation on the mode does to its legality. -/

namespace Sys2Proof.Machine

/-! ## The device mode stays legal -/

theorem legal_congr {d e : Dev} (h : e.modeKey = d.modeKey) : Legal e ↔ Legal d := by
  simp only [Dev.modeKey, ModeKey.mk.injEq] at h
  obtain ⟨h1, h2, h3, h4, h5, h6⟩ := h
  rw [Legal, Legal, h1, h2, h3, h4, h5, h6]

/-- A base mode is recorded or none is. -/
def BaseOk (b : Nat) : Prop := b = 0 ∨ (4 ≤ b ∧ b ≤ 7)

theorem legal_baseOk {d : Dev} (h : Legal d) : BaseOk d.base := h.2.1

theorem legal_por {d : Dev} (h : Legal d) (hm : d.mode ≠ 0) : d.por = false := by
  obtain ⟨-, -, hp, -⟩ := h
  cases hk : d.por
  · rfl
  · exact absurd (hp hk) hm

theorem legal_lock {d : Dev} (h : Legal d) (h1 : 4 ≤ d.mode) (h2 : d.mode ≤ 9) : d.devLock = true := h.2.2.2.2.1 h1 h2

theorem Dev.setMode_modeKey (d : Dev) (m : Nat) : (d.setMode m).modeKey = { d.modeKey with mode := m } := by
  unfold Dev.setMode
  split
  · next h => rw [← h]; rfl
  · dsimp only
    split
    · rw [Dev.trialFail_modeKey, Dev.dflag_modeKey]; rfl
    · rw [Dev.dflag_modeKey]; rfl

@[simp] theorem Dev.setMode_mode (d : Dev) (m : Nat) : (d.setMode m).mode = m := congrArg ModeKey.mode (d.setMode_modeKey m)
@[simp] theorem Dev.setMode_base (d : Dev) (m : Nat) : (d.setMode m).base = d.base := congrArg ModeKey.base (d.setMode_modeKey m)
@[simp] theorem Dev.setMode_por (d : Dev) (m : Nat) : (d.setMode m).por = d.por := congrArg ModeKey.por (d.setMode_modeKey m)
@[simp] theorem Dev.setMode_devLock (d : Dev) (m : Nat) : (d.setMode m).devLock = d.devLock := congrArg ModeKey.devLock (d.setMode_modeKey m)
@[simp] theorem Dev.setMode_holdBy (d : Dev) (m : Nat) : (d.setMode m).holdBy = d.holdBy := congrArg ModeKey.holdBy (d.setMode_modeKey m)
@[simp] theorem Dev.setMode_holdFrom (d : Dev) (m : Nat) : (d.setMode m).holdFrom = d.holdFrom := congrArg ModeKey.holdFrom (d.setMode_modeKey m)

/-- The modes beside the running ones are legal after POR, whatever lock and hold are. -/
theorem legal_out {d : Dev} (hb : BaseOk d.base) (hp : d.por = false) (hm : d.mode < 4 ∨ d.mode = 10 ∨ d.mode = 11) : Legal d :=
  ⟨by omega, hb, by simp [hp], by omega, by omega, by omega⟩

theorem legal_setMode_out {d : Dev} {m : Nat} (hb : BaseOk d.base) (hp : d.por = false) (hm : m < 4 ∨ m = 10 ∨ m = 11) : Legal (d.setMode m) :=
  legal_out (by rwa [Dev.setMode_base]) (by rwa [Dev.setMode_por]) (by rwa [Dev.setMode_mode])

/-- The base mode and MD8 are legal in a locked device after POR. -/
theorem legal_setMode_run {d : Dev} {m : Nat} (hb : BaseOk d.base) (hp : d.por = false) (hl : d.devLock = true) (hm : m = d.base ∨ m = 8) :
    Legal (d.setMode m) := by
  simp only [Legal, Dev.setMode_mode, Dev.setMode_base, Dev.setMode_por, Dev.setMode_devLock, hp, hl]
  unfold BaseOk at hb
  refine ⟨by omega, hb, by simp, by omega, by simp, by omega⟩

/-- MD9 is legal in a locked device after POR with a cause and a mode to return to. -/
theorem legal_setMode_hold {d : Dev} (hb : BaseOk d.base) (hp : d.por = false) (hl : d.devLock = true)
    (hw : d.holdBy = some .degradedStart ∨ (d.holdBy ≠ none ∧ (d.holdFrom = 8 ∨ (4 ≤ d.holdFrom ∧ d.holdFrom = d.base)))) : Legal (d.setMode 9) := by
  simp only [Legal, Dev.setMode_mode, Dev.setMode_base, Dev.setMode_por, Dev.setMode_devLock, Dev.setMode_holdBy, Dev.setMode_holdFrom, hp, hl]
  exact ⟨by omega, hb, by simp, by omega, by simp, fun _ => hw⟩

theorem legal_tryT12 {d : Dev} (h : Legal d) : Legal d.tryT12 := by
  unfold Dev.tryT12
  dsimp only
  split
  · next hc =>
    simp only [Bool.and_eq_true, decide_eq_true_eq] at hc
    have hk := Dev.foldl_modeKey (f := fun (e : Dev) i => e.updSup i fun s => { s with rejoin := false })
      (fun _ _ => Dev.updSup_modeKey _ _ _) allStrands d
    generalize allStrands.foldl _ d = e at hk ⊢
    have he := (legal_congr hk).2 h
    have hm : e.mode = 8 := (congrArg ModeKey.mode hk).trans hc.1.1
    exact legal_setMode_run (legal_baseOk he) (legal_por he (by omega)) (legal_lock he (by omega) (by omega)) (.inl rfl)
  · exact h

theorem por_keep {d e : Dev} (hk : e.modeKey = d.modeKey) (hp : d.por = false) : e.por = false := (congrArg ModeKey.por hk).trans hp

theorem baseOk_keep {d e : Dev} (hk : e.modeKey = d.modeKey) (hb : BaseOk d.base) : BaseOk e.base := by
  rwa [show e.base = d.base from congrArg ModeKey.base hk]

theorem legal_ite {c : Prop} [Decidable c] {d e : Dev} (ht : c → Legal d) (hf : ¬c → Legal e) : Legal (if c then d else e) := by
  split
  · exact ht ‹_›
  · exact hf ‹_›

/-- A fold of operations that keep the mode legal. -/
theorem legal_foldl {α : Type} {f : Dev → α → Dev} (hf : ∀ e a, Legal e → Legal (f e a)) (l : List α) {d : Dev} (h : Legal d) : Legal (l.foldl f d) := by
  induction l generalizing d with
  | nil => exact h
  | cons a l ih => exact ih (hf d a h)

theorem legal_keep {d e : Dev} (h : Legal d) (hk : e.modeKey = d.modeKey) : Legal e := (legal_congr hk).2 h

theorem legal_holdExit {d : Dev} (i : StrandId) (h : Legal d) : Legal (d.holdExit i) := by
  unfold Dev.holdExit
  split
  · exact h
  · exact legal_tryT12 (legal_keep h (d.toRun_modeKey i))

theorem legal_enterHold {d : Dev} (w : HoldBy) (h : Legal d) : Legal (d.enterHold w) := by
  unfold Dev.enterHold Dev.inBase
  split
  · exact h
  · next hc =>
    have hm : (4 ≤ d.mode ∧ d.mode ≤ 7) ∨ d.mode = 8 := by simp at hc; omega
    obtain ⟨-, -, -, hbase, -⟩ := id h
    refine legal_keep ?_ (Dev.foldl_modeKey (fun _ _ => Dev.toHold_modeKey _ _) _ _)
    have hp := legal_por h (by omega)
    have hl := legal_lock h (by omega) (by omega)
    refine legal_setMode_hold (legal_baseOk (d := d) h) hp hl (.inr ⟨by simp, ?_⟩)
    rcases hm with hm | hm
    · exact .inr ⟨hm.1, hbase hm.1 hm.2⟩
    · exact .inl hm

theorem legal_afterFence {d : Dev} (h : Legal d) : Legal d.afterFence := by
  have h8 : Legal (if d.inBase then d.setMode 8 else d) := by
    split
    · next hc =>
      simp only [Dev.inBase, Bool.and_eq_true, decide_eq_true_eq] at hc
      exact legal_setMode_run (legal_baseOk h) (legal_por h (by omega)) (legal_lock h (by omega) (by omega)) (.inr rfl)
    · exact h
  unfold Dev.afterFence
  generalize (if d.inBase then d.setMode 8 else d) = e at h8 ⊢
  dsimp only
  split
  · exact legal_enterHold _ h8
  · exact h8

theorem legal_fenceOut {d : Dev} (i : StrandId) (b c : Nat) (h : Legal d) : Legal (d.fenceOut i b c) := by
  have hu : Legal (if d.phase i = .fenced then d else d.unReset i) := legal_keep h (by split <;> simp)
  unfold Dev.fenceOut
  generalize (if d.phase i = .fenced then d else d.unReset i) = e at hu ⊢
  dsimp only
  split
  · exact hu
  · exact hu
  · exact legal_afterFence (legal_keep hu (Dev.fence_modeKey _ _ _ _))

theorem legal_fenceTrigger {d : Dev} (i : StrandId) (b c : Nat) (h : Legal d) : Legal (d.fenceTrigger i b c) := by
  unfold Dev.fenceTrigger
  split
  · exact legal_fenceOut i b c h
  · exact h

theorem legal_wdogExpiry {d : Dev} (i : StrandId) (h : Legal d) : Legal (d.wdogExpiry i) := by
  unfold Dev.wdogExpiry
  extract_lets again now l
  split
  · exact h
  · split
    · split
      · exact legal_fenceOut i _ _ h
      · exact legal_keep h (by simp)
    · exact legal_keep h (by simp [l])

theorem legal_coreWdog {d : Dev} (i : StrandId) (h : Legal d) : Legal (d.coreWdog i) := by
  unfold Dev.coreWdog
  dsimp only
  split
  · exact h
  · exact legal_wdogExpiry i h

theorem legal_wdogWatch {d : Dev} (i : StrandId) (h : Legal d) : Legal (d.wdogWatch i) := by
  unfold Dev.wdogWatch
  split
  · exact legal_coreWdog i h
  · exact h

theorem legal_bankWatch {d : Dev} (i : StrandId) (h : Legal d) : Legal (d.bankWatch i) := by
  unfold Dev.bankWatch
  extract_lets b x d1 d2 d3
  have h3 : d3.modeKey = d.modeKey := by simp [d3, d2, d1, apply_ite Dev.modeKey]
  split
  · exact h
  · split
    · exact legal_fenceTrigger i _ _ (legal_keep h h3)
    · exact legal_keep h h3

/-- What follows a command keeps the mode legal. -/
theorem legal_after {d : Dev} (b : Dev) (h : Legal d) : Legal (d.after b) := by
  unfold Dev.after
  refine legal_keep ?_ (Dev.settle_modeKey _)
  exact legal_foldl (fun _ i => legal_wdogWatch i) _ (legal_foldl (fun _ i => legal_bankWatch i) _ (legal_keep h (d.timeWatch_modeKey b)))

/-! ### Writes and the cores -/

theorem legal_quarantine {d : Dev} (hp : d.por = false) (h : Legal d) : Legal d.quarantine := by
  unfold Dev.quarantine
  split
  · exact h
  · extract_lets e x
    have hk : e.modeKey = d.modeKey := by
      refine Dev.foldl_modeKey (fun e i => ?_) _ _
      split <;> simp
    have hx : x.modeKey = { d.modeKey with mode := 10 } := by rw [Dev.setMode_modeKey, Dev.disarm_modeKey, hk]
    clear_value x
    have hb : x.base = d.base := congrArg ModeKey.base hx
    have hpx : x.por = d.por := congrArg ModeKey.por hx
    have hm : x.mode = 10 := congrArg ModeKey.mode hx
    exact legal_out (by rw [hb]; exact legal_baseOk h) (hpx.trans hp) (.inr (.inl hm))

theorem legal_lcAdvance {d : Dev} (v : Word) (h : Legal d) : Legal (d.lcAdvance v) := by
  unfold Dev.lcAdvance
  extract_lets t x e
  split
  · exact h
  · next hc =>
    have hp : d.por = false := by simp at hc; tauto
    have hk : (e.wipe.log 0x1011 .fatal 0x40 []).modeKey = d.modeKey := by simp [e]
    exact legal_quarantine ((congrArg ModeKey.por hk).trans hp) (legal_keep h hk)

theorem legal_tamper {d : Dev} (b : Nat) (h : Legal d) : Legal (d.tamper b) := by
  unfold Dev.tamper
  extract_lets x y e
  have he : e.modeKey = d.modeKey := rfl
  clear_value e
  split
  · exact h
  · split
    · exact legal_keep h he
    · next hp =>
      split
      · exact legal_keep h (by simp [he])
      · have hk : (e.wipe.log 0x1010 .fatal 0x40 [e.hm.tamper]).modeKey = e.modeKey := by simp
        exact legal_quarantine ((congrArg ModeKey.por hk).trans (Bool.eq_false_iff.2 hp)) (legal_keep h (hk.trans he))

theorem legal_holdEnter {d : Dev} (i : StrandId) (h : Legal d) : Legal (d.holdEnter i) := legal_keep h (by simp)

theorem legal_supCtlWrite {d : Dev} (m : Master) (i : StrandId) (v : Word) (h : Legal d) : Legal (d.supCtlWrite m i v) := by
  unfold Dev.supCtlWrite
  split
  · exact h
  · extract_lets byCore hb x y
    have hx : x.modeKey = d.modeKey := by simp [x, apply_ite Dev.modeKey]
    have hy : y.modeKey = d.modeKey := by simp [y, apply_ite Dev.modeKey, hx]
    clear_value y
    split
    · exact legal_keep h (by simp [hy])
    · split
      · exact legal_holdExit i (legal_keep h hy)
      · exact legal_keep h hy

theorem legal_wdogKick {d : Dev} (i : StrandId) (v : Word) (h : Legal d) : Legal (d.wdogKick i v) := by
  unfold Dev.wdogKick
  extract_lets st t
  split
  · exact legal_keep h (by simp [apply_ite Dev.modeKey])
  · exact legal_coreWdog i (legal_keep h (Dev.onStrand_modeKey _ _ _))

theorem legal_strandWrite {d : Dev} (m : Master) (i : StrandId) (off : Nat) (v : Word) (h : Legal d) : Legal (d.strandWrite m i off v) := by
  unfold Dev.strandWrite
  split
  · exact legal_supCtlWrite m i v h
  · split
    · exact legal_keep h (Dev.supCauseWrite_modeKey _ _ _ _)
    · split
      · split
        · exact legal_wdogKick i v h
        · exact h
      · exact legal_keep h (Dev.onStrand_modeKey _ _ _)

theorem legal_coreWrite {d : Dev} (i : StrandId) (off : Nat) (v : Word) (h : Legal d) : Legal (d.coreWrite i off v) := by
  unfold Dev.coreWrite
  split
  · exact h
  · split
    · exact legal_keep h (Dev.lktWrite_modeKey _ _ _ _ _)
    · exact legal_strandWrite _ i off v h

theorem legal_loupeRegWrite {d : Dev} (a : Nat) (v : Word) (h : Legal d) : Legal (d.loupeRegWrite a v) := by
  unfold Dev.loupeRegWrite
  refine legal_ite (fun _ => legal_keep h (by simp [apply_ite Dev.modeKey])) fun _ => ?_
  refine legal_ite (fun _ => legal_lcAdvance v h) fun _ => ?_
  refine legal_ite (fun _ => legal_keep h (Dev.tamperClear_modeKey _ _)) fun _ => ?_
  refine legal_ite (fun _ => legal_keep h (Dev.lktWrite_modeKey _ _ _ _ _)) fun _ => ?_
  refine legal_ite (fun _ => legal_keep h (Dev.bindWrite_modeKey _ _ _)) fun _ => ?_
  refine legal_ite (fun _ => legal_keep h (by simp [apply_ite Dev.modeKey])) fun _ => ?_
  refine legal_ite (fun _ => legal_keep h (by simp [apply_ite Dev.modeKey])) fun _ => ?_
  refine legal_ite (fun _ => legal_keep h (Dev.loupePlain_modeKey _ _ _)) fun _ => ?_
  refine legal_ite (fun _ => legal_keep h (Dev.claspWrite_modeKey _ _ _ _ _)) fun _ => ?_
  refine legal_ite (fun _ => ?_) fun _ => h
  exact legal_ite (fun _ => h) fun _ => legal_strandWrite _ _ _ v h

theorem legal_loupeWriteN {d : Dev} (a : Nat) (bs : List Byte) (h : Legal d) : Legal (d.loupeWriteN a bs) := by
  unfold Dev.loupeWriteN
  refine legal_ite (fun _ => legal_keep h rfl) fun _ => ?_
  refine legal_ite (fun _ => legal_keep h (Dev.hmWrite_modeKey _ _ _)) fun _ => ?_
  refine legal_ite (fun _ => legal_ite (fun _ => h) fun _ => legal_keep h (Dev.onStrand_modeKey _ _ _)) fun _ => ?_
  exact legal_ite (fun _ => legal_loupeRegWrite a _ h) fun _ => h

theorem legal_hostStrandWrite {d : Dev} (b : Bool) (i : StrandId) (off : Nat) (v : Word) (h : Legal d) : Legal (d.hostStrandWrite b i off v) :=
  legal_ite (fun _ => h) fun _ => legal_ite (fun _ => legal_keep h (by simp)) fun _ => legal_strandWrite _ i off v h

theorem legal_hostWriteWord {d : Dev} (b : Bool) (a : Nat) (v : Word) (h : Legal d) : Legal (d.hostWriteWord b a v) := by
  unfold Dev.hostWriteWord
  split
  · exact legal_keep h (by simp [apply_ite Dev.modeKey])
  · exact legal_keep h (by simp [apply_ite Dev.modeKey])
  · exact legal_keep h (by simp [apply_ite Dev.modeKey])
  · exact legal_ite (fun _ => legal_hostStrandWrite b _ _ v h) fun _ => h

theorem legal_hostWriteBytes {d : Dev} (b : Bool) (a n v : Nat) (h : Legal d) : Legal (d.hostWriteBytes b a n v) := by
  unfold Dev.hostWriteBytes
  refine legal_ite (fun _ => h) fun _ => ?_
  refine legal_ite (fun _ => legal_keep h (Dev.hostSramWrite_modeKey _ _ _ _)) fun _ => ?_
  refine legal_ite (fun _ => legal_hostWriteWord b a _ h) fun _ => ?_
  refine legal_ite (fun _ => legal_hostWriteWord b _ _ (legal_hostWriteWord b a _ h)) fun _ => ?_
  exact legal_keep h d.badAccess_modeKey

theorem legal_busWrite {d : Dev} (m : Master) (a n v : Nat) (h : Legal d) : Legal (d.busWrite m a n v) := by
  cases m with
  | host b => exact legal_hostWriteBytes b a n v h
  | core i =>
    unfold Dev.busWrite
    exact legal_ite (fun _ => legal_coreWrite i a _ h) fun _ =>
      legal_ite (fun _ => legal_coreWrite i _ _ (legal_coreWrite i a _ h)) fun _ => h
  | loupe =>
    unfold Dev.busWrite
    refine legal_ite (fun _ => h) fun _ => ?_
    exact legal_ite (fun _ => legal_loupeWriteN _ _ (legal_loupeWriteN a _ h)) fun _ => legal_ite (fun _ => legal_loupeWriteN a _ h) fun _ => h

theorem legal_placeWrite {d : Dev} (m : Master) (p : Place) (v : Nat) (h : Legal d) : Legal (d.placeWrite m p v) := by
  unfold Dev.placeWrite
  split
  · exact h
  · exact legal_busWrite m _ 4 v h

theorem legal_snap {d : Dev} (m : Master) (u : SnapUnit) (h : Legal d) : Legal (d.snap m u) := by
  cases u <;> exact legal_placeWrite m _ _ h

/-! ### The cores -/

theorem legal_coreStoreOut {d : Dev} (c : Fin 5) (e : WbEnt) (h : Legal d) : Legal (d.coreStoreOut c e) := by
  unfold Dev.coreStoreOut
  refine legal_ite (fun _ => legal_loupeWriteN _ _ h) fun _ => ?_
  refine legal_ite (fun _ => ?_) fun _ => legal_keep h (Dev.onStrand_modeKey _ _ _)
  exact legal_ite (fun _ => legal_coreWrite _ _ _ h) fun _ => h

theorem legal_drain {d : Dev} (c : Fin 5) (h : Legal d) : Legal (d.drain c) := by
  unfold Dev.drain
  split
  · exact h
  · exact legal_coreStoreOut c _ (legal_keep h (Dev.setCore_modeKey _ _ _))

theorem legal_drainWhile {d : Dev} (c : Fin 5) (p : List WbEnt → Bool) (n : Nat) (h : Legal d) : Legal (d.drainWhile c p n) := by
  induction n generalizing d with
  | zero => exact h
  | succ n ih => exact legal_ite (fun _ => ih (legal_drain c (legal_keep h (Dev.coreCount_modeKey _ _ _)))) fun _ => h

theorem legal_coreLoad {d : Dev} (c : Fin 5) (a n : Nat) (h : Legal d) : Legal (d.coreLoad c a n).2.2 := by
  unfold Dev.coreLoad
  split
  · exact legal_keep (legal_drainWhile c _ 8 h) (Dev.coreFetch_modeKey _ _ _ _)
  · split
    · exact h
    · exact legal_keep (legal_drainWhile c _ 8 h) (Dev.coreFetch_modeKey _ _ _ _)

theorem legal_loadOp {d : Dev} (c : Fin 5) (maj wd wa : Nat) (m : AMode) (h : Legal d) : Legal (d.loadOp c maj wd wa m).2 := by
  unfold Dev.loadOp
  dsimp only
  split
  · exact h
  · split <;> exact legal_coreLoad c _ _ h

theorem legal_storeOp {d : Dev} (c : Fin 5) (maj wd wa : Nat) (m : AMode) (h : Legal d) : Legal (d.storeOp c maj wd wa m).2 := by
  unfold Dev.storeOp
  dsimp only
  split
  · exact h
  · exact legal_drainWhile c _ 8 h

theorem legal_coreOp {d : Dev} (c : Fin 5) (o : DOp) (h : Legal d) : Legal (d.coreOp c o).2 := by
  unfold Dev.coreOp
  split
  · exact legal_loadOp c _ _ _ _ h
  · exact legal_storeOp c _ _ _ _ h
  · exact h

theorem legal_coreOne {d : Dev} (c : Fin 5) (g w : Nat) (o : DOp) (h : Legal d) : Legal (d.coreOne c g w o) := by
  unfold Dev.coreOne
  refine legal_ite (fun _ => legal_keep h (Dev.coreTrap_modeKey _ _ _ _ _)) fun _ => ?_
  refine legal_ite (fun _ => legal_keep h (Dev.retire_modeKey _ _ _ _)) fun _ => ?_
  split
  · exact legal_keep h (Dev.waitOp_modeKey _ _)
  · exact legal_keep (legal_drainWhile c _ 8 h) (Dev.coreEnd_modeKey _ _ _ _)
  · exact legal_keep (legal_coreOp c _ h) (Dev.coreEnd_modeKey _ _ _ _)

theorem legal_dtRun {d : Dev} (c : Fin 5) (iw e m : Nat) (t : Option Nat) (n : Nat) (h : Legal d) : Legal (d.dtRun c iw e m t n) := by
  induction n generalizing d m t with
  | zero => exact legal_keep h (Dev.retire_modeKey _ _ _ _)
  | succ n ih =>
    unfold Dev.dtRun
    dsimp only
    split
    · exact legal_keep h (by simp)
    · refine legal_ite (fun _ => legal_keep h (by simp)) fun _ => ?_
      refine legal_ite (fun _ => ih _ _ h) fun _ => ?_
      have hr := legal_coreOp c ‹_› h
      generalize d.coreOp c _ = r at hr ⊢
      refine legal_ite (fun _ => hr) fun _ => ?_
      split
      · exact ih _ _ (legal_keep hr (Dev.setCore_modeKey _ _ _))
      · exact ih _ _ (legal_keep hr (Dev.setCore_modeKey _ _ _))
      · exact legal_keep hr (by simp)
      · exact legal_keep hr (by simp)

theorem legal_dtOne {d : Dev} (c : Fin 5) (iw e : Nat) (h : Legal d) : Legal (d.dtOne c iw e) :=
  legal_ite (fun _ => legal_keep h (Dev.retire_modeKey _ _ _ _)) fun _ => legal_dtRun c iw e 0 none _ (legal_keep h (by simp))

theorem legal_coreWord {d : Dev} (c : Fin 5) (w : Nat) (h : Legal d) : Legal (d.coreWord c w) := by
  unfold Dev.coreWord
  refine legal_ite (fun _ => h) fun _ => ?_
  split
  · exact legal_dtOne c w _ h
  · split
    · exact legal_keep h (Dev.coreTrap_modeKey _ _ _ _ _)
    · exact legal_coreOne c _ w _ h

theorem legal_coreFetchOne {d : Dev} (c : Fin 5) (h : Legal d) : Legal (d.coreFetchOne c) := by
  unfold Dev.coreFetchOne
  dsimp only
  split
  · exact legal_keep h (Dev.coreTrap_modeKey _ _ _ _ _)
  · have hr := legal_keep h (d.coreFetch_modeKey c (d.coreOf c).pc 4)
    exact legal_ite (fun _ => legal_keep hr (Dev.coreTrap_modeKey _ _ _ _ _)) fun _ => legal_coreWord c _ hr

theorem legal_coreStep {d : Dev} (i : StrandId) (h : Legal d) : Legal (d.coreStep i) := by
  unfold Dev.coreStep
  refine legal_ite (fun _ => h) fun _ => legal_ite (fun _ => ?_) fun _ => h
  exact legal_keep (legal_coreFetchOne _ (legal_keep h (Dev.setCore_modeKey _ _ _))) (Dev.setCore_modeKey _ _ _)

theorem legal_masterWrite {d : Dev} (m : Master) (a n v : Nat) (h : Legal d) : Legal (d.masterWrite m a n v) :=
  legal_ite (fun _ => legal_coreStep _ (legal_busWrite m a n v h)) fun _ => legal_busWrite m a n v h

/-- An instruction that a core carries out at its pc, if it fetches one there. -/
theorem legal_coreAt {d : Dev} (c : Fin 5) {f : Dev → Dev} (hf : Legal (f d)) (h : Legal d) : Legal (d.coreAt c f) := by
  unfold Dev.coreAt
  refine legal_ite (fun _ => h) fun _ => legal_ite (fun _ => legal_keep h (Dev.breakHalt_modeKey _ _)) fun _ => ?_
  split
  · exact legal_keep h (Dev.coreTrap_modeKey _ _ _ _ _)
  · exact hf

theorem legal_coreRun {d : Dev} (c : Fin 5) (g : Fin 16) (o : DOp) (h : Legal d) : Legal (d.coreRun c g o) := legal_coreAt c (legal_coreOne c _ _ o h) h

theorem legal_d16 {d : Dev} (c : Fin 5) (w : Nat) (h : Legal d) : Legal (d.d16 c w) := by
  refine legal_coreAt c ?_ h
  split
  · exact legal_dtOne c w _ h
  · exact h

theorem legal_reservedEncoding {d : Dev} (c : Fin 5) (w : Nat) (h : Legal d) : Legal (d.reservedEncoding c w) :=
  legal_coreAt c (legal_ite (fun _ => legal_keep h (Dev.coreTrap_modeKey _ _ _ _ _)) fun _ => h) h

theorem legal_wbDrain {d : Dev} (c : Fin 5) (h : Legal d) : Legal (d.wbDrain c) := legal_ite (fun _ => legal_drain c h) fun _ => h

theorem legal_tick {d : Dev} (h : Legal d) : Legal d.tick := by
  unfold Dev.tick
  refine legal_foldl (fun e c => legal_wbDrain _) _ (legal_keep h ?_)
  exact (Dev.foldl_modeKey (fun _ _ => Dev.onActive_modeKey _ _ _) _ _).trans (d.timeBy_modeKey 1)

/-! ### Resets and starts -/

theorem legal_supPoke {d : Dev} (m : Master) (i : StrandId) (b : Nat) (h : Legal d) : Legal (d.supPoke m i b) := legal_placeWrite m _ _ h

theorem legal_clkFail {d : Dev} (i : StrandId) (p : Bool) (h : Legal d) : Legal (d.clkFail i p) :=
  legal_keep (legal_fenceTrigger i 7 _ h) (Dev.updSup_modeKey _ _ _)

theorem legal_pllTimeout {d : Dev} (i : StrandId) (h : Legal d) : Legal (d.pllTimeout i) :=
  legal_ite (fun _ => legal_afterFence (legal_keep h (Dev.fence_modeKey _ _ _ _))) fun _ => h

theorem legal_loadFail {d : Dev} (i : StrandId) (h : Legal d) : Legal (d.loadFail i) := legal_afterFence (legal_keep h (Dev.fence_modeKey _ _ _ _))

theorem legal_tempSample {d : Dev} (ts : List Int) (h : Legal d) : Legal (d.tempSample ts) := by
  unfold Dev.tempSample
  refine legal_ite (fun _ => h) fun _ => ?_
  extract_lets l x y cool since l' z
  have hz : z.modeKey = d.modeKey := by
    simp only [z, Dev.modeKey_mk, ModeKey.of_fields, y, x, Dev.foldl_modeKey (fun (e : Dev) (j : Fin 12) => e.tempOne_modeKey j (ts.getD j.val 0))]
  clear_value z
  exact legal_ite (fun _ => legal_enterHold _ (legal_keep h hz)) fun _ => legal_keep h hz

theorem legal_mergeWriteback {d : Dev} (i : StrandId) (h : Legal d) : Legal (d.mergeWriteback i) := by
  unfold Dev.mergeWriteback
  split
  · split
    · exact h
    · refine legal_ite (fun _ => legal_fenceTrigger i _ _ h) fun _ => legal_keep h ?_
      simp [apply_ite Dev.modeKey]
  · exact h

theorem legal_mergeRecord {d : Dev} (i : StrandId) (h : Legal d) : Legal (d.mergeRecord i) := by
  unfold Dev.mergeRecord
  split
  · split
    · exact h
    · refine legal_ite (fun _ => legal_fenceTrigger i _ _ h) fun _ => legal_keep h ?_
      simp [apply_ite Dev.modeKey]
  · exact h

theorem legal_pairSync {d : Dev} (p : Bool) (h : Legal d) : Legal (d.pairSync p) :=
  legal_ite (fun _ => h) fun _ => legal_tryT12 (legal_keep h (by simp))

theorem legal_loadComplete {d : Dev} (i : StrandId) (ms : List (List Byte)) (b : Bool) (h : Legal d) : Legal (d.loadComplete i ms b) := by
  unfold Dev.loadComplete
  refine legal_ite (fun _ => h) fun _ => ?_
  split
  · exact legal_loadFail i (legal_keep h (by simp))
  · refine legal_ite (fun _ => legal_loadFail i h) fun _ => ?_
    extract_lets x sync a1 a2 a3 a4 a5 a6
    have hs : sync.2.modeKey = d.modeKey := by
      dsimp only [sync]
      split <;> simp [x]
    have ha : a6.modeKey = sync.2.modeKey := by simp [a6, a5, a4, a3, a2, a1, apply_ite Dev.modeKey]
    clear_value sync a6
    refine legal_ite (fun _ => legal_loadFail i (legal_keep h (by simp [x]))) fun _ => legal_tryT12 (legal_keep h ?_)
    simp [ha, hs]

/-- What keeps a mode legal that is legal after POR, with the parts that a start sets anew. -/
theorem legal_tryT6 {d : Dev} (hp : d.por = false) (h : Legal d) : Legal d.tryT6 :=
  legal_ite (fun _ => legal_setMode_out (legal_baseOk h) hp (by omega)) fun _ => h

@[simp] theorem Dev.tryT6_por (d : Dev) : d.tryT6.por = d.por := by
  unfold Dev.tryT6
  split
  · exact d.setMode_por 3
  · rfl

/-- A LOUPE_RESET keeps the mode legal and does not enter POR. -/
theorem legal_loupeReset {d : Dev} (c : Nat) (h : Legal d) : Legal (d.loupeReset c) ∧ (d.loupeReset c).por = d.por := by
  unfold Dev.loupeReset
  split
  · exact ⟨h, rfl⟩
  · next hc =>
    have hp : d.por = false := by simp at hc; exact hc.1
    extract_lets l ends recent counted safe entered l' d1 d2 d3 d4 d5 d6 d7
    have h5 : d5.modeKey = d.modeKey := by simp [d5, d4, d3, d2, d1, apply_ite Dev.modeKey]
    have h6 : d6.modeKey = d.modeKey := by
      dsimp only [d6]
      split
      · simp [d4, d3, d2, d1, apply_ite Dev.modeKey]
      · rw [Dev.foldl_modeKey fun e i => by split <;> simp, h5]
    have hp6 : d6.por = d.por := congrArg ModeKey.por h6
    have h7 : d7.modeKey = (d6.setMode 2).modeKey := Dev.foldl_modeKey (fun e i => by split <;> simp) _ _
    have hp7 : d7.por = d.por := (congrArg ModeKey.por h7).trans ((d6.setMode_por 2).trans hp6)
    have hl7 : Legal d7 := legal_keep (legal_setMode_out (legal_baseOk (legal_keep h h6)) (hp6.trans hp) (by omega)) h7
    clear_value d6 d7
    split
    · split
      · exact ⟨hl7, hp7⟩
      · exact ⟨legal_tryT6 (hp7.trans hp) hl7, d7.tryT6_por.trans hp7⟩
    · exact ⟨legal_keep h h6, hp6⟩

theorem legal_resetCommand {d : Dev} (h : Legal d) : Legal d.resetCommand := (legal_loupeReset 3 (legal_keep h (d.logFlush_modeKey 0 0))).1

theorem legal_loupeResetBy {d : Dev} (c : Fin 3) (h : Legal d) : Legal (d.loupeResetBy c) :=
  legal_ite (fun _ => legal_resetCommand h) fun _ => (legal_loupeReset _ h).1

theorem legal_lockstep {d : Dev} (h : Legal d) : Legal d.lockstep := by
  unfold Dev.lockstep
  refine legal_ite (fun _ => h) fun _ => (legal_loupeReset 1 (legal_keep h ?_)).1
  exact Dev.foldl_modeKey (fun e i => by split <;> simp) _ _

theorem legal_toRecovery {d : Dev} (hb : BaseOk d.base) (hp : d.por = false) : Legal d.toRecovery := by
  unfold Dev.toRecovery
  refine legal_keep (legal_setMode_out (m := 1) hb hp (by omega)) ?_
  simp only [Dev.modeKey_mk, ModeKey.of_fields]
  exact Dev.foldl_modeKey (fun e i => by split <;> simp) _ _

theorem baseOk_ok {c : CfgDev} (h : c.ok = true) : BaseOk c.base := by
  simp only [CfgDev.ok, Bool.and_eq_true, decide_eq_true_eq] at h
  exact .inr ⟨h.1.2, h.2⟩

theorem legal_readConfig {d : Dev} (c : CfgDev) (hp : d.por = false) : Legal (d.readConfig c) := by
  unfold Dev.readConfig
  extract_lets c' l u d1 d2
  have hb : BaseOk d1.base := by
    dsimp only [d1]
    split
    · exact baseOk_ok ‹_›
    · exact .inl rfl
  have hk : (if d1.loupe.firmware then d1.logLate else d1).modeKey = d1.modeKey := by simp [apply_ite Dev.modeKey]
  have hp1 : d1.por = false := hp
  have h2 : Legal d2 := legal_setMode_out (baseOk_keep hk hb) (por_keep hk hp1) (by omega)
  have hp2 : d2.por = false := (Dev.setMode_por _ 2).trans (por_keep hk hp1)
  clear_value d2
  refine legal_ite (fun _ => legal_keep h2 ?_) fun _ => ?_
  · exact (Dev.foldl_modeKey (fun _ _ => Dev.fence_modeKey _ _ _ _) _ _).trans (Dev.log_modeKey _ _ _ _ _)
  · have h3 : (allStrands.foldl (fun (e : Dev) i => if e.phase i = .off || bitN c'.strands i.val then e else e.strandCold i) d2).modeKey = d2.modeKey :=
      Dev.foldl_modeKey (fun e i => by split <;> simp) _ _
    exact legal_tryT6 ((congrArg ModeKey.por h3).trans hp2) (legal_keep h2 h3)

theorem legal_beginLoad {d : Dev} (s : StartIn) (hb : BaseOk d.base) (hp : d.por = false) : Legal (d.beginLoad s) := by
  have hk := d.select_modeKey s
  have hp' : (d.select s).2.por = false := por_keep hk hp
  have hb' : BaseOk (d.select s).2.base := baseOk_keep hk hb
  unfold Dev.beginLoad
  exact legal_ite (fun _ => legal_readConfig _ (por_keep (Dev.readTwice_modeKey _ _) hp')) fun _ => legal_toRecovery hb' hp'

theorem legal_restart {d : Dev} (s : StartIn) (hb : BaseOk d.base) (hp : d.por = false) : Legal (d.restart s) := by
  have hk : (d.hmStart s.hmErr).confirmCounter.modeKey = d.modeKey := by simp
  exact legal_beginLoad s (baseOk_keep hk hb) (por_keep hk hp)

/-- A LOUPE_RESET and a start after it. -/
theorem legal_resetRestart {d : Dev} (s : StartIn) (hp : d.por = false) (h : Legal d) : Legal ((d.loupeReset 3).restart s) := by
  obtain ⟨hl, hpr⟩ := legal_loupeReset 3 h
  exact legal_restart s (legal_baseOk hl) (hpr.trans hp)

theorem legal_powerOn (d : Dev) : Legal d.powerOn := by simp [Legal, Dev.powerOn]

theorem legal_porEnd {d : Dev} (te rn : Bool) (fa fb : Option Nat) (s : StartIn) (h : Legal d) : Legal (d.porEnd te rn fa fb s) := by
  unfold Dev.porEnd
  refine legal_ite (fun _ => h) fun _ => ?_
  extract_lets x d1 d2 test d3 d4
  have h4 : d4.modeKey = d1.modeKey := by simp [d4, d3, d2, apply_ite Dev.modeKey]
  have hb : BaseOk d4.base := baseOk_keep h4 (legal_baseOk (d := d) h)
  have hp : d4.por = false := congrArg ModeKey.por h4
  refine legal_ite (fun _ => legal_setMode_out hb hp (by omega)) fun _ => ?_
  refine legal_ite (fun _ => legal_setMode_out hb hp (by omega)) fun _ => ?_
  refine legal_ite (fun _ => legal_setMode_out hb hp (by omega)) fun _ => ?_
  exact legal_ite (fun _ => legal_toRecovery hb hp) fun _ => legal_beginLoad s hb hp

theorem legal_wake {d : Dev} (s : StartIn) (h : Legal d) : Legal (d.wake s) := by
  unfold Dev.wake
  refine legal_ite (fun _ => h) fun hc => ?_
  have hpor : d.por = false := by simp at hc; exact hc.1.1
  extract_lets d1 d2
  have h2 : d2.modeKey = d.modeKey := by
    simp only [d2, d1, Dev.confirmCounter_modeKey, Dev.hmStart_modeKey]
    exact Dev.foldl_modeKey (fun _ _ => Dev.updSup_modeKey _ _ _) _ _
  have hb : BaseOk d2.base := baseOk_keep h2 (legal_baseOk h)
  have hp : d2.por = false := por_keep h2 hpor
  exact legal_ite (fun _ => legal_setMode_out hb hp (by omega)) fun _ => legal_beginLoad s hb hp

theorem Dev.lockDevice_modeKey (d : Dev) : d.lockDevice.modeKey = { d.modeKey with devLock := true } := Dev.bindLock_modeKey _

theorem legal_toBase {d : Dev} (hb : BaseOk d.base) (hp : d.por = false) : Legal d.toBase := by
  unfold Dev.toBase
  refine legal_keep ?_ (Dev.startTrial_modeKey _ _)
  have hk := d.lockDevice_modeKey
  have hb' : d.lockDevice.base = d.base := congrArg ModeKey.base hk
  exact legal_setMode_run (hb' ▸ hb) ((congrArg ModeKey.por hk).trans hp) (congrArg ModeKey.devLock hk) (.inl hb'.symm)

theorem legal_loadPhaseEnd {d : Dev} (h : Legal d) : Legal d.loadPhaseEnd := by
  unfold Dev.loadPhaseEnd
  refine legal_ite (fun _ => h) fun hc => ?_
  have hm : d.mode = 2 ∨ d.mode = 3 := by simp at hc; tauto
  have hp := legal_por h (by omega)
  have hk := d.lockDevice_modeKey
  have hb' : d.lockDevice.base = d.base := congrArg ModeKey.base hk
  have hp' : d.lockDevice.por = false := (congrArg ModeKey.por hk).trans hp
  have hl' : d.lockDevice.devLock = true := congrArg ModeKey.devLock hk
  refine legal_ite (fun _ => legal_ite (fun _ => legal_toBase (legal_baseOk h) hp) fun _ => h) fun _ => ?_
  refine legal_ite (fun _ => legal_keep ?_ (Dev.startTrial_modeKey _ _)) fun _ => legal_keep ?_ (Dev.startTrial_modeKey _ _)
  · exact legal_setMode_run (hb' ▸ legal_baseOk h) hp' hl' (.inr rfl)
  · refine legal_keep (legal_setMode_hold (d := { d.lockDevice with holdBy := some .degradedStart, holdFrom := d.mode })
      (hb' ▸ legal_baseOk h) hp' hl' (.inl rfl)) ?_
    exact Dev.foldl_modeKey (fun e i => e.toHold_modeKey i) _ _

theorem legal_migration {d : Dev} (ok : Bool) (pl : List Byte) (s : StartIn) (h : Legal d) : Legal (d.migration ok pl s) := by
  unfold Dev.migration
  refine legal_ite (fun _ => h) fun hc => ?_
  have hm : d.mode = 3 := by simpa using hc
  have hp := legal_por h (by omega)
  extract_lets b new d1 d2 d3 d4
  have h1 : d1.modeKey = d.modeKey := by simp [d1, apply_ite Dev.modeKey]
  have h2 : d2.modeKey = d.modeKey := by simp [d2, h1]
  have h4 : d4.modeKey = d.modeKey := (Dev.foldl_modeKey (fun _ _ => Dev.loupeCold_modeKey _ _) _ _).trans (by simp [d3, h1])
  have hl4 := legal_keep h h4
  have hb2 : BaseOk d2.base := baseOk_keep h2 (legal_baseOk h)
  exact legal_ite (fun _ => legal_toBase hb2 (por_keep h2 hp)) fun _ =>
    legal_resetRestart s (por_keep h4 hp) hl4

theorem running_mode {d : Dev} (h : d.running = true) : 4 ≤ d.mode ∧ d.mode ≤ 9 := by
  simp only [Dev.running, Dev.inBase, Bool.or_eq_true, Bool.and_eq_true, decide_eq_true_eq] at h
  omega

theorem legal_t19 {d : Dev} (s : StartIn) (h : Legal d) : Legal (d.t19 s) := by
  unfold Dev.t19
  refine legal_ite (fun _ => h) fun hc => ?_
  have hp := legal_por h (by have := running_mode (d := d) (by simpa using hc); omega)
  have hk : (allStrands.foldl (fun (e : Dev) i => e.loupeWarm i) d).modeKey = d.modeKey := Dev.foldl_modeKey (fun _ _ => Dev.loupeWarm_modeKey _ _) _ _
  exact legal_resetRestart s (por_keep hk hp) (legal_keep h hk)

theorem legal_shutdown {d : Dev} (h : Legal d) : Legal d.shutdown := by
  unfold Dev.shutdown
  refine legal_ite (fun _ => h) fun hc => ?_
  have hp := legal_por h (by have := running_mode (d := d) (by simpa using hc); omega)
  extract_lets d1 d2 l x d3
  have h2 : d2.modeKey = d.modeKey := (Dev.foldl_modeKey (fun e i => by split <;> simp) _ _).trans (by simp [d1])
  have h3 : d3.modeKey = ⟨0, d.base, d.por, false, none, d.holdFrom⟩ := by
    rw [Dev.setMode_modeKey]
    simp only [Dev.disarm_modeKey, Dev.resetIdent_modeKey, Dev.lktLost_modeKey, Dev.modeKey_mk]
    have hb : d2.base = d.base := congrArg ModeKey.base h2
    have hp : d2.por = d.por := congrArg ModeKey.por h2
    have hf : d2.holdFrom = d.holdFrom := congrArg ModeKey.holdFrom h2
    rw [hb, hp, hf]
  clear_value d3
  have hm3 : d3.mode = 0 := congrArg ModeKey.mode h3
  have hb3 : d3.base = d.base := congrArg ModeKey.base h3
  have hp3 : d3.por = d.por := congrArg ModeKey.por h3
  exact legal_out (show BaseOk d3.base from hb3 ▸ legal_baseOk h) (hp3.trans hp) (.inl (show d3.mode < 4 by omega))

theorem legal_releaseHold {d : Dev} (h : Legal d) : Legal d.releaseHold := by
  unfold Dev.releaseHold
  refine legal_ite (fun _ => h) fun hc => legal_tryT12 (legal_keep ?_ (Dev.foldl_modeKey (fun _ _ => Dev.toRun_modeKey _ _) _ _))
  have hr : d.mayRelease = true := by simpa using hc
  simp only [Dev.mayRelease, Bool.and_eq_true, decide_eq_true_eq, bne_iff_ne] at hr
  have hm : d.mode = 9 := hr.1.1.1
  have hb := legal_baseOk h
  obtain ⟨-, -, -, -, -, hhold⟩ := id h
  have hret : d.returnMode = d.base ∨ d.returnMode = 8 := by
    unfold Dev.returnMode
    dsimp only
    split
    · next hw =>
      rcases hhold hm with hw' | ⟨-, h8 | ⟨-, hf⟩⟩
      · simp [hw'] at hw
      · exact .inr h8
      · exact .inl hf
    · split
      · exact .inr rfl
      · exact .inl rfl
  have hp := legal_por h (by omega)
  have hl := legal_lock h (by omega) (by omega)
  exact legal_setMode_run (d := { d with holdBy := none }) hb hp hl hret

theorem legal_recover {d : Dev} (h : Legal d) : Legal d.recover :=
  legal_ite (fun hc => legal_toRecovery (legal_baseOk h) (legal_por h (by simp at hc; omega))) fun _ => h

theorem legal_trialRestart {d : Dev} (s : StartIn) (h : Legal d) : Legal (d.trialRestart s) :=
  legal_ite (fun _ => legal_t19 s (legal_keep h rfl)) fun _ => h

theorem legal_activationDue {d : Dev} (s : StartIn) (h : Legal d) : Legal (d.activationDue s) := by
  unfold Dev.activationDue
  refine legal_ite (fun _ => h) fun _ => legal_t19 s (legal_keep h ?_)
  simp

theorem legal_recStore {d : Dev} (n : Nat) (a b c : Bool) (s : StartIn) (hp : d.por = false) (h : Legal d) : Legal (d.recStore n a b c s) := by
  unfold Dev.recStore
  refine legal_ite (fun _ => legal_keep h (Dev.recRefuse_modeKey _ _)) fun _ => ?_
  extract_lets bs info area total d1 d2 next r2 d3
  have h2 : d2.modeKey = d.modeKey := by simp [d2, d1, apply_ite Dev.modeKey]
  have h3 : d3.modeKey = d.modeKey := by simp [d3, h2]
  refine legal_ite (fun _ => legal_keep h (by simp [h2])) fun _ => ?_
  refine legal_ite (fun _ => legal_keep h (by simp [h2])) fun _ => ?_
  exact legal_resetRestart s (por_keep h3 hp) (legal_keep h h3)

theorem legal_recSubmit {d : Dev} (l a b c e : Bool) (s : StartIn) (h : Legal d) : Legal (d.recSubmit l a b c e s) := by
  unfold Dev.recSubmit
  refine legal_ite (fun _ => h) fun hc => ?_
  have hp : d.por = false := legal_por h (by simp [Dev.recLive] at hc; omega)
  refine legal_ite (fun _ => legal_keep h (by simp)) fun _ => ?_
  refine legal_ite (fun _ => legal_keep h (by simp)) fun _ => ?_
  refine legal_ite (fun _ => legal_keep h (by simp)) fun _ => ?_
  refine legal_ite (fun _ => legal_keep h (by simp)) fun _ => ?_
  refine legal_ite (fun _ => legal_keep h (by simp)) fun _ => ?_
  refine legal_ite (fun _ => legal_keep h (by simp)) fun _ => ?_
  refine legal_ite (fun _ => legal_keep h (by simp)) fun _ => ?_
  exact legal_ite (fun _ => legal_keep h (by simp)) fun _ => legal_recStore _ b c e s hp h

/-! ### Ngufotu requests -/

/-- A request keeps the mode legal where its action does. -/
theorem legal_ngu {d : Dev} (r : NguHdr) (op : Nat) (q : Bool) {x : NguOp} (hx : ∀ e, Legal e → Legal (x.act e)) (h : Legal d) : Legal (d.ngu r op q x) := by
  unfold Dev.ngu
  refine legal_ite (fun _ => h) fun _ => legal_ite (fun _ => legal_keep h (by simp)) fun _ => ?_
  dsimp only
  split
  · exact legal_keep h (by simp)
  · refine legal_ite (fun _ => hx _ (legal_keep h ?_)) fun _ => legal_keep h ?_
    · split <;> simp
    · simp [apply_ite Dev.modeKey]

theorem legal_nguCmd {d : Dev} (r : NguHdr) (op : Nat) (st : Dev → Nat) {act : Dev → Dev} (hx : ∀ e, Legal e → Legal (act e)) (h : Legal d) :
    Legal (d.nguCmd r op st act) := legal_ngu r op false hx h

theorem legal_updOp {d : Dev} (r : NguHdr) (op : Nat) (res : Dev → Nat) {act : Dev → Dev} {ref : Nat → Dev → Dev}
    (hx : ∀ e, Legal e → Legal (act e)) (hr : ∀ k e, (ref k e).modeKey = e.modeKey) (h : Legal d) : Legal (d.updOp r op res act ref) :=
  legal_ngu r op false (fun e he => legal_ite (fun _ => hx e he) fun _ => legal_keep he (hr _ e)) h

end Sys2Proof.Machine
end

section
/-! Every command keeps the device mode legal. -/

namespace Sys2Proof.Machine

/-! ### The commands -/

theorem legal_revert {d : Dev} (r : NguHdr) (v : Nat) (s : StartIn) (h : Legal d) : Legal (d.revert r v s) :=
  legal_updOp r _ _ (fun _ he => legal_t19 s (legal_keep he (by simp))) (fun _ _ => rfl) h

theorem legal_updateBegin {d : Dev} (r : NguHdr) (k : Nat) (h : Legal d) : Legal (d.updateBegin r k) :=
  legal_updOp r _ _ (fun _ he => legal_keep he (by simp)) (fun _ _ => by simp) h

theorem legal_updateAbort {d : Dev} (r : NguHdr) (k : Nat) (h : Legal d) : Legal (d.updateAbort r k) :=
  legal_updOp r _ _ (fun _ he => legal_keep he (by simp)) (fun _ _ => rfl) h

theorem legal_activate {d : Dev} (r : NguHdr) (k t : Nat) (h : Legal d) : Legal (d.activate r k t) :=
  legal_updOp r _ _ (fun _ he => legal_keep he (by simp)) (fun _ _ => rfl) h

theorem legal_cancel {d : Dev} (r : NguHdr) (k : Nat) (h : Legal d) : Legal (d.cancel r k) :=
  legal_updOp r _ _ (fun _ he => legal_keep he (by simp)) (fun _ _ => rfl) h

theorem legal_confirmCmd {d : Dev} (r : NguHdr) (h : Legal d) : Legal (d.confirmCmd r) :=
  legal_updOp r _ _ (fun _ he => legal_keep he (by simp)) (fun _ _ => rfl) h

theorem legal_enrol {d : Dev} (r : NguHdr) (b : List Byte) (h : Legal d) : Legal (d.enrol r b) :=
  legal_ngu r _ _ (fun _ he => legal_keep he (Dev.log_modeKey _ _ _ _ _)) h

theorem legal_lcAdvanceCmd {d : Dev} (r : NguHdr) (t : Nat) (h : Legal d) : Legal (d.lcAdvanceCmd r t) :=
  legal_ngu r _ _ (fun _ he => legal_lcAdvance _ he) h

/-- An operation that keeps the mode legal. -/
def KeepsLegal (f : Dev → Dev) : Prop := ∀ d, Legal d → Legal (f d)

/-- An operation under which no part of the mode changes. -/
theorem keepsLegal_of_modeKey {f : Dev → Dev} (hf : ∀ d, (f d).modeKey = d.modeKey) : KeepsLegal f := fun d h => legal_keep h (hf d)

/-- A command is an operation some time after the last one. -/
def Runs (c : Instr) (f : Dev → Dev) : Prop := ∃ dt, ∀ s, exec c s = .next (s.runAt dt f)

theorem runs_at {c : Instr} {f : Dev → Dev} {dt : Nat} (h : ∀ s, exec c s = .next (s.runAt dt f)) : Runs c f := ⟨dt, h⟩

theorem runs_now {c : Instr} {f : Dev → Dev} (h : ∀ s, exec c s = .next (s.run f)) : Runs c f := ⟨0, h⟩

theorem legal_run {s : State} {f : Dev → Dev} (hf : KeepsLegal f) (h : Legal s.dev) : Legal (s.run f).dev := legal_after s.dev (hf _ h)

theorem legal_runAt {s : State} {dt : Nat} {f : Dev → Dev} (hf : KeepsLegal f) (h : Legal s.dev) : Legal (s.runAt dt f).dev :=
  legal_run (fun d hd => hf _ (legal_keep hd (d.later_modeKey dt))) h

/-- Every command is an operation that keeps the mode legal. -/
theorem exec_keepsLegal (c : Instr) : ∃ f, Runs c f ∧ KeepsLegal f := by
  cases c with
  | fenceInSet | fenceInRelease | start | beadStep | stop | qflush | pinRelease | divRestart | evtSet | beadTxqWrite | beadQcfgWrite |
  beadImemWrite | beadDivWrite | beadCrccfgWrite | mdioStart | anRestart | verifyRestart | macFltW3Write | fdbWrite | fdbRead | fdbClear |
  swap | rateWrite | rateInitWrite | timeStep | stepArm | trkObsSubmit | trkRestart | evtEntryWrite | resync | unfence | devClear | mapRun |
  ringTailWrite | cqHeadWrite | cqEnable | cqPost | dmaAbort | ringEnable | ringDisable | idxClear | cmdAccept | cmdStart | mgTailWrite |
  mgAbort | mgCfgWrite | irqArm | msixUnmask | wdogKick | halt | resume | bankRelease | bankGrant | releaseGrant | pwrWrite | hmWipe |
  lcAdvanceWrite | locketPost | locketAck =>
    exact ⟨_, runs_at fun _ => rfl, fun _ h => legal_placeWrite _ _ _ h⟩
  | add | adc | sub | sbc | and | or | xor | andn | mov | mvn | neg | cmp | tst | movw | movt | shf | ldw | ldh | ldhs | ldb | ldbs | stw |
  sth | stb | b | br | swi | rte | wait | barrier | bkpt | mfs | mts | mul | muls | div | divs | badd | bsub | dadj | btob | bfromb =>
    exact ⟨_, runs_at fun _ => rfl, fun _ h => legal_coreRun _ _ _ h⟩
  | stopAct | rxFrame | pauseExpiry | fcRepeat | ptFrame | frameEligible | egressSelect | internalAdmit | vPortIngress | vPortEgress |
  gclEntryAdvance | gclSwapAct | ppsEdge | ppsLoss | ppsOutPulse | ppsOutEnd | obsQueueTake | obsApply | trkTimeout | predictorVisit |
  evtFire | actionDeferred | rowStart | winStage | winStart | winAction | alignRx | alignTimeout | flgDataRx | rttReqSend | rttRespSend |
  rttMeasure | rttAbandon | bezelDecide | bezelCut | arbForward | mapTimeTrigger | mapRunDone | smEvent | ctxTimeout | ownRecheck |
  txItemFetch | hostReadCompletion | txCommit | rxRingDeliver | rxHoldExpiry | completionWrite | scrub | patrolRead | cbsCreditReachesZero =>
    exact ⟨_, runs_at fun _ => rfl, keepsLegal_of_modeKey fun d => d.onActive_modeKey _ _⟩
  | linkChange | mdioDone | anDone | verifyDone | bankFree | pwrChangeDone =>
    exact ⟨_, runs_at fun _ => rfl, keepsLegal_of_modeKey fun d => d.onClocked_modeKey _ _⟩
  | pkgGetStatus | goOperational | goStopped | readContext =>
    exact ⟨_, runs_at fun _ => rfl, keepsLegal_of_modeKey fun d => d.onStrand_modeKey _ _⟩
  | nop | shout | shin | pull | push | set | beadMov | jmp | beadWait | beadCmp | crc | stamp | edit | irq | cnt | sync =>
    exact ⟨_, runs_now fun _ => rfl, keepsLegal_of_modeKey fun d => d.beadRun_modeKey _ _⟩
  | beadRxqRead | timeNowRead | trkAngleRead | ctNowRead | rxHiRead =>
    exact ⟨_, runs_at fun _ => rfl, keepsLegal_of_modeKey fun d => d.placeRead_modeKey _ _⟩
  | strandWarm => exact ⟨_, runs_at fun _ => rfl, keepsLegal_of_modeKey (by simp)⟩
  | strandCold => exact ⟨_, runs_at fun _ => rfl, keepsLegal_of_modeKey (by simp)⟩
  | linkReset => exact ⟨_, runs_at fun _ => rfl, keepsLegal_of_modeKey (by simp)⟩
  | claspInternalReset => exact ⟨_, runs_at fun _ => rfl, keepsLegal_of_modeKey (by simp)⟩
  | claspSelfCheckDone => exact ⟨_, runs_at fun _ => rfl, keepsLegal_of_modeKey (by simp)⟩
  | clkOkReturn => exact ⟨_, runs_at fun _ => rfl, keepsLegal_of_modeKey (by simp)⟩
  | loupeHeartbeat => exact ⟨_, runs_at fun _ => rfl, keepsLegal_of_modeKey (by simp)⟩
  | hbTimeout => exact ⟨_, runs_at fun _ => rfl, keepsLegal_of_modeKey (by simp)⟩
  | loadStart => exact ⟨_, runs_at fun _ => rfl, keepsLegal_of_modeKey (by simp)⟩
  | readbackReturn => exact ⟨_, runs_at fun _ => rfl, keepsLegal_of_modeKey (by simp)⟩
  | accReport => exact ⟨_, runs_at fun _ => rfl, keepsLegal_of_modeKey (by simp)⟩
  | pmStateChange => exact ⟨_, runs_at fun _ => rfl, keepsLegal_of_modeKey (by simp)⟩
  | bar2Access => exact ⟨_, runs_at fun _ => rfl, keepsLegal_of_modeKey (by simp)⟩
  | recOpen => exact ⟨_, runs_at fun _ => rfl, keepsLegal_of_modeKey (by simp)⟩
  | recClose => exact ⟨_, runs_at fun _ => rfl, keepsLegal_of_modeKey (by simp)⟩
  | waitWake => exact ⟨_, runs_at fun _ => rfl, keepsLegal_of_modeKey (by simp)⟩
  | mulResult => exact ⟨_, runs_at fun _ => rfl, keepsLegal_of_modeKey (by simp)⟩
  | divResult => exact ⟨_, runs_at fun _ => rfl, keepsLegal_of_modeKey (by simp)⟩
  | coreIrqTaken => exact ⟨_, runs_at fun _ => rfl, keepsLegal_of_modeKey (by simp)⟩
  | breakpointHit => exact ⟨_, runs_at fun _ => rfl, keepsLegal_of_modeKey (by simp)⟩
  | locketTimeout => exact ⟨_, runs_at fun _ => rfl, keepsLegal_of_modeKey (by simp)⟩
  | railSample => exact ⟨_, runs_at fun _ => rfl, keepsLegal_of_modeKey (by simp)⟩
  | wearMeasure => exact ⟨_, runs_at fun _ => rfl, keepsLegal_of_modeKey (by simp)⟩
  | eqhUpdate => exact ⟨_, runs_at fun _ => rfl, keepsLegal_of_modeKey (by simp)⟩
  | wearRecordWrite => exact ⟨_, runs_at fun _ => rfl, keepsLegal_of_modeKey (by simp)⟩
  | logFlush => exact ⟨_, runs_at fun _ => rfl, keepsLegal_of_modeKey (by simp)⟩
  | loupeTimeCopy => exact ⟨_, runs_at fun _ => rfl, keepsLegal_of_modeKey (by simp)⟩
  | timeUncTimeout => exact ⟨_, runs_at fun _ => rfl, keepsLegal_of_modeKey (by simp)⟩
  | nonceExpiry => exact ⟨_, runs_at fun _ => rfl, keepsLegal_of_modeKey (by simp)⟩
  | reqLenWrite => exact ⟨_, runs_at fun _ => rfl, keepsLegal_of_modeKey (by simp)⟩
  | trialConfirmDue => exact ⟨_, runs_at fun _ => rfl, keepsLegal_of_modeKey (by simp)⟩
  | relayBlock => exact ⟨_, runs_at fun _ => rfl, keepsLegal_of_modeKey (by simp)⟩
  | relayRequest => exact ⟨_, runs_at fun _ => rfl, keepsLegal_of_modeKey (by simp)⟩
  | relayState => exact ⟨_, runs_at fun _ => rfl, keepsLegal_of_modeKey (by simp)⟩
  | relayStateTimer => exact ⟨_, runs_at fun _ => rfl, keepsLegal_of_modeKey (by simp)⟩
  | relayQueueSend => exact ⟨_, runs_at fun _ => rfl, keepsLegal_of_modeKey (by simp)⟩
  | relayGapRequest => exact ⟨_, runs_at fun _ => rfl, keepsLegal_of_modeKey (by simp)⟩
  | relayRequestRetry => exact ⟨_, runs_at fun _ => rfl, keepsLegal_of_modeKey (by simp)⟩
  | relayUpLostRepeat => exact ⟨_, runs_at fun _ => rfl, keepsLegal_of_modeKey (by simp)⟩
  | sessionVerify => exact ⟨_, runs_at fun _ => rfl, keepsLegal_of_modeKey (by simp)⟩
  | bankVioCheck => exact ⟨_, runs_at fun _ => rfl, keepsLegal_of_modeKey (by simp)⟩
  | pcieLinkUp => exact ⟨_, runs_at fun _ => rfl, keepsLegal_of_modeKey (by simp)⟩
  | postedCreditReturn => exact ⟨_, runs_at fun _ => rfl, keepsLegal_of_modeKey (by simp)⟩
  | ngufotuMessage => exact ⟨_, runs_at fun _ => rfl, keepsLegal_of_modeKey (by simp)⟩
  | servicePortLinkChange => exact ⟨_, runs_at fun _ => rfl, keepsLegal_of_modeKey (by simp)⟩
  | wipeComplete => exact ⟨_, runs_at fun _ => rfl, keepsLegal_of_modeKey (by simp)⟩
  | lifeCycleFusesProgrammed => exact ⟨_, runs_at fun _ => rfl, keepsLegal_of_modeKey (by simp)⟩
  | registerWrite => exact ⟨_, runs_at fun _ => rfl, fun _ => legal_masterWrite _ _ _ _⟩
  | snap => exact ⟨_, runs_at fun _ => rfl, fun _ => legal_snap _ _⟩
  | por => exact ⟨_, runs_at fun _ => rfl, fun d _ => legal_powerOn d⟩
  | porEnd => exact ⟨_, runs_at fun _ => rfl, fun _ => legal_porEnd _ _ _ _ _⟩
  | loupeReset => exact ⟨_, runs_at fun _ => rfl, fun _ => legal_loupeResetBy _⟩
  | lockstepMismatch => exact ⟨_, runs_at fun _ => rfl, fun _ => legal_lockstep⟩
  | loupeWdogExpiry => exact ⟨_, runs_at fun _ => rfl, fun _ h => (legal_loupeReset 2 h).1⟩
  | clkFail => exact ⟨_, runs_at fun _ => rfl, fun _ => legal_clkFail _ _⟩
  | supplyFail => exact ⟨_, runs_at fun _ => rfl, fun _ => legal_fenceTrigger _ _ _⟩
  | coreWdogExpiry => exact ⟨_, runs_at fun _ => rfl, fun _ => legal_wdogWatch _⟩
  | holdEnter => exact ⟨_, runs_at fun _ => rfl, fun _ => legal_supPoke _ _ _⟩
  | holdExit => exact ⟨_, runs_at fun _ => rfl, fun _ => legal_supPoke _ _ _⟩
  | pllLockTimeout => exact ⟨_, runs_at fun _ => rfl, fun _ => legal_pllTimeout _⟩
  | loadComplete => exact ⟨_, runs_at fun _ => rfl, fun _ => legal_loadComplete _ _ _⟩
  | loadPhaseEnd => exact ⟨_, runs_at fun _ => rfl, fun _ => legal_loadPhaseEnd⟩
  | migration => exact ⟨_, runs_at fun _ => rfl, fun _ => legal_migration _ _ _⟩
  | pairResynchronized => exact ⟨_, runs_at fun _ => rfl, fun _ => legal_pairSync _⟩
  | wake => exact ⟨_, runs_at fun _ => rfl, fun _ => legal_wake _⟩
  | mergeWriteback => exact ⟨_, runs_at fun _ => rfl, fun _ => legal_mergeWriteback _⟩
  | mergeRecord => exact ⟨_, runs_at fun _ => rfl, fun _ => legal_mergeRecord _⟩
  | recSubmit => exact ⟨_, runs_at fun _ => rfl, fun _ => legal_recSubmit _ _ _ _ _ _⟩
  | wbDrain => exact ⟨_, runs_at fun _ => rfl, fun _ => legal_wbDrain _⟩
  | d16Sequence => exact ⟨_, runs_at fun _ => rfl, fun _ => legal_d16 _ _⟩
  | coreStep => exact ⟨_, runs_at fun _ => rfl, fun _ => legal_coreStep _⟩
  | tamper => exact ⟨_, runs_at fun _ => rfl, fun _ => legal_tamper _⟩
  | tempSample => exact ⟨_, runs_at fun _ => rfl, fun _ => legal_tempSample _⟩
  | getIdentity => exact ⟨_, runs_at fun _ => rfl, fun _ => legal_ngu _ _ _ (fun _ he => he)⟩
  | getStatus => exact ⟨_, runs_at fun _ => rfl, fun _ => legal_ngu _ _ _ (fun _ he => he)⟩
  | getNonce => exact ⟨_, runs_at fun _ => rfl, fun _ => legal_ngu _ _ _ (fun e he => legal_keep he (by simp))⟩
  | readReg => exact ⟨_, runs_at fun _ => rfl, fun _ => legal_ngu _ _ _ (fun e he => legal_keep he (by simp))⟩
  | readLog => exact ⟨_, runs_at fun _ => rfl, fun _ => legal_ngu _ _ _ (fun _ he => he)⟩
  | readSensors => exact ⟨_, runs_at fun _ => rfl, fun _ => legal_ngu _ _ _ (fun _ he => he)⟩
  | readWear => exact ⟨_, runs_at fun _ => rfl, fun _ => legal_ngu _ _ _ (fun _ he => he)⟩
  | readLoadRecord => exact ⟨_, runs_at fun _ => rfl, fun _ => legal_ngu _ _ _ (fun _ he => he)⟩
  | nguSnap => exact ⟨_, runs_at fun _ => rfl, fun _ => legal_ngu _ _ _ (fun _ => legal_snap _ _)⟩
  | fence => exact ⟨_, runs_at fun _ => rfl, fun _ => legal_nguCmd _ _ _ (fun _ => legal_fenceOut _ _ _)⟩
  | rejoin => exact ⟨_, runs_at fun _ => rfl, fun _ => legal_nguCmd _ _ _ (fun e he => legal_keep he (by simp))⟩
  | safeHold => exact ⟨_, runs_at fun _ => rfl, fun _ => legal_nguCmd _ _ _ (fun _ => legal_enterHold _)⟩
  | release => exact ⟨_, runs_at fun _ => rfl, fun _ => legal_nguCmd _ _ _ (fun _ => legal_releaseHold)⟩
  | restart => exact ⟨_, runs_at fun _ => rfl, fun _ => legal_nguCmd _ _ _ (fun _ => legal_t19 _)⟩
  | shutdown => exact ⟨_, runs_at fun _ => rfl, fun _ => legal_nguCmd _ _ _ (fun _ => legal_shutdown)⟩
  | recover => exact ⟨_, runs_at fun _ => rfl, fun _ => legal_nguCmd _ _ _ (fun _ => legal_recover)⟩
  | claspRestart => exact ⟨_, runs_at fun _ => rfl, fun _ => legal_nguCmd _ _ _ (fun e he => legal_keep he (by simp))⟩
  | nguStrandWarm => exact ⟨_, runs_at fun _ => rfl, fun _ => legal_nguCmd _ _ _ (fun e he => legal_keep he (by simp))⟩
  | nguStrandCold => exact ⟨_, runs_at fun _ => rfl, fun _ => legal_nguCmd _ _ _ (fun e he => legal_keep he (by simp))⟩
  | nguLoupeReset => exact ⟨_, runs_at fun _ => rfl, fun _ => legal_nguCmd _ _ _ (fun _ => legal_resetCommand)⟩
  | setTime => exact ⟨_, runs_at fun _ => rfl, fun _ => legal_nguCmd _ _ _ (fun e he => legal_keep he (by simp))⟩
  | updateBegin => exact ⟨_, runs_at fun _ => rfl, fun _ => legal_updateBegin _ _⟩
  | updateAbort => exact ⟨_, runs_at fun _ => rfl, fun _ => legal_updateAbort _ _⟩
  | activate => exact ⟨_, runs_at fun _ => rfl, fun _ => legal_activate _ _ _⟩
  | activationDue => exact ⟨_, runs_at fun _ => rfl, fun _ => legal_activationDue _⟩
  | cancel => exact ⟨_, runs_at fun _ => rfl, fun _ => legal_cancel _ _⟩
  | confirm => exact ⟨_, runs_at fun _ => rfl, fun _ => legal_confirmCmd _⟩
  | trialRestartDue => exact ⟨_, runs_at fun _ => rfl, fun _ => legal_trialRestart _⟩
  | revert => exact ⟨_, runs_at fun _ => rfl, fun _ => legal_revert _ _ _⟩
  | enrol => exact ⟨_, runs_at fun _ => rfl, fun _ => legal_enrol _ _⟩
  | lcAdvance => exact ⟨_, runs_at fun _ => rfl, fun _ => legal_lcAdvanceCmd _ _⟩
  | reservedEncoding => exact ⟨_, runs_at fun _ => rfl, fun _ => legal_reservedEncoding _ _⟩

/-- Settles O58: every command, and the tick of an empty queue, is an operation that keeps the mode legal, and so does what follows it. -/
theorem modeStaysLegal : Obligations.ModeStaysLegal := by
  unfold Obligations.ModeStaysLegal
  intro s t h hs
  unfold step at hs
  split at hs
  · cases hs
    exact legal_run (fun _ => legal_tick) h
  · next c rest _ =>
    obtain ⟨f, ⟨dt, hr⟩, hf⟩ := exec_keepsLegal c
    rw [hr] at hs
    cases hs
    exact legal_runAt (s := { s with pending := rest }) hf h

end Sys2Proof.Machine
end

section
/-! What an operation leaves of the device: the parts it may touch, for each shared operation. -/

namespace Sys2Proof.Machine

/-! ## What an operation leaves of the device -/

/-- The Loupe's own state that its log, its counters, its registers and the start of its firmware leave alone (R428, R445). -/
structure LoupeOwn where
  sram : Memory
  safe : Bool
  lastReset : Nat
  kept : List KeptResp
  nonce : Option Nat
  nonceAt : Nat
  coolAt : Option Nat

def Loupe.own (l : Loupe) : LoupeOwn := ⟨l.sram, l.safe, l.lastReset, l.kept, l.nonce, l.nonceAt, l.coolAt⟩

/-- The links of the host port and the state of its self-check (R332). -/
def Clasp.port (c : Clasp) : Duo Link × Bool × Bool × Option Nat := (c.links, c.fenced, c.checking, c.mismatchAt)

/-- The strands reset in the present cycle as they stood before it, and those fenced outward in it (R29, R43). -/
def Dev.cycBefore (d : Dev) : Tab (Option (SupSt × StrandSt × Nat)) := if d.cyc.time = d.ns then d.cyc.before else {}
def Dev.cycFenced (d : Dev) : List Nat := if d.cyc.time = d.ns then d.cyc.fenced else []

theorem Dev.thisCyc_before (d : Dev) : d.thisCyc.before = d.cycBefore := by
  unfold Dev.thisCyc Dev.cycBefore
  dsimp only
  split <;> split <;> rfl

theorem Dev.thisCyc_fenced (d : Dev) : d.thisCyc.fenced = d.cycFenced := by
  unfold Dev.thisCyc Dev.cycFenced
  dsimp only
  split <;> split <;> rfl

theorem Dev.thisCyc_time (d : Dev) : d.thisCyc.time = d.ns := by
  unfold Dev.thisCyc
  by_cases h : d.cyc.time = d.ns
  · rw [if_pos h]
    dsimp only
    split <;> exact h
  · rw [if_neg h]
    dsimp only
    split <;> rfl

/-- The parts of the device that an operation may leave as they are; `own` and `boot` are in `loupe` and in `upd` too,
`mgCfg` and `port` in `clasp`, `before` and `fenced` in the record of the present cycle. -/
inductive DevField where
  | ns | mode | base | por | devLock | cfg | holdBy | holdFrom | sleptAt | sup | strands | clasp | lkt | epochs | loupe | own | hm | flashes | upd | boot | out
  | mgCfg | port | before | fenced
deriving DecidableEq

/-- A part is in `e` as in `d`. -/
def DevField.same (d e : Dev) : DevField → Prop
  | .ns => e.ns = d.ns
  | .mode => e.mode = d.mode
  | .base => e.base = d.base
  | .por => e.por = d.por
  | .devLock => e.devLock = d.devLock
  | .cfg => e.cfg = d.cfg
  | .holdBy => e.holdBy = d.holdBy
  | .holdFrom => e.holdFrom = d.holdFrom
  | .sleptAt => e.sleptAt = d.sleptAt
  | .sup => e.sup = d.sup
  | .strands => e.strands = d.strands
  | .clasp => e.clasp = d.clasp
  | .lkt => e.lkt = d.lkt
  | .epochs => e.epochs = d.epochs
  | .loupe => e.loupe = d.loupe
  | .own => e.loupe.own = d.loupe.own
  | .hm => e.hm = d.hm
  | .flashes => e.flashes = d.flashes
  | .upd => e.upd = d.upd
  | .boot => e.upd.boot = d.upd.boot
  | .out => e.out = d.out
  | .mgCfg => e.mgCfg = d.mgCfg
  | .port => e.clasp.port = d.clasp.port
  | .before => e.cycBefore = d.cycBefore
  | .fenced => e.cycFenced = d.cycFenced

/-- `e` differs from `d` at most in the parts listed, and in the rest of the record of the present cycle. -/
def Touches (l : List DevField) (d e : Dev) : Prop := ∀ f, f ∉ l → f.same d e

theorem DevField.same_refl (d : Dev) (f : DevField) : f.same d d := by cases f <;> rfl

theorem DevField.same_trans {d e g : Dev} {f : DevField} (h : f.same d e) (h' : f.same e g) : f.same d g := by
  cases f <;> exact Eq.trans h' h

namespace Touches

variable {l l' : List DevField} {d e g : Dev}

theorem refl (l : List DevField) (d : Dev) : Touches l d d := fun f _ => DevField.same_refl d f

theorem trans (h : Touches l d e) (h' : Touches l e g) : Touches l d g := fun f hf => DevField.same_trans (h f hf) (h' f hf)

theorem mono (h : Touches l d e) (hl : l.all l'.contains = true) : Touches l' d e := fun f hf =>
  h f fun hm => hf (List.contains_iff_mem.1 (List.all_eq_true.1 hl f hm))

/-- A part that is not listed. -/
theorem same_at (h : Touches l d e) (f : DevField) (hl : l.contains f = false) : f.same d e :=
  h f fun hm => by rw [List.contains_iff_mem.2 hm] at hl; cases hl

theorem ite {c : Prop} [Decidable c] (ht : c → Touches l d e) (hf : ¬c → Touches l d g) : Touches l d (if c then e else g) := by
  split
  · exact ht ‹_›
  · exact hf ‹_›

theorem foldl {α : Type} {f : Dev → α → Dev} (hf : ∀ e a, Touches l e (f e a)) (as : List α) (d : Dev) : Touches l d (as.foldl f d) := by
  induction as generalizing d with
  | nil => exact refl l d
  | cons a as ih => exact (hf d a).trans (ih _)

theorem ns (h : Touches l d e) (hl : l.contains .ns = false) : e.ns = d.ns := h.same_at .ns hl
theorem mode (h : Touches l d e) (hl : l.contains .mode = false) : e.mode = d.mode := h.same_at .mode hl
theorem base (h : Touches l d e) (hl : l.contains .base = false) : e.base = d.base := h.same_at .base hl
theorem por (h : Touches l d e) (hl : l.contains .por = false) : e.por = d.por := h.same_at .por hl
theorem devLock (h : Touches l d e) (hl : l.contains .devLock = false) : e.devLock = d.devLock := h.same_at .devLock hl
theorem cfg (h : Touches l d e) (hl : l.contains .cfg = false) : e.cfg = d.cfg := h.same_at .cfg hl
theorem holdBy (h : Touches l d e) (hl : l.contains .holdBy = false) : e.holdBy = d.holdBy := h.same_at .holdBy hl
theorem holdFrom (h : Touches l d e) (hl : l.contains .holdFrom = false) : e.holdFrom = d.holdFrom := h.same_at .holdFrom hl
theorem sup (h : Touches l d e) (hl : l.contains .sup = false) : e.sup = d.sup := h.same_at .sup hl
theorem strands (h : Touches l d e) (hl : l.contains .strands = false) : e.strands = d.strands := h.same_at .strands hl
theorem clasp (h : Touches l d e) (hl : l.contains .clasp = false) : e.clasp = d.clasp := h.same_at .clasp hl
theorem lkt (h : Touches l d e) (hl : l.contains .lkt = false) : e.lkt = d.lkt := h.same_at .lkt hl
theorem epochs (h : Touches l d e) (hl : l.contains .epochs = false) : e.epochs = d.epochs := h.same_at .epochs hl
theorem loupe (h : Touches l d e) (hl : l.contains .loupe = false) : e.loupe = d.loupe := h.same_at .loupe hl
theorem own (h : Touches l d e) (hl : l.contains .own = false) : e.loupe.own = d.loupe.own := h.same_at .own hl
theorem hm (h : Touches l d e) (hl : l.contains .hm = false) : e.hm = d.hm := h.same_at .hm hl
theorem upd (h : Touches l d e) (hl : l.contains .upd = false) : e.upd = d.upd := h.same_at .upd hl
theorem boot (h : Touches l d e) (hl : l.contains .boot = false) : e.upd.boot = d.upd.boot := h.same_at .boot hl
theorem out (h : Touches l d e) (hl : l.contains .out = false) : e.out = d.out := h.same_at .out hl
theorem mgCfg (h : Touches l d e) (hl : l.contains .mgCfg = false) : e.mgCfg = d.mgCfg := h.same_at .mgCfg hl

theorem port (h : Touches l d e) (hl : l.contains .port = false) : e.clasp.port = d.clasp.port := h.same_at .port hl
theorem link (h : Touches l d e) (b : Bool) (hl : l.contains .port = false) : e.link b = d.link b :=
  congrArg (fun p : Duo Link × Bool × Bool × Option Nat => p.1.get b) (h.port hl)
theorem claspFenced (h : Touches l d e) (hl : l.contains .port = false) : e.clasp.fenced = d.clasp.fenced :=
  congrArg (fun p : Duo Link × Bool × Bool × Option Nat => p.2.1) (h.port hl)
theorem claspChecking (h : Touches l d e) (hl : l.contains .port = false) : e.clasp.checking = d.clasp.checking :=
  congrArg (fun p : Duo Link × Bool × Bool × Option Nat => p.2.2.1) (h.port hl)
theorem before (h : Touches l d e) (hl : l.contains .before = false) : e.thisCyc.before = d.thisCyc.before := by
  rw [Dev.thisCyc_before, Dev.thisCyc_before]; exact h.same_at .before hl
theorem fenced (h : Touches l d e) (hl : l.contains .fenced = false) : e.thisCyc.fenced = d.thisCyc.fenced := by
  rw [Dev.thisCyc_fenced, Dev.thisCyc_fenced]; exact h.same_at .fenced hl

theorem supOf (h : Touches l d e) (i : StrandId) (hl : l.contains .sup = false) : e.supOf i = d.supOf i := congrArg (Quad.get · i) (h.sup hl)
theorem phase (h : Touches l d e) (i : StrandId) (hl : l.contains .sup = false) : e.phase i = d.phase i := congrArg SupSt.phase (h.supOf i hl)
theorem strand (h : Touches l d e) (i : StrandId) (hl : l.contains .strands = false) : e.strand i = d.strand i := congrArg (Quad.get · i) (h.strands hl)

/-- The parts of the device as the claims name them. -/
def parts : DPart → List DevField
  | .ns => [.ns]
  | .mode => [.mode, .base, .por, .devLock, .holdBy, .holdFrom, .sleptAt]
  | .cfg => [.cfg]
  | .sup => [.sup]
  | .strands => [.strands]
  | .lkt => [.lkt]
  | .epochs => [.epochs]
  | .loupe => [.loupe]
  | .hm => [.hm]
  | .flashes => [.flashes]
  | .upd => [.upd]

/-- None of the parts in `l` belongs to a part of the device outside `but`. -/
def within (l : List DevField) (but : List DPart) : Bool := DPart.all.all fun p => but.contains p || (parts p).all fun f => !l.contains f

theorem devKeeps (h : Touches l d e) (but : List DPart) (hb : within l but = true) : DevKeeps d e but := by
  intro p hp hn
  have hf (f : DevField) (hm : f ∈ parts p) : f.same d e := by
    have hw := List.all_eq_true.1 hb p hp
    rw [Bool.or_eq_true, List.contains_iff_mem, or_iff_right hn, List.all_eq_true] at hw
    exact h.same_at f (by simpa using hw f hm)
  cases p
  case mode =>
    exact ⟨hf .mode (by simp [parts]), hf .base (by simp [parts]), hf .por (by simp [parts]), hf .devLock (by simp [parts]),
      hf .holdBy (by simp [parts]), hf .holdFrom (by simp [parts]), hf .sleptAt (by simp [parts])⟩
  all_goals exact hf _ (List.mem_singleton.2 rfl)

end Touches

/-! ### Log, counters, outputs -/

theorem touches_inCyc (d : Dev) {f : DevCyc → DevCyc} (h : ∀ y, ((f y).time, (f y).before, (f y).fenced) = (y.time, y.before, y.fenced)) :
    Touches [] d (d.inCyc f) := by
  have h' (y : DevCyc) : (f y).time = y.time ∧ (f y).before = y.before ∧ (f y).fenced = y.fenced := by simpa using h y
  obtain ⟨ht, hb, hf⟩ := h' d.thisCyc
  have htime : (f d.thisCyc).time = d.ns := ht.trans d.thisCyc_time
  intro k hk
  cases k
  case before => exact (if_pos htime).trans (hb.trans d.thisCyc_before)
  case fenced => exact (if_pos htime).trans (hf.trans d.thisCyc_fenced)
  all_goals (simp at hk; rfl)

theorem touches_loupe (d : Dev) (x : Loupe) : Touches [.loupe, .own] d { d with loupe := x } := fun k h => by cases k <;> simp at h <;> rfl

theorem touches_loupe_own (d : Dev) {x : Loupe} (hx : x.own = d.loupe.own) : Touches [.loupe] d { d with loupe := x } := fun k h => by
  cases k
  case own => exact hx
  all_goals simp at h <;> rfl

theorem touches_upd (d : Dev) (x : Update) : Touches [.upd, .boot] d { d with upd := x } := fun k h => by cases k <;> simp at h <;> rfl

theorem touches_upd_boot (d : Dev) {x : Update} (hx : x.boot = d.upd.boot) : Touches [.upd] d { d with upd := x } := fun k h => by
  cases k
  case boot => exact hx
  all_goals simp at h <;> rfl

theorem touches_clasp (d : Dev) (x : Clasp) : Touches [.clasp, .mgCfg, .port] d { d with clasp := x } := fun k h => by cases k <;> simp at h <;> rfl

theorem touches_clasp_regs (d : Dev) {x : Clasp} (hx : x.regs = d.clasp.regs) (hp : x.port = d.clasp.port) :
    Touches [.clasp] d { d with clasp := x } := fun k h => by
  cases k
  case port => exact hp
  case mgCfg =>
    funext g
    exact congrArg (fun t : Tab Word => t.get (deviceReset (mgPage g)) (mgPage g)) hx
  all_goals simp at h <;> rfl

theorem touches_linc (d : Dev) (x : Nat) : Touches [.loupe] d (d.linc x) := ((touches_inCyc d fun _ => rfl).mono rfl).trans (touches_loupe_own (d.inCyc _) rfl)

theorem touches_lflag (d : Dev) (a x : Nat) : Touches [.loupe] d (d.lflag a x) := ((touches_inCyc d fun _ => rfl).mono rfl).trans (touches_loupe_own (d.inCyc _) rfl)

theorem touches_uinc (d : Dev) (x : Nat) : Touches [.upd] d (d.uinc x) := ((touches_inCyc d fun _ => rfl).mono rfl).trans (touches_upd_boot (d.inCyc _) rfl)

theorem touches_uflag (d : Dev) (x : Nat) : Touches [.upd] d (d.uflag x) := ((touches_inCyc d fun _ => rfl).mono rfl).trans (touches_upd_boot (d.inCyc _) rfl)

theorem touches_cinc (d : Dev) (x : Nat) : Touches [.clasp] d (d.cinc x) := ((touches_inCyc d fun _ => rfl).mono rfl).trans (touches_clasp_regs (d.inCyc _) rfl rfl)

theorem Dev.mgCfg_dwr_flags (d : Dev) (v : Word) : (d.dwr Reg.CLASP_FLAGS v).mgCfg = d.mgCfg := by
  funext g
  unfold Dev.dwr Dev.mgCfg Dev.drd mgPage
  exact Tab.get_set_other _ _ _ _ (by simp only [Reg.CLASP_FLAGS]; omega)

theorem touches_dwr_flags (d : Dev) (v : Word) : Touches [.clasp] d (d.dwr Reg.CLASP_FLAGS v) := fun k h => by
  cases k
  case mgCfg => exact d.mgCfg_dwr_flags v
  all_goals simp at h <;> rfl

theorem touches_dflag (d : Dev) (x : Nat) : Touches [.clasp] d (d.dflag Reg.CLASP_FLAGS x) := ((touches_inCyc d fun _ => rfl).mono rfl).trans (touches_dwr_flags _ _)

theorem touches_emit (d : Dev) (o : Out) : Touches [.out] d (d.emit o) := fun k h => by cases k <;> simp at h <;> rfl

theorem touches_setSup (d : Dev) (i : StrandId) (x : SupSt) : Touches [.sup] d (d.setSup i x) := fun k h => by cases k <;> simp at h <;> rfl

theorem touches_updSup (d : Dev) (i : StrandId) (f : SupSt → SupSt) : Touches [.sup] d (d.updSup i f) := touches_setSup d i _

theorem touches_setStrand (d : Dev) (i : StrandId) (x : StrandSt) : Touches [.strands] d (d.setStrand i x) := fun k h => by
  cases k <;> simp at h <;> rfl

theorem touches_setMg (d : Dev) (g : Nat) (x : MGroup) : Touches [.clasp] d (d.setMg g x) := fun k h => by cases k <;> simp at h <;> rfl

theorem touches_setLink (d : Dev) (b : Bool) (x : Link) : Touches [.clasp, .port] d (d.setLink b x) := fun k h => by cases k <;> simp at h <;> rfl

theorem touches_setChan (d : Dev) (c : Nat) (x : Chan) : Touches [.lkt] d (d.setChan c x) := fun k h => by cases k <;> simp at h <;> rfl

theorem touches_withChan (d : Dev) (c : Nat) (f : Chan → Chan) : Touches [.lkt] d (d.withChan c f) :=
  ((touches_inCyc d fun _ => rfl).mono rfl).trans (touches_setChan (d.inCyc _) c _)

theorem touches_epochs (d : Dev) (x : Tab Nat) : Touches [.epochs] d { d with epochs := x } := fun k h => by cases k <;> simp at h <;> rfl

theorem touches_strands (d : Dev) (x : Quad StrandSt) : Touches [.strands] d { d with strands := x } := fun k h => by cases k <;> simp at h <;> rfl

theorem touches_pushLog (d : Dev) (c : Nat) (k : FClass) (s : Nat) (a : List Nat) (b : Bool) : Touches [.loupe] d (d.pushLog c k s a b) := by
  unfold Dev.pushLog
  extract_lets l r lost d1 d2
  have h1 : Touches [.loupe] d d1 := touches_loupe_own d (by unfold Loupe.own; rfl)
  have h2 : Touches [.loupe] d d2 := h1.trans (touches_linc d1 4)
  exact .ite (fun _ => h2.trans ((touches_linc d2 5).trans (touches_lflag _ _ _))) fun _ => h2

theorem touches_trialFail (d : Dev) : Touches [.loupe, .upd] d d.trialFail := by
  unfold Dev.trialFail
  refine .ite (fun _ => .refl _ d) fun _ => ?_
  have h : Touches [.upd] d { d with upd := { d.upd with trial := false, failed := true, trialAt := d.ns } } := touches_upd_boot d rfl
  exact (((h.trans (touches_uflag _ _)).trans (touches_uinc _ _)).mono rfl).trans ((touches_pushLog _ _ _ _ _ _).mono rfl)

theorem touches_logRec (d : Dev) (c : Nat) (k : FClass) (s : Nat) (a : List Nat) (b : Bool) : Touches [.loupe, .upd] d (d.logRec c k s a b) := by
  have h := touches_pushLog d c k s a b
  exact .ite (fun _ => (h.mono rfl).trans (touches_trialFail _)) fun _ => h.mono rfl

theorem touches_log (d : Dev) (c : Nat) (k : FClass) (s : Nat) (a : List Nat) : Touches [.loupe, .upd] d (d.log c k s a) := touches_logRec d c k s a false

theorem touches_logOnce (d : Dev) (c : Nat) (k : FClass) (s y : Nat) (a : List Nat) : Touches [.loupe, .upd] d (d.logOnce c k s y a) := by
  unfold Dev.logOnce
  extract_lets key last suppressed supp l
  have hl : Touches [.loupe] d { d with loupe := l } := touches_loupe_own d rfl
  refine .ite (fun _ => ?_) fun _ => (hl.mono rfl).trans (touches_logRec _ _ _ _ _ _)
  have hs : Touches [.loupe] d { d with loupe := { d.loupe with supp := d.loupe.supp.set false (c * 256 + s) true } } :=
    touches_loupe_own d rfl
  exact (hs.trans (touches_linc _ 6)).mono rfl

theorem touches_takeReport (d : Dev) (i : StrandId) (r : Report) : Touches [.loupe, .upd] d (d.takeReport i r) := by
  unfold Dev.takeReport
  split
  · exact touches_log _ _ _ _ _
  · exact touches_logOnce _ _ _ _ _ _

/-! ### Strands, resets and fences -/

theorem touches_onStrand (d : Dev) (i : StrandId) (f : StrandSt → StrandSt) : Touches [.strands, .clasp, .out, .loupe, .upd] d (d.onStrand i f) := by
  refine .trans (fun k h => ?_) (Touches.foldl (fun e r => (touches_takeReport e i r).mono rfl) _ _)
  cases k <;> simp at h <;> rfl

theorem touches_onActive (d : Dev) (i : StrandId) (f : StrandSt → StrandSt) : Touches [.strands, .clasp, .out, .loupe, .upd] d (d.onActive i f) :=
  .ite (fun _ => touches_onStrand d i f) fun _ => .refl _ d

theorem touches_setMode (d : Dev) (m : Nat) : Touches [.mode, .clasp, .loupe, .upd] d (d.setMode m) := by
  unfold Dev.setMode
  refine .ite (fun _ => .refl _ d) fun _ => ?_
  have h : Touches [.mode] d { d with mode := m } := fun k h => by cases k <;> simp at h <;> rfl
  have hm : Touches [.mode, .clasp, .loupe, .upd] d (({ d with mode := m } : Dev).dflag Reg.CLASP_FLAGS 1) := (h.mono rfl).trans ((touches_dflag _ _).mono rfl)
  exact .ite (fun _ => hm.trans ((touches_trialFail _).mono rfl)) fun _ => hm

theorem touches_timeLost (d : Dev) (i : StrandId) : Touches [.loupe] d (d.timeLost i) := .ite (fun _ => touches_loupe_own d rfl) fun _ => .refl _ d

theorem touches_setPhase (d : Dev) (i : StrandId) (p : Phase) : Touches [.sup, .clasp, .loupe] d (d.setPhase i p) := by
  unfold Dev.setPhase
  refine .ite (fun _ => .refl _ d) fun _ => ?_
  have h := (touches_updSup d i fun s => { s with phase := p, loadAt := if p = .loading then d.ns else s.loadAt, tested := s.tested && p != .loading }).mono rfl (l' := [.sup, .clasp, .loupe])
  exact .ite (fun _ => (h.trans ((touches_dflag _ _).mono rfl)).trans ((touches_timeLost _ _).mono rfl)) fun _ => h.trans ((touches_dflag _ _).mono rfl)

theorem touches_toHold (d : Dev) (i : StrandId) : Touches [.sup, .strands, .clasp, .out, .loupe, .upd] d (d.toHold i) :=
  .ite (fun _ => .refl _ d) fun _ => ((touches_setPhase d i _).mono rfl).trans ((touches_onStrand _ i _).mono rfl)

theorem touches_toRun (d : Dev) (i : StrandId) : Touches [.sup, .strands, .clasp, .out, .loupe, .upd] d (d.toRun i) :=
  .ite (fun _ => .refl _ d) fun _ => ((touches_setPhase d i _).mono rfl).trans ((touches_onStrand _ i _).mono rfl)

theorem touches_setCause (d : Dev) (i : StrandId) (b : Nat) : Touches [.sup] d (d.setCause i b) := ((touches_inCyc _ fun _ => rfl).mono rfl).trans (touches_updSup _ i _)

theorem touches_logCauses (d : Dev) (i : StrandId) : Touches [.loupe, .upd] d (d.logCauses i) :=
  .foldl (fun _ _ => .ite (fun _ => touches_log _ _ _ _ _) fun _ => .refl _ _) _ d

theorem touches_fenceInEnd (d : Dev) (i : StrandId) : Touches [.sup, .loupe, .upd] d (d.fenceInEnd i) :=
  .ite (fun _ => ((touches_updSup d i _).mono rfl).trans ((touches_logCauses _ i).mono rfl)) fun _ => .refl _ d

theorem touches_logExpiry (d : Dev) (c : Nat) (k : FClass) (i : StrandId) : Touches [.loupe, .upd] d (d.logExpiry c k i) :=
  .ite (fun _ => touches_log _ _ _ _ _) fun _ => Touches.mono (l := [.loupe]) (touches_loupe_own d rfl) rfl

theorem touches_logLate (d : Dev) : Touches [.loupe, .upd] d d.logLate := by
  refine .trans (Touches.mono (l := [.loupe]) ?_ rfl) (Touches.foldl (fun e x => touches_log e _ _ _ _) _ _)
  exact touches_loupe_own d rfl

theorem touches_claspGate (d : Dev) (i : StrandId) : Touches [.clasp, .loupe, .upd] d (d.claspGate i) := by
  unfold Dev.claspGate
  refine Touches.trans (e := { d with clasp := { d.clasp with q := d.clasp.q.set i [] } }) ((touches_clasp_regs d (by rfl) (by rfl)).mono rfl)
    (Touches.foldl (fun e g => ?_) _ _)
  refine .ite (fun _ => .refl _ e) fun _ => .ite (fun _ => ?_) fun _ => (touches_setMg e g _).mono rfl
  exact (((touches_setMg e g _).mono rfl).trans ((touches_cinc _ _).mono rfl)).trans ((touches_log _ _ _ _ _).mono rfl)

theorem touches_noteFenced (d : Dev) (i : StrandId) : Touches [.fenced] d (d.inCyc fun y => { y with fenced := i.val :: y.fenced }) := fun k h => by
  cases k
  case before => exact (if_pos d.thisCyc_time).trans d.thisCyc_before
  all_goals simp at h <;> rfl

theorem touches_fence (d : Dev) (i : StrandId) (b c : Nat) : Touches [.sup, .strands, .clasp, .out, .loupe, .upd, .fenced] d (d.fence i b c) := by
  unfold Dev.fence
  extract_lets d1 d2 d3 d4 d5
  have h1 : Touches [.sup, .strands, .clasp, .out, .loupe, .upd, .fenced] d d1 := ((touches_setCause d i b).trans (touches_updSup _ i _)).mono rfl
  have h2 : Touches [.sup, .strands, .clasp, .out, .loupe, .upd, .fenced] d d2 := h1.trans ((touches_claspGate d1 i).mono rfl)
  have h3 : Touches [.sup, .strands, .clasp, .out, .loupe, .upd, .fenced] d d3 := .ite (fun _ => h2.trans ((touches_emit _ _).mono rfl)) fun _ => h2
  have h4 : Touches [.sup, .strands, .clasp, .out, .loupe, .upd, .fenced] d d4 := h3.trans ((touches_strands d3 _).mono rfl)
  have h5 : Touches [.sup, .strands, .clasp, .out, .loupe, .upd, .fenced] d d5 :=
    ((h4.trans ((touches_noteFenced d4 i).mono rfl)).trans ((touches_setPhase _ i _).mono rfl)).trans ((touches_fenceInEnd _ i).mono rfl)
  exact .ite (fun _ => h5.trans ((touches_logExpiry _ _ _ _).mono rfl)) fun _ => h5.trans ((touches_log _ _ _ _ _).mono rfl)

theorem touches_unReset (d : Dev) (i : StrandId) : Touches [.sup, .strands, .epochs] d (d.unReset i) := by
  unfold Dev.unReset
  split
  · exact .refl _ d
  · exact (((touches_setSup d i _).mono rfl).trans ((touches_setStrand _ i _).mono rfl)).trans ((touches_epochs _ _).mono rfl)

theorem touches_enterHold (d : Dev) (w : HoldBy) :
    Touches [.mode, .holdBy, .holdFrom, .sup, .strands, .clasp, .out, .loupe, .upd] d (d.enterHold w) := by
  unfold Dev.enterHold
  refine .ite (fun _ => .refl _ d) fun _ => .trans (.trans ?_ ((touches_setMode _ 9).mono rfl)) (Touches.foldl (fun e i => (touches_toHold e i).mono rfl) _ _)
  exact fun k h => by cases k <;> simp at h <;> rfl

theorem touches_afterFence (d : Dev) : Touches [.mode, .holdBy, .holdFrom, .sup, .strands, .clasp, .out, .loupe, .upd] d d.afterFence := by
  unfold Dev.afterFence
  have h : Touches [.mode, .holdBy, .holdFrom, .sup, .strands, .clasp, .out, .loupe, .upd] d (if d.inBase then d.setMode 8 else d) :=
    .ite (fun _ => (touches_setMode d 8).mono rfl) fun _ => .refl _ d
  exact .ite (fun _ => h.trans (touches_enterHold _ _)) fun _ => h

theorem touches_tryT12 (d : Dev) : Touches [.mode, .sup, .clasp, .loupe, .upd] d d.tryT12 := by
  unfold Dev.tryT12
  exact .ite (fun _ => .trans (Touches.foldl (fun e i => (touches_updSup e i _).mono rfl) _ d) ((touches_setMode _ _).mono rfl)) fun _ => .refl _ d

theorem touches_noteReset (d : Dev) (i : StrandId) : Touches [.before] d (d.noteReset i) := by
  unfold Dev.noteReset
  intro k h
  cases k
  case fenced =>
    refine (if_pos (?_ : (ite _ _ _ : DevCyc).time = d.ns)).trans (Eq.trans ?_ d.thisCyc_fenced)
    · split <;> exact d.thisCyc_time
    · show (ite _ _ _ : DevCyc).fenced = _
      split <;> rfl
  all_goals simp at h <;> rfl

theorem touches_resetLogic (d : Dev) (i : StrandId) (c : Bool) : Touches [.strands, .clasp, .loupe, .upd] d (d.resetLogic i c) := by
  unfold Dev.resetLogic
  extract_lets out c' d1 d2
  have h1 : Touches [.strands, .clasp, .loupe, .upd] d d1 := fun k h => by cases k <;> simp at h <;> rfl
  have h2 : Touches [.strands, .clasp, .loupe, .upd] d d2 := .ite (fun _ => h1.trans ((touches_log _ _ _ _ _).mono rfl)) fun _ => h1
  refine h2.trans (Touches.foldl (fun e g => ?_) _ _)
  exact .ite (fun _ => (touches_setMg e g _).mono rfl) fun _ => .refl _ e

theorem touches_resetIdent (d : Dev) (n : Nat) : Touches [.lkt, .epochs] d (d.resetIdent n) := by
  unfold Dev.resetIdent
  refine .trans (((touches_inCyc d fun _ => rfl).mono rfl (l' := [.lkt, .epochs])).trans ((touches_epochs _ _).mono rfl)) (Touches.foldl (fun e c => (touches_setChan e _ _).mono rfl) _ _)

theorem touches_strandWarm (d : Dev) (i : StrandId) : Touches [.sup, .strands, .clasp, .lkt, .epochs, .loupe, .upd, .before] d (d.strandWarm i) := by
  unfold Dev.strandWarm
  refine .ite (fun _ => .refl _ d) fun _ => .trans (.trans (.trans ?_ ((touches_setPhase _ i _).mono rfl)) ((touches_resetIdent _ _).mono rfl)) ((touches_timeLost _ i).mono rfl)
  exact (((touches_noteReset d i).mono rfl).trans ((touches_resetLogic _ i _).mono rfl)).trans ((touches_updSup _ i _).mono rfl)

theorem touches_strandOff (d : Dev) (i : StrandId) : Touches [.sup, .clasp, .lkt, .epochs, .loupe] d (d.strandOff i) := by
  have h : Touches [.sup, .clasp, .lkt, .epochs, .loupe] d
      ((d.updSup i fun s => { s with lock := false, pllLock := false, fenceOut := false }).setPhase i .off) :=
    ((touches_updSup d i _).mono rfl).trans ((touches_setPhase _ i _).mono rfl)
  exact .ite (fun _ => h) fun _ => h.trans ((touches_resetIdent _ _).mono rfl)

theorem touches_strandCold (d : Dev) (i : StrandId) : Touches [.sup, .strands, .clasp, .lkt, .epochs, .loupe, .upd, .before] d (d.strandCold i) := by
  unfold Dev.strandCold
  refine .ite (fun _ => .refl _ d) fun _ => ?_
  extract_lets owed d1 d2 was d3
  have h1 : Touches [.sup, .strands, .clasp, .lkt, .epochs, .loupe, .upd, .before] d d1 := .ite (fun _ => (touches_log _ _ _ _ _).mono rfl) fun _ => .refl _ d
  have h2 : Touches [.sup, .strands, .clasp, .lkt, .epochs, .loupe, .upd, .before] d d2 :=
    (h1.trans ((touches_unReset d1 i).mono rfl)).trans ((touches_noteReset _ i).mono rfl)
  have h3 : Touches [.sup, .strands, .clasp, .lkt, .epochs, .loupe, .upd, .before] d d3 :=
    ((h2.trans ((touches_resetLogic d2 i true).mono rfl)).trans ((touches_updSup _ i _).mono rfl)).trans ((touches_strandOff _ i).mono rfl)
  exact .ite (fun _ => h3.trans ((touches_resetIdent _ _).mono rfl)) fun _ => h3

theorem touches_loupeWarm (d : Dev) (i : StrandId) : Touches [.sup, .strands, .clasp, .lkt, .epochs, .loupe, .upd, .before] d (d.loupeWarm i) :=
  .ite (fun _ => .refl _ d) fun _ => touches_strandWarm d i

theorem touches_loupeCold (d : Dev) (i : StrandId) : Touches [.sup, .strands, .clasp, .lkt, .epochs, .loupe, .upd, .before] d (d.loupeCold i) :=
  .ite (fun _ => .refl _ d) fun _ => touches_strandCold d i

theorem touches_exchangeLost (d : Dev) : Touches [.strands] d d.exchangeLost := .foldl (fun e i => by
  split
  · exact .refl _ e
  · exact touches_strands e _) _ d

theorem touches_disarm (d : Dev) : Touches [.upd] d d.disarm := .ite (fun _ => touches_upd_boot d rfl) fun _ => .refl _ d

theorem touches_bindLock (d : Dev) : Touches [.lkt, .loupe, .upd] d d.bindLock := .foldl (fun e c => by
  dsimp only
  exact .ite (fun _ => ((touches_setChan e _ _).mono rfl).trans ((touches_log _ _ _ _ _).mono rfl)) fun _ => .refl _ e) _ d

theorem touches_lktLost (d : Dev) : Touches [.lkt, .epochs] d d.lktLost := by
  refine .trans (Touches.foldl (fun e c => ?_) d.lkt.cells d) ((touches_epochs _ _).mono rfl)
  exact .ite (fun _ => (touches_withChan e _ _).mono rfl) fun _ => .refl _ e

end Sys2Proof.Machine
end

section
/-! What the shared operations do to supervisors and strands. -/

namespace Sys2Proof.Machine

/-! ## What the shared operations do to supervisors and strands -/

theorem Quad.set_get {α : Type} (q : Quad α) (i : StrandId) : q.set i (q.get i) = q := by
  obtain ⟨a, b, c, d⟩ := q
  fin_cases i <;> rfl

@[simp] theorem Dev.supOf_updSup_same (d : Dev) (i : StrandId) (f : SupSt → SupSt) : (d.updSup i f).supOf i = f (d.supOf i) := Dev.supOf_setSup_same d i _

@[simp] theorem Dev.supOf_updSup_ne (d : Dev) {i j : StrandId} (f : SupSt → SupSt) (h : j ≠ i) : (d.updSup i f).supOf j = d.supOf j :=
  Dev.supOf_setSup_ne d _ h

/-- A supervisor whose strand enters state `p` at time `now`. -/
def SupSt.enter (s : SupSt) (p : Phase) (now : Nat) : SupSt :=
  if s.phase = p then s else { s with phase := p, loadAt := if p = .loading then now else s.loadAt, tested := s.tested && p != .loading }

theorem SupSt.enter_of_ne (s : SupSt) {p : Phase} (n : Nat) (hp : p ≠ .loading) : s.enter p n = { s with phase := p } := by
  unfold SupSt.enter
  split
  · next h => rw [← h]
  · simp [hp]

theorem SupSt.enter_eq (s : SupSt) (p : Phase) (n : Nat) : ∃ t b, s.enter p n = { s with phase := p, loadAt := t, tested := b } := by
  unfold SupSt.enter
  split
  · next h => exact ⟨s.loadAt, s.tested, by rw [← h]⟩
  · exact ⟨_, _, rfl⟩

theorem Dev.setPhase_sup (d : Dev) (i : StrandId) (p : Phase) : (d.setPhase i p).sup = d.sup.set i ((d.supOf i).enter p d.ns) := by
  unfold Dev.setPhase SupSt.enter Dev.phase
  split
  · exact (Quad.set_get _ i).symm
  · dsimp only
    split
    · exact (touches_timeLost _ i).sup rfl
    · rfl

theorem Dev.supOf_setPhase_same (d : Dev) (i : StrandId) (p : Phase) : (d.setPhase i p).supOf i = (d.supOf i).enter p d.ns := by
  rw [Dev.supOf, Dev.setPhase_sup, Quad.get_set_same]

theorem Dev.supOf_setPhase_ne (d : Dev) {i j : StrandId} (p : Phase) (h : j ≠ i) : (d.setPhase i p).supOf j = d.supOf j := by
  rw [Dev.supOf, Dev.setPhase_sup, Quad.get_set_ne _ _ h, Dev.supOf]

theorem Dev.setCause_sup (d : Dev) (i : StrandId) (b : Nat) :
    (d.setCause i b).sup = d.sup.set i { d.supOf i with cause := setBit (d.supOf i).cause b true } := rfl

theorem Dev.fenceInEnd_sup (d : Dev) (i : StrandId) : (d.fenceInEnd i).sup = d.sup.set i { d.supOf i with fenceIn := false } := by
  unfold Dev.fenceInEnd
  split
  · exact (touches_logCauses _ i).sup rfl
  · next h =>
    rw [show ({ d.supOf i with fenceIn := false } : SupSt) = d.supOf i by rw [← Bool.eq_false_iff.2 h]]
    exact (Quad.set_get _ i).symm

@[simp] theorem Quad.set_set {α : Type} (q : Quad α) (i : StrandId) (x y : α) : (q.set i x).set i y = q.set i y := by
  obtain ⟨a, b, c, d⟩ := q
  fin_cases i <;> rfl

/-- The supervisor of a strand as a fence outward leaves it (R35). -/
def SupSt.fenced (s : SupSt) (b : Nat) : SupSt :=
  { s with phase := .fenced, fenceOut := true, fenceIn := false, rejoin := false, cause := setBit s.cause b true }

theorem Dev.fence_sup (d : Dev) (i : StrandId) (b c : Nat) : (d.fence i b c).sup = d.sup.set i ((d.supOf i).fenced b) := by
  unfold Dev.fence
  extract_lets d1 d2 d3 d4 d5
  have h1 : d1.sup = d.sup.set i { d.supOf i with fenceOut := true, rejoin := false, cause := setBit (d.supOf i).cause b true } := by
    simp [d1, Dev.updSup, Dev.setSup, Dev.setCause_sup, Dev.supOf]
  have h4 : d4.sup = d1.sup := (((touches_claspGate d1 i).mono rfl).trans (.ite (fun _ => (touches_emit _ _).mono rfl) fun _ => .refl _ d2) :
    Touches [.clasp, .loupe, .upd, .out] d1 d3).sup rfl
  have h5 : d5.sup = d.sup.set i ((d.supOf i).fenced b) := by
    rw [Dev.fenceInEnd_sup, Dev.setPhase_sup, Dev.supOf_setPhase_same]
    simp only [SupSt.enter_of_ne _ _ (show Phase.fenced ≠ .loading by decide), Quad.set_set, (touches_noteFenced d4 i).sup rfl,
      h4, h1, Dev.supOf, Quad.get_set_same, SupSt.fenced]
  split
  · exact ((touches_logExpiry _ _ _ _).sup rfl).trans h5
  · exact ((touches_log _ _ _ _ _).sup rfl).trans h5

/-- A fence outward stops its strand and no other. -/
theorem Dev.fence_strands (d : Dev) (i : StrandId) (b c : Nat) : (d.fence i b c).strands = d.strands.set i (d.strand i).stopped := by
  unfold Dev.fence
  extract_lets d1 d2 d3 d4 d5
  have h3 : d3.strands = d.strands := ((((touches_setCause d i b).trans (touches_updSup _ i _)).mono rfl).trans (((touches_claspGate d1 i).mono rfl).trans
    (.ite (fun _ => (touches_emit _ _).mono rfl) fun _ => .refl _ d2)) : Touches [.sup, .clasp, .loupe, .upd, .out] d d3).strands rfl
  have h4 : d4.strands = d.strands.set i (d.strand i).stopped := by
    simp only [d4, h3, Dev.strand]
  have h5 : d5.strands = d4.strands := (((touches_noteFenced d4 i).mono rfl).trans (((touches_setPhase _ i _).mono rfl).trans ((touches_fenceInEnd _ i).mono rfl)) :
    Touches [.sup, .clasp, .loupe, .upd, .fenced] d4 d5).strands rfl
  split
  · exact (((touches_logExpiry _ _ _ _).strands rfl).trans h5).trans h4
  · exact (((touches_log _ _ _ _ _).strands rfl).trans h5).trans h4

theorem Dev.toHold_sup (d : Dev) (i : StrandId) :
    (d.toHold i).sup = if d.phase i = .run then d.sup.set i { d.supOf i with phase := .hold } else d.sup := by
  unfold Dev.toHold
  by_cases h : d.phase i = .run
  · rw [if_neg (by simp [h]), if_pos h, (touches_onStrand _ i _).sup rfl, Dev.setPhase_sup, SupSt.enter_of_ne _ _ (by decide)]
  · rw [if_pos (by simp [h]), if_neg h]

theorem Dev.toRun_sup (d : Dev) (i : StrandId) :
    (d.toRun i).sup = if d.phase i = .hold then d.sup.set i { d.supOf i with phase := .run } else d.sup := by
  unfold Dev.toRun
  by_cases h : d.phase i = .hold
  · rw [if_neg (by simp [h]), if_pos h, (touches_onStrand _ i _).sup rfl, Dev.setPhase_sup, SupSt.enter_of_ne _ _ (by decide)]
  · rw [if_pos (by simp [h]), if_neg h]

end Sys2Proof.Machine
end

section
/-! The inward fence and the writes of SUP_CTL. -/

namespace Sys2Proof.Machine

/-! ## Writes of SUP_CTL (R47) -/

theorem loupeReg_SUP_CTL (i : StrandId) : LoupeReg (0x60000000 + 0x1000000 * i.val + Reg.SUP_CTL) := by
  simp only [LoupeReg, Reg.SUP_CTL]; omega

/-- A master that reaches a strand, and is no host, writes its SUP_CTL. -/
theorem placeWrite_SUP_CTL {d : Dev} {m : Master} {i : StrandId} (hr : Reaches d m i) (hm : ∀ b, m ≠ .host b) {v : Nat} (hv : v < 2 ^ 32) :
    d.placeWrite m (.strand i Reg.SUP_CTL) v = d.supCtlWrite m i (BitVec.ofNat 32 v) := by
  cases m with
  | host b => exact absurd rfl (hm b)
  | core j =>
    obtain ⟨rfl, ha⟩ := hr
    have ha' : (d.phase j = .run || d.phase j = .hold) = true := by simpa using ha
    simp [Dev.placeWrite, Place.addr, Dev.busWrite, Dev.coreWrite, ha', Reg.SUP_CTL, Dev.strandWrite]
  | loupe =>
    obtain ⟨hl, ha, hf⟩ := hr
    have hreach : d.loupeReach i Reg.SUP_CTL = true := by
      rcases ha with h | h <;> simp [Dev.loupeReach, h, Reg.SUP_CTL]
    have he : (Place.strand i Reg.SUP_CTL).addr .loupe = some (0x60000000 + 0x1000000 * i.val + Reg.SUP_CTL) := rfl
    rw [Dev.placeWrite, he]
    simp only [busWrite_loupeReg hl (loupeReg_SUP_CTL i) v hv]
    rw [loupeRegWrite_strand (by decide) hreach hf]
    rfl

theorem placeWrite_SUP_CTL_core {d : Dev} {i : StrandId} (h : Active d i) {v : Nat} (hv : v < 2 ^ 32) :
    d.placeWrite (.core i) (.strand i Reg.SUP_CTL) v = d.supCtlWrite (.core i) i (BitVec.ofNat 32 v) :=
  placeWrite_SUP_CTL (m := .core i) (i := i) ⟨rfl, h⟩ (fun _ => by simp) hv

/-- What a core commands by the four low bits of SUP_CTL: the inward fence first, then HOLD. -/
theorem supCtlWrite_core (d : Dev) (j i : StrandId) (v : Word) :
    d.supCtlWrite (.core j) i v =
      let e := if bitOf v 2 && bitOf v 3 then d else if bitOf v 2 then d.fenceInSet i 2 else if bitOf v 3 then d.fenceInRelease i else d
      if bitOf v 0 then e.holdEnter i else if bitOf v 1 then e.holdExit i else e := rfl

theorem othersKept_of {d e : Dev} {i : StrandId} (hs : ∀ j, j ≠ i → e.strand j = d.strand j) (hp : ∀ j, j ≠ i → e.supOf j = d.supOf j) : OthersKept d e i :=
  fun j hj => ⟨hs j hj, hp j hj⟩

/-- An operation that sets one supervisor leaves every other strand. -/
theorem othersKept_sup {d e : Dev} {i : StrandId} {x : SupSt} (hs : e.strands = d.strands) (hp : e.sup = d.sup.set i x) : OthersKept d e i :=
  fun j hj => ⟨congrArg (Quad.get · j) hs, by rw [Dev.supOf, hp, Quad.get_set_ne _ _ hj, Dev.supOf]⟩

theorem supOf_of_sup {d e : Dev} {i : StrandId} {x : SupSt} (hp : e.sup = d.sup.set i x) : e.supOf i = x := by
  rw [Dev.supOf, hp, Quad.get_set_same]

/-! ## The inward fence -/

theorem touches_fenceInSet (d : Dev) (i : StrandId) (b : Nat) : Touches [.sup] d (d.fenceInSet i b) :=
  .ite (fun _ => (touches_setCause d i b).trans (touches_updSup _ i _)) fun _ => .refl _ d

theorem fenceInSet_sup {d : Dev} {i : StrandId} (h : Active d i) (b : Nat) :
    (d.fenceInSet i b).sup = d.sup.set i { d.supOf i with fenceIn := true, cause := setBit (d.supOf i).cause b true } := by
  rw [Dev.fenceInSet, if_pos (by simpa using h)]
  simp [Dev.updSup, Dev.setSup, Dev.setCause_sup, Dev.supOf]

theorem exec_fenceInSet (dt : Nat) (i : StrandId) (s : State) :
    exec (.fenceInSet dt i) s = .next (s.runAt dt fun d => d.placeWrite (.core i) (.strand i Reg.SUP_CTL) 4) := rfl

theorem exec_fenceInRelease (dt : Nat) (i : StrandId) (s : State) :
    exec (.fenceInRelease dt i) s = .next (s.runAt dt fun d => d.placeWrite (.core i) (.strand i Reg.SUP_CTL) 8) := rfl

theorem sent_emit (d : Dev) (o : Out) : Sent d (d.emit o) o := by simp [Sent, Dev.emit]

/-- What sets the inward fence sets its cause too, and changes nothing else. -/
theorem fenceInSet_spec {d : Dev} {i : StrandId} (h : Active d i) (b : Nat) :
    DevKeeps d (d.fenceInSet i b) [.sup] ∧ OthersKept d (d.fenceInSet i b) i ∧
      (d.fenceInSet i b).supOf i = { d.supOf i with fenceIn := true, cause := setBit (d.supOf i).cause b true } :=
  have ht := touches_fenceInSet d i b
  have hs := fenceInSet_sup h b
  ⟨ht.devKeeps [.sup] rfl, othersKept_sup (ht.strands rfl) hs, supOf_of_sup hs⟩

/-- Settles O22: each command is one operation on the strand's supervisor. -/
theorem inwardFence : Obligations.InwardFence := by
  unfold Obligations.InwardFence
  intro s dt i d x
  refine ⟨fun ha => ⟨?_, ?_⟩, fun ha h4 h23 hb => ?_, fun hf hs => ?_⟩
  · refine ends_runAt (exec_fenceInSet ..) ?_
    rw [placeWrite_SUP_CTL_core ha (by decide), supCtlWrite_core]
    exact fenceInSet_spec ha 2
  · refine ends_runAt (exec_fenceInRelease ..) ?_
    rw [placeWrite_SUP_CTL_core ha (by decide), supCtlWrite_core]
    have ht := touches_fenceInEnd d i
    exact ⟨ht.devKeeps [.sup, .loupe, .upd] rfl, othersKept_sup (ht.strands rfl) (d.fenceInEnd_sup i), supOf_of_sup (d.fenceInEnd_sup i)⟩
  · refine ends_runAt (c := .hbTimeout dt i) rfl ?_
    have hx : d.hbAbsent i = true := by simp [Dev.hbAbsent, x, d] at h4 h23 hb ⊢; exact ⟨⟨h4, h23⟩, hb⟩
    rw [Dev.hbTimeout, if_pos hx]
    exact fenceInSet_spec ha 0
  · refine ends_runAt (c := .loupeHeartbeat dt i) rfl ?_
    rw [Dev.heartbeat, if_neg (by simp [d] at hf hs; simp [hf, hs])]
    have ht : Touches [.sup, .out] d ((d.updSup i fun s => { s with hbAt := d.ns }).emit (.heartbeat i.val)) :=
      ((touches_updSup d i _).mono rfl).trans ((touches_emit _ _).mono rfl)
    exact ⟨ht.devKeeps [.sup] rfl, othersKept_sup (ht.strands rfl) rfl, supOf_of_sup rfl, sent_emit _ _⟩

end Sys2Proof.Machine
end

section
/-! HOLD and RUN, and the return to the base mode. -/

namespace Sys2Proof.Machine

/-! ## HOLD and RUN -/

/-- A low bit of a word whose four low bits have been set to `n`. -/
theorem bitOf_setField_low (w : Word) (n : Nat) {k : Nat} (hk : k < 4) : bitOf (setField w 3 0 n) k = bitN n k := by
  have h : (putN w.toNat 3 0 n) % 2 ^ 32 % 16 = n % 16 := by
    simp only [putN, bitsN]
    have := w.isLt
    omega
  simp only [bitOf, setField, bitN, BitVec.toNat_ofNat, Nat.shiftRight_eq_div_pow]
  generalize putN w.toNat 3 0 n % 2 ^ 32 = x at h ⊢
  congr 1
  interval_cases k <;> omega

/-- The supervisor's own part of SUP_CTL may take new fields; every other part of the supervisor stays. -/
def CtlOnly (d e : Dev) (i : StrandId) : Prop := Touches [.sup] d e ∧ ∃ c, e.sup = d.sup.set i { d.supOf i with ctl := c }

theorem CtlOnly.refl (d : Dev) (i : StrandId) : CtlOnly d d i := ⟨.refl _ d, (d.supOf i).ctl, (Quad.set_get _ i).symm⟩

/-- SUP_CTL's fields as the Loupe sets them before the lock: FENCE_IN_AUTO, and a HB_TIMEOUT of 0 or of 20 and more (R47). -/
def ctlFields (c v : Word) : Word :=
  if fieldOf v 23 8 = 0 || 20 ≤ fieldOf v 23 8 then setField (setBit c 4 (bitOf v 4)) 23 8 (fieldOf v 23 8) else setBit c 4 (bitOf v 4)

/-- A write of SUP_CTL that commands no inward fence: HOLD bits, and fields for the Loupe to set (R43, R47). -/
theorem supCtlWrite_hold (d : Dev) {m : Master} (i : StrandId) (hm : ∀ b, m ≠ .host b) {v : Word} (h2 : bitOf v 2 = false) (h3 : bitOf v 3 = false) :
    ∃ e, CtlOnly d e i ∧ d.supCtlWrite m i v = if bitOf v 0 then e.holdEnter i else if bitOf v 1 then e.holdExit i else e := by
  cases m with
  | host b => exact absurd rfl (hm b)
  | core j => exact ⟨d, .refl d i, by simp [supCtlWrite_core, h2, h3]⟩
  | loupe =>
    by_cases hl : (d.supOf i).lock = true
    · exact ⟨d, .refl d i, by simp [Dev.supCtlWrite, hl]⟩
    · refine ⟨d.updSup i fun s => { s with ctl := ctlFields s.ctl v }, ⟨touches_updSup d i _, _, rfl⟩, ?_⟩
      simp only [Dev.supCtlWrite, hl]
      rfl

theorem supPoke_hold {d : Dev} {m : Master} {i : StrandId} (hr : Reaches d m i) (hm : ∀ b, m ≠ .host b) (b : Nat) (hb : b < 2) :
    ∃ e, CtlOnly d e i ∧ d.supPoke m i b = if b = 0 then e.holdEnter i else e.holdExit i := by
  have hbit (k : Nat) (hk : k < 4) : bitOf (setField (d.supOf i).ctl 3 0 (2 ^ b)) k = bitN (2 ^ b) k := bitOf_setField_low _ _ hk
  rw [Dev.supPoke, placeWrite_SUP_CTL hr hm (BitVec.isLt _), BitVec.ofNat_toNat, BitVec.setWidth_eq]
  have h2 : bitN (2 ^ b) 2 = false := by interval_cases b <;> rfl
  have h3 : bitN (2 ^ b) 3 = false := by interval_cases b <;> rfl
  obtain ⟨e, he, hw⟩ := supCtlWrite_hold d i hm ((hbit 2 (by decide)).trans h2) ((hbit 3 (by decide)).trans h3)
  refine ⟨e, he, hw.trans ?_⟩
  rw [hbit 0 (by decide), hbit 1 (by decide)]
  interval_cases b <;> rfl

theorem gclRefresh_ledger (st : StrandSt) (e : Nat) : (st.gclRefresh e).ledger = st.ledger := rfl

/-- HOLD to RUN leaves every ledger. -/
theorem toRun_ledger (d : Dev) (i j : StrandId) : ((d.toRun i).strand j).ledger = (d.strand j).ledger := by
  unfold Dev.toRun
  split
  · rfl
  · by_cases h : j = i
    · subst h
      rw [Dev.onStrand_strand_same]
      show ((d.setPhase j .run).strand j).ledger = _
      rw [(touches_setPhase d j .run).strand j rfl]
    · rw [Dev.onStrand_strand_ne _ _ h, (touches_setPhase d i .run).strand j rfl]

theorem toRun_strand_ne (d : Dev) {i j : StrandId} (h : j ≠ i) : (d.toRun i).strand j = d.strand j := by
  unfold Dev.toRun
  split
  · rfl
  · rw [Dev.onStrand_strand_ne _ _ h, (touches_setPhase d i .run).strand j rfl]

theorem toHold_strand_ne (d : Dev) {i j : StrandId} (h : j ≠ i) : (d.toHold i).strand j = d.strand j := by
  unfold Dev.toHold
  split
  · rfl
  · rw [Dev.onStrand_strand_ne _ _ h, (touches_setPhase d i .hold).strand j rfl]

/-- Whether a pair is in step is a matter of its ledgers and of the groups' configuration (R355). -/
theorem inStep_congr {d e : Dev} (hl : ∀ j, (e.strand j).ledger = (d.strand j).ledger) (hm : e.mgCfg = d.mgCfg) (p : Bool) : e.inStep p = d.inStep p := by
  simp only [Dev.inStep, Dev.txGroups, StrandSt.led, hl, hm]

theorem configured_congr {d e : Dev} (h : e.cfg = d.cfg) : e.configured = d.configured := by
  simp only [Dev.configured, h]

/-- The condition of T12 (R44). -/
def Dev.mayT12 (d : Dev) : Bool :=
  d.mode = 8 && (!d.configured.isEmpty && d.configured.all fun i => d.phase i = .run) && (!(d.base = 5 || d.base = 6) || (d.inStep false && d.inStep true))

/-- T12 ends REJOIN of every strand, and enters the base mode. -/
def Dev.backToBase (d : Dev) : Dev := (allStrands.foldl (fun (e : Dev) i => e.updSup i fun s => { s with rejoin := false }) d).setMode d.base

theorem tryT12_eq (d : Dev) : d.tryT12 = if d.mayT12 then d.backToBase else d := by
  unfold Dev.tryT12 Dev.mayT12 Dev.backToBase
  have hb : (allStrands.foldl (fun (e : Dev) i => e.updSup i fun s => { s with rejoin := false }) d).base = d.base :=
    ((Touches.foldl (l := [.sup]) (fun e i => touches_updSup e i _) allStrands d).base rfl)
  dsimp only
  rw [hb]

theorem backToBase_supOf (d : Dev) (i : StrandId) : d.backToBase.supOf i = { d.supOf i with rejoin := false } := by
  rw [Dev.backToBase, (touches_setMode _ _).supOf _ rfl]
  fin_cases i <;> rfl

theorem tryT12_mode (d : Dev) : d.tryT12.mode = if d.mayT12 then d.base else d.mode := by
  rw [tryT12_eq]
  split
  · rw [Dev.backToBase, Dev.setMode_mode]
  · rfl

theorem tryT12_supOf (d : Dev) (i : StrandId) : ∃ b, d.tryT12.supOf i = { d.supOf i with rejoin := b } := by
  rw [tryT12_eq]
  split
  · exact ⟨_, backToBase_supOf d i⟩
  · exact ⟨(d.supOf i).rejoin, rfl⟩

theorem tryT12_phase (d : Dev) (i : StrandId) : d.tryT12.phase i = d.phase i := by
  obtain ⟨b, h⟩ := tryT12_supOf d i
  rw [Dev.phase, h]; rfl

theorem tryT12_lock (d : Dev) (i : StrandId) : (d.tryT12.supOf i).lock = (d.supOf i).lock := by
  obtain ⟨b, h⟩ := tryT12_supOf d i
  rw [h]

theorem holdEnter_spec {d : Dev} {i : StrandId} (ha : Active d i) :
    DevKeeps d (d.holdEnter i) [.sup, .strands, .loupe, .upd] ∧ OthersKept d (d.holdEnter i) i ∧ ((d.holdEnter i).supOf i).lock = (d.supOf i).lock ∧
      (d.holdEnter i).phase i = if (decide (4 ≤ d.mode) && decide (d.mode ≤ 9)) || d.mode == 11 then .hold else d.phase i := by
  unfold Dev.holdEnter
  have hc : ((4 ≤ d.mode && d.mode ≤ 9) || d.mode = 11) = ((decide (4 ≤ d.mode) && decide (d.mode ≤ 9)) || d.mode == 11) := rfl
  by_cases h : ((4 ≤ d.mode && d.mode ≤ 9) || d.mode = 11) = true
  · rw [if_pos h, if_pos (hc ▸ h)]
    have hp : (d.toHold i).supOf i = { d.supOf i with phase := .hold } := by
      rw [Dev.supOf, Dev.toHold_sup]
      rcases ha with ha | ha
      · rw [if_pos ha, Quad.get_set_same]
      · rw [if_neg (by simp [ha]), ← ha]; rfl
    refine ⟨(touches_toHold d i).devKeeps _ rfl, othersKept_of (fun j hj => toHold_strand_ne d hj) fun j hj => ?_, by rw [hp], by rw [Dev.phase, hp]⟩
    rw [Dev.supOf, Dev.toHold_sup]
    split
    · rw [Quad.get_set_ne _ _ hj]; rfl
    · rfl
  · rw [if_neg h, if_neg (hc ▸ h)]
    exact ⟨(Touches.refl [] d).devKeeps _ rfl, fun j _ => ⟨rfl, rfl⟩, rfl, rfl⟩

/-- A change of SUP_CTL's fields before an operation is no change the claims see. -/
theorem CtlOnly.supOf {d e : Dev} {i : StrandId} (h : CtlOnly d e i) (j : StrandId) : ∃ c, e.supOf j = { d.supOf j with ctl := c } := by
  obtain ⟨-, c, hc⟩ := h
  by_cases hj : j = i
  · subst hj; exact ⟨c, supOf_of_sup hc⟩
  · exact ⟨(d.supOf j).ctl, by rw [Dev.supOf, hc, Quad.get_set_ne _ _ hj]; rfl⟩

theorem CtlOnly.phase {d e : Dev} {i : StrandId} (h : CtlOnly d e i) (j : StrandId) : e.phase j = d.phase j := by
  obtain ⟨c, hc⟩ := h.supOf j
  rw [Dev.phase, hc]; rfl

theorem CtlOnly.lock {d e : Dev} {i : StrandId} (h : CtlOnly d e i) (j : StrandId) : (e.supOf j).lock = (d.supOf j).lock := by
  obtain ⟨c, hc⟩ := h.supOf j
  rw [hc]

theorem CtlOnly.othersKept {d e : Dev} {i : StrandId} (h : CtlOnly d e i) : OthersKept d e i := by
  obtain ⟨ht, c, hc⟩ := h
  exact othersKept_sup (ht.strands rfl) hc

theorem othersKept_trans {d e f : Dev} {i : StrandId} (h : OthersKept d e i) (g : OthersKept e f i) : OthersKept d f i :=
  fun j hj => ⟨(g j hj).1.trans (h j hj).1, (g j hj).2.trans (h j hj).2⟩

/-- The condition on which HOLD_EXIT ends MD8. -/
def backAfter (d e : Dev) (i : StrandId) : Bool :=
  d.mode == 8 && d.phase i = .hold && !d.configured.isEmpty && (d.configured.all fun j => e.phase j = .run) &&
    (!(d.base == 5 || d.base == 6) || (d.inStep false && d.inStep true))

theorem touches_holdExit (d : Dev) (i : StrandId) : Touches [.mode, .sup, .strands, .clasp, .out, .loupe, .upd] d (d.holdExit i) :=
  .ite (fun _ => .refl _ d) fun _ => ((touches_toRun d i).mono rfl).trans ((touches_tryT12 _).mono rfl)

theorem holdExit_strand_ne (d : Dev) {i j : StrandId} (h : j ≠ i) : (d.holdExit i).strand j = d.strand j := by
  unfold Dev.holdExit
  split
  · rfl
  · rw [(touches_tryT12 _).strand _ rfl, toRun_strand_ne d h]

/-- HOLD_EXIT in HOLD, outside MD9: to RUN, and T12 where its condition holds. -/
theorem holdExit_hold {d : Dev} {i : StrandId} (hm : d.mode ≠ 9) (hp : d.phase i = .hold) : d.holdExit i = (d.toRun i).tryT12 := by
  simp [Dev.holdExit, hm, hp]

theorem toRun_phase_same {d : Dev} {i : StrandId} (hp : d.phase i = .hold) : (d.toRun i).phase i = .run := by
  rw [Dev.phase, Dev.supOf, Dev.toRun_sup, if_pos hp, Quad.get_set_same]

theorem toRun_supOf_ne (d : Dev) {i j : StrandId} (h : j ≠ i) : (d.toRun i).supOf j = d.supOf j := by
  rw [Dev.supOf, Dev.toRun_sup]
  split
  · rw [Quad.get_set_ne _ _ h]; rfl
  · rfl

theorem toRun_lock (d : Dev) (i j : StrandId) : ((d.toRun i).supOf j).lock = (d.supOf j).lock := by
  by_cases h : j = i
  · subst h
    rw [Dev.supOf, Dev.toRun_sup]
    split
    · rw [Quad.get_set_same]
    · rfl
  · rw [toRun_supOf_ne d h]

theorem mayT12_toRun {d : Dev} {i : StrandId} (hp : d.phase i = .hold) : (d.toRun i).mayT12 = backAfter d (d.toRun i).tryT12 i := by
  have ht := touches_toRun d i
  simp only [Dev.mayT12, backAfter, tryT12_phase, configured_congr (ht.cfg rfl), ht.mode rfl, ht.base rfl, inStep_congr (toRun_ledger d i) (ht.mgCfg rfl), hp]
  simp [Bool.and_assoc, beq_eq_decide]

theorem holdExit_spec {d : Dev} {i : StrandId} (ha : Active d i) :
    ((d.holdExit i).supOf i).lock = (d.supOf i).lock ∧
      (∀ j, j ≠ i → (d.holdExit i).phase j = d.phase j ∧ (d.holdExit i).strand j = d.strand j) ∧
      (d.holdExit i).phase i = (if d.mode = 9 then d.phase i else .run) ∧
      (d.holdExit i).mode = if backAfter d (d.holdExit i) i then d.base else d.mode := by
  by_cases hm : d.mode = 9
  · have h : d.holdExit i = d := by simp [Dev.holdExit, hm]
    rw [h]
    exact ⟨rfl, fun j _ => ⟨rfl, rfl⟩, by rw [if_pos hm], by simp [backAfter, hm]⟩
  · rcases ha with ha | ha
    · have h : d.holdExit i = d := by simp [Dev.holdExit, ha]
      rw [h]
      exact ⟨rfl, fun j _ => ⟨rfl, rfl⟩, by rw [if_neg hm, ha], by simp [backAfter, ha]⟩
    · have ht := touches_toRun d i
      refine ⟨?_, fun j hj => ⟨?_, holdExit_strand_ne d hj⟩, ?_, ?_⟩ <;> rw [holdExit_hold hm ha]
      · rw [tryT12_lock, toRun_lock]
      · rw [tryT12_phase, Dev.phase, toRun_supOf_ne d hj]; rfl
      · rw [tryT12_phase, toRun_phase_same ha, if_neg hm]
      · rw [tryT12_mode, mayT12_toRun ha, ht.base rfl, ht.mode rfl]

theorem CtlOnly.backAfter {d e : Dev} {i : StrandId} (h : CtlOnly d e i) (x : Dev) : backAfter e x i = Machine.backAfter d x i := by
  have ht := h.1
  simp only [Machine.backAfter, configured_congr (ht.cfg rfl), ht.mode rfl, ht.base rfl, h.phase, inStep_congr (fun j => by rw [ht.strand j rfl]) (ht.mgCfg rfl)]

theorem exec_holdEnter (dt : Nat) (m : Master) (i : StrandId) (s : State) : exec (.holdEnter dt m i) s = .next (s.runAt dt fun d => d.supPoke m i 0) := rfl

theorem exec_holdExit (dt : Nat) (m : Master) (i : StrandId) (s : State) : exec (.holdExit dt m i) s = .next (s.runAt dt fun d => d.supPoke m i 1) := rfl

theorem CtlOnly.active {d e : Dev} {i : StrandId} (h : CtlOnly d e i) (ha : Active d i) : Active e i := by
  simpa only [Active, h.phase] using ha

theorem Reaches.active {d : Dev} {m : Master} {i : StrandId} (h : Reaches d m i) : Active d i := by
  cases m with
  | core j => exact h.1 ▸ h.2
  | host b => exact h.2.2
  | loupe => exact h.2.1

/-- Settles O23: HOLD_ENTER and HOLD_EXIT are the operations of that name, after fields of SUP_CTL at most. -/
theorem holdAndRun : Obligations.HoldAndRun := by
  unfold Obligations.HoldAndRun
  intro s dt m i hr hm d may back
  have ha := Reaches.active hr
  constructor
  · refine ends_runAt (exec_holdEnter ..) ?_
    obtain ⟨e, he, hw⟩ := supPoke_hold hr hm 0 (by decide)
    rw [hw, if_pos rfl]
    obtain ⟨hk, ho, hl, hp⟩ := holdEnter_spec (he.active ha)
    have ht : Touches [.sup, .strands, .clasp, .out, .loupe, .upd] d (e.holdEnter i) :=
      (he.1.mono rfl).trans (.ite (fun _ => touches_toHold e i) fun _ => .refl _ e)
    refine ⟨ht.devKeeps _ rfl, othersKept_trans he.othersKept ho, hl.trans (he.lock i), hp.trans ?_⟩
    rw [he.1.mode rfl, he.phase]
  · refine ends_runAt (exec_holdExit ..) ?_
    obtain ⟨e, he, hw⟩ := supPoke_hold hr hm 1 (by decide)
    rw [hw, if_neg (by decide)]
    obtain ⟨hl, ho, hp, hmode⟩ := holdExit_spec (he.active ha)
    have ht : Touches [.mode, .sup, .strands, .clasp, .out, .loupe, .upd] d (e.holdExit i) := (he.1.mono rfl).trans (touches_holdExit e i)
    refine ⟨ht.devKeeps _ rfl, hl.trans (he.lock i), fun j hj => ⟨(ho j hj).1.trans (he.phase j), (ho j hj).2.trans (he.1.strand j rfl)⟩, ?_, ?_⟩
    · rw [hp, he.1.mode rfl, he.phase]
    · rw [hmode, he.backAfter, he.1.base rfl, he.1.mode rfl]; rfl

end Sys2Proof.Machine
end

section
/-! Strand resets. -/

namespace Sys2Proof.Machine

/-! ## Strand resets -/

/-! ### A strand after a reset of its logic (R353, R397) -/

/-- The engines after a reset: of each only its UNAVAIL mark (R81). -/
theorem get_foldl_set {α : Type} [DecidableEq α] (dflt : α) (f : Nat → α) (l : List Nat) (t : Tab α) (k : Nat) :
    (l.foldl (fun t n => t.set dflt n (f n)) t).get dflt k = if k ∈ l then f k else t.get dflt k := by
  induction l generalizing t with
  | nil => simp
  | cons n l ih =>
    rw [List.foldl_cons, ih]
    by_cases h : k = n
    · subst h; simp
    · simp [h]

theorem get_keepIf {α : Type} (t : Tab α) (p : Nat → Bool) (e : α) {k : Nat} (h : p k = false) : (t.keepIf p).get e k = e := by
  simp [Tab.get, Tab.keepIf, tabFind_filter p t.cells k, h]

/-- Writes of bank registers after the reset leave the parts that a reset clears. -/
structure Cleared (x y : StrandSt) : Prop where
  core : y.core = {}
  time : y.time = {}
  sw : y.sw = {}
  bng : y.bng = {}
  flg : y.flg = {}
  dma : y.dma = {}
  mem : y.banks.mem = []
  exch : y.banks.exch = none
  eng : ∀ n < 16, y.eng n = { unavail := (x.eng n).unavail }
  regs : RegsReset y 0x10000 0x90000

theorem Cleared.wr {x y : StrandSt} (h : Cleared x y) {off : Nat} (ho : 0x90000 ≤ off) (v : Word) : Cleared x (y.wr off v) :=
  { core := h.core, time := h.time, sw := h.sw, bng := h.bng, flg := h.flg, dma := h.dma, mem := h.mem, exch := h.exch, eng := h.eng,
    regs := fun k hk hk' => (StrandSt.rd_wr_ne y v (by omega)).trans (h.regs k hk hk') }

theorem Cleared.flag {x y : StrandSt} (h : Cleared x y) {off : Nat} (ho : 0x90000 ≤ off) (b : Nat) : Cleared x (y.flag off b) :=
  Cleared.wr (y := y.inCyc fun z => { z with c := z.c.noteSet off (2 ^ b) }) { h with } ho _

theorem Cleared.foldl {x y : StrandSt} (h : Cleared x y) {f : StrandSt → Nat → StrandSt} (hf : ∀ y k, Cleared x y → Cleared x (f y k)) (l : List Nat) :
    Cleared x (l.foldl f y) := by
  induction l generalizing y with
  | nil => exact h
  | cons k l ih => exact ih (hf y k h)

theorem cleared_afterReset (x : StrandSt) (cold : Bool) : Cleared x (x.afterReset cold) := by
  unfold StrandSt.afterReset
  extract_lets r page blank bead s s1 s2
  have h : Cleared x s :=
    { core := rfl, time := rfl, sw := rfl, bng := rfl, flg := rfl, dma := rfl, mem := rfl, exch := rfl
      eng := fun n hn => by
        simp only [StrandSt.eng, s, bead]
        rw [get_foldl_set {} (fun n => ({ unavail := (x.bead.get {} n).unavail } : Engine)), if_pos (List.mem_range.2 hn)]
      regs := fun k hk _ => get_keepIf _ _ _ (by simp [page]; omega) }
  have h2 : Cleared x s2 := Cleared.foldl (h.wr (by decide) _) (fun y k hy => hy.wr (by simp only [Reg.BANK_STATE]; omega) _) _
  split
  · exact h2.flag (by decide) 6
  · exact h2

theorem foldl_wr_ledger (f : StrandSt → Nat → StrandSt) (hf : ∀ y k, (f y k).ledger = y.ledger) (l : List Nat) (y : StrandSt) :
    (l.foldl f y).ledger = y.ledger := by
  induction l generalizing y with
  | nil => rfl
  | cons k l ih => exact (ih _).trans (hf y k)

/-- A reset keeps the ledger, but a cold one clears it (R353). -/
theorem afterReset_ledger (x : StrandSt) (cold : Bool) : (x.afterReset cold).ledger = if cold then Ledger.cleared else x.ledger := by
  unfold StrandSt.afterReset
  extract_lets r page blank bead s s1 s2
  have h : s2.ledger = if cold then Ledger.cleared else x.ledger := (foldl_wr_ledger _ (fun _ _ => StrandSt.wr_ledger ..) _ s1).trans rfl
  split
  · exact (StrandSt.flag_ledger ..).trans h
  · exact h

theorem Dev.resetLogic_strands (d : Dev) (i : StrandId) (cold : Bool) : (d.resetLogic i cold).strands = d.strands.set i ((d.strand i).afterReset cold) := by
  unfold Dev.resetLogic
  extract_lets out c d1 d2
  have h2 : d2.strands = d1.strands := (Touches.ite (fun _ => touches_log _ _ _ _ _) fun _ => .refl [.loupe, .upd] d1).strands rfl
  refine (Touches.strands (l := [.clasp]) (Touches.foldl (fun e g => ?_) _ d2) rfl).trans h2
  exact .ite (fun _ => touches_setMg e g _) fun _ => .refl _ e

/-- The supervisor of a strand after a warm reset. -/
theorem Dev.strandWarm_sup {d : Dev} {i : StrandId} (h0 : d.phase i ≠ .off) (h1 : d.phase i ≠ .fenced) :
    (d.strandWarm i).sup = d.sup.set i (({ d.supOf i with lock := false, lastReset := 1 } : SupSt).enter .loading d.ns) := by
  unfold Dev.strandWarm
  rw [if_neg (by simp [h0, h1])]
  extract_lets d1
  have ht : Touches [.strands, .clasp, .loupe, .upd, .before] d ((d.noteReset i).resetLogic i false) :=
    ((touches_noteReset d i).mono rfl).trans ((touches_resetLogic _ i _).mono rfl)
  have h1 : d1.sup = d.sup.set i { d.supOf i with lock := false, lastReset := 1 } := by
    simp only [d1, Dev.updSup, Dev.setSup, ht.sup rfl, ht.supOf _ rfl]
  have hn : d1.ns = d.ns := ht.ns rfl
  rw [(touches_timeLost _ i).sup rfl, (touches_resetIdent _ _).sup rfl, Dev.setPhase_sup, hn, supOf_of_sup h1, h1, Quad.set_set]

theorem Dev.strandWarm_strands {d : Dev} {i : StrandId} (h0 : d.phase i ≠ .off) (h1 : d.phase i ≠ .fenced) :
    (d.strandWarm i).strands = d.strands.set i ((d.strand i).afterReset false) := by
  unfold Dev.strandWarm
  rw [if_neg (by simp [h0, h1]), (touches_timeLost _ i).strands rfl, (touches_resetIdent _ _).strands rfl, (touches_setPhase _ i _).strands rfl,
    ((touches_updSup _ i _).strands rfl), Dev.resetLogic_strands, (touches_noteReset d i).strands rfl, (touches_noteReset d i).strand _ rfl]

/-- The strand and its supervisor before the first reset of the present cycle (R29, R43). -/
def Dev.first (d : Dev) (i : StrandId) : SupSt × StrandSt × Nat := (d.thisCyc.before.get none i).getD (d.supOf i, d.strand i, 0)

theorem Dev.unReset_sup (d : Dev) (i : StrandId) : (d.unReset i).sup = d.sup.set i (d.first i).1 := by
  unfold Dev.unReset Dev.first
  split <;> rename_i h
  · rw [h]; exact (Quad.set_get _ i).symm
  · rw [h]; rfl

theorem Dev.unReset_strands (d : Dev) (i : StrandId) : (d.unReset i).strands = d.strands.set i (d.first i).2.1 := by
  unfold Dev.unReset Dev.first
  split <;> rename_i h
  · rw [h]; exact (Quad.set_get _ i).symm
  · rw [h]; rfl

/-- The supervisor that a cold reset leaves. -/
def SupSt.cold (s : SupSt) : SupSt := { s with phase := .off, lock := false, pllLock := false, fenceOut := false, lastReset := 2, retValid := false }

theorem Dev.strandOff_sup (d : Dev) (i : StrandId) :
    (d.strandOff i).sup = d.sup.set i { d.supOf i with phase := .off, lock := false, pllLock := false, fenceOut := false } := by
  have h : ((d.updSup i fun s => { s with lock := false, pllLock := false, fenceOut := false }).setPhase i .off).sup =
      d.sup.set i { d.supOf i with phase := .off, lock := false, pllLock := false, fenceOut := false } := by
    rw [Dev.setPhase_sup, SupSt.enter_of_ne _ _ (by decide), Dev.supOf_updSup_same, Dev.updSup, Dev.setSup, Quad.set_set]
  unfold Dev.strandOff
  dsimp only
  split
  · exact h
  · exact ((touches_resetIdent _ _).sup rfl).trans h

/-- A strand that STRAND_COLD resets. -/
theorem Dev.strandCold_sup {d : Dev} {i : StrandId} (hp : d.por = false) (hf : i.val ∉ d.thisCyc.fenced) :
    (d.strandCold i).sup = d.sup.set i (d.first i).1.cold ∧ (d.strandCold i).strands = d.strands.set i ((d.first i).2.1.afterReset true) := by
  unfold Dev.strandCold
  rw [if_neg (by simp [hp, hf])]
  extract_lets owed d1 d2 was d3
  have t1 : Touches [.loupe, .upd] d d1 := .ite (fun _ => touches_log _ _ _ _ _) fun _ => .refl _ d
  have hfirst : d1.first i = d.first i := by unfold Dev.first; rw [(t1.before rfl), t1.supOf _ rfl, t1.strand _ rfl]
  have h2s : d2.sup = d.sup.set i (d.first i).1 := by rw [(touches_noteReset _ i).sup rfl, Dev.unReset_sup, (t1.sup rfl), hfirst]
  have h2t : d2.strands = d.strands.set i (d.first i).2.1 := by rw [(touches_noteReset _ i).strands rfl, Dev.unReset_strands, (t1.strands rfl), hfirst]
  have h3s : d3.sup = d.sup.set i (d.first i).1.cold := by
    rw [Dev.strandOff_sup, Dev.supOf_updSup_same, (touches_resetLogic d2 i true).supOf _ rfl, supOf_of_sup h2s, Dev.updSup, Dev.setSup,
      ((touches_resetLogic d2 i true).sup rfl), h2s, Quad.set_set, Quad.set_set]
    rfl
  have h3t : d3.strands = d.strands.set i ((d.first i).2.1.afterReset true) := by
    rw [(touches_strandOff _ i).strands rfl, (touches_updSup _ i _).strands rfl, Dev.resetLogic_strands, Dev.strand, h2t, Quad.get_set_same, Quad.set_set]
  have t4 : Touches [.lkt, .epochs] d3 (if was = .off then d3.resetIdent (4 + i.val) else d3) :=
    .ite (fun _ => touches_resetIdent _ _) fun _ => .refl _ d3
  exact ⟨(t4.sup rfl).trans h3s, (t4.strands rfl).trans h3t⟩

/-- What a reset leaves of a strand and of the rest of the device. -/
def Fresh (d e : Dev) (i : StrandId) (x : StrandSt) : Prop :=
  OthersKept d e i ∧ e.mode = d.mode ∧ (e.supOf i).lock = false ∧ (e.strand i).core = {} ∧ (e.strand i).time = {} ∧
    (e.strand i).sw = {} ∧ (e.strand i).bng = {} ∧ (e.strand i).flg = {} ∧ (e.strand i).dma = {} ∧ (e.strand i).banks.mem = [] ∧
    (∀ n < 16, (e.strand i).eng n = { unavail := (x.eng n).unavail }) ∧ RegsReset (e.strand i) 0x10000 0x90000

theorem strand_of_strands {d e : Dev} {i : StrandId} {x : StrandSt} (h : e.strands = d.strands.set i x) : e.strand i = x := by
  rw [Dev.strand, h, Quad.get_set_same]

/-- An operation that sets one strand and its supervisor leaves the others. -/
theorem othersKept_set {d e : Dev} {i : StrandId} {x : SupSt} {y : StrandSt} (hp : e.sup = d.sup.set i x) (hs : e.strands = d.strands.set i y) :
    OthersKept d e i :=
  fun j hj => ⟨by rw [Dev.strand, hs, Quad.get_set_ne _ _ hj]; rfl, by rw [Dev.supOf, hp, Quad.get_set_ne _ _ hj]; rfl⟩

theorem fresh_of_afterReset {d e : Dev} {i : StrandId} {x : SupSt} {y : StrandSt} {cold : Bool} (hp : e.sup = d.sup.set i x)
    (hs : e.strands = d.strands.set i (y.afterReset cold)) (hm : e.mode = d.mode) (hl : x.lock = false) : Fresh d e i y := by
  obtain ⟨h1, h2, h3, h4, h5, h6, h7, -, h8, h9⟩ := cleared_afterReset y cold
  rw [Fresh, supOf_of_sup hp, strand_of_strands hs]
  exact ⟨othersKept_set hp hs, hm, hl, h1, h2, h3, h4, h5, h6, h7, h8, h9⟩

theorem fresh_strandWarm {d : Dev} {i : StrandId} (h0 : d.phase i ≠ .off) (h1 : d.phase i ≠ .fenced) :
    Fresh d (d.strandWarm i) i (d.strand i) ∧ (d.strandWarm i).phase i = .loading ∧ ((d.strandWarm i).supOf i).lastReset = 1 ∧
      ((d.strandWarm i).strand i).ledger = (d.strand i).ledger ∧ ((d.strandWarm i).supOf i).retValid = (d.supOf i).retValid ∧
      ((d.strandWarm i).supOf i).cause = (d.supOf i).cause ∧ ((d.strandWarm i).supOf i).fenceIn = (d.supOf i).fenceIn ∧
      ((d.strandWarm i).supOf i).wdogAt = (d.supOf i).wdogAt := by
  have hs := Dev.strandWarm_sup h0 h1
  have ht := Dev.strandWarm_strands h0 h1
  obtain ⟨t, b, he⟩ := SupSt.enter_eq ({ d.supOf i with lock := false, lastReset := 1 }) .loading d.ns
  have hl : ((d.strandWarm i).strand i).ledger = (d.strand i).ledger := by rw [strand_of_strands ht, afterReset_ledger]; rfl
  rw [he] at hs
  rw [Dev.phase, supOf_of_sup hs]
  exact ⟨fresh_of_afterReset hs ht ((touches_strandWarm d i).mode rfl) rfl, rfl, rfl, hl, rfl, rfl, rfl, rfl⟩

theorem fresh_strandCold {d : Dev} {i : StrandId} (hp : d.por = false) (hf : i.val ∉ d.thisCyc.fenced) :
    Fresh d (d.strandCold i) i (d.first i).2.1 ∧ (d.strandCold i).supOf i = (d.first i).1.cold ∧ ((d.strandCold i).strand i).ledger = Ledger.cleared := by
  obtain ⟨hs, ht⟩ := Dev.strandCold_sup hp hf
  refine ⟨fresh_of_afterReset hs ht ((touches_strandCold d i).mode rfl) rfl, supOf_of_sup hs, ?_⟩
  rw [strand_of_strands ht, afterReset_ledger]; rfl

theorem strandWarm_ignored {d : Dev} {i : StrandId} (h : d.phase i = .off ∨ d.phase i = .fenced) : d.strandWarm i = d := by
  rcases h with h | h <;> simp [Dev.strandWarm, h]

theorem strandCold_ignored {d : Dev} {i : StrandId} (h : d.por = true ∨ i.val ∈ d.thisCyc.fenced) : d.strandCold i = d := by
  rcases h with h | h <;> simp [Dev.strandCold, h]

theorem devKeeps_refl (d : Dev) (but : List DPart) : DevKeeps d d but := fun p _ _ => by cases p <;> simp [DPart.same]

/-- The source of a STRAND_COLD that is heard (R27, R32). -/
theorem coldBy_eq (d : Dev) (i : StrandId) (relock : Bool) :
    d.coldBy i relock = if (if relock then (d.phase i = .run || d.phase i = .hold) && !(d.supOf i).pllLock else !(d.supOf i).fenceIn) then d.strandCold i else d := by
  cases relock <;> cases h : (d.supOf i).fenceIn <;> simp [Dev.coldBy, Dev.loupeCold, h]

/-- Settles O17: each reset through the one operation it performs. -/
theorem strandResets : Obligations.StrandResets := by
  unfold Obligations.StrandResets
  intro s dt i relock d fresh may acts first
  refine ⟨fun h0 h1 hi => ?_, fun h => ?_, fun h => ?_, fun h => ?_⟩
  · refine ends_runAt (c := .strandWarm dt i) rfl ?_
    rw [Dev.loupeWarm, if_neg (by simp [d] at hi; simp [hi])]
    obtain ⟨h2, h3, h4, h5, h6, h7, -, -⟩ := fresh_strandWarm h0 h1
    exact ⟨h2, h3, h4, h5, h6, h7⟩
  · refine ends_runAt (c := .strandWarm dt i) rfl ?_
    have e : (later s dt).loupeWarm i = later s dt := by
      rw [Dev.loupeWarm]
      split
      · rfl
      · next hi => exact strandWarm_ignored (by simpa [or_assoc, d, hi] using h)
    rw [e]
    exact devKeeps_refl _ _
  · refine ends_runAt (c := .strandCold dt i relock) rfl ?_
    obtain ⟨hmay, hp, hf⟩ := h
    have e : (later s dt).coldBy i relock = d.strandCold i := by
      rw [coldBy_eq, if_pos]
      cases relock <;> simpa [may] using hmay
    obtain ⟨h1, h2, h3⟩ := fresh_strandCold hp hf
    rw [e, Dev.phase, h2]
    exact ⟨h1, rfl, rfl, rfl, h3, rfl, rfl, rfl⟩
  · refine ends_runAt (c := .strandCold dt i relock) rfl ?_
    have e : (later s dt).coldBy i relock = d := by
      rw [coldBy_eq]
      by_cases hm : may
      · rw [if_pos (by cases relock <;> simpa [may] using hm)]
        refine strandCold_ignored ?_
        by_contra hc
        push Not at hc
        exact h ⟨hm, by simpa [d] using hc.1, hc.2⟩
      · rw [if_neg (by cases relock <;> simpa [may] using hm)]
    rw [e]
    exact devKeeps_refl _ _

end Sys2Proof.Machine
end

section
/-! The watchdog, the clock and the records of the log. -/

namespace Sys2Proof.Machine

/-! ## Records in the log ring (R439) -/

/-- The newest record of a ring is in it, and still after one more. -/
theorem ringPush_eq (l : List LogRec) (r : LogRec) : ringPush l r = l.drop (l.length + 1 - 2048) ++ [r] := by
  rw [ringPush, List.drop_append_of_le_length (by omega)]

theorem mem_ringPush (l : List LogRec) (r : LogRec) : r ∈ ringPush l r := by simp [ringPush_eq]

theorem mem_ringPush_push (l : List LogRec) (r x : LogRec) : r ∈ ringPush (ringPush l r) x := by
  rw [ringPush_eq (ringPush l r), ringPush_eq l, List.drop_append_of_le_length (by simp)]
  simp

@[simp] theorem linc_log (d : Dev) (x : Nat) : (d.linc x).loupe.log = d.loupe.log := rfl
@[simp] theorem lflag_log (d : Dev) (a x : Nat) : (d.lflag a x).loupe.log = d.loupe.log := rfl

/-- The log after a record: the record alone follows those before it. -/
theorem pushLog_log (d : Dev) (c : Nat) (k : FClass) (s : Nat) (a : List Nat) (b : Bool) :
    ∃ r, r.code = c ∧ (d.pushLog c k s a b).loupe.log = ringPush d.loupe.log r := by
  unfold Dev.pushLog
  extract_lets l r lost d1 d2
  have h : d2.loupe.log = ringPush d.loupe.log r := by simp only [d2, linc_log, d1, l]
  refine ⟨r, rfl, ?_⟩
  split
  · rw [lflag_log, linc_log, h]
  · exact h

/-- A trial has failed already, or the mark of one goes into the log. -/
theorem trialFail_log (d : Dev) : d.trialFail.loupe.log = d.loupe.log ∨ ∃ r, d.trialFail.loupe.log = ringPush d.loupe.log r := by
  unfold Dev.trialFail
  split
  · exact .inl rfl
  · obtain ⟨r, -, h⟩ := pushLog_log (((({ d with upd := { d.upd with trial := false, failed := true, trialAt := d.ns } } : Dev).uflag 4).uinc 11))
      0x130C .lasting 0 [] false
    exact .inr ⟨r, h⟩

theorem logHas_log (d : Dev) (c : Nat) (k : FClass) (s : Nat) (a : List Nat) : LogHas (d.log c k s a) c := by
  obtain ⟨r, hc, hr⟩ := pushLog_log d c k s a false
  refine ⟨r, ?_, hc⟩
  unfold Dev.log Dev.logRec
  dsimp only
  split
  · rcases trialFail_log (d.pushLog c k s a false) with h | ⟨x, h⟩
    · rw [h, hr]; exact mem_ringPush _ _
    · rw [h, hr]; exact mem_ringPush_push _ _ _
  · rw [hr]; exact mem_ringPush _ _

/-! ## The watchdog and the clock -/

/-- A watchdog that has run down in a core that runs. -/
theorem wdogWatch_eq {d : Dev} {i : StrandId} (hw : (d.strand i).core.wdog = some 0) (ht : (d.strand i).fld Reg.CORE_WDOG 15 0 ≠ 0)
    (hr : (d.strand i).core.state ≠ .reset) (hh : (d.strand i).core.state ≠ .halted) : d.wdogWatch i = d.wdogExpiry i := by
  simp [Dev.wdogWatch, hw, Dev.coreWdog, ht, hr, hh]

/-- Whether an expiry comes within 10 s of the last one (R30). -/
def Dev.wdogAgainSoon (d : Dev) (i : StrandId) : Bool :=
  match (d.supOf i).wdogAt with
  | some t => decide (d.ns < t + 10 ^ 10)
  | none => false

theorem wdogAgainSoon_iff (d : Dev) (i : StrandId) : d.wdogAgainSoon i = true ↔ ∃ a ∈ (d.supOf i).wdogAt, d.ns < a + 10 ^ 10 := by
  unfold Dev.wdogAgainSoon
  cases (d.supOf i).wdogAt <;> simp

theorem wdogExpiry_eq {d : Dev} {i : StrandId} (ha : Active d i) :
    d.wdogExpiry i =
      if d.wdogAgainSoon i then (if bitN d.cfg.policy 9 then d.fenceOut i 9 0x0112 else (d.logExpiry 0x0112 .fatal i).wdogAgain i)
      else (((d.logExpiry 0x0117 .transient i).fenceInEnd i).updSup i fun s => { s with wdogAt := some d.ns }).strandWarm i := by
  have h : (d.phase i = .run || d.phase i = .hold) = true := by simpa using ha
  unfold Dev.wdogExpiry
  dsimp only
  rw [if_neg (by simp [h])]
  rfl

/-- A first expiry: the inward fence ends, the 10 s start, the strand is reset (R30). -/
theorem wdogExpiry_first {d : Dev} {i : StrandId} (ha : Active d i) (hs : d.wdogAgainSoon i = false) :
    OthersKept d (d.wdogExpiry i) i ∧ (d.wdogExpiry i).mode = d.mode ∧ (d.wdogExpiry i).phase i = .loading ∧ ((d.wdogExpiry i).supOf i).lastReset = 1 ∧
      ((d.wdogExpiry i).supOf i).wdogAt = some d.ns ∧ ((d.wdogExpiry i).supOf i).fenceIn = false ∧
      ((d.wdogExpiry i).strand i).ledger = (d.strand i).ledger := by
  rw [wdogExpiry_eq ha, if_neg (by simp [hs])]
  set e := ((d.logExpiry 0x0117 .transient i).fenceInEnd i).updSup i fun s => { s with wdogAt := some d.ns } with he
  have h1 : Touches [.loupe, .upd] d (d.logExpiry 0x0117 .transient i) := touches_logExpiry d _ _ i
  have ht : Touches [.sup, .loupe, .upd] d e := ((h1.mono rfl).trans (touches_fenceInEnd _ i)).trans ((touches_updSup _ i _).mono rfl)
  have hp : e.sup = d.sup.set i { d.supOf i with fenceIn := false, wdogAt := some d.ns } := by
    rw [he, Dev.updSup, Dev.setSup, supOf_of_sup (Dev.fenceInEnd_sup _ i), Dev.fenceInEnd_sup, h1.sup rfl, h1.supOf _ rfl]
    exact Quad.set_set _ _ _ _
  have hphase : e.phase i = d.phase i := by rw [Dev.phase, supOf_of_sup hp]; rfl
  obtain ⟨⟨ho, hm, -⟩, h3, h4, h5, -, -, h6, h7⟩ := fresh_strandWarm (d := e) (i := i) (by rcases ha with h | h <;> simp [hphase, h])
    (by rcases ha with h | h <;> simp [hphase, h])
  refine ⟨othersKept_trans (othersKept_sup (ht.strands rfl) hp) ho, hm.trans (ht.mode rfl), h3, h4, ?_, ?_, ?_⟩
  · rw [h7, supOf_of_sup hp]
  · rw [h6, supOf_of_sup hp]
  · rw [h5, ht.strand _ rfl]

theorem wdogAgain_strand (d : Dev) (i : StrandId) :
    (d.wdogAgain i).strand i =
      { d.strand i with core := { (d.strand i).core with wdog := some ((d.strand i).fld Reg.CORE_WDOG 15 0 * 100000) } } :=
  Dev.strand_setStrand_same d i _

/-- What touches no part of the device but the Clasp, the Loupe, the session, the outputs and the record of the cycle keeps the rest (R22). -/
theorem Touches.deviceKept {l : List DevField} {d e : Dev} (h : Touches l d e)
    (hl : ([DevField.mode, .base, .por, .devLock, .cfg, .holdBy, .sup, .lkt, .epochs, .hm, .flashes].all fun f => !l.contains f) = true) :
    DeviceKept d e := by
  have hf (f : DevField) (hm : f ∈ [DevField.mode, .base, .por, .devLock, .cfg, .holdBy, .sup, .lkt, .epochs, .hm, .flashes]) : f.same d e :=
    h.same_at f (by simpa using List.all_eq_true.1 hl f hm)
  exact ⟨hf .mode (by simp), hf .base (by simp), hf .por (by simp), hf .devLock (by simp), hf .cfg (by simp), hf .holdBy (by simp),
    hf .sup (by simp), hf .lkt (by simp), hf .epochs (by simp), hf .hm (by simp), hf .flashes (by simp)⟩

theorem logExpiry_log {d : Dev} (hf : d.loupe.firmware = true) (c : Nat) (k : FClass) (i : StrandId) :
    d.logExpiry c k i = d.log c k (0x10 + i.val) [] := if_pos hf

/-- An expiry within the 10 s that fences nothing: the watchdog counts anew, and the firmware logs it (R30). -/
theorem wdogExpiry_again {d : Dev} {i : StrandId} (ha : Active d i) (hs : d.wdogAgainSoon i = true) (hp : bitN d.cfg.policy 9 = false) :
    Only d (d.wdogExpiry i) i [.core] ∧
      ((d.wdogExpiry i).strand i).core = { (d.strand i).core with wdog := some ((d.strand i).fld Reg.CORE_WDOG 15 0 * 100000) } ∧
      (d.loupe.firmware = true → LogHas (d.wdogExpiry i) 0x0112) := by
  rw [wdogExpiry_eq ha, if_pos hs, if_neg (by simp [hp])]
  have h1 : Touches [.loupe, .upd] d (d.logExpiry 0x0112 .fatal i) := touches_logExpiry d _ _ i
  have h2 : Touches [.strands, .loupe, .upd] d ((d.logExpiry 0x0112 .fatal i).wdogAgain i) := (h1.mono rfl).trans ((touches_setStrand _ i _).mono rfl)
  have hx := wdogAgain_strand (d.logExpiry 0x0112 .fatal i) i
  rw [h1.strand _ rfl] at hx
  refine ⟨⟨⟨(h2.deviceKept rfl), fun j hj => ?_⟩, ?_⟩, by rw [hx], fun hf => ?_⟩
  · rw [Dev.wdogAgain, Dev.strand_setStrand_ne _ _ hj, h1.strand _ rfl]
  · rw [hx]
    intro p _ hp
    cases p with
    | core => simp at hp
    | _ => rfl
  · rw [logExpiry_log hf]
    exact logHas_log d _ _ _ _

/-- Settles O21: by whether the last expiry lies within 10 s. -/
theorem watchdogAndClock : Obligations.WatchdogAndClock := by
  unfold Obligations.WatchdogAndClock
  intro s dt i d k t
  refine ⟨fun ha hw ht hr hh => ⟨fun h => ?_, fun h hp => ?_⟩, fun hp => ?_⟩
  · refine ends_runAt (c := .coreWdogExpiry dt i) rfl ?_
    have hs : d.wdogAgainSoon i = false := by
      rw [← Bool.not_eq_true, wdogAgainSoon_iff]
      rintro ⟨a, ha', hlt⟩
      exact absurd (h a ha') (by omega)
    rw [wdogWatch_eq hw ht hr hh]
    exact wdogExpiry_first ha hs
  · refine ends_runAt (c := .coreWdogExpiry dt i) rfl ?_
    have hs : d.wdogAgainSoon i = true := (wdogAgainSoon_iff d i).2 h
    rw [wdogWatch_eq hw ht hr hh]
    exact wdogExpiry_again ha hs hp
  · refine ends_runAt (c := .clkOkReturn dt i) rfl ?_
    rw [Dev.clkReturn, if_neg (by simp [d] at hp; simp [hp])]
    exact ⟨(touches_updSup d i _).devKeeps [.sup] rfl, othersKept_sup rfl rfl, supOf_of_sup rfl⟩

end Sys2Proof.Machine
end

section
/-! The fence outward. -/

namespace Sys2Proof.Machine

/-! ## The fence outward -/

theorem bitOf_setBit_same (w : Word) {k : Nat} (hk : k < 32) : bitOf (setBit w k true) k = true := by
  have hw := w.isLt
  have h : putN w.toNat k k 1 % 2 ^ 32 / 2 ^ k % 2 = 1 := by
    simp only [putN, bitsN, Nat.shiftRight_eq_div_pow, Nat.shiftLeft_eq, Nat.add_sub_cancel_left]
    interval_cases k <;> omega
  simp only [bitOf, setBit, setField, bitN, Nat.shiftRight_eq_div_pow, BitVec.toNat_ofNat, if_true, h]
  rfl

/-- Of the strands in a list, those in RUN go to HOLD (R41). -/
theorem foldl_toHold (l : List StrandId) (d : Dev) (j : StrandId) :
    (l.foldl (fun e i => e.toHold i) d).supOf j = (if j ∈ l ∧ d.phase j = .run then { d.supOf j with phase := .hold } else d.supOf j) ∧
      (d.phase j ≠ .run → (l.foldl (fun e i => e.toHold i) d).strand j = d.strand j) := by
  induction l generalizing d with
  | nil => simp
  | cons i l ih =>
    obtain ⟨h1, h2⟩ := ih (d.toHold i)
    rw [List.foldl_cons, h1]
    have hs := d.toHold_sup i
    by_cases hj : j = i
    · subst hj
      by_cases hr : d.phase j = .run
      · rw [if_pos hr] at hs
        have hp : (d.toHold j).phase j = .hold := by rw [Dev.phase, supOf_of_sup hs]
        rw [supOf_of_sup hs, hp, if_neg (by simp), if_pos (by simp [hr])]
        exact ⟨rfl, fun hn => absurd hr hn⟩
      · have hd : d.toHold j = d := by simp [Dev.toHold, hr]
        rw [hd] at h1 h2 ⊢
        exact ⟨by simp [hr], h2⟩
    · have hsup : (d.toHold i).supOf j = d.supOf j := by
        rw [Dev.supOf, hs]
        split
        · rw [Quad.get_set_ne _ _ hj]; rfl
        · rfl
      have hp : (d.toHold i).phase j = d.phase j := congrArg SupSt.phase hsup
      rw [hsup, hp]
      refine ⟨by simp [hj], fun hn => (h2 (by rwa [hp])).trans (toHold_strand_ne d hj)⟩

theorem mem_allStrands (i : StrandId) : i ∈ allStrands := by fin_cases i <;> decide

/-- All strands in RUN go to HOLD. -/
theorem allHold_supOf (d : Dev) (j : StrandId) :
    (allStrands.foldl (fun e i => e.toHold i) d).supOf j = if d.phase j = .run then { d.supOf j with phase := .hold } else d.supOf j := by
  rw [(foldl_toHold allStrands d j).1]
  simp [mem_allStrands]

theorem allHold_phase (d : Dev) (j : StrandId) :
    (allStrands.foldl (fun e i => e.toHold i) d).phase j = if d.phase j = .run then .hold else d.phase j := by
  rw [Dev.phase, allHold_supOf]
  split <;> rfl

/-- Whether the essential set is FENCED is a matter of the configuration and of who is FENCED. -/
theorem essentialFenced_congr {d e : Dev} (hc : e.cfg = d.cfg) (hp : ∀ j, e.phase j = .fenced ↔ d.phase j = .fenced) :
    e.essentialFenced = d.essentialFenced := by
  simp only [Dev.essentialFenced, hc, hp]

/-- What follows a fence: MD9 where the whole essential set is FENCED in a base mode or MD8, else MD8 in place of a base mode (T11, T13). -/
theorem afterFence_eq (d : Dev) :
    d.afterFence =
      if d.essentialFenced && (d.inBase || d.mode == 8) then (if d.inBase then d.setMode 8 else d).enterHold .essential
      else if d.inBase then d.setMode 8 else d := by
  have ht : Touches [.mode, .clasp, .loupe, .upd] d (if d.inBase then d.setMode 8 else d) := .ite (fun _ => touches_setMode d 8) fun _ => .refl _ d
  have he := essentialFenced_congr (ht.cfg rfl) fun j => by rw [ht.phase j rfl]
  unfold Dev.afterFence
  dsimp only
  rw [he]
  by_cases h8 : (d.inBase || d.mode == 8) = true
  · rw [h8, Bool.and_true]
  · have hb : d.inBase = false := by simp at h8; exact h8.1
    have hn : d.enterHold .essential = d := by
      unfold Dev.enterHold
      rw [if_pos (by simpa [beq_eq_decide] using h8)]
    simp [hb, hn, show (d.mode == 8) = false by simpa [hb] using h8]

/-- The mode after a fence. -/
theorem afterFence_mode (d : Dev) :
    d.afterFence.mode = if d.essentialFenced && (d.inBase || d.mode == 8) then 9 else if d.inBase then 8 else d.mode := by
  rw [afterFence_eq]
  split
  · next h =>
    simp only [Bool.and_eq_true, Bool.or_eq_true, beq_iff_eq] at h
    unfold Dev.enterHold
    have hin : ((if d.inBase then d.setMode 8 else d).mode = 8) := by
      split
      · exact Dev.setMode_mode d 8
      · next hn => exact h.2.resolve_left hn
    rw [if_neg (by simp [hin])]
    exact (Touches.mode (Touches.foldl (fun e i => touches_toHold e i) _ _) rfl).trans (Dev.setMode_mode _ 9)
  · split
    · exact Dev.setMode_mode d 8
    · rfl

/-- The strands after the mode changes that follow a fence: those in RUN are in HOLD where the device is in MD9, and all else stays. -/
theorem afterFence_supOf (d : Dev) (j : StrandId) :
    d.afterFence.supOf j = d.supOf j ∨ (d.phase j = .run ∧ d.afterFence.supOf j = { d.supOf j with phase := .hold } ∧ d.afterFence.mode = 9) := by
  have hmode := afterFence_mode d
  rw [afterFence_eq] at hmode ⊢
  have ht : Touches [.mode, .clasp, .loupe, .upd] d (if d.inBase then d.setMode 8 else d) := .ite (fun _ => touches_setMode d 8) fun _ => .refl _ d
  split at hmode
  · next hc =>
    rw [if_pos hc]
    generalize (if d.inBase then d.setMode 8 else d) = e at ht hmode ⊢
    unfold Dev.enterHold at hmode ⊢
    split at hmode <;> rename_i hn
    · rw [if_pos hn]; exact .inl (ht.supOf j rfl)
    · rw [if_neg hn]
      have hx : Touches [.mode, .holdBy, .holdFrom, .clasp, .loupe, .upd] d (({ e with holdBy := some .essential, holdFrom := e.mode } : Dev).setMode 9) := by
        refine .trans ((ht.mono rfl).trans (fun k h => ?_)) ((touches_setMode _ 9).mono rfl)
        cases k <;> simp at h <;> rfl
      dsimp only at hmode ⊢
      rw [allHold_supOf, hx.phase _ rfl, hx.supOf _ rfl]
      by_cases hr : d.phase j = .run
      · exact .inr ⟨hr, by rw [if_pos hr], hmode⟩
      · exact .inl (by rw [if_neg hr])
  · next hc =>
    rw [if_neg hc]
    exact .inl (ht.supOf j rfl)

/-- A strand not in RUN is as the fence left it. -/
theorem afterFence_strand (d : Dev) {j : StrandId} (h : d.phase j ≠ .run) : d.afterFence.strand j = d.strand j := by
  have ht : Touches [.mode, .clasp, .loupe, .upd] d (if d.inBase then d.setMode 8 else d) := .ite (fun _ => touches_setMode d 8) fun _ => .refl _ d
  rw [afterFence_eq]
  split
  · generalize (if d.inBase then d.setMode 8 else d) = e at ht ⊢
    unfold Dev.enterHold
    split
    · exact ht.strand j rfl
    · have hx : Touches [.mode, .holdBy, .holdFrom, .clasp, .loupe, .upd] d (({ e with holdBy := some .essential, holdFrom := e.mode } : Dev).setMode 9) := by
        refine .trans ((ht.mono rfl).trans (fun k h => ?_)) ((touches_setMode _ 9).mono rfl)
        cases k <;> simp at h <;> rfl
      exact ((foldl_toHold allStrands _ j).2 (by rwa [hx.phase _ rfl])).trans (hx.strand j rfl)
  · exact ht.strand j rfl

/-- What a fence outward leaves of its strand, the others and the mode. -/
def Gone (d e : Dev) (i : StrandId) (bit : Nat) : Prop :=
  e.phase i = .fenced ∧ (e.supOf i).fenceOut = true ∧ (e.supOf i).fenceIn = false ∧ bitOf (e.supOf i).cause bit = true ∧
    (e.strand i).banks.mem = [] ∧ (∀ j, j ≠ i → e.phase j = d.phase j ∨ (d.phase j = .run ∧ e.phase j = .hold ∧ e.mode = 9)) ∧
    e.mode = if e.essentialFenced && (d.inBase || d.mode == 8) then 9 else if d.inBase then 8 else d.mode

theorem afterFence_fenced (d : Dev) (j : StrandId) : d.afterFence.phase j = .fenced ↔ d.phase j = .fenced := by
  rcases afterFence_supOf d j with h | ⟨hr, h, -⟩
  · rw [Dev.phase, h]; rfl
  · rw [Dev.phase, h, hr]; simp

theorem inBase_congr {d e : Dev} (h : e.mode = d.mode) : e.inBase = d.inBase := by rw [Dev.inBase, Dev.inBase, h]

/-- The fence of a strand of a device whose mode and other strands are those of `d`. -/
theorem gone_fence {d d0 : Dev} {i : StrandId} {bit : Nat} (hb : bit < 32) (hm : d0.mode = d.mode) (hp : ∀ j, j ≠ i → d0.phase j = d.phase j) (code : Nat) :
    Gone d (d0.fence i bit code).afterFence i bit := by
  have ht := touches_fence d0 i bit code
  have hs := d0.fence_sup i bit code
  set f := d0.fence i bit code
  have hi : f.supOf i = (d0.supOf i).fenced bit := supOf_of_sup hs
  have hfi : f.phase i = .fenced := by rw [Dev.phase, hi]; rfl
  have hfm : f.mode = d.mode := (ht.mode rfl).trans hm
  have hai : f.afterFence.supOf i = f.supOf i := (afterFence_supOf f i).resolve_right fun h => by rw [hfi] at h; exact absurd h.1 (by decide)
  have hti : f.strand i = (d0.strand i).stopped := strand_of_strands (d0.fence_strands i bit code)
  refine ⟨(afterFence_fenced f i).2 hfi, ?_, ?_, ?_, ?_, fun j hj => ?_, ?_⟩
  · rw [hai, hi]; rfl
  · rw [hai, hi]; rfl
  · rw [hai, hi]; exact bitOf_setBit_same _ hb
  · rw [afterFence_strand f (by rw [hfi]; decide), hti]; rfl
  · have hfj : f.phase j = d.phase j := by
      rw [Dev.phase, Dev.supOf, hs, Quad.get_set_ne _ _ hj]; exact hp j hj
    rcases afterFence_supOf f j with h | ⟨hr, h, h9⟩
    · exact .inl (by rw [← hfj, Dev.phase, h]; rfl)
    · exact .inr ⟨hfj ▸ hr, by rw [Dev.phase, h], h9⟩
  · rw [essentialFenced_congr (d := f) ((touches_afterFence f).cfg rfl) (afterFence_fenced f), afterFence_mode, inBase_congr hfm, hfm]

theorem fenceOut_fenced {d : Dev} {i : StrandId} (h : d.phase i = .fenced) (b c : Nat) : d.fenceOut i b c = d := by
  simp [Dev.fenceOut, h]

/-- A fence as an event: of the strand as it stood before a reset of its cycle (R43). -/
theorem fenceOut_eq {d : Dev} {i : StrandId} (h : d.phase i ≠ .fenced) (h0 : (d.unReset i).phase i ≠ .off) (h1 : (d.unReset i).phase i ≠ .fenced) (b c : Nat) :
    d.fenceOut i b c = ((d.unReset i).fence i b c).afterFence := by
  unfold Dev.fenceOut
  rw [if_neg h]
  dsimp only
  split
  · exact absurd ‹_› h0
  · exact absurd ‹_› h1
  · rfl

theorem gone_fenceOut {d : Dev} {i : StrandId} (h : d.phase i ≠ .fenced) (h0 : (d.unReset i).phase i ≠ .off) (h1 : (d.unReset i).phase i ≠ .fenced)
    {b : Nat} (hb : b < 32) (c : Nat) : Gone d (d.fenceOut i b c) i b := by
  rw [fenceOut_eq h h0 h1]
  refine gone_fence hb ((touches_unReset d i).mode rfl) (fun j hj => ?_) c
  rw [Dev.phase, Dev.supOf, Dev.unReset_sup, Quad.get_set_ne _ _ hj]; rfl

/-! ### The log of a fence -/

theorem trialFail_trial (d : Dev) : d.trialFail.upd.trial = false := by
  unfold Dev.trialFail
  split
  · next h => simpa using h
  · rw [(touches_pushLog _ _ _ _ _ _).upd rfl]; rfl

theorem trialFail_ignored {d : Dev} (h : d.upd.trial = false) : d.trialFail = d := by simp [Dev.trialFail, h]

/-- A FATAL record has failed a trial. -/
theorem log_fatal_trial (d : Dev) (c s : Nat) (a : List Nat) : (d.log c .fatal s a).upd.trial = false := trialFail_trial _

/-- A change of mode without a trial leaves the Loupe alone. -/
theorem setMode_loupe {d : Dev} (h : d.upd.trial = false) (m : Nat) : (d.setMode m).loupe = d.loupe := by
  unfold Dev.setMode
  split
  · rfl
  · dsimp only
    split
    · refine (congrArg Dev.loupe (trialFail_ignored ?_)).trans ?_
      · exact h
      · rfl
    · rfl

/-- A fence whose end is not MD9 leaves its record in the log. -/
theorem logHas_fence {d : Dev} (i : StrandId) (b : Nat) {c : Nat} (hc : c ≠ 0x0112) (h9 : (d.fence i b c).afterFence.mode ≠ 9) :
    LogHas (d.fence i b c).afterFence c := by
  have hlog : LogHas (d.fence i b c) c ∧ (d.fence i b c).upd.trial = false := by
    unfold Dev.fence
    dsimp only
    rw [if_neg hc]
    exact ⟨logHas_log _ _ _ _ _, log_fatal_trial _ _ _ _⟩
  have hm := afterFence_mode (d.fence i b c)
  rw [afterFence_eq] at h9 ⊢
  split
  · next hx => rw [afterFence_eq, if_pos hx] at hm; simp [hx, hm] at h9
  · split
    · obtain ⟨r, hr, hrc⟩ := hlog.1
      exact ⟨r, by rwa [setMode_loupe hlog.2], hrc⟩
    · exact hlog.1

theorem logHas_fenceOut {d : Dev} {i : StrandId} (h : d.phase i ≠ .fenced) (h0 : (d.unReset i).phase i ≠ .off) (h1 : (d.unReset i).phase i ≠ .fenced)
    (b : Nat) {c : Nat} (hc : c ≠ 0x0112) (h9 : (d.fenceOut i b c).mode ≠ 9) : LogHas (d.fenceOut i b c) c := by
  rw [fenceOut_eq h h0 h1] at h9 ⊢
  exact logHas_fence i b hc h9

/-- The state of a strand before a reset of the present cycle (R43). -/
theorem unReset_phase (d : Dev) (i : StrandId) :
    (d.unReset i).phase i = match d.thisCyc.before.get none i with
      | some x => x.1.phase
      | none => d.phase i := by
  rw [Dev.phase, supOf_of_sup (d.unReset_sup i), Dev.first]
  split <;> rename_i h <;> rw [h] <;> rfl

/-- CLK_OK and PLL_LOCK are no part of what a fence says. -/
theorem gone_clock {d e : Dev} {i : StrandId} {b : Nat} (h : Gone d e i b) (pll : Bool) :
    Gone d (e.updSup i fun s => { s with clkOk := false, pllLock := s.pllLock && !pll }) i b := by
  obtain ⟨h1, h2, h3, h4, h5, h6, h7⟩ := h
  have ht := touches_updSup e i fun s => { s with clkOk := false, pllLock := s.pllLock && !pll }
  set g := e.updSup i fun s => { s with clkOk := false, pllLock := s.pllLock && !pll }
  have hg : g.supOf i = { e.supOf i with clkOk := false, pllLock := (e.supOf i).pllLock && !pll } := supOf_of_sup rfl
  have hp (j : StrandId) : g.phase j = e.phase j := by
    by_cases hj : j = i
    · subst hj; rw [Dev.phase, hg]; rfl
    · exact congrArg SupSt.phase (Dev.supOf_updSup_ne e _ hj)
  refine ⟨(hp i).trans h1, by rw [hg]; exact h2, by rw [hg]; exact h3, by rw [hg]; exact h4, by rw [ht.strand _ rfl]; exact h5, fun j hj => ?_, ?_⟩
  · rw [hp, ht.mode rfl]; exact h6 j hj
  · rw [ht.mode rfl, essentialFenced_congr (ht.cfg rfl) fun j => by rw [hp]]; exact h7

theorem fenceTrigger_off {d : Dev} {i : StrandId} {b : Nat} (c : Nat) (h : bitN d.cfg.policy b = false ∨ d.phase i = .fenced) : d.fenceTrigger i b c = d := by
  unfold Dev.fenceTrigger
  split
  · next hb => exact fenceOut_fenced (h.resolve_left (by simp [hb])) _ _
  · rfl

theorem fenceTrigger_on {d : Dev} (i : StrandId) {b : Nat} (c : Nat) (h : bitN d.cfg.policy b = true) : d.fenceTrigger i b c = d.fenceOut i b c := if_pos h

/-- Settles O20: every trigger that acts is one fence with the mode changes after it; each other changes at most the clock's bits. -/
theorem outwardFence : Obligations.OutwardFence := by
  unfold Obligations.OutwardFence
  intro s dt i pll d gone logged was wdog
  have hwas : (d.unReset i).phase i = was := unReset_phase d i
  refine ⟨fun hp h0 h1 => ⟨fun hb => ?_, fun hb => ?_⟩, fun h => ?_, fun h => ?_, fun hl hk ht => ?_, fun h => ?_, fun ha hw hd hb ht => ?_⟩
  · refine ends_runAt (c := .supplyFail dt i) rfl ?_
    rw [← hwas] at h0 h1
    rw [fenceTrigger_on i _ hb]
    exact ⟨gone_fenceOut hp h0 h1 (by decide) _, logHas_fenceOut hp h0 h1 _ (by decide)⟩
  · refine ends_runAt (c := .clkFail dt i pll) rfl ?_
    rw [← hwas] at h0 h1
    rw [Dev.clkFail, fenceTrigger_on i _ hb]
    exact ⟨gone_clock (gone_fenceOut hp h0 h1 (by decide) _) pll, by rw [Dev.supOf_updSup_same], logHas_fenceOut hp h0 h1 _ (by decide)⟩
  · refine ends_runAt (c := .supplyFail dt i) rfl ?_
    rw [fenceTrigger_off _ h]
    exact devKeeps_refl _ _
  · refine ends_runAt (c := .clkFail dt i pll) rfl ?_
    rw [Dev.clkFail, fenceTrigger_off _ h]
    exact ⟨(touches_updSup _ i _).devKeeps [.sup] rfl, othersKept_sup rfl rfl, supOf_of_sup rfl⟩
  · refine ends_runAt (c := .pllLockTimeout dt i) rfl ?_
    rw [Dev.pllTimeout, if_pos (by simp [d] at hl hk ht; simp [hl, hk, ht])]
    exact ⟨gone_fence (by decide) rfl (fun _ _ => rfl) _, logHas_fence i 7 (by decide)⟩
  · refine ends_runAt (c := .pllLockTimeout dt i) rfl ?_
    rw [Dev.pllTimeout, if_neg (by simp only [d] at h; simp; rintro h1 h2; rcases h with h | h | h <;> simp_all)]
    exact devKeeps_refl _ _
  · refine ends_runAt (c := .coreWdogExpiry dt i) rfl ?_
    obtain ⟨h1, h2, h3, h4⟩ := hd
    have hs : d.wdogAgainSoon i = true := (wdogAgainSoon_iff d i).2 ht
    have hph : d.phase i ≠ .fenced ∧ d.phase i ≠ .off := by rcases ha with h | h <;> simp [h]
    rw [wdogWatch_eq h1 h2 h3 h4, wdogExpiry_eq ha, if_pos hs, if_pos hb]
    exact gone_fenceOut hph.1 (by rw [hwas, hw]; exact hph.2) (by rw [hwas, hw]; exact hph.1) (by decide) _

end Sys2Proof.Machine
end

section
/-! Resets of the links and of the Clasp. -/

namespace Sys2Proof.Machine

/-! ## Resets of the links and of the Clasp -/

theorem Tab.get_upd_same {α : Type} [DecidableEq α] (t : Tab α) (d : α) (k : Nat) (f : α → α) : (t.upd d k f).get d k = f (t.get d k) := Tab.get_set_same t d k _

theorem Tab.get_upd_ne {α : Type} [DecidableEq α] (t : Tab α) (d : α) {k j : Nat} (f : α → α) (h : j ≠ k) : (t.upd d k f).get d j = t.get d j :=
  Tab.get_set_ne t d _ h

/-- A reset of an identity raises its epoch (R419). -/
theorem resetIdent_epochs (d : Dev) (n : Nat) : (d.resetIdent n).epochs = d.epochs.upd 0 n fun e => (e + 1) % 256 :=
  Touches.epochs (Touches.foldl (l := [.lkt]) (fun e _ => touches_setChan e _ _) _ _) rfl

theorem lktLost_epochs (d : Dev) : d.lktLost.epochs = (d.epochs.upd 0 1 fun e => (e + 1) % 256).upd 0 2 fun e => (e + 1) % 256 := by
  have h : (d.lkt.cells.foldl (fun (e : Dev) (c : Nat × Chan) =>
      if (e.chan c.1).valid && ((e.chan c.1).idLo == 1 || (e.chan c.1).idLo == 2) then
        e.withChan c.1 fun x => (({ bind := x.bind } : Chan).flag false 7).flag true 7 else e) d).epochs = d.epochs :=
    Touches.epochs (Touches.foldl (l := [.lkt]) (fun e c => .ite (fun _ => touches_withChan e _ _) fun _ => .refl _ e) _ d) rfl
  unfold Dev.lktLost
  exact congrArg (fun t : Tab Nat => (t.upd 0 1 fun e => (e + 1) % 256).upd 0 2 fun e => (e + 1) % 256) h

theorem touches_strandsLinkReset (d : Dev) (b : Bool) : Touches [.strands, .clasp, .out, .loupe, .upd] d (d.strandsLinkReset b) :=
  .foldl (fun e i => touches_onActive e i _) _ d

theorem touches_claspLinkReset (d : Dev) (b : Bool) : Touches [.clasp, .port] d (d.claspLinkReset b) := by
  unfold Dev.claspLinkReset
  dsimp only
  refine .trans ((touches_setLink d b _).trans ((touches_clasp_regs _ (by rfl) (by rfl)).mono rfl)) (Touches.foldl (fun e g => ?_) _ _)
  exact .ite (fun _ => (touches_setMg e g _).mono rfl) fun _ => .refl _ e

/-- The link that is reset is down, the other is as it was. -/
theorem claspLinkReset_links (d : Dev) (b : Bool) :
    (d.claspLinkReset b).clasp.links = d.clasp.links.set b { up := false, reqBuf := (d.link b).reqBuf } := by
  unfold Dev.claspLinkReset
  dsimp only
  refine (congrArg Prod.fst (Touches.port (l := [.clasp]) (Touches.foldl (fun e g => ?_) _ _) rfl)).trans rfl
  exact .ite (fun _ => touches_setMg e g _) fun _ => .refl _ e

/-- The last stages of LINK_RESET: the recovery window closes, the reset is counted and logged. -/
def Dev.linkResetEnd (d : Dev) (b : Bool) : Dev :=
  let r := d.clasp.rec_
  let d := if r.isOpen && r.owner == b then { d with clasp := { d.clasp with rec_ := { r with isOpen := false } } } else d
  (d.cinc (10 + b2n b)).log 0x0D05 .transient (0x21 + b2n b) [b2n b]

theorem linkReset_eq (d : Dev) (b : Bool) :
    d.linkReset b = (((d.strandsLinkReset b).claspLinkReset b).resetIdent (1 + b2n b)).linkResetEnd b := rfl

theorem touches_linkResetEnd (d : Dev) (b : Bool) : Touches [.clasp, .loupe, .upd] d (d.linkResetEnd b) := by
  unfold Dev.linkResetEnd
  dsimp only
  refine .trans (.trans (Touches.mono (l := [.clasp]) ?_ rfl) ((touches_cinc _ _).mono rfl)) ((touches_log _ _ _ _ _).mono rfl)
  split
  · exact touches_clasp_regs d (by rfl) (by rfl)
  · exact .refl _ d

theorem linkReset_spec (d : Dev) (b : Bool) :
    DevKeeps d (d.linkReset b) [.strands, .lkt, .epochs, .loupe, .upd] ∧ ((d.linkReset b).link b).up = false ∧ ((d.linkReset b).link b).msix = {} ∧
      ((d.linkReset b).link b).credits = 0 ∧ ((d.linkReset b).link (!b)).up = (d.link (!b)).up ∧
      (d.linkReset b).epochs.get 0 (1 + b2n b) = (d.epochs.get 0 (1 + b2n b) + 1) % 256 := by
  rw [linkReset_eq]
  have h1 := touches_strandsLinkReset d b
  have h2 := touches_claspLinkReset (d.strandsLinkReset b) b
  have hl := claspLinkReset_links (d.strandsLinkReset b) b
  set e := (d.strandsLinkReset b).claspLinkReset b
  have h3 := touches_resetIdent e (1 + b2n b)
  have h4 := touches_linkResetEnd (e.resetIdent (1 + b2n b)) b
  have ht : Touches [.strands, .clasp, .out, .loupe, .upd, .port, .lkt, .epochs] d ((e.resetIdent (1 + b2n b)).linkResetEnd b) :=
    (((h1.mono rfl).trans (h2.mono rfl)).trans (h3.mono rfl)).trans (h4.mono rfl)
  have hx : ((e.resetIdent (1 + b2n b)).linkResetEnd b).link b = { up := false, reqBuf := ((d.strandsLinkReset b).link b).reqBuf } := by
    rw [h4.link _ rfl, h3.link _ rfl, Dev.link, hl, Duo.get_set_same]
  refine ⟨ht.devKeeps _ rfl, by rw [hx], by rw [hx], by rw [hx], ?_, ?_⟩
  · rw [h4.link _ rfl, h3.link _ rfl, Dev.link, hl, Duo.get_set_ne _ _ (by cases b <;> decide), ← h1.link _ rfl]; rfl
  · rw [h4.epochs rfl, resetIdent_epochs, Tab.get_upd_same, h2.epochs rfl, h1.epochs rfl]

/-- Whether the last mismatch lies less than `n` ns back. -/
def Dev.mismatchSince (d : Dev) (n : Nat) : Bool :=
  match d.clasp.mismatchAt with
  | some t => decide (d.ns < t + n)
  | none => false

/-- The Clasp that its internal reset leaves (R332). -/
def Dev.claspAfter (d : Dev) : Clasp :=
  { checking := !d.mismatchSince (10 ^ 9) && !d.clasp.fenced, mismatchAt := some d.ns, fenced := d.mismatchSince (10 ^ 9) || d.clasp.fenced }

/-- The stages of the Clasp's internal reset after the strands have lost the links. -/
def Dev.claspResetEnd (d : Dev) (again : Bool) : Dev :=
  let e := ({ d with clasp := { checking := !again && !d.clasp.fenced, mismatchAt := some d.ns, fenced := again || d.clasp.fenced } } : Dev).lktLost
  if again && !d.clasp.fenced then e.log 0x0D02 .fatal 0x20 [] else e

theorem claspReset_stages (d : Dev) :
    d.claspReset = ((d.strandsLinkReset false).strandsLinkReset true).claspResetEnd (d.mismatchSince (10 ^ 9)) := rfl

theorem claspResetEnd_eq {d e : Dev} (h : Touches [.strands, .clasp, .out, .loupe, .upd] d e) :
    Touches [.loupe, .upd] ({ e with clasp := d.claspAfter } : Dev).lktLost (e.claspResetEnd (d.mismatchSince (10 ^ 9))) := by
  unfold Dev.claspResetEnd Dev.claspAfter
  rw [← h.claspFenced rfl, ← h.ns rfl]
  exact .ite (fun _ => touches_log _ _ _ _ _) fun _ => .refl _ _

/-- The Clasp's internal reset takes the links from the strands, then the Clasp's own state and the hosts' bindings. -/
theorem claspReset_eq (d : Dev) :
    ∃ d1, Touches [.strands, .clasp, .out, .loupe, .upd] d d1 ∧
      Touches [.loupe, .upd] ({ d1 with clasp := d.claspAfter } : Dev).lktLost d.claspReset := by
  have h1 : Touches [.strands, .clasp, .out, .loupe, .upd] d ((d.strandsLinkReset false).strandsLinkReset true) :=
    (touches_strandsLinkReset d false).trans (touches_strandsLinkReset _ true)
  refine ⟨_, h1, ?_⟩
  rw [claspReset_stages]
  exact claspResetEnd_eq h1

theorem claspReset_clasp (d : Dev) : d.claspReset.clasp = d.claspAfter := by
  obtain ⟨d1, -, h⟩ := claspReset_eq d
  rw [h.clasp rfl, (touches_lktLost _).clasp rfl]

theorem claspReset_epochs (d : Dev) : d.claspReset.epochs = (d.epochs.upd 0 1 fun e => (e + 1) % 256).upd 0 2 fun e => (e + 1) % 256 := by
  obtain ⟨d1, h1, h⟩ := claspReset_eq d
  rw [h.epochs rfl, lktLost_epochs, ← (h1.epochs rfl)]

theorem touches_claspReset (d : Dev) : Touches [.strands, .clasp, .mgCfg, .out, .loupe, .upd, .port, .lkt, .epochs] d d.claspReset := by
  obtain ⟨d1, h1, h⟩ := claspReset_eq d
  exact (((h1.mono rfl).trans ((touches_clasp d1 d.claspAfter).mono rfl)).trans ((touches_lktLost _).mono rfl)).trans (h.mono rfl)

/-- A mismatch of the self-check that is under way and may end. -/
theorem claspCheck_eq {d : Dev} (clean : Bool) (hc : d.clasp.checking = true) (he : d.mismatchSince 50000 = false) :
    d.claspCheck clean = if clean then ((({ d with clasp := { d.clasp with checking := false } } : Dev).cinc 12).dflag Reg.CLASP_FLAGS 0).log 0x0D01
      .transient 0x20 [] else ({ d with clasp := { d.clasp with checking := false, fenced := true } } : Dev).log 0x0D02 .fatal 0x20 [] := by
  unfold Dev.claspCheck Dev.mismatchSince at *
  dsimp only
  rw [if_neg]
  rw [hc]
  cases h : d.clasp.mismatchAt <;> simp_all

theorem claspCheck_spec {d : Dev} (clean : Bool) (hc : d.clasp.checking = true) (he : d.mismatchSince 50000 = false) :
    DevKeeps d (d.claspCheck clean) [.loupe, .upd] ∧ (d.claspCheck clean).clasp.checking = false ∧
      (d.claspCheck clean).clasp.fenced = (d.clasp.fenced || !clean) := by
  rw [claspCheck_eq clean hc he]
  cases clean with
  | true =>
    have h1 : Touches [.clasp] ({ d with clasp := { d.clasp with checking := false } } : Dev)
        ((({ d with clasp := { d.clasp with checking := false } } : Dev).cinc 12).dflag Reg.CLASP_FLAGS 0) := (touches_cinc _ _).trans (touches_dflag _ _)
    have h2 := touches_log ((({ d with clasp := { d.clasp with checking := false } } : Dev).cinc 12).dflag Reg.CLASP_FLAGS 0) 0x0D01 .transient 0x20 []
    have ht := ((touches_clasp d { d.clasp with checking := false }).mono rfl (l' := [.clasp, .mgCfg, .port, .loupe, .upd])).trans ((h1.mono rfl).trans (h2.mono rfl))
    refine ⟨ht.devKeeps _ rfl, (h2.claspChecking rfl).trans (h1.claspChecking rfl), ?_⟩
    rw [Bool.not_true, Bool.or_false]
    exact (h2.claspFenced rfl).trans (h1.claspFenced rfl)
  | false =>
    have h2 := touches_log { d with clasp := { d.clasp with checking := false, fenced := true } } 0x0D02 .fatal 0x20 []
    have ht := ((touches_clasp d { d.clasp with checking := false, fenced := true }).mono rfl (l' := [.clasp, .mgCfg, .port, .loupe, .upd])).trans (h2.mono rfl)
    refine ⟨ht.devKeeps _ rfl, congrArg Clasp.checking (h2.clasp rfl), ?_⟩
    rw [Bool.not_false, Bool.or_true]
    exact congrArg Clasp.fenced (h2.clasp rfl)

theorem claspCheck_ignored {d : Dev} (clean : Bool) (h : d.clasp.checking = false ∨ d.mismatchSince 50000 = true) : d.claspCheck clean = d := by
  unfold Dev.claspCheck Dev.mismatchSince at *
  dsimp only
  rw [if_pos]
  cases hm : d.clasp.mismatchAt <;> simp_all

/-- Settles O18: the reset of one link, of the Clasp, and the end of the self-check. -/
theorem linkAndClaspResets : Obligations.LinkAndClaspResets := by
  unfold Obligations.LinkAndClaspResets
  intro s dt b clean d but since
  refine ⟨?_, ?_, fun hc he => ?_, fun h => ?_⟩
  · exact ends_runAt (c := .linkReset dt b) rfl (linkReset_spec d b)
  · refine ends_runAt (c := .claspInternalReset dt) rfl ?_
    have hc := claspReset_clasp d
    have he := claspReset_epochs d
    have hl (k : Bool) : (d.claspReset.link k).up = false := by rw [Dev.link, hc]; cases k <;> rfl
    have hs : since (10 ^ 9) = d.mismatchSince (10 ^ 9) := rfl
    refine ⟨(touches_claspReset d).devKeeps _ rfl, hl false, hl true, ?_, ?_, congrArg Clasp.mismatchAt hc, ?_, ?_⟩
    · rw [hs]; exact congrArg Clasp.fenced hc
    · rw [hc]; simp [Dev.claspAfter]
    · rw [he, Tab.get_upd_ne _ _ _ (by decide), Tab.get_upd_same]
    · rw [he, Tab.get_upd_same, Tab.get_upd_ne _ _ _ (by decide)]
  · exact ends_runAt (c := .claspSelfCheckDone dt clean) rfl (claspCheck_spec clean hc he)
  · refine ends_runAt (c := .claspSelfCheckDone dt clean) rfl ?_
    rw [claspCheck_ignored clean h]
    exact ⟨devKeeps_refl _ _, rfl⟩

end Sys2Proof.Machine
end

section
/-! Start: the Hallmark, the boot records and the beginning of the load phase. -/

namespace Sys2Proof.Machine

/-! ## Start: the Hallmark, the boot records and the beginning of the load phase -/

theorem touches_hm (d : Dev) (x : Hallmark) : Touches [.hm] d { d with hm := x } := fun k h => by cases k <;> simp at h <;> rfl

theorem touches_setFlash (d : Dev) (b : Bool) (x : Flash) : Touches [.flashes] d (d.setFlash b x) := fun k h => by cases k <;> simp at h <;> rfl

theorem touches_wipe (d : Dev) : Touches [.hm] d d.wipe := touches_hm d _

/-- The Hallmark after its start (R398, R401). -/
def Hallmark.started (h : Hallmark) (ns : Nat) (err : Bool) : Hallmark :=
  let x := if h.valid then { h with wiping := false, badId := h.badId || err } else { h.wiped with wipedAt := ns }
  { x with shadow := x.rollback }

theorem Dev.hmStart_eq (d : Dev) (err : Bool) :
    Touches [.hm, .loupe, .upd] d (d.hmStart err) ∧ (d.hmStart err).hm = d.hm.started d.ns err := by
  unfold Dev.hmStart
  extract_lets x y h d1 d2 d3
  have h1 : Touches [.loupe, .upd] d d1 := .ite (fun _ => touches_log _ _ _ _ _) fun _ => .refl _ d
  have h3 : Touches [.loupe, .upd] d2 d3 := .ite (fun _ => .refl _ d2) fun _ => touches_log _ _ _ _ _
  have h2 : Touches [.hm, .loupe, .upd] d d2 := (h1.mono rfl).trans ((touches_hm d1 h).mono rfl)
  have hh : d3.hm = h := h3.hm rfl
  refine ⟨(h2.trans (h3.mono rfl)).trans ((touches_hm d3 _).mono rfl), ?_⟩
  exact congrArg (fun x : Hallmark => { x with shadow := x.rollback }) hh

theorem Hallmark.started_lc (h : Hallmark) (ns : Nat) (err : Bool) : (h.started ns err).lc = h.lc := by
  unfold Hallmark.started
  cases h.valid <;> rfl

theorem Hallmark.started_tamper (h : Hallmark) (ns : Nat) (err : Bool) : (h.started ns err).tamper = h.tamper := by
  unfold Hallmark.started
  cases h.valid <;> rfl

theorem Hallmark.started_hasId (h : Hallmark) (ns : Nat) (err : Bool) : (h.started ns err).hasId = (h.hasId && !err) := by
  unfold Hallmark.started Hallmark.hasId
  cases hv : h.valid <;> simp [Hallmark.wiped]

/-- A counter that the image raises changes the counters only. -/
theorem Dev.advanceCounter_eq (d : Dev) (k v : Nat) :
    Touches [.hm, .loupe, .upd] d (d.advanceCounter k v) ∧
      ∃ r w, (d.advanceCounter k v).hm = { d.hm with rollback := r, shadow := w } := by
  unfold Dev.advanceCounter
  split
  · exact ⟨((touches_hm d _).mono rfl).trans ((touches_log _ _ _ _ _).mono rfl), _, _, (touches_log _ _ _ _ _).hm rfl⟩
  · exact ⟨.refl _ d, _, _, rfl⟩

theorem Dev.confirmCounter_eq (d : Dev) :
    Touches [.hm, .loupe, .upd] d d.confirmCounter ∧ ∃ r w, d.confirmCounter.hm = { d.hm with rollback := r, shadow := w } := by
  unfold Dev.confirmCounter
  split
  · dsimp only
    split
    · exact ⟨.refl _ d, _, _, rfl⟩
    · exact d.advanceCounter_eq _ _
  · exact ⟨.refl _ d, _, _, rfl⟩

/-- The Hallmark's start and the confirmation of the image's counter. -/
def Dev.hmReady (d : Dev) (err : Bool) : Dev := (d.hmStart err).confirmCounter

theorem Dev.hmReady_eq (d : Dev) (err : Bool) :
    Touches [.hm, .loupe, .upd] d (d.hmReady err) ∧ (d.hmReady err).hm.lc = d.hm.lc ∧ (d.hmReady err).hm.tamper = d.hm.tamper ∧
      (d.hmReady err).hm.hasId = (d.hm.hasId && !err) := by
  obtain ⟨h1, e1⟩ := d.hmStart_eq err
  obtain ⟨h2, r, w, e2⟩ := (d.hmStart err).confirmCounter_eq
  refine ⟨h1.trans h2, ?_, ?_, ?_⟩ <;> rw [Dev.hmReady, e2, e1]
  · exact d.hm.started_lc _ _
  · exact d.hm.started_tamper _ _
  · exact d.hm.started_hasId _ _

/-! ### The mode that a start leads to -/

theorem Dev.mode_of_modeKey {e : Dev} {k : ModeKey} (h : e.modeKey = k) : e.mode = k.mode := congrArg ModeKey.mode h

theorem Dev.por_of_modeKey {e : Dev} {k : ModeKey} (h : e.modeKey = k) : e.por = k.por := congrArg ModeKey.por h

theorem toRecovery_modeKey (d : Dev) : d.toRecovery.modeKey = { d.modeKey with mode := 1 } := by
  unfold Dev.toRecovery
  simp only [Dev.modeKey_mk, ModeKey.of_fields]
  exact (Dev.foldl_modeKey (fun e i => by split <;> simp) _ _).trans (d.setMode_modeKey 1)

theorem toRecovery_mode (d : Dev) : d.toRecovery.mode = 1 := by
  have h := Dev.mode_of_modeKey (toRecovery_modeKey d)
  exact h

/-- Strands that are OFF stay as they are. -/
theorem foldl_cold_off {d : Dev} (h : ∀ i, d.phase i = .off) (l : List StrandId) :
    l.foldl (fun (e : Dev) i => if e.phase i = .off then e else e.strandCold i) d = d := by
  induction l with
  | nil => rfl
  | cons i l ih => rw [List.foldl_cons, if_pos (h i), ih]

theorem toRecovery_off {d : Dev} (h : ∀ i, d.phase i = .off) : Touches [.mode, .clasp, .loupe, .upd] d d.toRecovery := by
  unfold Dev.toRecovery
  dsimp only
  rw [foldl_cold_off fun i => ((touches_setMode d 1).phase i rfl).trans (h i)]
  exact ((touches_setMode d 1).mono rfl).trans ((touches_loupe_own _ (by rfl)).mono rfl)

theorem tryT6_mode (d : Dev) : d.tryT6.mode = 3 ∨ d.tryT6.mode = d.mode := by
  unfold Dev.tryT6
  split
  · exact .inl (d.setMode_mode 3)
  · exact .inr rfl

theorem readConfig_mode (d : Dev) (c : CfgDev) :
    ((d.readConfig c).mode = 2 ∨ (d.readConfig c).mode = 3) ∧ (d.readConfig c).por = d.por := by
  unfold Dev.readConfig
  extract_lets c' l u d1 d2
  have hk : (if d1.loupe.firmware then d1.logLate else d1).modeKey = d1.modeKey := by simp [apply_ite Dev.modeKey]
  have h2 : d2.mode = 2 := Dev.setMode_mode _ 2
  have hp : d2.por = d.por := (Dev.setMode_por _ 2).trans (congrArg ModeKey.por hk)
  clear_value d2
  split
  · have h3 : (allStrands.foldl (fun (e : Dev) i => e.fence i 13 0x0116) (d2.log 0x130B .lasting 0 [])).modeKey = d2.modeKey :=
      (Dev.foldl_modeKey (fun _ _ => Dev.fence_modeKey _ _ _ _) _ _).trans (Dev.log_modeKey _ _ _ _ _)
    exact ⟨.inl ((congrArg ModeKey.mode h3).trans h2), (congrArg ModeKey.por h3).trans hp⟩
  · have h3 : (allStrands.foldl (fun (e : Dev) i => if e.phase i = .off || bitN c'.strands i.val then e else e.strandCold i) d2).modeKey = d2.modeKey :=
      Dev.foldl_modeKey (fun e i => by split <;> simp) _ _
    exact ⟨(tryT6_mode _).symm.imp_left fun h => h.trans ((congrArg ModeKey.mode h3).trans h2), (Dev.tryT6_por _).trans ((congrArg ModeKey.por h3).trans hp)⟩

/-- A device in MD1, MD2 or MD3, with which the load phase begins. -/
def InStart (d e : Dev) : Prop := (e.mode = 1 ∨ e.mode = 2 ∨ e.mode = 3) ∧ e.por = d.por

/-- The load phase begins with MD1, MD2 or MD3 (R44). -/
theorem inStart_readConfig {d e : Dev} (n : Nat) (c : CfgDev) (h : e.por = d.por) : InStart d ((e.readTwice n).readConfig c) := by
  have hc := readConfig_mode (e.readTwice n) c
  exact ⟨.inr hc.1, hc.2.trans ((congrArg ModeKey.por (Dev.readTwice_modeKey e n)).trans h)⟩

theorem inStart_toRecovery {d e : Dev} (h : e.por = d.por) : InStart d e.toRecovery := by
  have hk := toRecovery_modeKey e
  exact ⟨.inl (Dev.mode_of_modeKey hk), (Dev.por_of_modeKey hk).trans h⟩

theorem inStart_ite {c : Prop} [Decidable c] {d e g : Dev} (ht : InStart d e) (hf : InStart d g) : InStart d (if c then e else g) := by
  split
  · exact ht
  · exact hf

theorem beginLoad_start (d : Dev) (s : StartIn) : InStart d (d.beginLoad s) := by
  have hp : (d.select s).2.por = d.por := congrArg ModeKey.por (d.select_modeKey s)
  unfold Dev.beginLoad
  exact inStart_ite (inStart_readConfig _ _ hp) (inStart_toRecovery hp)

end Sys2Proof.Machine
end

section
/-! The end of POR. -/

namespace Sys2Proof.Machine

/-! ## The end of POR -/

/-- The device at the end of POR once the flashes have answered or not and the wear record is taken over (R456, R490). -/
def Dev.porUp (d : Dev) (fa fb : Option Nat) : Dev :=
  ((({ d with por := false, hm := { d.hm with roseAt := d.ns } } : Dev).flashUp false fa).flashUp true fb).takeWear

/-- The wipe on a tamper latch, outside a test (R402). -/
def Dev.tamperWipe (d : Dev) (test : Bool) : Dev := if d.hm.tamper != 0 && !test then d.wipe.log 0x1010 .fatal 0x40 [d.hm.tamper] else d

/-- Whether TEST_EN is taken in this life cycle (R46). -/
def Dev.testTaken (d : Dev) (te : Bool) : Bool := te && (d.hm.lc = 0 || d.hm.lc = 2)

/-- The first transition whose condition holds (R44). -/
def Dev.porGoes (d : Dev) (test rn : Bool) (s : StartIn) : Dev :=
  if test then d.setMode 11
  else if d.hm.tamper != 0 then d.setMode 10
  else if (d.hm.lc = 1 || d.hm.lc = 2) && !d.hm.hasId then d.setMode 10
  else if !rn then d.toRecovery
  else d.beginLoad s

theorem porEnd_eq {d : Dev} (hp : d.por = true) (te rn : Bool) (fa fb : Option Nat) (s : StartIn) :
    d.porEnd te rn fa fb s =
      (((d.porUp fa fb).tamperWipe ((d.porUp fa fb).testTaken te)).hmReady s.hmErr).porGoes ((d.porUp fa fb).testTaken te) rn s := by
  unfold Dev.porEnd
  rw [hp]
  rfl

theorem touches_flashFail (d : Dev) (b : Bool) : Touches [.flashes, .loupe, .upd] d (d.flashFail b) :=
  .ite (fun _ => .refl _ d) fun _ =>
    (((touches_setFlash d b _).mono rfl).trans ((touches_uflag _ _).mono rfl)).trans ((touches_log _ _ _ _ _).mono rfl)

theorem touches_flashUp (d : Dev) (b : Bool) (n : Option Nat) : Touches [.flashes, .loupe, .upd] d (d.flashUp b n) := by
  unfold Dev.flashUp
  split
  · exact (touches_setFlash d b _).mono rfl
  · exact touches_flashFail d b

theorem touches_takeWear (d : Dev) : Touches [.loupe] d d.takeWear := by
  unfold Dev.takeWear
  refine touches_loupe_own d ?_
  cases d.wearFound <;> rfl

/-- What the power-up of the flashes leaves. -/
theorem porUp_eq (d : Dev) (fa fb : Option Nat) :
    Touches [.por, .hm, .flashes, .loupe, .upd] d (d.porUp fa fb) ∧ (d.porUp fa fb).por = false ∧ (d.porUp fa fb).hm = { d.hm with roseAt := d.ns } := by
  have h : Touches [.flashes, .loupe, .upd] ({ d with por := false, hm := { d.hm with roseAt := d.ns } } : Dev) (d.porUp fa fb) :=
    ((touches_flashUp _ false fa).trans (touches_flashUp _ true fb)).trans ((touches_takeWear _).mono rfl)
  have h0 : Touches [.por, .hm] d { d with por := false, hm := { d.hm with roseAt := d.ns } } := fun k hk => by cases k <;> simp at hk <;> rfl
  exact ⟨(h0.mono rfl).trans (h.mono rfl), h.por rfl, h.hm rfl⟩

/-! ### No flash that answers -/

theorem Touches.flashes {l : List DevField} {d e : Dev} (h : Touches l d e) (hl : l.contains .flashes = false) : e.flashes = d.flashes :=
  h.same_at .flashes hl

theorem flashFail_flashes (d : Dev) (b : Bool) : (d.flashFail b).flashes = d.flashes.set b { d.flash b with fail := true } := by
  unfold Dev.flashFail
  dsimp only
  split
  · next h =>
    have hx : { d.flash b with fail := true } = d.flash b := by rw [← h]
    rw [hx, Dev.flash]
    cases b <;> rfl
  · exact (((touches_uflag _ 0).mono rfl).trans (touches_log _ _ _ _ _)).flashes rfl

/-- With both flashes failed no boot record is found. -/
theorem porUp_noFlash (d : Dev) : (d.porUp none none).bootFound = none := by
  have h : (d.porUp none none).flashes = ⟨{ d.flashes.a with fail := true }, { d.flashes.b with fail := true }⟩ :=
    ((touches_takeWear _).flashes rfl).trans ((flashFail_flashes _ true).trans
      (congrArg (fun f : Duo Flash => f.set true { f.get true with fail := true }) (flashFail_flashes _ false)))
  unfold Dev.bootFound Flash.record Flash.works
  rw [h]
  simp

/-- Without a boot record the device goes to recovery (R44). -/
theorem beginLoad_noBoot {d : Dev} (s : StartIn) (h : d.bootFound = none) :
    d.beginLoad s = ({ d with upd := { d.upd with boot := {}, bootOk := false } } : Dev).toRecovery := by
  have hs : d.select s = (false, { d with upd := { d.upd with boot := {}, bootOk := false } }) := by
    unfold Dev.select
    rw [h]
  unfold Dev.beginLoad
  rw [hs]
  exact if_neg Bool.false_ne_true

/-! ### What the transitions leave -/

theorem tamperWipe_eq (d : Dev) (test : Bool) :
    Touches [.hm, .loupe, .upd] d (d.tamperWipe test) ∧ (d.tamperWipe test).hm.lc = d.hm.lc ∧ (d.tamperWipe test).hm.tamper = d.hm.tamper := by
  unfold Dev.tamperWipe
  split
  · have h := touches_log d.wipe 0x1010 .fatal 0x40 [d.hm.tamper]
    exact ⟨((touches_wipe d).mono rfl).trans (h.mono rfl), (congrArg Hallmark.lc (h.hm rfl)).trans rfl, (congrArg Hallmark.tamper (h.hm rfl)).trans rfl⟩
  · exact ⟨.refl _ d, rfl, rfl⟩

/-- What the transitions at the end of POR keep: they leave POR, the life cycle and the supervisors. -/
def PorLeft (d e : Dev) : Prop := e.por = false ∧ e.hm.lc = d.hm.lc ∧ e.sup = d.sup

theorem porLeft_setMode {d : Dev} (hp : d.por = false) (m : Nat) : PorLeft d (d.setMode m) :=
  ⟨(d.setMode_por m).trans hp, congrArg Hallmark.lc ((touches_setMode d m).hm rfl), (touches_setMode d m).sup rfl⟩

theorem porLeft_toRecovery {d e : Dev} (hp : e.por = false) (hh : e.hm = d.hm) (hs : e.sup = d.sup) (ho : ∀ i, d.phase i = .off) :
    PorLeft d e.toRecovery :=
  have h := toRecovery_off (d := e) fun i => (congrArg (fun q : Quad SupSt => (q.get i).phase) hs).trans (ho i)
  ⟨(h.por rfl).trans hp, congrArg Hallmark.lc ((h.hm rfl).trans hh), (h.sup rfl).trans hs⟩

/-- The device before the first transition out of POR. -/
def Dev.porReady (d : Dev) (te : Bool) (fa fb : Option Nat) (err : Bool) : Dev :=
  ((d.porUp fa fb).tamperWipe ((d.porUp fa fb).testTaken te)).hmReady err

theorem porReady_eq (d : Dev) (te : Bool) (fa fb : Option Nat) (err : Bool) :
    (d.porReady te fa fb err).por = false ∧ (d.porReady te fa fb err).hm.lc = d.hm.lc ∧ (d.porReady te fa fb err).hm.tamper = d.hm.tamper ∧
      (d.porReady te fa fb err).sup = d.sup ∧ (d.porReady te fa fb err).flashes = (d.porUp fa fb).flashes ∧
      (d.hm.tamper = 0 ∨ d.testTaken te = true → (d.porReady te fa fb err).hm.hasId = (d.hm.hasId && !err)) := by
  obtain ⟨h1, hp, hh⟩ := porUp_eq d fa fb
  have ht : (d.porUp fa fb).testTaken te = d.testTaken te := by unfold Dev.testTaken; rw [hh]
  unfold Dev.porReady
  rw [ht]
  obtain ⟨h2, hl, hta⟩ := tamperWipe_eq (d.porUp fa fb) (d.testTaken te)
  obtain ⟨h3, hl3, ht3, hi⟩ := Dev.hmReady_eq ((d.porUp fa fb).tamperWipe (d.testTaken te)) err
  have h := h2.trans h3
  refine ⟨(h.por rfl).trans hp, ?_, ?_, (h.sup rfl).trans (h1.sup rfl), h.flashes rfl, fun hk => ?_⟩
  · rw [hl3, hl, hh]
  · rw [ht3, hta, hh]
  · have hw : (d.porUp fa fb).tamperWipe (d.testTaken te) = d.porUp fa fb := if_neg (by rw [hh]; rcases hk with hk | hk <;> simp [hk])
    rw [hi, hw, hh]
    rfl

theorem testTaken_iff (d : Dev) (te : Bool) : d.testTaken te = true ↔ te = true ∧ (d.hm.lc = 0 ∨ d.hm.lc = 2) := by
  simp [Dev.testTaken]

/-- Settles O16: POR clause by clause, and each transition at its end. -/
theorem powerOn : Obligations.PowerOn := by
  unfold Obligations.PowerOn
  intro s dt te rn fa fb st d
  refine ⟨ends_runAt (c := .por dt) rfl ⟨rfl, rfl, rfl, rfl, rfl, rfl, rfl, rfl, fun i => ?_, rfl, rfl, rfl, rfl, rfl⟩, fun hp ho => ?_⟩
  · fin_cases i <;> exact ⟨rfl, rfl⟩
  intro lc noId goes
  obtain ⟨hpor, hlc, hta, hsup, hfl, hid⟩ := porReady_eq d te fa fb st.hmErr
  have hend : d.porEnd te rn fa fb st = (d.porReady te fa fb st.hmErr).porGoes (d.testTaken te) rn st := by
    rw [porEnd_eq hp, Dev.porReady, Dev.testTaken, Dev.testTaken, (porUp_eq d fa fb).2.2]
  set e := d.porReady te fa fb st.hmErr
  have hoff (i : StrandId) : e.phase i = .off := (congrArg (fun q : Quad SupSt => (q.get i).phase) hsup).trans (ho i)
  have hgo {m : Nat} {x : Dev} (hx : e.porGoes (d.testTaken te) rn st = x) (hm : x.mode = m) (hl : PorLeft e x) : goes (· = m) := by
    refine ends_runAt (c := .porEnd dt te rn fa fb st) rfl ?_
    rw [← hx, ← hend] at hm hl
    obtain ⟨h1, h2, h3⟩ := hl
    exact ⟨hm, h1, h2.trans hlc, h3.trans hsup⟩
  by_cases ht : d.testTaken te = true
  · rw [if_pos ((testTaken_iff d te).1 ht)]
    exact hgo (if_pos ht) (e.setMode_mode 11) (porLeft_setMode hpor 11)
  rw [if_neg fun h => ht ((testTaken_iff d te).2 h)]
  by_cases hw : d.hm.tamper = 0
  swap
  · rw [if_pos hw]
    refine hgo ((if_neg ht).trans (if_pos ?_)) (e.setMode_mode 10) (porLeft_setMode hpor 10)
    rw [hta]; simpa using hw
  rw [if_neg (not_not.2 hw)]
  have hw' : ¬(e.hm.tamper != 0) = true := by rw [hta]; simpa using hw
  have hn : ((e.hm.lc = 1 || e.hm.lc = 2) && !e.hm.hasId) = true ↔ (lc = 1 ∨ lc = 2) ∧ noId = true := by
    rw [hid (.inl hw), hlc]
    simp [noId, Hallmark.hasId, lc]
  by_cases hno : (lc = 1 ∨ lc = 2) ∧ noId = true
  · rw [if_pos hno]
    exact hgo ((if_neg ht).trans ((if_neg hw').trans (if_pos (hn.2 hno)))) (e.setMode_mode 10) (porLeft_setMode hpor 10)
  rw [if_neg hno]
  have hgoes : e.porGoes (d.testTaken te) rn st = if !rn then e.toRecovery else e.beginLoad st :=
    (if_neg ht).trans ((if_neg hw').trans (if_neg fun h => hno (hn.1 h)))
  by_cases hr : rn = false
  · rw [if_pos (.inl hr)]
    exact hgo (hgoes.trans (if_pos (by simp [hr]))) (toRecovery_mode e) (porLeft_toRecovery hpor rfl rfl hoff)
  have hload : e.porGoes (d.testTaken te) rn st = e.beginLoad st := hgoes.trans (if_neg (by simpa using hr))
  by_cases hf : fa = none ∧ fb = none
  · rw [if_pos (.inr hf)]
    obtain ⟨rfl, rfl⟩ := hf
    have hb : e.bootFound = none := by
      have h0 := porUp_noFlash d
      unfold Dev.bootFound at h0 ⊢
      rwa [hfl]
    have hl := hload.trans (beginLoad_noBoot st hb)
    exact hgo hl (toRecovery_mode _) (porLeft_toRecovery hpor rfl rfl hoff)
  · rw [if_neg (by simp [hr, hf])]
    refine ends_runAt (c := .porEnd dt te rn fa fb st) rfl ?_
    obtain ⟨hm, hq⟩ := beginLoad_start e st
    rw [hend, hload]
    exact ⟨hm, hq.trans hpor⟩

end Sys2Proof.Machine
end

section
/-! LOUPE_RESET. -/

namespace Sys2Proof.Machine

/-! ## LOUPE_RESET -/

theorem touches_flushOne (d : Dev) (b : Bool) (rs : List LogRec) (n : Nat) : Touches [.flashes, .loupe, .upd] d (d.flushOne b rs n) := by
  unfold Dev.flushOne
  dsimp only
  refine .ite (fun _ => .refl _ d) fun _ => .ite (fun _ => ?_) fun _ => ?_
  · exact (((touches_setFlash d b _).mono rfl).trans (Touches.mono (l := [.loupe]) (touches_lflag _ _ _) rfl)).trans ((touches_log _ _ _ _ _).mono rfl)
  · have h := (touches_setFlash d b { d.flash b with log := logAppend (d.flash b).log rs }).mono (l' := [.flashes, .loupe, .upd]) rfl
    exact .ite (fun _ => h.trans ((touches_log _ _ _ _ _).mono rfl)) fun _ => h

theorem touches_logFlush (d : Dev) (a b : Nat) : Touches [.flashes, .loupe, .upd] d (d.logFlush a b) := by
  unfold Dev.logFlush
  extract_lets l rs lost d1 d2
  refine .ite (fun _ => .refl _ d) fun _ => ?_
  have h1 : Touches [.flashes, .loupe, .upd] d d1 := Touches.mono (l := [.loupe]) (touches_loupe_own d (by rfl)) rfl
  have h2 : Touches [.flashes, .loupe, .upd] d d2 := (h1.trans (touches_flushOne d1 false rs a)).trans (touches_flushOne _ true rs b)
  exact .ite (fun _ => h2.trans ((touches_log _ _ _ _ _).mono rfl)) fun _ => h2

theorem noExch_setExchange (d : Dev) (i j : StrandId) (x : Option Exchange) : noExch ((d.setExchange i x).strand j) = noExch (d.strand j) := by
  unfold Dev.setExchange Dev.strand
  by_cases h : j = i
  · subst h; simp only [Quad.get_set_same]; rfl
  · simp only [Quad.get_set_ne _ _ h]

/-- The exchange banks lose their responses and nothing else of a strand changes (R428). -/
theorem noExch_exchangeLost (d : Dev) (j : StrandId) : noExch (d.exchangeLost.strand j) = noExch (d.strand j) := by
  unfold Dev.exchangeLost
  induction allStrands generalizing d with
  | nil => rfl
  | cons i l ih =>
    rw [List.foldl_cons, ih]
    split
    · rfl
    · exact noExch_setExchange _ _ _ _

/-- What LOUPE_RESET with cause `k` leaves of the Loupe and of the strands (R428). -/
structure LoupeCleared (d e : Dev) (k : Nat) : Prop where
  sram : e.loupe.sram = []
  kept : e.loupe.kept = []
  nonce : e.loupe.nonce = none
  lastReset : e.loupe.lastReset = k
  strands : ∀ i, noExch (e.strand i) = noExch (d.strand i)

theorem LoupeCleared.of_own {d e : Dev} {k : Nat} {l : Loupe} (h : e.loupe.own = l.own) (hl : l.sram = [] ∧ l.kept = [] ∧ l.nonce = none ∧ l.lastReset = k)
    (hs : ∀ i, noExch (e.strand i) = noExch (d.strand i)) : LoupeCleared d e k := by
  simp only [Loupe.own, LoupeOwn.mk.injEq] at h
  obtain ⟨h1, -, h4, h5, h6, -, -⟩ := h
  obtain ⟨g1, g2, g3, g4⟩ := hl
  exact ⟨h1.trans g1, h5.trans g2, h6.trans g3, h4.trans g4, hs⟩

/-- What a LOUPE_RESET does in the load phase after clearing the Loupe (R44, R428). -/
def Dev.loadAgain (d : Dev) (safe : Bool) : Dev :=
  let e := allStrands.foldl (fun (e : Dev) i => if e.phase i = .loading then e.loupeCold i else e) (d.setMode 2)
  if safe then e else e.tryT6

/-- LOUPE_RESET clears the Loupe, and begins the load phase again where the device is in it. -/
theorem loupeReset_stages {d : Dev} (c : Nat) (hp : d.por = false) (h0 : d.mode ≠ 0) :
    ∃ f safe, Touches [.strands, .lkt, .epochs, .loupe, .own, .upd] d f ∧ LoupeCleared d f c ∧
      d.loupeReset c = if d.mode = 2 ∨ d.mode = 3 then f.loadAgain safe else f := by
  unfold Dev.loupeReset
  rw [if_neg (by simp [hp, h0])]
  extract_lets l ends recent counted safe entered l' d1 d2 d3 d4 d5 d6 d7
  have hl : l'.sram = [] ∧ l'.kept = [] ∧ l'.nonce = none ∧ l'.lastReset = c := ⟨rfl, rfl, rfl, rfl⟩
  have ha : Touches [.loupe, .own] d { d with loupe := l' } := touches_loupe d l'
  have hb : Touches [.loupe, .upd] { d with loupe := l' } (({ d with loupe := l' } : Dev).linc 7).disarm :=
    ((touches_linc _ 7).mono rfl).trans ((touches_disarm _).mono rfl)
  have hc := touches_exchangeLost (({ d with loupe := l' } : Dev).linc 7).disarm
  have hn := noExch_exchangeLost (({ d with loupe := l' } : Dev).linc 7).disarm
  have g1 : Touches [.lkt, .epochs, .loupe, .upd] (({ d with loupe := l' } : Dev).linc 7).disarm.exchangeLost d1 := (touches_resetIdent _ 0).mono rfl
  have g2 : Touches [.lkt, .epochs, .loupe, .upd] d1 d2 := (touches_log d1 _ _ _ _).mono rfl
  have g3 : Touches [.lkt, .epochs, .loupe, .upd] d2 d3 := .ite (fun _ => (touches_log d2 _ _ _ _).mono rfl) fun _ => .refl _ d2
  have g4 : Touches [.lkt, .epochs, .loupe, .upd] d3 d4 := (touches_trialFail d3).mono rfl
  have g5 : Touches [.lkt, .epochs, .loupe, .upd] d4 d5 := .ite (fun _ => (touches_logLate d4).mono rfl) fun _ => .refl _ d4
  have g6 : Touches [.lkt, .epochs, .loupe, .upd] d4 d6 := .ite (fun _ => .refl _ d4) fun _ => g5.trans
    (.foldl (fun e i => .ite (fun _ => .refl _ e) fun _ => (touches_logCauses e i).mono rfl) _ d5)
  have g : Touches [.lkt, .epochs, .loupe, .upd] (({ d with loupe := l' } : Dev).linc 7).disarm.exchangeLost d6 := (((g1.trans g2).trans g3).trans g4).trans g6
  have ht : Touches [.strands, .lkt, .epochs, .loupe, .own, .upd] d d6 := (((ha.mono rfl).trans (hb.mono rfl)).trans (hc.mono rfl)).trans (g.mono rfl)
  have hm : d6.mode = d.mode := ht.mode rfl
  refine ⟨d6, safe, ht, .of_own (l := l') (((g.own rfl).trans (hc.own rfl)).trans (hb.own rfl)) hl fun i => ?_, ?_⟩
  · rw [g.strand i rfl, hn, hb.strand i rfl]
    rfl
  · have hcond : ((decide (d6.mode = 2) || decide (d6.mode = 3)) = true) ↔ (d.mode = 2 ∨ d.mode = 3) := by simp [hm]
    by_cases hx : d.mode = 2 ∨ d.mode = 3
    · rw [if_pos (hcond.2 hx), if_pos hx]; rfl
    · rw [if_neg (mt hcond.1 hx), if_neg hx]

/-- LOUPE_RESET outside the load phase. -/
theorem loupeReset_cleared {d : Dev} (c : Nat) (hp : d.por = false) (h0 : d.mode ≠ 0) (h2 : d.mode ≠ 2) (h3 : d.mode ≠ 3) :
    Touches [.strands, .lkt, .epochs, .loupe, .own, .upd] d (d.loupeReset c) ∧ LoupeCleared d (d.loupeReset c) c := by
  obtain ⟨f, safe, ht, hs, he⟩ := loupeReset_stages c hp h0
  rw [he, if_neg (by simp [h2, h3])]
  exact ⟨ht, hs⟩

/-- A LOUPE_RESET after operations that leave the mode and the strands. -/
theorem loupeReset_after {d e : Dev} (c : Nat) {l : List DevField} (h : Touches l d e) (hl : l.contains .por = false ∧ l.contains .mode = false ∧ l.contains .strands = false)
    (hp : d.por = false) (h0 : d.mode ≠ 0) (h2 : d.mode ≠ 2) (h3 : d.mode ≠ 3) :
    Touches [.strands, .lkt, .epochs, .loupe, .own, .upd] e (e.loupeReset c) ∧ LoupeCleared d (e.loupeReset c) c := by
  obtain ⟨l1, l2, l3⟩ := hl
  have hm := h.mode l2
  obtain ⟨ht, hs⟩ := loupeReset_cleared (d := e) c ((h.por l1).trans hp) (by rwa [hm]) (by rwa [hm]) (by rwa [hm])
  exact ⟨ht, hs.sram, hs.kept, hs.nonce, hs.lastReset, fun i => (hs.strands i).trans (by rw [h.strand i l3])⟩

/-! ### The lockstep mismatch -/

/-- A fold over the strands each step of which changes the supervisor of its strand alone. -/
theorem foldl_supOf {f : Dev → StrandId → Dev} {g : SupSt → SupSt}
    (h : ∀ e i j, (f e i).supOf j = if j = i then g (e.supOf i) else e.supOf j) (d : Dev) (j : StrandId) :
    (allStrands.foldl f d).supOf j = g (d.supOf j) := by
  fin_cases j <;> simp [allStrands, h]

/-- A supervisor whose FENCE_IN_AUTO a lockstep mismatch takes (R31). -/
def SupSt.lockstepped (s : SupSt) : SupSt :=
  if bitOf s.ctl 4 && (s.phase = .run || s.phase = .hold) then { s with fenceIn := true, cause := setBit s.cause 1 true } else s

/-- The inward fences that a lockstep mismatch sets. -/
def Dev.lockstepFences (d : Dev) : Dev := allStrands.foldl (fun e i => if bitOf (e.supOf i).ctl 4 then e.fenceInSet i 1 else e) d

theorem lockstepFence_sup (d : Dev) (i : StrandId) :
    (if bitOf (d.supOf i).ctl 4 then d.fenceInSet i 1 else d).sup = d.sup.set i (d.supOf i).lockstepped := by
  have hkeep : d.sup = d.sup.set i (d.supOf i) := (Quad.set_get _ _).symm
  have ha : ((d.supOf i).phase = .run || (d.supOf i).phase = .hold) = true ↔ Active d i := by simp [Active, Dev.phase]
  unfold SupSt.lockstepped
  by_cases hc : bitOf (d.supOf i).ctl 4 = true
  · rw [if_pos hc, hc, Bool.true_and]
    by_cases h : Active d i
    · rw [if_pos (ha.2 h), fenceInSet_sup h]
    · rw [if_neg (mt ha.1 h), show d.fenceInSet i 1 = d from if_neg (mt ha.1 h), ← hkeep]
  · rw [if_neg hc, if_neg (by simp [hc]), ← hkeep]

theorem supOf_lockstepFences (d : Dev) (j : StrandId) : d.lockstepFences.supOf j = (d.supOf j).lockstepped := by
  refine foldl_supOf (fun e i j => ?_) d j
  rw [Dev.supOf, lockstepFence_sup]
  split
  · next h => rw [h, Quad.get_set_same]
  · next h => exact Quad.get_set_ne _ _ h

theorem touches_lockstepFences (d : Dev) : Touches [.sup] d d.lockstepFences :=
  .foldl (fun e i => .ite (fun _ => touches_fenceInSet e i 1) fun _ => .refl _ e) _ d

theorem lockstep_eq {d : Dev} (hp : d.por = false) (h0 : d.mode ≠ 0) : d.lockstep = d.lockstepFences.loupeReset 1 := by
  unfold Dev.lockstep
  exact if_neg (by simp [hp, h0])

/-- Settles O19: each cause performs one LOUPE_RESET, the command after a flush of the log, the mismatch after the fences. -/
theorem loupeResets : Obligations.LoupeResets := by
  unfold Obligations.LoupeResets
  intro s dt c d but cleared hp h0 h2 h3
  have hcl {e : Dev} {k : Nat} (h : LoupeCleared d e k) : cleared e k := ⟨h.sram, h.kept, h.nonce, h.lastReset, h.strands⟩
  refine ⟨ends_runAt (c := .loupeReset dt c) rfl ?_, ends_runAt (c := .loupeWdogExpiry dt) rfl ?_, ends_runAt (c := .lockstepMismatch dt) rfl ?_⟩
  · unfold Dev.loupeResetBy
    split
    · next hc =>
      subst hc
      have hf := touches_logFlush d 0 0
      obtain ⟨ht, hs⟩ := loupeReset_after 3 hf ⟨rfl, rfl, rfl⟩ hp h0 h2 h3
      have hk : Touches [.flashes, .strands, .lkt, .epochs, .loupe, .own, .upd] d d.resetCommand := (hf.mono rfl).trans (ht.mono rfl)
      exact ⟨hk.devKeeps _ rfl, hcl hs⟩
    · obtain ⟨ht, hs⟩ := loupeReset_cleared (d := d) (c.val + 1) hp h0 h2 h3
      exact ⟨ht.devKeeps _ rfl, hcl hs⟩
  · obtain ⟨ht, hs⟩ := loupeReset_cleared (d := d) 2 hp h0 h2 h3
    exact ⟨ht.devKeeps _ rfl, hcl hs⟩
  · have hf := touches_lockstepFences d
    obtain ⟨ht, hs⟩ := loupeReset_after 1 hf ⟨rfl, rfl, rfl⟩ hp h0 h2 h3
    have hk : Touches [.sup, .strands, .lkt, .epochs, .loupe, .own, .upd] d (d.lockstepFences.loupeReset 1) := (hf.mono rfl).trans (ht.mono rfl)
    rw [lockstep_eq hp h0]
    refine ⟨hk.devKeeps _ rfl, hcl hs, fun i => ?_⟩
    rw [ht.supOf i rfl, supOf_lockstepFences]
    rfl

end Sys2Proof.Machine
end

section
/-! The migration. -/

namespace Sys2Proof.Machine

/-! ## What follows a command neither starts nor ends the run of the device -/

/-- Both devices are in a mode from MD4 on, or neither is. -/
def SameSide (d e : Dev) : Prop := 4 ≤ e.mode ↔ 4 ≤ d.mode

theorem SameSide.of_modeKey {d e : Dev} (h : e.modeKey = d.modeKey) : SameSide d e := by
  rw [SameSide, Dev.mode_of_modeKey h]
  rfl

theorem SameSide.trans {d e g : Dev} (h : SameSide d e) (h' : SameSide e g) : SameSide d g := Iff.trans h' h

theorem SameSide.ite {c : Prop} [Decidable c] {d e g : Dev} (ht : c → SameSide d e) (hf : ¬c → SameSide d g) : SameSide d (if c then e else g) := by
  split
  · exact ht ‹_›
  · exact hf ‹_›

theorem SameSide.refl (d : Dev) : SameSide d d := Iff.rfl

theorem SameSide.foldl {α : Type} {f : Dev → α → Dev} (hf : ∀ e a, SameSide e (f e a)) (l : List α) (d : Dev) : SameSide d (l.foldl f d) := by
  induction l generalizing d with
  | nil => exact .refl d
  | cons a l ih => exact (hf d a).trans (ih _)

theorem sameSide_setMode {d : Dev} {m : Nat} (hd : 4 ≤ d.mode) (hm : 4 ≤ m) : SameSide d (d.setMode m) := by
  rw [SameSide, d.setMode_mode]
  exact iff_of_true hm hd

theorem sameSide_enterHold (d : Dev) (w : HoldBy) : SameSide d (d.enterHold w) := by
  unfold Dev.enterHold
  refine .ite (fun _ => .refl d) fun h => ?_
  have h4 : 4 ≤ d.mode := by simp [Dev.inBase] at h; omega
  exact .trans (sameSide_setMode (d := { d with holdBy := some w, holdFrom := d.mode }) h4 (by omega))
    (.foldl (fun e i => .of_modeKey (e.toHold_modeKey i)) _ _)

theorem sameSide_afterFence (d : Dev) : SameSide d d.afterFence := by
  have h8 : SameSide d (if d.inBase then d.setMode 8 else d) :=
    .ite (fun (h : d.inBase = true) => sameSide_setMode (by simp [Dev.inBase] at h; omega) (by omega)) fun _ => .refl d
  exact .ite (fun _ => h8.trans (sameSide_enterHold _ _)) fun _ => h8

theorem sameSide_fenceOut (d : Dev) (i : StrandId) (b c : Nat) : SameSide d (d.fenceOut i b c) := by
  have h : SameSide d (if d.phase i = .fenced then d else d.unReset i) := .of_modeKey (by split <;> simp)
  unfold Dev.fenceOut
  dsimp only
  split
  · exact h
  · exact h
  · exact h.trans ((SameSide.of_modeKey (Dev.fence_modeKey _ _ _ _)).trans (sameSide_afterFence _))

theorem sameSide_fenceTrigger (d : Dev) (i : StrandId) (b c : Nat) : SameSide d (d.fenceTrigger i b c) :=
  .ite (fun _ => sameSide_fenceOut d i _ _) fun _ => .refl d

theorem sameSide_wdogExpiry (d : Dev) (i : StrandId) : SameSide d (d.wdogExpiry i) := by
  unfold Dev.wdogExpiry
  extract_lets again now l
  refine .ite (fun _ => .refl d) fun _ => .ite (fun _ => .ite (fun _ => sameSide_fenceOut d i _ _) fun _ => ?_) fun _ => ?_
  · exact .of_modeKey (by simp)
  · exact .of_modeKey (by simp [l])

theorem sameSide_wdogWatch (d : Dev) (i : StrandId) : SameSide d (d.wdogWatch i) := by
  unfold Dev.wdogWatch Dev.coreWdog
  exact .ite (fun _ => .ite (fun _ => .refl d) fun _ => sameSide_wdogExpiry d i) fun _ => .refl d

theorem sameSide_bankWatch (d : Dev) (i : StrandId) : SameSide d (d.bankWatch i) := by
  unfold Dev.bankWatch
  extract_lets b x d1 d2 d3
  have h3 : SameSide d d3 := .of_modeKey (by simp [d3, d2, d1, apply_ite Dev.modeKey])
  exact .ite (fun _ => .refl d) fun _ => .ite (fun _ => h3.trans (sameSide_fenceTrigger d3 i _ _)) fun _ => h3

theorem sameSide_after (d b : Dev) : SameSide d (d.after b) := by
  unfold Dev.after
  exact (((SameSide.of_modeKey (d.timeWatch_modeKey b)).trans (.foldl sameSide_bankWatch _ _)).trans (.foldl sameSide_wdogWatch _ _)).trans
    (.of_modeKey (Dev.settle_modeKey _))

/-- The device that a command ends with is that of its effect. -/
theorem ends_after {c : Instr} {s : State} {dt : Nat} {f : Dev → Dev} {P : Dev → Prop} (h : exec c s = .next (s.runAt dt f)) (he : Ends c s P) :
    ∃ e, (f (later s dt)).after s.dev = e.after s.dev ∧ P e := by
  obtain ⟨e, hx, hp⟩ := he
  rw [h] at hx
  injection hx with hx
  exact ⟨e, congrArg State.dev hx, hp⟩

/-! ## The migration of an image that a boot record names in a configuration area -/

/-- A flash whose configuration area 3 holds a FIRMWARE directory with a migration routine. -/
def migratesFrom3 : Flash :=
  { present := true, blocks := ({} : Tab (List Byte)).set [] (blockKey 3 0) (List.replicate 512 0 ++ [1, 0, 0, 0] ++ List.replicate 12 0 ++ [2]) }

/-- A device in MD3 whose boot record names area 3, the one that the new configuration copy overwrites, as its active slot. -/
def activeIn3 : State := { dev := { mode := 3, base := 5, upd := { boot := { active := 3 } }, flashes := ⟨migratesFrom3, {}⟩ } }

/-- A configuration payload with the one record that every configuration has. -/
def leastConfig : List Byte := [1, 0, 0, 0]

/-- The migration may start and its result can be read back. -/
theorem activeIn3_good :
    (true && (later activeIn3 0).fwMigrates (later activeIn3 0).upd.boot.active &&
      ((later activeIn3 0).migrated leastConfig).cfgForm (1 - (later activeIn3 0).upd.boot.cfgCur % 2) &&
      (later activeIn3 0).configured.all fun i => (later activeIn3 0).phase i = .run) = true := by decide +kernel

/-- The routine is there before the write and gone after it. -/
theorem activeIn3_found : (later activeIn3 0).fwMigrates (later activeIn3 0).upd.boot.active = true := by decide +kernel
theorem activeIn3_lost : ((later activeIn3 0).migrated leastConfig).fwMigrates (later activeIn3 0).upd.boot.active = false := by decide +kernel

/-- A migration that does not find the routine after its write starts the load phase again. -/
theorem migration_lost {d : Dev} (ok : Bool) (bs : List Byte) (st : StartIn) (hm : d.mode = 3) (ha : d.fwMigrates d.upd.boot.active = true)
    (hl : (d.migrated bs).fwMigrates d.upd.boot.active = false) : ∃ e : Dev, InStart e (d.migration ok bs st) := by
  unfold Dev.migration
  rw [if_neg (by simp [hm])]
  extract_lets b new d1 d2 d3 d4
  have h1 : d1 = d.migrated bs := if_pos ha
  rw [if_neg (by rw [h1, hl]; simp)]
  exact ⟨_, beginLoad_start _ st⟩

/-- Refutes O25: a boot record whose active slot is the area of the new configuration copy loses its migration routine to the payload, so that the
migration that may start ends in a new load phase and not in the base mode. -/
theorem not_loadPhase : ¬ Obligations.LoadPhase := by
  unfold Obligations.LoadPhase
  intro h
  obtain ⟨-, hmig, -⟩ := h activeIn3 0 true leastConfig {} false
  obtain ⟨e, he, hmode, -⟩ := ends_after (c := .migration 0 true leastConfig {}) rfl ((hmig rfl).1 activeIn3_good)
  obtain ⟨g, hs, -⟩ := migration_lost (d := later activeIn3 0) true leastConfig {} rfl activeIn3_found activeIn3_lost
  have he4 : 4 ≤ (e.after activeIn3.dev).mode := (sameSide_after e _).2 (by rw [hmode]; decide)
  rw [← he] at he4
  have h4 : 4 ≤ ((later activeIn3 0).migration true leastConfig {}).mode := (sameSide_after _ _).1 he4
  omega

end Sys2Proof.Machine
end

section
/-! Operations inside a strand that leave its core. -/

namespace Sys2Proof.Machine

/-! ## Operations inside a strand that leave its core -/

theorem foldl_core {α : Type} {f : StrandSt → α → StrandSt} (h : ∀ s a, (f s a).core = s.core) (l : List α) (st : StrandSt) :
    (l.foldl f st).core = st.core := by
  induction l generalizing st with
  | nil => rfl
  | cons a l ih => rw [List.foldl_cons, ih, h]

/-! ### Accesses to the banks -/

@[simp] theorem StrandSt.inCyc_core (st : StrandSt) (f : StrandCyc → StrandCyc) : (st.inCyc f).core = st.core := by
  unfold StrandSt.inCyc
  rfl

@[simp] theorem StrandSt.bankErr_core (st : StrandSt) (e r b w : Nat) : (st.bankErr e r b w).core = st.core := by
  rw [StrandSt.bankErr, StrandSt.wr_core]

@[simp] theorem StrandSt.bankJudge_core (st : StrandSt) (r a : Nat) (w : Bool) : (st.bankJudge r a w).2.core = st.core := by
  have h (e f c x y : Nat) (k : FClass) (z : List Nat) :
      ((((st.bankErr e r x y).flag Reg.BANK_FLAGS f).inc (Reg.BANK_CNT + 8 * e)).reportOnce c k c z).core = st.core := by
    rw [StrandSt.reportOnce_core, StrandSt.inc_core, StrandSt.flag_core, StrandSt.bankErr_core]
  unfold StrandSt.bankJudge
  dsimp only
  split_ifs
  · rfl
  · exact h 5 1 _ _ _ _ _
  · rfl
  · exact h 4 0 _ _ _ _ _

@[simp] theorem StrandSt.bankCe_core (st : StrandSt) (r k w : Nat) : (st.bankCe r k w).core = st.core := by
  unfold StrandSt.bankCe
  split_ifs <;> simp

theorem StrandSt.withBanks_core (st : StrandSt) (b : Banks) : ({ st with banks := b } : StrandSt).core = st.core := rfl

@[simp] theorem StrandSt.markLasting_core (st : StrandSt) (k : Nat) : (st.markLasting k).core = st.core := by
  unfold StrandSt.markLasting
  split
  · rfl
  · rw [StrandSt.withBanks_core, StrandSt.flag_core, StrandSt.putBit_core]

@[simp] theorem StrandSt.bankUe_core (st : StrandSt) (r k w : Nat) : (st.bankUe r k w).core = st.core := by
  unfold StrandSt.bankUe
  extract_lets s1 s2
  have h : s2.core = st.core := by
    rw [StrandSt.report_core, StrandSt.inc_core, StrandSt.flag_core, StrandSt.bankErr_core, StrandSt.markLasting_core]
  clear_value s2
  split
  · rw [StrandSt.withBanks_core, h]
  · exact h

@[simp] theorem StrandSt.takePort_core (st : StrandSt) (r k : Nat) : (st.takePort r k).core = st.core := by
  unfold StrandSt.takePort
  dsimp only
  split_ifs <;> simp

@[simp] theorem StrandSt.portWrite_core (st : StrandSt) (r a : Nat) (bs : List Byte) : (st.portWrite r a bs).core = st.core := by
  unfold StrandSt.portWrite
  dsimp only
  split_ifs <;> simp

theorem foldl_snd_core {α : Type} {f : Bool × StrandSt → α → Bool × StrandSt} (h : ∀ r a, (f r a).2.core = r.2.core) (l : List α) (r : Bool × StrandSt) :
    (l.foldl f r).2.core = r.2.core := by
  induction l generalizing r with
  | nil => rfl
  | cons a l ih => rw [List.foldl_cons, ih, h]

@[simp] theorem StrandSt.eccWrite_core (st : StrandSt) (r a : Nat) (bs : List Byte) : (st.eccWrite r a bs).2.core = st.core := by
  unfold StrandSt.eccWrite
  split
  · exact st.portWrite_core _ _ _
  · refine foldl_snd_core (fun x w => ?_) _ (false, st)
    extract_lets lo hi part s k dropped b s1
    have h1 : s1.core = x.2.core := by rw [StrandSt.portWrite_core, StrandSt.withBanks_core]
    clear_value s1
    split
    · split
      · rw [StrandSt.inc_core, h1]
      · exact h1
    · split
      · rw [StrandSt.portWrite_core]
      · rw [StrandSt.portWrite_core, StrandSt.bankCe_core]
      · rw [StrandSt.bankUe_core]

@[simp] theorem StrandSt.bankWrite1_core (st : StrandSt) (r a : Nat) (bs : List Byte) : (st.bankWrite1 r a bs).st.core = st.core := by
  unfold StrandSt.bankWrite1
  dsimp only
  split_ifs <;> simp

@[simp] theorem StrandSt.bankWriteN_core (st : StrandSt) (r a : Nat) (bs : List Byte) (n : Nat) : (st.bankWriteN r a bs n).st.core = st.core := by
  induction n generalizing st a bs with
  | zero => rfl
  | succ n ih =>
    unfold StrandSt.bankWriteN
    dsimp only
    split_ifs <;> simp [ih]

@[simp] theorem StrandSt.bankWrite_core (st : StrandSt) (r a : Nat) (bs : List Byte) : (st.bankWrite r a bs).st.core = st.core :=
  st.bankWriteN_core r a bs 8

/-! ### Ledger, rings and queues -/

@[simp] theorem StrandSt.setLed_core (st : StrandSt) (j : Nat) (e : LedEnt) : (st.setLed j e).core = st.core := rfl
@[simp] theorem StrandSt.setStored_core (st : StrandSt) (r : Nat) (l : List Stored) : (st.setStored r l).core = st.core := rfl
@[simp] theorem StrandSt.setNotices_core (st : StrandSt) (k : Nat) (l : List (Nat × Nat)) : (st.setNotices k l).core = st.core := rfl
@[simp] theorem StrandSt.setLog_core (st : StrandSt) (r q : Nat) (ws : List Word) : (st.setLog r q ws).core = st.core := rfl
@[simp] theorem StrandSt.ledComplete_core (st : StrandSt) (r q : Nat) : (st.ledComplete r q).core = st.core := rfl
@[simp] theorem StrandSt.ledIssue_core (st : StrandSt) (j q : Nat) : (st.ledIssue j q).core = st.core := rfl
@[simp] theorem StrandSt.ledVisible_core (st : StrandSt) (j q : Nat) : (st.ledVisible j q).core = st.core := rfl
@[simp] theorem StrandSt.cmdComplete_core (st : StrandSt) (k q : Nat) : (st.cmdComplete k q).core = st.core := rfl
@[simp] theorem StrandSt.updRing_core (st : StrandSt) (k : Nat) (f : Ring → Ring) : (st.updRing k f).core = st.core := rfl
@[simp] theorem StrandSt.setHead_core (st : StrandSt) (k i : Nat) : (st.setHead k i).core = st.core := rfl
@[simp] theorem StrandSt.setTail_core (st : StrandSt) (k i : Nat) : (st.setTail k i).core = st.core := rfl
@[simp] theorem StrandSt.setRingState_core (st : StrandSt) (k s : Nat) : (st.setRingState k s).core = st.core := rfl
@[simp] theorem StrandSt.ringFlag_core (st : StrandSt) (k b : Nat) : (st.ringFlag k b).core = st.core := rfl
@[simp] theorem StrandSt.ringFault_core (st : StrandSt) (k : Nat) : (st.ringFault k).core = st.core := rfl
@[simp] theorem StrandSt.addrErr_core (st : StrandSt) (k : Nat) : (st.addrErr k).core = st.core := by
  rw [StrandSt.addrErr, StrandSt.report_core, StrandSt.inc_core, StrandSt.flag_core, StrandSt.ringFlag_core]
@[simp] theorem StrandSt.hostReq_core (st : StrandSt) (r : HostReq) : (st.hostReq r).core = st.core := rfl

@[simp] theorem StrandSt.issueRead_core (st : StrandSt) (b : Bool) (a n : Nat) (w : ReadWhat) : (st.issueRead b a n w).core = st.core := by
  unfold StrandSt.issueRead
  dsimp only
  split_ifs <;> rfl

@[simp] theorem StrandSt.pushRec_core (st : StrandSt) (k q : Nat) (ws : List Word) : (st.pushRec k q ws).core = st.core := by
  unfold StrandSt.pushRec
  dsimp only
  split_ifs <;> simp

@[simp] theorem StrandSt.writeBack_core (st : StrandSt) (k i q : Nat) (ws : List Word) : (st.writeBack k i q ws).core = st.core := by
  unfold StrandSt.writeBack
  dsimp only
  split_ifs <;> simp

@[simp] theorem StrandSt.writeRec_core (st : StrandSt) (r : CqRec) : (st.writeRec r).core = st.core := by
  unfold StrandSt.writeRec
  extract_lets tail w1 words addr s1 a s2 q status s3
  have h1 : s1.core = st.core := StrandSt.put_core _ _ _ _ _
  have h2 : s2.core = st.core := by
    dsimp only [s2]
    split
    · split
      · rw [StrandSt.report_core, StrandSt.inc_core, StrandSt.flag_core, StrandSt.bankWrite_core, h1]
      · rw [StrandSt.bankWrite_core, h1]
    · rw [StrandSt.hostReq_core, h1]
  clear_value s2
  have h3 : s3.core = st.core := by
    dsimp only [s3]
    split
    · rw [StrandSt.inc_core, h2]
    · exact h2
  clear_value s3
  split
  · rw [StrandSt.ledVisible_core, h3]
  · exact h3

@[simp] theorem StrandSt.flushLoop_core (st : StrandSt) (rs : List CqRec) (stuck : List Nat) : (st.flushLoop rs stuck).core = st.core := by
  induction rs generalizing st stuck with
  | nil => rfl
  | cons r rs ih =>
    unfold StrandSt.flushLoop
    dsimp only
    split_ifs <;> simp [ih]

@[simp] theorem StrandSt.flushRecs_core (st : StrandSt) : st.flushRecs.core = st.core := StrandSt.flushLoop_core _ _ _

@[simp] theorem StrandSt.skipAborts_core (st : StrandSt) (k n : Nat) : (st.skipAborts k n).core = st.core := by
  induction n generalizing st with
  | zero => rfl
  | succ n ih =>
    unfold StrandSt.skipAborts
    dsimp only
    split_ifs <;> simp [ih]

@[simp] theorem StrandSt.rxEnd_core (st : StrandSt) (k : Nat) (c : RxCur) (n : Nat) : (st.rxEnd k c n).core = st.core := by
  unfold StrandSt.rxEnd
  extract_lets size q m ts st1 last st2 len st3 st4 st5
  have h1 : st1.core = st.core := foldl_core (fun s u => s.writeBack_core _ _ _ _) _ st
  have h2 : st2.core = st1.core := by simp [st2]
  have h3 : st3.core = st2.core := rfl
  have h4 : st4.core = st3.core := by simp only [st4, apply_ite StrandSt.core, StrandSt.setRingState_core, ite_self]
  have h5 : st5.core = st4.core := by simp only [st5, apply_ite StrandSt.core, StrandSt.setRingState_core, ite_self]
  rw [StrandSt.flushRecs_core, StrandSt.pushRec_core, h5, h4, h3, h2, h1]

@[simp] theorem StrandSt.rxDiscard_core (st : StrandSt) (k : Nat) : (st.rxDiscard k).core = st.core := by
  unfold StrandSt.rxDiscard
  split
  · rfl
  · simp

@[simp] theorem StrandSt.rxHoldExpiry_core (st : StrandSt) (k : Nat) : (st.rxHoldExpiry k).core = st.core := by
  unfold StrandSt.rxHoldExpiry
  split_ifs <;> simp

@[simp] theorem StrandSt.prefetch_core (st : StrandSt) (k : Nat) : (st.prefetch k).core = st.core := by
  unfold StrandSt.prefetch
  split_ifs
  · rfl
  · refine foldl_core (fun s n => ?_) _ st
    dsimp only
    split_ifs <;> simp

@[simp] theorem StrandSt.tailWrite_core (st : StrandSt) (k v : Nat) : (st.tailWrite k v).core = st.core := by
  unfold StrandSt.tailWrite
  dsimp only
  split_ifs <;> simp

@[simp] theorem StrandSt.abortCmds_core (st : StrandSt) (k n : Nat) : (st.abortCmds k n).core = st.core := by
  induction n generalizing st with
  | zero => rfl
  | succ n ih =>
    unfold StrandSt.abortCmds
    dsimp only
    split
    · rfl
    · split_ifs <;> simp [ih]

@[simp] theorem StrandSt.abortLoc1_core (st : StrandSt) (r : Nat) : (st.abortLoc1 r).core = st.core := by
  unfold StrandSt.abortLoc1
  dsimp only
  split_ifs
  · rfl
  · exact foldl_core (fun s it => by simp) _ st

/-! ### The start of the units -/

theorem StrandSt.timeStart_core (st : StrandSt) : st.timeStart.core = st.core := by
  unfold StrandSt.timeStart
  simp

theorem StrandSt.realignAll_core (st : StrandSt) (i : Nat) : (st.realignAll i).core = st.core :=
  foldl_core (fun s c => by split_ifs <;> rfl) _ st

theorem StrandSt.bangleStartTime_core (st : StrandSt) : st.bangleStartTime.core = st.core :=
  foldl_core (fun s i => by dsimp only; split_ifs <;> simp [StrandSt.realignAll_core]) _ st

theorem StrandSt.flgStart_core (st : StrandSt) : st.flgStart.core = st.core := by
  unfold StrandSt.flgStart
  split_ifs <;> simp

theorem StrandSt.ledgerResume_core (st : StrandSt) : st.ledgerResume.core = st.core := by
  unfold StrandSt.ledgerResume
  dsimp only
  exact (foldl_core (fun s k => s.abortCmds_core k 16) _ _).trans (foldl_core (fun s r => by split_ifs <;> simp) _ st)

/-- A strand that starts has its core running (R42). -/
theorem StrandSt.startUp_state (st : StrandSt) : st.startUp.core.state = .running := by
  unfold StrandSt.startUp
  rw [StrandSt.ledgerResume_core, StrandSt.flgStart_core, StrandSt.bangleStartTime_core, StrandSt.timeStart_core]

theorem StrandSt.vioWatch_core (st : StrandSt) (k : Nat) : (st.vioWatch k).core = st.core := by
  unfold StrandSt.vioWatch
  split_ifs <;> rfl

end Sys2Proof.Machine
end

section
/-! Loads. -/

namespace Sys2Proof.Machine

/-! ## LOAD_START -/

/-- The self-tests of the engines, with their results (R81). -/
def Dev.engTest (d : Dev) (i : StrandId) (tests : List (Fin 16 × Bool)) : Dev :=
  (d.onStrand i fun s => tests.foldl (fun a t => a.selfTest t.1.val t.2) s).updSup i fun s => { s with tested := true }

/-- The strand with the remapping of its banks, which a load takes from the wear record and the lasting banks (R400). -/
def Dev.loadBanks (d : Dev) (i : StrandId) : StrandSt :=
  let wb := d.loupe.wearBanks.get i
  let st := d.strand i
  let remap := if st.rd Reg.BANK_REMAP = 0 then wb.remap else st.rd Reg.BANK_REMAP
  let ret := (st.banks.retired ++ wb.retired).eraseDups
  let st := { st.wr Reg.BANK_REMAP remap with banks := { st.banks with retired := ret } }
  let st := wb.marks.foldl (fun (s : StrandSt) k => s.putBit (Reg.BANK_STATE k) 4 true) st
  let r := st.remapped
  let st := { st.wr Reg.BANK_REMAP r.1 with banks := { st.banks with retired := r.2 } }
  (List.range 48).foldl (fun (s : StrandSt) k => s.wr (Reg.BANK_STATE k) (BitVec.ofNat 32 (if r.2.contains k then 42 else 0))) st

theorem loadStart_loading {d : Dev} {i : StrandId} (tests : List (Fin 16 × Bool)) (hf : d.loupe.firmware = true) (hc : bitN d.cfg.strands i = true)
    (hi : (d.supOf i).fenceIn = false) (hp : d.phase i = .loading) (ht : (d.supOf i).tested = false) : d.loadStart i tests = d.engTest i tests := by
  unfold Dev.loadStart
  dsimp only
  rw [if_neg (by simp [hf, hc, hi]), if_pos hp, if_neg (by simp [ht])]
  rfl

theorem loadStart_off {d : Dev} {i : StrandId} (tests : List (Fin 16 × Bool)) (hf : d.loupe.firmware = true) (hc : bitN d.cfg.strands i = true)
    (hi : (d.supOf i).fenceIn = false) (hp : d.phase i = .off) (hm : d.mode = 2 ∨ d.mode = 3 ∨ (d.mode = 8 ∧ (d.supOf i).rejoin = true)) :
    d.loadStart i tests = (({ d with strands := d.strands.set i (d.loadBanks i) } : Dev).setPhase i .loading).engTest i tests := by
  have hm' : (decide (d.mode = 2) || decide (d.mode = 3) || decide (d.mode = 8) && (d.supOf i).rejoin) = true := by simpa [or_assoc] using hm
  unfold Dev.loadStart
  extract_lets may test
  rw [if_neg (by simp [hf, hc, hi]), if_neg (by rw [hp]; decide), if_neg (by simp [hp, may, hm'])]
  rfl

theorem foldl_bead {α : Type} {f : StrandSt → α → StrandSt} (h : ∀ s a, (f s a).bead = s.bead) (l : List α) (st : StrandSt) :
    (l.foldl f st).bead = st.bead := by
  induction l generalizing st with
  | nil => rfl
  | cons a l ih => rw [List.foldl_cons, ih, h]

theorem loadBanks_bead (d : Dev) (i : StrandId) : (d.loadBanks i).bead = (d.strand i).bead := by
  unfold Dev.loadBanks
  extract_lets wb st remap ret w1 b1 st1 st2 r w3 b3 st3
  have h1 : st1.bead = st.bead := st.wr_bead Reg.BANK_REMAP remap
  have h2 : st2.bead = st1.bead := foldl_bead (fun _ _ => StrandSt.putBit_bead _ _ _ _) _ _
  have h3 : st3.bead = st2.bead := st2.wr_bead Reg.BANK_REMAP r.1
  exact (foldl_bead (fun _ _ => StrandSt.wr_bead _ _ _) _ st3).trans (h3.trans (h2.trans h1))

theorem selfTest_unavail (st : StrandSt) (t : Fin 16 × Bool) (n : Fin 16) :
    ((st.selfTest t.1.val t.2).eng n).unavail = ((st.eng n).unavail || (n, false) == t) := by
  obtain ⟨k, b⟩ := t
  unfold StrandSt.selfTest
  cases b with
  | true =>
    rw [if_pos rfl, StrandSt.eng, StrandSt.report_bead]
    simp [StrandSt.eng]
  | false =>
    rw [if_neg (by simp), StrandSt.eng, StrandSt.report_bead]
    show (((st.updEng k fun e => { e with unavail := true }).eng n).unavail) = _
    by_cases h : n = k
    · subst h; rw [StrandSt.updEng, StrandSt.eng_setEng_same]; simp
    · rw [StrandSt.updEng, StrandSt.eng_setEng_ne _ _ (fun hk => h (Fin.ext hk))]; simp [h]

/-- An engine is UNAVAIL that was before or whose test failed (R81). -/
theorem foldl_selfTest_unavail (tests : List (Fin 16 × Bool)) (st : StrandSt) (n : Fin 16) :
    ((tests.foldl (fun a t => a.selfTest t.1.val t.2) st).eng n).unavail = ((st.eng n).unavail || tests.contains (n, false)) := by
  induction tests generalizing st with
  | nil => simp
  | cons t ts ih => rw [List.foldl_cons, ih, selfTest_unavail, List.contains_cons, Bool.or_assoc]

/-- What LOAD_START leaves. -/
structure EngTested (d e : Dev) (i : StrandId) (tests : List (Fin 16 × Bool)) : Prop where
  others : OthersKept d e i
  mode : e.mode = d.mode
  phase : e.phase i = .loading
  tested : (e.supOf i).tested = true
  unavail : ∀ n : Fin 16, ((e.strand i).eng n).unavail = (((d.strand i).eng n).unavail || tests.contains (n, false))

theorem engTested_engTest {d : Dev} {i : StrandId} (tests : List (Fin 16 × Bool)) (hp : d.phase i = .loading) : EngTested d (d.engTest i tests) i tests where
  others j hj := ⟨d.onStrand_strand_ne _ hj, (Dev.supOf_updSup_ne _ _ hj).trans (congrArg (Quad.get · j) (d.onStrand_sup i _))⟩
  mode := d.onStrand_mode i _
  phase := by
    rw [Dev.engTest, Dev.phase, Dev.supOf_updSup_same, Dev.supOf, d.onStrand_sup]
    exact hp
  tested := by rw [Dev.engTest, Dev.supOf_updSup_same]
  unavail n := by
    have h : (d.engTest i tests).strand i = (tests.foldl (fun (a : StrandSt) t => a.selfTest t.1.val t.2) { d.strand i with env := d.envOf i }).clean :=
      d.onStrand_strand_same i _
    rw [h]
    exact foldl_selfTest_unavail tests _ n

/-- The load of a strand that was OFF. -/
theorem engTested_load {d : Dev} {i : StrandId} (tests : List (Fin 16 × Bool)) :
    EngTested d ((({ d with strands := d.strands.set i (d.loadBanks i) } : Dev).setPhase i .loading).engTest i tests) i tests := by
  have ht := touches_setPhase { d with strands := d.strands.set i (d.loadBanks i) } i .loading
  have hs := Dev.setPhase_sup { d with strands := d.strands.set i (d.loadBanks i) } i .loading
  set f := ({ d with strands := d.strands.set i (d.loadBanks i) } : Dev).setPhase i .loading
  have hst : f.strands = d.strands.set i (d.loadBanks i) := ht.strands rfl
  have hp : f.phase i = .loading := by
    obtain ⟨t, b, he⟩ := SupSt.enter_eq (({ d with strands := d.strands.set i (d.loadBanks i) } : Dev).supOf i) .loading d.ns
    rw [Dev.phase, supOf_of_sup hs]
    exact congrArg SupSt.phase he
  obtain ⟨h1, h2, h3, h4, h5⟩ := engTested_engTest tests hp
  refine ⟨othersKept_trans (othersKept_set hs hst) h1, h2.trans (ht.mode rfl), h3, h4, fun n => ?_⟩
  rw [h5, strand_of_strands hst, StrandSt.eng, loadBanks_bead]
  rfl

/-! ## LOAD_COMPLETE -/

/-- The part of a load after its packages stand in the strand, up to the start of the strand (R42, R246). -/
def Dev.loadStarts (d : Dev) (i : StrandId) (ms : List (List Byte)) (at_ : List (Nat × List (Nat × Nat))) : Dev :=
  let d := d.onStrand i fun s => { s with pkgs := records ms at_, machines := machineTabs ms }
  let d := d.setLoad i { pkgs := (d.strand i).pkgs, sums := loadSums ms }
  let d := d.onStrand i StrandSt.lockChecks
  let d := d.updSup i fun s => { s with lock := true, pllLock := true, retValid := true }
  (d.setPhase i (if d.mode = 9 then .hold else .run)).onStrand i fun s => (s.startUp.vioWatch 0).vioWatch 1

/-- The part of a load after the start of the strand. -/
def Dev.loadEnds (d : Dev) (i : StrandId) : Dev :=
  let d := if d.base = 5 || d.base = 6 then
      (d.txGroups i).foldl (fun (e : Dev) g => e.onStrand i fun s => s.tailWrite (fieldOf (e.mgCfg g) 11 8) (e.dfld (mgPage g + 0x1C) 15 0)) d
    else d
  ((d.noteBanks i).hbTimeout i).tryT12

/-- Whether the packages of a load are what the image carries, with digests that match, and no inward fence (R246, R458). -/
def Dev.loadGood (d : Dev) (i : StrandId) (ms : List (List Byte)) (digests : Bool) : Bool :=
  digests && !(d.supOf i).fenceIn && ms.all (d.fwCarries d.upd.boot.active)

theorem loadComplete_good {d : Dev} {i : StrandId} {ms : List (List Byte)} {digests : Bool} (hp : d.phase i = .loading) (hc : bitN d.cfg.strands i = true)
    (hr : d.loadRefusal i ms = none) (hg : d.loadGood i ms digests = true) (hj : (d.supOf i).rejoin = false) :
    d.loadComplete i ms digests =
      ((d.onStrand i fun s => s.loadParts ms (((d.strand i).placement ms).getD [])).loadStarts i ms (((d.strand i).placement ms).getD [])).loadEnds i := by
  have hg' : (!digests || (d.supOf i).fenceIn || !ms.all (d.fwCarries d.upd.boot.active)) = false := by
    rw [← Bool.not_eq_true', ← hg, Dev.loadGood]
    simp
  have hj' : ((d.onStrand i fun s => s.loadParts ms (((d.strand i).placement ms).getD [])).supOf i).rejoin = false := by
    rw [Dev.supOf, Dev.onStrand_sup]; exact hj
  unfold Dev.loadComplete
  rw [if_neg (by simp [hp, hc]), hr]
  refine (if_neg (by rw [hg']; simp)).trans ?_
  extract_lets d1 sync
  have hs : sync = (true, d1) := if_neg (by simp [d1, hj'])
  clear_value sync
  subst hs
  exact if_neg (by simp)

/-- What the load of a strand leaves once the strand starts. -/
structure Started (d e : Dev) (i : StrandId) : Prop where
  sup : e.sup = d.sup.set i { d.supOf i with phase := if d.mode = 9 then .hold else .run, lock := true, pllLock := true, retValid := true }
  mode : e.mode = d.mode
  others : ∀ j, j ≠ i → e.strand j = d.strand j
  core : (e.strand i).core.state = .running

theorem started_loadStarts (d : Dev) (i : StrandId) (ms : List (List Byte)) (at_ : List (Nat × List (Nat × Nat))) : Started d (d.loadStarts i ms at_) i := by
  unfold Dev.loadStarts
  extract_lets d1 d2 d3 d4
  have t1 : Touches [.strands, .clasp, .out, .loupe, .upd] d d1 := touches_onStrand d i _
  have t2 : Touches [.loupe] d1 d2 := touches_loupe_own d1 (by rfl)
  have t3 : Touches [.strands, .clasp, .out, .loupe, .upd] d2 d3 := touches_onStrand d2 i _
  have t4 : Touches [.sup] d3 d4 := touches_updSup d3 i _
  have t5 := touches_setPhase d4 i (if d4.mode = 9 then .hold else .run)
  have t6 := touches_onStrand (d4.setPhase i (if d4.mode = 9 then .hold else .run)) i fun s => (s.startUp.vioWatch 0).vioWatch 1
  have t : Touches [.strands, .clasp, .out, .loupe, .upd] d d3 := (t1.trans (t2.mono rfl)).trans t3
  have hm : d4.mode = d.mode := (t4.mode rfl).trans (t.mode rfl)
  refine ⟨?_, (t6.mode rfl).trans ((t5.mode rfl).trans hm), fun j hj => ?_, ?_⟩
  · have hne : (if d4.mode = 9 then .hold else .run : Phase) ≠ .loading := by split <;> decide
    have h4 : d4.sup = d.sup.set i { d.supOf i with lock := true, pllLock := true, retValid := true } := by
      simp only [d4, Dev.updSup, Dev.setSup, t.sup rfl, t.supOf i rfl]
    rw [t6.sup rfl, Dev.setPhase_sup, SupSt.enter_of_ne _ _ hne, supOf_of_sup h4, h4, Quad.set_set, hm]
  · rw [Dev.onStrand_strand_ne _ _ hj, t5.strand j rfl, t4.strand j rfl, Dev.onStrand_strand_ne _ _ hj, t2.strand j rfl, Dev.onStrand_strand_ne _ _ hj]
  · rw [Dev.onStrand_strand_same]
    show (((StrandSt.startUp _).vioWatch 0).vioWatch 1).core.state = _
    rw [StrandSt.vioWatch_core, StrandSt.vioWatch_core, StrandSt.startUp_state]

/-- The heartbeat that is absent after a load changes the inward fence and its causes at most. -/
theorem hbTimeout_supOf (d : Dev) (i j : StrandId) : ∃ b c, (d.hbTimeout i).supOf j = { d.supOf j with fenceIn := b, cause := c } := by
  unfold Dev.hbTimeout
  split
  · by_cases ha : Active d i
    · rw [Dev.supOf, fenceInSet_sup ha]
      by_cases hj : j = i
      · subst hj; rw [Quad.get_set_same]; exact ⟨_, _, rfl⟩
      · rw [Quad.get_set_ne _ _ hj]; exact ⟨_, _, rfl⟩
    · rw [show d.fenceInSet i 0 = d from if_neg (by simpa using ha)]
      exact ⟨_, _, rfl⟩
  · exact ⟨_, _, rfl⟩

theorem touches_hbTimeout (d : Dev) (i : StrandId) : Touches [.sup] d (d.hbTimeout i) := .ite (fun _ => touches_fenceInSet d i 0) fun _ => .refl _ d

/-- What the end of a load leaves of the start. -/
structure Settled (d e : Dev) (i : StrandId) : Prop where
  sup : ∀ j, ∃ r b c, e.supOf j = { d.supOf j with rejoin := r, fenceIn := b, cause := c }
  mode : d.mode ≠ 8 → e.mode = d.mode
  others : ∀ j, j ≠ i → e.strand j = d.strand j
  core : (e.strand i).core = (d.strand i).core

theorem foldl_onStrand {α : Type} {i : StrandId} {g : Dev → α → StrandSt → StrandSt} (h : ∀ e a s, (g e a s).core = s.core) (l : List α) (d : Dev) :
    Touches [.strands, .clasp, .out, .loupe, .upd] d (l.foldl (fun e a => e.onStrand i (g e a)) d) ∧
      (∀ j, j ≠ i → (l.foldl (fun e a => e.onStrand i (g e a)) d).strand j = d.strand j) ∧
      ((l.foldl (fun e a => e.onStrand i (g e a)) d).strand i).core = (d.strand i).core := by
  induction l generalizing d with
  | nil => exact ⟨.refl _ d, fun _ _ => rfl, rfl⟩
  | cons a l ih =>
    obtain ⟨ht, ho, hc⟩ := ih (d.onStrand i (g d a))
    refine ⟨(touches_onStrand d i _).trans ht, fun j hj => (ho j hj).trans (d.onStrand_strand_ne _ hj), hc.trans ?_⟩
    rw [Dev.onStrand_strand_same]
    exact h d a _

theorem settled_loadEnds (d : Dev) (i : StrandId) : Settled d (d.loadEnds i) i := by
  unfold Dev.loadEnds
  extract_lets d1
  have h1 : Touches [.strands, .clasp, .out, .loupe, .upd] d d1 ∧ (∀ j, j ≠ i → d1.strand j = d.strand j) ∧ (d1.strand i).core = (d.strand i).core := by
    dsimp only [d1]
    split
    · exact foldl_onStrand (fun e g s => s.tailWrite_core _ _) _ d
    · exact ⟨.refl _ d, fun _ _ => rfl, rfl⟩
  obtain ⟨t1, o1, c1⟩ := h1
  clear_value d1
  have t2 : Touches [.loupe] d1 (d1.noteBanks i) := touches_loupe_own d1 (by rfl)
  have t3 := touches_hbTimeout (d1.noteBanks i) i
  set d3 := (d1.noteBanks i).hbTimeout i
  have t4 := touches_tryT12 d3
  have hst (j : StrandId) : d3.tryT12.strand j = d1.strand j := (t4.strand j rfl).trans ((t3.strand j rfl).trans (t2.strand j rfl))
  refine ⟨fun j => ?_, fun h8 => ?_, fun j hj => (hst j).trans (o1 j hj), by rw [hst, c1]⟩
  · obtain ⟨r, hr⟩ := tryT12_supOf d3 j
    obtain ⟨b, c, hb⟩ := hbTimeout_supOf (d1.noteBanks i) i j
    exact ⟨r, b, c, by rw [hr, hb, t2.supOf j rfl, t1.supOf j rfl]⟩
  · have hm : d3.mode = d.mode := (t3.mode rfl).trans ((t2.mode rfl).trans (t1.mode rfl))
    rw [tryT12_mode, if_neg (by simp [Dev.mayT12, hm, h8]), hm]

theorem gone_loadFail {d e : Dev} (i : StrandId) {l : List DevField} (ht : Touches l d e) (hl : l.contains .mode = false ∧ l.contains .sup = false) :
    Gone d (e.loadFail i) i 13 :=
  gone_fence (by decide) (ht.mode hl.1) (fun j _ => ht.phase j hl.2) _

/-- A load that is refused, or whose packages or digests do not hold, fences its strand (R42, R246). -/
theorem loadComplete_bad {d : Dev} {i : StrandId} {ms : List (List Byte)} {digests : Bool} (hp : d.phase i = .loading) (hc : bitN d.cfg.strands i = true)
    (hb : d.loadRefusal i ms ≠ none ∨ d.loadGood i ms digests = false) : Gone d (d.loadComplete i ms digests) i 13 := by
  unfold Dev.loadComplete
  rw [if_neg (by simp [hp, hc])]
  rcases hr : d.loadRefusal i ms with _ | ⟨code, pkg, res⟩
  · have hg : d.loadGood i ms digests = false := hb.resolve_left (not_not.2 hr)
    have hg' : (!digests || (d.supOf i).fenceIn || !ms.all (d.fwCarries d.upd.boot.active)) = true := by
      rw [← Bool.not_eq_false', ← hg, Dev.loadGood]
      simp
    have hf : Gone d (d.loadFail i) i 13 := gone_loadFail i (.refl [] d) ⟨rfl, rfl⟩
    exact (if_pos hg' : (ite _ _ _ : Dev) = _) ▸ hf
  · have ht : Touches [.loupe, .upd] d ((d.setLoad i { sums := loadSums ms, refusal := some (code, pkg, Config.resourceNumber res) }).log code .lasting
        (0x10 + i.val) [pkg, Config.resourceNumber res]) := ((touches_loupe_own d (by rfl)).mono rfl).trans (touches_log _ _ _ _ _)
    exact gone_loadFail i ht ⟨rfl, rfl⟩

/-- The stages of a load that ends well (R42). -/
theorem loaded_of_stages {d d0 d1 e : Dev} {i : StrandId} (t0 : Touches [.strands, .clasp, .out, .loupe, .upd] d d0)
    (o0 : ∀ j, j ≠ i → d0.strand j = d.strand j) (h1 : Started d0 d1 i) (h2 : Settled d1 e i) :
    (∀ j, j ≠ i → e.phase j = d.phase j ∧ e.strand j = d.strand j) ∧ e.phase i = (if d.mode = 9 then .hold else .run) ∧ (e.supOf i).lock = true ∧
      (e.supOf i).retValid = true ∧ (e.strand i).core.state = .running ∧ (d.mode ≠ 8 → e.mode = d.mode) := by
  have hi : d1.supOf i = { d0.supOf i with phase := if d0.mode = 9 then .hold else .run, lock := true, pllLock := true, retValid := true } :=
    supOf_of_sup h1.sup
  have hm : d1.mode = d.mode := h1.mode.trans (t0.mode rfl)
  have hphase (j : StrandId) : e.phase j = d1.phase j := by
    obtain ⟨r, b, c, h⟩ := h2.sup j
    rw [Dev.phase, h]; rfl
  obtain ⟨r, b, c, hs⟩ := h2.sup i
  refine ⟨fun j hj => ⟨?_, (h2.others j hj).trans ((h1.others j hj).trans (o0 j hj))⟩, ?_, ?_, ?_, ?_, fun h8 => ?_⟩
  · rw [hphase, Dev.phase, Dev.supOf, h1.sup, Quad.get_set_ne _ _ hj]
    exact t0.phase j rfl
  · rw [hphase, Dev.phase, hi, t0.mode rfl]
  · rw [hs, hi]
  · rw [hs, hi]
  · rw [h2.core, h1.core]
  · exact (h2.mode (by rwa [hm])).trans hm

/-- Settles O24: the tests of LOAD_START, and the two ends of a load. -/
theorem loading : Obligations.Loading := by
  unfold Obligations.Loading
  intro s dt i tests pkgs digests d tested good
  have hte {e : Dev} (h : EngTested d e i tests) : tested e := ⟨h.others, h.mode, h.phase, h.tested, h.unavail⟩
  refine ⟨fun hf hc hi => ⟨fun hp hm => ends_runAt (c := .loadStart dt i tests) rfl ?_, fun hp ht => ends_runAt (c := .loadStart dt i tests) rfl ?_⟩,
    fun hp hc => ⟨fun hr hg hj => ends_runAt (c := .loadComplete dt i pkgs digests) rfl ?_, fun hb => ends_runAt (c := .loadComplete dt i pkgs digests) rfl ?_⟩⟩
  · exact hte ((loadStart_off tests hf hc hi hp hm).symm ▸ engTested_load tests)
  · exact hte ((loadStart_loading tests hf hc hi hp ht).symm ▸ engTested_engTest tests hp)
  · rw [loadComplete_good hp hc hr hg hj]
    exact loaded_of_stages (touches_onStrand d i _) (fun j h => d.onStrand_strand_ne _ h) (started_loadStarts _ i pkgs _) (settled_loadEnds _ i)
  · obtain ⟨h1, -, -, h4, -, h6, -⟩ := loadComplete_bad hp hc hb
    exact ⟨h1, h4, h6⟩

end Sys2Proof.Machine
end

section
/-! Reads of the banks, and the exchange bank. -/

namespace Sys2Proof.Machine

/-! ## Reads of the banks, and the exchange bank -/

/-- What no read of a bank changes: the ledger and the message in the exchange bank. -/
def StrandSt.ledgerExch (st : StrandSt) : Ledger × Option Exchange := (st.ledger, st.banks.exch)

theorem ledgerExch_congr {x y : StrandSt} (hl : y.ledger = x.ledger) (hb : y.banks = x.banks) : y.ledgerExch = x.ledgerExch := by
  rw [StrandSt.ledgerExch, hl, hb]; rfl

/-- The same where some other part of the banks changes. -/
theorem ledgerExch_withBanks {x : StrandSt} {b : Banks} (h : b.exch = x.banks.exch) : ({ x with banks := b } : StrandSt).ledgerExch = x.ledgerExch :=
  congrArg (Prod.mk x.ledger) h

theorem StrandSt.bankErr_ledgerExch (st : StrandSt) (e r b w : Nat) : (st.bankErr e r b w).ledgerExch = st.ledgerExch :=
  ledgerExch_congr (st.wr_ledger _ _) (st.wr_banks _ _)

theorem StrandSt.flag_ledgerExch (st : StrandSt) (a k : Nat) : (st.flag a k).ledgerExch = st.ledgerExch :=
  ledgerExch_congr (st.flag_ledger a k) (st.flag_banks a k)

theorem StrandSt.inc_ledgerExch (st : StrandSt) (a : Nat) : (st.inc a).ledgerExch = st.ledgerExch :=
  ledgerExch_congr (st.inc_ledger a) (st.inc_banks a)

theorem StrandSt.report_ledgerExch (st : StrandSt) (c : Nat) (k : FClass) (a : List Nat) : (st.report c k a).ledgerExch = st.ledgerExch :=
  ledgerExch_congr (st.report_ledger c k a) (st.report_banks c k a)

theorem StrandSt.reportOnce_ledgerExch (st : StrandSt) (c : Nat) (k : FClass) (y : Nat) (a : List Nat) : (st.reportOnce c k y a).ledgerExch = st.ledgerExch :=
  ledgerExch_congr (st.reportOnce_ledger c k y a) (st.reportOnce_banks c k y a)

theorem StrandSt.bankJudge_ledgerExch (st : StrandSt) (r a : Nat) (w : Bool) : (st.bankJudge r a w).2.ledgerExch = st.ledgerExch := by
  have h (e f c x y : Nat) (k : FClass) (z : List Nat) :
      ((((st.bankErr e r x y).flag Reg.BANK_FLAGS f).inc (Reg.BANK_CNT + 8 * e)).reportOnce c k c z).ledgerExch = st.ledgerExch := by
    rw [StrandSt.reportOnce_ledgerExch, StrandSt.inc_ledgerExch, StrandSt.flag_ledgerExch, StrandSt.bankErr_ledgerExch]
  unfold StrandSt.bankJudge
  dsimp only
  split_ifs
  · rfl
  · exact h 5 1 _ _ _ _ _
  · rfl
  · exact h 4 0 _ _ _ _ _

theorem StrandSt.bankCe_ledgerExch (st : StrandSt) (r k w : Nat) : (st.bankCe r k w).ledgerExch = st.ledgerExch := by
  unfold StrandSt.bankCe
  split_ifs
  · rfl
  · exact st.inc_ledgerExch _
  · exact ledgerExch_withBanks rfl

theorem StrandSt.markLasting_ledgerExch (st : StrandSt) (k : Nat) : (st.markLasting k).ledgerExch = st.ledgerExch := by
  unfold StrandSt.markLasting
  split
  · rfl
  · have h : ((st.putBit (Reg.BANK_STATE k) 4 true).flag Reg.BANK_FLAGS 5).ledgerExch = st.ledgerExch :=
      (StrandSt.flag_ledgerExch _ _ _).trans (ledgerExch_congr (st.putBit_ledger _ _ _) (st.putBit_banks _ _ _))
    exact (ledgerExch_withBanks rfl).trans h

theorem StrandSt.bankUe_ledgerExch (st : StrandSt) (r k w : Nat) : (st.bankUe r k w).ledgerExch = st.ledgerExch := by
  unfold StrandSt.bankUe
  extract_lets s1 s2
  have h : s2.ledgerExch = st.ledgerExch := by
    rw [StrandSt.report_ledgerExch, StrandSt.inc_ledgerExch, StrandSt.flag_ledgerExch, StrandSt.bankErr_ledgerExch, StrandSt.markLasting_ledgerExch]
  clear_value s2
  split
  · exact (ledgerExch_withBanks rfl).trans h
  · exact h

theorem StrandSt.takePort_ledgerExch (st : StrandSt) (r k : Nat) : (st.takePort r k).ledgerExch = st.ledgerExch := by
  unfold StrandSt.takePort
  dsimp only
  split_ifs <;> exact ledgerExch_congr rfl rfl

theorem foldl_snd_ledgerExch {α : Type} {f : Bool × StrandSt → α → Bool × StrandSt} (h : ∀ r a, (f r a).2.ledgerExch = r.2.ledgerExch) (l : List α)
    (r : Bool × StrandSt) : (l.foldl f r).2.ledgerExch = r.2.ledgerExch := by
  induction l generalizing r with
  | nil => rfl
  | cons a l ih => rw [List.foldl_cons, ih, h]

theorem StrandSt.eccRead_ledgerExch (st : StrandSt) (r a n : Nat) : (st.eccRead r a n).2.ledgerExch = st.ledgerExch := by
  unfold StrandSt.eccRead
  split
  · rfl
  · refine foldl_snd_ledgerExch (fun x w => ?_) _ (false, st)
    split
    · rfl
    · exact StrandSt.bankCe_ledgerExch _ _ _ _
    · exact StrandSt.bankUe_ledgerExch _ _ _ _

theorem StrandSt.bankRead1_ledgerExch (st : StrandSt) (r a n : Nat) : (st.bankRead1 r a n).st.ledgerExch = st.ledgerExch := by
  unfold StrandSt.bankRead1
  dsimp only
  split
  · exact st.bankJudge_ledgerExch r a false
  · rw [StrandSt.eccRead_ledgerExch, StrandSt.takePort_ledgerExch, StrandSt.bankJudge_ledgerExch]

theorem StrandSt.bankReadN_ledgerExch (st : StrandSt) (r a n k : Nat) : (st.bankReadN r a n k).st.ledgerExch = st.ledgerExch := by
  induction k generalizing st a n with
  | zero => rfl
  | succ k ih =>
    unfold StrandSt.bankReadN
    dsimp only
    split
    · exact st.bankRead1_ledgerExch r a n
    · rw [ih, StrandSt.bankRead1_ledgerExch]

theorem StrandSt.bankRead_ledgerExch (st : StrandSt) (r a n : Nat) : (st.bankRead r a n).st.ledgerExch = st.ledgerExch := st.bankReadN_ledgerExch r a n 8

/-- The Loupe's read of a message in an exchange bank leaves every ledger and every exchange bank's message. -/
theorem exchangeRead_ledgerExch (d : Dev) (i j : StrandId) : ((d.exchangeRead i).strand j).ledgerExch = (d.strand j).ledgerExch := by
  unfold Dev.exchangeRead
  split
  · rfl
  · by_cases h : j = i
    · subst h
      rw [Dev.onStrand_strand_same]
      exact StrandSt.bankRead_ledgerExch _ _ _ _
    · rw [Dev.onStrand_strand_ne _ _ h]

theorem touches_exchangeRead (d : Dev) (i : StrandId) : Touches [.strands, .clasp, .out, .loupe, .upd] d (d.exchangeRead i) := by
  unfold Dev.exchangeRead
  split
  · exact .refl _ d
  · exact touches_onStrand d i _

theorem touches_heard (d : Dev) (p : Nat) : Touches [.strands, .clasp, .out, .loupe, .upd] d (d.heard p) := by
  unfold Dev.heard
  split
  · exact touches_exchangeRead d _
  · exact .refl _ d

theorem heard_ledgerExch (d : Dev) (p : Nat) (j : StrandId) : ((d.heard p).strand j).ledgerExch = (d.strand j).ledgerExch := by
  unfold Dev.heard
  split
  · exact exchangeRead_ledgerExch d _ j
  · rfl

/-- A response goes into the exchange bank of its strand, where a message waits. -/
def Dev.answerIn (d : Dev) (i : StrandId) (bs : List Byte) : Quad StrandSt :=
  match (d.strand i).banks.exch with
  | none => d.strands
  | some x => d.strands.set i { d.strand i with banks := { (d.strand i).banks with exch := some { x with resp := some bs } } }

theorem exchangeReply_eq (d : Dev) (i : StrandId) (bs : List Byte) : d.exchangeReply i (some bs) = { d with strands := d.answerIn i bs } := by
  unfold Dev.exchangeReply Dev.answerIn
  cases h : (d.strand i).banks.exch <;> rfl

theorem answerIn_congr {d e : Dev} (h : e.strands = d.strands) (i : StrandId) (bs : List Byte) : e.answerIn i bs = d.answerIn i bs := by
  rw [Dev.answerIn, Dev.answerIn, Dev.strand, h]; rfl

theorem answerIn_ledger (d : Dev) (i j : StrandId) (bs : List Byte) : ((d.answerIn i bs).get j).ledger = (d.strand j).ledger := by
  unfold Dev.answerIn
  split
  · rfl
  · by_cases h : j = i
    · subst h; rw [Quad.get_set_same]
    · rw [Quad.get_set_ne _ _ h]; rfl

theorem answerIn_exch {d : Dev} {i : StrandId} {x : Exchange} (h : (d.strand i).banks.exch = some x) (bs : List Byte) :
    ((d.answerIn i bs).get i).banks.exch = some { x with resp := some bs } := by
  unfold Dev.answerIn
  rw [h]
  dsimp only
  rw [Quad.get_set_same]

end Sys2Proof.Machine
end

section
/-! Commands of Ngufotu: from a permitted request to its answer and its action. -/

namespace Sys2Proof.Machine

/-! ## Commands of Ngufotu: from a permitted request to its answer and its action -/

/-! ### What has been sent stays sent -/

/-- The outputs of `d` are the first of those of `e`. -/
def Grows (d e : Dev) : Prop := d.out <+: e.out

theorem Grows.refl (d : Dev) : Grows d d := List.prefix_refl _

theorem Grows.trans {d e f : Dev} (h : Grows d e) (h' : Grows e f) : Grows d f := List.IsPrefix.trans h h'

theorem Touches.grows {l : List DevField} {d e : Dev} (h : Touches l d e) (hl : l.contains .out = false) : Grows d e := by
  rw [Grows, h.out hl]

theorem Grows.ite {c : Prop} [Decidable c] {d e f : Dev} (ht : c → Grows d e) (hf : ¬c → Grows d f) : Grows d (if c then e else f) := by
  split
  · exact ht ‹_›
  · exact hf ‹_›

theorem Grows.foldl {α : Type} {f : Dev → α → Dev} (h : ∀ e a, Grows e (f e a)) (l : List α) (d : Dev) : Grows d (l.foldl f d) := by
  induction l generalizing d with
  | nil => exact .refl d
  | cons a l ih => exact (h d a).trans (ih _)

/-- What was sent by `e` was sent by `f`. -/
theorem sent_mono {d e f : Dev} {o : Out} (h : Sent d e o) (g : Grows e f) : Sent d f o := by
  obtain ⟨t, ht⟩ := g
  rw [Sent, ← ht, List.drop_append]
  exact List.mem_append_left _ h

/-- What was sent since `e` was sent since `d`. -/
theorem sent_since {d e f : Dev} {o : Out} (h : Sent e f o) (g : Grows d e) : Sent d f o := by
  have hl := g.length_le
  rw [Sent, ← Nat.add_sub_cancel' hl, ← List.drop_drop] at h
  exact List.mem_of_mem_drop h

theorem grows_absorb (d : Dev) (i : StrandId) (x : StrandSt) : Grows d (d.absorb i x) := by
  have h (e : Dev) : Grows e (x.reports.foldl (fun e r => e.takeReport i r) e) :=
    (Touches.foldl (l := [.loupe, .upd]) (fun e r => touches_takeReport e i r) _ e).grows rfl
  unfold Dev.absorb
  refine Grows.trans ?_ (h _)
  exact List.prefix_append _ _

theorem grows_onStrand (d : Dev) (i : StrandId) (f : StrandSt → StrandSt) : Grows d (d.onStrand i f) := grows_absorb d i _

theorem grows_heard (d : Dev) (p : Nat) : Grows d (d.heard p) := by
  unfold Dev.heard Dev.exchangeRead
  split
  · split
    · exact .refl d
    · exact grows_onStrand d _ _
  · exact .refl d

/-! ### The counters of the Clasp -/

/-- The counters of the Clasp, their snapshot, and the cycle's record of them. -/
def Dev.claspCounts (d : Dev) : Cycle × Tab Nat × Tab Nat := (d.thisCyc.clasp, d.clasp.cnt, d.clasp.snap)

theorem thisCyc_clasp (d : Dev) : d.thisCyc.clasp = if d.cyc.time = d.ns then d.cyc.clasp else {} := by
  unfold Dev.thisCyc
  dsimp only
  split <;> split <;> rfl

/-- A record of the cycle that keeps what is noted of the Clasp keeps its counters. -/
theorem claspCounts_noted {d e : Dev} (ht : e.cyc.time = d.thisCyc.time ∧ e.ns = d.ns) (hc : e.cyc.clasp = d.thisCyc.clasp) (h : e.clasp = d.clasp) :
    e.claspCounts = d.claspCounts := by
  rw [Dev.claspCounts, thisCyc_clasp, if_pos (ht.1.trans (d.thisCyc_time.trans ht.2.symm)), hc, h]; rfl

/-- An operation beside the record of the cycle and the Clasp keeps them too. -/
theorem claspCounts_congr {d e : Dev} (hn : e.ns = d.ns) (hy : e.cyc = d.cyc) (h : e.clasp = d.clasp) : e.claspCounts = d.claspCounts := by
  rw [Dev.claspCounts, thisCyc_clasp, hn, hy, h, ← thisCyc_clasp]; rfl

theorem claspCounts_linc (d : Dev) (x : Nat) : (d.linc x).claspCounts = d.claspCounts := claspCounts_noted ⟨rfl, rfl⟩ rfl rfl

theorem claspCounts_lflag (d : Dev) (a x : Nat) : (d.lflag a x).claspCounts = d.claspCounts := claspCounts_noted ⟨rfl, rfl⟩ rfl rfl

theorem claspCounts_pushLog (d : Dev) (c : Nat) (k : FClass) (s : Nat) (a : List Nat) (b : Bool) : (d.pushLog c k s a b).claspCounts = d.claspCounts := by
  unfold Dev.pushLog
  extract_lets l r lost d1 d2
  have h1 : d1.claspCounts = d.claspCounts := claspCounts_congr rfl rfl rfl
  have h2 : d2.claspCounts = d.claspCounts := (claspCounts_linc d1 4).trans h1
  split
  · rw [claspCounts_lflag, claspCounts_linc, h2]
  · exact h2

/-- A record of a transient fault is one record in the ring. -/
theorem log_transient (d : Dev) (c s : Nat) (a : List Nat) : d.log c .transient s a = d.pushLog c .transient s a false := rfl

/-- What the Loupe notes of a request it serves: its own log, counters and responses. -/
structure Notes (l : List DevField) (d e : Dev) : Prop where
  parts : Touches l d e
  counts : e.claspCounts = d.claspCounts

theorem Notes.trans {l : List DevField} {d e f : Dev} (h : Notes l d e) (h' : Notes l e f) : Notes l d f :=
  ⟨h.parts.trans h'.parts, h'.counts.trans h.counts⟩

theorem Notes.mono {l l' : List DevField} {d e : Dev} (h : Notes l d e) (hl : l.all l'.contains = true) : Notes l' d e :=
  ⟨h.parts.mono hl, h.counts⟩

theorem notes_log (d : Dev) (c s : Nat) (a : List Nat) : Notes [.loupe] d (d.log c .transient s a) := by
  rw [log_transient]
  exact ⟨touches_pushLog d c _ s a false, claspCounts_pushLog d c _ s a false⟩

theorem notes_logCommand (d : Dev) (h : NguHdr) (op : Nat) : Notes [.loupe] d (d.logCommand h op) :=
  .trans ⟨touches_linc d 3, claspCounts_linc d 3⟩ (notes_log _ _ _ _)

theorem notes_countMsg (d : Dev) : Notes [.loupe] d d.countMsg := by
  unfold Dev.countMsg
  extract_lets sec n
  exact ⟨(touches_loupe_own d (by rfl)).trans (touches_linc _ 0), (claspCounts_linc _ 0).trans (claspCounts_congr rfl rfl rfl)⟩

/-! ### A request that is permitted -/

theorem hostPath_b2n (b : Bool) : hostPath (b2n b) = some b := by cases b <;> rfl

/-- The paths of a message: a host's link, a strand's exchange bank, or neither. -/
theorem path_cases (p : Nat) :
    (∃ b, p = b2n b ∧ hostPath p = some b ∧ strandPath p = none) ∨ (∃ i, hostPath p = none ∧ strandPath p = some i) ∨
      (hostPath p = none ∧ strandPath p = none) := by
  rcases h : hostPath p with _ | b
  · rcases strandPath p with _ | i
    · exact .inr (.inr ⟨rfl, rfl⟩)
    · exact .inr (.inl ⟨i, rfl, rfl⟩)
  · have hp : p = b2n b := by
      unfold hostPath at h
      split at h <;> cases h <;> rfl
    exact .inl ⟨b, hp, rfl, by rw [hp]; cases b <;> rfl⟩

theorem hostPath_isSome {p : Nat} (h : p < 2) : (hostPath p).isSome = true := by interval_cases p <;> rfl

/-- The device after the verification of a request: the message read and counted, the nonce of a signed one used up (R445). -/
def Dev.verified (d : Dev) (h : NguHdr) : Dev :=
  let c := (d.heard h.path).countMsg
  if h.signed then { c with loupe := { c.loupe with nonce := none } } else c

/-- What a verified request has left of the device. -/
structure Verified (d : Dev) (h : NguHdr) (g : Dev) : Prop where
  notes : Notes [.loupe, .own] (d.heard h.path) g
  nonce : h.signed = true → g.loupe.nonce = none
  cool : g.loupe.coolAt = d.loupe.coolAt

theorem heard_own (d : Dev) (p : Nat) : (d.heard p).loupe.own = d.loupe.own := (touches_heard d p).own rfl

theorem countMsg_own (d : Dev) : d.countMsg.loupe.own = d.loupe.own := (notes_countMsg d).parts.own rfl

theorem verified_verified (d : Dev) (h : NguHdr) : Verified d h (d.verified h) := by
  have hn := (notes_countMsg (d.heard h.path)).mono (l' := [.loupe, .own]) rfl
  have ho : (d.heard h.path).countMsg.loupe.own = d.loupe.own := (countMsg_own _).trans (heard_own d _)
  unfold Dev.verified
  dsimp only
  split
  · exact ⟨hn.trans ⟨touches_loupe _ _, claspCounts_congr rfl rfl rfl⟩, fun _ => rfl, congrArg LoupeOwn.coolAt ho⟩
  · next hs => exact ⟨hn, fun h => absurd h hs, congrArg LoupeOwn.coolAt ho⟩

/-- A verified request carried out, or refused (R448). -/
def Dev.serve (g : Dev) (h : NguHdr) (op : Nat) (x : NguOp) : Dev :=
  if x.status g = 0 then x.act ((g.respond h op 0 (x.body g)).logCommand h op)
  else (if x.status g = 3 then g.log 0x0130 .transient 0 [op] else g).respond h op (x.status g) []

theorem nguGate_permits {d : Dev} {h : NguHdr} {op : Nat} (hl : d.lengthOk h = true) (hp : Permits d h op false) :
    d.nguGate h op false = (0, if h.signed then { d with loupe := { d.loupe with nonce := none } } else d) := by
  obtain ⟨hs, hc⟩ := hp
  unfold Dev.nguGate
  rcases hc with ⟨hn, h3, hq⟩ | ⟨hn, hk, ho⟩
  · have hh := hostPath_isSome (hq.resolve_left (by simp))
    have h3' : ¬ 0x300 ≤ op := by omega
    cases hx : hostPath h.path with
    | none => simp [hx] at hh
    | some b => simp [hl, hs, hn, h3']
  · simp [hl, hs, hn, hk, ho]

/-- What the verification reads is as it was before the message was read and counted. -/
theorem permits_congr {d e : Dev} (h : NguHdr) (op : Nat) (ho : e.loupe.own = d.loupe.own) (hm : e.mode = d.mode) (hh : e.hm = d.hm) (hn : e.ns = d.ns) :
    Permits e h op false ↔ Permits d h op false := by
  have hsafe : e.loupe.safe = d.loupe.safe := congrArg LoupeOwn.safe ho
  have hnon : e.loupe.nonce = d.loupe.nonce := congrArg LoupeOwn.nonce ho
  have hat : e.loupe.nonceAt = d.loupe.nonceAt := congrArg LoupeOwn.nonceAt ho
  simp only [Permits, Dev.nguServed, Dev.nguKeyOk, Dev.nonceOk, hsafe, hnon, hat, hm, hh, hn]

/-- A request that arrives and is permitted is served. -/
theorem ngu_permits {d : Dev} {h : NguHdr} {op : Nat} (ha : Arrives d h) (hp : Permits d h op false) (x : NguOp) :
    d.ngu h op false x = (d.verified h).serve h op x := by
  obtain ⟨hpath, hrate, hkept, hlen⟩ := ha
  have ht : Touches [.strands, .clasp, .out, .loupe, .upd] d (d.heard h.path).countMsg :=
    (touches_heard d h.path).trans ((notes_countMsg _).parts.mono rfl)
  have hk : (d.heard h.path).countMsg.keptResp h = none := by
    have e : (d.heard h.path).countMsg.loupe.kept = d.loupe.kept := congrArg LoupeOwn.kept (ht.own rfl)
    rw [← hkept, Dev.keptResp, Dev.keptResp, e, ht.ns rfl]
  have hl : (d.heard h.path).countMsg.lengthOk h = true := by
    rw [← hlen, Dev.lengthOk, Dev.lengthOk]
    cases hostPath h.path with
    | none => rfl
    | some b => dsimp only; rw [ht.link b rfl]
  have hg := nguGate_permits hl ((permits_congr h op (ht.own rfl) (ht.mode rfl) (ht.hm rfl) (ht.ns rfl)).2 hp)
  unfold Dev.ngu
  rw [hpath, hrate]
  dsimp only
  rw [hk, hg]
  dsimp only
  simp [Dev.serve, Dev.verified]

/-! ### The answer -/

/-- A strand table in the place of another changes nothing else. -/
theorem Touches.withStrands {l : List DevField} {d e : Dev} (h : Touches l d e) (x : Quad StrandSt) :
    Touches l { d with strands := x } { e with strands := x } := fun k hk => by
  cases k
  case strands => rfl
  all_goals exact h _ hk

/-- The answer that a path carries (R442, R450). -/
def Dev.carry (d : Dev) (path : Nat) (bs : List Byte) : Dev :=
  match hostPath path, strandPath path with
  | some b, _ => d.setLink b { d.link b with reqBuf := Memory.write (d.link b).reqBuf 0 bs, busy := false, done := true }
  | _, some i => d.exchangeReply i (some bs)
  | _, _ => d

theorem reply_eq (d : Dev) (path txn op status : Nat) (body : List Byte) :
    d.reply path txn op status body = (d.carry path (ngHeader txn op status body.length ++ body)).emit (.answer op status body) := rfl

/-- The kept responses with one more. -/
def Dev.keepResp (d : Dev) (h : NguHdr) (op status : Nat) (body : List Byte) : Dev :=
  let k : KeptResp := { path := h.path, txn := h.txn, at_ := d.ns, op := op, status := status, body := body }
  let kept := d.loupe.kept ++ [k]
  { d with loupe := { d.loupe with kept := kept.drop (kept.length - 16) } }

theorem respond_eq (d : Dev) (h : NguHdr) (op status : Nat) (body : List Byte) :
    d.respond h op status body = (d.keepResp h op status body).reply h.path h.txn op status body := rfl

theorem told_eq (d : Dev) (h : NguHdr) (op status : Nat) (body : List Byte) :
    told d h op status body = match strandPath h.path with
      | some i => { d.heard h.path with strands := (d.heard h.path).answerIn i (ngHeader h.txn op status body.length ++ body) }
      | none => d := by
  unfold told
  cases strandPath h.path with
  | none => rfl
  | some i => exact exchangeReply_eq _ _ _

/-- A response tells no more of a strand than its exchange bank. -/
theorem told_ledger (d : Dev) (h : NguHdr) (op status : Nat) (body : List Byte) (j : StrandId) :
    ((told d h op status body).strand j).ledger = (d.strand j).ledger := by
  rw [told_eq]
  split
  · exact (answerIn_ledger _ _ j _).trans (congrArg Prod.fst (heard_ledgerExch d h.path j))
  · rfl

theorem touches_told (d : Dev) (h : NguHdr) (op status : Nat) (body : List Byte) :
    Touches [.strands, .clasp, .out, .loupe, .upd] d (told d h op status body) := by
  rw [told_eq]
  split
  · exact (touches_heard d _).trans ((touches_strands _ _).mono rfl)
  · exact .refl _ d

/-- A request answered with a status and a body: what the answer leaves of the device, and what it used up (R445). -/
structure Replied (d : Dev) (h : NguHdr) (op status : Nat) (body : List Byte) (e : Dev) : Prop where
  parts : Touches [.loupe, .own, .clasp, .port, .out] (told d h op status body) e
  counts : e.claspCounts = (d.heard h.path).claspCounts
  answered : Answered d e h op status body
  nonce : h.signed = true → e.loupe.nonce = none
  cool : e.loupe.coolAt = d.loupe.coolAt

/-- An operation that leaves the exchange banks and the links keeps an answer. -/
theorem answered_mono {d e f : Dev} {h : NguHdr} {op status : Nat} {body : List Byte} (ha : Answered d e h op status body) (hg : Grows e f)
    (hl : f.clasp.port = e.clasp.port) (hx : ∀ i, (f.strand i).banks.exch = (e.strand i).banks.exch) : Answered d f h op status body := by
  obtain ⟨h1, h2, h3⟩ := ha
  have hlink (b : Bool) : f.link b = e.link b := congrArg (fun p : Duo Link × Bool × Bool × Option Nat => p.1.get b) hl
  exact ⟨sent_mono h1 hg, fun b hb => by rw [hlink]; exact h2 b hb, fun i hi x hxx => (hx i).trans (h3 i hi x hxx)⟩

/-- The Loupe's notes after an answer leave it as it is. -/
theorem Replied.notes {d e f : Dev} {h : NguHdr} {op status : Nat} {body : List Byte} (hr : Replied d h op status body e) (hn : Notes [.loupe] e f) :
    Replied d h op status body f where
  parts := hr.parts.trans (hn.parts.mono rfl)
  counts := hn.counts.trans hr.counts
  answered := answered_mono hr.answered (hn.parts.grows rfl) (hn.parts.port rfl) fun i => by rw [hn.parts.strand i rfl]
  nonce hs := (congrArg LoupeOwn.nonce (hn.parts.own rfl)).trans (hr.nonce hs)
  cool := (congrArg LoupeOwn.coolAt (hn.parts.own rfl)).trans hr.cool

theorem Verified.then {d g f : Dev} {h : NguHdr} (hv : Verified d h g) (hn : Notes [.loupe] g f) : Verified d h f where
  notes := hv.notes.trans (hn.mono rfl)
  nonce hs := (congrArg LoupeOwn.nonce (hn.parts.own rfl)).trans (hv.nonce hs)
  cool := (congrArg LoupeOwn.coolAt (hn.parts.own rfl)).trans hv.cool

theorem b2n_inj {a b : Bool} (h : b2n a = b2n b) : a = b := by
  cases a <;> cases b <;> simp [b2n] at h ⊢

theorem claspCounts_setLink (d : Dev) (b : Bool) (x : Link) : (d.setLink b x).claspCounts = d.claspCounts := by
  rw [Dev.claspCounts, thisCyc_clasp, Dev.claspCounts, thisCyc_clasp]; rfl

theorem link_setLink_same (d : Dev) (b : Bool) (x : Link) : (d.setLink b x).link b = x := Duo.get_set_same _ _ _

/-- A host's link with an answer in its buffer. -/
def Link.answered (x : Link) (bs : List Byte) : Link := { x with reqBuf := Memory.write x.reqBuf 0 bs, busy := false, done := true }

theorem answered_spec (x : Link) (bs : List Byte) :
    (x.answered bs).busy = false ∧ (x.answered bs).done = true ∧ (x.answered bs).reqBuf = Memory.write x.reqBuf 0 bs := ⟨rfl, rfl, rfl⟩

theorem carry_host {d : Dev} {p : Nat} {b : Bool} (h : hostPath p = some b) (bs : List Byte) : d.carry p bs = d.setLink b ((d.link b).answered bs) := by
  unfold Dev.carry; rw [h]; rfl

theorem carry_strand {d : Dev} {p : Nat} {i : StrandId} (h : hostPath p = none) (hs : strandPath p = some i) (bs : List Byte) :
    d.carry p bs = { d with strands := d.answerIn i bs } := by
  unfold Dev.carry; rw [h, hs]; exact exchangeReply_eq d i bs

theorem carry_other {d : Dev} {p : Nat} (h : hostPath p = none) (hs : strandPath p = none) (bs : List Byte) : d.carry p bs = d := by
  unfold Dev.carry; rw [h, hs]

theorem heard_other {d : Dev} {p : Nat} (h : strandPath p = none) : d.heard p = d := by unfold Dev.heard; rw [h]

theorem told_other {d : Dev} {h : NguHdr} (hs : strandPath h.path = none) (op status : Nat) (body : List Byte) : told d h op status body = d := by
  unfold told; rw [hs]

theorem claspCounts_carry (d : Dev) (p : Nat) (bs : List Byte) : (d.carry p bs).claspCounts = d.claspCounts := by
  rcases path_cases p with ⟨b, -, hh, -⟩ | ⟨i, hh, hs⟩ | ⟨hh, hs⟩
  · rw [carry_host hh]; exact claspCounts_setLink d b _
  · rw [carry_strand hh hs]; exact claspCounts_congr rfl rfl rfl
  · rw [carry_other hh hs]

theorem touches_carry (d : Dev) (p : Nat) (bs : List Byte) : Touches [.strands, .clasp, .port] d (d.carry p bs) := by
  rcases path_cases p with ⟨b, -, hh, -⟩ | ⟨i, hh, hs⟩ | ⟨hh, hs⟩
  · rw [carry_host hh]; exact (touches_setLink d b _).mono rfl
  · rw [carry_strand hh hs]; exact (touches_strands d _).mono rfl
  · rw [carry_other hh hs]; exact .refl _ d

/-- A response carried after notes is the one `told` tells of. -/
theorem touches_told_carry {d k : Dev} {h : NguHdr} (tk : Touches [.loupe, .own] (d.heard h.path) k) (op status : Nat) (body : List Byte) :
    Touches [.loupe, .own, .clasp, .port] (told d h op status body) (k.carry h.path (ngHeader h.txn op status body.length ++ body)) := by
  rcases path_cases h.path with ⟨b, -, hh, hs⟩ | ⟨i, hh, hs⟩ | ⟨hh, hs⟩
  · rw [carry_host hh, told_other hs]
    rw [heard_other hs] at tk
    exact (tk.mono rfl).trans ((touches_setLink k b _).mono rfl)
  · rw [carry_strand hh hs, told_eq, hs, answerIn_congr (tk.strands rfl)]
    exact (tk.withStrands _).mono rfl
  · rw [carry_other hh hs, told_other hs]
    rw [heard_other hs] at tk
    exact tk.mono rfl

theorem carry_link {d k : Dev} {p : Nat} {b : Bool} (hb : p = b2n b) (tk : Touches [.loupe, .own] (d.heard p) k) (bs : List Byte) :
    (k.carry p bs).link b = (d.link b).answered bs := by
  have hh : hostPath p = some b := by rw [hb, hostPath_b2n]
  have ht := (((touches_heard d p).mono rfl).trans (tk.mono rfl) : Touches [.strands, .clasp, .out, .loupe, .upd, .own] d k)
  rw [carry_host hh, link_setLink_same, ht.link b rfl]

theorem carry_exch {d k : Dev} {p : Nat} {i : StrandId} {x : Exchange} (hi : i ∈ strandPath p) (hx : x ∈ (d.strand i).banks.exch)
    (tk : Touches [.loupe, .own] (d.heard p) k) (bs : List Byte) : ((k.carry p bs).strand i).banks.exch = some { x with resp := some bs } := by
  have hh : hostPath p = none := by
    rcases path_cases p with ⟨b, -, -, hs⟩ | ⟨-, hh, -⟩ | ⟨hh, -⟩
    · rw [hs] at hi; cases hi
    · exact hh
    · exact hh
  rw [carry_strand hh hi]
  refine answerIn_exch ?_ bs
  rw [tk.strand i rfl]
  exact (congrArg Prod.snd (heard_ledgerExch d p i)).trans hx

/-- The answer to a verified request. -/
theorem Verified.replied {d g : Dev} {h : NguHdr} (hv : Verified d h g) (op status : Nat) (body : List Byte) :
    Replied d h op status body (g.respond h op status body) := by
  obtain ⟨⟨hp, hc⟩, hn, hcool⟩ := hv
  rw [respond_eq, reply_eq]
  have tk : Touches [.loupe, .own] (d.heard h.path) (g.keepResp h op status body) := hp.trans (touches_loupe g _)
  have ck : (g.keepResp h op status body).claspCounts = (d.heard h.path).claspCounts := (claspCounts_congr rfl rfl rfl).trans hc
  have nk : h.signed = true → (g.keepResp h op status body).loupe.nonce = none := hn
  have kk : (g.keepResp h op status body).loupe.coolAt = d.loupe.coolAt := hcool
  generalize g.keepResp h op status body = k at tk ck nk kk ⊢
  have tc := touches_carry k h.path (ngHeader h.txn op status body.length ++ body)
  have te := touches_emit (k.carry h.path (ngHeader h.txn op status body.length ++ body)) (.answer op status body)
  refine ⟨((touches_told_carry tk op status body).mono rfl).trans (te.mono rfl), ?_, ⟨?_, fun b hb => ?_, fun i hi x hx => ?_⟩, fun hs => ?_, ?_⟩
  · exact ((claspCounts_congr rfl rfl rfl).trans (claspCounts_carry k _ _)).trans ck
  · exact sent_since (sent_emit _ _) ((grows_heard d h.path).trans ((tk.grows rfl).trans (tc.grows rfl)))
  · rw [te.link b rfl, carry_link hb tk]
    exact answered_spec _ _
  · rw [te.strand i rfl, carry_exch hi hx tk]
  · rw [te.loupe rfl, tc.loupe rfl, nk hs]
  · rw [te.loupe rfl, tc.loupe rfl, kk]

/-! ### Commands -/

theorem Replied.touches {d e : Dev} {h : NguHdr} {op status : Nat} {body : List Byte} (hr : Replied d h op status body e) :
    Touches [.strands, .clasp, .out, .loupe, .upd, .own, .port] d e := ((touches_told d h op status body).mono rfl).trans (hr.parts.mono rfl)

theorem Replied.ledger {d e : Dev} {h : NguHdr} {op status : Nat} {body : List Byte} (hr : Replied d h op status body e) (j : StrandId) :
    (e.strand j).ledger = (d.strand j).ledger := by rw [hr.parts.strand j rfl, told_ledger]

theorem Verified.touches {d g : Dev} {h : NguHdr} (hv : Verified d h g) : Touches [.strands, .clasp, .out, .loupe, .upd, .own] d g :=
  ((touches_heard d h.path).mono rfl).trans (hv.notes.parts.mono rfl)

/-- A command that is carried out acts on the device that has answered and logged it. -/
theorem serve_ok {d : Dev} {h : NguHdr} {op : Nat} {x : NguOp} (hs : x.status (d.verified h) = 0) :
    ∃ e, (d.verified h).serve h op x = x.act e ∧ Replied d h op 0 (x.body (d.verified h)) e ∧ LogHas e 0x120B := by
  refine ⟨_, if_pos hs, ((verified_verified d h).replied op 0 _).notes (notes_logCommand _ h op), ?_⟩
  exact logHas_log _ _ _ _ _

/-- A command that is refused is answered, and the refusal noted. -/
theorem serve_no {d : Dev} {h : NguHdr} {op : Nat} {x : NguOp} {k : Nat} (hk : k ≠ 0) (hs : x.status (d.verified h) = k) :
    Replied d h op k [] ((d.verified h).serve h op x) := by
  unfold Dev.serve
  rw [if_neg (by rwa [hs]), hs]
  have hv := verified_verified d h
  split
  · exact (hv.then (notes_log _ _ _ _)).replied op k []
  · exact hv.replied op k []

/-- The effect of a command whose condition holds, from what its action does. -/
theorem command_ok {c : Instr} {s : State} {h : NguHdr} {op : Nat} {status : Dev → Nat} {act : Dev → Dev} {P : Dev → Prop}
    (hx : exec c s = .next (s.runAt h.gap fun d => d.nguCmd h op status act)) (ha : Arrives (later s h.gap) h)
    (hs : ∀ g, Verified (later s h.gap) h g → status g = 0)
    (hP : ∀ e, Replied (later s h.gap) h op 0 [] e → LogHas e 0x120B →
      Grows e (act e) ∧ (e.loupe.nonce = none → (act e).loupe.nonce = none) ∧ P (act e))
    (hp : Permits (later s h.gap) h op false) :
    Ends c s fun e => Sent (later s h.gap) e (.answer op 0 []) ∧ (h.signed = true → e.loupe.nonce = none) ∧ P e := by
  refine ends_runAt hx ?_
  obtain ⟨e, he, hr, hl⟩ := serve_ok (op := op) (x := { status := status, body := fun _ => [], act := act }) (hs _ (verified_verified _ h))
  obtain ⟨hg, hn, hq⟩ := hP e hr hl
  rw [Dev.nguCmd, ngu_permits ha hp, he]
  exact ⟨sent_mono hr.answered.1 hg, fun hsig => hn (hr.nonce hsig), hq⟩

/-- A command whose condition does not hold. -/
theorem command_no {c : Instr} {s : State} {h : NguHdr} {op k : Nat} {status : Dev → Nat} {act : Dev → Dev}
    (hx : exec c s = .next (s.runAt h.gap fun d => d.nguCmd h op status act)) (ha : Arrives (later s h.gap) h) (hk : k ≠ 0)
    (hs : ∀ g, Verified (later s h.gap) h g → status g = k) (hp : Permits (later s h.gap) h op false) :
    Ends c s fun e => Answered (later s h.gap) e h op k [] ∧ DevKeeps (told (later s h.gap) h op k []) e [.loupe] := by
  refine ends_runAt hx ?_
  rw [Dev.nguCmd, ngu_permits ha hp]
  have hr := serve_no (op := op) (x := { status := status, body := fun _ => [], act := act }) hk (hs _ (verified_verified _ h))
  exact ⟨hr.answered, hr.parts.devKeeps [.loupe] rfl⟩

end Sys2Proof.Machine
end

section
/-! Commands of Ngufotu on one strand, and SAFE_HOLD. -/

namespace Sys2Proof.Machine

/-! ## Commands of Ngufotu on one strand, and SAFE_HOLD -/

theorem Touches.nonce {l : List DevField} {d e : Dev} (h : Touches l d e) (hl : l.contains .own = false) : e.loupe.nonce = d.loupe.nonce :=
  congrArg LoupeOwn.nonce (h.own hl)

theorem grows_fence (d : Dev) (i : StrandId) (b c : Nat) : Grows d (d.fence i b c) := by
  unfold Dev.fence
  extract_lets d1 d2 d3 d4 d5
  have h2 : Touches [.sup, .clasp, .loupe, .upd] d d2 :=
    (((touches_setCause d i b).trans (touches_updSup _ i _)).mono rfl).trans ((touches_claspGate d1 i).mono rfl)
  have h3 : Grows d2 d3 := .ite (fun _ => List.prefix_append _ _) fun _ => .refl d2
  have h5 : Touches [.sup, .strands, .clasp, .loupe, .upd, .fenced] d3 d5 :=
    (((touches_strands d3 _).mono rfl).trans ((touches_noteFenced d4 i).mono rfl)).trans
      (((touches_setPhase _ i _).mono rfl).trans ((touches_fenceInEnd _ i).mono rfl))
  have h6 : Touches [.loupe, .upd] d5 (if c = 0x0112 then d5.logExpiry c .fatal i else d5.log c .fatal (0x10 + i.val) []) :=
    .ite (fun _ => touches_logExpiry _ _ _ _) fun _ => touches_log _ _ _ _ _
  exact (h2.grows rfl).trans (h3.trans ((h5.grows rfl).trans (h6.grows rfl)))

theorem grows_toHold (d : Dev) (i : StrandId) : Grows d (d.toHold i) :=
  .ite (fun _ => .refl d) fun _ => ((touches_setPhase d i _).grows rfl).trans (grows_onStrand _ i _)

theorem grows_toRun (d : Dev) (i : StrandId) : Grows d (d.toRun i) :=
  .ite (fun _ => .refl d) fun _ => ((touches_setPhase d i _).grows rfl).trans (grows_onStrand _ i _)

/-- MD9 entered from the mode that the device was in, for a cause (R44). -/
def Dev.holding (d : Dev) (w : HoldBy) : Dev := ({ d with holdBy := some w, holdFrom := d.mode } : Dev).setMode 9

theorem touches_holding (d : Dev) (w : HoldBy) : Touches [.mode, .holdBy, .holdFrom, .clasp, .loupe, .upd] d (d.holding w) := by
  refine .trans (fun k h => ?_) ((touches_setMode _ 9).mono rfl)
  cases k <;> simp at h <;> rfl

theorem enterHold_eq {d : Dev} (h : d.inBase = true ∨ d.mode = 8) (w : HoldBy) : d.enterHold w = allStrands.foldl (fun e i => e.toHold i) (d.holding w) := by
  unfold Dev.enterHold
  rw [if_neg (by rcases h with h | h <;> simp [h])]
  rfl

theorem grows_enterHold (d : Dev) (w : HoldBy) : Grows d (d.enterHold w) := by
  by_cases h : d.inBase = true ∨ d.mode = 8
  · rw [enterHold_eq h]
    exact ((touches_holding d w).grows rfl).trans (.foldl grows_toHold _ _)
  · rw [Dev.enterHold, if_pos (by simpa [not_or] using h)]
    exact .refl d

theorem grows_afterFence (d : Dev) : Grows d d.afterFence := by
  have h8 : Grows d (if d.inBase then d.setMode 8 else d) := .ite (fun _ => (touches_setMode d 8).grows rfl) fun _ => .refl d
  rw [afterFence_eq]
  exact .ite (fun _ => h8.trans (grows_enterHold _ _)) fun _ => h8

/-- A fence outward of a strand that no reset of the cycle took out of its state. -/
theorem fenceOut_first {d : Dev} {i : StrandId} (h0 : d.phase i ≠ .off) (h1 : d.phase i ≠ .fenced) (hb : d.thisCyc.before.get none i = none) (b c : Nat) :
    d.fenceOut i b c = (d.fence i b c).afterFence := by
  have hu : d.unReset i = d := by unfold Dev.unReset; rw [hb]
  have he := fenceOut_eq (d := d) (i := i) h1 (by rwa [hu]) (by rwa [hu]) b c
  rw [he, hu]

section
variable {s : State} {h : NguHdr} {op : Nat}

/-- What a reset by a command leaves of its strand, of the others and of the mode. -/
def FreshFrom (d q e : Dev) (i : StrandId) : Prop :=
  OthersKept q e i ∧ e.mode = d.mode ∧ (e.supOf i).lock = false ∧ (e.strand i).core = {} ∧ (e.strand i).dma = {} ∧ (e.strand i).banks.mem = []

theorem Replied.freshFrom {d g e : Dev} {i : StrandId} {x : StrandSt} (hr : Replied d h op 0 [] g) (hf : Fresh g e i x) :
    FreshFrom d (told d h op 0 []) e i := by
  obtain ⟨ho, hm, hl, hc, -, -, -, -, hd, hb, -, -⟩ := hf
  refine ⟨fun j hj => ?_, hm.trans (hr.touches.mode rfl), hl, hc, hd, hb⟩
  obtain ⟨h1, h2⟩ := ho j hj
  exact ⟨h1.trans (hr.parts.strand j rfl), h2.trans (hr.parts.supOf j rfl)⟩

/-- The commands on a strand ask that it is neither OFF nor FENCED. -/
theorem modeIf_present (g : Dev) (i : StrandId) (h0 : g.phase i ≠ .off) (h1 : g.phase i ≠ .fenced) :
    modeIf (g.phase i != .off && g.phase i != .fenced) = 0 := by simp [modeIf, h0, h1]

theorem modeIf_absent (g : Dev) (i : StrandId) (h0 : g.phase i = .off ∨ g.phase i = .fenced) :
    modeIf (g.phase i != .off && g.phase i != .fenced) = 3 := by rcases h0 with h | h <;> simp [modeIf, h]

variable {i : StrandId} (ha : Arrives (later s h.gap) h)
include ha

/-- FENCE of a strand (R34). -/
theorem command_fence (h0 : (later s h.gap).phase i ≠ .off) (h1 : (later s h.gap).phase i ≠ .fenced)
    (hb : (later s h.gap).thisCyc.before.get none i = none) (hp : Permits (later s h.gap) h 0x101 false) :
    Ends (.fence h i) s fun e => Sent (later s h.gap) e (.answer 0x101 0 []) ∧ (h.signed = true → e.loupe.nonce = none) ∧
      e.phase i = .fenced ∧ (e.supOf i).fenceOut = true ∧ bitOf (e.supOf i).cause 12 = true ∧ (e.strand i).banks.mem = [] ∧
      ∀ j, j ≠ i → e.phase j = (later s h.gap).phase j ∨ ((later s h.gap).phase j = .run ∧ e.phase j = .hold ∧ e.mode = 9) := by
  refine command_ok (c := .fence h i) rfl ha (fun g hg => ?_) (fun g hr _ => ?_) hp
  · have ht := hg.touches.phase i rfl
    exact modeIf_present g i (by rwa [ht]) (by rwa [ht])
  · have ht := hr.touches
    rw [fenceOut_first (by rwa [ht.phase i rfl]) (by rwa [ht.phase i rfl]) (by rwa [ht.before rfl])]
    obtain ⟨g1, g2, -, g3, g4, g5, -⟩ := gone_fence (d := g) (d0 := g) (i := i) (bit := 12) (by decide) rfl (fun _ _ => rfl) 0x0115
    refine ⟨(grows_fence g i 12 0x0115).trans (grows_afterFence _), fun hn => ?_, g1, g2, g3, g4, fun j hj => ?_⟩
    · rw [(touches_afterFence _).nonce rfl, (touches_fence g i 12 0x0115).nonce rfl, hn]
    · rw [← ht.phase j rfl]
      exact g5 j hj

theorem command_fence_refused (h0 : (later s h.gap).phase i = .off ∨ (later s h.gap).phase i = .fenced) (hp : Permits (later s h.gap) h 0x101 false) :
    Ends (.fence h i) s fun e => Answered (later s h.gap) e h 0x101 3 [] ∧ DevKeeps (told (later s h.gap) h 0x101 3 []) e [.loupe] := by
  refine command_no (c := .fence h i) rfl ha (by decide) (fun g hg => ?_) hp
  exact modeIf_absent g i (by rwa [hg.touches.phase i rfl])

/-- STRAND_WARM by command (R508). -/
theorem command_warm (h0 : (later s h.gap).phase i ≠ .off) (h1 : (later s h.gap).phase i ≠ .fenced) (hf : ((later s h.gap).supOf i).fenceIn = false)
    (hp : Permits (later s h.gap) h 0x109 false) :
    Ends (.nguStrandWarm h i) s fun e => Sent (later s h.gap) e (.answer 0x109 0 []) ∧ (h.signed = true → e.loupe.nonce = none) ∧
      FreshFrom (later s h.gap) (told (later s h.gap) h 0x109 0 []) e i ∧ e.phase i = .loading ∧ (e.supOf i).lastReset = 1 ∧
      (e.strand i).ledger = ((later s h.gap).strand i).ledger := by
  refine command_ok (c := .nguStrandWarm h i) rfl ha (fun g hg => ?_) (fun g hr _ => ?_) hp
  · have ht := hg.touches.phase i rfl
    exact modeIf_present g i (by rwa [ht]) (by rwa [ht])
  · have ht := hr.touches
    have e : g.loupeWarm i = g.strandWarm i := by rw [Dev.loupeWarm, ht.supOf i rfl, hf]; rfl
    rw [e]
    obtain ⟨g1, g2, g3, g4, -, -, -, -⟩ := fresh_strandWarm (d := g) (i := i) (by rwa [ht.phase i rfl]) (by rwa [ht.phase i rfl])
    have tw := touches_strandWarm g i
    exact ⟨tw.grows rfl, fun hn => (tw.nonce rfl).trans hn, hr.freshFrom g1, g2, g3, g4.trans (hr.ledger i)⟩

/-- A strand fenced inward takes no STRAND_WARM (R32). -/
theorem command_warm_ignored (h0 : (later s h.gap).phase i ≠ .off) (h1 : (later s h.gap).phase i ≠ .fenced)
    (hf : ((later s h.gap).supOf i).fenceIn = true) (hp : Permits (later s h.gap) h 0x109 false) :
    Ends (.nguStrandWarm h i) s fun e => Sent (later s h.gap) e (.answer 0x109 0 []) ∧ (h.signed = true → e.loupe.nonce = none) ∧
      DevKeeps (told (later s h.gap) h 0x109 0 []) e [.loupe] := by
  refine command_ok (c := .nguStrandWarm h i) rfl ha (fun g hg => ?_) (fun g hr _ => ?_) hp
  · have ht := hg.touches.phase i rfl
    exact modeIf_present g i (by rwa [ht]) (by rwa [ht])
  · have e : g.loupeWarm i = g := by rw [Dev.loupeWarm, hr.touches.supOf i rfl, hf]; rfl
    rw [e]
    exact ⟨.refl g, id, hr.parts.devKeeps [.loupe] rfl⟩

theorem command_warm_refused (h0 : (later s h.gap).phase i = .off ∨ (later s h.gap).phase i = .fenced) (hp : Permits (later s h.gap) h 0x109 false) :
    Ends (.nguStrandWarm h i) s fun e => Answered (later s h.gap) e h 0x109 3 [] ∧ DevKeeps (told (later s h.gap) h 0x109 3 []) e [.loupe] := by
  refine command_no (c := .nguStrandWarm h i) rfl ha (by decide) (fun g hg => ?_) hp
  exact modeIf_absent g i (by rwa [hg.touches.phase i rfl])

/-- A message arrives in no device in POR. -/
theorem arrives_por : (later s h.gap).por = false ∧ (later s h.gap).mode ≠ 0 := by
  have hpath := ha.1
  unfold Dev.nguPath at hpath
  split at hpath
  · cases hpath
  · next hn => simpa using hn

/-- STRAND_COLD by command (R448). -/
theorem command_cold (hf : ((later s h.gap).supOf i).fenceIn = false) (hc : i.val ∉ (later s h.gap).thisCyc.fenced)
    (hp : Permits (later s h.gap) h 0x10A false) :
    Ends (.nguStrandCold h i) s fun e => Sent (later s h.gap) e (.answer 0x10A 0 []) ∧ (h.signed = true → e.loupe.nonce = none) ∧
      FreshFrom (later s h.gap) (told (later s h.gap) h 0x10A 0 []) e i ∧ e.phase i = .off ∧ (e.supOf i).lastReset = 2 ∧
      (e.strand i).ledger = Ledger.cleared := by
  refine command_ok (c := .nguStrandCold h i) rfl ha (fun _ _ => rfl) (fun g hr _ => ?_) hp
  have ht := hr.touches
  have e : g.loupeCold i = g.strandCold i := by rw [Dev.loupeCold, ht.supOf i rfl, hf]; rfl
  rw [e]
  obtain ⟨g1, g2, g3⟩ := fresh_strandCold (d := g) (i := i) ((ht.por rfl).trans (arrives_por ha).1) (by rwa [ht.fenced rfl])
  have tw := touches_strandCold g i
  refine ⟨tw.grows rfl, fun hn => (tw.nonce rfl).trans hn, hr.freshFrom g1, ?_, ?_, g3⟩
  · rw [Dev.phase, g2]; rfl
  · rw [g2]; rfl

/-- A strand fenced inward, or fenced in this cycle, takes no STRAND_COLD (R32, R43). -/
theorem command_cold_ignored (hf : ((later s h.gap).supOf i).fenceIn = true ∨ i.val ∈ (later s h.gap).thisCyc.fenced)
    (hp : Permits (later s h.gap) h 0x10A false) :
    Ends (.nguStrandCold h i) s fun e => Sent (later s h.gap) e (.answer 0x10A 0 []) ∧ (h.signed = true → e.loupe.nonce = none) ∧
      DevKeeps (told (later s h.gap) h 0x10A 0 []) e [.loupe] := by
  refine command_ok (c := .nguStrandCold h i) rfl ha (fun _ _ => rfl) (fun g hr _ => ?_) hp
  have ht := hr.touches
  have e : g.loupeCold i = g := by
    unfold Dev.loupeCold
    split
    · rfl
    · next hn => exact strandCold_ignored (.inr (by rw [ht.fenced rfl]; exact hf.resolve_left (by rwa [← ht.supOf i rfl])))
  rw [e]
  exact ⟨.refl g, id, hr.parts.devKeeps [.loupe] rfl⟩

/-- REJOIN of a FENCED strand in MD8 (R36). -/
theorem command_rejoin (hm : (later s h.gap).mode = 8) (h1 : (later s h.gap).phase i = .fenced) (hc : i.val ∉ (later s h.gap).thisCyc.fenced)
    (hp : Permits (later s h.gap) h 0x102 false) :
    Ends (.rejoin h i) s fun e => Sent (later s h.gap) e (.answer 0x102 0 []) ∧ (h.signed = true → e.loupe.nonce = none) ∧
      FreshFrom (later s h.gap) (told (later s h.gap) h 0x102 0 []) e i ∧ e.phase i = .off ∧ (e.supOf i).rejoin = true := by
  refine command_ok (c := .rejoin h i) rfl ha (fun g hg => ?_) (fun g hr _ => ?_) hp
  · simp [modeIf, hg.touches.mode rfl, hg.touches.phase i rfl, hm, h1]
  · have ht := hr.touches
    have hf : i.val ∉ g.thisCyc.fenced := by rwa [ht.fenced rfl]
    have e : g.rejoin i = (g.strandCold i).updSup i fun x => { x with rejoin := true } := by
      unfold Dev.rejoin
      rw [if_neg (by simp [ht.mode rfl, ht.phase i rfl, hm, h1, hf])]
    rw [e]
    obtain ⟨g1, g2, -⟩ := fresh_strandCold (d := g) (i := i) ((ht.por rfl).trans (arrives_por ha).1) hf
    have tw := touches_strandCold g i
    have tu := touches_updSup (g.strandCold i) i fun x => { x with rejoin := true }
    have hs : ((g.strandCold i).updSup i fun x => { x with rejoin := true }).supOf i = { (g.first i).1.cold with rejoin := true } := by
      rw [Dev.supOf_updSup_same, g2]
    obtain ⟨ho, hmode, hl, hcore, hdma, hmem⟩ := hr.freshFrom g1
    refine ⟨(tw.grows rfl).trans (tu.grows rfl), fun hn => (tu.nonce rfl).trans ((tw.nonce rfl).trans hn), ⟨fun j hj => ?_, ?_, ?_, ?_, ?_, ?_⟩, ?_, ?_⟩
    · rw [tu.strand j rfl, Dev.supOf_updSup_ne _ _ hj]; exact ho j hj
    · rw [tu.mode rfl, hmode]
    · rw [hs]; rfl
    · rw [tu.strand i rfl, hcore]
    · rw [tu.strand i rfl, hdma]
    · rw [tu.strand i rfl, hmem]
    · rw [Dev.phase, hs]; rfl
    · rw [hs]

theorem command_rejoin_refused (hm : (later s h.gap).mode ≠ 8 ∨ (later s h.gap).phase i ≠ .fenced) (hp : Permits (later s h.gap) h 0x102 false) :
    Ends (.rejoin h i) s fun e => Answered (later s h.gap) e h 0x102 3 [] ∧ DevKeeps (told (later s h.gap) h 0x102 3 []) e [.loupe] := by
  refine command_no (c := .rejoin h i) rfl ha (by decide) (fun g hg => ?_) hp
  rw [hg.touches.mode rfl, hg.touches.phase i rfl]
  rcases hm with hm | hm <;> simp [modeIf, hm]

/-- SAFE_HOLD from a base mode or MD8 (R44). -/
theorem command_safeHold (h4 : 4 ≤ (later s h.gap).mode) (h8 : (later s h.gap).mode ≤ 8) (hp : Permits (later s h.gap) h 0x103 false) :
    Ends (.safeHold h) s fun e => Sent (later s h.gap) e (.answer 0x103 0 []) ∧ (h.signed = true → e.loupe.nonce = none) ∧
      e.mode = 9 ∧ e.holdBy = some .safeHold ∧ e.holdFrom = (later s h.gap).mode ∧
      ∀ j, e.phase j = if (later s h.gap).phase j = .run then .hold else (later s h.gap).phase j := by
  have hin {g : Dev} (hg : g.mode = (later s h.gap).mode) : g.inBase = true ∨ g.mode = 8 := by
    rw [Dev.inBase, hg]; simp; omega
  refine command_ok (c := .safeHold h) rfl ha (fun g hg => ?_) (fun g hr _ => ?_) hp
  · rcases hin (hg.touches.mode rfl) with h | h <;> simp [modeIf, h]
  · have ht := hr.touches
    rw [enterHold_eq (hin (ht.mode rfl))]
    have th := touches_holding g .safeHold
    have tf := Touches.foldl (fun e i => touches_toHold e i) allStrands (g.holding .safeHold)
    refine ⟨(th.grows rfl).trans (.foldl grows_toHold _ _), fun hn => ?_, ?_, ?_, ?_, fun j => ?_⟩
    · rw [tf.nonce rfl, th.nonce rfl, hn]
    · exact (tf.mode rfl).trans (Dev.setMode_mode _ 9)
    · exact (tf.holdBy rfl).trans ((touches_setMode _ 9).holdBy rfl)
    · exact (tf.holdFrom rfl).trans (((touches_setMode _ 9).holdFrom rfl).trans (ht.mode rfl))
    · rw [allHold_phase, th.phase j rfl, ht.phase j rfl]

theorem command_safeHold_refused (hm : (later s h.gap).mode < 4 ∨ 8 < (later s h.gap).mode) (hp : Permits (later s h.gap) h 0x103 false) :
    Ends (.safeHold h) s fun e => Answered (later s h.gap) e h 0x103 3 [] ∧ DevKeeps (told (later s h.gap) h 0x103 3 []) e [.loupe] := by
  refine command_no (c := .safeHold h) rfl ha (by decide) (fun g hg => ?_) hp
  have hg' := hg.touches.mode rfl
  have hn : (g.inBase || decide (g.mode = 8)) = false := by rw [Dev.inBase, hg']; simp; omega
  rw [hn]; rfl

end

end Sys2Proof.Machine
end

section
/-! Commands of Ngufotu on the device. -/

namespace Sys2Proof.Machine

/-! ## Commands of Ngufotu on the device: RELEASE, RECOVER, CLASP_RESTART, LOUPE_RESET, SET_TIME -/

/-! ### RELEASE -/

/-- Of the strands in a list, those in HOLD go to RUN (R42). -/
theorem foldl_toRun_phase (l : List StrandId) (d : Dev) (j : StrandId) :
    (l.foldl (fun e i => e.toRun i) d).phase j = if j ∈ l ∧ d.phase j = .hold then .run else d.phase j := by
  induction l generalizing d with
  | nil => simp
  | cons i l ih =>
    rw [List.foldl_cons, ih]
    by_cases hj : j = i
    · subst hj
      by_cases hh : d.phase j = .hold
      · rw [toRun_phase_same hh]; simp [hh]
      · have hd : d.toRun j = d := by simp [Dev.toRun, hh]
        rw [hd]; simp [hh]
    · have hp : (d.toRun i).phase j = d.phase j := congrArg SupSt.phase (toRun_supOf_ne d hj)
      rw [hp]; simp [hj]

/-- An operation on strands that leaves every ledger does so over a list. -/
theorem foldl_ledger {f : Dev → StrandId → Dev} (h : ∀ e i j, ((f e i).strand j).ledger = (e.strand j).ledger) (l : List StrandId) (d : Dev) (j : StrandId) :
    ((l.foldl f d).strand j).ledger = (d.strand j).ledger := by
  induction l generalizing d with
  | nil => rfl
  | cons i l ih => rw [List.foldl_cons, ih, h]

/-- What a permitted request leaves of the device. -/
abbrev Served (d g : Dev) : Prop := Touches [.strands, .clasp, .out, .loupe, .upd, .own, .port] d g ∧ g.loupe.coolAt = d.loupe.coolAt

theorem Verified.served {d g : Dev} {h : NguHdr} (hv : Verified d h g) : Served d g := ⟨hv.touches.mono rfl, hv.cool⟩

theorem Replied.served {d g : Dev} {h : NguHdr} {op status : Nat} {body : List Byte} (hr : Replied d h op status body g) : Served d g :=
  ⟨hr.touches, hr.cool⟩

theorem mayRelease_served {d g : Dev} (hs : Served d g) : g.mayRelease = d.mayRelease := by
  obtain ⟨ht, hc⟩ := hs
  have he := essentialFenced_congr (ht.cfg rfl) fun j => by rw [ht.phase j rfl]
  simp only [Dev.mayRelease, Dev.triggerGone, Dev.cooled, he, hc, ht.ns rfl, ht.mode rfl, ht.base rfl, ht.holdBy rfl, configured_congr (ht.cfg rfl),
    fun j => ht.phase j rfl]

theorem returnMode_served {d g : Dev} (hs : Served d g) : g.returnMode = d.returnMode := by
  obtain ⟨ht, -⟩ := hs
  simp only [Dev.returnMode, ht.base rfl, ht.holdBy rfl, ht.holdFrom rfl, configured_congr (ht.cfg rfl), fun j => ht.phase j rfl]

theorem mayRelease_iff (d : Dev) :
    d.mayRelease = true ↔ d.mode = 9 ∧ d.base ≠ 0 ∧ d.triggerGone = true ∧ ∃ j ∈ d.configured, d.phase j ≠ .fenced := by
  simp [Dev.mayRelease, and_assoc]

/-- The device that RELEASE has taken out of MD9, before its strands run. -/
def Dev.released (d : Dev) : Dev := ({ d with holdBy := none } : Dev).setMode d.returnMode

theorem touches_released (d : Dev) : Touches [.mode, .holdBy, .clasp, .loupe, .upd] d d.released := by
  refine .trans (fun k h => ?_) ((touches_setMode _ _).mono rfl)
  cases k <;> simp at h <;> rfl

theorem releaseHold_eq {d : Dev} (h : d.mayRelease = true) : d.releaseHold = (allStrands.foldl (fun e i => e.toRun i) d.released).tryT12 := by
  unfold Dev.releaseHold
  rw [if_neg (by simp [h])]
  rfl

/-- The condition on which RELEASE leads on from MD8 to the base mode (T12). -/
def backRelease (d e : Dev) : Bool :=
  d.returnMode == 8 && !d.configured.isEmpty && (d.configured.all fun j => e.phase j = .run) &&
    (!(d.base == 5 || d.base == 6) || (d.inStep false && d.inStep true))

theorem mayT12_released (d : Dev) :
    (allStrands.foldl (fun e i => e.toRun i) d.released).mayT12 = backRelease d (allStrands.foldl (fun e i => e.toRun i) d.released).tryT12 := by
  have tr := touches_released d
  have tf := Touches.foldl (fun e i => touches_toRun e i) allStrands d.released
  have hm : d.released.mode = d.returnMode := Dev.setMode_mode _ _
  have hl (j : StrandId) : ((allStrands.foldl (fun e i => e.toRun i) d.released).strand j).ledger = (d.strand j).ledger :=
    (foldl_ledger toRun_ledger allStrands d.released j).trans (by rw [tr.strand j rfl])
  simp only [Dev.mayT12, backRelease, tryT12_phase, tf.mode rfl, hm, tf.base rfl, tr.base rfl, configured_congr (tf.cfg rfl), configured_congr (tr.cfg rfl),
    inStep_congr hl ((tf.mgCfg rfl).trans (tr.mgCfg rfl))]
  simp [Bool.and_assoc, beq_eq_decide]

theorem releaseHold_spec {d : Dev} (h : d.mayRelease = true) :
    Grows d d.releaseHold ∧ d.releaseHold.loupe.nonce = d.loupe.nonce ∧ d.releaseHold.mode = (if backRelease d d.releaseHold then d.base else d.returnMode) ∧
      d.releaseHold.holdBy = none ∧ ∀ j, d.releaseHold.phase j = if d.phase j = .hold then .run else d.phase j := by
  rw [releaseHold_eq h]
  have tr := touches_released d
  have tf := Touches.foldl (fun e i => touches_toRun e i) allStrands d.released
  have tt := touches_tryT12 (allStrands.foldl (fun e i => e.toRun i) d.released)
  refine ⟨(tr.grows rfl).trans ((Grows.foldl grows_toRun _ _).trans (tt.grows rfl)), ?_, ?_, ?_, fun j => ?_⟩
  · rw [tt.nonce rfl, tf.nonce rfl, tr.nonce rfl]
  · rw [tryT12_mode, mayT12_released, tf.base rfl, tr.base rfl, tf.mode rfl, Dev.released, Dev.setMode_mode]
  · exact (tt.holdBy rfl).trans ((tf.holdBy rfl).trans ((touches_setMode _ _).holdBy rfl))
  · rw [tryT12_phase, foldl_toRun_phase, tr.phase j rfl]
    simp [mem_allStrands]

/-! ### Stages of the actions -/

theorem touches_toRecovery (d : Dev) : Touches [.mode, .sup, .strands, .clasp, .lkt, .epochs, .loupe, .upd, .before] d d.toRecovery := by
  unfold Dev.toRecovery
  dsimp only
  refine .trans (.trans ((touches_setMode d 1).mono rfl) (Touches.foldl (fun e i => ?_) _ _)) ((touches_loupe_own _ (by rfl)).mono rfl)
  exact .ite (fun _ => .refl _ e) fun _ => (touches_strandCold e i).mono rfl

theorem touches_tryT6 (d : Dev) : Touches [.mode, .clasp, .loupe, .upd] d d.tryT6 := .ite (fun _ => touches_setMode d 3) fun _ => .refl _ d

theorem touches_loadAgain (d : Dev) (safe : Bool) : Touches [.mode, .sup, .strands, .clasp, .lkt, .epochs, .loupe, .upd, .before] d (d.loadAgain safe) := by
  have h2 : Touches [.mode, .sup, .strands, .clasp, .lkt, .epochs, .loupe, .upd, .before] d
      (allStrands.foldl (fun (e : Dev) i => if e.phase i = .loading then e.loupeCold i else e) (d.setMode 2)) :=
    ((touches_setMode d 2).mono rfl).trans (Touches.foldl (fun e i => .ite (fun _ => (touches_loupeCold e i).mono rfl) fun _ => .refl _ e) _ _)
  exact .ite (fun _ => h2) fun _ => h2.trans ((touches_tryT6 _).mono rfl)

/-- LOUPE_RESET in any mode: the Loupe's own state is cleared, and no output made. -/
theorem loupeReset_own {d : Dev} (c : Nat) (hp : d.por = false) (h0 : d.mode ≠ 0) :
    Grows d (d.loupeReset c) ∧ (d.loupeReset c).loupe.sram = [] ∧ (d.loupeReset c).loupe.kept = [] ∧ (d.loupeReset c).loupe.nonce = none ∧
      (d.loupeReset c).loupe.lastReset = c := by
  obtain ⟨f, safe, ht, hs, he⟩ := loupeReset_stages c hp h0
  have tl : Touches [.mode, .sup, .strands, .clasp, .lkt, .epochs, .loupe, .upd, .before] f (d.loupeReset c) := by
    rw [he]
    exact .ite (fun _ => touches_loadAgain f safe) fun _ => .refl _ f
  have ho := tl.own rfl
  exact ⟨(ht.grows rfl).trans (tl.grows rfl), (congrArg LoupeOwn.sram ho).trans hs.sram, (congrArg LoupeOwn.kept ho).trans hs.kept,
    (congrArg LoupeOwn.nonce ho).trans hs.nonce, (congrArg LoupeOwn.lastReset ho).trans hs.lastReset⟩

/-! ### The commands -/

section
variable {s : State} {h : NguHdr} (ha : Arrives (later s h.gap) h)
include ha

/-- RELEASE where its conditions hold (R45). -/
theorem command_release (hm : (later s h.gap).mayRelease = true) (hp : Permits (later s h.gap) h 0x104 false) :
    Ends (.release h) s fun e => Sent (later s h.gap) e (.answer 0x104 0 []) ∧ (h.signed = true → e.loupe.nonce = none) ∧
      e.mode = (if backRelease (later s h.gap) e then (later s h.gap).base else (later s h.gap).returnMode) ∧ e.holdBy = none ∧
      ∀ j, e.phase j = if (later s h.gap).phase j = .hold then .run else (later s h.gap).phase j := by
  refine command_ok (c := .release h) rfl ha (fun g hg => ?_) (fun g hr _ => ?_) hp
  · rw [mayRelease_served hg.served, hm]; rfl
  · have ht := hr.touches
    obtain ⟨h1, h2, h3, h4, h5⟩ := releaseHold_spec (d := g) (by rw [mayRelease_served hr.served, hm])
    have hb : backRelease g g.releaseHold = backRelease (later s h.gap) g.releaseHold := by
      simp only [backRelease, returnMode_served hr.served, configured_congr (ht.cfg rfl), ht.base rfl, inStep_congr hr.ledger (ht.mgCfg rfl)]
    refine ⟨h1, fun hn => h2.trans hn, ?_, h4, fun j => ?_⟩
    · rw [← hb, ← returnMode_served hr.served, ← ht.base rfl]; exact h3
    · rw [h5, ht.phase j rfl]

theorem command_release_refused (hm : (later s h.gap).mayRelease = false) (hp : Permits (later s h.gap) h 0x104 false) :
    Ends (.release h) s fun e => Answered (later s h.gap) e h 0x104 3 [] ∧ DevKeeps (told (later s h.gap) h 0x104 3 []) e [.loupe] := by
  refine command_no (c := .release h) rfl ha (by decide) (fun g hg => ?_) hp
  rw [mayRelease_served hg.served, hm]; rfl

/-- RECOVER of a device in MD10 whose life cycle has not ended (R44). -/
theorem command_recover (hm : (later s h.gap).mode = 10) (hl : (later s h.gap).hm.lc ≠ 3) (hp : Permits (later s h.gap) h 0x107 false) :
    Ends (.recover h) s fun e => Sent (later s h.gap) e (.answer 0x107 0 []) ∧ (h.signed = true → e.loupe.nonce = none) ∧
      e.mode = 1 ∧ e.loupe.firmware = false ∧
      ((∀ j, (later s h.gap).phase j = .off) → e.sup = (later s h.gap).sup ∧ e.strands = (told (later s h.gap) h 0x107 0 []).strands) := by
  refine command_ok (c := .recover h) rfl ha (fun g hg => ?_) (fun g hr _ => ?_) hp
  · simp [modeIf, hg.touches.mode rfl, hg.touches.hm rfl, hm, hl]
  · have ht := hr.touches
    have e : g.recover = g.toRecovery := if_pos (by simp [ht.mode rfl, ht.hm rfl, hm, hl])
    rw [e]
    have tr := touches_toRecovery g
    refine ⟨tr.grows rfl, fun hn => (tr.nonce rfl).trans hn, toRecovery_mode g, rfl, fun ho => ?_⟩
    have hto := toRecovery_off (d := g) fun j => (ht.phase j rfl).trans (ho j)
    exact ⟨(hto.sup rfl).trans (ht.sup rfl), (hto.strands rfl).trans (hr.parts.strands rfl)⟩

theorem command_recover_refused (hm : (later s h.gap).mode ≠ 10 ∨ (later s h.gap).hm.lc = 3) (hp : Permits (later s h.gap) h 0x107 false) :
    Ends (.recover h) s fun e => Answered (later s h.gap) e h 0x107 3 [] ∧ DevKeeps (told (later s h.gap) h 0x107 3 []) e [.loupe] := by
  refine command_no (c := .recover h) rfl ha (by decide) (fun g hg => ?_) hp
  rcases hm with hm | hm <;> simp [modeIf, hg.touches.mode rfl, hg.touches.hm rfl, hm]

theorem command_claspRestart (hp : Permits (later s h.gap) h 0x108 false) :
    Ends (.claspRestart h) s fun e => Sent (later s h.gap) e (.answer 0x108 0 []) ∧ (h.signed = true → e.loupe.nonce = none) ∧
      DevKeeps (told (later s h.gap) h 0x108 0 []) e [.loupe] ∧ e.clasp.fenced = false ∧ LogHas e 0x120B := by
  refine command_ok (c := .claspRestart h) rfl ha (fun _ _ => rfl) (fun g hr hl => ?_) hp
  have tc : Touches [.clasp, .mgCfg, .port] g g.claspRestart := touches_clasp g _
  exact ⟨tc.grows rfl, id, ((hr.parts.mono rfl).trans (tc.mono rfl) :
    Touches [.loupe, .own, .clasp, .mgCfg, .port, .out] (told (later s h.gap) h 0x108 0 []) g.claspRestart).devKeeps [.loupe] rfl, rfl, hl⟩

theorem command_setTime (ns : Nat) (hp : Permits (later s h.gap) h 0x10C false) :
    Ends (.setTime h ns) s fun e => Sent (later s h.gap) e (.answer 0x10C 0 []) ∧ (h.signed = true → e.loupe.nonce = none) ∧
      DevKeeps (told (later s h.gap) h 0x10C 0 []) e [.loupe] ∧ e.loupeNs = ns ∧ LogHas e 0x120B := by
  refine command_ok (c := .setTime h ns) rfl ha (fun _ _ => rfl) (fun g hr hl => ?_) hp
  have tc : Touches [.loupe] g (g.setLoupeTime ns) := touches_loupe_own g rfl
  refine ⟨tc.grows rfl, fun hn => (tc.nonce rfl).trans hn, (hr.parts.trans (tc.mono rfl)).devKeeps [.loupe] rfl, ?_, hl⟩
  show ((g.ns : Int) + ((ns : Int) - g.ns)).toNat = ns
  omega

theorem command_loupeReset (hp : Permits (later s h.gap) h 0x10B false) :
    Ends (.nguLoupeReset h) s fun e => Sent (later s h.gap) e (.answer 0x10B 0 []) ∧ (h.signed = true → e.loupe.nonce = none) ∧
      e.loupe.sram = [] ∧ e.loupe.kept = [] ∧ e.loupe.nonce = none ∧ e.loupe.lastReset = 3 ∧
      ((later s h.gap).mode ≠ 2 → (later s h.gap).mode ≠ 3 → e.sup = (later s h.gap).sup ∧ e.mode = (later s h.gap).mode ∧
        ∀ j, noExch (e.strand j) = noExch ((told (later s h.gap) h 0x10B 0 []).strand j)) := by
  refine command_ok (c := .nguLoupeReset h) rfl ha (fun _ _ => rfl) (fun g hr _ => ?_) hp
  obtain ⟨hpor, hmode⟩ := arrives_por ha
  have ht := hr.touches
  have tf := touches_logFlush g 0 0
  have hp' : (g.logFlush 0 0).por = false := (tf.por rfl).trans ((ht.por rfl).trans hpor)
  have hm' : (g.logFlush 0 0).mode = (later s h.gap).mode := (tf.mode rfl).trans (ht.mode rfl)
  obtain ⟨hg, h1, h2, h3, h4⟩ := loupeReset_own (d := g.logFlush 0 0) 3 hp' (by rwa [hm'])
  refine ⟨(tf.grows rfl).trans hg, fun _ => h3, h1, h2, h3, h4, fun m2 m3 => ?_⟩
  obtain ⟨tl, hs⟩ := loupeReset_cleared (d := g.logFlush 0 0) 3 hp' (by rwa [hm']) (by rwa [hm']) (by rwa [hm'])
  refine ⟨(tl.sup rfl).trans ((tf.sup rfl).trans (ht.sup rfl)), (tl.mode rfl).trans hm', fun j => ?_⟩
  rw [← hr.parts.strand j rfl, ← tf.strand j rfl]
  exact hs.strands j

end

end Sys2Proof.Machine
end

section
/-! RESTART and SHUTDOWN. -/

namespace Sys2Proof.Machine

/-! ## RESTART and SHUTDOWN -/

/-! ### STRAND_WARM of every strand -/

/-- A STRAND_WARM by the Loupe leaves every ledger and every inward fence, and lets no strand into RUN. -/
theorem loupeWarm_keeps (d : Dev) (i j : StrandId) :
    ((d.loupeWarm i).strand j).ledger = (d.strand j).ledger ∧ ((d.loupeWarm i).supOf j).fenceIn = (d.supOf j).fenceIn ∧
      ((d.loupeWarm i).phase j = .run → d.phase j = .run) ∧ ((d.loupeWarm i).phase i = .run → (d.supOf i).fenceIn = true) := by
  unfold Dev.loupeWarm
  split
  · next hf => exact ⟨rfl, rfl, id, fun _ => hf⟩
  · by_cases hp : d.phase i = .off ∨ d.phase i = .fenced
    · rw [strandWarm_ignored hp]
      exact ⟨rfl, rfl, id, fun hr => by rcases hp with h | h <;> simp [h] at hr⟩
    · rw [not_or] at hp
      obtain ⟨⟨ho, -⟩, hl, -, hled, -, -, hfi, -⟩ := fresh_strandWarm hp.1 hp.2
      refine ⟨?_, ?_, fun hr => ?_, fun hr => by rw [hl] at hr; cases hr⟩ <;> by_cases hj : j = i
      · subst hj; exact hled
      · rw [(ho j hj).1]
      · subst hj; exact hfi
      · rw [(ho j hj).2]
      · subst hj; rw [hl] at hr; cases hr
      · exact (congrArg SupSt.phase (ho j hj).2).symm.trans hr

theorem foldl_loupeWarm (l : List StrandId) (d : Dev) (j : StrandId) :
    (l.foldl (fun e i => e.loupeWarm i) d).phase j = .run → d.phase j = .run ∧ (j ∈ l → (d.supOf j).fenceIn = true) := by
  induction l generalizing d with
  | nil => exact fun h => ⟨h, fun hj => absurd hj (by simp)⟩
  | cons i l ih =>
    intro h
    obtain ⟨h1, h2⟩ := ih (d.loupeWarm i) h
    obtain ⟨-, hf, hr, hi⟩ := loupeWarm_keeps d i j
    refine ⟨hr h1, fun hj => ?_⟩
    rcases List.mem_cons.1 hj with rfl | hj
    · exact hi h1
    · rw [← hf]; exact h2 hj

/-! ### The start that follows -/

/-- What a start leaves of the Loupe's own state, of the outputs and of the strands not in RUN. -/
structure StartKeeps (d e : Dev) : Prop where
  own : e.loupe.own = d.loupe.own
  out : Grows d e
  run : ∀ j, e.phase j = .run → d.phase j = .run

theorem StartKeeps.refl (d : Dev) : StartKeeps d d := ⟨rfl, .refl d, fun _ => id⟩

theorem StartKeeps.trans {d e f : Dev} (h : StartKeeps d e) (h' : StartKeeps e f) : StartKeeps d f :=
  ⟨h'.own.trans h.own, h.out.trans h'.out, fun j hj => h.run j (h'.run j hj)⟩

theorem StartKeeps.foldl {α : Type} {f : Dev → α → Dev} (h : ∀ e a, StartKeeps e (f e a)) (l : List α) (d : Dev) : StartKeeps d (l.foldl f d) := by
  induction l generalizing d with
  | nil => exact .refl d
  | cons a l ih => exact (h d a).trans (ih _)

theorem Touches.startKeeps {l : List DevField} {d e : Dev} (h : Touches l d e)
    (hl : l.contains .own = false ∧ l.contains .out = false ∧ l.contains .sup = false) : StartKeeps d e :=
  ⟨h.own hl.1, h.grows hl.2.1, fun j hj => (h.phase j hl.2.2).symm.trans hj⟩

/-- A STRAND_COLD that is heard leaves its strand OFF, one that is not leaves it as it was. -/
theorem strandCold_cases (d : Dev) (i : StrandId) : d.strandCold i = d ∨ ((d.strandCold i).phase i = .off ∧ OthersKept d (d.strandCold i) i) := by
  by_cases h : d.por = true ∨ i.val ∈ d.thisCyc.fenced
  · exact .inl (strandCold_ignored h)
  · rw [not_or, Bool.not_eq_true] at h
    obtain ⟨⟨ho, -⟩, hs, -⟩ := fresh_strandCold h.1 h.2
    exact .inr ⟨by rw [Dev.phase, hs]; rfl, ho⟩

theorem startKeeps_strandCold (d : Dev) (i : StrandId) : StartKeeps d (d.strandCold i) := by
  have ht := touches_strandCold d i
  refine ⟨ht.own rfl, ht.grows rfl, fun j hj => ?_⟩
  rcases strandCold_cases d i with h | ⟨hp, ho⟩
  · rwa [h] at hj
  · by_cases hji : j = i
    · subst hji; rw [hp] at hj; cases hj
    · exact (congrArg SupSt.phase (ho j hji).2).symm.trans hj

theorem startKeeps_fence (d : Dev) (i : StrandId) (b c : Nat) : StartKeeps d (d.fence i b c) := by
  refine ⟨(touches_fence d i b c).own rfl, grows_fence d i b c, fun j hj => ?_⟩
  rw [Dev.phase, Dev.supOf, Dev.fence_sup] at hj
  by_cases hji : j = i
  · subst hji; rw [Quad.get_set_same] at hj; cases hj
  · rwa [Quad.get_set_ne _ _ hji] at hj

theorem startKeeps_ite {c : Prop} [Decidable c] {d e f : Dev} (ht : StartKeeps d e) (hf : StartKeeps d f) : StartKeeps d (if c then e else f) := by
  split
  · exact ht
  · exact hf

theorem foldl_stopped_ledger {α : Type} {f : StrandSt → α → StrandSt} (h : ∀ s a, (f s a).ledger = s.ledger) (l : List α) (st : StrandSt) :
    (l.foldl f st).ledger = st.ledger := by
  induction l generalizing st with
  | nil => rfl
  | cons a l ih => rw [List.foldl_cons, ih, h]

theorem withTimeBanks_ledger (x : StrandSt) (t : TimeBase) (b : Banks) : ({ x with time := t, banks := b } : StrandSt).ledger = x.ledger := rfl

/-- A strand that a fence stops keeps its ledger (R35). -/
theorem stopped_ledger (st : StrandSt) : st.stopped.ledger = st.ledger := by
  unfold StrandSt.stopped
  extract_lets s1 s2
  have h1 : s1.ledger = st.ledger := foldl_stopped_ledger (fun s _ => s.put_ledger _ _ _ _) _ st
  have h2 : s2.ledger = s1.ledger := foldl_stopped_ledger (fun _ _ => (StrandSt.setChan_ledger _ _ _).trans (StrandSt.setPort_ledger _ _ _)) _ s1
  clear_value s2 s1
  rw [withTimeBanks_ledger, StrandSt.putBit_ledger, h2, h1]

theorem fence_ledger (d : Dev) (i j : StrandId) (b c : Nat) : ((d.fence i b c).strand j).ledger = (d.strand j).ledger := by
  rw [Dev.strand, Dev.fence_strands]
  by_cases h : j = i
  · subst h; rw [Quad.get_set_same, stopped_ledger]
  · rw [Quad.get_set_ne _ _ h]; rfl

/-- The strands that the configuration does not name lose their ledgers, the others keep them (R463). -/
theorem foldl_unused_ledger (p : StrandId → Bool) (l : List StrandId) (d : Dev) {j : StrandId} (hj : p j = true) :
    ((l.foldl (fun (e : Dev) i => if e.phase i = .off || p i then e else e.strandCold i) d).strand j).ledger = (d.strand j).ledger := by
  induction l generalizing d with
  | nil => rfl
  | cons i l ih =>
    rw [List.foldl_cons, ih]
    split
    · rfl
    · next hn =>
      have hji : j ≠ i := fun h => by subst h; simp [hj] at hn
      rcases strandCold_cases d i with h | ⟨-, ho⟩
      · rw [h]
      · rw [(ho j hji).1]

/-- The reading of a configuration at the start of the load phase (R44, R463). -/
theorem readConfig_keeps (d : Dev) (c : CfgDev) :
    StartKeeps d (d.readConfig c) ∧
      ∀ j : StrandId, (d.readConfig c).cfg.ok = false ∨ bitN (d.readConfig c).cfg.strands j = true → ((d.readConfig c).strand j).ledger = (d.strand j).ledger := by
  unfold Dev.readConfig
  extract_lets c' l u d1 d2
  have t1 : Touches [.cfg, .base, .devLock, .holdBy, .loupe, .upd] d d1 := fun k hk => by cases k <;> simp at hk <;> rfl
  have t2 : Touches [.mode, .clasp, .loupe, .upd] d1 d2 :=
    Touches.trans (.ite (fun _ => (touches_logLate d1).mono rfl) fun _ => .refl _ d1) ((touches_setMode _ 2).mono rfl)
  have hcfg : d2.cfg = c' := (t2.cfg rfl).trans rfl
  have k2 : StartKeeps d d2 := (t1.startKeeps ⟨rfl, rfl, rfl⟩).trans (t2.startKeeps ⟨rfl, rfl, rfl⟩)
  have l2 (j : StrandId) : (d2.strand j).ledger = (d.strand j).ledger := by rw [t2.strand j rfl, t1.strand j rfl]
  clear_value d2 d1
  split
  · have tl := touches_log d2 0x130B .lasting 0 []
    refine ⟨k2.trans ((tl.startKeeps ⟨rfl, rfl, rfl⟩).trans (.foldl (fun e i => startKeeps_fence e i 13 0x0116) _ _)), fun j _ => ?_⟩
    rw [foldl_ledger (fun e i j => fence_ledger e i j 13 0x0116), tl.strand j rfl, l2]
  · next hok =>
    have kf := StartKeeps.foldl (f := fun (e : Dev) i => if e.phase i = .off || bitN c'.strands i.val then e else e.strandCold i)
      (fun e i => startKeeps_ite (.refl e) (startKeeps_strandCold e i)) allStrands d2
    have tf := Touches.foldl (l := [.sup, .strands, .clasp, .lkt, .epochs, .loupe, .upd, .before])
      (f := fun (e : Dev) (i : StrandId) => if e.phase i = .off || bitN c'.strands i.val then e else e.strandCold i)
      (fun e i => .ite (fun _ => .refl _ e) fun _ => touches_strandCold e i) allStrands d2
    have lf (j : StrandId) (hj : bitN c'.strands j = true) := foldl_unused_ledger (fun i => bitN c'.strands i.val) allStrands d2 hj
    generalize allStrands.foldl (fun (e : Dev) (i : StrandId) => if e.phase i = .off || bitN c'.strands i.val then e else e.strandCold i) d2 = f at kf tf lf ⊢
    have t6 := touches_tryT6 f
    refine ⟨k2.trans (kf.trans (t6.startKeeps ⟨rfl, rfl, rfl⟩)), fun j hj => ?_⟩
    rw [t6.cfg rfl, tf.cfg rfl, hcfg] at hj
    have hj' := hj.resolve_left (by simpa using hok)
    rw [t6.strand j rfl, lf j hj', l2]

theorem startKeeps_toRecovery (d : Dev) : StartKeeps d d.toRecovery := by
  unfold Dev.toRecovery
  dsimp only
  have hf := StartKeeps.foldl (f := fun (e : Dev) i => if e.phase i = .off then e else e.strandCold i)
    (fun e i => startKeeps_ite (.refl e) (startKeeps_strandCold e i)) allStrands (d.setMode 1)
  exact (((touches_setMode d 1).startKeeps ⟨rfl, rfl, rfl⟩).trans hf).trans ((touches_loupe_own _ (by rfl)).startKeeps ⟨rfl, rfl, rfl⟩)

/-! ### The boot record and the image -/

theorem touches_eachFlash (d : Dev) (f : Flash → Flash) : Touches [.flashes] d (d.eachFlash f) := fun k h => by cases k <;> simp at h <;> rfl

theorem touches_setBoot (d : Dev) (r : BootRec) : Touches [.upd, .boot] d (d.setBoot r) := touches_upd d _

theorem touches_writeBoot (d : Dev) (r : BootRec) : Touches [.flashes, .upd, .boot] d (d.writeBoot r) := by
  unfold Dev.writeBoot
  exact ((touches_eachFlash d _).mono rfl).trans ((touches_setBoot _ _).mono rfl)

theorem touches_revertBoot (d : Dev) (r : BootRec) : Touches [.flashes, .upd, .boot, .loupe] d (d.revertBoot r) :=
  ((touches_writeBoot d _).mono rfl).trans ((touches_log _ _ _ _ _).mono rfl)

theorem touches_countTry (d : Dev) (r : BootRec) : Touches [.flashes, .upd, .boot, .loupe] d (d.countTry r) := by
  unfold Dev.countTry
  extract_lets e
  have h : Touches [.flashes, .upd, .boot, .loupe] d e :=
    .ite (fun _ => ((touches_eachFlash d _).mono rfl).trans ((touches_log _ _ _ _ _).mono rfl)) fun _ => .refl _ d
  refine h.trans (.ite (fun _ => (touches_setBoot e r).mono rfl) fun _ => .ite (fun _ => touches_revertBoot e r) fun _ => ?_)
  exact (touches_writeBoot e _).mono rfl

theorem touches_readTwice (d : Dev) (n : Nat) : Touches [.loupe, .upd] d (d.readTwice n) := by
  unfold Dev.readTwice
  split
  · exact .refl _ d
  · exact (((touches_uinc d 8).trans (touches_uflag _ 1)).mono rfl).trans (touches_log _ _ _ _ _)
  · exact touches_log _ _ _ _ _

theorem touches_testSlot (d : Dev) (s : StartIn) (n : Nat) : Touches [.loupe, .upd] d (d.testSlot s n).2 := by
  unfold Dev.testSlot
  split
  · exact touches_readTwice d _
  · exact .refl _ d

theorem touches_select (d : Dev) (s : StartIn) : Touches [.flashes, .upd, .boot, .loupe] d (d.select s).2 := by
  unfold Dev.select
  split
  · exact (touches_upd d _).mono rfl
  · next r _ =>
    dsimp only
    have h1 := touches_countTry d r
    have h2 := (touches_testSlot (d.countTry r) s (d.countTry r).upd.boot.active).mono (l' := [.flashes, .upd, .boot, .loupe]) rfl
    split
    · exact h1.trans h2
    · split
      · exact ((h1.trans h2).trans (touches_revertBoot _ _)).trans ((touches_testSlot _ _ _).mono rfl)
      · exact h1.trans h2

/-- What the start of the load phase leaves; a device that does not end in MD1 keeps the ledgers of its configured strands. -/
theorem beginLoad_keeps (d : Dev) (s : StartIn) :
    StartKeeps d (d.beginLoad s) ∧
      ((d.beginLoad s).mode ≠ 1 → ∀ j : StrandId, (d.beginLoad s).cfg.ok = false ∨ bitN (d.beginLoad s).cfg.strands j = true →
        ((d.beginLoad s).strand j).ledger = (d.strand j).ledger) := by
  have ts := touches_select d s
  unfold Dev.beginLoad
  dsimp only
  split
  · have tr := touches_readTwice (d.select s).2 s.readCfg
    obtain ⟨hk, hl⟩ := readConfig_keeps ((d.select s).2.readTwice s.readCfg) { s.cfg with usable := s.cfg.usable && decide (s.readCfg < 2) }
    refine ⟨((ts.startKeeps ⟨rfl, rfl, rfl⟩).trans (tr.startKeeps ⟨rfl, rfl, rfl⟩)).trans hk, fun _ j hj => ?_⟩
    rw [hl j hj, tr.strand j rfl, ts.strand j rfl]
  · exact ⟨(ts.startKeeps ⟨rfl, rfl, rfl⟩).trans (startKeeps_toRecovery _), fun h => absurd (toRecovery_mode _) h⟩

/-! ### RESTART -/

theorem noExch_ledger {x y : StrandSt} (h : noExch y = noExch x) : y.ledger = x.ledger := by
  have hl := congrArg StrandSt.ledger h
  exact hl

theorem running_iff (d : Dev) : d.running = true ↔ 4 ≤ d.mode ∧ d.mode ≤ 9 := by
  simp [Dev.running, Dev.inBase]; omega

/-- The start after a restart (R44). -/
theorem restart_keeps (d : Dev) (s : StartIn) :
    StartKeeps d (d.restart s) ∧ ((d.restart s).mode = 1 ∨ (d.restart s).mode = 2 ∨ (d.restart s).mode = 3) ∧
      ((d.restart s).mode ≠ 1 → ∀ j : StrandId, (d.restart s).cfg.ok = false ∨ bitN (d.restart s).cfg.strands j = true →
        ((d.restart s).strand j).ledger = (d.strand j).ledger) := by
  obtain ⟨th, -⟩ := d.hmReady_eq s.hmErr
  obtain ⟨hk, hl⟩ := beginLoad_keeps (d.hmReady s.hmErr) s
  have e : d.restart s = (d.hmReady s.hmErr).beginLoad s := rfl
  rw [e]
  refine ⟨(th.startKeeps ⟨rfl, rfl, rfl⟩).trans hk, (beginLoad_start _ s).1, fun hm j hj => ?_⟩
  rw [hl hm j hj, th.strand j rfl]

/-- RESTART of a device that runs: every strand warm, a LOUPE_RESET, and a start (T19). -/
theorem t19_spec {d : Dev} (s : StartIn) (hr : 4 ≤ d.mode ∧ d.mode ≤ 9) (hp : d.por = false) :
    Grows d (d.t19 s) ∧ ((d.t19 s).mode = 1 ∨ (d.t19 s).mode = 2 ∨ (d.t19 s).mode = 3) ∧ (d.t19 s).loupe.sram = [] ∧ (d.t19 s).loupe.kept = [] ∧
      (d.t19 s).loupe.nonce = none ∧ (d.t19 s).loupe.lastReset = 3 ∧
      ∀ j, ((d.t19 s).phase j ≠ .run ∨ (d.supOf j).fenceIn = true) ∧
        ((d.t19 s).mode ≠ 1 → (d.t19 s).cfg.ok = false ∨ bitN (d.t19 s).cfg.strands j = true → ((d.t19 s).strand j).ledger = (d.strand j).ledger) := by
  have e : d.t19 s = ((allStrands.foldl (fun e i => e.loupeWarm i) d).loupeReset 3).restart s := by
    unfold Dev.t19
    rw [if_neg (by simp [(running_iff d).2 hr])]
  rw [e]
  have tw := Touches.foldl (fun e i => touches_loupeWarm e i) allStrands d
  have lw := foldl_ledger (fun e i j => (loupeWarm_keeps e i j).1) allStrands d
  have pw := foldl_loupeWarm allStrands d
  generalize allStrands.foldl (fun e i => e.loupeWarm i) d = w at tw lw pw ⊢
  have hm : w.mode = d.mode := tw.mode rfl
  obtain ⟨tl, hc⟩ := loupeReset_cleared (d := w) 3 ((tw.por rfl).trans hp) (by omega) (by omega) (by omega)
  obtain ⟨hk, hmode, hl⟩ := restart_keeps (w.loupeReset 3) s
  refine ⟨(tw.grows rfl).trans ((tl.grows rfl).trans hk.out), hmode, (congrArg LoupeOwn.sram hk.own).trans hc.sram, (congrArg LoupeOwn.kept hk.own).trans hc.kept,
    (congrArg LoupeOwn.nonce hk.own).trans hc.nonce, (congrArg LoupeOwn.lastReset hk.own).trans hc.lastReset, fun j => ⟨?_, fun h1 hj => ?_⟩⟩
  · by_cases hrun : (((w.loupeReset 3).restart s).phase j) = .run
    · exact .inr ((pw j ((tl.phase j rfl).symm.trans (hk.run j hrun))).2 (mem_allStrands j))
    · exact .inl hrun
  · rw [hl h1 j hj, ← lw j]
    exact noExch_ledger (hc.strands j)

/-! ### SHUTDOWN -/

theorem touches_wearRecordWrite (d : Dev) : Touches [.flashes, .loupe] d d.wearRecordWrite := by
  unfold Dev.wearRecordWrite
  refine .ite (fun _ => .refl _ d) fun _ => ?_
  refine .trans (Touches.foldl (fun e i => ?_) allStrands d) ((touches_eachFlash _ _).mono rfl)
  exact .ite (fun _ => .refl _ e) fun _ => Touches.mono (l := [.loupe]) (touches_loupe_own e (by rfl)) rfl

/-- A strand shut down: OFF, its retention banks valid (R27). -/
def Dev.strandShut (d : Dev) (i : StrandId) : Dev :=
  if d.phase i = .off then d else ((d.updSup i fun x => { x with retValid := true }).resetLogic i false).strandOff i

def SupSt.shut (s : SupSt) : SupSt :=
  if s.phase = .off then s else { s with retValid := true, phase := .off, lock := false, pllLock := false, fenceOut := false }

theorem strandShut_supOf (d : Dev) (i j : StrandId) : (d.strandShut i).supOf j = if j = i then (d.supOf i).shut else d.supOf j := by
  unfold Dev.strandShut SupSt.shut
  by_cases h : d.phase i = .off
  · rw [if_pos h, if_pos (show (d.supOf i).phase = .off from h)]
    split
    · next hj => rw [hj]
    · rfl
  · rw [if_neg h, if_neg (show ¬ (d.supOf i).phase = .off from h), Dev.supOf, Dev.strandOff_sup, (touches_resetLogic _ i false).sup rfl,
      (touches_resetLogic _ i false).supOf i rfl, Dev.supOf_updSup_same]
    split
    · next hj => rw [hj, Quad.get_set_same]
    · next hj => rw [Quad.get_set_ne _ _ hj]; exact Dev.supOf_updSup_ne d _ hj

theorem strandShut_ledger (d : Dev) (i j : StrandId) : ((d.strandShut i).strand j).ledger = (d.strand j).ledger := by
  unfold Dev.strandShut
  split
  · rfl
  · have tu := touches_updSup d i fun x => { x with retValid := true }
    rw [(touches_strandOff _ i).strand j rfl, Dev.strand, Dev.resetLogic_strands, tu.strands rfl, tu.strand i rfl]
    by_cases h : j = i
    · subst h; rw [Quad.get_set_same, afterReset_ledger]; rfl
    · rw [Quad.get_set_ne _ _ h]; rfl

theorem touches_strandShut (d : Dev) (i : StrandId) : Touches [.sup, .strands, .clasp, .lkt, .epochs, .loupe, .upd] d (d.strandShut i) :=
  .ite (fun _ => .refl _ d) fun _ =>
    (((touches_updSup d i _).mono rfl).trans ((touches_resetLogic _ i false).mono rfl)).trans ((touches_strandOff _ i).mono rfl)

/-- The Loupe and the host port as SHUTDOWN leaves them (R491). -/
def Dev.darkened (d : Dev) : Dev :=
  { d with clasp := {}, loupe := { d.loupe with firmware := false, core := .loupeStart, sram := [], kept := [], nonce := none }, devLock := false, holdBy := none }

/-- MD0 after SHUTDOWN: the hosts' bindings are lost, and the Clasp sleeps. -/
def Dev.asleep (d : Dev) : Dev :=
  let e := (d.lktLost.resetIdent 0).disarm.setMode 0
  { e with clasp := {}, sleptAt := e.ns }

theorem strandShut_fun : Dev.strandShut = fun (e : Dev) (i : StrandId) =>
    if e.phase i = .off then e else ((e.updSup i fun x => { x with retValid := true }).resetLogic i false).strandOff i := rfl

theorem shutdown_eq {d : Dev} (h : d.running = true) :
    d.shutdown = (allStrands.foldl Dev.strandShut (d.logFlush 0 0).wearRecordWrite).darkened.asleep := by
  unfold Dev.shutdown Dev.asleep Dev.darkened
  rw [if_neg (by simp [h]), strandShut_fun]

theorem touches_darkened (d : Dev) : Touches [.devLock, .holdBy, .clasp, .mgCfg, .port, .loupe, .own] d d.darkened := fun k hk => by
  cases k <;> simp at hk <;> rfl

theorem asleep_spec (d : Dev) :
    Touches [.mode, .sleptAt, .clasp, .mgCfg, .port, .lkt, .epochs, .loupe, .upd] d d.asleep ∧ d.asleep.mode = 0 ∧ d.asleep.clasp = {} := by
  unfold Dev.asleep
  extract_lets e
  have t2 : Touches [.mode, .lkt, .epochs, .clasp, .loupe, .upd] d e :=
    ((((touches_lktLost d).trans (touches_resetIdent _ 0)).mono rfl).trans ((touches_disarm _).mono rfl)).trans ((touches_setMode _ 0).mono rfl)
  have t3 : Touches [.clasp, .mgCfg, .port, .sleptAt] e { e with clasp := {}, sleptAt := e.ns } := fun k hk => by cases k <;> simp at hk <;> rfl
  exact ⟨(t2.mono rfl).trans (t3.mono rfl), Dev.setMode_mode _ 0, rfl⟩

theorem shutdown_spec {d : Dev} (h : d.running = true) :
    Grows d d.shutdown ∧ d.shutdown.loupe.nonce = none ∧ d.shutdown.mode = 0 ∧ d.shutdown.devLock = false ∧ d.shutdown.holdBy = none ∧
      d.shutdown.clasp = {} ∧ ∀ j, d.shutdown.phase j = .off ∧ (d.shutdown.strand j).ledger = (d.strand j).ledger := by
  rw [shutdown_eq h]
  have t1 : Touches [.flashes, .loupe, .upd] d (d.logFlush 0 0).wearRecordWrite := (touches_logFlush d 0 0).trans ((touches_wearRecordWrite _).mono rfl)
  generalize (d.logFlush 0 0).wearRecordWrite = a at t1 ⊢
  have t2 := Touches.foldl touches_strandShut allStrands a
  have s2 := foldl_supOf strandShut_supOf a
  have l2 := foldl_ledger strandShut_ledger allStrands a
  generalize allStrands.foldl Dev.strandShut a = b at t2 s2 l2 ⊢
  have t3 := touches_darkened b
  obtain ⟨t4, hm, hc⟩ := asleep_spec b.darkened
  refine ⟨(t1.grows rfl).trans ((t2.grows rfl).trans ((t3.grows rfl).trans (t4.grows rfl))), t4.nonce rfl, hm, t4.devLock rfl, t4.holdBy rfl, hc,
    fun j => ⟨?_, ?_⟩⟩
  · rw [t4.phase j rfl, t3.phase j rfl, Dev.phase, s2, SupSt.shut]
    split
    · assumption
    · rfl
  · rw [t4.strand j rfl, t3.strand j rfl, l2, t1.strand j rfl]

/-! ### The commands -/

section
variable {s : State} {h : NguHdr} (ha : Arrives (later s h.gap) h)
include ha

theorem command_restart (start : StartIn) (hm : 4 ≤ (later s h.gap).mode ∧ (later s h.gap).mode ≤ 9) (hp : Permits (later s h.gap) h 0x105 false) :
    Ends (.restart h start) s fun e => Sent (later s h.gap) e (.answer 0x105 0 []) ∧ (h.signed = true → e.loupe.nonce = none) ∧
      (e.mode = 1 ∨ e.mode = 2 ∨ e.mode = 3) ∧ e.loupe.sram = [] ∧ e.loupe.kept = [] ∧ e.loupe.lastReset = 3 ∧
      ∀ j : StrandId, (e.phase j ≠ .run ∨ ((later s h.gap).supOf j).fenceIn = true) ∧
        (e.mode ≠ 1 → e.cfg.ok = false ∨ bitN e.cfg.strands j = true → (e.strand j).ledger = ((later s h.gap).strand j).ledger) := by
  refine command_ok (c := .restart h start) rfl ha (fun g hg => ?_) (fun g hr _ => ?_) hp
  · rw [(running_iff g).2 (by rwa [hg.touches.mode rfl])]; rfl
  · have ht := hr.touches
    obtain ⟨h1, h2, h3, h4, h5, h6, h7⟩ := t19_spec (d := g) start (by rwa [ht.mode rfl]) ((ht.por rfl).trans (arrives_por ha).1)
    refine ⟨h1, fun _ => h5, h2, h3, h4, h6, fun j => ?_⟩
    rw [← ht.supOf j rfl, ← hr.ledger j]
    exact h7 j

theorem command_shutdown (hpath : h.path < 2) (hm : 4 ≤ (later s h.gap).mode ∧ (later s h.gap).mode ≤ 9) (hp : Permits (later s h.gap) h 0x106 false) :
    Ends (.shutdown h) s fun e => Sent (later s h.gap) e (.answer 0x106 0 []) ∧ (h.signed = true → e.loupe.nonce = none) ∧
      e.mode = 0 ∧ e.devLock = false ∧ e.holdBy = none ∧ (e.link false).up = false ∧ (e.link true).up = false ∧
      ∀ j, e.phase j = .off ∧ (e.strand j).ledger = ((later s h.gap).strand j).ledger := by
  refine command_ok (c := .shutdown h) rfl ha (fun g hg => ?_) (fun g hr _ => ?_) hp
  · rw [if_neg (by omega), (running_iff g).2 (by rwa [hg.touches.mode rfl])]; rfl
  · obtain ⟨h1, h2, h3, h4, h5, h6, h7⟩ := shutdown_spec (d := g) ((running_iff g).2 (by rwa [hr.touches.mode rfl]))
    refine ⟨h1, fun _ => h2, h3, h4, h5, ?_, ?_, fun j => ?_⟩
    · rw [Dev.link, h6]; rfl
    · rw [Dev.link, h6]; rfl
    · rw [← hr.ledger j]; exact h7 j

theorem command_restart_refused (start : StartIn) (hm : ¬ (4 ≤ (later s h.gap).mode ∧ (later s h.gap).mode ≤ 9)) (hp : Permits (later s h.gap) h 0x105 false) :
    Ends (.restart h start) s fun e => Answered (later s h.gap) e h 0x105 3 [] ∧ DevKeeps (told (later s h.gap) h 0x105 3 []) e [.loupe] := by
  refine command_no (c := .restart h start) rfl ha (by decide) (fun g hg => ?_) hp
  rw [Bool.eq_false_iff.2 (mt (running_iff g).1 (by rwa [hg.touches.mode rfl]))]; rfl

theorem command_shutdown_refused (hpath : h.path < 2) (hm : ¬ (4 ≤ (later s h.gap).mode ∧ (later s h.gap).mode ≤ 9))
    (hp : Permits (later s h.gap) h 0x106 false) :
    Ends (.shutdown h) s fun e => Answered (later s h.gap) e h 0x106 3 [] ∧ DevKeeps (told (later s h.gap) h 0x106 3 []) e [.loupe] := by
  refine command_no (c := .shutdown h) rfl ha (by decide) (fun g hg => ?_) hp
  rw [if_neg (by omega), Bool.eq_false_iff.2 (mt (running_iff g).1 (by rwa [hg.touches.mode rfl]))]; rfl

/-- A path that is no host's takes no SHUTDOWN (R448). -/
theorem command_shutdown_denied (hpath : 2 ≤ h.path) (hp : Permits (later s h.gap) h 0x106 false) :
    Ends (.shutdown h) s fun e => Answered (later s h.gap) e h 0x106 8 [] ∧ DevKeeps (told (later s h.gap) h 0x106 8 []) e [.loupe] :=
  command_no (c := .shutdown h) rfl ha (by decide) (fun _ _ => if_pos hpath) hp

end

end Sys2Proof.Machine
end

section
/-! NGU_SNAP. -/

namespace Sys2Proof.Machine

/-! ## NGU_SNAP -/

/-! ### A snapshot by the Loupe only adds to the outputs -/

theorem touches_claspSnap (d : Dev) : Touches [.clasp] d d.claspSnap := by
  unfold Dev.claspSnap
  exact ((touches_inCyc d fun _ => rfl).mono rfl).trans (touches_clasp_regs (d.inCyc _) rfl rfl)

theorem touches_loupeSnap (d : Dev) : Touches [.loupe] d d.loupeSnap := by
  unfold Dev.loupeSnap
  exact ((touches_inCyc d fun _ => rfl).mono rfl).trans (touches_loupe_own (d.inCyc _) rfl)

theorem touches_updSnap (d : Dev) : Touches [.upd] d d.updSnap := by
  unfold Dev.updSnap
  exact ((touches_inCyc d fun _ => rfl).mono rfl).trans (touches_upd_boot (d.inCyc _) rfl)

/-- LKT_CMD by an identity that the channel does not name does nothing. -/
theorem touches_lktWrite_CMD (d : Dev) (c id : Nat) : Touches [.lkt] d (d.lktWrite c id Reg.LKT_CMD 1) := by
  cases h : (d.chan c).sideOf id with
  | none =>
    have e : d.lktWrite c id Reg.LKT_CMD 1 = d := by unfold Dev.lktWrite; dsimp only; rw [h]
    rw [e]
    exact .refl _ d
  | some j =>
    rw [lktWrite_LKT_CMD h]
    exact touches_withChan d c _

theorem snap_locket_loupe {d : Dev} (hl : d.loupeRuns = true) (c : Fin 64) : d.snap .loupe (.locket c) = d.lktWrite c 0 Reg.LKT_CMD 1 := by
  have hc := c.isLt
  generalize hx : 0x50040000 + 0x100 * c.val + 0x2C = a
  have hr : LoupeReg a := by simp only [LoupeReg]; omega
  have e1 : a ≠ Reg.HM_CMD := by simp only [Reg.HM_CMD]; omega
  have e2 : a ≠ Reg.LC_ADVANCE := by simp only [Reg.LC_ADVANCE]; omega
  have e3 : a ≠ Reg.TAMPER_CAUSE := by simp only [Reg.TAMPER_CAUSE]; omega
  have r1 : 0x50040000 ≤ a := by omega
  have r2 : a < 0x50044000 := by omega
  have r3 : (a - 0x50040000) / 0x100 = c.val := by omega
  have r4 : a % 0x100 = 0x2C := by omega
  simp [Dev.snap, Dev.placeWrite, Place.addr, Reg.LKT_CMD, hx, busWrite_loupeReg hl hr, Dev.loupeRegWrite, e1, e2, e3, r1, r2, r3, r4]

/-- A word of a strand's window that the Loupe does not reach, or of a strand fenced inward. -/
theorem loupeRegWrite_unreached {d : Dev} {i : StrandId} {off : Nat} (ho : off < 0xE0000)
    (h : d.loupeReach i off = false ∨ (d.supOf i).fenceIn = true) (v : Word) :
    d.loupeRegWrite (0x60000000 + 0x1000000 * i.val + off) v = d := by
  have hi := i.isLt
  generalize ha : 0x60000000 + 0x1000000 * i.val + off = a
  have hm : a % 0x1000000 = off := by omega
  have hs : loupeStrand a = i := by ext; simp only [loupeStrand, Fin.ofNat]; omega
  have e1 : a ≠ Reg.HM_CMD := by simp only [Reg.HM_CMD]; omega
  have e2 : a ≠ Reg.LC_ADVANCE := by simp only [Reg.LC_ADVANCE]; omega
  have e3 : a ≠ Reg.TAMPER_CAUSE := by simp only [Reg.TAMPER_CAUSE]; omega
  have e4 : a ≠ Reg.LP_CMD := by simp only [Reg.LP_CMD]; omega
  have e5 : a ≠ Reg.UPD_CMD := by simp only [Reg.UPD_CMD]; omega
  have c1 : ¬ a < 0x50044000 := by omega
  have c2 : ¬ a < 0x50044100 := by omega
  have c3 : ¬ a < 0x50081000 := by omega
  have c4 : ¬ 0x70000000 ≤ a := by omega
  have c5 : ¬ 0x71000000 ≤ a := by omega
  rcases h with h | h <;> simp [Dev.loupeRegWrite, e1, e2, e3, e4, e5, c1, c2, c3, c4, c5, hm, hs, h]

/-- The command registers of a strand's units lie below the supervisor's block of the Locket, and none is the supervisor's own or the watchdog's. -/
theorem snapCmd_off (u : StrandUnit) :
    u.cmd.1 < 0xE0000 ∧ u.cmd.1 % 4 = 0 ∧ u.cmd.2 < 2 ^ 32 ∧ u.cmd.1 ≠ Reg.SUP_CTL ∧ u.cmd.1 ≠ Reg.SUP_CAUSE ∧ u.cmd.1 ≠ Reg.CORE_WDOG_KICK := by
  by_cases h : u = .ledger
  · subst h
    decide
  · obtain ⟨⟨h1, h2, h3, h4⟩, hv, -⟩ := snapCmd_place h {} 0
    exact ⟨h2, h3, hv, by simp only [Reg.SUP_CTL]; omega, by simp only [Reg.SUP_CAUSE]; omega, h4⟩

theorem grows_snap_strand {d : Dev} (hl : d.loupeRuns = true) (i : StrandId) (u : StrandUnit) : Grows d (d.snap .loupe (.strand i u)) := by
  obtain ⟨h1, h2, hv, h3, h4, h5⟩ := snapCmd_off u
  have hi := i.isLt
  have hr : LoupeReg (0x60000000 + 0x1000000 * i.val + u.cmd.1) := by simp only [LoupeReg]; omega
  have e : d.snap .loupe (.strand i u) = d.loupeRegWrite (0x60000000 + 0x1000000 * i.val + u.cmd.1) (BitVec.ofNat 32 u.cmd.2) := by
    rw [← busWrite_loupeReg hl hr _ hv, Dev.snap, Dev.placeWrite, Place.addr, if_pos (by omega)]
  rw [e]
  by_cases hx : d.loupeReach i u.cmd.1 = true ∧ (d.supOf i).fenceIn = false
  · rw [loupeRegWrite_strand h1 hx.1 hx.2]
    unfold Dev.strandWrite
    rw [if_neg h3, if_neg h4, if_neg h5]
    exact grows_onStrand d i _
  · rw [loupeRegWrite_unreached h1 (by simpa [imp_iff_not_or] using hx)]
    exact .refl d

theorem grows_snap {d : Dev} (hl : d.loupeRuns = true) (v : SnapUnit) : Grows d (d.snap .loupe v) := by
  cases v with
  | strand i u => exact grows_snap_strand hl i u
  | clasp => rw [snap_clasp (m := .loupe) (b := false) ⟨rfl, hl⟩]; exact (touches_claspSnap d).grows rfl
  | locket c => rw [snap_locket_loupe hl]; exact (touches_lktWrite_CMD d c 0).grows rfl
  | loupe => rw [snap_loupe hl]; exact (touches_loupeSnap d).grows rfl
  | update => rw [snap_update hl]; exact (touches_updSnap d).grows rfl

/-! ### The answer of a snapshot -/

theorem snapBody_verified (d : Dev) (h : NguHdr) (v : SnapUnit) : (d.verified h).snapBody v = (d.heard h.path).countMsg.snapBody v := by
  unfold Dev.verified
  dsimp only
  split
  · cases v <;> rfl
  · rfl

/-- The count of the message shows in no unit's counters but the Loupe's. -/
theorem snapBody_countMsg (d : Dev) :
    d.countMsg.snapBody .clasp = d.snapBody .clasp ∧ ∀ i u, d.countMsg.snapBody (.strand i u) = d.snapBody (.strand i u) := by
  have ht := (notes_countMsg d).parts
  refine ⟨?_, fun i u => ?_⟩
  · simp only [Dev.snapBody, ht.clasp rfl]
  · simp only [Dev.snapBody, ht.strand i rfl]

theorem view_thisCyc (d : Dev) (i : StrandId) : (view d i).thisCyc = if (d.strand i).cyc.time = d.ns then (d.strand i).cyc else { time := d.ns } := rfl

theorem exec_nguSnap (h : NguHdr) (v : SnapUnit) (s : State) :
    exec (.nguSnap h v) s = .next (s.runAt h.gap fun d =>
      d.ngu h 0x100 false { status := fun _ => 0, body := fun e => e.snapBody v, act := fun e => e.snap .loupe v }) := rfl

section
variable {s : State} {h : NguHdr} (ha : Arrives (later s h.gap) h)
include ha

theorem arrives_loupeRuns : (later s h.gap).loupeRuns = true := by
  obtain ⟨hp, hm⟩ := arrives_por ha
  simp [Dev.loupeRuns, hp, hm]

theorem command_snap (v : SnapUnit) {P : Dev → Prop} (hp : Permits (later s h.gap) h 0x100 false)
    (hP : ∀ e, e.loupeRuns = true → Replied (later s h.gap) h 0x100 0 (((later s h.gap).heard h.path).countMsg.snapBody v) e → P (e.snap .loupe v)) :
    Ends (.nguSnap h v) s P := by
  refine ends_runAt (exec_nguSnap h v s) ?_
  obtain ⟨e, he, hr, -⟩ := serve_ok (d := later s h.gap) (h := h) (op := 0x100)
    (x := { status := fun _ => 0, body := fun e => e.snapBody v, act := fun e => e.snap .loupe v }) rfl
  rw [ngu_permits ha hp, he]
  dsimp only at hr
  rw [snapBody_verified] at hr
  have hl : e.loupeRuns = true := by rw [← arrives_loupeRuns ha, Dev.loupeRuns, Dev.loupeRuns, hr.touches.por rfl, hr.touches.mode rfl]
  exact hP e hl hr

theorem command_snap_sent (v : SnapUnit) (hp : Permits (later s h.gap) h 0x100 false) :
    Ends (.nguSnap h v) s fun e => Sent (later s h.gap) e (.answer 0x100 0 (((later s h.gap).heard h.path).countMsg.snapBody v)) :=
  command_snap ha v hp fun _ hl hr => sent_mono hr.answered.1 (grows_snap hl v)

/-- NGU_SNAP of the Clasp. -/
theorem command_snap_clasp (hp : Permits (later s h.gap) h 0x100 false) :
    Ends (.nguSnap h .clasp) s fun e => DevKeeps (told (later s h.gap) h 0x100 0 (((later s h.gap).heard h.path).snapBody .clasp)) e [.loupe] ∧
      Answered (later s h.gap) e h 0x100 0 (((later s h.gap).heard h.path).snapBody .clasp) ∧
      SnapTaken ((later s h.gap).heard h.path).thisCyc.clasp ((later s h.gap).heard h.path).clasp.cnt ((later s h.gap).heard h.path).clasp.snap
        e.clasp.cnt e.clasp.snap 0 0x1000 := by
  refine command_snap ha .clasp hp fun g hl hr => ?_
  rw [(snapBody_countMsg _).1] at hr
  rw [snap_clasp (m := .loupe) (b := false) ⟨rfl, hl⟩]
  have tc := touches_claspSnap g
  refine ⟨(hr.parts.trans (tc.mono rfl)).devKeeps [.loupe] rfl, answered_mono hr.answered (tc.grows rfl) (tc.port rfl) fun i => by rw [tc.strand i rfl], ?_⟩
  have hc := hr.counts
  simp only [Dev.claspCounts, Prod.mk.injEq] at hc
  obtain ⟨h1, h2, h3⟩ := hc
  rw [← h1, ← h2, ← h3]
  exact Cycle.snap_taken _ _ _ _ _

/-- NGU_SNAP of a unit of a strand that the Loupe reaches. -/
theorem command_snap_strand {i : StrandId} (u : StrandUnit) (hreach : Reaches (later s h.gap) .loupe i) (hp : Permits (later s h.gap) h 0x100 false) :
    Ends (.nguSnap h (.strand i u)) s fun e =>
      let q := told (later s h.gap) h 0x100 0 (((later s h.gap).heard h.path).snapBody (.strand i u))
      DevKeeps q e [.loupe, .strands, .upd] ∧ OthersKept q e i ∧
        Answered (later s h.gap) e h 0x100 0 (((later s h.gap).heard h.path).snapBody (.strand i u)) ∧
        SnapTaken (view q i).thisCyc.c (q.strand i).cnt (q.strand i).snap (e.strand i).cnt (e.strand i).snap u.range.1 u.range.2 := by
  refine command_snap ha (.strand i u) hp fun g hl hr => ?_
  rw [(snapBody_countMsg _).2] at hr
  obtain ⟨-, hact, hf⟩ := hreach
  have ht := hr.touches
  have hg : Reaches g .loupe i := ⟨hl, by rwa [Active, ht.phase i rfl], by rwa [ht.supOf i rfl]⟩
  rw [snap_strand hg fun _ b => by simp]
  obtain ⟨⟨-, hk⟩, htaken⟩ := onStrand_snapUnit g i u
  have ton := touches_onStrand g i fun st => st.snapUnit u
  have hx (j : StrandId) : ((g.onStrand i fun st => st.snapUnit u).strand j).banks.exch = (g.strand j).banks.exch := by
    by_cases hj : j = i
    · subst hj
      exact congrArg Banks.exch (hk .banks (by decide) (by decide))
    · rw [Dev.onStrand_strand_ne _ _ hj]
  have hcyc : (view (told (later s h.gap) h 0x100 0 (((later s h.gap).heard h.path).snapBody (.strand i u))) i).thisCyc = (view g i).thisCyc := by
    rw [view_thisCyc, view_thisCyc, hr.parts.strand i rfl, hr.parts.ns rfl]
  refine ⟨(hr.parts.mono rfl |>.trans (ton.mono rfl) : Touches [.strands, .clasp, .out, .loupe, .upd, .own, .port] _ _).devKeeps _ rfl, fun j hj => ⟨?_, ?_⟩,
    answered_mono hr.answered (grows_onStrand g i _) (ton.port rfl) hx, ?_⟩
  · rw [Dev.onStrand_strand_ne _ _ hj, hr.parts.strand j rfl]
  · rw [ton.supOf j rfl, hr.parts.supOf j rfl]
  · rw [hcyc, ← hr.parts.strand i rfl]
    exact htaken

end

end Sys2Proof.Machine
end

section
/-! The commands of Ngufotu together. -/

namespace Sys2Proof.Machine

/-! ## The commands of Ngufotu together -/

/-- Settles O54: each command by its own lemma above. -/
theorem ngufotuCommands : Obligations.NgufotuCommands := by
  unfold Obligations.NgufotuCommands
  intro s h i ns start u v d r q ok no fresh running stays back ha
  refine ⟨fun hp => ⟨command_snap_sent ha v hp, command_snap_clasp ha hp, fun hr => command_snap_strand ha u hr hp⟩,
    fun h0 h1 => ⟨fun hb => command_fence ha h0 h1 hb, fun hf => command_warm ha h0 h1 hf, fun hf => command_warm_ignored ha h0 h1 hf⟩,
    fun h0 => ⟨command_fence_refused ha h0, command_warm_refused ha h0⟩, fun hn => ?_, command_cold_ignored ha,
    command_rejoin ha, command_rejoin_refused ha, command_safeHold ha, command_safeHold_refused ha,
    fun h1 h2 h3 h4 => command_release ha ((mayRelease_iff d).2 ⟨h1, h2, h3, h4⟩), fun hn => command_release_refused ha ?_,
    fun hrun => ⟨command_restart ha start hrun, fun hpath => command_shutdown ha hpath hrun⟩,
    fun hrun => ⟨command_restart_refused ha start hrun, fun hpath => command_shutdown_refused ha hpath hrun⟩, command_shutdown_denied ha,
    command_recover ha, command_recover_refused ha, command_claspRestart ha, command_loupeReset ha, command_setTime ha ns⟩
  · obtain ⟨hf, hc⟩ := not_or.1 hn
    exact command_cold ha (Bool.eq_false_iff.2 hf) hc
  · rw [Bool.eq_false_iff, ne_eq, mayRelease_iff]
    rintro ⟨h9, hb, hg, j, hj, hj'⟩
    rcases hn with hn | hn | hn | hn
    · exact hn h9
    · exact hb hn
    · rw [hg] at hn; cases hn
    · exact hj' (hn j hj)

end Sys2Proof.Machine
end

section
/-! Bead engines: what the operations on one engine and on its registers change, and what they keep. -/

namespace Sys2Proof.Machine

/-! ## Parts of a strand, one operation after another -/

theorem part_same_trans {x y z : StrandSt} {p : Part} (h : p.same x y) (h' : p.same y z) : p.same x z := by
  cases p <;> exact Eq.trans h' h

theorem keeps_refl (x : StrandSt) (but : List Part) : Keeps x x but := fun p _ _ => by cases p <;> rfl

theorem keeps_trans {x y z : StrandSt} {but : List Part} (h : Keeps x y but) (h' : Keeps y z but) : Keeps x z but :=
  fun p hp hb => part_same_trans (h p hp hb) (h' p hp hb)

theorem keeps_mono {x y : StrandSt} {l l' : List Part} (h : Keeps x y l) (hl : l ⊆ l') : Keeps x y l' :=
  fun p hp hb => h p hp fun hm => hb (hl hm)

theorem keeps_inCyc (st : StrandSt) (f : StrandCyc → StrandCyc) : Keeps st (st.inCyc f) [] := fun p _ _ => by cases p <;> rfl

theorem keeps_updEng (st : StrandSt) (n : Nat) (f : Engine → Engine) : Keeps st (st.updEng n f) [.bead] := by
  intro p _ hp
  cases p with
  | bead => simp at hp
  | _ => rfl

theorem keeps_inc (st : StrandSt) (off : Nat) : Keeps st (st.inc off) [.cnt] := by
  intro p _ hp
  cases p with
  | cnt => simp at hp
  | _ => rfl

theorem keeps_flag (st : StrandSt) (off i : Nat) : Keeps st (st.flag off i) [.regs] :=
  keeps_trans (keeps_mono (keeps_inCyc st _) (by simp)) (keeps_wr _ _ _)

theorem keeps_bp (st : StrandSt) (b : BpPins) : Keeps st { st with bp := b } [.bp] := by
  intro p _ hp
  cases p with
  | bp => simp at hp
  | _ => rfl

/-! ## Registers and counters -/

theorem regsBut_refl (st : StrandSt) (l : List Nat) : RegsBut st st l := fun _ _ => rfl

theorem regsBut_trans {x y z : StrandSt} {l : List Nat} (h : RegsBut x y l) (h' : RegsBut y z l) : RegsBut x z l :=
  fun k hk => (h' k hk).trans (h k hk)

theorem regsBut_mono {x y : StrandSt} {l l' : List Nat} (h : RegsBut x y l) (hl : l ⊆ l') : RegsBut x y l' := fun k hk => h k fun hm => hk (hl hm)

theorem rd_congr {x y : StrandSt} (h : y.regs = x.regs) (off : Nat) : y.rd off = x.rd off := by rw [StrandSt.rd, StrandSt.rd, h]

theorem regsBut_congr {x x' y y' : StrandSt} {l : List Nat} (h : x'.regs = x.regs) (h' : y'.regs = y.regs) (hr : RegsBut x' y' l) : RegsBut x y l := by
  simpa only [RegsBut, StrandSt.rd, h, h'] using hr

theorem flagged_flag (st : StrandSt) (off i : Nat) : Flagged st (st.flag off i) off i :=
  ⟨StrandSt.rd_wr_same _ _ _, regsBut_wr _ _ _⟩

theorem counted_inc (st : StrandSt) (off : Nat) : Counted st (st.inc off) off := by
  refine ⟨Tab.get_set_same _ _ _ _, fun k hk => ?_⟩
  exact Tab.get_set_ne _ _ _ (by simpa using hk)

theorem flagged_inc {x y : StrandSt} {off i : Nat} (h : Flagged x y off i) (off' : Nat) : Flagged x (y.inc off') off i := h

@[simp] theorem StrandSt.cnt_flag (st : StrandSt) (off i : Nat) : (st.flag off i).cnt = st.cnt := rfl

theorem counted_congr {x x' y : StrandSt} {off : Nat} (h : x'.cnt = x.cnt) (hc : Counted x' y off) : Counted x y off := by
  simpa only [Counted, CntsBut, StrandSt.counter, h] using hc

theorem flagged_clean {x y : StrandSt} {off i : Nat} (h : Flagged x y off i) : Flagged x y.clean off i := h

theorem counted_clean {x y : StrandSt} {off : Nat} (h : Counted x y off) : Counted x y.clean off := h

theorem flagged_congr {x x' y y' : StrandSt} {off i : Nat} (h : x'.regs = x.regs) (h' : y'.regs = y.regs) (hf : Flagged x' y' off i) :
    Flagged x y off i := by
  simpa only [Flagged, RegsBut, StrandSt.rd, h, h'] using hf

/-- Setting a bit of a number adds its power of two, where it was 0. -/
theorem putN_bit (n k : Nat) : putN n k k 1 = if n.testBit k then n else n + 2 ^ k := by
  have hb : n.testBit k = decide (n / 2 ^ k % 2 = 1) := Nat.testBit_eq_decide_div_mod_eq
  have hle : n / 2 ^ k * 2 ^ k ≤ n := Nat.div_mul_le_self _ _
  rw [hb, putN, bitsN, Nat.add_sub_cancel_left, pow_one, Nat.shiftLeft_eq, Nat.shiftLeft_eq, Nat.shiftRight_eq_div_pow]
  rcases Nat.mod_two_eq_zero_or_one (n / 2 ^ k) with h | h
  · simp [h]
  · have h1 : 2 ^ k ≤ n := by
      have h0 : 0 < n / 2 ^ k := Nat.pos_of_ne_zero fun h0 => by simp [h0] at h
      exact (Nat.le_mul_of_pos_left _ h0).trans hle
    simp [h, Nat.sub_add_cancel h1]

/-- Setting a bit of a word is an OR. -/
theorem setBit_true (w : Word) (k : Nat) : setBit w k true = w ||| BitVec.twoPow 32 k := by
  have h : setBit w k true = if w.getLsbD k then w else w + BitVec.twoPow 32 k := by
    rw [setBit, setField, if_pos rfl, putN_bit, ← BitVec.getLsbD]
    split
    · simp
    · apply BitVec.eq_of_toNat_eq
      simp [BitVec.toNat_twoPow]
  have ha := w.and_twoPow k
  rw [h]
  split
  · next hb =>
    rw [if_pos hb] at ha
    rw [← ha]
    ext i hi
    simp
    grind
  · next hb =>
    rw [if_neg hb] at ha
    exact BitVec.add_eq_or_of_and_eq_zero _ _ ha

/-! ## Engines -/

@[simp] theorem StrandSt.eng_updEng_same (st : StrandSt) (n : Nat) (f : Engine → Engine) : (st.updEng n f).eng n = f (st.eng n) :=
  StrandSt.eng_setEng_same _ _ _

@[simp] theorem StrandSt.eng_flag (st : StrandSt) (off i n : Nat) : (st.flag off i).eng n = st.eng n := rfl

@[simp] theorem StrandSt.eng_inc (st : StrandSt) (off n : Nat) : (st.inc off).eng n = st.eng n := rfl

theorem engsBut_inc (st : StrandSt) (off n : Nat) : EngsBut st (st.inc off) n := fun _ _ => rfl

@[simp] theorem StrandSt.eng_clean (st : StrandSt) (n : Nat) : st.clean.eng n = st.eng n := rfl

theorem engsBut_clean {x y : StrandSt} {n : Nat} (h : EngsBut x y n) : EngsBut x y.clean n := h

theorem engsBut_flag (st : StrandSt) (off i n : Nat) : EngsBut st (st.flag off i) n := fun _ _ => rfl

theorem engsBut_updEng (st : StrandSt) (n : Nat) (f : Engine → Engine) : EngsBut st (st.updEng n f) n := fun _ hk => StrandSt.eng_setEng_ne _ _ hk

theorem engsBut_trans {x y z : StrandSt} {n : Nat} (h : EngsBut x y n) (h' : EngsBut y z n) : EngsBut x z n := fun k hk => (h' k hk).trans (h k hk)

/-! ## The record of the present cycle -/

theorem StrandSt.thisCyc_time (st : StrandSt) : st.thisCyc.time = st.env.ns := by
  unfold StrandSt.thisCyc
  split
  · assumption
  · rfl

theorem StrandSt.thisCyc_inCyc (st : StrandSt) {f : StrandCyc → StrandCyc} (hf : (f st.thisCyc).time = st.thisCyc.time) :
    (st.inCyc f).thisCyc = f st.thisCyc := if_pos (hf.trans st.thisCyc_time)

/-! ## A step of an engine's queues (R66, R67, R69) -/

/-- Engine `n` changed, with THR set where `thr` says so: what every step of a queue does. -/
def StrandSt.queueStep (st : StrandSt) (n : Nat) (f : Engine → Engine) (thr : Bool) : StrandSt :=
  if thr then (st.updEng n f).flag (Reg.BEAD_FLAGS n) 9 else st.updEng n f

theorem txTake_eq (st : StrandSt) (n : Nat) : ∃ thr, st.txTake n = st.queueStep n (fun e => { e with txq := e.txq.drop 1 }) thr := ⟨_, rfl⟩

theorem rxAppend_eq (st : StrandSt) (n : Nat) (ws : List Word) :
    ∃ thr, st.rxAppend n ws = st.queueStep n (fun e => { e with rxq := e.rxq ++ ws.map fun w => { word := w, ready := st.now + 1 } }) thr := ⟨_, rfl⟩

/-- Emptied queues: the TX level falls to the threshold where it was above it and the threshold can be reached. -/
theorem emptyQueues_eq (st : StrandSt) (n : Nat) :
    st.emptyQueues n = st.queueStep n (fun e => { e with txq := [], rxq := [] }) (!st.txThr n && decide (st.txThresh n ≤ st.txDepth n)) := by
  have h : (st.updEng n fun e => { e with txq := [], rxq := [] }).txThr n = decide (st.txThresh n ≤ st.txDepth n) := by
    unfold StrandSt.txThr
    rw [StrandSt.eng_updEng_same]
    exact Bool.and_true _
  exact congrArg (fun b => st.queueStep n _ (!st.txThr n && b)) h

section
variable (st : StrandSt) (n : Nat) (f : Engine → Engine) (thr : Bool)

theorem keeps_queueStep : Keeps st (st.queueStep n f thr) [.bead, .regs] := by
  have h := keeps_mono (keeps_updEng st n f) (l' := [.bead, .regs]) (by simp)
  cases thr with
  | false => exact h
  | true => exact keeps_trans h (keeps_mono (keeps_flag _ _ _) (by simp))

theorem regsBut_queueStep : RegsBut st (st.queueStep n f thr) [Reg.BEAD_FLAGS n] := by
  cases thr with
  | false => exact regsBut_refl st _
  | true => exact (flagged_flag (st.updEng n f) _ _).2

theorem engsBut_queueStep : EngsBut st (st.queueStep n f thr) n := by
  cases thr with
  | false => exact engsBut_updEng st n f
  | true => exact engsBut_trans (engsBut_updEng st n f) (engsBut_flag _ _ _ n)

@[simp] theorem StrandSt.eng_queueStep : (st.queueStep n f thr).eng n = f (st.eng n) := by
  cases thr with
  | false => exact st.eng_updEng_same n f
  | true => exact (StrandSt.eng_flag _ _ _ n).trans (st.eng_updEng_same n f)

end

/-- BEAD_FLAGS of an engine whose queues are emptied (R69). -/
theorem rd_emptyQueues (st : StrandSt) (n : Nat) : (st.emptyQueues n).rd (Reg.BEAD_FLAGS n) = thrFlag st n := by
  rw [emptyQueues_eq, thrFlag]
  cases !st.txThr n && decide (st.txThresh n ≤ st.txDepth n) with
  | false => rfl
  | true => exact (flagged_flag (st.updEng n _) _ _).1

end Sys2Proof.Machine
end

section
/-! Bead engines: the commands of a stopped or running engine, its queues and its configuration. -/

namespace Sys2Proof.Machine

/-! ## A master's write of a register of an engine -/

/-- What a strand's command leaves: the strand that its operation gives, and all else as it was. -/
theorem onStrand_leaves {d : Dev} {i : StrandId} {g : StrandSt → StrandSt} {t : StrandSt} {but : List Part} (hg : g (view d i) = t)
    (hk : Keeps (view d i) t but) : Only d (d.onStrand i g) i but ∧ (d.onStrand i g).strand i = t.clean := by
  subst hg
  exact ⟨only_onStrand hk, Dev.onStrand_strand_same d i g⟩

/-- A command that is a master's write of a Bead register ends with the strand `t` that the register's own operation leaves. -/
theorem ends_beadWrite {c : Instr} {s : State} {dt off v : Nat} {m : Master} {i : StrandId} {t : StrandSt} {but : List Part} {P : Dev → Prop}
    (hx : exec c s = .next (s.runAt dt fun d => d.placeWrite m (.strand i off) v)) (hr : Reaches (later s dt) m i) (hb : BeadPlace off)
    (hv : v < 2 ^ 32) (ht : (view (later s dt) i).regWrite m.code off (BitVec.ofNat 32 v) = t) (hk : Keeps (view (later s dt) i) t but)
    (hP : ∀ e, Only (later s dt) e i but → e.strand i = t.clean → P e) : Ends c s P := by
  refine ends_runAt hx ?_
  rw [placeWrite_strand _ m i off v hr hb.plain hv (hb.directTail _ i)]
  obtain ⟨ho, he⟩ := onStrand_leaves (d := later s dt) (i := i) (g := fun st => st.regWrite m.code off (BitVec.ofNat 32 v)) ht hk
  exact hP _ ho he

/-- The same for a write of a word. -/
theorem ends_beadWord {c : Instr} {s : State} {dt off : Nat} {m : Master} {i : StrandId} {v : Word} {t : StrandSt} {but : List Part} {P : Dev → Prop}
    (hx : exec c s = .next (s.runAt dt fun d => d.placeWrite m (.strand i off) v.toNat)) (hr : Reaches (later s dt) m i) (hb : BeadPlace off)
    (ht : (view (later s dt) i).regWrite m.code off v = t) (hk : Keeps (view (later s dt) i) t but)
    (hP : ∀ e, Only (later s dt) e i but → e.strand i = t.clean → P e) : Ends c s P :=
  ends_beadWrite hx hr hb v.isLt (by rwa [BitVec.ofNat_toNat, BitVec.setWidth_eq]) hk hP

theorem beadPlace_BEAD_CMD (n : Fin 16) : BeadPlace (Reg.BEAD_CMD n) := by simp only [BeadPlace, Reg.BEAD_CMD]; omega
theorem beadPlace_BEAD_TXQ (n : Fin 16) : BeadPlace (Reg.BEAD_TXQ n) := by simp only [BeadPlace, Reg.BEAD_TXQ]; omega
theorem beadPlace_BEAD_QCFG (n : Fin 16) : BeadPlace (Reg.BEAD_QCFG n) := by simp only [BeadPlace, Reg.BEAD_QCFG]; omega
theorem beadPlace_BEAD_DIV (n : Fin 16) : BeadPlace (Reg.BEAD_DIV n) := by simp only [BeadPlace, Reg.BEAD_DIV]; omega
theorem beadPlace_BEAD_CRCCFG (n : Fin 16) : BeadPlace (Reg.BEAD_CRCCFG n) := by simp only [BeadPlace, Reg.BEAD_CRCCFG]; omega
theorem beadPlace_BEAD_IMEM (n : Fin 16) (k : Fin 64) : BeadPlace (Reg.BEAD_IMEM n k) := by simp only [BeadPlace, Reg.BEAD_IMEM]; omega

/-! ## BEAD_CMD -/

/-- A command that R75 names has reached engine `n`, in a cycle in which Bangle starts none. -/
def StrandSt.commanded (st : StrandSt) (n : Nat) : StrandSt := st.inCyc fun y => { y with cmds := n :: y.cmds }

theorem meetBangle_noStarts {st : StrandSt} (h : st.thisCyc.begun = {}) (n : Nat) : st.meetBangle n = st.commanded n := by
  have hb : (st.commanded n).thisCyc.begun = {} := by
    rw [StrandSt.commanded, StrandSt.thisCyc_inCyc st rfl]
    exact h
  unfold StrandSt.meetBangle
  change (match (st.commanded n).thisCyc.begun.get none n with
    | some b => if b.bangle then (((st.commanded n).undoStart n).startMissed n).bangleMissed else st.commanded n
    | none => st.commanded n) = st.commanded n
  rw [hb]
  rfl

section
variable {st : StrandSt} (h : st.thisCyc.begun = {}) (n : Nat)
include h

theorem beadCmd_stop : st.beadCmd n 2 = (st.commanded n).cmdStop n := by
  rw [← meetBangle_noStarts h]; rfl

theorem beadCmd_qflush : st.beadCmd n 0x10 = (st.commanded n).cmdQflush n := by
  rw [← meetBangle_noStarts h]; rfl

theorem beadCmd_pinRelease : st.beadCmd n 0x20 = (st.commanded n).cmdPinRelease n := by
  rw [← meetBangle_noStarts h]; rfl

end

theorem beadCmd_divRestart (st : StrandSt) (n : Nat) : st.beadCmd n 0x80 = st.divRestart n := rfl

theorem beadCmd_evtSet (st : StrandSt) (n : Nat) (mask : Fin 16) : st.beadCmd n (0x100 * mask.val) = st.evtSetMask n mask := by
  fin_cases mask <;> rfl

/-- A command of BEAD_CMD ends with what that write leaves of the strand. -/
theorem ends_beadCmd {c : Instr} {s : State} {dt v : Nat} {m : Master} {i : StrandId} {n : Fin 16} {t : StrandSt} {but : List Part} {P : Dev → Prop}
    (hx : exec c s = .next (s.runAt dt fun d => d.placeWrite m (.strand i (Reg.BEAD_CMD n)) v)) (hr : Reaches (later s dt) m i) (hv : v < 2 ^ 32)
    (ht : (view (later s dt) i).beadCmd n v = t) (hk : Keeps (view (later s dt) i) t but)
    (hP : ∀ e, Only (later s dt) e i but → e.strand i = t.clean → P e) : Ends c s P := by
  refine ends_beadWrite hx hr (beadPlace_BEAD_CMD n) hv ?_ hk hP
  rw [regWrite_BEAD_CMD, BitVec.toNat_ofNat, Nat.mod_eq_of_lt hv, ht]

/-! ### EVT_SET -/

/-- The EVT bits of a list that a mask names, set one after another on an engine that watches none: the flags' register alone changes. -/
theorem foldl_evtSet {n : Nat} (mask : Nat) (l : List Nat) (st : StrandSt) (hs : (st.eng n).sync = .idle) :
    Keeps st (l.foldl (fun s k => if bitN mask k then s.evtSet n k else s) st) [.regs] ∧
      RegsBut st (l.foldl (fun s k => if bitN mask k then s.evtSet n k else s) st) [Reg.BEAD_EVT n] ∧
      (l.foldl (fun s k => if bitN mask k then s.evtSet n k else s) st).rd (Reg.BEAD_EVT n) =
        l.foldl (fun w k => if bitN mask k then setBit w k true else w) (st.rd (Reg.BEAD_EVT n)) := by
  induction l generalizing st with
  | nil => exact ⟨keeps_refl st _, regsBut_refl st _, rfl⟩
  | cons k l ih =>
    simp only [List.foldl_cons]
    cases bitN mask k with
    | false => exact ih st hs
    | true =>
      have he : st.evtSet n k = (st.noteEvt n).flag (Reg.BEAD_EVT n) k := by
        unfold StrandSt.evtSet
        dsimp only
        rw [hs]
      have hf := flagged_flag (st.noteEvt n) (Reg.BEAD_EVT n) k
      obtain ⟨hk, hr, hw⟩ := ih (st.evtSet n k) (by rw [he]; exact hs)
      refine ⟨keeps_trans ?_ hk, regsBut_trans ?_ hr, hw.trans ?_⟩
      · rw [he]
        exact keeps_trans (keeps_mono (keeps_inCyc st _) (by simp)) (keeps_flag _ _ _)
      · rw [he]
        exact hf.2
      · rw [he, hf.1]
        rfl

/-- The four bits of a mask, set one after another. -/
theorem foldl_setBit_mask (w : Word) (mask : Fin 16) :
    (List.range 4).foldl (fun w k => if bitN mask k then setBit w k true else w) w = w ||| BitVec.ofNat 32 mask := by
  simp only [setBit_true]
  fin_cases mask <;> simp [List.range_succ, bitN, BitVec.or_assoc, BitVec.twoPow_eq]

/-! ### STOP -/

theorem keeps_cmdStop (st : StrandSt) (n : Nat) : Keeps st ((st.commanded n).cmdStop n) [.bead] :=
  keeps_trans (keeps_mono (keeps_inCyc st _) (by simp)) (keeps_updEng _ _ _)

theorem engsBut_cmdStop (st : StrandSt) (n : Nat) : EngsBut st ((st.commanded n).cmdStop n) n := engsBut_updEng (st.commanded n) n _

theorem eng_cmdStop (st : StrandSt) (n : Nat) :
    ((st.commanded n).cmdStop n).eng n = if (st.eng n).state = .stopped then st.eng n else { st.eng n with stopPend := true } :=
  (st.commanded n).eng_updEng_same n _

theorem engsBut_stopEngine (st : StrandSt) (n c : Nat) : EngsBut st (st.stopEngine n c) n := engsBut_updEng st n _

theorem eng_stopEngine (st : StrandSt) (n c : Nat) : (st.stopEngine n c).eng n =
    { st.eng n with state := .stopped, stopCause := c, stopPend := false, dly := 0, due := false, stepping := 0, sync := .idle, stamp := none } :=
  st.eng_updEng_same n _

/-- Settles O3: STOP, STOP_ACT and EVT_SET, each the operation of that name on its engine. -/
theorem beadStopAndEvents : Obligations.BeadStopAndEvents := by
  unfold Obligations.BeadStopAndEvents
  intro s m i n mask dt
  refine ⟨fun hr hn => ?_, fun ha hp => ?_, fun hr hs => ?_⟩
  · refine ends_beadCmd (c := .stop dt m i n) rfl hr (by decide) (beadCmd_stop hn n) (keeps_cmdStop _ n) fun e ho he => ?_
    rw [he]
    exact ⟨ho, engsBut_cmdStop (view (later s dt) i) n, eng_cmdStop (view (later s dt) i) n⟩
  · refine ends_runAt (c := .stopAct dt i n) rfl ?_
    rw [Dev.onActive_eq _ _ _ ha]
    obtain ⟨ho, he⟩ := onStrand_leaves (d := later s dt) (i := i) (g := fun s => if (s.eng n).stopPend then s.stopEngine n 1 else s)
      (if_pos hp) (keeps_updEng _ _ _)
    rw [he]
    exact ⟨ho, engsBut_stopEngine (view (later s dt) i) n 1, eng_stopEngine (view (later s dt) i) n 1⟩
  · obtain ⟨hk, hb, hw⟩ := foldl_evtSet mask (List.range 4) (view (later s dt) i) hs
    refine ends_beadCmd (c := .evtSet dt m i n mask) rfl hr (by omega) (beadCmd_evtSet _ n mask) hk fun e ho he => ?_
    rw [he]
    exact ⟨ho, hb, hw.trans (foldl_setBit_mask _ mask)⟩

/-! ### QFLUSH, PIN_RELEASE, DIV_RESTART and the instruction memory -/

/-- The entries of a list that name engine `n`, ended (R56). -/
theorem get_foldl_release (n : Nat) (l : List Nat) (t : Tab (Option Nat)) (p : Nat) :
    (l.foldl (fun t p => if t.get none p == some n then t.set none p none else t) t).get none p =
      if p ∈ l ∧ t.get none p = some n then none else t.get none p := by
  induction l generalizing t with
  | nil => simp
  | cons k l ih =>
    have hstep : (if t.get none k == some n then t.set none k none else t).get none p =
        if p = k ∧ t.get none p = some n then none else t.get none p := by
      by_cases hp : p = k
      · subst hp
        by_cases hk : t.get none p = some n <;> simp [hk]
      · rw [if_neg (c := p = k ∧ _) fun h => hp h.1]
        split
        · exact Tab.get_set_ne _ _ _ hp
        · rfl
    rw [List.foldl_cons, ih, hstep]
    by_cases hn : t.get none p = some n <;> by_cases hp : p = k <;> simp [hn, hp]

theorem keeps_releaseClaims (st : StrandSt) (n : Nat) : Keeps st (st.releaseClaims n) [.bp] := keeps_bp st _

theorem own_releaseClaims (st : StrandSt) (n : Nat) {p : Nat} (hp : p < 24) :
    (st.releaseClaims n).bp.own.get none p = if st.bp.own.get none p = some n then none else st.bp.own.get none p := by
  unfold StrandSt.releaseClaims
  dsimp only
  rw [get_foldl_release]
  simp [hp]

theorem lane_releaseClaims (st : StrandSt) (n : Nat) {p : Nat} (hp : p < 4) :
    (st.releaseClaims n).bp.lane.get none p = if st.bp.lane.get none p = some n then none else st.bp.lane.get none p := by
  unfold StrandSt.releaseClaims
  dsimp only
  rw [get_foldl_release]
  simp [hp]

theorem keeps_commanded (st : StrandSt) (n : Nat) (but : List Part) : Keeps st (st.commanded n) but := keeps_mono (keeps_inCyc st _) (by simp)

/-- What each command of a STOPPED engine does to another: it sets one flag. -/
theorem keeps_commanded_flag (st : StrandSt) (n off i : Nat) : Keeps st ((st.commanded n).flag off i) [.regs] :=
  keeps_trans (keeps_commanded st n _) (keeps_flag _ off i)

theorem keeps_emptyQueues (st : StrandSt) (n : Nat) : Keeps st (st.emptyQueues n) [.bead, .regs] := by
  rw [emptyQueues_eq]; exact keeps_queueStep _ _ _ _

theorem engsBut_emptyQueues (st : StrandSt) (n : Nat) : EngsBut st (st.emptyQueues n) n := by
  rw [emptyQueues_eq]; exact engsBut_queueStep _ _ _ _

theorem regsBut_emptyQueues (st : StrandSt) (n : Nat) : RegsBut st (st.emptyQueues n) [Reg.BEAD_FLAGS n] := by
  rw [emptyQueues_eq]; exact regsBut_queueStep _ _ _ _

theorem eng_emptyQueues (st : StrandSt) (n : Nat) : (st.emptyQueues n).eng n = { st.eng n with txq := [], rxq := [] } := by
  rw [emptyQueues_eq]; exact StrandSt.eng_queueStep _ _ _ _

/-- An engine with an instruction word stored, which no longer fails (R79). -/
def Engine.withWord (e : Engine) (k : Nat) (v : BitVec 24) : Engine := { e with imem := e.imem.set 0 k v, bad := e.bad.set false k false }

theorem imemWrite_stopped {st : StrandSt} {n : Nat} (h : (st.eng n).state = .stopped) (k : Fin 64) (v : BitVec 24) :
    st.imemWrite n k (BitVec.ofNat 32 v.toNat) =
      st.updEng n fun e => e.withWord k v := by
  have hv : (BitVec.ofNat 32 v.toNat).setWidth 24 = v := by
    apply BitVec.eq_of_toNat_eq
    have := v.isLt
    simp only [BitVec.toNat_setWidth, BitVec.toNat_ofNat]
    omega
  rw [StrandSt.imemWrite, hv, Nat.mod_eq_of_lt k.isLt, if_neg (by simp [h])]
  rfl

theorem imemWrite_busy {st : StrandSt} {n : Nat} (h : (st.eng n).state ≠ .stopped) (k : Nat) (v : Word) :
    st.imemWrite n k v = st.flag (Reg.BEAD_FLAGS n) 0 := if_pos (by simpa using h)

theorem keeps_divRestart (st : StrandSt) (n : Nat) : Keeps st (st.divRestart n) [.bead] := keeps_updEng _ _ _

theorem engsBut_divRestart (st : StrandSt) (n : Nat) : EngsBut st (st.divRestart n) n := engsBut_updEng st n _

theorem eng_divRestart (st : StrandSt) (n : Nat) : (st.divRestart n).eng n = { st.eng n with left := 2, acc := 0 } := st.eng_updEng_same n _

/-- An instruction memory write takes the 24 bits of its word. -/
theorem ends_imemWrite {s : State} {dt : Nat} {m : Master} {i : StrandId} {n : Fin 16} {k : Fin 64} {v : BitVec 24} {t : StrandSt} {but : List Part}
    {P : Dev → Prop} (hr : Reaches (later s dt) m i) (ht : (view (later s dt) i).imemWrite n k (BitVec.ofNat 32 v.toNat) = t)
    (hk : Keeps (view (later s dt) i) t but) (hP : ∀ e, Only (later s dt) e i but → e.strand i = t.clean → P e) :
    Ends (.beadImemWrite dt m i n k v) s P :=
  ends_beadWrite (c := .beadImemWrite dt m i n k v) rfl hr (beadPlace_BEAD_IMEM n k) (v.isLt.trans (by decide))
    ((regWrite_BEAD_IMEM _ _ _ n k).trans ht) hk hP

/-- Settles O4: QFLUSH, PIN_RELEASE, the instruction memory and DIV_RESTART, each by whether the engine is STOPPED. -/
theorem beadStoppedCommands : Obligations.BeadStoppedCommands := by
  unfold Obligations.BeadStoppedCommands
  intro s dt m i n k v hr hn
  refine ⟨fun hs => ⟨?_, ?_, ?_⟩, fun hs => ⟨?_, ?_, ?_⟩, ?_⟩
  · have ht := (beadCmd_qflush hn n).trans (if_pos hs)
    refine ends_beadCmd (c := .qflush dt m i n) rfl hr (by decide) ht
      (keeps_trans (keeps_commanded _ _ _) (keeps_emptyQueues _ _)) fun e ho he => ?_
    rw [he]
    exact ⟨ho, engsBut_emptyQueues ((view (later s dt) i).commanded n) n, eng_emptyQueues ((view (later s dt) i).commanded n) n,
      regsBut_emptyQueues ((view (later s dt) i).commanded n) n, rd_emptyQueues ((view (later s dt) i).commanded n) n⟩
  · have ht := (beadCmd_pinRelease hn n).trans (if_pos hs)
    refine ends_beadCmd (c := .pinRelease dt m i n) rfl hr (by decide) ht
      (keeps_trans (keeps_commanded _ _ _) (keeps_releaseClaims _ _)) fun e ho he => ?_
    rw [he]
    exact ⟨ho, fun p hp => own_releaseClaims ((view (later s dt) i).commanded n) n hp,
      fun p hp => lane_releaseClaims ((view (later s dt) i).commanded n) n hp⟩
  · refine ends_imemWrite hr (imemWrite_stopped (st := view (later s dt) i) hs k v) (keeps_updEng _ _ _) fun e ho he => ?_
    have hy := StrandSt.eng_updEng_same (view (later s dt) i) n fun e => e.withWord k v
    rw [he]
    exact ⟨ho, engsBut_updEng (view (later s dt) i) n fun e => e.withWord k v, hy, (congrArg (fun e => e.imem.get 0 k) hy).trans (Tab.get_set_same _ _ _ _)⟩
  · refine ends_beadCmd (c := .qflush dt m i n) rfl hr (by decide) ((beadCmd_qflush hn n).trans (if_neg hs)) (keeps_commanded_flag _ _ _ _) fun e ho he => ?_
    rw [he]
    exact ⟨ho, flagged_flag ((view (later s dt) i).commanded n) (Reg.BEAD_FLAGS n) 2⟩
  · refine ends_beadCmd (c := .pinRelease dt m i n) rfl hr (by decide) ((beadCmd_pinRelease hn n).trans (if_neg hs)) (keeps_commanded_flag _ _ _ _) fun e ho he => ?_
    rw [he]
    exact ⟨ho, flagged_flag ((view (later s dt) i).commanded n) (Reg.BEAD_FLAGS n) 2⟩
  · refine ends_imemWrite hr (imemWrite_busy (st := view (later s dt) i) hs k _) (keeps_flag _ _ _) fun e ho he => ?_
    rw [he]
    exact ⟨ho, flagged_flag (view (later s dt) i) (Reg.BEAD_FLAGS n) 0⟩
  · refine ends_beadCmd (c := .divRestart dt m i n) rfl hr (by decide) (beadCmd_divRestart _ n) (keeps_divRestart _ _) fun e ho he => ?_
    rw [he]
    exact ⟨ho, engsBut_divRestart (view (later s dt) i) n, eng_divRestart (view (later s dt) i) n⟩

end Sys2Proof.Machine
end

section
/-! Bead engines: writes of the queue, CRC and divider configuration. -/

namespace Sys2Proof.Machine

/-! ## BEAD_QCFG -/

/-- BEAD_QCFG as a write of `v` without a chain leaves it. -/
def qcfgWord (v : Word) : Word := packW [(0, 16), (fieldOf v 13 8, 8), (fieldOf v 7 2, 2), (fieldOf v 1 0, 0)]

theorem qcfgWord_fields (v : Word) :
    fieldOf (qcfgWord v) 1 0 = fieldOf v 1 0 ∧ fieldOf (qcfgWord v) 7 2 = fieldOf v 7 2 ∧ fieldOf (qcfgWord v) 13 8 = fieldOf v 13 8 := by
  simp only [qcfgWord, packW, fieldOf, bitsN, Nat.shiftRight_eq_div_pow, List.map_cons, List.map_nil, List.sum_cons, List.sum_nil, BitVec.toNat_ofNat]
  omega

/-- A write that neither makes nor ends a chain empties the engine's queues and stores the word (R66). -/
theorem qcfgWrite_stopped {st : StrandSt} {n : Nat} {v : Word} (ho : st.chainOdd n = false) (h3 : fieldOf v 1 0 ≠ 3) (h16 : bitOf v 16 = false)
    (hc : st.chained n = false) (hs : (st.eng n).state = .stopped) :
    st.qcfgWrite n v = (st.emptyQueues n).wr (Reg.BEAD_QCFG n) (qcfgWord v) := by
  have hq : (st.emptyQueues n).chained n = false := by
    have hr : (st.emptyQueues n).rd (Reg.BEAD_QCFG n) = st.rd (Reg.BEAD_QCFG n) := by
      refine regsBut_emptyQueues st n _ ?_
      simp [Reg.BEAD_QCFG, Reg.BEAD_FLAGS]
    rw [← hc, StrandSt.chained, StrandSt.chained, StrandSt.bit, StrandSt.bit, hr]
  simp [StrandSt.qcfgWrite, ho, h3, h16, hq, hc, hs, StrandSt.qcfgFree, b2n, qcfgWord]

theorem qcfgWrite_busy {st : StrandSt} {n : Nat} (v : Word) (ho : st.chainOdd n = false) (hs : (st.eng n).state ≠ .stopped) :
    st.qcfgWrite n v = st.flag (Reg.BEAD_FLAGS n) 1 := by
  simp [StrandSt.qcfgWrite, ho, hs, StrandSt.qcfgFree]

/-! ## BEAD_CRCCFG -/

theorem findRow_BEAD_CRCCFG (n : Fin 16) : findRow (strandRows (Reg.BEAD_CRCCFG n)) (Reg.BEAD_CRCCFG n) =
    some ⟨"BEAD_CRCCFG", 0x1004c, [(4096, 16)], 0x0, 7, true, [⟨2, 0, .rw, []⟩]⟩ := by fin_cases n <;> rfl

/-- A write to a STOPPED engine selects the entry and loads its initial value (R62, R63). -/
theorem crccfgWrite_stopped {st : StrandSt} {n : Fin 16} (m : Master) (v : Word) (hs : (st.eng n).state = .stopped) :
    st.beadStopped m.code n 0x4C v =
      (st.wr (Reg.BEAD_CRCCFG n) (setField (st.rd (Reg.BEAD_CRCCFG n)) 2 0 (fieldOf v 2 0))).crcLoad n := by
  have he : Reg.BEAD_CTL n + 0x4C = Reg.BEAD_CRCCFG n := by simp only [Reg.BEAD_CTL, Reg.BEAD_CRCCFG]; omega
  have hp : st.beadPeek n 0x4C = st.rd (Reg.BEAD_CRCCFG n) := by rw [← he]; rfl
  have hw : st.fieldWrite m.code (Reg.BEAD_CRCCFG n) (st.rd (Reg.BEAD_CRCCFG n)) v =
      setField (st.rd (Reg.BEAD_CRCCFG n)) 2 0 (fieldOf v 2 0) := by
    rw [StrandSt.fieldWrite, findRow_BEAD_CRCCFG]
    exact if_pos (mayWrite_all rfl m)
  unfold StrandSt.beadStopped
  dsimp only
  rw [if_neg (by simp [hs]), hp, he, if_neg (by decide), hw]
  rfl

theorem crccfgWrite_busy {st : StrandSt} {n : Nat} (m : Nat) (v : Word) (hs : (st.eng n).state ≠ .stopped) :
    st.beadStopped m n 0x4C v = st.flag (Reg.BEAD_FLAGS n) 1 := if_pos (by simpa using hs)

theorem engsBut_crcLoad (st : StrandSt) (n : Nat) : EngsBut st (st.crcLoad n) n := engsBut_updEng st n _

/-- The accumulator is loaded with the initial value of the entry that is selected (R63). -/
theorem eng_crcLoad (st : StrandSt) (n : Nat) :
    (st.crcLoad n).eng n = { st.eng n with crc := BitVec.ofNat 32 ((st.crcLoad n).crcEntry n).init } := st.eng_updEng_same n _

theorem fieldOf_setField_low3 (w v : Word) : fieldOf (setField w 2 0 (fieldOf v 2 0)) 2 0 = fieldOf v 2 0 := by
  have := w.isLt
  simp only [setField, putN, fieldOf, bitsN, Nat.shiftRight_eq_div_pow, Nat.shiftLeft_eq, BitVec.toNat_ofNat]
  omega

/-! ## BEAD_DIV -/

theorem findRow_BEAD_DIV (n : Fin 16) : findRow (strandRows (Reg.BEAD_DIV n)) (Reg.BEAD_DIV n) =
    some ⟨"BEAD_DIV", 0x10014, [(4096, 16)], 0x100, 7, false, [⟨23, 8, .rw, []⟩, ⟨7, 0, .rw, []⟩]⟩ := by fin_cases n <;> rfl

/-- BEAD_DIV as a write of `v` over `old` leaves it: both its fields. -/
def divWord (old v : Word) : Word := BitVec.ofNat 32 (putN (putN old.toNat 23 8 (bitsN v.toNat 23 8)) 7 0 (bitsN v.toNat 7 0))

theorem divWord_field (old v : Word) : fieldOf (divWord old v) 23 0 = fieldOf v 23 0 := by
  have := old.isLt
  simp only [divWord, putN, fieldOf, bitsN, Nat.shiftRight_eq_div_pow, Nat.shiftLeft_eq, BitVec.toNat_ofNat]
  omega

theorem regWrite_BEAD_DIV_word (st : StrandSt) (m : Master) (n : Fin 16) (v : Word) :
    st.regWrite m.code (Reg.BEAD_DIV n) v = st.wr (Reg.BEAD_DIV n) (divWord (st.rd (Reg.BEAD_DIV n)) v) := by
  rw [regWrite_BEAD_DIV, plainWrite_of_row (findRow_BEAD_DIV n) rfl]
  rfl

/-! ## The configuration -/

/-- Settles O6: each register's write, by whether the engine is STOPPED. -/
theorem beadConfiguration : Obligations.BeadConfiguration := by
  unfold Obligations.BeadConfiguration
  intro s dt m i n v hr
  refine ⟨fun ho h3 h16 hc hs => ?_, fun ho hs => ?_, fun hs => ?_, fun hs => ?_, ?_⟩
  · have ht := qcfgWrite_stopped (st := view (later s dt) i) ho h3 h16 hc hs
    refine ends_beadWord (c := .beadQcfgWrite dt m i n v) rfl hr (beadPlace_BEAD_QCFG n) ((regWrite_BEAD_QCFG _ _ v n).trans ht)
      (keeps_trans (keeps_emptyQueues _ _) (keeps_mono (keeps_wr _ _ _) (by simp))) fun e ho he => ?_
    have hb := regsBut_trans (regsBut_mono (l' := [Reg.BEAD_QCFG n, Reg.BEAD_FLAGS n]) (regsBut_emptyQueues (view (later s dt) i) n) (by simp))
      (regsBut_mono (regsBut_wr _ (Reg.BEAD_QCFG n) (qcfgWord v)) (by simp))
    have hf : Reg.BEAD_FLAGS n ≠ Reg.BEAD_QCFG n := by simp only [Reg.BEAD_FLAGS, Reg.BEAD_QCFG]; omega
    have hq := StrandSt.rd_wr_same ((view (later s dt) i).emptyQueues n) (Reg.BEAD_QCFG n) (qcfgWord v)
    obtain ⟨h0, h2, h8⟩ := qcfgWord_fields v
    rw [he]
    exact ⟨ho, engsBut_emptyQueues (view (later s dt) i) n, eng_emptyQueues (view (later s dt) i) n, hb,
      (StrandSt.rd_wr_ne _ _ hf).trans (rd_emptyQueues (view (later s dt) i) n), (congrArg (fieldOf · 1 0) hq).trans h0,
      (congrArg (fieldOf · 7 2) hq).trans h2, (congrArg (fieldOf · 13 8) hq).trans h8⟩
  · have ht := qcfgWrite_busy (st := view (later s dt) i) v ho hs
    refine ends_beadWord (c := .beadQcfgWrite dt m i n v) rfl hr (beadPlace_BEAD_QCFG n) ((regWrite_BEAD_QCFG _ _ v n).trans ht)
      (keeps_flag _ _ _) fun e ho he => ?_
    rw [he]
    exact ⟨ho, flagged_flag (view (later s dt) i) (Reg.BEAD_FLAGS n) 1⟩
  · have ht := crccfgWrite_stopped (st := view (later s dt) i) m v hs
    refine ends_beadWord (c := .beadCrccfgWrite dt m i n v) rfl hr (beadPlace_BEAD_CRCCFG n) ((regWrite_BEAD_CRCCFG _ _ v n).trans ht)
      (but := [.bead, .regs]) (keeps_trans (keeps_mono (keeps_wr _ _ _) (by simp)) (keeps_mono (keeps_updEng _ _ _) (by simp))) fun e ho he => ?_
    generalize hw : setField ((view (later s dt) i).rd (Reg.BEAD_CRCCFG n)) 2 0 (fieldOf v 2 0) = w at he
    have hq := StrandSt.rd_wr_same (view (later s dt) i) (Reg.BEAD_CRCCFG n) w
    rw [he]
    exact ⟨ho, engsBut_crcLoad ((view (later s dt) i).wr (Reg.BEAD_CRCCFG n) w) n, eng_crcLoad ((view (later s dt) i).wr (Reg.BEAD_CRCCFG n) w) n,
      regsBut_wr (view (later s dt) i) _ w, (congrArg (fieldOf · 2 0) hq).trans (hw ▸ fieldOf_setField_low3 _ v)⟩
  · have ht := crccfgWrite_busy (st := view (later s dt) i) m.code v hs
    refine ends_beadWord (c := .beadCrccfgWrite dt m i n v) rfl hr (beadPlace_BEAD_CRCCFG n) ((regWrite_BEAD_CRCCFG _ _ v n).trans ht)
      (keeps_flag _ _ _) fun e ho he => ?_
    rw [he]
    exact ⟨ho, flagged_flag (view (later s dt) i) (Reg.BEAD_FLAGS n) 1⟩
  · refine ends_beadWord (c := .beadDivWrite dt m i n v) rfl hr (beadPlace_BEAD_DIV n) (regWrite_BEAD_DIV_word _ m n v) (keeps_wr _ _ _) fun e ho he => ?_
    generalize hw : divWord ((view (later s dt) i).rd (Reg.BEAD_DIV n)) v = w at he
    have hq := StrandSt.rd_wr_same (view (later s dt) i) (Reg.BEAD_DIV n) w
    rw [he]
    exact ⟨ho, regsBut_wr (view (later s dt) i) _ w, (congrArg (fieldOf · 23 0) hq).trans (hw ▸ divWord_field _ v)⟩

end Sys2Proof.Machine
end

section
/-! Bead engines: what masters' accesses to the queues do. -/

namespace Sys2Proof.Machine

/-! ## A master's read of a Bead register -/

/-- The word as the answer carries it. -/
theorem word_of_leBytes (w : Word) : BitVec.ofNat 32 (leNum (leBytes 4 w.toNat)) = w := by
  rw [leNum_leBytes4 _ w.isLt, BitVec.ofNat_toNat, BitVec.setWidth_eq]

/-- A read that reaches an active strand's page is the strand's own read, and answers with its word (R316, R430). -/
theorem placeRead_strand {d : Dev} {m : Master} {i : StrandId} {off : Nat} (hr : Reaches d m i) (h : BeadPlace off) :
    d.placeRead m (.strand i off) = (d.strandRead m.code i off).2.emit (.readData (d.strandRead m.code i off).1.toNat) := by
  obtain ⟨h1, h2, h4⟩ := h
  have hi := i.isLt
  have hb : off < 0x100000 := by omega
  cases m with
  | host b =>
    obtain ⟨hl, hs, ha⟩ := hr
    generalize hx : 0x400000 * i.val + off = a
    have q : a / 0x400000 = i.val := by omega
    have r : a % 0x400000 = off := by omega
    have r4 : a / 4 * 4 = a := by omega
    have m4 : a % 4 = 0 := by omega
    have hw : ¬ 0x2000000 < a + 4 := by omega
    have hn : inSramWindow a = false := by simp [inSramWindow, r]; omega
    have hp : d.phase i ≠ .off ∧ d.phase i ≠ .fenced := by rcases ha with ha | ha <;> simp [ha]
    have hf : Fin.ofNat 4 i.val = i := by ext; simp [Fin.ofNat]
    have c1 : ¬ off < 0x1000 := by omega
    have c2 : ¬ 0xE0000 ≤ off := by omega
    have hrd : d.hostReadWord b a = d.strandRead (b2n b) i off := by
      unfold Dev.hostReadWord
      rw [q, r]
      split
      · omega
      · omega
      · omega
      · rw [if_pos hi, hf]
        simp [Dev.hostStrandRead, hs, hp, c1, c2]
    have hword : (d.strandRead (b2n b) i off).1.toNat % 4294967296 = (d.strandRead (b2n b) i off).1.toNat := Nat.mod_eq_of_lt (BitVec.isLt _)
    simp [Dev.placeRead, Place.addr, hb, hx, Dev.busRead, Dev.hostRead, hl, hw, hn, r4, m4, hrd, Master.code, hword]
  | core j =>
    obtain ⟨rfl, ha⟩ := hr
    have ha' : (decide (d.phase j = .run) || decide (d.phase j = .hold)) = true := by simpa using ha
    have r4 : off / 4 * 4 = off := by omega
    have c2 : ¬ 0xE0000 ≤ off := by omega
    simp [Dev.placeRead, Place.addr, Dev.busRead, ha', r4, Dev.coreRead, c2, Master.code]
  | loupe =>
    obtain ⟨hl, ha, hf⟩ := hr
    generalize hx : 0x60000000 + 0x1000000 * i.val + off = a
    have r4 : a / 4 * 4 = a := by omega
    have hm : a % 0x1000000 = off := by omega
    have c0 : d.loupeBytes a 4 = none := by
      unfold Dev.loupeBytes
      rw [if_neg (by omega), if_neg (by simp; omega), if_neg (by simp; omega)]
    have c1 : ¬ a < 0x50020000 := by omega
    have c2 : ¬ a < 0x50044000 := by omega
    have c3 : ¬ a < 0x50044100 := by omega
    have c4 : ¬ a < 0x50081000 := by omega
    have c5 : ¬ 0x70000000 ≤ a := by omega
    have c6 : ¬ 0x71000000 ≤ a := by omega
    have c7 : inLoupeStrand a = true := by simp [inLoupeStrand]; omega
    have c8 : loupeStrand a = i := by ext; simp only [loupeStrand, Fin.ofNat]; omega
    have c9 : ¬ 0xE0000 ≤ off := by omega
    have m4 : a % 4 = 0 := by omega
    have hreach : d.loupeReach i off = true := by
      unfold Dev.loupeReach
      rcases ha with ha | ha <;> simp [ha, hf]
    have hrd : d.loupeRead a = d.strandRead 3 i off := by
      simp [Dev.loupeRead, Dev.loupeReadN, r4, c0, c1, c2, c3, c4, c5, c6, c7, c8, c9, hm, hb, hreach, m4, word_of_leBytes]
    simp [Dev.placeRead, Place.addr, hb, hx, Dev.busRead, hl, hrd, Master.code]

theorem beadPlace_BEAD_RXQ (n : Fin 16) : BeadPlace (Reg.BEAD_RXQ n) := by simp only [BeadPlace, Reg.BEAD_RXQ]; omega

theorem regRead_BEAD_RXQ (st : StrandSt) (m : Nat) (bell : Bool) (n : Fin 16) : st.regRead m bell (Reg.BEAD_RXQ n) = st.rxqRead n := by
  fin_cases n <;> rfl

/-- A master's read of BEAD_RXQ: the strand after it, and the answer. -/
theorem placeRead_BEAD_RXQ {d : Dev} {m : Master} {i : StrandId} (hr : Reaches d m i) (n : Fin 16) :
    d.placeRead m (.strand i (Reg.BEAD_RXQ n)) = (d.onStrand i fun st => (st.rxqRead n).2).emit (.readData ((view d i).rxqRead n).1.toNat) := by
  have h1 : ¬ Reg.BEAD_RXQ n < 0x10000 := by simp only [Reg.BEAD_RXQ]; omega
  have h : d.strandRead m.code i (Reg.BEAD_RXQ n) = (((view d i).rxqRead n).1, d.onStrand i fun st => (st.rxqRead n).2) := by
    rw [Dev.strandRead, if_neg h1]
    simp only [regRead_BEAD_RXQ]
    rfl
  rw [placeRead_strand hr (beadPlace_BEAD_RXQ n), h]

/-- A read of BEAD_RXQ ends with the strand `t` and the answer `w` of the queue's own read. -/
theorem ends_rxqRead {s : State} {dt : Nat} {m : Master} {i : StrandId} {n : Fin 16} {w : Word} {t : StrandSt} {but : List Part} {P : Dev → Prop}
    (hr : Reaches (later s dt) m i) (ht : (view (later s dt) i).rxqRead n = (w, t)) (hk : Keeps (view (later s dt) i) t but)
    (hP : ∀ e, Only (later s dt) e i but → e.strand i = t.clean → Sent (later s dt) e (.readData w.toNat) → P e) :
    Ends (.beadRxqRead dt m i n) s P := by
  refine ends_runAt (c := .beadRxqRead dt m i n) rfl ?_
  rw [placeRead_BEAD_RXQ hr, ht]
  obtain ⟨ho, he⟩ := onStrand_leaves (d := later s dt) (i := i) (g := fun st => (st.rxqRead n).2) (congrArg Prod.snd ht) hk
  refine hP _ ho he ?_
  have hout : ((later s dt).onStrand i fun st => (st.rxqRead n).2).out = (later s dt).out ++ ((view (later s dt) i).rxqRead n).2.outs :=
    Dev.absorb_out _ _ _
  simp [Sent, Dev.emit, hout]

/-! ## The queues -/

section
variable {st : StrandSt} {n : Nat}

theorem txqWrite_room (v : Word) (hd : st.txDepth n ≠ 0) (hv : st.vBound n = false) (hl : (st.eng n).txq.length < st.txDepth n) :
    st.txqWrite n v = st.txAppend n v := by
  simp [StrandSt.txqWrite, hd, hv, hl]

theorem txqWrite_full (v : Word) (hd : st.txDepth n ≠ 0) (hv : st.vBound n = false) (hl : st.txDepth n ≤ (st.eng n).txq.length) :
    st.txqWrite n v = (st.flag (Reg.BEAD_FLAGS n) 3).inc (Reg.BEAD_CNT n + 32) := by
  simp [StrandSt.txqWrite, hd, hv, hl]

theorem rxqRead_entry {q : QEnt} {rest : List QEnt} (hd : st.rxDepth n ≠ 0) (hv : st.vBound n = false) (ht : st.trkBound n = false)
    (hq : (st.eng n).rxq = q :: rest) (hr : q.ready ≤ st.now) :
    st.rxqRead n = (q.word, st.updEng n fun e => { e with rxq := rest }) := by
  simp [StrandSt.rxqRead, hd, hv, ht, hq, hr]

/-- A queue that is empty, or whose oldest entry comes only in the next cycle. -/
theorem rxqRead_none {q : QEnt} {rest : List QEnt} (hd : st.rxDepth n ≠ 0) (hv : st.vBound n = false) (ht : st.trkBound n = false)
    (hq : (st.eng n).rxq = [] ∨ ((st.eng n).rxq = q :: rest ∧ st.now < q.ready)) :
    st.rxqRead n = (0, st.flag (Reg.BEAD_FLAGS n) 4) := by
  rcases hq with hq | ⟨hq, hr⟩
  · simp [StrandSt.rxqRead, hd, hv, ht, hq]
  · simp [StrandSt.rxqRead, hd, hv, ht, hq, hr]

end

theorem engsBut_txAppend (st : StrandSt) (n : Nat) (v : Word) : EngsBut st (st.txAppend n v) n := engsBut_updEng st n _

theorem eng_txAppend (st : StrandSt) (n : Nat) (v : Word) :
    (st.txAppend n v).eng n = { st.eng n with txq := (st.eng n).txq ++ [{ word := v, ready := st.now + 2 }] } := st.eng_updEng_same n _

/-- Settles O5: the write by the room of the TX queue, the read by what the RX queue holds. -/
theorem beadQueueAccess : Obligations.BeadQueueAccess := by
  unfold Obligations.BeadQueueAccess
  intro s dt m i n v q rest hr
  refine ⟨fun hd hv => ⟨fun hl => ?_, fun hl => ?_⟩, fun hd hv ht => ⟨fun hq hq' => ?_, fun hq => ?_⟩⟩
  · have ht := txqWrite_room (st := view (later s dt) i) v hd hv hl
    refine ends_beadWord (c := .beadTxqWrite dt m i n v) rfl hr (beadPlace_BEAD_TXQ n) ((regWrite_BEAD_TXQ _ _ v n).trans ht)
      (keeps_updEng _ _ _) fun e ho he => ?_
    rw [he]
    exact ⟨ho, engsBut_txAppend (view (later s dt) i) n v, eng_txAppend (view (later s dt) i) n v⟩
  · have ht := txqWrite_full (st := view (later s dt) i) v hd hv hl
    refine ends_beadWord (c := .beadTxqWrite dt m i n v) rfl hr (beadPlace_BEAD_TXQ n) ((regWrite_BEAD_TXQ _ _ v n).trans ht)
      (but := [.regs, .cnt]) (keeps_trans (keeps_mono (keeps_flag _ _ _) (by simp)) (keeps_mono (keeps_inc _ _) (by simp))) fun e ho he => ?_
    rw [he]
    exact ⟨ho, flagged_flag (view (later s dt) i) (Reg.BEAD_FLAGS n) 3,
      counted_inc ((view (later s dt) i).flag (Reg.BEAD_FLAGS n) 3) (Reg.BEAD_CNT n + 32)⟩
  · have hx := rxqRead_entry (st := view (later s dt) i) hd hv ht hq hq'
    refine ends_rxqRead hr hx (keeps_updEng _ _ _) fun e ho he hs => ?_
    rw [he]
    exact ⟨ho, engsBut_updEng (view (later s dt) i) n fun e => { e with rxq := rest },
      StrandSt.eng_updEng_same (view (later s dt) i) n fun e => { e with rxq := rest }, hs⟩
  · have hx := rxqRead_none (st := view (later s dt) i) hd hv ht hq
    refine ends_rxqRead hr hx (keeps_flag _ _ _) fun e ho he hs => ?_
    rw [he]
    exact ⟨ho, flagged_flag (view (later s dt) i) (Reg.BEAD_FLAGS n) 4, hs⟩

end Sys2Proof.Machine
end

section
/-! Bead engines: one instruction at an engine clock, from what it does to what it leaves. -/

namespace Sys2Proof.Machine

/-! ## The engine clock -/

/-- The strand as an instruction of engine `n` finds it: the engine has taken its clock. -/
def StrandSt.clockTaken (st : StrandSt) (n : Nat) : StrandSt := st.updEng n fun x => { x with due := false }

@[simp] theorem StrandSt.eng_clockTaken (st : StrandSt) (n : Nat) : (st.clockTaken n).eng n = clocked st n := st.eng_updEng_same n _

@[simp] theorem StrandSt.thisCyc_clockTaken (st : StrandSt) (n : Nat) : (st.clockTaken n).thisCyc = st.thisCyc := rfl

theorem clocked_state (st : StrandSt) (n : Nat) : (clocked st n).state = (st.eng n).state := rfl

theorem keeps_clockTaken (st : StrandSt) (n : Nat) : Keeps st (st.clockTaken n) [.bead] := keeps_updEng st n _

theorem engsBut_clockTaken (st : StrandSt) (n : Nat) : EngsBut st (st.clockTaken n) n := engsBut_updEng st n _

/-! ## What an instruction does before it completes -/

/-- From `st` to `t` an instruction of engine `n` has made that engine `y` and driven `pins`, and changed no other engine, no counter, no
side-set configuration and no part but those in `but`. -/
structure BeadEffect (st t : StrandSt) (n : Nat) (y : Engine) (pins : List (Nat × Bool)) (but : List Part) : Prop where
  keeps : Keeps st t (.bead :: .bp :: but)
  engs : EngsBut st t n
  eng : t.eng n = y
  bp : t.bp = { st.bp with next := st.bp.next ++ pins }
  cnt : t.cnt = st.cnt
  side : t.rd (Reg.BEAD_PINCFG n) = st.rd (Reg.BEAD_PINCFG n)

namespace BeadEffect

variable {st t : StrandSt} {n : Nat} {y : Engine} {pins : List (Nat × Bool)} {but : List Part}

theorem clock (st : StrandSt) (n : Nat) : BeadEffect st (st.clockTaken n) n (clocked st n) [] [] where
  keeps := keeps_mono (keeps_clockTaken st n) (by simp)
  engs := engsBut_clockTaken st n
  eng := st.eng_clockTaken n
  bp := by simp; rfl
  cnt := rfl
  side := rfl

theorem mono {but' : List Part} (h : BeadEffect st t n y pins but) (hb : but ⊆ but') : BeadEffect st t n y pins but' :=
  { h with keeps := keeps_mono h.keeps (List.cons_subset_cons _ (List.cons_subset_cons _ hb)) }

/-- The engine is changed further. -/
theorem upd (h : BeadEffect st t n y pins but) (f : Engine → Engine) : BeadEffect st (t.updEng n f) n (f y) pins but where
  keeps := keeps_trans h.keeps (keeps_mono (keeps_updEng t n f) (by simp))
  engs := engsBut_trans h.engs (engsBut_updEng t n f)
  eng := (t.eng_updEng_same n f).trans (congrArg f h.eng)
  bp := h.bp
  cnt := h.cnt
  side := h.side

/-- The record of the cycle is changed. -/
theorem inCyc (h : BeadEffect st t n y pins but) (f : StrandCyc → StrandCyc) : BeadEffect st (t.inCyc f) n y pins but where
  keeps := keeps_trans h.keeps (keeps_mono (keeps_inCyc t f) (by simp))
  engs := h.engs
  eng := h.eng
  bp := h.bp
  cnt := h.cnt
  side := h.side

/-- A register other than the side-set's configuration is written. -/
theorem wr (h : BeadEffect st t n y pins but) {off : Nat} (ho : off ≠ Reg.BEAD_PINCFG n) (v : Word) (hb : .regs ∈ but) :
    BeadEffect st (t.wr off v) n y pins but where
  keeps := keeps_trans h.keeps (keeps_mono (keeps_wr t off v) (by simp [hb]))
  engs := h.engs
  eng := h.eng
  bp := h.bp
  cnt := h.cnt
  side := (regsBut_wr t off v _ (by simpa using ho.symm)).trans h.side

/-- A flag of the engine is set. -/
theorem flag (h : BeadEffect st t n y pins but) (i : Nat) (hb : .regs ∈ but) : BeadEffect st (t.flag (Reg.BEAD_FLAGS n) i) n y pins but :=
  (h.inCyc _).wr (by simp [Reg.BEAD_FLAGS, Reg.BEAD_PINCFG]) _ hb

/-- One of the engine's queues takes a step. -/
theorem queueStep (h : BeadEffect st t n y pins but) (f : Engine → Engine) (thr : Bool) (hb : .regs ∈ but) :
    BeadEffect st (t.queueStep n f thr) n (f y) pins but := by
  cases thr with
  | false => exact h.upd f
  | true => exact (h.upd f).flag 9 hb

end BeadEffect

/-! ## Side-set and completion -/

/-- The strand with pins driven from the next cycle. -/
def StrandSt.drivePins (st : StrandSt) (pins : List (Nat × Bool)) : StrandSt := { st with bp := { st.bp with next := st.bp.next ++ pins } }

/-- Side-set drives its pins and nothing else (R55, R88). -/
theorem sideSet_eq (st : StrandSt) (a : BeadAt) : st.sideSet a.n a.sse a.ss = st.drivePins (sidePins st a) := by
  unfold StrandSt.sideSet sidePins StrandSt.drivePins StrandSt.drivePin
  split
  · split_ifs <;> simp_all
  · simp

theorem sidePins_congr {st t : StrandSt} {a : BeadAt} (h : t.rd (Reg.BEAD_PINCFG a.n) = st.rd (Reg.BEAD_PINCFG a.n)) : sidePins t a = sidePins st a := by
  have he : t.sideEn a.n = st.sideEn a.n := by simp only [StrandSt.sideEn, StrandSt.bit, h]
  have hb : t.sideBase a.n = st.sideBase a.n := by simp only [StrandSt.sideBase, StrandSt.fld, h]
  rw [sidePins, sidePins, he, hb]

/-- What completion adds to an instruction's effect: its side-set's pins, one instruction counted, and the engine retired (R70, R87, R88). -/
def StrandSt.finish (st : StrandSt) (n : Nat) (side : List (Nat × Bool)) (pc dly : Nat) : StrandSt :=
  ((st.drivePins side).inc (Reg.BEAD_CNT n + 8)).updEng n fun x => retired x pc dly

section
variable (st : StrandSt) (n : Nat) (side : List (Nat × Bool)) (pc dly : Nat)

theorem keeps_finish : Keeps st (st.finish n side pc dly) [.bead, .bp, .cnt] :=
  keeps_trans (keeps_mono (keeps_bp st _) (by simp))
    (keeps_trans (keeps_mono (keeps_inc _ _) (by simp)) (keeps_mono (keeps_updEng _ n _) (by simp)))

theorem engsBut_finish : EngsBut st (st.finish n side pc dly) n := engsBut_updEng ((st.drivePins side).inc _) n _

theorem eng_finish : (st.finish n side pc dly).eng n = retired (st.eng n) pc dly := StrandSt.eng_updEng_same ((st.drivePins side).inc _) n _

theorem counted_finish : Counted st (st.finish n side pc dly) (Reg.BEAD_CNT n + 8) := counted_inc (st.drivePins side) _

end

/-- An engine goes to STALLED: its cause, the flag STALL, and the stall counted at `off` (R70). -/
def StrandSt.beginStall (st : StrandSt) (n cause off : Nat) : StrandSt :=
  ((st.updEng n fun x => { x with state := .stalled, stallCause := cause }).flag (Reg.BEAD_FLAGS n) 12).inc off

section
variable (st : StrandSt) (n cause off : Nat)

theorem keeps_beginStall : Keeps st (st.beginStall n cause off) [.bead, .regs, .cnt] :=
  keeps_trans (keeps_mono (keeps_updEng st n _) (by simp))
    (keeps_trans (keeps_mono (keeps_flag _ _ _) (by simp)) (keeps_mono (keeps_inc _ _) (by simp)))

theorem engsBut_beginStall : EngsBut st (st.beginStall n cause off) n :=
  engsBut_trans (engsBut_updEng st n _) (engsBut_trans (engsBut_flag _ _ _ n) (engsBut_inc _ off n))

theorem eng_beginStall : (st.beginStall n cause off).eng n = { st.eng n with state := .stalled, stallCause := cause } := by
  rw [StrandSt.beginStall, StrandSt.eng_inc, StrandSt.eng_flag, StrandSt.eng_updEng_same]

theorem flagged_beginStall : Flagged st (st.beginStall n cause off) (Reg.BEAD_FLAGS n) 12 :=
  flagged_inc (flagged_flag (st.updEng n fun x => { x with state := .stalled, stallCause := cause }) _ 12) off

theorem counted_beginStall : Counted st (st.beginStall n cause off) off := by
  refine counted_congr ?_ (counted_inc _ off)
  rw [StrandSt.cnt_flag]
  rfl

end

/-! ## The outcomes of an engine clock -/

section
variable {st t : StrandSt} {n : Nat} {sse : Bool} {ss dly : Nat} {body : StrandSt → BeadRes}

theorem beadClock_done {jump : Option Nat} (h : (st.eng n).state ≠ .stopped) (hs : (st.eng n).stepping = 0)
    (hb : body (st.clockTaken n) = .done t jump) (ht : (t.eng n).state = (st.eng n).state) :
    st.beadClock n sse ss dly body =
      ((t.sideSet n sse ss).inc (Reg.BEAD_CNT n + 8)).updEng n fun x => retired x (jump.getD (nextPc (clocked st n))) dly := by
  have hset : ((t.sideSet n sse ss).inc (Reg.BEAD_CNT n + 8)).eng n = t.eng n := by
    unfold StrandSt.sideSet StrandSt.drivePin
    split_ifs <;> rfl
  unfold StrandSt.clockTaken at hb
  unfold StrandSt.beadClock
  simp only [h, if_false, hb, hs]
  simp [StrandSt.updEng, hset, retired, ht, nextPc, clocked]

/-- An instruction that waits (R70). -/
theorem beadClock_wait (h : (st.eng n).state ≠ .stopped) (hb : body (st.clockTaken n) = .wait t) :
    st.beadClock n sse ss dly body = t.updEng n fun x => { x with state := .waiting } := by
  unfold StrandSt.clockTaken at hb
  simp [StrandSt.beadClock, h, hb]

/-- An instruction that begins to stall (R70). -/
theorem beadClock_stall {cause : Nat} (h : (st.eng n).state = .running) (hb : body (st.clockTaken n) = .stall t cause) :
    st.beadClock n sse ss dly body = t.beginStall n cause (Reg.BEAD_CNT n + 8 * (1 + cause)) := by
  unfold StrandSt.clockTaken at hb
  simp [StrandSt.beadClock, h, hb, StrandSt.beginStall]

/-- An instruction in a direction without a queue (R64, R74). -/
theorem beadClock_noQueue (h : (st.eng n).state ≠ .stopped) (hb : body (st.clockTaken n) = .noQueue t) :
    st.beadClock n sse ss dly body = (t.stopEngine n 4).flag (Reg.BEAD_FLAGS n) 6 := by
  unfold StrandSt.clockTaken at hb
  simp [StrandSt.beadClock, h, hb]

end

/-! ## An instruction's command -/

/-- A clean instruction at its engine clock is one engine clock of its strand. -/
theorem beadRun_atClock {d : Dev} {a : BeadAt} {body : Nat → StrandSt → BeadRes} (h : AtClock (d.beforeBead a) a) (hp : a.par.val = 0) :
    d.beadRun a body = (d.beforeBead a).onStrand a.st fun s => s.beadClock a.n a.sse a.ss a.dly (body a.n) := by
  obtain ⟨ha, hst, -, -, hbad⟩ := h
  rw [← Dev.onActive_eq _ _ _ ha]
  unfold Dev.beadRun
  simp [hst, hp, hbad]

section
variable {c : Instr} {s : State} {a : BeadAt} {body : Nat → StrandSt → BeadRes} {y : Engine} {but : List Part} {Q : StrandSt → StrandSt → Prop}
  {t : StrandSt} (hx : exec c s = .next (s.run fun d => d.beadRun a body)) (h : AtClock (s.dev.beforeBead a) a) (hp : a.par.val = 0)
include hx h hp

/-- The command of an instruction ends with what its engine clock leaves. -/
theorem ends_bead {P : Dev → Prop} (hc : (view (s.dev.beforeBead a) a.st).beadClock a.n a.sse a.ss a.dly (body a.n) = t)
    (hk : Keeps (view (s.dev.beforeBead a) a.st) t but)
    (hP : ∀ e, Only (s.dev.beforeBead a) e a.st but → e.strand a.st = t.clean → P e) : Ends c s P := by
  refine ⟨_, hx, ?_⟩
  dsimp only
  rw [beadRun_atClock h hp]
  obtain ⟨ho, he⟩ := onStrand_leaves (d := s.dev.beforeBead a) (i := a.st) (g := fun s => s.beadClock a.n a.sse a.ss a.dly (body a.n)) hc hk
  exact hP _ ho he

/-- An instruction that completes, from its effect. -/
theorem completes_of_done {jump : Option Nat} {pins : List (Nat × Bool)}
    (hb : body a.n ((view (s.dev.beforeBead a) a.st).clockTaken a.n) = .done t jump)
    (he : BeadEffect (view (s.dev.beforeBead a) a.st) t a.n y pins but)
    (hy : y.state = (clocked (view (s.dev.beforeBead a) a.st) a.n).state)
    (hQ : ∀ q : StrandSt, q.regs = t.regs → Q ((s.dev.beforeBead a).strand a.st) q) :
    Completes c s a (retired y (jump.getD (nextPc (clocked (view (s.dev.beforeBead a) a.st) a.n))) a.dly) pins but Q := by
  obtain ⟨-, hst, -, hstep, -⟩ := id h
  obtain ⟨hk, hengs, heng, hbp, hcnt, hside⟩ := he
  have hc := beadClock_done (st := view (s.dev.beforeBead a) a.st) (sse := a.sse) (ss := a.ss) (dly := a.dly) hst hstep hb (by rw [heng, hy]; rfl)
  rw [sideSet_eq, sidePins_congr hside] at hc
  refine ends_bead hx h hp (t := t.finish a.n _ _ a.dly) hc (but := .bead :: .bp :: .cnt :: but) ?_ fun e ho hs => ?_
  · exact keeps_trans (keeps_mono hk (by grind)) (keeps_mono (keeps_finish _ _ _ _ _) (by simp))
  · rw [hs]
    refine ⟨ho, engsBut_trans hengs (engsBut_finish t a.n _ _ a.dly), ?_, ?_, ?_, hQ _ rfl⟩
    · rw [← heng]
      exact eng_finish t a.n _ _ a.dly
    · obtain ⟨h1, h2⟩ := counted_finish t a.n (sidePins (view (s.dev.beforeBead a) a.st) a) (jump.getD (nextPc (clocked (view (s.dev.beforeBead a) a.st) a.n))) a.dly
      simp only [Counted, CntsBut, StrandSt.counter, hcnt] at h1 h2 ⊢
      exact ⟨h1, h2⟩
    · change (t.drivePins _).bp = _
      rw [StrandSt.drivePins, hbp]
      rfl

/-- An instruction that does nothing, as one with a reserved operand (R89). -/
theorem completes_of_nop
    (hb : body a.n ((view (s.dev.beforeBead a) a.st).clockTaken a.n) = .done ((view (s.dev.beforeBead a) a.st).clockTaken a.n) none) :
    Completes c s a (retired (clocked (view (s.dev.beforeBead a) a.st) a.n) (nextPc (clocked (view (s.dev.beforeBead a) a.st) a.n)) a.dly) [] []
      (fun _ _ => True) :=
  completes_of_done hx h hp hb (.clock _ a.n) rfl fun _ _ => trivial

/-- An instruction that waits, from what it has done before. -/
theorem blocks_of_wait (hb : body a.n ((view (s.dev.beforeBead a) a.st).clockTaken a.n) = .wait t)
    (hk : Keeps (view (s.dev.beforeBead a) a.st) t (.bead :: but)) (he : EngsBut (view (s.dev.beforeBead a) a.st) t a.n) (hy : t.eng a.n = y)
    (hQ : ∀ q : StrandSt, q.regs = t.regs → Q ((s.dev.beforeBead a).strand a.st) q) : Blocks c s a { y with state := .waiting } but Q := by
  obtain ⟨-, hst, -, -, -⟩ := id h
  refine ends_bead hx h hp (beadClock_wait hst hb) (keeps_trans hk (keeps_mono (keeps_updEng _ _ _) (by simp))) fun e ho hs => ?_
  rw [hs]
  refine ⟨ho, engsBut_trans he (engsBut_updEng t a.n fun x => { x with state := .waiting }), ?_, hQ _ rfl⟩
  rw [← hy]
  exact t.eng_updEng_same a.n fun x => { x with state := .waiting }

/-- An instruction that begins to stall, with nothing done before (R70). -/
theorem blocks_of_stall {cause off : Nat} (hoff : Reg.BEAD_CNT a.n + 8 * (1 + cause) = off)
    (hr : (clocked (view (s.dev.beforeBead a) a.st) a.n).state = .running)
    (hb : body a.n ((view (s.dev.beforeBead a) a.st).clockTaken a.n) = .stall ((view (s.dev.beforeBead a) a.st).clockTaken a.n) cause) :
    Blocks c s a { clocked (view (s.dev.beforeBead a) a.st) a.n with state := .stalled, stallCause := cause } [.regs, .cnt]
      (fun p r => Flagged p r (Reg.BEAD_FLAGS a.n) 12 ∧ Counted p r off) := by
  let st := view (s.dev.beforeBead a) a.st
  have hc := beadClock_stall (st := st) (sse := a.sse) (ss := a.ss) (dly := a.dly) hr hb
  rw [hoff] at hc
  refine ends_bead hx h hp hc (keeps_trans (keeps_mono (keeps_clockTaken _ _) (by simp)) (keeps_beginStall _ _ _ _)) fun e ho hs => ?_
  rw [hs]
  refine ⟨ho, ?_, ?_, flagged_congr rfl rfl (flagged_clean (flagged_beginStall (st.clockTaken a.n) a.n cause off)),
    counted_congr rfl (counted_clean (counted_beginStall (st.clockTaken a.n) a.n cause off))⟩
  · exact engsBut_clean (engsBut_trans (engsBut_clockTaken st a.n) (engsBut_beginStall _ a.n cause off))
  · rw [StrandSt.eng_clean, eng_beginStall, StrandSt.eng_clockTaken]

/-- An instruction in a direction without a queue, with nothing done before (R64, R74). -/
theorem blocks_of_noQueue
    (hb : body a.n ((view (s.dev.beforeBead a) a.st).clockTaken a.n) = .noQueue ((view (s.dev.beforeBead a) a.st).clockTaken a.n)) :
    Blocks c s a
      { clocked (view (s.dev.beforeBead a) a.st) a.n with
        state := .stopped, stopCause := 4, stopPend := false, dly := 0, stepping := 0, sync := .idle, stamp := none }
      [.regs] (fun p r => Flagged p r (Reg.BEAD_FLAGS a.n) 6) := by
  obtain ⟨-, hst, -, -, -⟩ := id h
  let st := view (s.dev.beforeBead a) a.st
  refine ends_bead hx h hp (t := ((st.clockTaken a.n).stopEngine a.n 4).flag (Reg.BEAD_FLAGS a.n) 6) (but := [.bead, .regs]) (beadClock_noQueue hst hb) ?_
    fun e ho hs => ?_
  · exact keeps_trans (keeps_mono (keeps_clockTaken st a.n) (by simp))
      (keeps_trans (keeps_mono (keeps_updEng _ _ _) (by simp)) (keeps_mono (keeps_flag _ _ _) (by simp)))
  · rw [hs]
    refine ⟨ho, ?_, ?_, flagged_flag ((st.clockTaken a.n).stopEngine a.n 4) _ 6⟩
    · exact engsBut_trans (engsBut_clockTaken st a.n) (engsBut_stopEngine (st.clockTaken a.n) a.n 4)
    · have he := eng_stopEngine (st.clockTaken a.n) a.n 4
      rw [StrandSt.eng_clockTaken] at he
      exact he

end

end Sys2Proof.Machine
end

section
/-! Bead engines: PULL and PUSH. -/

namespace Sys2Proof.Machine

/-! ## The outcomes of PULL and PUSH (R50, R64, R67) -/

section
variable {st : StrandSt} {n f : Nat}

theorem beadPull_noQueue (hf : f ≠ 3) (hd : st.txDepth n = 0) : beadPull n f (st.clockTaken n) = .noQueue (st.clockTaken n) := by
  have hd' : (st.clockTaken n).txDepth n = 0 := hd
  simp [beadPull, hf, hd']

theorem beadPush_noQueue (hf : f ≠ 3) (hd : st.rxDepth n = 0) : beadPush n f (st.clockTaken n) = .noQueue (st.clockTaken n) := by
  have hd' : (st.clockTaken n).rxDepth n = 0 := hd
  simp [beadPush, hf, hd']

theorem beadPull_empty (hf : f ≠ 3) (hd : st.txDepth n ≠ 0) (hq : (clocked st n).txq = []) :
    beadPull n f (st.clockTaken n) = .stall (st.clockTaken n) 1 := by
  have hd' : (st.clockTaken n).txDepth n ≠ 0 := hd
  simp [beadPull, hf, hd', hq]

theorem beadPush_full (hf : f ≠ 3) (hd : st.rxDepth n ≠ 0) (hq : st.rxDepth n ≤ (clocked st n).rxq.length) :
    beadPush n f (st.clockTaken n) = .stall (st.clockTaken n) 2 := by
  have hd' : (st.clockTaken n).rxDepth n = st.rxDepth n := rfl
  simp [beadPush, hf, hd', hd, hq]

/-- A PULL of a word that may be taken loads OSR and takes the word. -/
theorem beadPull_entry {q : QEnt} {rest : List QEnt} (hf : f ≠ 3) (hd : st.txDepth n ≠ 0) (hq : (clocked st n).txq = q :: rest) (hr : q.ready ≤ st.now) :
    ∃ t, beadPull n f (st.clockTaken n) = .done t none ∧
      BeadEffect st t n { clocked st n with osr := (pullLoad (st.osrDir n) f q.word).1, osrCnt := (pullLoad (st.osrDir n) f q.word).2, txq := rest }
        [] [.regs] ∧ RegsBut st t [Reg.BEAD_FLAGS n] := by
  obtain ⟨thr, ht⟩ := txTake_eq (st.clockTaken n) n
  have hd' : (st.clockTaken n).txDepth n ≠ 0 := hd
  have hr' : ¬ (st.clockTaken n).now < q.ready := not_lt.mpr hr
  let l := pullLoad (st.osrDir n) f q.word
  refine ⟨((st.clockTaken n).queueStep n (fun e => { e with txq := e.txq.drop 1 }) thr).updEng n fun e => { e with osr := l.1, osrCnt := l.2 }, ?_, ?_, ?_⟩
  · simp [beadPull, hf, hd', hq, hr', ht]
    rfl
  · have he := (((BeadEffect.clock st n).mono (but' := [.regs]) (by simp)).queueStep (fun e => { e with txq := e.txq.drop 1 }) thr (by simp)).upd
      fun e => { e with osr := l.1, osrCnt := l.2 }
    simpa [hq] using he
  · exact regsBut_queueStep (st.clockTaken n) n _ thr

/-- A PUSH with room appends the word its form makes of ISR and clears ISR. -/
theorem beadPush_room (hf : f ≠ 3) (hd : st.rxDepth n ≠ 0) (hq : (clocked st n).rxq.length < st.rxDepth n) :
    ∃ t, beadPush n f (st.clockTaken n) = .done t none ∧
      BeadEffect st t n { clocked st n with
        rxq := (clocked st n).rxq ++ [{ word := pushWord (st.isrDir n) f (clocked st n).isr (clocked st n).isrCnt, ready := st.now + 1 }],
        isr := 0, isrCnt := 0 } [] [.regs] ∧ RegsBut st t [Reg.BEAD_FLAGS n] := by
  let w := pushWord (st.isrDir n) f (clocked st n).isr (clocked st n).isrCnt
  obtain ⟨thr, ht⟩ := rxAppend_eq (st.clockTaken n) n [w]
  have hd' : (st.clockTaken n).rxDepth n = st.rxDepth n := rfl
  let g : Engine → Engine := fun e => { e with rxq := e.rxq ++ [w].map fun w => { word := w, ready := (st.clockTaken n).now + 1 } }
  refine ⟨((st.clockTaken n).queueStep n g thr).updEng n fun e => { e with isr := 0, isrCnt := 0 }, ?_, ?_, ?_⟩
  · have hw : pushWord ((st.clockTaken n).isrDir n) f (clocked st n).isr (clocked st n).isrCnt = w := rfl
    simp only [beadPush, hf, hd', hd, StrandSt.eng_clockTaken, not_le.mpr hq, if_false, hw, ht]
    rfl
  · exact (((BeadEffect.clock st n).mono (but' := [.regs]) (by simp)).queueStep g thr (by simp)).upd fun e => { e with isr := 0, isrCnt := 0 }
  · exact regsBut_queueStep (st.clockTaken n) n _ thr

end

/-- Settles O9: by the form, the queues and their levels. -/
theorem beadQueueInstructions : Obligations.BeadQueueInstructions := by
  unfold Obligations.BeadQueueInstructions
  intro s a f q rest hat hp st x y
  have hpull : exec (.pull a f) s = .next (s.run fun d => d.beadRun a fun n => beadPull n f) := rfl
  have hpush : exec (.push a f) s = .next (s.run fun d => d.beadRun a fun n => beadPush n f) := rfl
  refine ⟨fun hf => ⟨?_, ?_⟩, fun hf hd => ?_, fun hf hd => ?_, fun hf hd hq hr => ?_, fun hf hd hq => ?_, fun hf hd hq hr => ?_, fun hf hd hq hr => ?_⟩
  · exact completes_of_nop hpull hat hp (if_pos hf)
  · exact completes_of_nop hpush hat hp (if_pos hf)
  · exact blocks_of_noQueue hpull hat hp (beadPull_noQueue hf hd)
  · exact blocks_of_noQueue hpush hat hp (beadPush_noQueue hf hd)
  · obtain ⟨t, hb, he, hregs⟩ := beadPull_entry (f := f) hf hd hq hr
    exact completes_of_done hpull hat hp hb he rfl fun p hpr => regsBut_congr rfl hpr.symm hregs
  · obtain ⟨t, hb, he, hregs⟩ := beadPush_room (f := f) hf hd hq
    exact completes_of_done hpush hat hp hb he rfl fun p hpr => regsBut_congr rfl hpr.symm hregs
  · exact blocks_of_stall hpull hat hp rfl hr (beadPull_empty hf hd hq)
  · exact blocks_of_stall hpush hat hp rfl hr (beadPush_full hf hd hq)

end Sys2Proof.Machine
end

section
/-! Bead engines: CMP and CRC. -/

namespace Sys2Proof.Machine

/-! ## The compare unit at an engine clock (R60, R61) -/

section
variable (st : StrandSt) (n : Nat)

@[simp] theorem StrandSt.cmpUnit_clockTaken : (st.clockTaken n).cmpUnit n = st.cmpUnit n := by
  simp only [StrandSt.cmpUnit, StrandSt.thisCyc_clockTaken, StrandSt.eng_clockTaken]
  rfl

@[simp] theorem StrandSt.cmpSrc_clockTaken : (st.clockTaken n).cmpSrc n = st.cmpSrc n := by
  rw [StrandSt.cmpSrc, StrandSt.cmpUnit_clockTaken, StrandSt.cmpSrc]

@[simp] theorem StrandSt.cmpValue_clockTaken : (st.clockTaken n).cmpValue n = st.cmpValue n := by
  simp only [StrandSt.cmpValue, StrandSt.cmpSrc_clockTaken, StrandSt.eng_clockTaken]
  rfl

end

section
variable {st : StrandSt} {n v : Nat} {lost : Bool}

/-- An engine's write of CMP in a cycle in which no master writes it. -/
theorem engineCmp_alone (hm : n ∉ st.thisCyc.cmpM) :
    BeadEffect st ((st.clockTaken n).engineCmp n v false) n { clocked st n with cmp := BitVec.ofNat 32 v } [] [] := by
  have ht : (st.clockTaken n).engineCmp n v false =
      ((st.clockTaken n).updEng n fun e => { e with cmp := BitVec.ofNat 32 v }).inCyc fun y => { y with cmpE := n :: y.cmpE } := by
    simp [StrandSt.engineCmp, hm]
  rw [ht]
  exact ((BeadEffect.clock st n).upd _).inCyc _

/-- An engine's write of CMP that meets a master's is kept, and sets CMP_LOST. -/
theorem engineCmp_lost :
    BeadEffect st ((st.clockTaken n).engineCmp n v true) n { clocked st n with cmp := BitVec.ofNat 32 v } [] [.regs] ∧
      Flagged st ((st.clockTaken n).engineCmp n v true) (Reg.BEAD_FLAGS n) 11 := by
  let u := ((st.clockTaken n).updEng n fun e => { e with cmp := BitVec.ofNat 32 v }).inCyc fun y => { y with cmpE := n :: y.cmpE }
  have ht : (st.clockTaken n).engineCmp n v true = u.flag (Reg.BEAD_FLAGS n) 11 := by simp [StrandSt.engineCmp, u]
  rw [ht]
  refine ⟨?_, flagged_congr (x' := u) rfl rfl (flagged_flag u _ 11)⟩
  exact ((((BeadEffect.clock st n).mono (List.nil_subset _)).upd _).inCyc _).flag 11 (by simp)

end

/-- The sum of R99 as its rule reads. -/
theorem cmpSum_eq (src old add : Nat) : cmpSum src old add = if src = 2 ∧ old < 10 ^ 9 then (old + add) % 10 ^ 9 else (old + add) % 2 ^ 32 := by
  simp [cmpSum]

section
variable {st : StrandSt} {n imm : Nat}

theorem beadCmp_immediate (lost : Bool) :
    beadCmp n 0 imm lost (st.clockTaken n) = .done ((st.clockTaken n).engineCmp n (cmpSum (st.cmpSrc n) (st.cmpUnit n).cmp.toNat imm) lost) none := by
  simp [beadCmp]

theorem beadCmp_register : beadCmp n 1 imm false (st.clockTaken n) =
    .done ((st.clockTaken n).engineCmp n (cmpSum (st.cmpSrc n) (st.cmpUnit n).cmp.toNat (clocked st n).x.toNat) false) none := by
  simp [beadCmp]

theorem beadCmp_source : beadCmp n 2 imm false (st.clockTaken n) =
    .done ((st.clockTaken n).engineCmp n (cmpSum (st.cmpSrc n) (st.cmpValue n) imm) false) none := by
  simp [beadCmp]

theorem beadCmp_reserved (h : imm % 8 = 7) : beadCmp n 3 imm false st = .done st none := by
  simp [beadCmp, h, beadNop]

/-- MODE 3 in a cycle in which no master writes CMP_SRC selects the source. -/
theorem beadCmp_select (h : imm % 8 ≠ 7) (hm : n ∉ st.thisCyc.srcM) :
    ∃ t, beadCmp n 3 imm false (st.clockTaken n) = .done t none ∧ BeadEffect st t n (clocked st n) [] [.regs] ∧
      t.rd (Reg.BEAD_CMPCFG n) = setField (st.rd (Reg.BEAD_CMPCFG n)) 2 0 (imm % 8) ∧ RegsBut st t [Reg.BEAD_CMPCFG n] := by
  let v := setField (st.rd (Reg.BEAD_CMPCFG n)) 2 0 (imm % 8)
  refine ⟨((st.clockTaken n).wr (Reg.BEAD_CMPCFG n) v).inCyc fun y => { y with srcE := n :: y.srcE }, ?_, ?_, ?_, ?_⟩
  · simp [beadCmp, h, hm]
    rfl
  · exact (((BeadEffect.clock st n).mono (List.nil_subset _)).wr (by simp [Reg.BEAD_CMPCFG, Reg.BEAD_PINCFG]) v (by simp)).inCyc _
  · exact StrandSt.rd_wr_same _ _ _
  · exact regsBut_wr (st.clockTaken n) _ v

end

/-! ## CRC (R62, R63, R100) -/

section
variable (st : StrandSt) (n : Nat) (init : Bool)

/-- The accumulator that a CRC instruction starts from. -/
def StrandSt.crcStart : Nat := if init then (st.crcEntry n).init else (clocked st n).crc.toNat % 2 ^ (st.crcEntry n).width

/-- The accumulator fed with the bits of a shifted value; the checksum takes octets only. -/
def StrandSt.crcBits (v : Nat × Nat) : Nat :=
  if st.fld (Reg.BEAD_CRCCFG n) 2 0 == 4 then st.crcStart n init
  else ((List.range v.2).map (bitN v.1)).foldl (st.crcEntry n).feedBit (st.crcStart n init)

/-- The accumulator fed with octets of a shift register. -/
def StrandSt.crcOctets (oct : Nat) (dir : Bool) (w : Word) : Nat :=
  ((List.range (oct + 1)).map (regOctet dir w)).foldl ((st.crcEntry n).feedOctet (st.fld (Reg.BEAD_CRCCFG n) 2 0 == 4)) (st.crcStart n init)

/-- The engine's clock taken, with its accumulator replaced. -/
def StrandSt.crcFed (v : Nat) : StrandSt := (st.clockTaken n).updEng n fun e => { e with crc := BitVec.ofNat 32 v }

theorem effect_crcFed (v : Nat) : BeadEffect st (st.crcFed n v) n { clocked st n with crc := BitVec.ofNat 32 v } [] [] :=
  (BeadEffect.clock st n).upd fun e => { e with crc := BitVec.ofNat 32 v }

@[simp] theorem StrandSt.crcEntry_clockTaken : (st.clockTaken n).crcEntry n = st.crcEntry n := rfl

@[simp] theorem StrandSt.fld_clockTaken (off hi lo : Nat) : (st.clockTaken n).fld off hi lo = st.fld off hi lo := rfl

variable {st n init} {oct : Nat}

theorem beadCrc_shoutValue : beadCrc n init 0 oct (st.clockTaken n) = .done (st.crcFed n (st.crcBits n init (clocked st n).outV)) none := by
  simp only [beadCrc, StrandSt.eng_clockTaken, StrandSt.crcEntry_clockTaken, StrandSt.fld_clockTaken]
  rfl

theorem beadCrc_shinValue : beadCrc n init 1 oct (st.clockTaken n) = .done (st.crcFed n (st.crcBits n init (clocked st n).inV)) none := by
  simp only [beadCrc, StrandSt.eng_clockTaken, StrandSt.crcEntry_clockTaken, StrandSt.fld_clockTaken]
  rfl

theorem beadCrc_osr : beadCrc n init 2 oct (st.clockTaken n) =
    .done (st.crcFed n (st.crcOctets n init oct (st.osrDir n) (clocked st n).osr)) none := by
  simp only [beadCrc, StrandSt.eng_clockTaken, StrandSt.crcEntry_clockTaken, StrandSt.fld_clockTaken]
  rfl

theorem beadCrc_isr : beadCrc n init 3 oct (st.clockTaken n) =
    .done (st.crcFed n (st.crcOctets n init oct (st.isrDir n) (clocked st n).isr)) none := by
  simp only [beadCrc, StrandSt.eng_clockTaken, StrandSt.crcEntry_clockTaken, StrandSt.fld_clockTaken]
  rfl

end

/-- Settles O11: CMP by its mode, CRC by its source. -/
theorem beadCompareAndCrc : Obligations.BeadCompareAndCrc := by
  unfold Obligations.BeadCompareAndCrc
  intro s a imm init o hat hp st x c a0 done sum old
  have hcmp (mode : Fin 4) (lost : Bool) : exec (.beadCmp a mode imm lost) s = .next (s.run fun d => d.beadRun a fun n => beadCmp n mode imm.toNat lost) := rfl
  have hcrc (src : Fin 4) : exec (.crc a init src o) s = .next (s.run fun d => d.beadRun a fun n => beadCrc n init src o) := rfl
  have hsum (old add : Nat) : BitVec.ofNat 32 (cmpSum (st.cmpSrc a.n) old add) = sum old add := by rw [cmpSum_eq]
  refine ⟨fun hm => ?_, ?_, fun h7 => ?_, fun h7 hm => ?_, ?_⟩
  · have he (v : Nat) := engineCmp_alone (st := st) (n := a.n) (v := v) (by simpa using hm)
    refine ⟨?_, ?_, ?_⟩
    · rw [← hsum]
      exact completes_of_done (hcmp 0 false) hat hp (beadCmp_immediate false) (he _) rfl fun _ _ => trivial
    · rw [← hsum]
      exact completes_of_done (hcmp 1 false) hat hp beadCmp_register (he _) rfl fun _ _ => trivial
    · rw [← hsum]
      exact completes_of_done (hcmp 2 false) hat hp beadCmp_source (he _) rfl fun _ _ => trivial
  · obtain ⟨he, hf⟩ := engineCmp_lost (st := st) (n := a.n) (v := cmpSum (st.cmpSrc a.n) old imm.toNat)
    rw [← hsum]
    exact completes_of_done (hcmp 0 true) hat hp (beadCmp_immediate true) he rfl fun q hq => flagged_congr (x' := st) rfl hq.symm hf
  · exact completes_of_nop (hcmp 3 false) hat hp (beadCmp_reserved h7)
  · obtain ⟨t, hb, he, hv, hr⟩ := beadCmp_select (st := st) (n := a.n) h7 (by simpa using hm)
    exact completes_of_done (hcmp 3 false) hat hp hb he rfl fun q hq =>
      ⟨(rd_congr hq _).trans hv, regsBut_congr (x' := st) rfl hq.symm hr⟩
  · have he (v : Nat) := effect_crcFed st a.n v
    refine ⟨?_, ?_, ?_, ?_⟩
    · exact completes_of_done (hcrc 0) hat hp beadCrc_shoutValue (he _) rfl fun _ _ => trivial
    · exact completes_of_done (hcrc 1) hat hp beadCrc_shinValue (he _) rfl fun _ _ => trivial
    · exact completes_of_done (hcrc 2) hat hp beadCrc_osr (he _) rfl fun _ _ => trivial
    · exact completes_of_done (hcrc 3) hat hp beadCrc_isr (he _) rfl fun _ _ => trivial

end Sys2Proof.Machine
end

section
/-! Bead engines: WAIT and SYNC. -/

namespace Sys2Proof.Machine

/-! ## What WAIT tests, at an engine clock -/

section
variable (st : StrandSt) (n : Nat)

@[simp] theorem StrandSt.txThr_clockTaken : (st.clockTaken n).txThr n = st.txThr n := by
  simp only [StrandSt.txThr, StrandSt.eng_clockTaken]
  rfl

@[simp] theorem StrandSt.rxThr_clockTaken : (st.clockTaken n).rxThr n = st.rxThr n := by
  simp only [StrandSt.rxThr, StrandSt.eng_clockTaken]
  rfl

@[simp] theorem StrandSt.cmpEq_clockTaken : (st.clockTaken n).cmpEq n = st.cmpEq n := by
  simp only [StrandSt.cmpEq, StrandSt.cmpUnit_clockTaken, StrandSt.cmpSrc_clockTaken, StrandSt.cmpValue_clockTaken]

@[simp] theorem StrandSt.cmpReached_clockTaken : (st.clockTaken n).cmpReached n = st.cmpReached n := by
  simp only [StrandSt.cmpReached, StrandSt.cmpUnit_clockTaken, StrandSt.cmpSrc_clockTaken, StrandSt.cmpValue_clockTaken, StrandSt.cmpEq_clockTaken]

@[simp] theorem StrandSt.inBit_clockTaken (k : Nat) : (st.clockTaken n).inBit n k = st.inBit n k := by
  simp only [StrandSt.inBit, StrandSt.eng_clockTaken]
  rfl

@[simp] theorem waitPin_clockTaken (k : Nat) : waitPin n k (st.clockTaken n) = waitPin n k st := by
  simp only [waitPin, StrandSt.eng_clockTaken, StrandSt.inBit_clockTaken]
  rfl

@[simp] theorem StrandSt.evt_clockTaken (k : Nat) : (st.clockTaken n).evt n k = st.evt n k := rfl

@[simp] theorem StrandSt.bit_clockTaken (off k : Nat) : (st.clockTaken n).bit off k = st.bit off k := rfl

end

/-! ## The outcomes of WAIT (R98) -/

/-- What WAIT does with a condition: it completes where the condition equals POL, and waits otherwise. -/
def waitTest (st : StrandSt) (pol c : Bool) : BeadRes := if c == pol then .done st none else .wait st

section
variable (st : StrandSt) (n : Nat) (pol : Bool) (k : Nat)

theorem beadWait_pin : beadWait n pol 0 k (st.clockTaken n) = waitTest (st.clockTaken n) pol (waitPin n k st) := by
  simp [beadWait, waitTest]

theorem beadWait_eq : beadWait n pol 1 k (st.clockTaken n) = waitTest (st.clockTaken n) pol (st.cmpEq n) := by
  simp [beadWait, waitTest]

theorem beadWait_reached : beadWait n pol 2 k (st.clockTaken n) = waitTest (st.clockTaken n) pol (st.cmpReached n) := by
  simp [beadWait, waitTest]

theorem beadWait_txThr : beadWait n pol 4 0 (st.clockTaken n) = waitTest (st.clockTaken n) pol (st.txThr n) := by
  simp [beadWait, waitTest]

theorem beadWait_rxThr : beadWait n pol 4 1 (st.clockTaken n) = waitTest (st.clockTaken n) pol (st.rxThr n) := by
  simp [beadWait, waitTest]

theorem beadWait_irq : beadWait n pol 5 k (st.clockTaken n) = waitTest (st.clockTaken n) pol (st.bit (Reg.BEAD_FLAGS n) 10) := by
  simp [beadWait, waitTest]

theorem beadWait_reservedLevel (hk : 2 ≤ k) : beadWait n pol 4 k st = .done st none := by
  obtain ⟨j, rfl⟩ := Nat.exists_eq_add_of_le' hk
  rfl

theorem beadWait_evt : beadWait n true 3 k (st.clockTaken n) =
    if st.evt n (k % 4) then .done ((st.clockTaken n).evtTake n (k % 4)) none else .wait (st.clockTaken n) := rfl

end

section
variable {s : State} {a : BeadAt} (h : AtClock (s.dev.beforeBead a) a) (hp : a.par.val = 0)
include h hp

/-- An instruction that tests a condition completes or waits. -/
theorem waits_of_test {c : Instr} {body : Nat → StrandSt → BeadRes} {pol b : Bool} (hx : exec c s = .next (s.run fun d => d.beadRun a body))
    (hb : body a.n ((view (s.dev.beforeBead a) a.st).clockTaken a.n) = waitTest ((view (s.dev.beforeBead a) a.st).clockTaken a.n) pol b) :
    (b = pol → Completes c s a
      (retired (clocked (view (s.dev.beforeBead a) a.st) a.n) (nextPc (clocked (view (s.dev.beforeBead a) a.st) a.n)) a.dly) [] [] fun _ _ => True) ∧
    (b ≠ pol → Blocks c s a { clocked (view (s.dev.beforeBead a) a.st) a.n with state := .waiting } [] fun _ _ => True) := by
  refine ⟨fun he => ?_, fun he => ?_⟩
  · exact completes_of_nop hx h hp (hb.trans (by simp [waitTest, he]))
  · exact blocks_of_wait hx h hp (hb.trans (by simp [waitTest, he])) (keeps_clockTaken _ _) (engsBut_clockTaken _ _) (StrandSt.eng_clockTaken _ _)
      fun _ _ => trivial

end

/-! ## EVT bits (R76) -/

section
variable (st : StrandSt) (n k : Nat)

theorem keeps_evtTake : Keeps st (st.evtTake n k) [.regs] := keeps_trans (keeps_mono (keeps_inCyc st _) (by simp)) (keeps_wr (st.noteEvt n) _ _)

theorem regsBut_evtTake : RegsBut st (st.evtTake n k) [Reg.BEAD_EVT n] := regsBut_wr (st.noteEvt n) _ _

theorem rd_evtTake : (st.evtTake n k).rd (Reg.BEAD_EVT n) = setBit (st.rd (Reg.BEAD_EVT n)) k (bitN (st.kept (Reg.BEAD_EVT n)) k) :=
  StrandSt.rd_wr_same _ _ _

theorem effect_evtTake : BeadEffect st ((st.clockTaken n).evtTake n k) n (clocked st n) [] [.regs] :=
  (((BeadEffect.clock st n).mono (List.nil_subset _)).inCyc _).wr (by simp [Reg.BEAD_EVT, Reg.BEAD_PINCFG]) _ (by simp)

end

/-! ## The outcomes of SYNC (R104) -/

/-- SYNC has its event: the divider is restarted, and the next engine clock completes it. -/
def StrandSt.syncHit (st : StrandSt) (n : Nat) : StrandSt := (st.updEng n fun e => { e with sync := .hit }).divRestart n

section
variable (st : StrandSt) (n : Nat)

theorem keeps_syncHit : Keeps st (st.syncHit n) [.bead] := keeps_trans (keeps_updEng st n _) (keeps_divRestart _ n)

theorem engsBut_syncHit : EngsBut st (st.syncHit n) n := engsBut_trans (engsBut_updEng st n _) (engsBut_divRestart _ n)

theorem eng_syncHit : (st.syncHit n).eng n = { st.eng n with sync := .hit, left := 2, acc := 0 } := by
  rw [StrandSt.syncHit, eng_divRestart, StrandSt.eng_updEng_same]

end

section
variable {st : StrandSt} {n k : Nat}

theorem beadSync_complete (h : (clocked st n).sync = .hit) : beadSync n k (st.clockTaken n) = .done (st.clockTaken n) none := by
  simp [beadSync, h]

theorem beadSync_watch (h : (clocked st n).sync ≠ .hit) (he : st.evt n k = false) (hb : st.bit (Reg.BEAD_EVT n) k = false) :
    beadSync n k (st.clockTaken n) = .wait ((st.clockTaken n).updEng n fun e => { e with sync := .watching k }) := by
  rw [← StrandSt.eng_clockTaken] at h
  rw [beadSync]
  split
  · contradiction
  · simp [he, hb]

/-- A SYNC on an EVT bit that is 1 consumes it: where it is so since before the cycle, a set of this cycle stays. -/
theorem beadSync_event (h : (clocked st n).sync ≠ .hit) (he : st.evt n k = true ∨ st.bit (Reg.BEAD_EVT n) k = true) :
    ∃ t : StrandSt, beadSync n k (st.clockTaken n) = .wait (t.syncHit n) ∧ Keeps st t [.bead, .regs] ∧ EngsBut st t n ∧ t.eng n = clocked st n ∧
      t.rd (Reg.BEAD_EVT n) = setBit (st.rd (Reg.BEAD_EVT n)) k (st.evt n k && bitN (st.kept (Reg.BEAD_EVT n)) k) ∧
      RegsBut st t [Reg.BEAD_EVT n] := by
  rw [← StrandSt.eng_clockTaken] at h
  have hk := keeps_mono (keeps_clockTaken st n) (l' := [.bead, .regs]) (by simp)
  cases hb : st.evt n k with
  | true =>
    refine ⟨(st.clockTaken n).evtTake n k, ?_, keeps_trans hk (keeps_mono (keeps_evtTake _ n k) (by simp)), engsBut_clockTaken st n,
      st.eng_clockTaken n, ?_, regsBut_evtTake (st.clockTaken n) n k⟩
    · rw [beadSync]
      split
      · contradiction
      · simp [hb, StrandSt.syncHit]
    · exact rd_evtTake (st.clockTaken n) n k
  | false =>
    have hr : st.bit (Reg.BEAD_EVT n) k = true := by simpa [hb] using he
    refine ⟨(st.clockTaken n).putBit (Reg.BEAD_EVT n) k false, ?_, keeps_trans hk (keeps_mono (keeps_wr _ _ _) (by simp)), engsBut_clockTaken st n,
      st.eng_clockTaken n, ?_, regsBut_wr (st.clockTaken n) _ _⟩
    · rw [beadSync]
      split
      · contradiction
      · simp [hb, hr, StrandSt.syncHit]
    · exact StrandSt.rd_wr_same (st.clockTaken n) _ _

end

/-- Settles O12: WAIT by its source, SYNC by whether it has its event. -/
theorem beadWaits : Obligations.BeadWaits := by
  unfold Obligations.BeadWaits
  intro s a pol k e hat hp st x evt test nop
  have hwait (pol : Bool) (src : Fin 8) : exec (.beadWait a pol src k) s = .next (s.run fun d => d.beadRun a fun n => beadWait n pol src k) := rfl
  have hsync : exec (.sync a e) s = .next (s.run fun d => d.beadRun a fun n => beadSync n e) := rfl
  have htest (src : Fin 8) (c : Bool) (hb : beadWait a.n pol src k (st.clockTaken a.n) = waitTest (st.clockTaken a.n) pol c) : test src c :=
    waits_of_test hat hp (hwait pol src) hb
  refine ⟨fun hk => htest 4 _ ?_, fun hk => htest 4 _ ?_, fun hk => ?_, ?_, ?_, ?_, htest 0 _ (beadWait_pin st a.n pol k), htest 1 _ (beadWait_eq st a.n pol k),
    htest 2 _ (beadWait_reached st a.n pol k), htest 5 _ (beadWait_irq st a.n pol k), fun he => ?_, fun he => ?_, fun hs he => ?_, fun hs he hb => ?_,
    fun hs => ?_⟩
  · rw [hk]
    exact beadWait_txThr st a.n pol
  · rw [hk]
    exact beadWait_rxThr st a.n pol
  · exact completes_of_nop (hwait pol 4) hat hp (beadWait_reservedLevel _ a.n pol k hk)
  · exact completes_of_nop (hwait false 3) hat hp rfl
  · exact completes_of_nop (hwait pol 6) hat hp rfl
  · exact completes_of_nop (hwait pol 7) hat hp rfl
  · exact completes_of_done (hwait true 3) hat hp ((beadWait_evt st a.n k).trans (if_pos he)) (effect_evtTake st a.n (k % 4)) rfl fun q hq =>
      ⟨(rd_congr hq _).trans (rd_evtTake (st.clockTaken a.n) a.n (k % 4)),
        regsBut_congr (x' := st) rfl hq.symm (regsBut_evtTake (st.clockTaken a.n) a.n (k % 4))⟩
  · refine blocks_of_wait (hwait true 3) hat hp ((beadWait_evt st a.n k).trans (if_neg ?_)) (keeps_clockTaken st a.n) (engsBut_clockTaken st a.n)
      (st.eng_clockTaken a.n) fun _ _ => trivial
    simp [he]
  · obtain ⟨t, hb, hk, hengs, heng, hv, hr⟩ := beadSync_event hs he
    have hy := eng_syncHit t a.n
    rw [heng] at hy
    exact blocks_of_wait hsync hat hp hb (keeps_trans hk (keeps_mono (keeps_syncHit t a.n) (by simp))) (engsBut_trans hengs (engsBut_syncHit t a.n)) hy
      fun q hq => ⟨(rd_congr hq _).trans hv, regsBut_congr (x' := st) rfl hq.symm hr⟩
  · have hy := (st.clockTaken a.n).eng_updEng_same a.n fun e' => { e' with sync := .watching e }
    rw [StrandSt.eng_clockTaken] at hy
    exact blocks_of_wait hsync hat hp (beadSync_watch hs he hb) (keeps_trans (keeps_clockTaken st a.n) (keeps_updEng _ _ _))
      (engsBut_trans (engsBut_clockTaken st a.n) (engsBut_updEng _ _ _)) hy fun _ _ => trivial
  · exact completes_of_nop hsync hat hp (beadSync_complete hs)

end Sys2Proof.Machine
end

section
/-! What the device does by itself at the end of a command leaves the strands alone, where it is asleep and nothing waits in its strands. -/

namespace Sys2Proof.Machine

/-! ## The merge groups without a pair -/

/-- What the end of a command may change in a sleeping device. -/
def asideFields : List DevField := [.clasp, .mgCfg, .port, .loupe, .upd, .out, .before, .fenced]

theorem touches_claspOnly {d e : Dev} (h : d.ClaspOnly e) : Touches asideFields d e := by
  obtain ⟨c, o, z, rfl⟩ := h
  intro k hk
  cases k <;> simp [asideFields] at hk <;> rfl

theorem touches_abortSplit (d : Dev) (x : Bool) : Touches [.clasp] d (d.abortSplit x) :=
  .ite (fun _ => (touches_cinc d 6).trans (touches_dflag _ 7)) fun _ => .refl _ d

theorem touches_suppressTx (d : Dev) (g : Nat) (odd : Bool) (ws : List Word) : Touches asideFields d (d.suppressTx g odd ws) := by
  unfold Dev.suppressTx
  extract_lets q m gone d1 w2
  have h1 : Touches asideFields d d1 := ((touches_setMg d g _).trans (touches_cinc _ 1)).mono rfl
  split
  · extract_lets status d2 differs
    have h2 : Touches asideFields d d2 := h1.trans ((touches_abortSplit d1 _).mono rfl)
    refine .ite (fun _ => h2.trans ?_) fun _ => h2
    exact (((touches_dflag d2 2).trans (touches_cinc _ 5)).mono rfl).trans ((touches_log _ _ _ _ _).mono rfl)
  · exact h1

theorem touches_pcqPush (d : Dev) (g : Nat) (r : PcqRec) : Touches [.clasp] d (d.pcqPush g r) :=
  .ite (fun _ => touches_setMg d g _) fun _ => .ite (fun _ => touches_setMg d g _) fun _ => .refl _ d

theorem touches_deliverTx {d : Dev} (hb : d.base ≠ 6) (g : Nat) (odd : Bool) (ws : List Word) : Touches [.clasp] d (d.deliverTx g odd ws) := by
  unfold Dev.deliverTx
  extract_lets q m mine gone w2 m' d1
  have h1 : Touches [.clasp] d d1 := (touches_setMg d g m').trans (touches_pcqPush _ g _)
  rw [if_neg (by rwa [h1.base rfl])]
  exact h1

theorem touches_mergeRun {d : Dev} (hb : d.base ≠ 6) (g n : Nat) : Touches asideFields d (d.mergeRun g n) := by
  induction n generalizing d with
  | zero => exact .refl _ d
  | succ n ih =>
    unfold Dev.mergeRun
    split
    · exact .refl _ d
    · next s r _ =>
      extract_lets m d1
      have h1 : Touches asideFields d d1 := (touches_setMg d g _).mono rfl
      have h2 : Touches asideFields d (if s then d1.suppressTx g r.odd r.words else d1.deliverTx g r.odd r.words) :=
        h1.trans (.ite (fun _ => touches_suppressTx d1 g _ _) fun _ => (touches_deliverTx (by rwa [h1.base rfl]) g _ _).mono rfl)
      exact h2.trans (ih (by rwa [h2.base rfl]))

theorem touches_mgAbortDone (d : Dev) (g : Nat) : Touches asideFields d (d.mgAbortDone g) := by
  unfold Dev.mgAbortDone
  extract_lets c
  split
  · exact .refl _ d
  · extract_lets res codes code items
    refine .ite (fun _ => .refl _ d) fun _ => ((touches_setMg d g { d.mg g with abort := none }).mono rfl).trans ?_
    exact (touches_clasp _ _).mono rfl

/-- In MD0 no link carries a group's records. -/
theorem pcqFlush_asleep {d : Dev} (h : d.mode = 0) (g : Nat) : d.pcqFlush g = d := by
  have hl (b : Bool) : d.linkOpen b = false := by simp [Dev.linkOpen, h]
  simp [Dev.pcqFlush, hl]

/-! ## A sleeping device -/

/-- A device in MD0 whose strands and Lockets have nothing for the end of a command. -/
structure Asleep (d : Dev) : Prop where
  mode : d.mode = 0
  base : d.base = 0
  lkt : d.lkt = {}
  quiet : ∀ i, (d.strand i).banks.marked = false ∧ (d.strand i).banks.ledgerUe = false ∧ (d.strand i).banks.exch = none ∧
    (d.strand i).core.wdog ≠ some 0

theorem Asleep.touches {d e : Dev} (h : Asleep d) (ht : Touches asideFields d e) : Asleep e where
  mode := (ht.mode rfl).trans h.mode
  base := (ht.base rfl).trans h.base
  lkt := (ht.lkt rfl).trans h.lkt
  quiet i := by rw [ht.strand i rfl]; exact h.quiet i

section
variable {d : Dev} (h : Asleep d)
include h

theorem touches_mgSettle (g : Nat) : Touches asideFields d (d.mgSettle g) := by
  unfold Dev.mgSettle
  refine .ite (fun _ => .refl _ d) fun _ => ?_
  extract_lets d1
  have h1 : Touches asideFields d d1 := by
    refine .ite (fun _ => .refl _ d) fun _ => (touches_mergeRun ?_ g _).trans (touches_mgAbortDone _ g)
    rw [h.base]
    decide
  rw [pcqFlush_asleep ((h.touches h1).mode)]
  exact h1

theorem touches_mgSettles (l : List Nat) : Touches asideFields d (l.foldl Dev.mgSettle d) := by
  induction l generalizing d with
  | nil => exact .refl _ d
  | cons g l ih =>
    have h1 := touches_mgSettle h g
    exact h1.trans (ih (h.touches h1))

theorem lktEnd_asleep : d.lktEnd = d := by
  unfold Dev.lktEnd
  rw [h.lkt]
  rfl

theorem exchangeRun_asleep : d.exchangeRun = d := by
  refine List.foldl_fixed' (fun i => ?_) _
  obtain ⟨-, -, hx, -⟩ := h.quiet i
  have hm : d.exchangeMove i = d := by simp [Dev.exchangeMove, hx]
  have hf : d.exchangeFind i = none := by
    unfold Dev.exchangeFind
    rw [h.lkt]
    rfl
  rw [hm]
  simp [Dev.exchangeWatch, hx, hf]

theorem bankWatch_asleep (i : StrandId) : d.bankWatch i = d := by
  obtain ⟨hm, hl, -, -⟩ := h.quiet i
  simp [Dev.bankWatch, hm, hl]

theorem wdogWatch_asleep (i : StrandId) : d.wdogWatch i = d := by
  obtain ⟨-, -, -, hw⟩ := h.quiet i
  exact if_neg hw

theorem touches_settle : Touches asideFields d d.settle := by
  unfold Dev.settle
  rw [lktEnd_asleep h, exchangeRun_asleep h]
  have h1 : Touches asideFields d d.pump := touches_claspOnly d.pump_clasp
  have h2 := h1.trans (touches_mgSettles (h.touches h1) (List.range 8))
  exact (h2.trans (touches_claspOnly (Dev.sendVectors_clasp _ _))).trans (touches_claspOnly (Dev.sendVectors_clasp _ _))

/-- The strands after a command are as its own effect left them. -/
theorem strand_after_asleep (b : Dev) (i : StrandId) : (d.after b).strand i = d.strand i := by
  obtain ⟨u, hu⟩ := d.timeWatch_eq b
  have h1 : Touches asideFields d (d.timeWatch b) := by
    rw [hu]
    exact (touches_loupe_own d (by rfl)).mono rfl
  have hs := h.touches h1
  unfold Dev.after
  rw [List.foldl_fixed' (bankWatch_asleep hs), List.foldl_fixed' (wdogWatch_asleep hs)]
  exact (h1.trans (touches_settle hs)).strand i rfl

end

end Sys2Proof.Machine
end

section
/-! START against a pin whose recorded owner is no engine. -/

namespace Sys2Proof.Machine

/-- A strand whose engine 0 has pin 0 as its output group, while the claims name an engine 16, which does not exist, as the pin's owner. -/
def ownedBy16 : StrandSt :=
  { regs := ({} : Tab Word).set 0 (Reg.BEAD_PINCFG 0) (BitVec.ofNat 32 (2 ^ 15)), bp := { own := ({} : Tab (Option Nat)).set none 0 (some 16) } }

/-- A sleeping device with that strand. -/
def startAt16 : State := { dev := { sup := Quad.all { phase := .run }, strands := ⟨ownedBy16, {}, {}, {}⟩ } }

theorem asleep_startAt16 : Asleep (later startAt16 0) where
  mode := rfl
  base := rfl
  lkt := rfl
  quiet i := by fin_cases i <;> exact ⟨rfl, rfl, rfl, by decide⟩

/-- What a strand's command leaves of a sleeping device is asleep, where it keeps the strand's banks and core. -/
theorem Asleep.only {d e : Dev} {i : StrandId} {but : List Part} (h : Asleep d) (ho : Only d e i but) (hb : .banks ∉ but) (hc : .core ∉ but) : Asleep e := by
  obtain ⟨⟨⟨hmode, hbase, -, -, -, -, -, hlkt, -⟩, hothers⟩, hk⟩ := ho
  refine ⟨hmode.trans h.mode, hbase.trans h.base, hlkt.trans h.lkt, fun j => ?_⟩
  by_cases hj : j = i
  · subst hj
    have hbanks : (e.strand j).banks = (d.strand j).banks := hk .banks (by simp [Part.all]) hb
    have hcore : (e.strand j).core = (d.strand j).core := hk .core (by simp [Part.all]) hc
    rw [hbanks, hcore]
    exact h.quiet j
  · rw [hothers j hj]
    exact h.quiet j

/-- The engine meets no other claim, since only engines are looked for. -/
theorem claimConflict_startAt16 : (view (later startAt16 0) 0).claimConflict 0 = false := by decide +kernel

theorem mem_claimPins_startAt16 : 0 ∈ (view (later startAt16 0) 0).claimPins 0 := by decide +kernel

/-- Its start leaves the pin to the owner on record. -/
theorem own_after_startAt16 :
    ((((later startAt16 0).placeWrite (.core 0) (.strand 0 (Reg.BEAD_CMD (0 : Fin 16))) (1 + 8 * b2n false)).after startAt16.dev).strand 0).bp.own.get none 0 = some 16 := by
  decide +kernel

/-- Refutes O2: a state whose claims name as a pin's owner a number that is no engine's: no engine's claim is met, and the pin stays that owner's. -/
theorem not_beadStart : ¬ Obligations.BeadStart := by
  unfold Obligations.BeadStart
  intro h
  obtain ⟨hstart, -, -⟩ := h startAt16 0 (.core 0) 0 0 false ⟨rfl, .inl rfl⟩ rfl
  obtain ⟨e, he, ho, -, -, hown⟩ := ends_after (c := .start 0 (.core 0) 0 0 false) rfl (hstart rfl rfl claimConflict_startAt16).1
  have h0 : (e.strand 0).bp.own.get none 0 = some 0 := hown 0 mem_claimPins_startAt16
  have h16 : (e.strand 0).bp.own.get none 0 = some 16 := by
    rw [← strand_after_asleep (asleep_startAt16.only ho (by simp) (by simp)) startAt16.dev 0, ← he]
    exact own_after_startAt16
  rw [h0] at h16
  exact absurd h16 (by decide)

end Sys2Proof.Machine
end

section
/-! Bead engines: SHOUT and SHIN. -/

namespace Sys2Proof.Machine

/-! ## Driving a pin group (R53, R55, R92) -/

/-- A pin is one of the two side-set pins. -/
theorem StrandSt.isSide_eq (st : StrandSt) (n p : Nat) :
    st.isSide n p = (st.sideEn n && decide (st.sideBase n ≤ p ∧ p ≤ st.sideBase n + 1)) := by
  have h : (p == st.sideBase n || p == st.sideBase n + 1) = decide (st.sideBase n ≤ p ∧ p ≤ st.sideBase n + 1) := by
    rw [Bool.eq_iff_iff]
    simp
    omega
  rw [StrandSt.isSide, h]

/-- Bits driven one after another: the pins among them that exist and that no side-set takes. -/
theorem foldl_drivePin (side : Nat → Bool) (base v : Nat) (l : List Nat) (st : StrandSt) :
    l.foldl (fun s i => if side (base + i) then s else s.drivePin (base + i) (bitN v i)) st =
      st.drivePins ((l.map fun j => (base + j, bitN v j)).filter fun c => c.1 < 24 && !side c.1) := by
  induction l generalizing st with
  | nil => simp [StrandSt.drivePins]
  | cons i l ih =>
    rw [List.foldl_cons, ih]
    cases hs : side (base + i) with
    | true => simp [hs]
    | false => by_cases hp : base + i < 24 <;> simp [hs, hp, StrandSt.drivePin, StrandSt.drivePins]

/-- Driving an engine's output group drives the pins of the group that its side-set leaves (R53, R55, R92). -/
theorem driveGroup_eq (st : StrandSt) (n k v : Nat) : st.driveGroup n k v = st.drivePins (groupPins st n k v) := by
  unfold StrandSt.driveGroup groupPins
  split
  · simp [StrandSt.drivePins]
  · rw [foldl_drivePin (st.isSide n)]
    simp only [StrandSt.isSide_eq]

theorem BeadEffect.drive {st t : StrandSt} {n : Nat} {y : Engine} {pins : List (Nat × Bool)} {but : List Part} (h : BeadEffect st t n y pins but)
    (l : List (Nat × Bool)) : BeadEffect st (t.drivePins l) n y (pins ++ l) but where
  keeps := keeps_trans h.keeps (keeps_mono (keeps_bp t _) (by simp))
  engs := h.engs
  eng := h.eng
  bp := by simp [StrandSt.drivePins, h.bp]
  cnt := h.cnt
  side := h.side

theorem groupPins_congr {st t : StrandSt} {n : Nat} (h : t.rd (Reg.BEAD_PINCFG n) = st.rd (Reg.BEAD_PINCFG n)) (k v : Nat) :
    groupPins t n k v = groupPins st n k v := by
  have hk : t.outKind n = st.outKind n := by simp only [StrandSt.outKind, StrandSt.bit, h]
  have hc : t.outCnt n = st.outCnt n := by simp only [StrandSt.outCnt, StrandSt.fld, h]
  have hb : t.outBase n = st.outBase n := by simp only [StrandSt.outBase, StrandSt.fld, h]
  have he : t.sideEn n = st.sideEn n := by simp only [StrandSt.sideEn, StrandSt.bit, h]
  have hs : t.sideBase n = st.sideBase n := by simp only [StrandSt.sideBase, StrandSt.fld, h]
  rw [groupPins, groupPins, hk, hc, hb, he, hs]

/-! ## Instructions that change only their engine, and those that drive its group -/

section
variable {c : Instr} {s : State} {a : BeadAt} {body : Nat → StrandSt → BeadRes}
  (hx : exec c s = .next (s.run fun d => d.beadRun a body)) (h : AtClock (s.dev.beforeBead a) a) (hp : a.par.val = 0)
include hx h hp

/-- An instruction that changes only its engine's registers, and may jump. -/
theorem completes_of_upd {jump : Option Nat} {f : Engine → Engine} (hf : ∀ x, (f x).state = x.state)
    (hb : body a.n ((view (s.dev.beforeBead a) a.st).clockTaken a.n) = .done (((view (s.dev.beforeBead a) a.st).clockTaken a.n).updEng a.n f) jump) :
    Completes c s a (retired (f (clocked (view (s.dev.beforeBead a) a.st) a.n))
      (jump.getD (nextPc (clocked (view (s.dev.beforeBead a) a.st) a.n))) a.dly) [] [] fun _ _ => True :=
  completes_of_done hx h hp hb ((BeadEffect.clock _ a.n).upd f) (hf _) fun _ _ => trivial

/-- An instruction that drives the output group after what it has done to its engine. -/
theorem completes_of_drive {t : StrandSt} {y : Engine} {k v : Nat}
    (hb : body a.n ((view (s.dev.beforeBead a) a.st).clockTaken a.n) = .done (t.driveGroup a.n k v) none)
    (he : BeadEffect (view (s.dev.beforeBead a) a.st) t a.n y [] []) (hy : y.state = (clocked (view (s.dev.beforeBead a) a.st) a.n).state) :
    Completes c s a (retired y (nextPc (clocked (view (s.dev.beforeBead a) a.st) a.n)) a.dly) (groupPins (view (s.dev.beforeBead a) a.st) a.n k v) []
      fun _ _ => True := by
  rw [driveGroup_eq, groupPins_congr he.side] at hb
  exact completes_of_done hx h hp hb (he.drive _) hy fun _ _ => trivial

end

/-! ## The outcomes of SHOUT and SHIN (R89, R92, R93) -/

section
variable (st : StrandSt) (n : Nat)

@[simp] theorem StrandSt.inWord_clockTaken (w : Nat) : (st.clockTaken n).inWord n w = st.inWord n w := by
  simp only [StrandSt.inWord, StrandSt.inBit_clockTaken]

@[simp] theorem StrandSt.osrDir_clockTaken (m : Nat) : (st.clockTaken n).osrDir m = st.osrDir m := rfl

@[simp] theorem StrandSt.isrDir_clockTaken (m : Nat) : (st.clockTaken n).isrDir m = st.isrDir m := rfl

@[simp] theorem StrandSt.inKind_clockTaken (m : Nat) : (st.clockTaken n).inKind m = st.inKind m := rfl

variable {st n} {k : Nat}

theorem beadShout_reserved (hk : k = 0 ∨ 33 ≤ k) : beadShout n k st = .done st none := if_pos (by simp; omega)

theorem beadShin_reserved (hk : k = 0 ∨ 33 ≤ k) : beadShin n k st = .done st none := if_pos (by simp; omega)

/-- An engine that has shifted `k` bits out of OSR (R92). -/
def Engine.shiftedOut (x : Engine) (dir : Bool) (k : Nat) : Engine :=
  { x with osr := if dir then x.osr <<< k else x.osr >>> k, osrCnt := min 32 (x.osrCnt + k), outV := (shoutValue dir x.osr k, k) }

/-- An engine that has shifted the `k`-bit value `v` into ISR (R93). -/
def Engine.shiftedIn (x : Engine) (dir virt : Bool) (k v : Nat) : Engine :=
  { x with isr := if dir then (x.isr <<< k) ||| BitVec.ofNat 32 v else (x.isr >>> k) ||| (BitVec.ofNat 32 v <<< (32 - k)),
           isrCnt := min 32 (x.isrCnt + k), inV := (v, k), lane := if virt then { x.lane with valid := false } else x.lane }

theorem beadShout_bits (h1 : 1 ≤ k) (h2 : k ≤ 32) : beadShout n k (st.clockTaken n) =
    .done (((st.clockTaken n).updEng n fun x => x.shiftedOut (st.osrDir n) k).driveGroup n k (shoutValue (st.osrDir n) (clocked st n).osr k)) none := by
  have hk : (decide (k = 0) || decide (32 < k)) = false := by simp; omega
  simp only [beadShout, hk, Bool.false_eq_true, if_false, StrandSt.eng_clockTaken, StrandSt.osrDir_clockTaken]
  simp only [StrandSt.updEng, StrandSt.eng_clockTaken, Engine.shiftedOut]

theorem beadShin_bits (h1 : 1 ≤ k) (h2 : k ≤ 32) : beadShin n k (st.clockTaken n) =
    .done ((st.clockTaken n).updEng n fun x => x.shiftedIn (st.isrDir n) (st.inKind n) k (st.inWord n k)) none := by
  have hk : (decide (k = 0) || decide (32 < k)) = false := by simp; omega
  simp only [beadShin, hk, Bool.false_eq_true, if_false, StrandSt.inWord_clockTaken, StrandSt.isrDir_clockTaken, StrandSt.inKind_clockTaken]
  rfl

end

/-- Settles O8: by whether the number of bits lies between 1 and 32. -/
theorem beadShift : Obligations.BeadShift := by
  unfold Obligations.BeadShift
  intro s a k hat hp st x w
  have hshout : exec (.shout a k) s = .next (s.run fun d => d.beadRun a fun n => beadShout n k) := rfl
  have hshin : exec (.shin a k) s = .next (s.run fun d => d.beadRun a fun n => beadShin n k) := rfl
  refine ⟨fun h1 h2 => ⟨?_, ?_⟩, fun hk => ⟨?_, ?_⟩⟩
  · exact completes_of_drive hshout hat hp (beadShout_bits h1 h2) ((BeadEffect.clock st a.n).upd fun x => x.shiftedOut (st.osrDir a.n) k) rfl
  · exact completes_of_upd hshin hat hp (f := fun x => x.shiftedIn (st.isrDir a.n) (st.inKind a.n) k (st.inWord a.n k)) (fun _ => rfl) (beadShin_bits h1 h2)
  · exact completes_of_nop hshout hat hp (beadShout_reserved hk)
  · exact completes_of_nop hshin hat hp (beadShin_reserved hk)

end Sys2Proof.Machine
end

section
/-! Bead engines: SET and MOV. -/

namespace Sys2Proof.Machine

/-! ## The outcomes of SET (R89, R94) -/

/-- The low 6 bits of an immediate above the low 10 bits of a register. -/
theorem append_low10 (imm : BitVec 10) (x : BitVec 16) :
    BitVec.ofNat 16 (imm.toNat % 64 * 1024 + x.toNat % 1024) = imm.setWidth 6 ++ x.setWidth 10 := by
  have hx : x.toNat % 1024 < 2 ^ 10 := Nat.mod_lt _ (by decide)
  apply BitVec.eq_of_toNat_eq
  rw [BitVec.toNat_append, BitVec.toNat_setWidth, BitVec.toNat_setWidth, ← Nat.shiftLeft_add_eq_or_of_lt hx, Nat.shiftLeft_eq, BitVec.toNat_ofNat]
  omega

section
variable (st : StrandSt) (n : Nat) (imm : BitVec 10)

theorem beadSet_x : beadSet n 1 imm.toNat st = .done (st.updEng n fun e => { e with x := imm.setWidth 16 }) none := by
  rw [← BitVec.ofNat_toNat]
  rfl

theorem beadSet_y : beadSet n 2 imm.toNat st = .done (st.updEng n fun e => { e with y := imm.setWidth 16 }) none := by
  rw [← BitVec.ofNat_toNat]
  rfl

theorem beadSet_xHigh : beadSet n 3 imm.toNat st = .done (st.updEng n fun e => { e with x := imm.setWidth 6 ++ e.x.setWidth 10 }) none := by
  simp only [← append_low10]
  rfl

theorem beadSet_yHigh : beadSet n 4 imm.toNat st = .done (st.updEng n fun e => { e with y := imm.setWidth 6 ++ e.y.setWidth 10 }) none := by
  simp only [← append_low10]
  rfl

end

section
variable {st : StrandSt} {n v : Nat}

theorem beadSet_osrCnt (h : v ≤ 32) : beadSet n 5 v st = .done (st.updEng n fun e => { e with osrCnt := v }) none := if_pos h

theorem beadSet_isrCnt (h : v ≤ 32) : beadSet n 6 v st = .done (st.updEng n fun e => { e with isrCnt := v }) none := if_pos h

theorem beadSet_osrCnt_above (h : 33 ≤ v) : beadSet n 5 v st = .done st none := if_neg (by omega)

theorem beadSet_isrCnt_above (h : 33 ≤ v) : beadSet n 6 v st = .done st none := if_neg (by omega)

end

/-! ## The outcomes of MOV (R61, R89, R95) -/

section
variable (st : StrandSt) (n : Nat)

@[simp] theorem StrandSt.crcFinal_clockTaken : (st.clockTaken n).crcFinal n = st.crcFinal n := by
  simp only [StrandSt.crcFinal, StrandSt.crcEntry_clockTaken, StrandSt.eng_clockTaken]
  rfl

/-- An engine's taking of its clock changes no source of MOV. -/
theorem movSource_clockTaken (src : Nat) : movSource n src (st.clockTaken n) = movSource n src st := by
  simp only [movSource, StrandSt.eng_clockTaken, StrandSt.cmpUnit_clockTaken, StrandSt.inWord_clockTaken, StrandSt.crcFinal_clockTaken,
    StrandSt.crcEntry_clockTaken, StrandSt.inKind_clockTaken]
  rfl

variable {st n} {dst src o : Nat} {lost : Bool}

theorem beadMov_reserved (h : 8 ≤ src ∨ 7 ≤ dst) : beadMov n dst src o lost st = .done st none := if_pos (by simp; omega)

/-- What MOV does with the value for its destination. -/
def movWrite (n dst v : Nat) (lost : Bool) (st : StrandSt) : BeadRes :=
  match dst with
  | 0 => .done (st.updEng n fun e => { e with osr := BitVec.ofNat 32 v, osrCnt := 0 }) none
  | 1 => .done (st.updEng n fun e => { e with isr := BitVec.ofNat 32 v, isrCnt := 0 }) none
  | 2 => .done (st.updEng n fun e => { e with x := BitVec.ofNat 16 v }) none
  | 3 => .done (st.updEng n fun e => { e with y := BitVec.ofNat 16 v }) none
  | 4 => .done (st.engineCmp n v lost) none
  | 5 => .done (st.driveGroup n 32 v) none
  | _ => .done (st.updEng n fun e => { e with crc := BitVec.ofNat 32 (v % 2 ^ (st.crcEntry n).width) }) none

theorem beadMov_source (hs : src ≤ 7) (hd : dst ≤ 6) : beadMov n dst src o lost (st.clockTaken n) =
    movWrite n dst (movOp o (movSource n src st).2 (movSource n src st).1) lost (st.clockTaken n) := by
  have h : (decide (7 < src) || decide (6 < dst)) = false := by simp; omega
  simp only [beadMov, h, movSource_clockTaken]
  rfl

/-- An engine's write of CMP: kept in any case, with CMP_LOST set where it meets a master's write (R61). -/
theorem engineCmp_effect (st : StrandSt) (n v : Nat) (lost : Bool) :
    BeadEffect st ((st.clockTaken n).engineCmp n v lost) n { clocked st n with cmp := BitVec.ofNat 32 v } [] [.regs] ∧
      if (lost || st.thisCyc.cmpM.contains n) = true then Flagged st ((st.clockTaken n).engineCmp n v lost) (Reg.BEAD_FLAGS n) 11
      else RegsBut st ((st.clockTaken n).engineCmp n v lost) [] := by
  split
  · next hm =>
    have ht : (st.clockTaken n).engineCmp n v lost = (st.clockTaken n).engineCmp n v true := by
      simp only [StrandSt.engineCmp, StrandSt.thisCyc_clockTaken, hm, Bool.true_or]
    rw [ht]
    exact engineCmp_lost
  · next hm =>
    obtain ⟨rfl, hc⟩ : lost = false ∧ n ∉ st.thisCyc.cmpM := by simpa using hm
    have he := engineCmp_alone (v := v) hc
    have hregs : ((st.clockTaken n).engineCmp n v false).regs = st.regs := he.keeps .regs (by simp [Part.all]) (by simp)
    exact ⟨he.mono (by simp), regsBut_congr (x' := st) rfl hregs.symm (regsBut_refl st [])⟩

end

/-- Settles O10: SET by its destination and the size of the immediate, MOV by its operands. -/
theorem beadSetAndMoves : Obligations.BeadSetAndMoves := by
  unfold Obligations.BeadSetAndMoves
  intro s a imm src o dst lost hat hp st x done
  have hset (c : Fin 8) : exec (.set a c imm) s = .next (s.run fun d => d.beadRun a fun n => beadSet n c imm.toNat) := rfl
  have hmov (d : Fin 16) : exec (.beadMov a d src o lost) s = .next (s.run fun e => e.beadRun a fun n => beadMov n d src o lost) := rfl
  have hsets (c : Fin 8) {f : Engine → Engine} (hb : beadSet a.n c imm.toNat (st.clockTaken a.n) = .done ((st.clockTaken a.n).updEng a.n f) none)
      (hf : ∀ x, (f x).state = x.state) : done c (f x) [] := completes_of_upd (hset c) hat hp hf hb
  have hnop (c : Fin 8) (hb : beadSet a.n c imm.toNat (st.clockTaken a.n) = .done (st.clockTaken a.n) none) : done c x [] :=
    completes_of_nop (hset c) hat hp hb
  refine ⟨?_, hsets 1 (beadSet_x _ _ imm) fun _ => rfl, hsets 2 (beadSet_y _ _ imm) fun _ => rfl, hsets 3 (beadSet_xHigh _ _ imm) fun _ => rfl,
    hsets 4 (beadSet_yHigh _ _ imm) fun _ => rfl, fun hi => ⟨hsets 5 (beadSet_osrCnt hi) fun _ => rfl, hsets 6 (beadSet_isrCnt hi) fun _ => rfl⟩,
    fun hi => ⟨hnop 5 (beadSet_osrCnt_above hi), hnop 6 (beadSet_isrCnt_above hi)⟩, hnop 7 rfl, ?_⟩
  · exact completes_of_drive (hset 0) hat hp rfl (BeadEffect.clock st a.n) rfl
  · intro v moved
    have hb (d : Fin 16) (hs : src.val ≤ 7) (hd : d.val ≤ 6) : beadMov a.n d src o lost (st.clockTaken a.n) = movWrite a.n d v lost (st.clockTaken a.n) :=
      beadMov_source hs hd
    have hmoves (d : Fin 16) (hs : src.val ≤ 7) (hd : d.val ≤ 6) {f : Engine → Engine}
        (hw : movWrite a.n d v lost (st.clockTaken a.n) = .done ((st.clockTaken a.n).updEng a.n f) none) (hf : ∀ x, (f x).state = x.state) :
        moved d (f x) [] := completes_of_upd (hmov d) hat hp hf ((hb d hs hd).trans hw)
    refine ⟨fun hs => ⟨hmoves 0 hs (by decide) rfl fun _ => rfl, hmoves 1 hs (by decide) rfl fun _ => rfl, hmoves 2 hs (by decide) rfl fun _ => rfl,
      hmoves 3 hs (by decide) rfl fun _ => rfl, ?_, ?_, hmoves 6 hs (by decide) rfl fun _ => rfl⟩, fun hr => ?_⟩
    · obtain ⟨he, hq⟩ := engineCmp_effect st a.n v lost
      refine completes_of_done (hmov 4) hat hp (hb 4 hs (by decide)) he rfl fun q hqr => ?_
      split at hq
      · next hm =>
        rw [if_pos hm]
        exact flagged_congr (x' := st) rfl hqr.symm hq
      · next hm =>
        rw [if_neg hm]
        exact regsBut_congr (x' := st) rfl hqr.symm hq
    · exact completes_of_drive (hmov 5) hat hp (hb 5 hs (by decide)) (BeadEffect.clock st a.n) rfl
    · exact completes_of_nop (hmov dst) hat hp (beadMov_reserved hr)

end Sys2Proof.Machine
end

section
/-! Bead engines: NOP, IRQ, CNT, JMP, and words with bad parity. -/

namespace Sys2Proof.Machine

/-! ## The outcomes of CNT and JMP (R96, R97) -/

section
variable (st : StrandSt) (n : Nat)

/-- An engine's taking of its clock changes no JMP condition. -/
theorem jmpHolds_clockTaken (c : Nat) : jmpHolds n c (st.clockTaken n) = jmpHolds n c st := by
  simp only [jmpHolds, StrandSt.eng_clockTaken, StrandSt.cmpEq_clockTaken, StrandSt.cmpReached_clockTaken, StrandSt.evt_clockTaken,
    StrandSt.inBit_clockTaken]
  rfl

theorem beadJmp_holds {c : Nat} (t : Nat) (h15 : c ≠ 15) (hc : c ≤ 23) :
    beadJmp n c t (st.clockTaken n) = .done (st.clockTaken n) (if jmpHolds n c st then some t else none) := by
  rw [← jmpHolds_clockTaken]
  exact if_neg (by simp; omega)

theorem beadJmp_reserved {c : Nat} (t : Nat) (h : c = 15 ∨ 24 ≤ c) : beadJmp n c t st = .done st none := if_pos (by simp; omega)

/-- The register that CNT names, replaced. -/
def Engine.cntWrite (x : Engine) (reg : Bool) (v : BitVec 16) : Engine := if reg then { x with y := v } else { x with x := v }

theorem Engine.state_cntWrite (x : Engine) (reg : Bool) (v : BitVec 16) : (x.cntWrite reg v).state = x.state := by cases reg <;> rfl

theorem beadCnt_eq (reg : Bool) (t : Nat) :
    let v := (if reg then (clocked st n).y else (clocked st n).x) - 1
    beadCnt n reg t (st.clockTaken n) = .done ((st.clockTaken n).updEng n fun x => x.cntWrite reg v) (if v = 0 then none else some t) := by
  simp only [beadCnt, StrandSt.eng_clockTaken]
  rfl

end

/-! ## A word that fails its parity check (R79) -/

theorem counted_of_cnt {x y y' : StrandSt} {off : Nat} (h : y.cnt = y'.cnt) (hc : Counted x y' off) : Counted x y off := by
  simpa only [Counted, CntsBut, StrandSt.counter, h] using hc

/-- A failed parity check is counted in PARITY_RETRIES and flagged. -/
def StrandSt.parityNoted (st : StrandSt) (n : Nat) : StrandSt := (st.inc (Reg.BEAD_CNT n + 8 * 5)).flag (Reg.BEAD_FLAGS n) 7

/-- The word at PC of engine `n` is marked as one that fails until it is written anew. -/
def StrandSt.wordFailed (st : StrandSt) (n : Nat) : StrandSt := st.updEng n fun x => { x with bad := x.bad.set false x.pc true }

section
variable (st : StrandSt) (n : Nat)

theorem keeps_parityNoted : Keeps st (st.parityNoted n) [.cnt, .regs] :=
  keeps_trans (keeps_mono (keeps_inc st _) (by simp)) (keeps_mono (keeps_flag _ _ _) (by simp))

theorem flagged_parityNoted : Flagged st (st.parityNoted n) (Reg.BEAD_FLAGS n) 7 := flagged_flag (st.inc (Reg.BEAD_CNT n + 8 * 5)) _ 7

theorem counted_parityNoted : Counted st (st.parityNoted n) (Reg.BEAD_CNT n + 40) :=
  counted_of_cnt (StrandSt.cnt_flag _ _ _) (counted_inc st (Reg.BEAD_CNT n + 8 * 5))

@[simp] theorem StrandSt.eng_parityNoted (k : Nat) : (st.parityNoted n).eng k = st.eng k := by
  rw [StrandSt.parityNoted, StrandSt.eng_flag, StrandSt.eng_inc]

theorem engsBut_parityNoted : EngsBut st (st.parityNoted n) n := fun k _ => st.eng_parityNoted n k

/-- The strand with other reports on their way to the Loupe. -/
def StrandSt.withReports (st : StrandSt) (l : List Report) : StrandSt := { st with reports := l }

theorem keeps_withReports (l : List Report) : Keeps st (st.withReports l) [] := fun p _ _ => by cases p <;> rfl

theorem flagged_withReports {x y : StrandSt} {off i : Nat} (h : Flagged x y off i) (l : List Report) : Flagged x (y.withReports l) off i := h

theorem counted_withReports {x y : StrandSt} {off : Nat} (h : Counted x y off) (l : List Report) : Counted x (y.withReports l) off := h

theorem engsBut_withReports {x y : StrandSt} {k : Nat} (h : EngsBut x y k) (l : List Report) : EngsBut x (y.withReports l) k := h

@[simp] theorem StrandSt.eng_withReports (l : List Report) (k : Nat) : (st.withReports l).eng k = st.eng k := rfl

theorem flagged_undrive {x y : StrandSt} {off i : Nat} (h : Flagged x y off i) (k : Nat) : Flagged x (y.undrive k) off i := h

theorem counted_undrive {x y : StrandSt} {off : Nat} (h : Counted x y off) (k : Nat) : Counted x (y.undrive k) off := h

theorem engsBut_undrive {x y : StrandSt} {k : Nat} (h : EngsBut x y k) (j : Nat) : EngsBut x (y.undrive j) k := h

@[simp] theorem StrandSt.eng_undrive (k : Nat) : (st.undrive n).eng k = st.eng k := rfl

/-- A failure that is clean at the refetch leaves the engine with its clock taken, and the failure noted. -/
theorem fetchRetry_eq : ∃ l, st.fetchRetry n = ((st.clockTaken n).parityNoted n).withReports l := ⟨_, rfl⟩

theorem keeps_fetchRetry : Keeps st (st.fetchRetry n) [.bead, .cnt, .regs] := by
  obtain ⟨l, h⟩ := fetchRetry_eq st n
  rw [h]
  exact keeps_trans (keeps_mono (keeps_clockTaken st n) (by simp))
    (keeps_trans (keeps_mono (keeps_parityNoted _ n) (by simp)) (keeps_mono (keeps_withReports _ l) (by simp)))

theorem flagged_fetchRetry : Flagged st (st.fetchRetry n) (Reg.BEAD_FLAGS n) 7 := by
  obtain ⟨l, h⟩ := fetchRetry_eq st n
  rw [h]
  exact flagged_withReports (flagged_congr (x' := st.clockTaken n) rfl rfl (flagged_parityNoted (st.clockTaken n) n)) l

theorem counted_fetchRetry : Counted st (st.fetchRetry n) (Reg.BEAD_CNT n + 40) := by
  obtain ⟨l, h⟩ := fetchRetry_eq st n
  rw [h]
  exact counted_withReports (counted_congr (x' := st.clockTaken n) rfl (counted_parityNoted (st.clockTaken n) n)) l

theorem engsBut_fetchRetry : EngsBut st (st.fetchRetry n) n := by
  obtain ⟨l, h⟩ := fetchRetry_eq st n
  rw [h]
  exact engsBut_withReports (engsBut_trans (engsBut_clockTaken st n) (engsBut_parityNoted _ n)) l

theorem eng_fetchRetry : (st.fetchRetry n).eng n = clocked st n := by
  obtain ⟨l, h⟩ := fetchRetry_eq st n
  rw [h]
  rw [StrandSt.eng_withReports, StrandSt.eng_parityNoted, StrandSt.eng_clockTaken]

/-- An engine stopped by a word that fails for good. -/
def StrandSt.parityStopped : StrandSt := ((st.wordFailed n).parityNoted n).stopEngine n 5

theorem keeps_parityStopped : Keeps st (st.parityStopped n) [.bead, .cnt, .regs] :=
  keeps_trans (keeps_mono (keeps_updEng st n _) (by simp))
    (keeps_trans (keeps_mono (keeps_parityNoted (st.wordFailed n) n) (by simp)) (keeps_mono (keeps_updEng _ n _) (by simp)))

theorem engsBut_parityStopped : EngsBut st (st.parityStopped n) n :=
  engsBut_trans (engsBut_updEng st n _) (engsBut_trans (engsBut_parityNoted (st.wordFailed n) n) (engsBut_stopEngine _ n 5))

theorem eng_parityStopped : (st.parityStopped n).eng n =
    { clocked st n with
      state := .stopped, stopCause := 5, stopPend := false, dly := 0, stepping := 0, sync := .idle, stamp := none,
      bad := (clocked st n).bad.set false (clocked st n).pc true } := by
  rw [StrandSt.parityStopped, eng_stopEngine, StrandSt.eng_parityNoted, StrandSt.wordFailed, StrandSt.eng_updEng_same]
  rfl

theorem flagged_parityStopped : Flagged st (st.parityStopped n) (Reg.BEAD_FLAGS n) 7 :=
  flagged_congr (x' := st.wordFailed n) (y' := (st.wordFailed n).parityNoted n) rfl rfl (flagged_parityNoted (st.wordFailed n) n)

theorem counted_parityStopped : Counted st (st.parityStopped n) (Reg.BEAD_CNT n + 40) :=
  counted_of_cnt (y' := (st.wordFailed n).parityNoted n) rfl (counted_congr (x' := st.wordFailed n) rfl (counted_parityNoted (st.wordFailed n) n))

/-- The failure also takes the levels from the engine's pins, and is reported. -/
theorem fetchFail_eq : ∃ l, st.fetchFail n = ((st.parityStopped n).undrive n).withReports l := ⟨_, rfl⟩

theorem keeps_fetchFail : Keeps st (st.fetchFail n) [.bead, .bp, .cnt, .regs] := by
  obtain ⟨l, h⟩ := fetchFail_eq st n
  rw [h]
  exact keeps_trans (keeps_mono (keeps_parityStopped st n) (by simp))
    (keeps_trans (keeps_mono (keeps_bp (st.parityStopped n) _) (by simp)) (keeps_mono (keeps_withReports _ l) (by simp)))

theorem flagged_fetchFail : Flagged st (st.fetchFail n) (Reg.BEAD_FLAGS n) 7 := by
  obtain ⟨l, h⟩ := fetchFail_eq st n
  rw [h]
  exact flagged_withReports (flagged_undrive (flagged_parityStopped st n) n) l

theorem counted_fetchFail : Counted st (st.fetchFail n) (Reg.BEAD_CNT n + 40) := by
  obtain ⟨l, h⟩ := fetchFail_eq st n
  rw [h]
  exact counted_withReports (counted_undrive (counted_parityStopped st n) n) l

theorem engsBut_fetchFail : EngsBut st (st.fetchFail n) n := by
  obtain ⟨l, h⟩ := fetchFail_eq st n
  rw [h]
  exact engsBut_withReports (engsBut_undrive (engsBut_parityStopped st n) n) l

theorem eng_fetchFail : (st.fetchFail n).eng n = (st.parityStopped n).eng n := by
  obtain ⟨l, h⟩ := fetchFail_eq st n
  rw [h, StrandSt.eng_withReports, StrandSt.eng_undrive]

end

/-- The pins of engine `n`'s claims are undriven, whatever the order in which they are visited. -/
theorem get_foldl_undrive (own : Nat → Bool) (l : List Nat) (t : Tab (Option Bool)) (p : Nat) :
    (l.foldl (fun t p => if own p then t.set none p none else t) t).get none p = if p ∈ l ∧ own p = true then none else t.get none p := by
  induction l generalizing t with
  | nil => simp
  | cons k l ih =>
    have hstep : (if own k then t.set none k none else t).get none p = if p = k ∧ own p = true then none else t.get none p := by
      by_cases hp : p = k
      · subst hp
        cases own p <;> simp
      · cases own k <;> simp [hp]
    rw [List.foldl_cons, ih, hstep]
    cases hn : own p
    · simp
    · by_cases hp : p = k <;> simp [hp]

/-- A pin that the engine claims shows its safe state afterwards. -/
theorem drv_undrive (st : StrandSt) (n : Nat) {p : Nat} (hp : p < 24) (ho : st.bp.own.get none p = some n) :
    (st.undrive n).bp.drv.get none p = none := by
  refine (get_foldl_undrive (fun p => st.bp.own.get none p == some n) (List.range 24) st.bp.drv p).trans (if_pos ?_)
  simp [hp, ho]

theorem drv_fetchFail (st : StrandSt) (n : Nat) {p : Nat} (hp : p < 24) (ho : st.bp.own.get none p = some n) :
    (st.fetchFail n).bp.drv.get none p = none := by
  obtain ⟨l, h⟩ := fetchFail_eq st n
  rw [h]
  exact drv_undrive (st.parityStopped n) n hp ho

/-- A word that fails for good, at its engine clock. -/
theorem beadRun_fetchFail {d : Dev} {a : BeadAt} (body : Nat → StrandSt → BeadRes) (ha : Active (d.beforeBead a) a.st)
    (hs : (((d.beforeBead a).strand a.st).eng a.n).state ≠ .stopped)
    (hb : a.par.val = 2 ∨ (((d.beforeBead a).strand a.st).eng a.n).bad.get false (((d.beforeBead a).strand a.st).eng a.n).pc = true) :
    d.beadRun a body = (d.beforeBead a).onStrand a.st fun s => s.fetchFail a.n := by
  have hb' : (decide (a.par.val = 2) || (((d.beforeBead a).strand a.st).eng a.n).bad.get false (((d.beforeBead a).strand a.st).eng a.n).pc) = true := by
    simpa using hb
  rw [← Dev.onActive_eq _ _ _ ha]
  simp only [Dev.beadRun, hs, if_false, hb', if_true]

/-- A word that is clean when it is fetched again: it executes in the next cycle. -/
theorem beadRun_fetchRetry {d e : Dev} {a : BeadAt} {body : Nat → StrandSt → BeadRes} (h : AtClock (d.beforeBead a) a) (hp : a.par.val = 1)
    (he : ((d.beforeBead a).onActive a.st fun s => s.fetchRetry a.n).pass 1 = e) (ha : Active e a.st) :
    d.beadRun a body = e.onStrand a.st fun s => s.beadClock a.n a.sse a.ss a.dly (body a.n) := by
  obtain ⟨-, hs, -, -, hbad⟩ := h
  rw [← Dev.onActive_eq _ _ _ ha, ← he]
  simp [Dev.beadRun, hs, hbad, hp]

/-- A NOP at its engine clock leaves its side-set, one instruction counted, and the engine retired. -/
theorem beadClock_nop {st : StrandSt} {a : BeadAt} (hst : (st.eng a.n).state ≠ .stopped) (hs : (st.eng a.n).stepping = 0) :
    st.beadClock a.n a.sse a.ss a.dly beadNop = (st.clockTaken a.n).finish a.n (sidePins (st.clockTaken a.n) a) (nextPc (clocked st a.n)) a.dly := by
  rw [beadClock_done (body := beadNop) hst hs rfl (by rw [StrandSt.eng_clockTaken]; rfl), sideSet_eq]
  rfl

theorem onActive_fetchRetry {d : Dev} {i : StrandId} (ha : Active d i) (n : Nat) :
    Only d (d.onActive i fun p => p.fetchRetry n) i [.bead, .cnt, .regs] ∧
      (d.onActive i fun p => p.fetchRetry n).strand i = ((view d i).fetchRetry n).clean := by
  rw [Dev.onActive_eq _ _ _ ha]
  exact onStrand_leaves rfl (keeps_fetchRetry (view d i) n)

/-- A NOP whose word is clean at the refetch. -/
theorem ends_nop_retried {s : State} {a : BeadAt} {e : Dev} (h : AtClock (s.dev.beforeBead a) a) (hp : a.par.val = 1)
    (he : ((s.dev.beforeBead a).onActive a.st fun p => p.fetchRetry a.n).pass 1 = e) (h1 : AtClock e a) :
    Ends (.nop a) s fun e' => Only e e' a.st [.bead, .bp, .cnt] ∧
      (e'.strand a.st).eng a.n = retired (clocked (e.strand a.st) a.n) (nextPc (clocked (e.strand a.st) a.n)) a.dly := by
  obtain ⟨ha, hst, -, hstep, -⟩ := h1
  let st := view e a.st
  obtain ⟨ho, hs⟩ := onStrand_leaves (d := e) (i := a.st) (g := fun s => s.beadClock a.n a.sse a.ss a.dly beadNop) (beadClock_nop (st := st) hst hstep)
    (keeps_trans (keeps_mono (keeps_clockTaken st a.n) (by simp)) (keeps_finish (st.clockTaken a.n) a.n _ _ a.dly))
  refine ⟨e.onStrand a.st fun s => s.beadClock a.n a.sse a.ss a.dly beadNop, ?_, ho, ?_⟩
  · exact congrArg (fun x : Dev => Host.Outcome.next { s with dev := x.after s.dev }) (beadRun_fetchRetry (body := fun _ => beadNop) h hp he ha)
  · rw [hs, StrandSt.eng_clean, eng_finish, StrandSt.eng_clockTaken]
    rfl

/-- A NOP whose word fails for good. -/
theorem ends_nop_failed {s : State} {a : BeadAt} {P : Dev → Prop} (ha : Active (s.dev.beforeBead a) a.st)
    (hs : (clocked (view (s.dev.beforeBead a) a.st) a.n).state ≠ .stopped)
    (hb : a.par.val = 2 ∨
      (clocked (view (s.dev.beforeBead a) a.st) a.n).bad.get false (clocked (view (s.dev.beforeBead a) a.st) a.n).pc = true)
    (hP : ∀ e, Only (s.dev.beforeBead a) e a.st [.bead, .bp, .cnt, .regs] →
      e.strand a.st = ((view (s.dev.beforeBead a) a.st).fetchFail a.n).clean → P e) : Ends (.nop a) s P := by
  obtain ⟨ho, he⟩ := onStrand_leaves (d := s.dev.beforeBead a) (i := a.st) (g := fun p => p.fetchFail a.n) rfl (keeps_fetchFail _ a.n)
  refine ⟨(s.dev.beforeBead a).onStrand a.st fun p => p.fetchFail a.n, ?_, hP _ ho he⟩
  exact congrArg (fun x : Dev => Host.Outcome.next { s with dev := x.after s.dev }) (beadRun_fetchFail (fun _ => beadNop) ha hs hb)

/-- Settles O7: each instruction by its outcome, and a failed word by whether it is clean at the refetch. -/
theorem beadFlow : Obligations.BeadFlow := by
  unfold Obligations.BeadFlow
  intro s a reg t c d st x v
  refine ⟨fun hat hp => ⟨?_, ?_, ?_, fun h15 hc => ?_, fun hc => ?_⟩, fun hat hp => ?_, fun ha hs hb => ?_⟩
  · exact completes_of_nop (body := fun _ => beadNop) rfl hat hp rfl
  · exact completes_of_done (body := fun n => beadIrq n) rfl hat hp rfl (((BeadEffect.clock st a.n).mono (by simp)).flag 10 (by simp)) rfl
      fun q hq => flagged_congr (x' := st) rfl hq.symm (flagged_flag (st.clockTaken a.n) _ 10)
  · have h := completes_of_upd (c := .cnt a reg t) (body := fun n => beadCnt n reg t) rfl hat hp (fun y => y.state_cntWrite reg v) (beadCnt_eq st a.n reg t)
    have hpc : (if v = 0 then none else some t.val).getD (nextPc x) = if v = 0 then nextPc x else t := by split <;> rfl
    rwa [hpc] at h
  · have h := completes_of_done (c := .jmp a c t) (body := fun n => beadJmp n c t) rfl hat hp (beadJmp_holds st a.n t h15 hc) (BeadEffect.clock st a.n) rfl
      (Q := fun _ _ => True) fun _ _ => trivial
    have hpc : (if jmpHolds a.n c st then some t.val else none).getD (nextPc x) = if jmpHolds a.n c st then t.val else nextPc x := by split <;> rfl
    rwa [hpc] at h
  · exact completes_of_nop (body := fun n => beadJmp n c t) rfl hat hp (beadJmp_reserved _ a.n t hc)
  · intro e1
    obtain ⟨ha, -⟩ := id hat
    obtain ⟨ho, he⟩ : Only d e1 a.st _ ∧ e1.strand a.st = _ := onActive_fetchRetry ha a.n
    refine ⟨ho, ?_, ?_, fun hat1 => ends_nop_retried hat hp rfl hat1⟩
    · dsimp only
      rw [he]
      exact ⟨flagged_clean (flagged_fetchRetry st a.n), counted_clean (counted_fetchRetry st a.n), engsBut_clean (engsBut_fetchRetry st a.n)⟩
    · rw [he]
      exact eng_fetchRetry st a.n
  · refine ends_nop_failed ha hs hb fun e ho he => ⟨ho, ?_⟩
    dsimp only
    rw [he]
    exact ⟨⟨flagged_clean (flagged_fetchFail st a.n), counted_clean (counted_fetchFail st a.n), engsBut_clean (engsBut_fetchFail st a.n)⟩,
      (eng_fetchFail st a.n).trans (eng_parityStopped st a.n), fun p => drv_fetchFail st a.n⟩

end Sys2Proof.Machine
end

section
/-! Bead engines: STAMP and EDIT. -/

namespace Sys2Proof.Machine

/-! ## Instructions that have done something before they block, or that reach beyond the engine -/

section
variable {c : Instr} {s : State} {a : BeadAt} {body : Nat → StrandSt → BeadRes}
  (hx : exec c s = .next (s.run fun d => d.beadRun a body)) (h : AtClock (s.dev.beforeBead a) a) (hp : a.par.val = 0)
include hx h hp

/-- An instruction that begins to stall after a change of its engine (R70). -/
theorem blocks_of_stall_upd {cause off : Nat} {f : Engine → Engine} (hoff : Reg.BEAD_CNT a.n + 8 * (1 + cause) = off)
    (hr : (clocked (view (s.dev.beforeBead a) a.st) a.n).state = .running)
    (hb : body a.n ((view (s.dev.beforeBead a) a.st).clockTaken a.n) = .stall (((view (s.dev.beforeBead a) a.st).clockTaken a.n).updEng a.n f) cause) :
    Blocks c s a { f (clocked (view (s.dev.beforeBead a) a.st) a.n) with state := .stalled, stallCause := cause } [.regs, .cnt]
      (fun p r => Flagged p r (Reg.BEAD_FLAGS a.n) 12 ∧ Counted p r off) := by
  let st := view (s.dev.beforeBead a) a.st
  let t := (st.clockTaken a.n).updEng a.n f
  have hk : Keeps st t [.bead] := keeps_trans (keeps_clockTaken st a.n) (keeps_updEng _ a.n f)
  have hengs : EngsBut st t a.n := engsBut_trans (engsBut_clockTaken st a.n) (engsBut_updEng _ a.n f)
  have heng : t.eng a.n = f (clocked st a.n) := by rw [StrandSt.eng_updEng_same, StrandSt.eng_clockTaken]
  have hc := beadClock_stall (st := st) (sse := a.sse) (ss := a.ss) (dly := a.dly) hr hb
  rw [hoff] at hc
  refine ends_bead hx h hp hc (keeps_trans (keeps_mono hk (by simp)) (keeps_beginStall _ _ _ _)) fun e ho hs => ?_
  rw [hs]
  refine ⟨ho, engsBut_clean (engsBut_trans hengs (engsBut_beginStall t a.n cause off)), ?_,
    flagged_congr (x' := t) rfl rfl (flagged_clean (flagged_beginStall t a.n cause off)),
    counted_congr (x' := t) rfl (counted_clean (counted_beginStall t a.n cause off))⟩
  rw [StrandSt.eng_clean, eng_beginStall, heng]

/-- An instruction that completes, where more than its engine and its pins may have changed. -/
theorem ends_of_done {t : StrandSt} {y : Engine} {but : List Part}
    (hb : body a.n ((view (s.dev.beforeBead a) a.st).clockTaken a.n) = .done t none)
    (hk : Keeps (view (s.dev.beforeBead a) a.st) t (.bead :: .bp :: .cnt :: but)) (he : EngsBut (view (s.dev.beforeBead a) a.st) t a.n)
    (heng : t.eng a.n = y) (hy : y.state = (clocked (view (s.dev.beforeBead a) a.st) a.n).state) :
    Ends c s fun e => Only (s.dev.beforeBead a) e a.st (.bead :: .bp :: .cnt :: but) ∧
      EngsBut ((s.dev.beforeBead a).strand a.st) (e.strand a.st) a.n ∧
      (e.strand a.st).eng a.n = retired y (nextPc (clocked (view (s.dev.beforeBead a) a.st) a.n)) a.dly := by
  obtain ⟨-, hst, -, hstep, -⟩ := id h
  let st := view (s.dev.beforeBead a) a.st
  have hc := beadClock_done (st := st) (sse := a.sse) (ss := a.ss) (dly := a.dly) hst hstep hb (by rw [heng, hy]; rfl)
  rw [sideSet_eq] at hc
  let u := t.finish a.n (sidePins t a) (nextPc (clocked st a.n)) a.dly
  refine ends_bead hx h hp (t := u) hc (keeps_trans hk (keeps_mono (keeps_finish t a.n _ _ a.dly) (by simp))) fun e ho hs => ⟨ho, ?_, ?_⟩
  · rw [hs]
    exact engsBut_clean (engsBut_trans he (engsBut_finish t a.n _ _ a.dly))
  · rw [hs, StrandSt.eng_clean, eng_finish, heng]

end

/-! ## The outcomes of STAMP (R101) -/

section
variable (st : StrandSt) (n adj : Nat) (nosec ang : Bool) (trk : Nat)

/-- An engine's taking of its clock does not change the words that a STAMP captures. -/
theorem stampWords_clockTaken : stampWords n adj nosec ang trk (st.clockTaken n) = stampWords n adj nosec ang trk st := rfl

variable {st n adj nosec ang trk}

theorem beadStamp_reserved (h : adj = 3) : beadStamp n adj nosec ang trk st = .done st none := if_pos h

theorem beadStamp_noQueue (h : adj ≠ 3) (hd : st.rxDepth n = 0) : beadStamp n adj nosec ang trk (st.clockTaken n) = .noQueue (st.clockTaken n) := by
  have hd' : (st.clockTaken n).rxDepth n = 0 := hd
  simp [beadStamp, h, hd']

/-- A STAMP without room keeps its words. -/
theorem beadStamp_full (h : adj ≠ 3) (hd : st.rxDepth n ≠ 0) (hs : (clocked st n).stamp = none)
    (hq : st.rxDepth n < (clocked st n).rxq.length + (stampWords n adj nosec ang trk st).length) :
    beadStamp n adj nosec ang trk (st.clockTaken n) =
      .stall ((st.clockTaken n).updEng n fun e => { e with stamp := some (stampWords n adj nosec ang trk st) }) 2 := by
  have hd' : (st.clockTaken n).rxDepth n = st.rxDepth n := rfl
  simp [beadStamp, h, hd', hd, hs, stampWords_clockTaken, hq]

/-- A STAMP with room appends its words. -/
theorem beadStamp_room (h : adj ≠ 3) (hd : st.rxDepth n ≠ 0) (hs : (clocked st n).stamp = none)
    (hq : (clocked st n).rxq.length + (stampWords n adj nosec ang trk st).length ≤ st.rxDepth n) :
    ∃ t, beadStamp n adj nosec ang trk (st.clockTaken n) = .done t none ∧
      BeadEffect st t n { clocked st n with
        rxq := (clocked st n).rxq ++ (stampWords n adj nosec ang trk st).map fun w => { word := w, ready := st.now + 1 } } [] [.regs] ∧
      RegsBut st t [Reg.BEAD_FLAGS n] := by
  let ws := stampWords n adj nosec ang trk st
  obtain ⟨thr, ht⟩ := rxAppend_eq (st.clockTaken n) n ws
  have hd' : (st.clockTaken n).rxDepth n = st.rxDepth n := rfl
  refine ⟨(st.clockTaken n).rxAppend n ws, ?_, ?_, ?_⟩
  · simp [beadStamp, h, hd', hd, hs, stampWords_clockTaken, not_lt.mpr hq, ws]
  · rw [ht]
    exact ((BeadEffect.clock st n).mono (by simp)).queueStep _ thr (by simp)
  · rw [ht]
    exact regsBut_queueStep (st.clockTaken n) n _ thr

end

/-! ## The outcomes of EDIT (R102, R103, R141) -/

theorem keeps_setChan (st : StrandSt) (p : Fin 4) (x : PtChan) : Keeps st (st.setChan p x) [.pt] := by
  intro q _ hq
  cases q with
  | pt => simp at hq
  | _ => rfl

/-- An edit that is armed, or discarded, changes its channel, or flags and counters (R103). -/
theorem keeps_armEdit (st : StrandSt) (p : Fin 4) (x : LaneEdit) : Keeps st (st.armEdit p x) [.cnt, .regs, .pt] := by
  have hchan (y : PtChan) : Keeps st (st.setChan p y) [.cnt, .regs, .pt] := keeps_mono (keeps_setChan st p y) (by simp)
  have hlost (i k : Nat) : Keeps st ((st.flag (Reg.PT_FLAGS p) i).inc k) [.cnt, .regs, .pt] :=
    keeps_trans (keeps_mono (keeps_flag st _ i) (by simp)) (keeps_mono (keeps_inc _ k) (by simp))
  unfold StrandSt.armEdit
  extract_lets ch
  split
  · exact hlost 4 _
  · split
    · exact hchan _
    · split
      · exact hlost 3 _
      · exact hchan _

/-- No engine is changed with it. -/
theorem eng_armEdit (st : StrandSt) (p : Fin 4) (x : LaneEdit) (k : Nat) : (st.armEdit p x).eng k = st.eng k := by
  have h : (st.armEdit p x).bead = st.bead := keeps_armEdit st p x .bead (by simp [Part.all]) (by simp)
  rw [StrandSt.eng, StrandSt.eng, h]

/-- An engine that has given `k` bits of OSR to an edit (R102). -/
def Engine.editTaken (x : Engine) (dir : Bool) (k : Nat) : Engine :=
  { x with osr := if dir then x.osr <<< k else x.osr >>> k, osrCnt := min 32 (x.osrCnt + k) }

section
variable {st : StrandSt} {n : Nat}

theorem ofNat_outLane (st : StrandSt) (n : Nat) : (Fin.ofNat 4 (st.outLane n)).val = st.outLane n := Nat.mod_mod _ _

@[simp] theorem StrandSt.outKind_clockTaken (st : StrandSt) (n m : Nat) : (st.clockTaken n).outKind m = st.outKind m := rfl

@[simp] theorem StrandSt.outLane_clockTaken (st : StrandSt) (n m : Nat) : (st.clockTaken n).outLane m = st.outLane m := rfl

theorem beadEdit_physical {offx : Bool} {len ofs : Nat} (h : st.outKind n = false) : beadEdit n offx len ofs st = .done st none :=
  if_pos (by rw [h]; rfl)

/-- The correction that an X offset asks for takes nothing from OSR. -/
theorem beadEdit_correct {len ofs : Nat} (h : st.outKind n = true) (hx : bitN (clocked st n).x.toNat 15 = true)
    (ht : st.bit (Reg.PT_STATUS (st.outLane n)) 4 = true) :
    beadEdit n true len ofs (st.clockTaken n) =
      .done ((st.clockTaken n).armEdit (Fin.ofNat 4 (st.outLane n)) (.correct ((clocked st n).x.toNat % 2 ^ 14))) none := by
  simp only [beadEdit, StrandSt.outKind_clockTaken, StrandSt.outLane_clockTaken, StrandSt.eng_clockTaken, StrandSt.bit_clockTaken, ofNat_outLane, h, hx, ht]
  rfl

/-- Any other edit takes its octets from OSR. -/
theorem beadEdit_replace {offx : Bool} {len ofs : Nat} (h : st.outKind n = true)
    (hc : (offx && bitN (clocked st n).x.toNat 15 && st.bit (Reg.PT_STATUS (st.outLane n)) 4) = false) :
    beadEdit n offx len ofs (st.clockTaken n) =
      .done (((st.clockTaken n).updEng n fun x => x.editTaken (st.osrDir n) (8 * (len + 1))).armEdit (Fin.ofNat 4 (st.outLane n))
        (.replace (if offx then (clocked st n).x.toNat else ofs) (editBytes (st.osrDir n) (clocked st n).osr (clocked st n).osrCnt (len + 1)).1)) none := by
  simp only [beadEdit, StrandSt.outKind_clockTaken, StrandSt.outLane_clockTaken, StrandSt.eng_clockTaken, StrandSt.bit_clockTaken,
    StrandSt.osrDir_clockTaken, ofNat_outLane, h, hc]
  simp only [StrandSt.updEng, StrandSt.eng_clockTaken]
  rfl

end

/-- Settles O13: STAMP by the queue's room, EDIT by the output group's kind and the correction. -/
theorem beadStampAndEdit : Obligations.BeadStampAndEdit := by
  unfold Obligations.BeadStampAndEdit
  intro s a adj nosec ang trk len ofs hat hp st x edits ws k shifted st0
  have hstamp : exec (.stamp a adj nosec ang trk) s = .next (s.run fun d => d.beadRun a fun n => beadStamp n adj nosec ang trk) := rfl
  have hedit (offx : Bool) : exec (.edit a offx len ofs) s = .next (s.run fun d => d.beadRun a fun n => beadEdit n offx len ofs.toNat) := rfl
  refine ⟨fun h3 => ?_, fun h3 => ⟨fun hd => ?_, fun hd hs hq => ?_, fun hd hs hq hr => ?_⟩, fun ho => ⟨?_, ?_⟩, fun ho => ?_⟩
  · exact completes_of_nop hstamp hat hp (beadStamp_reserved h3)
  · exact blocks_of_noQueue hstamp hat hp (beadStamp_noQueue h3 hd)
  · obtain ⟨t, hb, he, hregs⟩ := beadStamp_room (st := st) (n := a.n) h3 hd hs hq
    exact completes_of_done hstamp hat hp hb he rfl fun q hqr => regsBut_congr (x' := st) rfl hqr.symm hregs
  · exact blocks_of_stall_upd hstamp hat hp rfl hr (beadStamp_full (st := st) (n := a.n) h3 hd hs hq)
  · exact completes_of_nop (hedit false) hat hp (beadEdit_physical ho)
  · exact completes_of_nop (hedit true) hat hp (beadEdit_physical ho)
  · intro tc
    have htaken (offx : Bool) (hc : (offx && bitN x.x.toNat 15 && tc) = false) : edits offx shifted := by
      have he := (BeadEffect.clock st a.n).upd fun y => y.editTaken (st.osrDir a.n) k
      exact ends_of_done (hedit offx) hat hp (beadEdit_replace ho hc)
        (keeps_trans (keeps_mono he.keeps (by simp)) (keeps_mono (keeps_armEdit _ _ _) (by simp)))
        (engsBut_trans he.engs fun j _ => eng_armEdit _ _ _ j) ((eng_armEdit _ _ _ a.n).trans he.eng) rfl
    refine ⟨htaken false rfl, fun hc => htaken true ?_, fun hx ht => ?_⟩
    · rcases hc with hc | hc <;> simp [hc]
    · exact ends_of_done (hedit true) hat hp (beadEdit_correct ho hx ht)
        (keeps_trans (keeps_mono (keeps_clockTaken st a.n) (by simp)) (keeps_mono (keeps_armEdit _ _ _) (by simp)))
        (engsBut_trans (engsBut_clockTaken st a.n) fun j _ => eng_armEdit _ _ _ j) ((eng_armEdit _ _ _ a.n).trans (st.eng_clockTaken a.n)) rfl

end Sys2Proof.Machine
end

section
/-! MDIO_DONE before its time, in a strand in which an output still waits. -/

namespace Sys2Proof.Machine

/-- A strand with an MDIO frame in progress, whose output has not been taken out of it. -/
def mdioWaits : StrandSt := { regs := ({} : Tab Word).set 0 Reg.MDIO_STAT (BitVec.ofNat 32 (2 ^ 31)), outs := [.mdio 0] }

/-- A sleeping device with that strand. -/
def outputWaits : State := { dev := { sup := Quad.all { phase := .run }, strands := ⟨mdioWaits, {}, {}, {}⟩ } }

theorem asleep_outputWaits : Asleep (later outputWaits 0) where
  mode := rfl
  base := rfl
  lkt := rfl
  quiet i := by fin_cases i <;> exact ⟨rfl, rfl, rfl, by decide⟩

/-- A device that differs from a sleeping one in its Clasp and outputs alone sleeps too. -/
theorem Asleep.devKeeps {d e : Dev} (h : Asleep d) (hk : DevKeeps d e []) : Asleep e := by
  obtain ⟨hmode, hbase, -⟩ := hk .mode (by simp [DPart.all]) (by simp)
  have hlkt : e.lkt = d.lkt := hk .lkt (by simp [DPart.all]) (by simp)
  have hs : e.strands = d.strands := hk .strands (by simp [DPart.all]) (by simp)
  refine ⟨hmode.trans h.mode, hbase.trans h.base, hlkt.trans h.lkt, fun i => ?_⟩
  rw [Dev.strand, hs]
  exact h.quiet i

/-- A frame that has not had its time goes on. -/
theorem mdioDone_early {st : StrandSt} (h : st.env.ns < (st.port 0).mdioAt + st.mdioTime) (ack : Bool) (data : Nat) : st.mdioDone ack data = st := by
  simp [StrandSt.mdioDone, h]

theorem onClocked_of_active {d : Dev} {i : StrandId} (h : Active d i) (g : StrandSt → StrandSt) : d.onClocked i g = d.onStrand i g := by
  unfold Dev.onClocked
  rcases h with h | h <;> simp [h]

/-- Refutes O26: an MDIO_DONE before the end of its frame changes nothing in its strand's units, but as every command does it takes out of the strand
what the strand still holds of an earlier one.  A state that holds an output there (none is left by a command) does not keep its strands, as the clause on
that MDIO_DONE says. -/
theorem not_portManagement : ¬ Obligations.PortManagement := by
  unfold Obligations.PortManagement
  intro h
  obtain ⟨-, -, hearly, -⟩ := h outputWaits 0 (.core 0) 0 0 false false false false 0 0 0 0
  have hrun : Active (later outputWaits 0) 0 := .inl rfl
  obtain ⟨e, he, hk⟩ := ends_after (c := .mdioDone 0 0 false 0) rfl (hearly (.inl hrun) (by decide) (by decide))
  have hkept : (e.strand 0).outs = [.mdio 0] := by
    have hs : e.strands = (later outputWaits 0).strands := hk .strands (by simp [DPart.all]) (by simp)
    rw [Dev.strand, hs]
    rfl
  rw [onClocked_of_active hrun] at he
  obtain ⟨ho, hclean⟩ := onStrand_leaves (d := later outputWaits 0) (i := 0) (g := fun st => st.mdioDone false (0 : BitVec 16).toNat)
    (mdioDone_early (st := view (later outputWaits 0) 0) (by decide) false _) (keeps_refl _ [])
  have htaken : ((e.after outputWaits.dev).strand 0).outs = [] := by
    rw [← he, strand_after_asleep (asleep_outputWaits.only ho (by simp) (by simp)), hclean]
    rfl
  rw [strand_after_asleep (asleep_outputWaits.devKeeps hk), hkept] at htaken
  exact absurd htaken (by decide)

end Sys2Proof.Machine
end

section
/-! Ports: what the operations on a port's registers, counters and frames in reception change, and what they keep. -/

namespace Sys2Proof.Machine

/-! ## A unit's event in an active strand -/

/-- An event of a unit of an active strand ends with the strand `t` that its operation leaves. -/
theorem ends_onActive {c : Instr} {s : State} {dt : Nat} {i : StrandId} {g : StrandSt → StrandSt} {t : StrandSt} {but : List Part} {P : Dev → Prop}
    (hx : exec c s = .next (s.runAt dt fun d => d.onActive i g)) (ha : Active (later s dt) i) (ht : g (view (later s dt) i) = t)
    (hk : Keeps (view (later s dt) i) t but) (hP : ∀ e, Only (later s dt) e i but → e.strand i = t.clean → P e) : Ends c s P := by
  refine ends_runAt hx ?_
  rw [Dev.onActive_eq _ _ _ ha]
  obtain ⟨ho, he⟩ := onStrand_leaves (d := later s dt) (i := i) (g := g) ht hk
  exact hP _ ho he

theorem envOf_active {d : Dev} {i : StrandId} (ha : Active d i) : (view d i).env.active = true := by
  rcases ha with h | h <;> simp [view, Dev.envOf, h]

theorem envOf_run {d : Dev} {i : StrandId} (h : d.phase i = .run) : (view d i).env.hold = false := by
  simp [view, Dev.envOf, h]

/-! ## Counters -/

theorem keeps_addCnt (st : StrandSt) (off n : Nat) : Keeps st (st.addCnt off n) [.cnt] := by
  intro p _ hp
  cases p with
  | cnt => simp at hp
  | _ => rfl

theorem counter_addCnt_same (st : StrandSt) (off n : Nat) : (st.addCnt off n).counter off = min counterMax (st.counter off + n) :=
  Tab.get_set_same _ _ _ _

theorem counter_addCnt_ne (st : StrandSt) {off k : Nat} (n : Nat) (h : k ≠ off) : (st.addCnt off n).counter k = st.counter k :=
  Tab.get_set_ne _ _ _ h

theorem cntsBut_addCnt (st : StrandSt) (off n : Nat) : CntsBut st (st.addCnt off n) [off] :=
  fun _ hk => counter_addCnt_ne st n (by simpa using hk)

theorem counter_inc_same (st : StrandSt) (off : Nat) : (st.inc off).counter off = min counterMax (st.counter off + 1) := counter_addCnt_same st off 1

theorem counter_inc_ne (st : StrandSt) {off k : Nat} (h : k ≠ off) : (st.inc off).counter k = st.counter k := counter_addCnt_ne st 1 h

theorem cntsBut_refl (st : StrandSt) (l : List Nat) : CntsBut st st l := fun _ _ => rfl

theorem cntsBut_trans {x y z : StrandSt} {l : List Nat} (h : CntsBut x y l) (h' : CntsBut y z l) : CntsBut x z l :=
  fun k hk => (h' k hk).trans (h k hk)

theorem cntsBut_mono {x y : StrandSt} {l l' : List Nat} (h : CntsBut x y l) (hl : l ⊆ l') : CntsBut x y l' := fun k hk => h k fun hm => hk (hl hm)

/-- Two counters of one unit, one after the other. -/
theorem cntsBut_append {x y z : StrandSt} {l l' : List Nat} (h : CntsBut x y l) (h' : CntsBut y z l') : CntsBut x z (l ++ l') :=
  cntsBut_trans (cntsBut_mono h (by simp)) (cntsBut_mono h' (by simp))

/-! ## Ports and registers -/

theorem StrandSt.port_setPort_ne (st : StrandSt) {p b : Fin 4} (x : Port) (h : b ≠ p) : (st.setPort p x).port b = st.port b := Quad.get_set_ne _ _ h

theorem keeps_setPort (st : StrandSt) (p : Fin 4) (x : Port) : Keeps st (st.setPort p x) [.ports] := by
  intro q _ hq
  cases q with
  | ports => simp at hq
  | _ => rfl

theorem StrandSt.chan_setChan_ne (st : StrandSt) {p b : Fin 4} (x : PtChan) (h : b ≠ p) : (st.setChan p x).chan b = st.chan b := Quad.get_set_ne _ _ h

theorem StrandSt.rd_flag_ne (st : StrandSt) {off k : Nat} (i : Nat) (h : k ≠ off) : (st.flag off i).rd k = st.rd k := st.rd_wr_ne _ h

/-- A field reads as it was last written. -/
theorem fieldOf_setField_same (w : Word) (v : Nat) {hi lo : Nat} (hl : lo ≤ hi) (hh : hi < 32) :
    fieldOf (setField w hi lo v) hi lo = v % 2 ^ (hi + 1 - lo) := by
  obtain ⟨k, rfl⟩ := Nat.exists_eq_add_of_le hl
  have hk : lo + k + 1 - lo = k + 1 := by omega
  have hword : 2 ^ 32 = 2 ^ lo * 2 ^ (32 - lo) := by rw [← pow_add]; congr 1; omega
  have hdvd : 2 ^ (k + 1) ∣ 2 ^ (32 - lo) := pow_dvd_pow 2 (by omega)
  have hrest (a : Nat) : a - a % 2 ^ (k + 1) = 2 ^ (k + 1) * (a / 2 ^ (k + 1)) := Nat.sub_eq_of_eq_add (Nat.div_add_mod _ _).symm
  simp only [fieldOf, setField, putN, bitsN, hk, Nat.shiftLeft_eq, Nat.shiftRight_eq_div_pow, BitVec.toNat_ofNat]
  rw [hword, Nat.mod_mul_right_div_self, Nat.mod_mod_of_dvd _ hdvd, Nat.add_mul_div_right _ _ (Nat.two_pow_pos lo), Nat.mul_comm _ (2 ^ lo),
    Nat.sub_mul_div, hrest, Nat.mul_add_mod, Nat.mod_mod]

/-! ## Flow control toward the peer (R156) -/

/-- What the comparison with XOFF and XON and the flow-control frame it sends may change. -/
structure FcEffect (x y : StrandSt) (p : Fin 4) : Prop where
  keeps : Keeps x y [.regs, .cnt, .ports]
  regs : RegsBut x y [Reg.SW_IN_STAT p]
  cnts : CntsBut x y [Reg.SW_UCNT + 8 * (4 + p.val)]
  rx : (y.port p).rx = (x.port p).rx

theorem FcEffect.refl (x : StrandSt) (p : Fin 4) : FcEffect x x p := ⟨keeps_refl _ _, regsBut_refl _ _, cntsBut_refl _ _, rfl⟩

theorem FcEffect.trans {x y z : StrandSt} {p : Fin 4} (h : FcEffect x y p) (h' : FcEffect y z p) : FcEffect x z p :=
  ⟨keeps_trans h.keeps h'.keeps, regsBut_trans h.regs h'.regs, cntsBut_trans h.cnts h'.cnts, h'.rx.trans h.rx⟩

/-- A change of the port beside its reception, before such an effect. -/
theorem FcEffect.of_setPort {st z : StrandSt} {p : Fin 4} {x : Port} (h : FcEffect (st.setPort p x) z p) (hx : x.rx = (st.port p).rx) :
    FcEffect st z p :=
  .trans ⟨keeps_mono (keeps_setPort _ _ _) (by simp), regsBut_refl st _, cntsBut_refl st _, by rw [StrandSt.port_setPort_same, hx]⟩ h

theorem FcEffect.count (st : StrandSt) (p : Fin 4) : FcEffect st (st.inc (Reg.SW_UCNT + 8 * (4 + p.val))) p :=
  ⟨keeps_mono (keeps_inc _ _) (by simp), regsBut_refl st _, (counted_inc st _).2, rfl⟩

theorem FcEffect.putBit (st : StrandSt) (p : Fin 4) (k : Nat) (b : Bool) : FcEffect st (st.putBit (Reg.SW_IN_STAT p) k b) p :=
  ⟨keeps_mono (keeps_wr _ _ _) (by simp), regsBut_wr _ _ _, cntsBut_refl st _, rfl⟩

theorem fcGo_effect (st : StrandSt) (p : Fin 4) : FcEffect st (st.fcGo p) p := by
  unfold StrandSt.fcGo
  split
  · exact .refl st p
  · split
    · exact .refl st p
    · exact FcEffect.of_setPort (.count _ p) rfl

theorem sendFc_effect (st : StrandSt) (p : Fin 4) (c quanta : Nat) : FcEffect st (st.sendFc p c quanta) p := by
  unfold StrandSt.sendFc
  split
  · exact .refl st p
  · exact FcEffect.of_setPort (fcGo_effect _ p) rfl

theorem fcCheck_effect (st : StrandSt) (p : Fin 4) (c : Nat) : FcEffect st (st.fcCheck p c) p := by
  unfold StrandSt.fcCheck
  extract_lets m bitAt n k on
  split
  · exact .refl st p
  · split
    · exact (FcEffect.putBit st p _ _).trans (sendFc_effect _ p _ _)
    · split
      · exact (FcEffect.putBit st p _ _).trans (sendFc_effect _ p _ _)
      · exact .refl st p

/-! ## The end of a reception (R112, R152) -/

/-- A reception on port `p` is over and its cells are back; nothing else that a frame's end looks at has changed. -/
structure RxOver (x y : StrandSt) (p : Fin 4) : Prop where
  rx : (y.port p).rx = none
  now : y.now = x.now
  queues : y.sw.queues = x.sw.queues
  frames : y.sw.frames = x.sw.frames
  regs : RegsBut x y [Reg.SW_IN_STAT p]
  cnts : CntsBut x y [Reg.SW_UCNT + 8 * (4 + p.val)]

theorem rxClear_over {st : StrandSt} {p : Fin 4} {r : MacRx} (h : (st.port p).rx = some r) : RxOver st (st.rxClear p) p := by
  unfold StrandSt.rxClear
  rw [h]
  dsimp only
  split
  · next f _ =>
    obtain ⟨hk, hr, hc, hx⟩ := fcCheck_effect ((st.setPort p { st.port p with rx := none }).charge p f.2 (-((r.own + r.shared : Nat) : Int))) p f.2
    have hsw : _ = _ := hk .sw (by simp [Part.all]) (by simp)
    refine ⟨hx.trans ?_, hk .now (by simp [Part.all]) (by simp), (congrArg Switch.queues hsw).trans rfl, (congrArg Switch.frames hsw).trans rfl, hr, hc⟩
    exact congrArg Port.rx (st.port_setPort_same p _)
  · exact ⟨by rw [StrandSt.port_setPort_same], rfl, rfl, rfl, regsBut_refl st _, cntsBut_refl st _⟩

section
variable {x y : StrandSt} {p : Fin 4} (h : RxOver x y p)
include h

theorem RxOver.rd_mac {off : Nat} (ho : off < 0x30100) : y.rd off = x.rd off :=
  h.regs off (by simp only [List.mem_singleton, Reg.SW_IN_STAT]; omega)

theorem RxOver.counter_mac {off : Nat} (ho : off < 0x3a000) : y.counter off = x.counter off :=
  h.cnts off (by simp only [List.mem_singleton, Reg.SW_UCNT]; omega)

theorem RxOver.maxLen : y.maxLen p = x.maxLen p := by
  rw [StrandSt.maxLen, StrandSt.fld, h.rd_mac (by simp only [Reg.MAC_MAXLEN]; omega)]; rfl

theorem RxOver.rd_ctl : y.rd (Reg.MAC_CTL p) = x.rd (Reg.MAC_CTL p) := h.rd_mac (by simp only [Reg.MAC_CTL]; omega)

theorem RxOver.speedAct : y.speedAct p = x.speedAct p := by
  rw [StrandSt.speedAct, StrandSt.fld, h.rd_mac (by simp only [Reg.MAC_STATUS]; omega)]; rfl

end

/-- A frame that came whole, without symbol error, and of a length that its port takes (R112). -/
def WellSent (w : RxWire) (maxLen : Nat) : Prop :=
  w.symErr = false ∧ w.linkLost = false ∧ 64 ≤ w.bytes.length + 4 ∧ w.bytes.length + 4 ≤ maxLen

/-- The FCS alone is left to be wrong with it. -/
theorem rxError_wellSent {w : RxWire} {n : Nat} (h : WellSent w n) : rxError n w = if w.fcsBad then some 2 else none := by
  obtain ⟨hs, hl, hmin, hmax⟩ := h
  simp [rxError, hs, hl, Nat.not_lt.2 hmin, Nat.not_lt.2 hmax]

section
variable {st : StrandSt} {p : Fin 4} {w : RxWire}

theorem rxErrors_fcsBad (h : WellSent w (st.maxLen p)) (hb : w.fcsBad = true) :
    st.rxErrors p w = (st.flag (Reg.MAC_FLAGS p) 1).inc (Reg.MAC_CNT p + 8 * 2) := by
  have hm : (st.flag (Reg.MAC_FLAGS p) 1).maxLen p = st.maxLen p := by
    rw [StrandSt.maxLen, StrandSt.fld, st.rd_flag_ne 1 (by simp only [Reg.MAC_MAXLEN, Reg.MAC_FLAGS]; omega)]
    rfl
  obtain ⟨-, hl, -, hmax⟩ := id h
  simp [StrandSt.rxErrors, Nat.not_lt.2 hmax, hb, hl, hm, rxError_wellSent h]

theorem rxErrors_fcsGood (h : WellSent w (st.maxLen p)) (hb : w.fcsBad = false) : st.rxErrors p w = st := by
  obtain ⟨-, -, -, hmax⟩ := id h
  simp [StrandSt.rxErrors, Nat.not_lt.2 hmax, hb, rxError_wellSent h]

end

section
variable {st : StrandSt} {p : Fin 4} {r : MacRx} (h : (st.port p).rx = some r) (hw : WellSent r.wire (st.maxLen p))
include h hw

/-- A frame with a bad FCS is counted as that and goes nowhere (R112, R114). -/
theorem rxEnds_fcsBad (hb : r.wire.fcsBad = true) (hp : st.ptRx p ≠ 1) (hm : st.bit Reg.SW_MIRROR 11 = false) :
    st.rxEnds p r = ((st.rxClear p).flag (Reg.MAC_FLAGS p) 1).inc (Reg.MAC_CNT p + 8 * 2) := by
  have ho := rxClear_over h
  have hctl : (((st.rxClear p).flag (Reg.MAC_FLAGS p) 1).inc (Reg.MAC_CNT p + 8 * 2)).rd (Reg.MAC_CTL p) = st.rd (Reg.MAC_CTL p) :=
    ((st.rxClear p).rd_flag_ne 1 (by simp only [Reg.MAC_CTL, Reg.MAC_FLAGS]; omega)).trans ho.rd_ctl
  have hmir : (((st.rxClear p).flag (Reg.MAC_FLAGS p) 1).inc (Reg.MAC_CNT p + 8 * 2)).rd Reg.SW_MIRROR = st.rd Reg.SW_MIRROR :=
    ((st.rxClear p).rd_flag_ne 1 (by simp only [Reg.SW_MIRROR, Reg.MAC_FLAGS]; omega)).trans (ho.rd_mac (by decide))
  rw [StrandSt.ptRx, StrandSt.fld] at hp
  rw [StrandSt.bit] at hm
  simp [StrandSt.rxEnds, rxErrors_fcsBad (ho.maxLen ▸ hw) hb, rxError_wellSent hw, hb, StrandSt.ptRx, StrandSt.fld, hctl, hp, StrandSt.rxSwitch,
    StrandSt.bit, hmir, hm]

/-- A good frame for the lane alone is counted (R112, R120). -/
theorem rxEnds_lane (hb : r.wire.fcsBad = false) (hp : st.ptRx p = 1) (hc : macControlFrame r.wire.bytes = false) :
    st.rxEnds p r = (st.rxClear p).rxCount p r.wire := by
  have ho := rxClear_over h
  rw [StrandSt.ptRx, StrandSt.fld, ← ho.rd_ctl] at hp
  simp [StrandSt.rxEnds, rxErrors_fcsGood (ho.maxLen ▸ hw) hb, rxError_wellSent hw, hb, hc, StrandSt.ptRx, StrandSt.fld, hp]

/-- A good PAUSE or PFC frame is the MAC's own (R123). -/
theorem rxEnds_control (hb : r.wire.fcsBad = false) (hc : macControlFrame r.wire.bytes = true) :
    st.rxEnds p r = ((st.rxClear p).macControl p r.wire.bytes).2.rxCount p r.wire := by
  have ho := rxClear_over h
  simp [StrandSt.rxEnds, rxErrors_fcsGood (ho.maxLen ▸ hw) hb, rxError_wellSent hw, hb, hc]

end

/-- A PAUSE frame on a port that obeys it: one counted, and the port paused for its quanta from now on (R123). -/
theorem macControl_pause {st : StrandSt} {p : Fin 4} {bs : List Byte} (h12 : be16 bs 12 = 0x8808) (h14 : be16 bs 14 = 1)
    (hb : st.bit (Reg.MAC_CTL p) 17 = true) :
    (st.macControl p bs).2 = (st.inc (Reg.MAC_CNT p + 8 * 7)).setPort p { st.port p with
      pause := (st.port p).pause.set 0 8 (if be16 bs 16 = 0 then 0 else st.now + bytesCycles (st.speedAct p) (64 * be16 bs 16)) } := by
  simp [StrandSt.macControl, h12, h14, hb]
  rfl

/-- A reception that has been decided, or that needs no decision, ends with its last byte. -/
theorem rxStep_ends {st : StrandSt} {p : Fin 4} {r : MacRx} (h : (st.port p).rx = some r) (hf : r.flg = false)
    (hd : r.rule.isSome = true ∨ r.bound = false ∨ r.refused = true) (hs : r.stop ≤ st.now) : st.rxStep p = st.rxEnds p r := by
  have hdec : st.rxDecide p = st := by
    rcases hd with hd | hd | hd <;> simp [StrandSt.rxDecide, h, hd]
  simp [StrandSt.rxStep, h, hf, hdec, Nat.not_lt.2 hs]

/-! ## The start of a reception (R109, R120, R125) -/

section
variable {st : StrandSt} {p : Fin 4} {w : RxWire} (bound flg : Bool)

theorem rxFrame_idle (h : ¬ (st.bit (Reg.MAC_CTL p) 0 = true ∧ st.linkUp p = true ∧ (st.port p).rx = none)) : st.rxFrame p w bound flg = st := by
  refine if_pos ?_
  cases hb : st.bit (Reg.MAC_CTL p) 0 with
  | false => rfl
  | true =>
    cases hl : st.linkUp p with
    | false => simp
    | true =>
      have hr : (st.port p).rx.isSome = true := Option.isSome_iff_ne_none.2 fun hr => h ⟨hb, hl, hr⟩
      simp [hr]

variable (ha : st.env.active = true) (hb : st.bit (Reg.MAC_CTL p) 0 = true) (hl : st.linkUp p = true) (hr : (st.port p).rx = none)
include ha hb hl hr

/-- An unfragmented frame is in reception from now until its last byte. -/
theorem rxFrame_starts (hf : w.frags = 1) (he : w.assyErr = false) :
    ∃ (x : MacRx) (lane : Option LaneRx),
      (x.wire = w ∧ x.start = st.now ∧ x.stop = byteCycle (st.speedAct p) st.now (w.bytes.length + 3) ∧ x.bound = bound ∧
        x.refused = (bound && (st.reserve p).isNone)) ∧
      st.rxFrame p w bound flg =
        let t := (st.addCnt (Reg.MAC_CNT p + 8 * 11) (w.frags - 1)).setPort p { st.port p with rx := some x, lane := lane }
        if x.refused then t.flag (Reg.MAC_FLAGS p) 3 else t := by
  generalize hz : st.rxFrame p w bound flg = z
  have hgo : ¬ (!st.bit (Reg.MAC_CTL p) 0 || !st.linkUp p || !st.env.active || (st.port p).rx.isSome ||
      ((w.frags != 1 || w.assyErr) && !st.preemptPort p)) = true := by simp [ha, hb, hl, hr, hf, he]
  rw [StrandSt.rxFrame, if_neg hgo, if_neg (by simp [he])] at hz
  extract_lets code stop cells refused lane x old t at hz
  have hstop : stop = byteCycle code st.now (w.bytes.length + 3) := if_pos hf
  have hrefused : refused = (bound && (st.reserve p).isNone) := by cases bound <;> rfl
  exact ⟨x, lane, ⟨rfl, rfl, hstop, rfl, hrefused⟩, hz.symm⟩

/-- Fragments that cannot be put together are counted and bring nothing else. -/
theorem rxFrame_assembly (hq : st.preemptPort p = true) (he : w.assyErr = true) :
    st.rxFrame p w bound flg = (st.addCnt (Reg.MAC_CNT p + 8 * 11) (w.frags - 1)).inc (Reg.MAC_CNT p + 8 * 8) := by
  simp [StrandSt.rxFrame, ha, hb, hl, hr, hq, he]

end

/-! ## A flow-control frame of the port's own (R156) -/

theorem txFree_setPort (st : StrandSt) {p : Fin 4} {x : Port} (hx : x.rx = (st.port p).rx) : (st.setPort p x).txFree p = st.txFree p := by
  have hr (b : Fin 4) : ((st.setPort p x).port b).rx = (st.port b).rx := by
    by_cases hb : b = p
    · rw [hb, StrandSt.port_setPort_same, hx]
    · rw [st.port_setPort_ne x hb]
  simp only [StrandSt.txFree, hr]
  rfl

/-- The one flow-control frame that waits is found. -/
theorem find_fc_single {k : Nat} (hk : k < 9) (quanta : Nat) :
    (List.range 9).find? (fun j => (((({} : Tab (Option Nat)).set none k (some quanta)).get none j).isSome)) = some k := by
  have hget (j : Nat) (hj : j ≠ k) : (({} : Tab (Option Nat)).set none k (some quanta)).get none j = none := Tab.get_set_ne _ _ _ hj
  rw [List.find?_range_eq_some]
  refine ⟨?_, List.mem_range.2 hk, fun j hj => ?_⟩
  · rw [Tab.get_set_same]; rfl
  · rw [hget j hj.ne]; rfl

/-- The one flow-control frame that waits on an idle port starts, counted. -/
theorem fcGo_single {st : StrandSt} {p : Fin 4} {k quanta : Nat} (hk : k < 9) (hh : st.env.hold = false) (hl : st.linkUp p = true)
    (hf : st.txFree p = true) (ht : (st.port p).tx = none) (hc : (st.port p).fc = ({} : Tab (Option Nat)).set none k (some quanta)) :
    ∃ (x : Port) (c : TxCur), (x.tx = some c ∧ c.queue = 8 ∧ c.start = st.now + 1 ∧ c.wire = st.fcFrame p k quanta) ∧
      st.fcGo p = (st.setPort p x).inc (Reg.SW_UCNT + 8 * (4 + p.val)) := by
  have hgo : ¬ ((st.port p).tx.isSome || !st.txFree p || !st.linkUp p || st.env.hold) = true := by simp [hh, hl, hf, ht]
  have hq : ((st.port p).fc.get none k).getD 0 = quanta := by rw [hc, Tab.get_set_same]; rfl
  have hfind : (List.range 9).find? (fun j => ((st.port p).fc.get none j).isSome) = some k := by rw [hc]; exact find_fc_single hk quanta
  rw [StrandSt.fcGo, if_neg hgo, hfind]
  exact ⟨_, _, ⟨rfl, rfl, rfl, by rw [hq]⟩, rfl⟩

/-- On an idle port on which none waits, a flow-control frame starts at once. -/
theorem sendFc_idle {st : StrandSt} {p : Fin 4} {k : Nat} (quanta : Nat) (hk : k < 9) (hh : st.env.hold = false) (hl : st.linkUp p = true)
    (hf : st.txFree p = true) (ht : (st.port p).tx = none) (hc : (st.port p).fc = {}) :
    ∃ (x x' : Port) (c : TxCur), (x'.tx = some c ∧ c.queue = 8 ∧ c.start = st.now + 1 ∧ c.wire = st.fcFrame p k quanta) ∧
      st.sendFc p k quanta = ((st.setPort p x).setPort p x').inc (Reg.SW_UCNT + 8 * (4 + p.val)) := by
  have hp : (st.ptTx p == 1) = false := by
    simp only [StrandSt.txFree, Bool.and_eq_true, bne_iff_ne] at hf
    simpa using hf.1.1.2
  have hsend : ¬ (st.env.hold || !st.linkUp p || st.ptTx p == 1) = true := by simp [hh, hl, hp]
  rw [StrandSt.sendFc, if_neg hsend]
  generalize hx : ({ st.port p with fc := (st.port p).fc.set none k (some quanta) } : Port) = x
  have hport : (st.setPort p x).port p = x := st.port_setPort_same p x
  obtain ⟨x', c, hc', hgo⟩ := fcGo_single (st := st.setPort p x) (quanta := quanta) hk hh hl ((txFree_setPort st (by rw [← hx])).trans hf)
    (by rw [hport, ← hx]; exact ht) (by rw [hport, ← hx, hc])
  exact ⟨x, x', c, hc', hgo⟩

/-- The class under which a flow-control frame for class `c` is sent, 8 for PAUSE, and its XOFF bit (R156). -/
def StrandSt.fcClass (st : StrandSt) (p c : Nat) : Nat := if st.fcMode p = 1 then 8 else c
def StrandSt.fcBit (st : StrandSt) (p c : Nat) : Nat := if st.fcMode p = 1 then 24 else 24 + c

/-- A flow-control frame for class `c` was sent QUANTA or longer ago. -/
def StrandSt.FcDue (st : StrandSt) (p : Fin 4) (c : Nat) : Prop :=
  (st.port p).fcAt.get 0 (st.fcClass p c) + bytesCycles (st.speedAct p) (32 * st.fld (Reg.SW_FCQ p) 15 0) ≤ st.now

section
variable {st : StrandSt} {p : Fin 4} {c : Nat}

theorem fcRepeat_early (h : ¬ st.FcDue p c) : st.fcRepeat p c = st := by
  refine if_neg fun hc => h ?_
  simp only [Bool.and_eq_true, decide_eq_true_eq] at hc
  exact hc.2

theorem fcRepeat_due (h : st.FcDue p c) (hm : st.fcMode p ≠ 0) (hb : st.bit (Reg.SW_IN_STAT p) (st.fcBit p c) = true)
    (hx : st.fld (Reg.SW_FC p) 13 0 ≤ st.fcCount p c) : st.fcRepeat p c = st.sendFc p (st.fcClass p c) (st.fld (Reg.SW_FCQ p) 15 0) := by
  refine if_pos ?_
  simp only [Bool.and_eq_true, decide_eq_true_eq, bne_iff_ne]
  exact ⟨⟨⟨hm, hb⟩, hx⟩, h⟩

end

/-! ## A frame of a lane on its way to another port (R130, R133 to R135) -/

/-- What a channel's status does not bear on. -/
theorem putBit_ptStatus (st : StrandSt) (p q : Fin 4) (k : Nat) (b : Bool) :
    let t := st.putBit (Reg.PT_STATUS p) k b
    t.linkUp q = st.linkUp q ∧ t.speedAct q = st.speedAct q ∧ t.maxLen q = st.maxLen q ∧ t.rd (Reg.MAC_CTL q) = st.rd (Reg.MAC_CTL q) ∧
      t.editExt q = st.editExt q := by
  intro t
  have hrd {off : Nat} (h : off ≠ Reg.PT_STATUS p) : t.rd off = st.rd off := st.rd_wr_ne _ h
  simp only [StrandSt.linkUp, StrandSt.speedAct, StrandSt.maxLen, StrandSt.editExt, StrandSt.bit, StrandSt.fld]
  refine ⟨?_, ?_, ?_, ?_, ?_⟩
  · rw [hrd (by simp only [Reg.MAC_STATUS, Reg.PT_STATUS]; omega)]
  · rw [hrd (by simp only [Reg.MAC_STATUS, Reg.PT_STATUS]; omega)]
  · rw [hrd (by simp only [Reg.MAC_MAXLEN, Reg.PT_STATUS]; omega)]
  · rw [hrd (by simp only [Reg.MAC_CTL, Reg.PT_STATUS]; omega)]
  · rw [hrd (by simp only [Reg.PT_CTL, Reg.PT_STATUS]; omega)]

section
variable {st : StrandSt} {p a : Fin 4} {w : RxWire} (fifo : FifoEnd) (ha : st.env.active = true) (hs : st.chanSource p = some a.val)
  (hr : st.ptRx a = 1 ∨ st.ptRx a = 2) (hl : st.linkUp a = true) (hb : st.bit (Reg.MAC_CTL a) 0 = true) (hc : macControlFrame w.bytes = false)
include ha hs hr hl hb hc

/-- One that PT_TX or a speed mismatch keeps off the port is counted. -/
theorem ptFrame_discard (h : st.ptTx p = 0 ∨ (st.linkUp p = true ∧ st.speedAct a ≠ st.speedAct p)) :
    ∃ t, Keeps st t [.regs] ∧ st.ptFrame p w fifo = t.inc (Reg.PT_CNT p + 8 * 10) := by
  have hsrc : ¬ (st.ptRx a = 0 || 3 ≤ st.ptRx a || !st.linkUp a || !st.bit (Reg.MAC_CTL a) 0 || macControlFrame w.bytes) = true := by
    rcases hr with hr | hr <;> simp [hr, hl, hb, hc]
  have hoff : ((decide (st.ptTx p = 0) || decide (3 ≤ st.ptTx p)) || (st.linkUp p && st.speedAct a != st.speedAct p)) = true := by
    rcases h with h | ⟨h, h'⟩ <;> simp_all
  rw [StrandSt.ptFrame, if_neg (by simp [ha]), hs]
  dsimp only
  rw [if_neg hsrc, if_pos hoff]
  refine ⟨_, ?_, rfl⟩
  split
  · exact keeps_wr _ _ _
  · rw [StrandSt.ptRates, hs]
    dsimp only
    split
    · exact keeps_wr _ _ _
    · exact keeps_refl _ _

/-- One that nothing keeps off the port is in transit, to leave after L_b where nothing precedes it. -/
theorem ptFrame_transit (hx : st.ptTx p = 1 ∨ st.ptTx p = 2) (hlp : st.linkUp p = true) (hsp : st.speedAct a = st.speedAct p)
    (hh : st.env.hold = false) (hbp : st.bit (Reg.MAC_CTL p) 1 = true) (hm : w.bytes.length + 4 ≤ st.maxLen a)
    (ho : st.laneOut p (st.now + st.ptLb p a) = st.now + st.ptLb p a) :
    ∃ f : PtCur, (f.bytes = w.bytes ∧ f.start = st.now ∧ f.out = st.now + st.ptLb p a ∧ f.lost = w.linkLost ∧
        f.edits = (st.chan p).edits.map (fun t => { edit := t }) ∧ f.bad = (w.fcsBad || w.symErr || decide (w.bytes.length + 4 < 64))) ∧
      st.ptFrame p w fifo = ((st.putBit (Reg.PT_STATUS p) 3 false).put (Reg.PT_STATUS p) 23 16 (st.ptFill a)).setChan p
        { st.chan p with edits := [], frames := (st.chan p).frames ++ [f] } := by
  have hsrc : ¬ (st.ptRx a = 0 || 3 ≤ st.ptRx a || !st.linkUp a || !st.bit (Reg.MAC_CTL a) 0 || macControlFrame w.bytes) = true := by
    rcases hr with hr | hr <;> simp [hr, hl, hb, hc]
  have hslow : (st.linkUp p && st.speedAct a != st.speedAct p) = false := by simp [hsp]
  have hoff : (decide (st.ptTx p = 0) || decide (3 ≤ st.ptTx p)) = false := by rcases hx with hx | hx <;> simp [hx]
  have hrates : st.ptRates p = st.putBit (Reg.PT_STATUS p) 3 false := by rw [StrandSt.ptRates, hs]; exact if_pos hsp
  generalize ht : st.putBit (Reg.PT_STATUS p) 3 false = t at hrates ⊢
  obtain ⟨hup, hspeed, -, hctl, hext⟩ := ht ▸ putBit_ptStatus st p p 3 false
  obtain ⟨-, hspeed', hlen, -, -⟩ := ht ▸ putBit_ptStatus st p a 3 false
  have hfill : t.ptFill a = st.ptFill a := by rw [StrandSt.ptFill, hlen, hspeed']; rfl
  have hnow : t.now = st.now := by rw [← ht]; rfl
  have hlb : t.now + t.ptLb p a = st.now + st.ptLb p a := by rw [StrandSt.ptLb, hext, hfill, hnow]; rfl
  have hout : t.laneOut p (st.now + st.ptLb p a) = st.now + st.ptLb p a := by
    rw [← ht] at hspeed ⊢
    rw [StrandSt.laneOut, hspeed]
    exact ho
  have hbytes : t.rxBytes a w = w.bytes := if_neg (by rw [hlen]; exact Nat.not_lt.2 hm)
  have hchan : t.chan p = st.chan p := by rw [← ht]; rfl
  have hstart : ¬ (!t.linkUp p) = true ∧ ¬ t.env.hold = true ∧ ¬ (!t.bit (Reg.MAC_CTL p) 1) = true := by
    rw [hup, StrandSt.bit, hctl, ← ht]
    exact ⟨by simp [hlp], by simp [StrandSt.putBit, hh], by simpa [StrandSt.bit] using hbp⟩
  obtain ⟨hup', hhold, hbit⟩ := hstart
  have hfits : ¬ ptOverruns (st.speedAct p) w.bytes.length 0 = true := by simp [ptOverruns]
  generalize hz : st.ptFrame p w fifo = z
  rw [StrandSt.ptFrame, if_neg (by simp [ha]), hs] at hz
  dsimp only at hz
  rw [if_neg hsrc, hslow, hrates, if_neg Bool.false_ne_true, hoff, Bool.or_self, if_neg Bool.false_ne_true, if_neg hup', if_neg hhold, if_neg hbit, hlb,
    hout, hbytes, Nat.sub_self, if_neg hfits, hfill, hchan, hnow] at hz
  refine ⟨_, ⟨?_, ?_, ?_, ?_, ?_, ?_⟩, hz.symm⟩ <;> simp

end

end Sys2Proof.Machine
end

section
/-! Ports: the frames a port takes, counts, is paused by and sends on. -/

namespace Sys2Proof.Machine

/-! ## What a frame's end leaves (R112, R114, R123) -/

section
variable {x y : StrandSt} {p : Fin 4} (h : RxOver x y p)
include h

/-- The counters of a port are apart from that of its flow-control frames. -/
theorem RxOver.counter_cnt {k : Nat} (hk : k < 19) : y.counter (Reg.MAC_CNT p + 8 * k) = x.counter (Reg.MAC_CNT p + 8 * k) :=
  h.counter_mac (by simp only [Reg.MAC_CNT]; omega)

/-- A further count in one of them. -/
theorem RxOver.counter_addCnt {k : Nat} (hk : k < 19) (n : Nat) :
    (y.addCnt (Reg.MAC_CNT p + 8 * k) n).counter (Reg.MAC_CNT p + 8 * k) = min counterMax (x.counter (Reg.MAC_CNT p + 8 * k) + n) := by
  rw [counter_addCnt_same, h.counter_cnt hk]

end

theorem counter_rxCount_frames (st : StrandSt) (p : Fin 4) (w : RxWire) :
    (st.rxCount p w).counter (Reg.MAC_CNT p + 8 * 0) = min counterMax (st.counter (Reg.MAC_CNT p + 8 * 0) + 1) :=
  (counter_addCnt_ne _ _ (by omega)).trans (counter_inc_same st _)

theorem counter_rxCount_octets (st : StrandSt) (p : Fin 4) (w : RxWire) :
    (st.rxCount p w).counter (Reg.MAC_CNT p + 8 * 1) = min counterMax (st.counter (Reg.MAC_CNT p + 8 * 1) + (w.bytes.length + 4)) :=
  (counter_addCnt_same _ _ _).trans (by rw [counter_inc_ne st (by omega)])

theorem counter_rxCount_other (st : StrandSt) (p : Fin 4) (w : RxWire) {k : Nat} (h0 : k ≠ 0) (h1 : k ≠ 1) :
    (st.rxCount p w).counter (Reg.MAC_CNT p + 8 * k) = st.counter (Reg.MAC_CNT p + 8 * k) :=
  (counter_addCnt_ne _ _ (by omega)).trans (counter_inc_ne st (by omega))

theorem bit_flag_same (st : StrandSt) (off : Nat) {k : Nat} (hk : k < 32) : (st.flag off k).bit off k = true := by
  rw [StrandSt.bit, (flagged_flag st off k).1]
  exact bitOf_setBit_same _ hk

@[simp] theorem StrandSt.rxCount_sw (st : StrandSt) (p : Nat) (w : RxWire) : (st.rxCount p w).sw = st.sw := by simp [StrandSt.rxCount]
@[simp] theorem StrandSt.rxCount_ports (st : StrandSt) (p : Nat) (w : RxWire) : (st.rxCount p w).ports = st.ports := by simp [StrandSt.rxCount]

/-- A frame has left its port's reception and has reached no queue. -/
def Unheard (x z : StrandSt) (p : Fin 4) : Prop := (z.port p).rx = none ∧ z.sw.queues = x.sw.queues ∧ z.sw.frames = x.sw.frames

theorem RxOver.unheard {x y z : StrandSt} {p : Fin 4} (h : RxOver x y p) (hp : (z.port p).rx = (y.port p).rx) (hs : z.sw = y.sw) : Unheard x z p :=
  ⟨hp.trans h.rx, hs ▸ h.queues, hs ▸ h.frames⟩

section
variable {st : StrandSt} {p : Fin 4} {r : MacRx} (h : (st.port p).rx = some r) (hf : r.flg = false)
  (hd : r.rule.isSome = true ∨ r.bound = false ∨ r.refused = true) (hs : r.stop ≤ st.now) (hw : WellSent r.wire (st.maxLen p))
include h hf hd hs hw

theorem rxStep_fcsBad_leaves (hb : r.wire.fcsBad = true) (hp : st.ptRx p ≠ 1) (hm : st.bit Reg.SW_MIRROR 11 = false) :
    Unheard st (st.rxStep p) p ∧
      (st.rxStep p).counter (Reg.MAC_CNT p + 8 * 2) = min counterMax (st.counter (Reg.MAC_CNT p + 8 * 2) + 1) ∧
      (∀ k < 19, k ≠ 2 → (st.rxStep p).counter (Reg.MAC_CNT p + 8 * k) = st.counter (Reg.MAC_CNT p + 8 * k)) ∧
      (st.rxStep p).bit (Reg.MAC_FLAGS p) 1 = true := by
  have ho := rxClear_over h
  rw [rxStep_ends h hf hd hs, rxEnds_fcsBad h hw hb hp hm]
  refine ⟨ho.unheard (by simp [StrandSt.port]) (by simp), ho.counter_addCnt (by decide) 1, fun k hk h2 => ?_,
    bit_flag_same (st.rxClear p) _ (by decide)⟩
  exact (counter_inc_ne _ (by omega)).trans (ho.counter_cnt hk)

theorem rxStep_lane_leaves (hb : r.wire.fcsBad = false) (hp : st.ptRx p = 1) (hc : macControlFrame r.wire.bytes = false) :
    Unheard st (st.rxStep p) p ∧
      (st.rxStep p).counter (Reg.MAC_CNT p + 8 * 0) = min counterMax (st.counter (Reg.MAC_CNT p + 8 * 0) + 1) ∧
      (st.rxStep p).counter (Reg.MAC_CNT p + 8 * 1) = min counterMax (st.counter (Reg.MAC_CNT p + 8 * 1) + (r.wire.bytes.length + 4)) ∧
      ∀ k < 19, k ≠ 0 → k ≠ 1 → (st.rxStep p).counter (Reg.MAC_CNT p + 8 * k) = st.counter (Reg.MAC_CNT p + 8 * k) := by
  have ho := rxClear_over h
  rw [rxStep_ends h hf hd hs, rxEnds_lane h hw hb hp hc]
  refine ⟨ho.unheard (by simp [StrandSt.port]) (by simp), ?_, ?_, fun k hk h0 h1 => ?_⟩
  · rw [counter_rxCount_frames, ho.counter_cnt (by decide)]
  · rw [counter_rxCount_octets, ho.counter_cnt (by decide)]
  · rw [counter_rxCount_other _ _ _ h0 h1, ho.counter_cnt hk]

theorem rxStep_pause_leaves (hb : r.wire.fcsBad = false) (h12 : be16 r.wire.bytes 12 = 0x8808) (h14 : be16 r.wire.bytes 14 = 1)
    (h17 : st.bit (Reg.MAC_CTL p) 17 = true) :
    Unheard st (st.rxStep p) p ∧
      (st.rxStep p).counter (Reg.MAC_CNT p + 8 * 0) = min counterMax (st.counter (Reg.MAC_CNT p + 8 * 0) + 1) ∧
      (st.rxStep p).counter (Reg.MAC_CNT p + 8 * 1) = min counterMax (st.counter (Reg.MAC_CNT p + 8 * 1) + (r.wire.bytes.length + 4)) ∧
      (st.rxStep p).counter (Reg.MAC_CNT p + 8 * 7) = min counterMax (st.counter (Reg.MAC_CNT p + 8 * 7) + 1) ∧
      (∀ k < 19, k ≠ 0 → k ≠ 1 → k ≠ 7 → (st.rxStep p).counter (Reg.MAC_CNT p + 8 * k) = st.counter (Reg.MAC_CNT p + 8 * k)) ∧
      ((st.rxStep p).port p).pause.get 0 8 =
        if be16 r.wire.bytes 16 = 0 then 0 else st.now + bytesCycles (st.speedAct p) (64 * be16 r.wire.bytes 16) := by
  have ho := rxClear_over h
  have hc : macControlFrame r.wire.bytes = true := by simp [macControlFrame, h12, h14]
  rw [rxStep_ends h hf hd hs, rxEnds_control h hw hb hc, macControl_pause h12 h14 (by rw [StrandSt.bit, ho.rd_ctl]; exact h17), ho.now, ho.speedAct]
  generalize hx : ({ (st.rxClear p).port p with pause := _ } : Port) = x
  have hcnt (off : Nat) : (((st.rxClear p).inc (Reg.MAC_CNT p + 8 * 7)).setPort p x).counter off = ((st.rxClear p).inc (Reg.MAC_CNT p + 8 * 7)).counter off :=
    congrArg (Tab.get · 0 off) (StrandSt.setPort_cnt _ _ _)
  have hport : ((((st.rxClear p).inc (Reg.MAC_CNT p + 8 * 7)).setPort p x).rxCount p r.wire).port p = x := by simp [StrandSt.port, StrandSt.setPort]
  refine ⟨ho.unheard (by rw [hport, ← hx]) (by simp), ?_, ?_, ?_, fun k hk h0 h1 h7 => ?_, ?_⟩
  · rw [counter_rxCount_frames, hcnt, counter_inc_ne _ (by omega), ho.counter_cnt (by decide)]
  · rw [counter_rxCount_octets, hcnt, counter_inc_ne _ (by omega), ho.counter_cnt (by decide)]
  · rw [counter_rxCount_other _ _ _ (by decide) (by decide), hcnt, counter_inc_same, ho.counter_cnt (by decide)]
  · rw [counter_rxCount_other _ _ _ h0 h1, hcnt, counter_inc_ne _ (by omega), ho.counter_cnt hk]
  · rw [hport, ← hx, Tab.get_set_same]

end

/-! ## What the start of a frame leaves (R109, R115, R125) -/

/-- A flag that is set where `b` says so. -/
theorem flagWhere_leaves (st : StrandSt) (off k : Nat) (b : Bool) :
    let z := if b then st.flag off k else st
    Keeps st z [.regs] ∧ RegsBut st z [off] ∧ z.cnt = st.cnt ∧ z.ports = st.ports := by
  cases b with
  | false => exact ⟨keeps_refl st _, regsBut_refl st _, rfl, rfl⟩
  | true => exact ⟨keeps_flag st off k, (flagged_flag st off k).2, rfl, rfl⟩

section
variable {st : StrandSt} {p : Fin 4} {w : RxWire} (ha : st.env.active = true) (hb : st.bit (Reg.MAC_CTL p) 0 = true) (hl : st.linkUp p = true)
  (hr : (st.port p).rx = none)
include ha hb hl hr

theorem rxTop_starts_leaves (hf : w.frags = 1) (he : w.assyErr = false) (hflg : st.isFlgFrame p w.bytes = false) :
    Keeps st (st.rxTop p w) [.regs, .cnt, .ports] ∧ RegsBut st (st.rxTop p w) [Reg.MAC_FLAGS p] ∧ CntsBut st (st.rxTop p w) [Reg.MAC_CNT p + 8 * 11] ∧
      (∀ b, b ≠ p → (st.rxTop p w).port b = st.port b) ∧
      ∃ x ∈ ((st.rxTop p w).port p).rx, x.wire = w ∧ x.start = st.now ∧ x.stop = byteCycle (st.speedAct p) st.now (w.bytes.length + 3) ∧
        x.bound = (st.ptRx p != 1 && !macControlFrame w.bytes) ∧ x.refused = (x.bound && (st.reserve p).isNone) := by
  have htop : st.rxTop p w = st.rxFrame p w (st.ptRx p != 1 && !macControlFrame w.bytes) false := by simp [StrandSt.rxTop, hflg]
  obtain ⟨x, lane, ⟨hw, hstart, hstop, hbound, hrefused⟩, heq⟩ :=
    rxFrame_starts (st.ptRx p != 1 && !macControlFrame w.bytes) false ha hb hl hr hf he
  generalize hx : ({ st.port p with rx := some x, lane := lane } : Port) = y at heq
  let c := st.addCnt (Reg.MAC_CNT p + 8 * 11) (w.frags - 1)
  obtain ⟨hkeeps, hregs, hcnt, hports⟩ := flagWhere_leaves (c.setPort p y) (Reg.MAC_FLAGS p) 3 x.refused
  rw [htop, heq]
  have hport (b : Fin 4) : (if x.refused then (c.setPort p y).flag (Reg.MAC_FLAGS p) 3 else c.setPort p y).port b = (c.setPort p y).port b :=
    congrArg (Quad.get · b) hports
  refine ⟨?_, hregs, fun off hoff => ?_, fun b hbp => ?_, x, ?_, hw, hstart, hstop, hbound, hbound ▸ hrefused⟩
  · exact keeps_trans (keeps_mono (keeps_addCnt st _ _) (by simp)) (keeps_trans (keeps_mono (keeps_setPort c p y) (by simp)) (keeps_mono hkeeps (by simp)))
  · exact (congrArg (Tab.get · 0 off) hcnt).trans (cntsBut_addCnt st _ _ off hoff)
  · exact (hport b).trans (c.port_setPort_ne y hbp)
  · rw [hport p, StrandSt.port_setPort_same, ← hx]
    rfl

theorem rxTop_assembly_leaves (hq : st.preemptPort p = true) (he : w.assyErr = true) :
    Keeps st (st.rxTop p w) [.cnt] ∧
      (st.rxTop p w).counter (Reg.MAC_CNT p + 8 * 8) = min counterMax (st.counter (Reg.MAC_CNT p + 8 * 8) + 1) ∧
      (st.rxTop p w).counter (Reg.MAC_CNT p + 8 * 11) = min counterMax (st.counter (Reg.MAC_CNT p + 8 * 11) + (w.frags - 1)) ∧
      CntsBut st (st.rxTop p w) [Reg.MAC_CNT p + 8 * 8, Reg.MAC_CNT p + 8 * 11] := by
  rw [StrandSt.rxTop, rxFrame_assembly _ _ ha hb hl hr hq he]
  refine ⟨keeps_trans (keeps_addCnt st _ _) (keeps_inc _ _), ?_, ?_, ?_⟩
  · rw [counter_inc_same, counter_addCnt_ne st _ (by omega)]
  · rw [counter_inc_ne _ (by omega), counter_addCnt_same]
  · exact cntsBut_mono (cntsBut_append (cntsBut_addCnt st _ _) (counted_inc _ _).2) (by simp)

end

/-! ## What the end of a pause, a repeated flow-control frame and a frame in transit leave (R123, R130, R156) -/

theorem pauseExpiry_leaves (st : StrandSt) (p : Fin 4) (q : Nat) :
    Keeps st (st.pauseExpiry p q) [.ports] ∧ (∀ b, b ≠ p → (st.pauseExpiry p q).port b = st.port b) ∧
      TabBut 0 (st.port p).pause ((st.pauseExpiry p q).port p).pause [q] ∧
      ((st.pauseExpiry p q).port p).pause.get 0 q = if st.now < (st.port p).pause.get 0 q then (st.port p).pause.get 0 q else 0 := by
  unfold StrandSt.pauseExpiry
  split
  · exact ⟨keeps_refl st _, fun _ _ => rfl, fun _ _ => rfl, rfl⟩
  · refine ⟨keeps_setPort _ _ _, fun b hb => st.port_setPort_ne _ hb, fun k hk => ?_, ?_⟩ <;> rw [StrandSt.port_setPort_same]
    · exact Tab.get_set_ne _ _ _ (by simpa using hk)
    · exact Tab.get_set_same _ _ _ _

theorem fcRepeat_due_leaves {st : StrandSt} {p : Fin 4} {c : Nat} (h9 : c < 9) (h : st.FcDue p c) (hm : st.fcMode p ≠ 0)
    (hb : st.bit (Reg.SW_IN_STAT p) (st.fcBit p c) = true) (hx : st.fld (Reg.SW_FC p) 13 0 ≤ st.fcCount p c) (hh : st.env.hold = false)
    (hl : st.linkUp p = true) (hf : st.txFree p = true) (ht : (st.port p).tx = none) (hc : (st.port p).fc = {}) :
    Keeps st (st.fcRepeat p c) [.cnt, .ports] ∧ Counted st (st.fcRepeat p c) (Reg.SW_UCNT + 8 * (4 + p.val)) ∧
      ∃ x ∈ ((st.fcRepeat p c).port p).tx, x.queue = 8 ∧ x.start = st.now + 1 ∧
        x.wire = st.fcFrame p (st.fcClass p c) (st.fld (Reg.SW_FCQ p) 15 0) := by
  have hk : st.fcClass p c < 9 := by
    unfold StrandSt.fcClass
    split
    · decide
    · exact h9
  obtain ⟨x, x', y, ⟨hy, hfields⟩, heq⟩ := sendFc_idle (st.fld (Reg.SW_FCQ p) 15 0) hk hh hl hf ht hc
  rw [fcRepeat_due h hm hb hx, heq]
  refine ⟨?_, counted_congr (x' := (st.setPort p x).setPort p x') rfl (counted_inc _ _), y, ?_, hfields⟩
  · exact keeps_trans (keeps_mono (keeps_trans (keeps_setPort st p x) (keeps_setPort _ p x')) (by simp)) (keeps_mono (keeps_inc _ _) (by simp))
  · exact (congrArg Port.tx (StrandSt.port_setPort_same _ p x')).trans hy

/-- RATE_MISMATCH cleared and the fill noted in a channel's status. -/
theorem ptStatus_leaves (st : StrandSt) (p n : Nat) :
    let t := (st.putBit (Reg.PT_STATUS p) 3 false).put (Reg.PT_STATUS p) 23 16 n
    Keeps st t [.regs] ∧ RegsBut st t [Reg.PT_STATUS p] ∧ t.fld (Reg.PT_STATUS p) 23 16 = n % 256 := by
  intro t
  refine ⟨keeps_trans (keeps_wr _ _ _) (keeps_wr _ _ _), regsBut_trans (regsBut_wr _ _ _) (regsBut_wr _ _ _), ?_⟩
  rw [StrandSt.fld, show t = StrandSt.wr _ _ _ from rfl, StrandSt.rd_wr_same, fieldOf_setField_same _ _ (by decide) (by decide), show 23 + 1 - 16 = 8 from rfl]
  norm_num

section
variable {st : StrandSt} {p a : Fin 4} {w : RxWire} (fifo : FifoEnd) (ha : st.env.active = true) (hs : st.chanSource p = some a.val)
  (hr : st.ptRx a = 1 ∨ st.ptRx a = 2) (hl : st.linkUp a = true) (hb : st.bit (Reg.MAC_CTL a) 0 = true) (hc : macControlFrame w.bytes = false)
include ha hs hr hl hb hc

theorem ptFrame_discard_leaves (h : st.ptTx p = 0 ∨ (st.linkUp p = true ∧ st.speedAct a ≠ st.speedAct p)) :
    Keeps st (st.ptFrame p w fifo) [.regs, .cnt] ∧ Counted st (st.ptFrame p w fifo) (Reg.PT_CNT p + 80) := by
  obtain ⟨t, hk, heq⟩ := ptFrame_discard fifo ha hs hr hl hb hc h
  rw [heq]
  refine ⟨keeps_trans (keeps_mono hk (by simp)) (keeps_mono (keeps_inc _ _) (by simp)), counted_congr ?_ (counted_inc t _)⟩
  exact hk .cnt (by simp [Part.all]) (by simp)

theorem ptFrame_transit_leaves (hx : st.ptTx p = 1 ∨ st.ptTx p = 2) (hlp : st.linkUp p = true) (hsp : st.speedAct a = st.speedAct p)
    (hh : st.env.hold = false) (hbp : st.bit (Reg.MAC_CTL p) 1 = true) (hm : w.bytes.length + 4 ≤ st.maxLen a)
    (ho : st.laneOut p (st.now + st.ptLb p a) = st.now + st.ptLb p a) :
    Keeps st (st.ptFrame p w fifo) [.regs, .pt] ∧ RegsBut st (st.ptFrame p w fifo) [Reg.PT_STATUS p] ∧
      (st.ptFrame p w fifo).fld (Reg.PT_STATUS p) 23 16 = st.ptFill a % 256 ∧ ((st.ptFrame p w fifo).chan p).edits = [] ∧
      (∀ b, b ≠ p → (st.ptFrame p w fifo).chan b = st.chan b) ∧
      ∃ f ∈ ((st.ptFrame p w fifo).chan p).frames.getLast?, ((st.ptFrame p w fifo).chan p).frames = (st.chan p).frames ++ [f] ∧
        f.bytes = w.bytes ∧ f.start = st.now ∧ f.out = st.now + st.ptLb p a ∧ f.lost = w.linkLost ∧
        f.edits = (st.chan p).edits.map (fun t => { edit := t }) ∧ f.bad = (w.fcsBad || w.symErr || decide (w.bytes.length + 4 < 64)) := by
  obtain ⟨f, hf, heq⟩ := ptFrame_transit fifo ha hs hr hl hb hc hx hlp hsp hh hbp hm ho
  generalize ht : (st.putBit (Reg.PT_STATUS p) 3 false).put (Reg.PT_STATUS p) 23 16 (st.ptFill a) = t at heq
  obtain ⟨hkt, hrt, hfill⟩ := ptStatus_leaves st p (st.ptFill a)
  rw [ht] at hkt hrt hfill
  have hregs : (st.ptFrame p w fifo).regs = t.regs := by rw [heq, StrandSt.setChan_regs]
  have hpt : t.pt = st.pt := hkt .pt (by simp [Part.all]) (by simp)
  have hchan : (st.ptFrame p w fifo).chan p = { st.chan p with edits := [], frames := (st.chan p).frames ++ [f] } := by
    rw [heq]
    exact Quad.get_set_same _ _ _
  refine ⟨?_, regsBut_congr rfl hregs.symm hrt, ?_, by rw [hchan], fun b hbp => ?_, f, by rw [hchan]; simp, by rw [hchan], hf⟩
  · rw [heq]
    exact keeps_trans (keeps_mono hkt (by simp)) (keeps_mono (keeps_setChan t _ _) (by simp))
  · rw [StrandSt.fld, rd_congr hregs]
    exact hfill
  · rw [heq, t.chan_setChan_ne _ hbp]
    exact congrArg (Quad.get · b) hpt

end

/-! ## The commands -/

/-- Settles O27: each frame by what its reception, its end or its passage leaves of the port. -/
theorem portFrames : Obligations.PortFrames := by
  unfold Obligations.PortFrames
  intro s dt i p a w q r fifo d y cnt good enabled plus but ha
  have hact : y.env.active = true := envOf_active ha
  refine ⟨fun hn => ?_, fun ⟨hb, hl, hr⟩ hf he hflg => ?_, fun ⟨hb, hl, hr⟩ hq he => ?_, fun hr hflg hd hs hg => ?_, ?_, ⟨fun hn => ?_, ?_⟩,
    fun hs hr hl hb hc => ⟨fun h => ?_, ?_⟩⟩
  · exact ends_onActive rfl ha (rxFrame_idle _ _ hn) (keeps_refl y []) fun e ho _ => ho
  · obtain ⟨hk, h⟩ := rxTop_starts_leaves hact hb hl hr hf he hflg
    exact ends_onActive (g := fun st => st.rxTop p w) rfl ha rfl hk fun e ho hz => ⟨ho, hz ▸ h⟩
  · obtain ⟨hk, h⟩ := rxTop_assembly_leaves hact hb hl hr hq he
    exact ends_onActive (g := fun st => st.rxTop p w) rfl ha rfl hk fun e ho hz => ⟨ho, hz ▸ h⟩
  · intro z len unheard
    refine ⟨fun hb hp hm => ?_, fun hb hp hc => ?_, fun hb h12 h14 h17 => ?_⟩
    · obtain ⟨hu, hcnt, hother, hflag⟩ := rxStep_fcsBad_leaves hr hflg hd hs hg hb hp hm
      exact ⟨hu, hcnt, fun k hk hk' => hother k hk (by simpa using hk'), hflag⟩
    · obtain ⟨hu, hframes, hoctets, hother⟩ := rxStep_lane_leaves hr hflg hd hs hg hb hp hc
      exact ⟨hu, hframes, hoctets, fun k hk hk' => by simp at hk'; exact hother k hk hk'.1 hk'.2⟩
    · obtain ⟨hu, hframes, hoctets, hpauses, hother, hpause⟩ := rxStep_pause_leaves hr hflg hd hs hg hb h12 h14 h17
      exact ⟨hu, hframes, hoctets, hpauses, fun k hk hk' => by simp at hk'; exact hother k hk hk'.1 hk'.2.1 hk'.2.2, hpause⟩
  · obtain ⟨hk, h⟩ := pauseExpiry_leaves y p q
    exact ends_onActive (g := fun st => st.pauseExpiry p q) rfl ha rfl hk fun e ho hz => ⟨ho, hz ▸ h⟩
  · exact ends_onActive rfl ha (fcRepeat_early hn) (keeps_refl y []) fun e ho _ => ho
  · intro hdue hm hb hrun hl hx hf ht hc
    obtain ⟨hk, h⟩ := fcRepeat_due_leaves q.isLt hdue hm hb hx (envOf_run hrun) hl hf ht hc
    exact ends_onActive (g := fun st => st.fcRepeat p q) rfl ha rfl hk fun e ho hz => ⟨ho, hz ▸ h⟩
  · obtain ⟨hk, h⟩ := ptFrame_discard_leaves fifo hact hs hr hl hb hc h
    exact ends_onActive (g := fun st => st.ptFrame p w fifo) rfl ha rfl hk fun e ho hz => ⟨ho, hz ▸ h⟩
  · intro fill nominal out hx hlp hsp hrun hbp hm hout
    obtain ⟨hk, h⟩ := ptFrame_transit_leaves fifo hact hs hr hl hb hc hx hlp hsp (envOf_run hrun) hbp hm hout
    exact ends_onActive (g := fun st => st.ptFrame p w fifo) rfl ha rfl hk fun e ho hz => ⟨ho, hz ▸ h⟩

end Sys2Proof.Machine
end

section
/-! Switch: what the operations on its registers, tables and queues change, and what they keep. -/

namespace Sys2Proof.Machine

/-! ## The switch of a strand -/

theorem keeps_sw (st : StrandSt) (w : Switch) : Keeps st { st with sw := w } [.sw] := by
  intro p _ hp
  cases p with
  | sw => simp at hp
  | _ => rfl

theorem tabBut_refl {α : Type} (dflt : α) (t : Tab α) (l : List Nat) : TabBut dflt t t l := fun _ _ => rfl

theorem tabBut_set {α : Type} [DecidableEq α] (dflt : α) (t : Tab α) (k : Nat) (v : α) : TabBut dflt t (t.set dflt k v) [k] :=
  fun _ hj => t.get_set_ne _ _ (by simpa using hj)

/-- Two operations, each on its own parts. -/
theorem keeps_append {x y z : StrandSt} {l l' : List Part} (h : Keeps x y l) (h' : Keeps y z l') : Keeps x z (l ++ l') :=
  keeps_trans (keeps_mono h (by simp)) (keeps_mono h' (by simp))

/-- Two writes, each of its own registers. -/
theorem regsBut_append {x y z : StrandSt} {l l' : List Nat} (h : RegsBut x y l) (h' : RegsBut y z l') : RegsBut x z (l ++ l') :=
  regsBut_trans (regsBut_mono h (by simp)) (regsBut_mono h' (by simp))

/-! ## A master's write of a register of the switch -/

/-- A word register of the switch. -/
def SwitchPlace (off : Nat) : Prop := 0x30000 ≤ off ∧ off < 0x40000 ∧ off % 4 = 0

theorem SwitchPlace.plain {off : Nat} (h : SwitchPlace off) : PlainPlace off := by
  obtain ⟨hlo, hhi, hword⟩ := h
  refine ⟨by omega, by omega, hword, ?_⟩
  simp only [Reg.CORE_WDOG_KICK]
  omega

theorem SwitchPlace.directTail {off : Nat} (h : SwitchPlace off) (d : Dev) (i : StrandId) : d.directTail i off = false := by
  have : ¬ 0x41000 ≤ off := by have := h.2.1; omega
  simp [Dev.directTail, this]

theorem switchPlace_SW_FDB_CMD : SwitchPlace Reg.SW_FDB_CMD := ⟨by decide, by decide, by decide⟩

theorem switchPlace_GCL_CTL (e : Fin 4) : SwitchPlace (Reg.GCL_CTL e) := by simp only [SwitchPlace, Reg.GCL_CTL]; omega

/-- A command that is a master's write of a register of the switch ends with the strand `t` that the register's own operation leaves. -/
theorem ends_switchWrite {c : Instr} {s : State} {dt off v : Nat} {m : Master} {i : StrandId} {t : StrandSt} {but : List Part} {P : Dev → Prop}
    (hx : exec c s = .next (s.runAt dt fun d => d.placeWrite m (.strand i off) v)) (hr : Reaches (later s dt) m i) (hb : SwitchPlace off)
    (hv : v < 2 ^ 32) (ht : (view (later s dt) i).regWrite m.code off (BitVec.ofNat 32 v) = t) (hk : Keeps (view (later s dt) i) t but)
    (hP : ∀ e, Only (later s dt) e i but → e.strand i = t.clean → P e) : Ends c s P := by
  refine ends_runAt hx ?_
  rw [placeWrite_strand _ m i off v hr hb.plain hv (hb.directTail _ i)]
  obtain ⟨ho, he⟩ := onStrand_leaves (d := later s dt) (i := i) (g := fun st => st.regWrite m.code off (BitVec.ofNat 32 v)) ht hk
  exact hP _ ho he

end Sys2Proof.Machine
end


section
/-! Switch: the forwarding table, the gate lists and shaped queues. -/

namespace Sys2Proof.Machine

/-! ## The forwarding table (R150) -/

/-- The operation and the index of a word of SW_FDB_CMD. -/
theorem fieldOf_fdbCmd {k : Nat} (hk : k < 4) (n : Fin 2048) :
    fieldOf (BitVec.ofNat 32 (k * 0x20000000 + n)) 30 29 = k ∧ fieldOf (BitVec.ofNat 32 (k * 0x20000000 + n)) 10 0 = n := by
  have := n.isLt
  simp only [fieldOf, bitsN, Nat.shiftRight_eq_div_pow, BitVec.toNat_ofNat]
  omega

/-- The strand with index `n` noted in SW_FDB_CMD. -/
def StrandSt.fdbIndexed (st : StrandSt) (n : Nat) : StrandSt := st.put Reg.SW_FDB_CMD 10 0 n

theorem fdbIndexed_cmd (st : StrandSt) (n : Fin 2048) : (st.fdbIndexed n).fld Reg.SW_FDB_CMD 10 0 = n := by
  rw [StrandSt.fld, StrandSt.fdbIndexed, StrandSt.put, StrandSt.rd_wr_same, fieldOf_setField_same _ _ (by decide) (by decide)]
  exact Nat.mod_eq_of_lt n.isLt

theorem keeps_fdbNote (st : StrandSt) : Keeps st st.fdbNote [] := keeps_inCyc st _

section
variable (st : StrandSt) (n : Fin 2048)

theorem fdbCmd_write : st.fdbCmd (BitVec.ofNat 32 (1 * 0x20000000 + n)) = st.fdbWrite n := by
  obtain ⟨hop, hidx⟩ := fieldOf_fdbCmd (k := 1) (by decide) n
  simp only [StrandSt.fdbCmd, hop, hidx]

theorem fdbCmd_read : st.fdbCmd (BitVec.ofNat 32 (2 * 0x20000000 + n)) = st.fdbRead n := by
  obtain ⟨hop, hidx⟩ := fieldOf_fdbCmd (k := 2) (by decide) n
  simp only [StrandSt.fdbCmd, hop, hidx]

theorem fdbCmd_clear : st.fdbCmd (BitVec.ofNat 32 (3 * 0x20000000 + n)) = (st.fdbIndexed n).fdbClear := by
  obtain ⟨hop, hidx⟩ := fieldOf_fdbCmd (k := 3) (by decide) n
  simp only [StrandSt.fdbCmd, hop, hidx]
  rfl

/-- The entry that the three data registers spell. -/
def StrandSt.fdbData (st : StrandSt) : FdbEnt := ⟨st.rd Reg.SW_FDB_D0, st.rd Reg.SW_FDB_D1, st.rd Reg.SW_FDB_D2⟩

theorem fdbWrite_eq : st.fdbWrite n = { st.fdbNote.fdbIndexed n with sw := { st.sw with fdb := st.sw.fdb.set {} n st.fdbData } } := by
  rw [StrandSt.fdbWrite, Nat.mod_eq_of_lt n.isLt]
  rfl

theorem fdbWrite_leaves :
    Keeps st (st.fdbWrite n) [.regs, .sw] ∧ RegsBut st (st.fdbWrite n) [Reg.SW_FDB_CMD] ∧ (st.fdbWrite n).fld Reg.SW_FDB_CMD 10 0 = n ∧
      (st.fdbWrite n).fdbAt n = st.fdbData ∧ TabBut {} st.sw.fdb (st.fdbWrite n).sw.fdb [n.val] ∧ (st.fdbWrite n).sw.queues = st.sw.queues := by
  rw [fdbWrite_eq]
  exact ⟨keeps_append (keeps_append (keeps_fdbNote st) (keeps_wr _ _ _)) (keeps_sw _ _), regsBut_wr st.fdbNote _ _, fdbIndexed_cmd st.fdbNote n,
    Tab.get_set_same _ _ _ _, tabBut_set _ _ _ _, rfl⟩

theorem fdbRead_eq :
    st.fdbRead n = (((st.fdbIndexed n).wr Reg.SW_FDB_D0 (st.fdbAt n).d0).wr Reg.SW_FDB_D1 (st.fdbAt n).d1).wr Reg.SW_FDB_D2 (st.fdbAt n).d2 := by
  rw [StrandSt.fdbRead, Nat.mod_eq_of_lt n.isLt]
  rfl

theorem fdbRead_leaves :
    Keeps st (st.fdbRead n) [.regs] ∧ RegsBut st (st.fdbRead n) [Reg.SW_FDB_CMD, Reg.SW_FDB_D0, Reg.SW_FDB_D1, Reg.SW_FDB_D2] ∧
      (st.fdbRead n).fld Reg.SW_FDB_CMD 10 0 = n ∧ st.fdbAt n = (st.fdbRead n).fdbData := by
  rw [fdbRead_eq]
  generalize st.fdbAt n = f
  refine ⟨?_, ?_, ?_, ?_⟩
  · exact keeps_trans (keeps_trans (keeps_trans (keeps_wr _ _ _) (keeps_wr _ _ _)) (keeps_wr _ _ _)) (keeps_wr _ _ _)
  · exact regsBut_append (regsBut_append (regsBut_append (regsBut_wr st _ _) (regsBut_wr _ _ _)) (regsBut_wr _ _ _)) (regsBut_wr _ _ _)
  · refine Eq.trans ?_ (fdbIndexed_cmd st n)
    simp [StrandSt.fld, Reg.SW_FDB_CMD, Reg.SW_FDB_D0, Reg.SW_FDB_D1, Reg.SW_FDB_D2]
  · simp [StrandSt.fdbData, Reg.SW_FDB_D0, Reg.SW_FDB_D1, Reg.SW_FDB_D2]

theorem fdbClear_leaves :
    Keeps st (st.fdbIndexed n).fdbClear [.regs, .sw] ∧ RegsBut st (st.fdbIndexed n).fdbClear [Reg.SW_FDB_CMD] ∧
      (st.fdbIndexed n).fdbClear.fld Reg.SW_FDB_CMD 10 0 = n ∧ (st.fdbIndexed n).fdbClear.sw = { st.sw with fdb := {} } :=
  ⟨keeps_append (keeps_append (keeps_wr st _ _) (keeps_fdbNote _)) (keeps_sw _ _), regsBut_wr st _ _, fdbIndexed_cmd st n, rfl⟩

end

/-! ## The gate lists (R159, R161) -/

/-- The first base + m × cycle at or after a time, and no later one. -/
theorem firstAt_spec {base cycle t : Nat} (hc : 0 < cycle) :
    t ≤ firstAt base cycle t ∧ base ≤ firstAt base cycle t ∧ (firstAt base cycle t - base) % cycle = 0 ∧
      (firstAt base cycle t = base ∨ firstAt base cycle t < t + cycle) := by
  unfold firstAt
  split
  · next h => exact ⟨h, le_refl _, by simp, .inl rfl⟩
  · next h =>
    rw [if_neg (by omega)]
    have hup : t - base ≤ ceilDiv (t - base) cycle * cycle ∧ ceilDiv (t - base) cycle * cycle < t - base + cycle := by
      have hdm := Nat.div_add_mod (t - base + cycle - 1) cycle
      have hlt := Nat.mod_lt (t - base + cycle - 1) hc
      rw [Nat.mul_comm] at hdm
      simp only [ceilDiv]
      omega
    refine ⟨by omega, by omega, ?_, .inr (by omega)⟩
    rw [Nat.add_sub_cancel_left, Nat.mul_mod_left]

/-- What a field's write leaves of the bits below the field. -/
theorem bitOf_setField_below (w : Word) (hi v : Nat) {lo k : Nat} (hk : k < lo) (hl : lo ≤ hi) (hh : hi < 32) :
    bitOf (setField w hi lo v) k = bitOf w k := by
  have hlow : (setField w hi lo v).toNat % 2 ^ lo = w.toNat % 2 ^ lo := by
    have hle : 2 ^ lo * (w.toNat / 2 ^ lo % 2 ^ (hi + 1 - lo)) ≤ w.toNat := (Nat.mul_le_mul_left _ (Nat.mod_le _ _)).trans (Nat.mul_div_le _ _)
    simp only [setField, putN, bitsN, Nat.shiftLeft_eq, Nat.shiftRight_eq_div_pow, BitVec.toNat_ofNat]
    rw [Nat.mod_mod_of_dvd _ (pow_dvd_pow 2 (by omega)), Nat.add_mul_mod_self_right, Nat.mul_comm _ (2 ^ lo), Nat.sub_mul_mod hle]
  have hbit (n : Nat) : bitN n k = (n % 2 ^ lo).testBit k := by
    rw [Nat.testBit_mod_two_pow, Nat.testBit_eq_decide_div_mod_eq, bitN, Nat.shiftRight_eq_div_pow]
    simp [hk, beq_eq_decide]
  rw [bitOf, bitOf, hbit, hbit, hlow]

theorem bitOf_setBit_below (w : Word) {i k : Nat} (b : Bool) (hk : k < i) (hi : i < 32) : bitOf (setBit w i b) k = bitOf w k :=
  bitOf_setField_below w i _ hk (le_refl i) hi

/-- The end of the current cycle of a running list, or the present where none runs: no swap comes before it (R161). -/
def StrandSt.swapDue (st : StrandSt) (e : Nat) : Nat :=
  if st.gclLen e = 0 ∨ st.tNs < (st.gclSt e).base ∨ st.gclCycle e = 0 then st.tNs
  else (st.gclSt e).base + ((st.tNs - (st.gclSt e).base) / st.gclCycle e + 1) * st.gclCycle e

/-- The time of the swap that SWAP arms (R161). -/
def StrandSt.swapTime (st : StrandSt) (e : Nat) : Nat := firstAt (st.gclNextBase e) (st.fld (Reg.GCL_NEXT_CYCLE e) 29 0) (st.swapDue e)

@[simp] theorem StrandSt.gclSt_setGcl (st : StrandSt) (e : Nat) (g : Gcl) : (st.setGcl e g).gclSt e = g := Tab.get_set_same _ _ _ _

theorem keeps_setGcl (st : StrandSt) (e : Nat) (g : Gcl) : Keeps st (st.setGcl e g) [.sw] := keeps_sw _ _

@[simp] theorem StrandSt.setGcl_regs (st : StrandSt) (e : Nat) (g : Gcl) : (st.setGcl e g).regs = st.regs := rfl

section
variable {st : StrandSt} {e : Nat}

theorem gclSwap_pending (h : st.bit (Reg.GCL_CTL e) 29 = true) : st.gclSwap e = st.flag Reg.SW_FLAGS 4 := if_pos h

theorem gclSwap_arms (h : st.bit (Reg.GCL_CTL e) 29 = false) :
    st.gclSwap e = (st.putBit (Reg.GCL_CTL e) 29 true).setGcl e
      { st.gclSt e with swapAt := st.swapTime e, swapCycle := st.fld (Reg.GCL_NEXT_CYCLE e) 29 0 } := by
  rw [StrandSt.gclSwap, if_neg (by simp [h]), StrandSt.swapTime, StrandSt.swapDue]
  simp only [Bool.or_eq_true, decide_eq_true_eq, or_assoc]

end

section
variable (st : StrandSt) (e : Fin 4) (b : Bool)

/-- The strand with GATE_EN of port `e` written. -/
def StrandSt.gateEn : StrandSt := st.putBit (Reg.GCL_CTL e) 31 b

/-- GCL_CTL with SWAP, as the command writes it. -/
theorem gclCtlWrite_swap : st.gclCtlWrite e (BitVec.ofNat 32 (0x10000000 + 0x80000000 * b2n b)) = (st.gateEn e b).gclSwap e := by
  have h31 : bitOf (BitVec.ofNat 32 (0x10000000 + 0x80000000 * b2n b)) 31 = b := by cases b <;> rfl
  have h28 : bitOf (BitVec.ofNat 32 (0x10000000 + 0x80000000 * b2n b)) 28 = true := by cases b <;> rfl
  rw [StrandSt.gclCtlWrite, h31]
  exact if_pos h28

theorem rd_gateEn : (st.gateEn e b).rd (Reg.GCL_CTL e) = setBit (st.rd (Reg.GCL_CTL e)) 31 b := StrandSt.rd_wr_same _ _ _

theorem bit_gateEn {k : Nat} (hk : k < 31) : (st.gateEn e b).bit (Reg.GCL_CTL e) k = st.bit (Reg.GCL_CTL e) k := by
  rw [StrandSt.bit, rd_gateEn]
  exact bitOf_setBit_below _ b hk (by decide)

theorem rd_gateEn_ne {off : Nat} (h : off ≠ Reg.GCL_CTL e) : (st.gateEn e b).rd off = st.rd off := st.rd_wr_ne _ h

theorem fld_gateEn_ne {off : Nat} (hi lo : Nat) (h : off ≠ Reg.GCL_CTL e) : (st.gateEn e b).fld off hi lo = st.fld off hi lo := by
  rw [StrandSt.fld, rd_gateEn_ne st e b h, StrandSt.fld]

theorem nextCycle_gateEn : (st.gateEn e b).fld (Reg.GCL_NEXT_CYCLE e) 29 0 = st.fld (Reg.GCL_NEXT_CYCLE e) 29 0 :=
  fld_gateEn_ne st e b _ _ (by simp only [Reg.GCL_NEXT_CYCLE, Reg.GCL_CTL]; omega)

/-- GATE_EN has no bearing on the time of a swap. -/
theorem swapTime_gateEn : (st.gateEn e b).swapTime e = st.swapTime e := by
  have hlist : (st.gateEn e b).bit (Reg.GCL_CTL e) 30 = st.bit (Reg.GCL_CTL e) 30 := bit_gateEn st e b (by decide)
  have hlen : (st.gateEn e b).gclLen e = st.gclLen e := by
    have hfld := fld_gateEn_ne st e b (off := Reg.GCL_LEN e) (h := by simp only [Reg.GCL_LEN, Reg.GCL_CTL]; omega)
    rw [StrandSt.gclLen, hlist, hfld, hfld, StrandSt.gclLen]
  have hcycle : (st.gateEn e b).gclCycle e = st.gclCycle e :=
    fld_gateEn_ne st e b _ _ (by simp only [Reg.GCL_CUR_CYCLE, Reg.GCL_CTL]; omega)
  have hbase : (st.gateEn e b).gclNextBase e = st.gclNextBase e := by
    rw [StrandSt.gclNextBase, fld_gateEn_ne st e b _ _ (by simp only [Reg.GCL_NEXT_BASE_SH, Reg.GCL_CTL]; omega),
      rd_gateEn_ne st e b (by simp only [Reg.GCL_NEXT_BASE_S, Reg.GCL_CTL]; omega),
      fld_gateEn_ne st e b _ _ (by simp only [Reg.GCL_NEXT_BASE_NS, Reg.GCL_CTL]; omega), StrandSt.gclNextBase]
  have hdue : (st.gateEn e b).swapDue e = st.swapDue e := by
    have htime : (st.gateEn e b).tNs = st.tNs := by simp [StrandSt.tNs, StrandSt.t32, StrandSt.gateEn]
    have hstate : (st.gateEn e b).gclSt e = st.gclSt e := by simp [StrandSt.gclSt, StrandSt.gateEn]
    rw [StrandSt.swapDue, hlen, hcycle, htime, hstate, StrandSt.swapDue]
  rw [StrandSt.swapTime, hbase, nextCycle_gateEn, hdue, StrandSt.swapTime]

theorem gclSwap_pending_leaves (h : st.bit (Reg.GCL_CTL e) 29 = true) :
    let z := (st.gateEn e b).gclSwap e
    Keeps st z [.regs] ∧ RegsBut st z [Reg.GCL_CTL e, Reg.SW_FLAGS] ∧ z.rd (Reg.GCL_CTL e) = setBit (st.rd (Reg.GCL_CTL e)) 31 b ∧
      z.bit Reg.SW_FLAGS 4 = true := by
  intro z
  have hz : z = (st.gateEn e b).flag Reg.SW_FLAGS 4 := gclSwap_pending ((bit_gateEn st e b (by decide)).trans h)
  rw [hz]
  refine ⟨keeps_trans (keeps_wr _ _ _) (keeps_flag _ _ _), regsBut_append (regsBut_wr st _ _) (flagged_flag _ _ _).2, ?_, bit_flag_same _ _ (by decide)⟩
  rw [StrandSt.rd_flag_ne _ _ (by simp only [Reg.GCL_CTL, Reg.SW_FLAGS]; omega), rd_gateEn]

theorem gclSwap_arms_leaves (h : st.bit (Reg.GCL_CTL e) 29 = false) :
    let z := (st.gateEn e b).gclSwap e
    Keeps st z [.regs, .sw] ∧ RegsBut st z [Reg.GCL_CTL e] ∧ z.rd (Reg.GCL_CTL e) = setBit (setBit (st.rd (Reg.GCL_CTL e)) 31 b) 29 true ∧
      z.gclSt e = { st.gclSt e with swapAt := st.swapTime e, swapCycle := st.fld (Reg.GCL_NEXT_CYCLE e) 29 0 } := by
  intro z
  have hz : z = _ := gclSwap_arms ((bit_gateEn st e b (by decide)).trans h)
  have hstate : (st.gateEn e b).gclSt e = st.gclSt e := by simp [StrandSt.gclSt, StrandSt.gateEn]
  rw [swapTime_gateEn, nextCycle_gateEn, hstate] at hz
  generalize ht : (st.gateEn e b).putBit (Reg.GCL_CTL e) 29 true = t at hz
  have hrd : t.rd (Reg.GCL_CTL e) = setBit (setBit (st.rd (Reg.GCL_CTL e)) 31 b) 29 true := by
    rw [← ht, StrandSt.putBit, StrandSt.rd_wr_same, rd_gateEn]
  have hk : Keeps st t [.regs] := ht ▸ keeps_trans (keeps_wr _ _ _) (keeps_wr _ _ _)
  have hr : RegsBut st t [Reg.GCL_CTL e] := ht ▸ regsBut_trans (regsBut_wr st _ _) (regsBut_wr _ _ _)
  have hregs : z.regs = t.regs := by rw [hz, StrandSt.setGcl_regs]
  exact ⟨hz ▸ keeps_append hk (keeps_setGcl _ _ _), regsBut_congr rfl hregs.symm hr, (rd_congr hregs _).trans hrd, hz ▸ StrandSt.gclSt_setGcl _ _ _⟩

/-! ### The position and the swap of a list -/

theorem keeps_gclRefresh : Keeps st (st.gclRefresh e) [.sw] := keeps_setGcl _ _ _

theorem gclSt_gclRefresh : (st.gclRefresh e).gclSt e = { st.gclSt e with entry := (st.gclAt e st.tNs).1, gates := (st.gclAt e st.tNs).2 } :=
  StrandSt.gclSt_setGcl _ _ _

theorem gclAdvance_leaves :
    Keeps st (st.gclAdvance e) [.sw] ∧ TabBut {} st.sw.gcl (st.gclAdvance e).sw.gcl [e.val] ∧
      (st.gclAdvance e).gclSt e =
        if st.env.hold then st.gclSt e else { st.gclSt e with entry := (st.gclAt e st.tNs).1, gates := (st.gclAt e st.tNs).2 } := by
  unfold StrandSt.gclAdvance
  split
  · exact ⟨keeps_refl st _, tabBut_refl _ _ _, rfl⟩
  · exact ⟨keeps_gclRefresh st e, tabBut_set _ _ _ _, gclSt_gclRefresh st e⟩

theorem gclSwapAct_waits (h : ¬ (st.bit (Reg.GCL_CTL e) 29 = true ∧ (st.gclSt e).swapAt ≤ st.tNs)) : st.gclSwapAct e = st := by
  refine if_pos ?_
  by_contra hn
  simp at hn
  exact h hn

/-- The strand with the armed list of port `e` noted as the active one, with its cycle time. -/
def StrandSt.gclFlipped (st : StrandSt) (e : Nat) : StrandSt :=
  ((st.putBit (Reg.GCL_CTL e) 29 false).putBit (Reg.GCL_CTL e) 30 (!st.bit (Reg.GCL_CTL e) 30)).put (Reg.GCL_CUR_CYCLE e) 29 0 (st.gclSt e).swapCycle

theorem gclSwapAct_acts (h : st.bit (Reg.GCL_CTL e) 29 = true ∧ (st.gclSt e).swapAt ≤ st.tNs) :
    st.gclSwapAct e = ((st.gclFlipped e).setGcl e { st.gclSt e with base := (st.gclSt e).swapAt }).gclAdvance e :=
  if_neg (by simp [h])

theorem gclFlipped_leaves :
    Keeps st (st.gclFlipped e) [.regs] ∧ RegsBut st (st.gclFlipped e) [Reg.GCL_CTL e, Reg.GCL_CUR_CYCLE e] ∧
      (st.gclFlipped e).rd (Reg.GCL_CTL e) = setBit (setBit (st.rd (Reg.GCL_CTL e)) 29 false) 30 (!bitOf (st.rd (Reg.GCL_CTL e)) 30) ∧
      (st.gclFlipped e).gclCycle e = (st.gclSt e).swapCycle % 2 ^ 30 := by
  have hne : Reg.GCL_CTL e ≠ Reg.GCL_CUR_CYCLE e := by simp only [Reg.GCL_CTL, Reg.GCL_CUR_CYCLE]; omega
  refine ⟨keeps_trans (keeps_trans (keeps_wr _ _ _) (keeps_wr _ _ _)) (keeps_wr _ _ _),
    regsBut_append (regsBut_trans (regsBut_wr st _ _) (regsBut_wr _ _ _)) (regsBut_wr _ _ _), ?_, ?_⟩
  · rw [StrandSt.gclFlipped, StrandSt.put, StrandSt.rd_wr_ne _ _ hne, StrandSt.putBit, StrandSt.rd_wr_same, StrandSt.putBit, StrandSt.rd_wr_same,
      StrandSt.bit]
  · rw [StrandSt.gclCycle, StrandSt.fld, StrandSt.gclFlipped, StrandSt.put, StrandSt.rd_wr_same, fieldOf_setField_same _ _ (by decide) (by decide)]

theorem gclSwapAct_acts_leaves (h : st.bit (Reg.GCL_CTL e) 29 = true ∧ (st.gclSt e).swapAt ≤ st.tNs) :
    let z := st.gclSwapAct e
    Keeps st z [.regs, .sw] ∧ RegsBut st z [Reg.GCL_CTL e, Reg.GCL_CUR_CYCLE e] ∧
      z.rd (Reg.GCL_CTL e) = setBit (setBit (st.rd (Reg.GCL_CTL e)) 29 false) 30 (!bitOf (st.rd (Reg.GCL_CTL e)) 30) ∧
      z.gclCycle e = (st.gclSt e).swapCycle % 2 ^ 30 ∧ (z.gclSt e).base = (st.gclSt e).swapAt := by
  intro z
  obtain ⟨hk, hr, hctl, hcycle⟩ := gclFlipped_leaves st e
  obtain ⟨hk', -, hstate⟩ := gclAdvance_leaves ((st.gclFlipped e).setGcl e { st.gclSt e with base := (st.gclSt e).swapAt }) e
  rw [← gclSwapAct_acts st e h] at hk' hstate
  have hregs : z.regs = (st.gclFlipped e).regs := hk' .regs (by simp [Part.all]) (by simp)
  refine ⟨keeps_append hk (keeps_trans (keeps_setGcl _ _ _) hk'), regsBut_congr rfl hregs.symm hr, (rd_congr hregs _).trans hctl, ?_, ?_⟩
  · rw [StrandSt.gclCycle, StrandSt.fld, rd_congr hregs]
    exact hcycle
  · rw [show z.gclSt e = _ from hstate, StrandSt.gclSt_setGcl]
    split <;> rfl

end

/-! ## Shaped queues (R157, R158) -/

theorem cbsZero_waits {st : StrandSt} {e : Fin 4} {q : Nat} (h : st.sw.credit.get 0 (qKey e q) < 0) : st.cbsZero e q = st := by
  simp [StrandSt.cbsZero, h]

/-- The egress port of an E port's number. -/
theorem egress_ePort (st : StrandSt) (p : Fin 4) (err : BufErr) : st.egress (p.castLE (by decide)) err = st.egressE p err := by
  have hp : Fin.ofNat 4 (p.castLE (show 4 ≤ 10 by decide)).val = p := Fin.ext (Nat.mod_eq_of_lt p.isLt)
  rw [StrandSt.egress, if_pos (by simp), hp]

theorem cbsZero_selects {st : StrandSt} {e : Fin 4} {q : Nat} (hs : st.bit (Reg.SW_CBS e q) 31 = true) (hq : st.queue e q ≠ [])
    (hl : st.linkUp e = true) (h : ¬ st.sw.credit.get 0 (qKey e q) < 0) : st.cbsZero e q = st.egress (e.castLE (by decide)) .clean := by
  rw [egress_ePort]
  simp [StrandSt.cbsZero, hs, hq, hl, h]

/-! ## The commands -/

/-- Settles O29: each command by what its operation leaves of the forwarding table, of a gate list, or of the queues. -/
theorem switchTables : Obligations.SwitchTables := by
  unfold Obligations.SwitchTables
  intro s dt m i n o q b d x cmd ctl
  have hv : 0x10000000 + 0x80000000 * b2n b < 2 ^ 32 := by cases b <;> decide
  refine ⟨fun hr => ⟨?_, ?_, ?_, fun h => ?_, fun h hc => ?_⟩, fun ha => ⟨?_, ?_, fun hs hq hl => ?_⟩⟩
  · obtain ⟨hk, h⟩ := fdbWrite_leaves (view d i) n
    exact ends_switchWrite (c := .fdbWrite dt m i n) rfl hr switchPlace_SW_FDB_CMD (by omega) (fdbCmd_write _ n) hk fun e ho hz => ⟨ho, hz ▸ h⟩
  · obtain ⟨hk, hregs, hcmd, hdata⟩ := fdbRead_leaves (view d i) n
    exact ends_switchWrite (c := .fdbRead dt m i n) rfl hr switchPlace_SW_FDB_CMD (by omega) (fdbCmd_read _ n) hk
      fun e ho hz => ⟨ho, hz ▸ hcmd, hz ▸ hregs, hz ▸ hdata⟩
  · obtain ⟨hk, h⟩ := fdbClear_leaves (view d i) n
    exact ends_switchWrite (c := .fdbClear dt m i n) rfl hr switchPlace_SW_FDB_CMD (by omega) (fdbCmd_clear _ n) hk fun e ho hz => ⟨ho, hz ▸ h⟩
  · obtain ⟨hk, h⟩ := gclSwap_pending_leaves (view d i) o b h
    exact ends_switchWrite (c := .swap dt m i o b) rfl hr (switchPlace_GCL_CTL o) hv ((regWrite_GCL_CTL _ _ _ o).trans (gclCtlWrite_swap _ o b)) hk
      fun e ho hz => ⟨ho, hz ▸ h⟩
  · obtain ⟨hk, hregs, hrd, hstate⟩ := gclSwap_arms_leaves (view d i) o b h
    refine ends_switchWrite (c := .swap dt m i o b) rfl hr (switchPlace_GCL_CTL o) hv ((regWrite_GCL_CTL _ _ _ o).trans (gclCtlWrite_swap _ o b)) hk
      fun e ho hz => ⟨ho, hz ▸ hregs, hz ▸ hrd, ?_⟩
    intro g c t0 due
    have hg : g = { x.gclSt o with swapAt := x.swapTime o, swapCycle := c } := by
      rw [show g = (e.strand i).gclSt o from rfl, hz]
      exact hstate
    have hat : g.swapAt = x.swapTime o := by rw [hg]
    rw [hat]
    exact ⟨hg, firstAt_spec hc⟩
  · obtain ⟨hk, htab, hstate⟩ := gclAdvance_leaves (view d i) o
    have hhold : (view d i).env.hold = decide (d.phase i = .hold) := rfl
    simp only [hhold, decide_eq_true_eq] at hstate
    refine ends_onActive (g := fun st => st.gclAdvance o) rfl ha rfl hk fun e ho hz => ⟨ho, hz ▸ htab, ?_⟩
    rw [hz]
    exact hstate
  · split
    · next h =>
      obtain ⟨hk, h⟩ := gclSwapAct_acts_leaves (view d i) o h
      exact ends_onActive (g := fun st => st.gclSwapAct o) rfl ha rfl hk fun e ho hz => ⟨ho, hz ▸ h⟩
    · next h => exact ends_onActive rfl ha (gclSwapAct_waits (view d i) o h) (keeps_refl _ _) fun e ho _ => ho
  · split
    · next h => exact ends_onActive rfl ha (cbsZero_waits (st := view d i) h) (keeps_refl _ _) fun e ho _ => ho
    · next h =>
      refine ends_runAt rfl (ends_runAt (c := .egressSelect dt i (o.castLE (by decide)) .clean) rfl ?_)
      rw [Dev.onActive_eq _ _ _ ha, Dev.onActive_eq _ _ _ ha]
      exact congrArg (d.absorb i) (cbsZero_selects (st := view d i) hs hq hl h).symm

end Sys2Proof.Machine
end

section
/-! Switch: frames in its queues, from their eligibility to the ports that send them. -/

namespace Sys2Proof.Machine

/-! ## Queues -/

theorem keeps_setQueue (st : StrandSt) (e q : Nat) (l : List SwRef) : Keeps st (st.setQueue e q l) [.sw] := keeps_sw _ _

@[simp] theorem StrandSt.queue_setQueue_same (st : StrandSt) (e q : Nat) (l : List SwRef) : (st.setQueue e q l).queue e q = l := Tab.get_set_same _ _ _ _

theorem tabBut_setQueue (st : StrandSt) (e q : Nat) (l : List SwRef) : TabBut [] st.sw.queues (st.setQueue e q l).sw.queues [qKey e q] := tabBut_set _ _ _ _

theorem qKey_inj {e e' q q' : Nat} (hq : q < 8) (hq' : q' < 8) (h : qKey e q = qKey e' q') : e = e' ∧ q = q' := by
  simp only [qKey] at h
  omega

theorem queue_setQueue_ne (st : StrandSt) {e e' q q' : Nat} (l : List SwRef) (hq : q < 8) (hq' : q' < 8) (h : ¬ (e' = e ∧ q' = q)) :
    (st.setQueue e q l).queue e' q' = st.queue e' q' :=
  Tab.get_set_ne _ _ _ fun hk => h (qKey_inj hq' hq hk)

/-- The oldest frame that is not yet eligible becomes so, if its 24 cycles have passed; those before and behind it stay as they are (R147). -/
theorem markEligible_first (now : Nat) {u : List SwRef} (hu : ∀ t ∈ u, t.eligible = true) {r : SwRef} (hr : r.eligible = false) (v : List SwRef) :
    markEligible now (u ++ r :: v) = u ++ { r with eligible := decide (r.written + 24 ≤ now) } :: v := by
  induction u with
  | nil =>
    rw [List.nil_append, markEligible, hr, if_neg Bool.false_ne_true]
    split
    · next h => simp [h]
    · next h => simp [h, ← hr]
  | cons t u ih =>
    rw [List.cons_append, markEligible, if_pos (hu t (by simp)), ih fun x hx => hu x (by simp [hx]), List.cons_append]

/-! ## A frame that leaves its queue (R157, R163) -/

/-- The head of queue `q` of port `e` has left it to `v`, counted with its octets; beside these counters only those of `also` have changed. -/
def HeadLeft (x z : StrandSt) (e q octets : Nat) (v : List SwRef) (also : List Nat) : Prop :=
  z.queue e q = v ∧ TabBut [] x.sw.queues z.sw.queues [qKey e q] ∧ z.counter (Reg.SW_QCNT e q) = min counterMax (x.counter (Reg.SW_QCNT e q) + 1) ∧
    z.counter (Reg.SW_QCNT e q + 8) = min counterMax (x.counter (Reg.SW_QCNT e q + 8) + octets) ∧
    CntsBut x z (Reg.SW_QCNT e q :: (Reg.SW_QCNT e q + 8) :: also)

theorem HeadLeft.congr {x y z : StrandSt} {e q octets : Nat} {v : List SwRef} {also : List Nat} (h : HeadLeft x y e q octets v also)
    (hq : z.sw.queues = y.sw.queues) (hc : z.cnt = y.cnt) : HeadLeft x z e q octets v also := by
  simpa only [HeadLeft, StrandSt.queue, CntsBut, StrandSt.counter, hq, hc] using h

/-- One more count, elsewhere. -/
theorem HeadLeft.counted {x y z : StrandSt} {e q octets off : Nat} {v : List SwRef} (h : HeadLeft x y e q octets v []) (hc : Counted y z off)
    (hq : z.sw.queues = y.sw.queues) (h0 : Reg.SW_QCNT e q ≠ off) (h8 : Reg.SW_QCNT e q + 8 ≠ off) : HeadLeft x z e q octets v [off] := by
  obtain ⟨hqueue, htab, hframes, hoctets, hcnts⟩ := h
  obtain ⟨-, hother⟩ := hc
  refine ⟨?_, hq ▸ htab, (hother _ (by simpa using h0)).trans hframes, (hother _ (by simpa using h8)).trans hoctets, cntsBut_append hcnts hother⟩
  rw [StrandSt.queue, hq]
  exact hqueue

theorem headLeft_count {x y : StrandSt} {e q : Nat} {v : List SwRef} (octets : Nat) (hq : y.sw.queues = x.sw.queues.set [] (qKey e q) v) (hc : y.cnt = x.cnt) :
    HeadLeft x ((y.inc (Reg.SW_QCNT e q)).addCnt (Reg.SW_QCNT e q + 8) octets) e q octets v [] := by
  have hcnt (off : Nat) : y.counter off = x.counter off := by rw [StrandSt.counter, hc, StrandSt.counter]
  refine ⟨?_, ?_, ?_, ?_, ?_⟩
  · simp [StrandSt.queue, hq]
  · simpa [hq] using tabBut_set [] x.sw.queues (qKey e q) v
  · rw [counter_addCnt_ne _ _ (by omega), counter_inc_same, hcnt]
  · rw [counter_addCnt_same, counter_inc_ne _ (by omega), hcnt]
  · intro off hoff
    rw [← hcnt]
    exact cntsBut_append (counted_inc y _).2 (cntsBut_addCnt _ _ _) off hoff

/-! ## E ports (R157, R166) -/

/-- The frame that starts on port `p` from queue `q`, with `k` bytes as its first piece. -/
def StrandSt.newTx (st : StrandSt) (p : Fin 4) (q : Nat) (r : SwRef) (wire : List Byte) (k : Nat) : TxCur :=
  { frame := (st.sw.frames.get {} r.fid).frame, queue := q, ref := some (r.fid, r.cells), start := st.now, stop := st.now + st.frameCycles p k, wire := wire,
    upto := k, stamp := some (st.now + bytesCycles (st.speedAct p) 8), inv := r.inv }

section
variable (st : StrandSt) (p : Fin 4) (q : Nat) (r : SwRef) (wire : List Byte) (k : Nat)

theorem startTx_leaves :
    let z := st.startTx p q r wire k
    Keeps st z [.cnt, .ports, .sw] ∧ HeadLeft st z p q (wire.length + 4) (st.queue p q).tail [] ∧ z.sw.frames = st.sw.frames ∧
      (∀ j, j ≠ p → z.port j = st.port j) ∧ (z.port p).tx = some (st.newTx p q r wire k) := by
  intro z
  generalize hx : ({ st.port p with tx := some (st.newTx p q r wire k) } : Port) = x
  have hz : z = (((st.setPort p x).setQueue p q (st.queue p q).tail).inc (Reg.SW_QCNT p q)).addCnt (Reg.SW_QCNT p q + 8) (wire.length + 4) := by
    rw [← hx]
    rfl
  have hports : z.ports = (st.setPort p x).ports := by rw [hz]; rfl
  refine ⟨?_, hz ▸ headLeft_count _ rfl rfl, by rw [hz]; rfl, fun j hj => ?_, ?_⟩
  · rw [hz]
    exact keeps_mono (keeps_append (keeps_append (keeps_append (keeps_setPort _ _ _) (keeps_setQueue _ _ _ _)) (keeps_inc _ _)) (keeps_addCnt _ _ _)) (by simp)
  · exact (congrArg (Quad.get · j) hports).trans (st.port_setPort_ne x hj)
  · refine (congrArg (fun y => (Quad.get y p).tx) hports).trans ?_
    exact (congrArg Port.tx (st.port_setPort_same p x)).trans (hx ▸ rfl)

end

/-- A read that finds byte `n` of a frame lost is counted and flagged, and the failed cell is noted with the frame (R166). -/
theorem bufRead_lost (st : StrandSt) (fid n : Nat) (bad : Bool) :
    ∃ t : Tab SwFrame, st.bufRead fid (.lost n bad) =
      { (st.inc (Reg.SW_UCNT + 16)).flag Reg.SW_FLAGS 2 with sw := { st.sw with frames := t } } := by
  unfold StrandSt.bufRead
  dsimp only
  split
  · exact ⟨st.sw.frames, rfl⟩
  · exact ⟨_, rfl⟩

theorem bufRead_lost_leaves (st : StrandSt) (fid n : Nat) (bad : Bool) :
    let z := st.bufRead fid (.lost n bad)
    Keeps st z [.regs, .cnt, .sw] ∧ RegsBut st z [Reg.SW_FLAGS] ∧ z.bit Reg.SW_FLAGS 2 = true ∧ Counted st z (Reg.SW_UCNT + 16) ∧
      z.sw.queues = st.sw.queues ∧ z.ports = st.ports := by
  intro z
  obtain ⟨t, ht⟩ := bufRead_lost st fid n bad
  have hregs : z.regs = ((st.inc (Reg.SW_UCNT + 16)).flag Reg.SW_FLAGS 2).regs := (congrArg StrandSt.regs ht).trans rfl
  have hcnt : z.cnt = (st.inc (Reg.SW_UCNT + 16)).cnt := (congrArg StrandSt.cnt ht).trans rfl
  refine ⟨?_, ?_, ?_, ?_, (congrArg (fun y => y.sw.queues) ht).trans rfl, (congrArg StrandSt.ports ht).trans rfl⟩
  · rw [show z = _ from ht]
    exact keeps_mono (keeps_append (keeps_append (keeps_inc st _) (keeps_flag _ _ _)) (keeps_sw _ _)) (by simp)
  · exact regsBut_congr rfl hregs.symm (flagged_flag (st.inc (Reg.SW_UCNT + 16)) _ _).2
  · rw [StrandSt.bit, rd_congr hregs]
    exact bit_flag_same _ _ (by decide)
  · simpa only [Counted, CntsBut, StrandSt.counter, hcnt] using counted_inc st (Reg.SW_UCNT + 16)

/-! ### The choice of a queue (R157) -/

section
variable {st : StrandSt} {p : Fin 4}

/-- A head that its port may send stays (R108, R117, R122). -/
theorem dropHeads_stays {q : Nat} (hl : st.linkUp p = true) (hh : st.env.hold = false)
    (hm : ∀ b ∈ st.headBytes p q, b.2.length + 4 ≤ st.maxLen p) (n : Nat) : st.dropHeads p q n = st := by
  cases n with
  | zero => rfl
  | succ n =>
    unfold StrandSt.dropHeads
    split
    · rfl
    · next r wire hb => simp [hl, hh, Nat.not_lt.2 (hm _ hb)]

/-- No flow-control frame starts where none waits. -/
theorem fcGo_none (hc : (st.port p).fc = {}) : st.fcGo p = st := by
  unfold StrandSt.fcGo
  split
  · rfl
  · rw [hc]
    rfl

theorem qReady_empty {e q : Nat} (h : st.queue e q = []) : st.qReady e q = false := by simp [StrandSt.qReady, h]

theorem guardOf_ungated {q n : Nat} (h : st.bit (Reg.GCL_CTL p) 31 = false) : st.guardOf p q n = 0 := if_pos (by simp [h])

/-- The highest queue that is not empty is chosen, where its head may start whole. -/
theorem pick_highest {ok : Nat → Bool} (hok : ∀ j, ok j = true) {q : Nat} {r : SwRef} {wire : List Byte} (hr : st.qReady p q = true)
    (hb : st.headBytes p q = some (r, wire)) (hg : st.bit (Reg.GCL_CTL p) 31 = false) (hf : st.flgHolds p (st.frameCycles p wire.length) = false)
    {n : Nat} (hn : q < n) (hhi : ∀ j < n, q < j → st.queue p j = []) : st.pick p ok n = (some (q, 0), st) := by
  induction n with
  | zero => omega
  | succ n ih =>
    unfold StrandSt.pick
    rcases Nat.lt_succ_iff_lt_or_eq.1 hn with h | rfl
    · rw [qReady_empty (hhi n (Nat.lt_succ_self n) h), Bool.and_false, if_neg Bool.false_ne_true]
      exact ih h fun j hj => hhi j (by omega)
    · simp [hok, hr, hb, hf, guardOf_ungated hg]

/-- An idle port that may send starts the head of its highest non-empty queue, if that may start whole. -/
theorem egressE_idle {q : Nat} {r : SwRef} {wire : List Byte} (err : BufErr) (hh : st.env.hold = false) (ht : (st.port p).tx = none)
    (hheld : (st.port p).txHeld = none) (hc : (st.port p).fc = {}) (hl : st.linkUp p = true) (hx : st.txFree p = true)
    (hm : ∀ j < 8, ∀ b ∈ st.headBytes p j, b.2.length + 4 ≤ st.maxLen p) (hq : q < 8) (hhi : ∀ j < 8, q < j → st.queue p j = [])
    (hb : st.headBytes p q = some (r, wire)) (hr : st.qReady p q = true) (hg : st.bit (Reg.GCL_CTL p) 31 = false)
    (hf : st.flgHolds p (st.frameCycles p wire.length) = false) : st.egressE p err = st.launch p q 0 err := by
  have hdrops : (List.range 8).foldl (fun (s : StrandSt) j => s.dropHeads p j (s.queue p j).length) st = st :=
    List.foldlRecOn (motive := (· = st)) _ _ rfl fun s hs j hj => by
      rw [hs]
      exact dropHeads_stays hl hh (hm j (List.mem_range.1 hj)) _
  unfold StrandSt.egressE
  rw [ht]
  dsimp only
  rw [hdrops, fcGo_none hc, ht]
  simp [hl, hx, hheld, pick_highest (st := st) (ok := fun _ => true) (fun _ => rfl) hr hb hg hf hq hhi]

end

/-! ### The start of a frame (R157, R166) -/

section
variable {st : StrandSt} {p : Fin 4} {q : Nat} {r : SwRef} {wire : List Byte} (hb : st.headBytes p q = some (r, wire))
include hb

theorem launch_clean : st.launch p q 0 .clean = st.startTx p q r wire wire.length := by
  rw [StrandSt.launch, hb]
  rfl

theorem launch_lost {n : Nat} {bad : Bool} {s l : StrandSt} {c : TxCur} (hs : st.startTx p q r wire wire.length = s)
    (hl : s.bufRead r.fid (.lost n bad) = l)
    (hc : (l.port p).tx = some c) : st.launch p q 0 (.lost n bad) = l.setPort p { l.port p with tx := some (c.cutAt n (l.frameCycles p n)) } := by
  unfold StrandSt.launch
  rw [hb]
  dsimp only
  rw [if_pos rfl, hs, hl, hc]

/-- A frame that is read only up to byte `n` is sent up to there. -/
theorem launch_lost_leaves {n : Nat} (bad : Bool) (hn : n < wire.length) :
    let z := st.launch p q 0 (.lost n bad)
    Keeps st z [.regs, .cnt, .ports, .sw] ∧ RegsBut st z [Reg.SW_FLAGS] ∧ z.bit Reg.SW_FLAGS 2 = true ∧
      HeadLeft st z p q (wire.length + 4) (st.queue p q).tail [Reg.SW_UCNT + 16] ∧
      z.counter (Reg.SW_UCNT + 16) = min counterMax (st.counter (Reg.SW_UCNT + 16) + 1) ∧ (∀ j, j ≠ p → z.port j = st.port j) ∧
      ∃ t ∈ (z.port p).tx, t.wire = wire ∧ t.queue = q ∧ t.start = st.now ∧ t.upto = n ∧ t.inv = true ∧ t.broke = true := by
  intro z
  obtain ⟨hk, hleft, -, hothers, htx⟩ := startTx_leaves st p q r wire wire.length
  generalize hs : st.startTx p q r wire wire.length = s at hk hleft hothers htx
  obtain ⟨hk', hregs, hflag, hcount, hqueues, hports⟩ := bufRead_lost_leaves s r.fid n bad
  generalize hl : s.bufRead r.fid (.lost n bad) = l at hk' hregs hflag hcount hqueues hports
  have hcur : (l.port p).tx = some (st.newTx p q r wire wire.length) := (congrArg (fun y => (Quad.get y p).tx) hports).trans htx
  generalize hx : ({ l.port p with tx := some ((st.newTx p q r wire wire.length).cutAt n (l.frameCycles p n)) } : Port) = x
  have hz : z = l.setPort p x := (launch_lost hb hs hl hcur).trans (by rw [hx])
  have hsregs : s.regs = st.regs := hk .regs (by simp [Part.all]) (by simp)
  have h0 : Reg.SW_QCNT p q ≠ Reg.SW_UCNT + 16 ∧ Reg.SW_QCNT p q + 8 ≠ Reg.SW_UCNT + 16 := by simp only [Reg.SW_QCNT, Reg.SW_UCNT]; omega
  obtain ⟨-, -, -, -, hcnts⟩ := id hleft
  have hleft' := hleft.counted hcount hqueues h0.1 h0.2
  rw [hz]
  refine ⟨?_, regsBut_congr hsregs rfl hregs, hflag, hleft'.congr rfl rfl, ?_, fun j hj => ?_, (st.newTx p q r wire wire.length).cutAt n (l.frameCycles p n), ?_⟩
  · exact keeps_mono (keeps_append (keeps_append hk hk') (keeps_setPort _ _ _)) (by simp)
  · rw [← hcnts (Reg.SW_UCNT + 16) (by simp [Ne.symm h0.1, Ne.symm h0.2])]
    exact hcount.1
  · exact (l.port_setPort_ne x hj).trans ((congrArg (Quad.get · j) hports).trans (hothers j hj))
  · have hcut : ¬ wire.length ≤ n := by omega
    simp [← hx, TxCur.cutAt, StrandSt.newTx, hcut]

end

/-! ## V ports (R148, R157) -/

/-! ### The release of a stored frame (R163, R166) -/

/-- What the release of a stored frame may change: the buffer, and where a failed cell stays in service a flag. -/
structure Released (x y : StrandSt) : Prop where
  keeps : Keeps x y [.regs, .sw]
  regs : RegsBut x y [Reg.SW_FLAGS]
  queues : y.sw.queues = x.sw.queues

theorem Released.trans {x y z : StrandSt} (h : Released x y) (h' : Released y z) : Released x z :=
  ⟨keeps_trans h.keeps h'.keeps, regsBut_trans h.regs h'.regs, h'.queues.trans h.queues⟩

/-- A change of the buffer beside the queues. -/
theorem Released.of_sw (st : StrandSt) {w : Switch} (h : w.queues = st.sw.queues) : Released st { st with sw := w } :=
  ⟨keeps_mono (keeps_sw st w) (by simp), regsBut_refl st _, h⟩

theorem Released.report {x y : StrandSt} (h : Released x y) (code : Nat) (cls : FClass) (args : List Nat) : Released x (y.report code cls args) :=
  ⟨fun p hp hb => part_same_trans (h.keeps p hp hb) (by cases p <;> rfl), h.regs, h.queues⟩

theorem freeFailed_released (st : StrandSt) (c : CellFault) : Released st (st.freeFailed c) := by
  have hsame : Released st st := .of_sw st rfl
  unfold StrandSt.freeFailed
  split
  · split
    · exact hsame.report _ _ _
    · exact hsame
  · split
    · exact (Released.of_sw st (w := { st.sw with retired := c.cell :: st.sw.retired }) rfl).report _ _ _
    · exact Released.report ⟨keeps_mono (keeps_flag st _ _) (by simp), (flagged_flag st _ _).2, rfl⟩ _ _ _

theorem release_released (st : StrandSt) (fid : Nat) : Released st (st.release fid) := by
  unfold StrandSt.release
  dsimp only
  split
  · exact .of_sw st rfl
  · refine List.foldlRecOn (motive := Released st) _ _ (.of_sw st rfl) fun s hs c _ => hs.trans (freeFailed_released s c)

theorem popQueue_counted {st : StrandSt} {e q : Nat} {r : SwRef} {v : List SwRef} (h : st.queue e q = r :: v) (octets : Nat) :
    let z := st.popQueue e q true octets
    Keeps st z [.regs, .cnt, .sw] ∧ RegsBut st z [Reg.SW_FLAGS] ∧ HeadLeft st z e q octets v [] := by
  intro z
  obtain ⟨hk, hregs, hqueues⟩ := release_released (st.setQueue e q v) r.fid
  have hz : z = (((st.setQueue e q v).release r.fid).inc (Reg.SW_QCNT e q)).addCnt (Reg.SW_QCNT e q + 8) octets := by
    rw [show z = st.popQueue e q true octets from rfl]
    unfold StrandSt.popQueue
    rw [h]
    exact if_pos rfl
  have hcnt : ((st.setQueue e q v).release r.fid).cnt = st.cnt := hk .cnt (by simp [Part.all]) (by simp)
  rw [hz]
  exact ⟨keeps_mono (keeps_append (keeps_append (keeps_append (keeps_setQueue st e q v) hk) (keeps_inc _ _)) (keeps_addCnt _ _ _)) (by simp), hregs,
    headLeft_count octets hqueues hcnt⟩

/-! ### The choice and the delivery -/

section
variable {st : StrandSt} {k : Fin 4}

/-- A V port that is not ready takes no frame. -/
theorem egressI_notReady {e : Nat} (h : st.internalReady e = false) (err : BufErr) : st.egressI e err = st := by
  have hnone : (List.range 8).reverse.find? (fun q => st.internalReady e && st.qReady e q) = none := List.find?_eq_none.2 fun q _ => by simp [h]
  unfold StrandSt.egressI
  rw [hnone]

theorem internalReady_vPort {n : Nat} (hn : st.vEngine k = some n) :
    st.internalReady (6 + k) = (st.txDepth n != 0 && (st.sw.vports.get {} k).toSend.isEmpty) := by
  simp [StrandSt.internalReady, hn]

theorem internalReady_vPort_none (hn : st.vEngine k = none) : st.internalReady (6 + k) = false := by
  simp [StrandSt.internalReady, hn]

end

theorem find_highest {p : Nat → Bool} {q n : Nat} (hq : q < n) (hp : p q = true) (hhi : ∀ j < n, q < j → p j = false) :
    (List.range n).reverse.find? p = some q := by
  induction n with
  | zero => omega
  | succ n ih =>
    rw [List.range_succ, List.reverse_append, List.reverse_singleton, List.singleton_append, List.find?_cons]
    rcases Nat.lt_succ_iff_lt_or_eq.1 hq with h | rfl
    · rw [hhi n (Nat.lt_succ_self n) h]
      exact ih h fun j hj => hhi j (by omega)
    · rw [hp]

/-- The strand with V port `k` replaced. -/
def StrandSt.setVPort (st : StrandSt) (k : Nat) (v : VPort) : StrandSt := { st with sw := { st.sw with vports := st.sw.vports.set {} k v } }

theorem keeps_setVPort (st : StrandSt) (k : Nat) (v : VPort) : Keeps st (st.setVPort k v) [.sw] := keeps_sw _ _

@[simp] theorem StrandSt.vport_setVPort (st : StrandSt) (k : Nat) (v : VPort) : (st.setVPort k v).sw.vports.get {} k = v := Tab.get_set_same _ _ _ _

section
variable {st : StrandSt} {k : Fin 4} {n q : Nat} {r : SwRef} {v : List SwRef} (hn : st.vEngine k = some n) (hd : st.txDepth n ≠ 0)
  (hs : (st.sw.vports.get {} k).toSend = []) (hq : st.queue (6 + k) q = r :: v) (hr : r.eligible = true) (h8 : q < 8)
  (hhi : ∀ j < 8, q < j → st.queue (6 + k) j = [])
include hn hd hs hq hr h8 hhi

/-- A V port that is ready takes the head of its highest non-empty queue. -/
theorem egressI_vPort :
    let f := (st.sw.frames.get {} r.fid).frame.deliveredBy r .clean
    let z := st.popQueue (6 + k) q true f.bytes.length
    st.egressI (6 + k) .clean = z.setVPort k { z.sw.vports.get {} k with toSend := vHeader f :: vWords f.bytes } := by
  intro f z
  have hready : st.internalReady (6 + k) = true := by simp [internalReady_vPort hn, hd, hs]
  have hfind : (List.range 8).reverse.find? (fun j => st.internalReady (6 + k) && st.qReady (6 + k) j) = some q := by
    refine find_highest h8 ?_ fun j hj hqj => by rw [qReady_empty (hhi j hj hqj), Bool.and_false]
    have hport : 3 < 6 + k.val := by omega
    simp [hready, StrandSt.qReady, hq, hr, hport]
  unfold StrandSt.egressI
  rw [hfind]
  dsimp only
  rw [hq]
  dsimp only
  rw [if_neg (by omega), Nat.add_sub_cancel_left]
  rfl

theorem egressI_vPort_leaves :
    let f := (st.sw.frames.get {} r.fid).frame.deliveredBy r .clean
    let z := st.egressI (6 + k) .clean
    Keeps st z [.regs, .cnt, .sw] ∧ RegsBut st z [Reg.SW_FLAGS] ∧ HeadLeft st z (6 + k) q f.bytes.length v [] ∧
      (z.sw.vports.get {} k).toSend = vHeader f :: vWords f.bytes := by
  intro f z
  rw [show z = _ from egressI_vPort hn hd hs hq hr h8 hhi]
  obtain ⟨hk, hregs, hleft⟩ := popQueue_counted hq f.bytes.length
  exact ⟨keeps_mono (keeps_append hk (keeps_setVPort _ _ _)) (by simp), hregs, hleft.congr rfl rfl, by rw [StrandSt.vport_setVPort]⟩

end

end Sys2Proof.Machine
end

section
/-! Switch: frames of internal sources, and the words of V ports. -/

namespace Sys2Proof.Machine

/-! ## Admission of a frame of an internal source (R153, R154) -/

/-- The strand with other frames waiting at its internal sources. -/
def StrandSt.waits (st : StrandSt) (ws : List SwWait) : StrandSt := { st with sw := { st.sw with waiting := ws } }

/-- The destinations of a frame: only the count of a miss changes, whoever waits. -/
theorem destinations_eq (st : StrandSt) (mask : Nat) (f : Frame) :
    ((st.destinations mask f).2 = st ∨ (st.destinations mask f).2 = st.inc (Reg.SW_UCNT + 8 * 15)) ∧
      ∀ ws, (st.waits ws).destinations mask f = ((st.destinations mask f).1, (st.destinations mask f).2.waits ws) := by
  have hlook (ws : List SwWait) : (st.waits ws).fdbLookup f.info.vid f.bytes = st.fdbLookup f.info.vid f.bytes := rfl
  unfold StrandSt.destinations
  simp only [hlook]
  split
  · exact ⟨.inl rfl, fun _ => rfl⟩
  · split
    · exact ⟨.inl rfl, fun _ => rfl⟩
    · exact ⟨.inr rfl, fun _ => rfl⟩

theorem keeps_destinations (st : StrandSt) (mask : Nat) (f : Frame) : Keeps st (st.destinations mask f).2 [.cnt] := by
  rcases (destinations_eq st mask f).1 with h | h <;> rw [h]
  · exact keeps_refl st _
  · exact keeps_inc st _

/-- The only frame that waits, at the source that is looked at: it is admitted, or waits on and nothing has changed. -/
theorem admitInternal_single {st : StrandSt} {w : SwWait} {src : Nat} (hw : st.sw.waiting = [w]) (hs : w.src = src) :
    let t := st.destinations w.mask w.frame
    st.admitInternal src = if t.2.admissible t.1 w.frame then (t.2.waits []).toQueues t.1 w.frame else st := by
  intro t
  have hback : (st.waits []).waits [w] = st := by
    have : st.waits st.sw.waiting = st := rfl
    rwa [hw] at this
  have hdest : (st.waits []).destinations w.mask w.frame = (t.1, t.2.waits []) := (destinations_eq st _ _).2 []
  have hadm : (t.2.waits []).admissible t.1 w.frame = t.2.admissible t.1 w.frame := rfl
  have hloop : st.admitInternal src = (st.waits []).admitLoop src [w] [] := by
    rw [← hw]
    rfl
  rw [hloop, StrandSt.admitLoop, if_neg (by simp [hs])]
  simp only [hdest, hadm]
  split
  · rfl
  · exact hback

/-! ### A frame put on its queues -/

/-- A stored frame, with its place in the buffer. -/
def StrandSt.withFrame (st : StrandSt) (sf : SwFrame) : StrandSt :=
  { st with sw := { st.sw with frames := st.sw.frames.set {} st.sw.nextId sf, nextId := st.sw.nextId + 1 } }

/-- The reference that stands for the next frame stored. -/
def StrandSt.newRef (st : StrandSt) (f : Frame) : SwRef :=
  { fid := st.sw.nextId, cells := frameCells f, eligible := false, written := st.now, inv := f.info.oversize || f.info.err }

/-- References at the tails of the queues `q` of the ports `es`. -/
def StrandSt.pushRefs (st : StrandSt) (es : List Nat) (q : Nat) (r : SwRef) : StrandSt := es.foldl (fun s e => s.pushRef e q r) st

theorem pushRefs_leaves (es : List Nat) (st : StrandSt) (q : Nat) (r : SwRef) :
    let z := st.pushRefs es q r
    Keeps st z [.sw] ∧ z.sw.frames = st.sw.frames ∧ z.sw.waiting = st.sw.waiting ∧
      (es.Nodup → q < 8 → ∀ e j, j < 8 → z.queue e j = if e ∈ es ∧ j = q then st.queue e j ++ [r] else st.queue e j) := by
  induction es generalizing st with
  | nil => exact ⟨keeps_refl st _, rfl, rfl, fun _ _ e j _ => by simp [StrandSt.pushRefs]⟩
  | cons a es ih =>
    obtain ⟨hk, hframes, hwaiting, hqueues⟩ := ih (st.pushRef a q r)
    refine ⟨keeps_trans (keeps_setQueue st a q _) hk, hframes, hwaiting, fun hd hq e j hj => ?_⟩
    obtain ⟨ha, hd⟩ := List.nodup_cons.1 hd
    refine (hqueues hd hq e j hj).trans ?_
    by_cases he : e = a ∧ j = q
    · obtain ⟨rfl, rfl⟩ := he
      simp [ha, StrandSt.pushRef]
    · have hother : (st.pushRef a q r).queue e j = st.queue e j := queue_setQueue_ne st _ hq hj he
      rw [hother]
      simp only [List.mem_cons, or_and_right, he, false_or]

/-- The frame `f` stands at the tail of its class's queue of each destination of `mask`, not yet eligible, and no other queue has changed. -/
def Queued (x z : StrandSt) (mask : Nat) (f : Frame) : Prop :=
  ∀ port < 10, ∀ j < 8, if bitN mask port ∧ j = f.info.cls then
      ∃ b ∈ z.sw.queues.get [] (qKey port j), b.eligible = false ∧ b.written = x.now ∧ (z.sw.frames.get {} b.fid).frame = f ∧
        z.queue port j = x.queue port j ++ [b]
    else z.queue port j = x.queue port j

theorem mem_maskPorts {m e : Nat} : e ∈ maskPorts m ↔ e < 10 ∧ bitN m e = true := by simp [maskPorts]

theorem nodup_maskPorts (m : Nat) : (maskPorts m).Nodup := List.nodup_range.filter _

section
variable {st : StrandSt} {mask : Nat} {f : Frame}

theorem queued_pushRefs {sf : SwFrame} (hf : sf.frame = f) (hc : f.info.cls < 8) :
    Queued st ((st.withFrame sf).pushRefs (maskPorts mask) f.info.cls (st.newRef f)) mask f := by
  obtain ⟨-, hframes, -, hqueues⟩ := pushRefs_leaves (maskPorts mask) (st.withFrame sf) f.info.cls (st.newRef f)
  intro port hp j hj
  have hq := hqueues (nodup_maskPorts mask) hc port j hj
  simp only [mem_maskPorts] at hq
  split
  · next h =>
    rw [if_pos ⟨⟨hp, h.1⟩, h.2⟩] at hq
    refine ⟨st.newRef f, ?_, rfl, rfl, ?_, hq⟩
    · change _ ∈ StrandSt.queue _ port j
      simp [hq]
    · rw [hframes]
      exact (congrArg SwFrame.frame (Tab.get_set_same _ _ _ _)).trans hf
  · next h => rw [hq, if_neg fun hn => h ⟨hn.1.2, hn.2⟩]; rfl

/-- A frame that all its destinations can take has a reference put on each of their queues; one of several destinations is counted. -/
theorem enqueue_admissible (h : st.admissible mask f = true) :
    (maskPorts mask = [] ∧ (st.enqueue mask f).2.2 = st) ∨
      ∃ sf : SwFrame, sf.frame = f ∧
        let t := (st.withFrame sf).pushRefs (maskPorts mask) f.info.cls (st.newRef f)
        (st.enqueue mask f).2.2 = t ∨ (st.enqueue mask f).2.2 = t.inc (Reg.SW_UCNT + 8 * 14) := by
  simp only [StrandSt.admissible, Bool.and_eq_true, List.all_eq_true] at h
  obtain ⟨⟨-, hcap⟩, hroom⟩ := h
  have hfits : (maskPorts mask).filter (fun e => st.capOk e f.info.cls (frameCells f)) = maskPorts mask := List.filter_eq_self.2 hcap
  have hdrops : (maskPorts mask).filter (fun e => !st.capOk e f.info.cls (frameCells f)) = [] := List.filter_eq_nil_iff.2 fun e he => by simp [hcap e he]
  generalize hes : maskPorts mask = es at *
  unfold StrandSt.enqueue
  simp only [hes, hfits, hdrops, List.foldl_nil]
  match es with
  | [] => exact .inl ⟨rfl, rfl⟩
  | [e] =>
    have hfree : frameCells f - min (frameCells f) (st.qminFree e f.info.cls) ≤ st.sharedFree := by
      have := of_decide_eq_true hroom
      omega
    dsimp only
    rw [if_pos hfree]
    exact .inr ⟨_, rfl, .inl rfl⟩
  | e :: e' :: es =>
    have hfree : frameCells f ≤ st.sharedFree := of_decide_eq_true hroom
    dsimp only
    rw [if_pos hfree]
    exact .inr ⟨_, rfl, .inr rfl⟩

theorem enqueue_admissible_leaves (h : st.admissible mask f = true) (hc : f.info.cls < 8) :
    let z := (st.enqueue mask f).2.2
    Keeps st z [.cnt, .sw] ∧ z.sw.waiting = st.sw.waiting ∧ Queued st z mask f := by
  intro z
  rcases enqueue_admissible h with ⟨hnone, hz⟩ | ⟨sf, hf, ht⟩
  · rw [show z = st from hz]
    refine ⟨keeps_refl st _, rfl, fun port hp j _ => ?_⟩
    rw [if_neg fun hb => by simpa [hnone] using mem_maskPorts.2 ⟨hp, hb.1⟩]
  · obtain ⟨hk, -, hwaiting, -⟩ := pushRefs_leaves (maskPorts mask) (st.withFrame sf) f.info.cls (st.newRef f)
    have hqueued := queued_pushRefs (st := st) (mask := mask) hf hc
    have hk' : Keeps st _ [.sw] := keeps_trans (keeps_sw st _) hk
    rcases ht with hz | hz <;> rw [show z = _ from hz]
    · exact ⟨keeps_mono hk' (by simp), hwaiting, hqueued⟩
    · exact ⟨keeps_mono (keeps_append hk' (keeps_inc _ _)) (by simp), hwaiting, hqueued⟩

theorem toQueues_admissible_leaves (h : st.admissible mask f = true) (hm : st.mirrored mask f = false) (hc : f.info.cls < 8) :
    let z := st.toQueues mask f
    Keeps st z [.cnt, .sw] ∧ z.sw.waiting = st.sw.waiting ∧ Queued st z mask f := by
  intro z
  obtain ⟨hk, hrest⟩ := enqueue_admissible_leaves h hc
  have hregs : (st.enqueue mask f).2.2.regs = st.regs := hk .regs (by simp [Part.all]) (by simp)
  have hmirror : (st.enqueue mask f).2.2.mirrored mask f = false := by
    rw [← hm, StrandSt.mirrored, StrandSt.fld, StrandSt.fld, rd_congr hregs]
    rfl
  have hz : z = (st.enqueue mask f).2.2 := by
    rw [show z = st.toQueues mask f from rfl, StrandSt.toQueues, hmirror]
    exact if_neg Bool.false_ne_true
  rw [hz]
  exact ⟨hk, hrest⟩

end

/-- A frame that every destination can take is no longer waiting and stands on their queues; else it waits and nothing has changed. -/
theorem internalAdmit_single {st : StrandSt} {w : SwWait} {src : Nat} (h4 : src ≠ 4) (h5 : src ≠ 5) (hw : st.sw.waiting = [w]) (hs : w.src = src) :
    let t := st.destinations w.mask w.frame
    st.internalAdmit src = if t.2.admissible t.1 w.frame then (t.2.waits []).toQueues t.1 w.frame else st := by
  intro t
  rw [StrandSt.internalAdmit, if_neg (by simp [h4, h5])]
  exact admitInternal_single hw hs

theorem internalAdmit_admits {st : StrandSt} {w : SwWait} {src : Nat} (h4 : src ≠ 4) (h5 : src ≠ 5) (hw : st.sw.waiting = [w]) (hs : w.src = src)
    (hc : w.frame.info.cls < 8) :
    let t := st.destinations w.mask w.frame
    t.2.admissible t.1 w.frame = true → t.2.mirrored t.1 w.frame = false →
      let z := st.internalAdmit src
      Keeps st z [.cnt, .sw] ∧ z.sw.waiting = [] ∧ Queued st z t.1 w.frame := by
  intro t ha hm z
  have hz : z = (t.2.waits []).toQueues t.1 w.frame := (internalAdmit_single h4 h5 hw hs).trans (if_pos ha)
  obtain ⟨hk, hwaiting, hqueued⟩ := toQueues_admissible_leaves (st := t.2.waits []) ha hm hc
  have hkt := keeps_destinations st w.mask w.frame
  have hnow : t.2.now = st.now := hkt .now (by simp [Part.all]) (by simp)
  have hsw : t.2.sw = st.sw := hkt .sw (by simp [Part.all]) (by simp)
  rw [hz]
  refine ⟨keeps_mono (keeps_append (keeps_append hkt (keeps_sw _ _)) hk) (by simp), hwaiting, ?_⟩
  simpa only [Queued, StrandSt.queue, StrandSt.waits, hnow, hsw] using hqueued

/-! ## The words of a V port (R148) -/

/-- The depths of an engine's queues are a matter of the registers. -/
theorem rxDepth_congr {x y : StrandSt} (h : y.regs = x.regs) (n : Nat) : y.rxDepth n = x.rxDepth n :=
  congrArg (fun t => ({ regs := t } : StrandSt).rxDepth n) h

theorem txDepth_congr {x y : StrandSt} (h : y.regs = x.regs) (n : Nat) : y.txDepth n = x.txDepth n :=
  congrArg (fun t => ({ regs := t } : StrandSt).txDepth n) h

/-! ### From its engine -/

/-- Engine `n` with `rest` in its RX queue, and V port `k` with what it has taken. -/
def StrandSt.vTook (st : StrandSt) (k n : Nat) (rest : List QEnt) (v : VPort) : StrandSt :=
  (st.updEng n fun e => { e with rxq := rest }).setVPort k v

/-- The frame that the data words `words` behind header `h` make at V port `k`, as it waits. -/
def vFrame (k : Nat) (h : Word) (words : List Word) : SwWait :=
  let bytes := (words.flatMap fun w => leBytes 4 w.toNat).take (fieldOf h 13 0)
  let t := parseTags bytes
  let tci := match t.c, t.s with
    | some c, _ => some c
    | none, some s => some s
    | none, none => none
  { src := 6 + k, mask := fieldOf h 31 22, frame :=
    { bytes := bytes, info := { src := 6 + k, cls := fieldOf h 21 19, vid := (tci.getD 0) % 4096, pcp := (tci.getD 0) / 8192, tagged := tci.isSome } } }

section
variable {st : StrandSt} {k n : Nat} {q : QEnt} {rest : List QEnt} (hq : (st.eng n).rxq = q :: rest) (hd : st.rxDepth n ≠ 0) (hr : q.ready ≤ st.now)
  (fuel : Nat)
include hq hd hr

/-- A good header starts a frame. -/
theorem vRecv_header (hv : (st.sw.vports.get {} k).hdr = none) (hlo : 14 ≤ fieldOf q.word 13 0) (hhi : fieldOf q.word 13 0 ≤ 9212)
    (hz : fieldOf q.word 18 14 = 0) :
    st.vRecv k n (fuel + 1) = (st.vTook k n rest { st.sw.vports.get {} k with hdr := some q.word, got := [] }).vRecv k n fuel := by
  rw [StrandSt.vRecv]
  simp only [hq, StrandSt.updEng_sw, hv]
  rw [if_neg (by simp [hd, hr]), if_neg (by simp [hlo, hhi, hz])]
  rfl

/-- A bad one is counted alone. -/
theorem vRecv_badHeader (hv : (st.sw.vports.get {} k).hdr = none)
    (hbad : fieldOf q.word 13 0 < 14 ∨ 9212 < fieldOf q.word 13 0 ∨ fieldOf q.word 18 14 ≠ 0) :
    st.vRecv k n (fuel + 1) = ((st.updEng n fun e => { e with rxq := rest }).inc (Reg.SW_UCNT + 8 * 16)).vRecv k n fuel := by
  have hbad' : (decide (fieldOf q.word 13 0 < 14) || decide (9212 < fieldOf q.word 13 0) || fieldOf q.word 18 14 != 0) = true := by
    simpa [or_assoc] using hbad
  rw [StrandSt.vRecv]
  simp only [hq, StrandSt.updEng_sw, hv]
  rw [if_neg (by simp [hd, hr]), if_pos hbad']

section
variable {h : Word} (hv : (st.sw.vports.get {} k).hdr = some h)
include hv

/-- A data word is kept while the frame lacks more. -/
theorem vRecv_data (hlt : (st.sw.vports.get {} k).got.length + 1 < ceilDiv (fieldOf h 13 0) 4) :
    st.vRecv k n (fuel + 1) =
      (st.vTook k n rest { st.sw.vports.get {} k with got := (st.sw.vports.get {} k).got ++ [q.word] }).vRecv k n fuel := by
  rw [StrandSt.vRecv]
  simp only [hq, StrandSt.updEng_sw, hv]
  rw [if_neg (by simp [hd, hr]), if_pos (by simpa using hlt)]
  rfl

/-- With its last word a frame waits at its port. -/
theorem vRecv_last (hlt : ¬ (st.sw.vports.get {} k).got.length + 1 < ceilDiv (fieldOf h 13 0) 4) :
    let t := st.vTook k n rest { st.sw.vports.get {} k with hdr := none, got := [] }
    st.vRecv k n (fuel + 1) = (t.waits (t.sw.waiting ++ [vFrame k h ((st.sw.vports.get {} k).got ++ [q.word])])).vRecv k n fuel := by
  intro t
  rw [StrandSt.vRecv]
  simp only [hq, StrandSt.updEng_sw, hv]
  rw [if_neg (by simp [hd, hr]), if_neg (by simpa using hlt)]
  rfl

end

end

/-- V port `k` has taken all words of its engine `n`, the last of a frame among them; that frame waits behind those before it. -/
def TookFrame (x z : StrandSt) (k n : Nat) (h : Word) (words : List Word) : Prop :=
  Keeps x z [.bead, .sw] ∧ EngsBut x z n ∧ (z.eng n).rxq = [] ∧ z.sw.waiting = x.sw.waiting ++ [vFrame k h words]

theorem vTook_leaves (st : StrandSt) (k n : Nat) (rest : List QEnt) (v : VPort) :
    let z := st.vTook k n rest v
    Keeps st z [.bead, .sw] ∧ EngsBut st z n ∧ (z.eng n).rxq = rest ∧ z.sw.waiting = st.sw.waiting ∧ z.sw.vports.get {} k = v :=
  ⟨keeps_append (keeps_updEng st n _) (keeps_setVPort _ k v), engsBut_updEng st n fun e => { e with rxq := rest },
    congrArg Engine.rxq (st.eng_updEng_same n fun e => { e with rxq := rest }), rfl, StrandSt.vport_setVPort _ k v⟩

/-- The words of a frame that has begun, up to its last. -/
theorem vRecv_frame {k n : Nat} {h : Word} {data : List QEnt} {st : StrandSt} (hq : (st.eng n).rxq = data) (hd : st.rxDepth n ≠ 0)
    (hr : ∀ t ∈ data, t.ready ≤ st.now) (hne : data ≠ []) (hv : (st.sw.vports.get {} k).hdr = some h)
    (hlen : (st.sw.vports.get {} k).got.length + data.length = ceilDiv (fieldOf h 13 0) 4) :
    TookFrame st (st.vRecv k n data.length) k n h ((st.sw.vports.get {} k).got ++ data.map (·.word)) := by
  induction data generalizing st with
  | nil => exact absurd rfl hne
  | cons q rest ih =>
    have hrq := hr q (by simp)
    rw [List.length_cons] at hlen ⊢
    cases rest with
    | nil =>
      rw [List.length_nil] at hlen
      rw [vRecv_last hq hd hrq _ hv (by omega)]
      obtain ⟨hk, heng, hrx, hwaiting, -⟩ := vTook_leaves st k n [] { st.sw.vports.get {} k with hdr := none, got := [] }
      exact ⟨keeps_trans hk (keeps_mono (keeps_sw _ _) (by simp)), heng, hrx, congrArg (· ++ _) hwaiting⟩
    | cons q' rest =>
      rw [List.length_cons] at hlen
      rw [vRecv_data hq hd hrq _ hv (by omega)]
      obtain ⟨hk, heng, hrx, hwaiting, hport⟩ :=
        vTook_leaves st k n (q' :: rest) { st.sw.vports.get {} k with got := (st.sw.vports.get {} k).got ++ [q.word] }
      generalize st.vTook k n (q' :: rest) _ = t at hk heng hrx hwaiting hport ⊢
      have hnow : t.now = st.now := hk .now (by simp [Part.all]) (by simp)
      have hregs : t.regs = st.regs := hk .regs (by simp [Part.all]) (by simp)
      obtain ⟨hk', heng', hrx', hwaiting'⟩ := ih hrx (rxDepth_congr hregs n ▸ hd) (fun x hx => hnow ▸ hr x (by simp [hx])) (by simp) (by rw [hport]; exact hv)
        (by rw [hport]; simp; omega)
      refine ⟨keeps_trans hk hk', engsBut_trans heng heng', hrx', ?_⟩
      rw [hwaiting', hwaiting, hport]
      simp

section
variable {st : StrandSt} {k : Fin 4} {n : Nat} {h : QEnt} {data : List QEnt} (hn : st.vEngine k = some n) (hq : (st.eng n).rxq = h :: data)
  (hr : ∀ t ∈ h :: data, t.ready ≤ st.now) (hd : st.rxDepth n ≠ 0) (hv : (st.sw.vports.get {} k).hdr = none)
include hn hq hr hd hv

theorem vIngress_frame (hlo : 14 ≤ fieldOf h.word 13 0) (hhi : fieldOf h.word 13 0 ≤ 9212) (hz : fieldOf h.word 18 14 = 0)
    (hlen : data.length = ceilDiv (fieldOf h.word 13 0) 4) : TookFrame st (st.vIngress k) k n h.word (data.map (·.word)) := by
  have hwords : 0 < ceilDiv (fieldOf h.word 13 0) 4 := by simp only [ceilDiv]; omega
  have hfirst : st.vIngress k = (st.vTook k n data { st.sw.vports.get {} k with hdr := some h.word, got := [] }).vRecv k n data.length := by
    rw [← vRecv_header hq hd (hr h (by simp)) _ hv hlo hhi hz, StrandSt.vIngress, hn]
    dsimp only
    rw [hq, List.length_cons]
  obtain ⟨hk, heng, hrx, hwaiting, hport⟩ := vTook_leaves st k n data { st.sw.vports.get {} k with hdr := some h.word, got := [] }
  generalize st.vTook k n data _ = t at hk heng hrx hwaiting hport hfirst
  have hnow : t.now = st.now := hk .now (by simp [Part.all]) (by simp)
  have hregs : t.regs = st.regs := hk .regs (by simp [Part.all]) (by simp)
  obtain ⟨hk', heng', hrx', hwaiting'⟩ := vRecv_frame (k := k) (h := h.word) hrx (rxDepth_congr hregs n ▸ hd) (fun x hx => hnow ▸ hr x (by simp [hx]))
    (List.ne_nil_of_length_pos (by omega)) (by rw [hport]) (by rw [hport]; simpa using hlen)
  rw [hfirst]
  refine ⟨keeps_trans hk hk', engsBut_trans heng heng', hrx', ?_⟩
  rw [hwaiting', hwaiting, hport]
  rfl

theorem vIngress_badHeader (hbad : fieldOf h.word 13 0 < 14 ∨ 9212 < fieldOf h.word 13 0 ∨ fieldOf h.word 18 14 ≠ 0) (hdata : data = []) :
    st.vIngress k = (st.updEng n fun e => { e with rxq := [] }).inc (Reg.SW_UCNT + 8 * 16) := by
  subst hdata
  rw [StrandSt.vIngress, hn]
  dsimp only
  rw [hq, List.length_singleton, vRecv_badHeader hq hd (hr h (by simp)) 0 hv hbad]
  rfl

end

/-! ### To its engine -/

/-- The words `ws` have entered engine `n`'s TX queue behind those before them. -/
def WordsPut (x z : StrandSt) (n : Nat) (ws : List Word) : Prop :=
  Keeps x z [.bead] ∧ EngsBut x z n ∧ (z.eng n).txq.map (·.word) = (x.eng n).txq.map (·.word) ++ ws

theorem queuePut_fits {n : Nat} (ws : List Word) {st : StrandSt} (h : (st.eng n).txq.length + ws.length ≤ st.txDepth n) :
    (st.queuePut n ws).2 = [] ∧ WordsPut st (st.queuePut n ws).1 n ws := by
  induction ws generalizing st with
  | nil => exact ⟨rfl, keeps_refl st _, fun _ _ => rfl, (List.append_nil _).symm⟩
  | cons w ws ih =>
    rw [List.length_cons] at h
    have hroom : ¬ (st.txDepth n = 0 || st.txDepth n ≤ (st.eng n).txq.length) = true := by simp; omega
    have htxq : ((st.txAppend n w).eng n).txq = (st.eng n).txq ++ [{ word := w, ready := st.now + 2 }] :=
      congrArg Engine.txq (st.eng_updEng_same n fun e => { e with txq := e.txq ++ [{ word := w, ready := st.now + 2 }] })
    rw [StrandSt.queuePut, if_neg hroom]
    have hdepth : (st.txAppend n w).txDepth n = st.txDepth n := txDepth_congr rfl n
    obtain ⟨hall, hk, heng, hwords⟩ := ih (st := st.txAppend n w) (by rw [htxq, hdepth, List.length_append, List.length_singleton]; omega)
    refine ⟨hall, keeps_trans (keeps_updEng st n _) hk, engsBut_trans (engsBut_updEng st n _) heng, ?_⟩
    rw [hwords, htxq]
    simp

theorem vEgress_fits {st : StrandSt} {k : Fin 4} {n : Nat} (hn : st.vEngine k = some n)
    (h : (st.eng n).txq.length + (st.sw.vports.get {} k).toSend.length ≤ st.txDepth n) :
    let z := st.vEgress k
    Keeps st z [.bead, .sw] ∧ EngsBut st z n ∧ (z.eng n).txq.map (·.word) = (st.eng n).txq.map (·.word) ++ (st.sw.vports.get {} k).toSend ∧
      (z.sw.vports.get {} k).toSend = [] := by
  intro z
  obtain ⟨hall, hk, heng, hwords⟩ := queuePut_fits _ h
  generalize hr : st.queuePut n (st.sw.vports.get {} k).toSend = r at hall hk heng hwords
  have hz : z = r.1.setVPort k { r.1.sw.vports.get {} k with toSend := r.2 } := by
    rw [← hr, show z = st.vEgress k from rfl, StrandSt.vEgress, hn]
    rfl
  rw [hz]
  exact ⟨keeps_append hk (keeps_setVPort _ _ _), heng, hwords, by rw [StrandSt.vport_setVPort, hall]⟩

end Sys2Proof.Machine
end

section
/-! Switch: the commands on its frames. -/

namespace Sys2Proof.Machine

/-- The egress port of a V port's number. -/
theorem egress_vPort (st : StrandSt) (k : Fin 4) (err : BufErr) : st.egress (k.natAdd 6) err = st.egressI (6 + k) err := by
  have h4 : ¬ 6 + k.val < 4 := by omega
  have h6 : ¬ 6 + k.val < 6 := by omega
  simp [StrandSt.egress, h4, h6]

/-- Settles O28: each command by what its operation leaves of the queues and of the port the frame comes from or goes to. -/
theorem switchFrames : Obligations.SwitchFrames := by
  unfold Obligations.SwitchFrames
  intro s dt i o q p k u v r wire w n h data lost bad d y c left ha
  refine ⟨fun hq hu hr => ?_, fun hrun ht hheld hc hl hx hm hhi hq hb hready hg hf => ?_, fun hn hd hs hq hr hhi => ?_, fun hno => ?_,
    fun h4 h5 hw hs hcls => ⟨fun hadm hmir => ?_, fun hadm => ?_⟩, fun hn hq hr hd hv => ⟨fun hlo hup hz hlen => ?_, fun hbad hdata => ?_⟩,
    fun hn hfit => ?_⟩
  · have hmark : markEligible y.now (y.queue o q) = u ++ { r with eligible := decide (r.written + 24 ≤ y.now) } :: v := by
      rw [hq, markEligible_first _ hu hr]
    refine ends_onActive (g := fun st => st.setQueue o q (markEligible st.now (st.queue o q))) rfl ha
      (congrArg (y.setQueue o q) hmark) (keeps_setQueue y o q _) fun e ho hz => ?_
    rw [hz]
    exact ⟨ho, y.queue_setQueue_same o q _, tabBut_setQueue y o q _, rfl⟩
  · have hsel (err : BufErr) : y.egress (p.castLE (by decide)) err = y.launch p q 0 err :=
      (egress_ePort y p err).trans (egressE_idle err (envOf_run hrun) ht hheld hc hl hx hm q.isLt hhi hb hready hg hf)
    intro starts
    refine ⟨?_, fun hlost => ?_⟩
    · obtain ⟨hk, hleft, hframes, hothers, htx⟩ := startTx_leaves y p q r wire wire.length
      rw [hq] at hleft
      refine ends_onActive (g := fun st => st.egress (p.castLE (by decide)) .clean) rfl ha ((hsel .clean).trans (launch_clean hb)) hk fun e ho hz => ?_
      dsimp only [left, starts]
      rw [hz]
      exact ⟨ho, hleft, hframes, hothers, _, htx, rfl, rfl, rfl, decide_eq_true ⟨rfl, rfl, rfl⟩⟩
    · obtain ⟨hk, hregs, hflag, hleft, hcount, hothers, t, htx, hwire, hqueue, hstart, hend⟩ := launch_lost_leaves hb bad hlost
      rw [hq] at hleft
      refine ends_onActive (g := fun st => st.egress (p.castLE (by decide)) (.lost lost bad)) rfl ha (hsel _) hk fun e ho hz => ?_
      dsimp only [left, starts]
      rw [hz]
      exact ⟨ho, hregs, hflag, hleft, hcount, hothers, t, htx, hwire, hqueue, hstart, decide_eq_true hend⟩
  · intro f
    obtain ⟨hk, hregs, hleft, hsend⟩ := egressI_vPort_leaves hn hd hs hq hr q.isLt hhi
    refine ends_onActive (g := fun st => st.egress (k.natAdd 6) .clean) rfl ha (egress_vPort y k .clean) hk fun e ho hz => ?_
    dsimp only [left]
    rw [hz]
    exact ⟨ho, hregs, hleft, hsend⟩
  · have hnot : y.internalReady (6 + k) = false := by
      rcases hno with hn | ⟨j, hn, hbusy⟩
      · exact internalReady_vPort_none hn
      · rw [internalReady_vPort hn]
        rcases hbusy with h0 | hsend
        · simp [h0]
        · simp [hsend]
    exact ends_onActive rfl ha ((egress_vPort y k .clean).trans (egressI_notReady hnot .clean)) (keeps_refl y _) fun e ho _ => ho
  · obtain ⟨hk, hwaiting, hqueued⟩ := internalAdmit_admits (Fin.val_ne_of_ne h4) (Fin.val_ne_of_ne h5) hw hs hcls hadm hmir
    refine ends_onActive (g := fun st => st.internalAdmit o) rfl ha rfl hk fun e ho hz => ?_
    rw [hz]
    exact ⟨ho, hwaiting, hqueued⟩
  · have hstay : y.internalAdmit o = y :=
      (internalAdmit_single (Fin.val_ne_of_ne h4) (Fin.val_ne_of_ne h5) hw hs).trans (if_neg (by rw [hadm]; exact Bool.false_ne_true))
    exact ends_onActive rfl ha hstay (keeps_refl y _) fun e ho _ => ho
  · obtain ⟨hk, heng, hrx, hwaiting⟩ := vIngress_frame hn hq hr hd hv hlo hup hz hlen
    refine ends_onActive (g := fun st => st.vIngress k) rfl ha rfl hk fun e ho hz => ?_
    rw [hz]
    refine ⟨ho, heng, hrx, _, ?_, hwaiting, rfl, rfl, rfl, ?_⟩
    · change _ ∈ (y.vIngress k).sw.waiting.getLast?
      simp [hwaiting]
    · simp [vFrame, List.flatMap_map]
  · refine ends_onActive (g := fun st => st.vIngress k) rfl ha (vIngress_badHeader hn hq hr hd hv hbad hdata)
      (keeps_append (keeps_updEng y n _) (keeps_inc _ _)) fun e ho hz => ?_
    rw [hz]
    exact ⟨ho, engsBut_updEng y n fun e => { e with rxq := [] }, congrArg Engine.rxq (y.eng_updEng_same n fun e => { e with rxq := [] }),
      counted_inc (y.updEng n fun e => { e with rxq := [] }) _⟩
  · obtain ⟨hk, h⟩ := vEgress_fits hn hfit
    refine ends_onActive (g := fun st => st.vEgress k) rfl ha rfl hk fun e ho hz => ?_
    rw [hz]
    exact ⟨ho, h⟩

end Sys2Proof.Machine
end
